-- ==== Sys2Proof/Word.lean ====
section
/-! DEFINITION. Sys2Proof/Word.lean: the word types of the block and their plainest arithmetic. -/
namespace Sys2Proof

/-- A 32-bit register word (R81). -/
abbrev Word := BitVec 32
/-- One byte of memory or of a message. -/
abbrev Byte := BitVec 8
/-- A 64-bit value, held in a LO/HI pair of registers (R93). -/
abbrev Dword := BitVec 64
/-- An event count or its acknowledgement: 16 bits (R89). -/
abbrev Count16 := BitVec 16

end Sys2Proof
end

