-- ==== Sys2Proof/Syntax.lean ====
section
/-! DEFINITION. Sys2Proof/Syntax.lean: the block's commands, one constructor per row of spec/opcode_table.json.
A command is one whole, indivisible step of the part (95_what_each_step_holds.md); its operands are what the
outside gives at that step: an address and a value, received bytes, a measured figure, or which unit it is about. -/
namespace Sys2Proof

/-- One of the 12 mailboxes MB0 to MB11 (R256). -/
abbrev MbId := Fin 12
/-- One of the 128 hardware queues (R310). -/
abbrev QueueId := Fin 128
/-- One of the 32 contexts (R484). -/
abbrev CtxId := Fin 32
/-- One of the 8 flasks (R488). -/
abbrev FlaskId := Fin 8
/-- One of the 48 ingest slots (R344). -/
abbrev SlotId := Fin 48
/-- One of the 16 frame graphs (R444). -/
abbrev GraphId := Fin 16
/-- One of the six media engines RECT, PYR, SGM, FLOW, FEAT, EDGE by its order there (R372). -/
abbrev EngId := Fin 6
/-- One of the 8 profiles of an engine (R373). -/
abbrev ProfId := Fin 8
/-- One of the two Sprue ports. -/
abbrev PortId := Fin 2
/-- One of the four field-bus segments. -/
abbrev SegId := Fin 4
/-- One of the 16 floor sectors (R961). -/
abbrev SectorId := Fin 16
/-- An access class of R38, lowest first. -/
inductive AccessClass where
  | ordinary | privileged | secure
deriving DecidableEq, Repr
/-- A bus master by its 8-bit master ID (R38). -/
abbrev MasterId := BitVec 8

/-- A CAN or CAN FD frame (R873, R882). -/
structure CanFrame where
  /-- [28:0] identifier, base identifier in [10:0] when IDE is 0; [29] IDE; [30] RTR. -/
  idw : Word
  fdf : Bool := false
  brs : Bool := false
  esi : Bool := false
  dlc : Nat := 0
  data : List Byte := []
deriving DecidableEq, Repr

/-- What a configuration request does: read the identity, assign the BARs with memory access, set Bus Master Enable or
the MSI-X enable (R49, R76). -/
inductive ConfigReq where
  | identity
  | assignBars (on : Bool)
  | busMaster (on : Bool)
  | msixEnable (on : Bool)
deriving DecidableEq, Repr

/-- What a master asks of the fabric: a read of so many bytes, or a write. -/
inductive FabricOp where
  | read (len : Nat)
  | write (data : List Byte)
deriving DecidableEq, Repr

/-- A BAR of R50. -/
inductive Bar where
  /-- BAR0 of PF0: the register space -/
  | pf0Regs
  /-- BAR2 of PF0: the ingots -/
  | pf0Ingots
  /-- BAR4 of PF0: MSI-X table and pending bits -/
  | pf0Msix
  /-- BAR0 of PF1: the doorbell pages -/
  | pf1Pages
  /-- BAR2 of PF1: MSI-X table and pending bits -/
  | pf1Msix
deriving DecidableEq, Repr

/-- What a host request asks of a BAR: a read of so many bytes, or a write, a byte whose byte enable is 0 being none. -/
inductive BarOp where
  | read (len : Nat)
  | write (data : List (Option Byte))
deriving DecidableEq, Repr

/-- How the targets of an I3C or two-wire bus answer a transfer (R359). -/
inductive I3cOut where
  /-- the address is NACKed -/
  | addrNack
  /-- a legacy data byte is NACKed -/
  | dataNack
  /-- a legacy target holds SCL low for more than 5 ms -/
  | sclHeld
  /-- the bytes read -/
  | read (data : List Byte)
  /-- ENTDAA: provisional ID in [47:0], BCR in [55:48], DCR in [63:56], in assignment order -/
  | targets (l : List (BitVec 64))
deriving DecidableEq, Repr


/-- The block's commands: one constructor per row of spec/opcode_table.json: the rows with operands in the
table's order, then those without (compiled Lean has tags for 244 constructors with fields). -/
inductive Instr where
  /-- FABRIC_ACCESS (R41): A master's read or write on the Runner fabric is routed, checked against its context's windows and the region table, and takes effect or fails. -/
  | fabricAccess (m : MasterId) (carried : AccessClass) (addr : BitVec 40) (ordered : Bool) (x : FabricOp)
  /-- POISONED_INBOUND_WRITE (R72): A host write TLP with EP set is discarded, reported through AER and counted. -/
  | poisonedInboundWrite (bar : Bar) (off : BitVec 26)
  /-- BAR_ACCESS (R50): A host request through a BAR of PF0 or PF1 reaches the register space, the ingots, the MSI-X table or a doorbell page. -/
  | barAccess (bar : Bar) (off : BitVec 26) (x : BarOp)
  /-- NONPOSTED_READ_COMPLETE (R71): A non-posted BAR read completes once every earlier posted write of its function is visible. -/
  | nonpostedReadComplete (pf1 : Bool)
  /-- ORDERED_DOORBELL_EFFECT (R69): A doorbell with the ordered-write attribute takes effect once every earlier write of its master is visible or reported lost. -/
  | orderedDoorbellEffect (m : MasterId)
  /-- REGISTER_WRITE (R86): A register write without a row of its own passes the checks of R83 and changes only its RW and ACK fields. -/
  | registerWrite (m : MasterId) (cls : AccessClass) (b : Fin 256) (off : BitVec 16) (v : Word)
  /-- ACK_WRITE (R91): A write of an ACK field takes the value, updates the pending flag and may resend the block's MSI-X message. -/
  | ackWrite (b : Fin 96) (j : Fin 32) (v : Count16)
  /-- INT_ENABLE_WRITE (R105): A write of INT_ENABLE that leaves enabled status bits set sends a message on the block's vector. -/
  | intEnableWrite (b : Fin 96) (v : Word)
  /-- MSIX_MESSAGE (R105): The device sends an MSI-X message when an enabled INT_STATUS bit rises. -/
  | msixMessage (k : Fin 96)
  /-- LO_READ (R94): A read of a _LO register returns the low half and copies the high half into the reader's read shadow. -/
  | loRead (m : MasterId) (cls : AccessClass) (b : Fin 256) (off : BitVec 15)
  /-- LO_WRITE (R95): A write of a _LO register of an RW pair places the value in the writer's write shadow. -/
  | loWrite (m : MasterId) (cls : AccessClass) (b : Fin 256) (off : BitVec 15) (v : Word)
  /-- HI_WRITE (R95): A write of a _HI register applies the shadowed low half and the written high half together. -/
  | hiWrite (m : MasterId) (cls : AccessClass) (b : Fin 256) (off : BitVec 15) (v : Word)
  /-- SNAPSHOT_TAKE (R97): A write of SNAPSHOT.TAKE copies the block's snapshot set into its held copies and advances SNAPSHOT_SEQ. -/
  | snapshotTake (b : Fin 96)
  /-- CFG_PARITY_SCAN (R101): The background scan checks the hidden parity of every RW and ACK field at least once per microsecond. -/
  | cfgParityScan (b : Fin 96) (off : BitVec 16) (flip : Option (Fin 32)) (seen : Bool)
  /-- BLOCK_HALT (R116): A block of the halt group halts on its CFG_PARITY cause, starts no work and tears down its dependent contexts. -/
  | blockHalt (b : Fin 96)
  /-- BLOCK_RESUME (R1015): Once its dependent contexts are FAULTED, the Foreman resets a halted block, rewrites its configuration and resumes it. -/
  | blockResume (b : Fin 96)
  /-- POWER_REQUEST (R130): A Foreman write of AON_PWR_REQ requests a power-state transition, which the sequencer starts or refuses. -/
  | powerRequest (v : Word)
  /-- WAKE_SOURCE_ASSERTED (R136): A wake source becomes asserted, which abandons a Calm entry or starts a Calm exit when enabled. -/
  | wakeSourceAsserted (level : BitVec 16)
  /-- ADC_SAMPLE (R164): The Barometer ADC samples the next enabled channel and updates its result. -/
  | adcSample (uv : Nat)
  /-- BARO_THR_WRITE (R165): A write of BARO_THRk restarts the counting of consecutive samples for channel k. -/
  | baroThrWrite (k : Fin 16) (v : Word)
  /-- BARO_BO_CORE_WRITE (R168): A write of BARO_BO_CORE sets the VDD_CORE brown-out threshold within 1 µs, clamped at 70. -/
  | baroBoCoreWrite (v : Word)
  /-- TEMP_UPDATE (R166): A temperature sensor is updated and the TEMP_WARN and TEMP_CRIT causes follow their thresholds. -/
  | tempUpdate (n : Fin 8) (temp : BitVec 16)
  /-- CORE_BROWNOUT (R167): A dip of VDD_CORE or VDD_SRAM below threshold drives QP/QN SAFE and starts a held Class D reset. -/
  | coreBrownout (core sram : Bool)
  /-- AON_BROWNOUT (R167): A dip of VDD_AON below 0.700 V above the power-on-reset threshold is a Class G fault. -/
  | aonBrownout (low : Bool)
  /-- CLOCK_SWITCH_REQUEST (R179): A write of CLK_SELd.REQ is checked and starts a move of the domain to the requested source or is refused. -/
  | clockSwitchRequest (d : Fin 7) (c : BitVec 4)
  /-- CHECKED_SWITCH_COMPLETE (R181): A checked switch stops the old clock and starts the new one, and CLK_SW_EVC advances. -/
  | checkedSwitchComplete (d : Fin 4)
  /-- SOURCE_READY_CHANGE (R174): A clock source's READY flag changes as its oscillator starts or its PLL locks or fails, abandoning a checked switch in progress. -/
  | sourceReadyChange (c : Fin 9) (up : Bool)
  /-- MUX_MOVE_COMPLETE (R184): A glitch-free mux ungates the new clock and PHASE returns to IDLE. -/
  | muxMoveComplete (d : Fin 3)
  /-- MUX_HANG (R186): A mux in SWITCHING for 10 µs enters HUNG and advances CLK_HANG_EVC; a FAB hang starts a Class D reset. -/
  | muxHang (d : Fin 3)
  /-- DOMAIN_RESET_REQUEST (R188): A Secure write of CLK_DOMRST starts a CRU or MED domain reset of a HUNG domain, or is refused. -/
  | domainResetRequest (v : Word)
  /-- AUTO_DOMAIN_RESET (R188): 100 µs after HUNG with no CLK_DOMRST write, the always-on core starts the domain reset itself. -/
  | autoDomainReset (med : Bool)
  /-- DOMAIN_RESET_COMPLETE (R188): A domain reset ends with the mux on HFRC and PHASE IDLE. -/
  | domainResetComplete (med : Bool)
  /-- CLK_GATE_WRITE (R190): A write of a gate bit opens the gate in the next cycle or requests that it close. -/
  | clkGateWrite (r : Fin 3) (v : Word)
  /-- GATE_CLOSE (R190): A gate requested closed closes when its block is next idle. -/
  | gateClose (b : Fin 96)
  /-- METER_MEASUREMENT (R193): A meter channel completes a measurement and sets its PREWARN and FAULT causes. -/
  | meterMeasurement (k : Fin 8) (count : Nat)
  /-- METER_STOPPED (R194): A target with no edge for two reference cycles sets STOPPED and FAULT of the channel. -/
  | meterStopped (k : Fin 8)
  /-- METER_CFG_WRITE (R197): A write of a channel's configuration discards the measurement in progress and starts a new one. -/
  | meterCfgWrite (k : Fin 8) (r : Fin 5) (v : Word)
  /-- CRU_POINT_WRITE (R202): A write of CLK_CRU_POINT restarts PLL_CRU at the new point, or is refused while CRU runs from PLL_CRU. -/
  | cruPointWrite (v : Word)
  /-- PIX_PLL_WRITE (R204): A write of CLK_PIX_MUL or CLK_PIX_DIV sets PLL_PIX, or is refused for RANGE or IN_USE. -/
  | pixPllWrite (div : Bool) (v : Word)
  /-- PORN_RELEASE (R222): The release of PORn samples the BOOT and CHIPID straps and ends the reset. -/
  | pornRelease (boot chip : Fin 4)
  /-- PERSTN_ASSERT (R221): PERSTn, a Hot Reset or DL_Down resets the endpoint, stops egress and tears down every context. -/
  | perstnAssert (pin : Bool)
  /-- BLOCK_RESET (R251): A Secure write of RST_BLK_RESET resets one halt-group block or is refused. -/
  | blockReset (index : BitVec 8)
  /-- BOOT_ROM_START (R224): After a reset the boot ROM rewrites the RST frame, reads OTP, fills the TCM and checks the BOOT strap. -/
  | bootRomStart (otpOk : Bool)
  /-- MB_DOORBELL_RING (R259): A write of MBm_DOORBELL.RING moves an IDLE mailbox to POSTED, or is refused in any other state. -/
  | mbDoorbellRing (m : MbId)
  /-- MAILBOX_COPY (R259): The Foreman copies a posted request into the TCM, moving the mailbox to WORKING, and checks it. -/
  | mailboxCopy (m : MbId)
  /-- MAILBOX_RESPONSE_POST (R262): The Foreman writes a progress or final response and advances MBm_RESP_EVC. -/
  | mailboxResponsePost (m : MbId) (pct : Fin 100)
  /-- MB_RESP_ACK (R263): A write of MBm_RESP_ACK equal to RESP_EVC acknowledges the response and returns a RESPONDED mailbox to IDLE. -/
  | mbRespAck (m : MbId) (v : Count16)
  /-- IDENTIFY (R278): The command returns the part, stepping, firmware release and running-image identity. -/
  | identify (m : MbId)
  /-- CANCEL (R272): The command stops a long command before its commit point, or has no effect after it. -/
  | cancel (m : MbId)
  /-- RELAY (R280): The lead forwards an inner request to a peer's MB8 or MB9 and returns its response. -/
  | relay (m : MbId)
  /-- RELAY_TIMEOUT (R280): No inner response within the inner bound plus 2 ms ends the RELAY with TIMEOUT. -/
  | relayTimeout (m : MbId)
  /-- LOG_READ (R281): The command returns LOG_LEN and up to 224 bytes of the flash log from OFFSET. -/
  | logRead (m : MbId)
  /-- PWR_REQUEST (R282): The command asks the sequencer for a power state, or arms a Calm entry. -/
  | pwrRequest (m : MbId)
  /-- DVFS_POINT (R283): The command makes the DVFS step of R203 to a new crucible point. -/
  | dvfsPoint (m : MbId) (accepted : Bool)
  /-- PMIC_WRITE_RETRY (R1093): A failed VSET write is repeated once after 1 ms, and a second failure logs it and ends the step with TIMEOUT. -/
  | pmicWriteRetry (accepted : Bool)
  /-- CTX_OPEN (R284): The command opens a context, lays out its queues and may bind a PF1 mailbox. -/
  | ctxOpen (m : MbId)
  /-- CTX_CLOSE (R285): The command flushes a context's queued jobs and releases its queues, windows, regions and binding. -/
  | ctxClose (m : MbId)
  /-- CTX_REOPEN (R502): The command returns a FAULTED context to OPEN with its windows and queues kept. -/
  | ctxReopen (m : MbId)
  /-- CTX_WINDOW (R508): The command sets or clears one of a context's eight address windows. -/
  | ctxWindow (m : MbId)
  /-- FLASK_BUILD (R509): The command builds a flask from a set of free crucibles. -/
  | flaskBuild (m : MbId)
  /-- FLASK_SLICES (R510): The command stages a slice table for a flask, applied at the end of the current entry. -/
  | flaskSlices (m : MbId)
  /-- FLASK_DISSOLVE (R511): The command frees a flask's crucibles and disables its regulator. -/
  | flaskDissolve (m : MbId)
  /-- REGULATOR_SET (R512): The command sets the rate and burst of one regulator bucket. -/
  | regulatorSet (m : MbId)
  /-- ABORT_JOB (R498): The command aborts a staged or running job of a context, or reports it already done. -/
  | abortJob (m : MbId)
  /-- QUEUE_CONFIG (R323): The command configures or clears one of Q108–Q127 for a context or firmware. -/
  | queueConfig (m : MbId)
  /-- REGION_SET (R669): The command creates a region-table entry of KIND 0 for a context. -/
  | regionSet (m : MbId)
  /-- REGION_CLEAR (R670): The command invalidates a region entry, zeroing a PROTECTED range first. -/
  | regionClear (m : MbId)
  /-- SCRUB_CFG (R672): The command sets the scrub period and returns the new INTERVAL. -/
  | scrubCfg (m : MbId)
  /-- STREAM_CONFIG (R354): The command configures a stopped ingest slot. -/
  | streamConfig (m : MbId)
  /-- STREAM_START (R355): The command moves a configured slot to ARMED. -/
  | streamStart (m : MbId)
  /-- STREAM_STOP (R356): The command stops a slot after its open frame or at once, and may unconfigure it. -/
  | streamStop (m : MbId)
  /-- STREAM_STOP_TIMEOUT (R356): A MODE 0 stop whose frame has not closed 9 ms after acceptance stops the slot as MODE 1. -/
  | streamStopTimeout (i : SlotId)
  /-- I3C_XFER (R359): The command performs one I3C or legacy transfer, CCC or ENTDAA on a controller. -/
  | i3cXfer (m : MbId) (out : I3cOut)
  /-- ENGINE_CFG (R383): The command configures, enables, disables or clears an engine profile. -/
  | engineCfg (m : MbId)
  /-- GRAPH_LOAD (R465): The command copies and checks a frame graph program and enables its queue. -/
  | graphLoad (m : MbId)
  /-- GRAPH_START (R466): The command moves a STOPPED or, with RESTART, FAULTED graph to IDLE. -/
  | graphStart (m : MbId)
  /-- GRAPH_STOP (R467): The command stops a graph after its run or at once, and may unload it. -/
  | graphStop (m : MbId)
  /-- GRAPH_STOP_TIMEOUT (R467): A MODE 0 stop whose run has not ended 9 ms after acceptance stops the graph as MODE 1. -/
  | graphStopTimeout (g : GraphId)
  /-- MOULD_LOAD (R809): The command checks and copies a mould image into a bank of every mould core and marks it VALID. -/
  | mouldLoad (m : MbId)
  /-- FSU_CONFIG (R815): The command configures, starts, stops or clears the Frame Synthesis Unit. -/
  | fsuConfig (m : MbId)
  /-- FSU_ASSIST (R811): The command lends a flask to the FSU or withdraws it. -/
  | fsuAssist (m : MbId)
  /-- DISP_TIMING (R856): The command stores or commits a timing set, powers the panel on or off, or stages the video source. -/
  | dispTiming (m : MbId)
  /-- DISP_REGION (R848): The command submits a command-mode region update to one of 16 slots. -/
  | dispRegion (m : MbId)
  /-- EGRESS_RING (R858): The command configures, starts, stops or clears an egress ring. -/
  | egressRing (m : MbId)
  /-- FBC_CONFIG (R899): The command configures an OFF field-bus controller, its queues and filters. -/
  | fbcConfig (m : MbId)
  /-- FBC_START (R902): The command moves a configured controller to INTEGRATING. -/
  | fbcStart (m : MbId)
  /-- FBC_STOP (R903): The command stops a controller after its frame or at once, and may unconfigure it. -/
  | fbcStop (m : MbId) (rxBusy : Bool)
  /-- FBC_STOP_TIMEOUT (R903): A MODE 0 stop still waiting 5 ms after acceptance stops the controller as MODE 1. -/
  | fbcStopTimeout (k : SegId)
  /-- FBC_REJOIN (R904): The command starts bus-off recovery of a controller without AUTO_RECOVER. -/
  | fbcRejoin (m : MbId)
  /-- INP_REGISTRY (R943): The command sets policy, binds, unbinds, reads or releases a registry address. -/
  | inpRegistry (m : MbId)
  /-- INP_SOUNDING (R944): The command measures a node's cable delay by echo exchanges and sends it DELAY. -/
  | inpSounding (m : MbId)
  /-- EDGE_FLOOR (R964): The command replaces the floor plane and geometry of an EDGE profile from its next run. -/
  | edgeFloor (m : MbId)
  /-- QCH_ENVELOPE (R987): The command sets the braking envelope parameters of Quench. -/
  | qchEnvelope (m : MbId)
  /-- QCH_MASKS (R987): The command sets the sector masks, cliff inputs, staleness and snoop matchers of Quench. -/
  | qchMasks (m : MbId)
  /-- QCH_ARM (R988): The command runs the self-test if needed and arms Quench, driving the pair in RUN. -/
  | qchArm (m : MbId) (result : BitVec 6)
  /-- QCH_DISARM (R989): The command enters DISARMED with the pair SAFE. -/
  | qchDisarm (m : MbId)
  /-- QCH_RESUME (R990): The command issues RESUME through QCH_CTL. -/
  | qchResume (m : MbId)
  /-- QCH_SELFTEST (R991): The command runs the six-step self-test in DISARMED. -/
  | qchSelftest (m : MbId) (result : BitVec 6)
  /-- SPRUE_TRAIN (R743): The command, on the lead, trains the named Sprue ports until every chip is reachable. -/
  | sprueTrain (m : MbId)
  /-- SPRUE_SEAL (R1048): The command derives the link key and seals or unseals a port at a SEAL_MARK. -/
  | sprueSeal (m : MbId) (check : Option Word) (salt : Word)
  /-- CKPT_EXPORT (R768): The command builds a checkpoint image in the stage or writes a part of it to a flash slot. -/
  | ckptExport (m : MbId) (flashOk : Bool)
  /-- CKPT_IMPORT (R772): The command verifies a checkpoint image whole and then writes its entries to their addresses. -/
  | ckptImport (m : MbId)
  /-- MANIFEST_READ (R774): The command returns a checkpoint manifest header and its validity. -/
  | manifestRead (m : MbId)
  /-- FW_STAGE (R287): The command checks a firmware image staged in ingots and names its target slot. -/
  | fwStage (m : MbId)
  /-- FW_WRITE_SLOT (R289): The command erases, programs, verifies and commits the staged image to the target slot. -/
  | fwWriteSlot (m : MbId)
  /-- FW_RESTART (R290): The command posts DONE and then forces a watchdog expiry. -/
  | fwRestart (m : MbId)
  /-- FW_COMMIT_ROLLBACK (R1042): The command raises the OTP anti-rollback counter to the running image's ROLLBACK and revokes older key slots. -/
  | fwCommitRollback (m : MbId)
  /-- DEBUG_CHALLENGE (R1039): The command returns a fresh nonce and the device identity for an unlock. -/
  | debugChallenge (m : MbId)
  /-- DEBUG_UNLOCK (R1040): The command verifies a signed challenge, zeroes protected regions and enters the authenticated state. -/
  | debugUnlock (m : MbId)
  /-- DEBUG_LOCK (R1041): The command moves the authenticated state to locked. -/
  | debugLock (m : MbId)
  /-- RNG_READ (R1045): The command returns up to 224 bytes from the DRBG. -/
  | rngRead (m : MbId)
  /-- WDOG_KICK (R293): A write of FMN_WDOG_KICK with 0x6B restarts the watchdog period. -/
  | wdogKick (key : Byte)
  /-- QUEUE_PUSH (R315): A write of PUSH with COUNT and flags requests that landing slots be copied into the ring. -/
  | queuePush (q : QueueId) (master : MasterId) (count : Fin 32) (first last : Bool)
  /-- PUSH_TAKES_EFFECT (R315): The landing entries are copied into the ring and TAIL and OCCUPANCY advance in one cycle. -/
  | pushTakesEffect (q : QueueId) (mismatch : Bool)
  /-- QUEUE_POP (R319): A write of POP with OP 1 removes up to COUNT entries from HEAD. -/
  | queuePop (q : QueueId) (count : Fin 8192) (arm mismatch : Bool)
  /-- DROP_PACKET (R320): A write of POP with OP 2 discards entries up to the next LAST, entering DROPPING if none is present. -/
  | dropPacket (q : QueueId) (arm mismatch : Bool)
  /-- QUEUE_ARM (R321): A write of POP with OP 3 arms notification without popping. -/
  | queueArm (q : QueueId)
  /-- CREDIT_RETURN (R319): The credits of popped or dropped entries return one FAB cycle later. -/
  | creditReturn (q : QueueId)
  /-- QUEUE_RESET_CMD (R325): A Secure write of QUE_RESET_CMD.GO resets the named queue and advances its EPOCH. -/
  | queueResetCmd (q : QueueId)
  /-- QUEUE_RESET_RECORD (R327): After a reset of a host queue the Foreman posts a QUEUE_RESET record first in the new epoch. -/
  | queueResetRecord (c : CtxId)
  /-- CSI_FRAME_START (R346): A Frame Start packet opens a frame in the next buffer or drops it when every buffer is in use. -/
  | csiFrameStart (port : Fin 6) (link : Fin 2) (vc : Fin 16) (num : BitVec 16) (hdr : Fin 3) (off : Fin 21)
  /-- CSI_LONG_PACKET (R347): A long packet is routed to its slot and stored as the next line of the open frame. -/
  | csiLongPacket (port : Fin 6) (link : Fin 2) (vc : Fin 16) (dt : BitVec 6) (payload : List Byte) (hdr : Fin 3) (crcErr lost : Bool)
  /-- CSI_FRAME_END (R348): A Frame End closes the frame, zero-fills missing lines, writes the header and raises the frame-end event. -/
  | csiFrameEnd (port : Fin 6) (link : Fin 2) (vc : Fin 16) (hdr : Fin 3) (off : Fin 21)
  /-- FRAME_TIMEOUT (R348): A frame still open FRAME_TIMEOUT after its Frame Start closes with TRUNCATED. -/
  | frameTimeout (i : SlotId)
  /-- STALL_TIMEOUT (R352): A running slot with no Frame Start for STALL_TIMEOUT makes its STALLED cause true. -/
  | stallTimeout (i : SlotId)
  /-- ING_RELEASE_WRITE (R349): A write of RELEASE frees buffers, or is refused and counted as REL_ERR. -/
  | ingReleaseWrite (i : SlotId) (v : BitVec 16)
  /-- I3C_IBI_REQUEST (R358): A hot-join or in-band interrupt request from a target is NACKed. -/
  | i3cIbiRequest (ctrl : Fin 2) (hotJoin : Bool)
  /-- TRIGGER_ARRIVAL (R375): A trigger link of a CHAIN profile receives an arrival and makes or joins toward a start. -/
  | triggerArrival (e : EngId) (p : ProfId)
  /-- RUN_BEGIN (R376): An idle engine begins its oldest pending start, resolving its inputs and assigning RUNSEQ. -/
  | runBegin (e : EngId)
  /-- RUN_END (R380): An engine run ends, writes its header and raises the END event. -/
  | runEnd (e : EngId) (stall : Nat)
  /-- RUN_STOP (R407): A run met by disable or teardown stops at the next line and ends ABORTED. -/
  | runStop (e : EngId) (lines stall : Nat)
  /-- RUN_LIMIT (R410): A run reaching RUN_LIMIT stops with STATUS ABORTED. -/
  | runLimit (e : EngId) (lines stall : Nat)
  /-- GRAPH_TRIGGER (R447): A frame-end event of a trigger slot gives a graph a trigger, starting, pending or dropping an run. -/
  | graphTrigger (g : GraphId)
  /-- RUN_NODE (R451): A RUN node starts a profile run and makes its token outstanding. -/
  | runNode (g : GraphId)
  /-- WAIT_NODE (R453): A WAIT node waits for tokens or for a time after the trigger. -/
  | waitNode (g : GraphId)
  /-- WAIT_NODE_TIMEOUT (R453): A token WAIT whose TIMEOUT expires completes with WAIT_TIMEOUT. -/
  | waitNodeTimeout (g : GraphId)
  /-- SIGNAL_NODE (R456): A SIGNAL node builds a record and pushes it to the graph's queue or the FSU motion input. -/
  | signalNode (g : GraphId)
  /-- BRANCH_NODE (R454): A BRANCH node jumps on the frame count or a token outcome. -/
  | branchNode (g : GraphId)
  /-- TIMESTAMP_NODE (R455): A TIMESTAMP node copies TB_NOW into a stamp. -/
  | timestampNode (g : GraphId)
  /-- END_NODE (R459): When every token has completed, END releases the trigger frames and ends the run. -/
  | endNode (g : GraphId)
  /-- INSTANCE_LIMIT (R460): An run running past INSTANCE_LIMIT ends at once with a LIMIT record. -/
  | instanceLimit (g : GraphId)
  /-- JOB_STAGE (R547): The Foreman drains a job packet from Q(2c), reserves its record credit, checks it and stages it. -/
  | jobStage (c : CtxId)
  /-- JOB_ADMIT (R493): The scheduler admits a context's oldest staged job that fits the time remaining in its entry. -/
  | jobAdmit (f : FlaskId)
  /-- JOB_START (R494): An admitted job starts on every crucible of its flask. -/
  | jobStart (f : FlaskId)
  /-- JOB_COMMIT (R497): A job reaches its commit point, its outcome is fixed and its record is placed. -/
  | jobCommit (f : FlaskId)
  /-- BUDGET_KILL (R496): A job whose budget elapses is stopped on every crucible and its context enters TEARDOWN. -/
  | budgetKill (f : FlaskId)
  /-- TEARDOWN_COMPLETE (R500): Once its writable hearth areas are zeroed, the context enters FAULTED and its KIND 2 record is placed. -/
  | teardownComplete (c : CtxId)
  /-- ABORT_STOP (R498): An aborted running job stops at the next tile boundary and commits ABORTED. -/
  | abortStop (f : FlaskId)
  /-- SLICE_ENTRY_END (R493): A slice entry ends, the next begins, and a staged table may be applied. -/
  | sliceEntryEnd (f : FlaskId)
  /-- NOTICE_PLACE (R556): A held notice record is placed when a credit of Q(2c + 1) returns. -/
  | noticePlace (c : CtxId)
  /-- CONV (R582): The operation computes a convolution on the tensor array. -/
  | conv (f : FlaskId) (stall : Nat)
  /-- CONV_TRANSPOSE (R583): The operation computes the transposed convolution. -/
  | convTranspose (f : FlaskId) (stall : Nat)
  /-- CONV_BWD_WEIGHT (R584): The operation computes the weight gradient of a convolution. -/
  | convBwdWeight (f : FlaskId) (stall : Nat)
  /-- MATMUL (R585): The operation computes a batched matrix product with bias. -/
  | matmul (f : FlaskId) (stall : Nat)
  /-- ATTENTION (R586): The operation computes scaled, masked softmax attention. -/
  | attention (f : FlaskId) (stall : Nat)
  /-- POOL (R587): The operation computes max, average or global-average pooling. -/
  | pool (f : FlaskId) (stall : Nat)
  /-- RESIZE (R588): The operation resizes by nearest or bilinear sampling. -/
  | resize (f : FlaskId) (stall : Nat)
  /-- ELTWISE (R589): The operation computes an element-wise binary operation with broadcast. -/
  | eltwise (f : FlaskId) (stall : Nat)
  /-- ACT (R580): The operation applies an activation function. -/
  | act (f : FlaskId) (stall : Nat)
  /-- ACT_BWD (R580): The operation applies an activation derivative to a gradient. -/
  | actBwd (f : FlaskId) (stall : Nat)
  /-- NORM (R590): The operation computes layer or RMS normalisation. -/
  | norm (f : FlaskId) (stall : Nat)
  /-- SOFTMAX (R591): The operation computes softmax along dimension 0. -/
  | softmax (f : FlaskId) (stall : Nat)
  /-- SOFTMAX_XENT (R592): The operation computes the cross-entropy loss and its gradient. -/
  | softmaxXent (f : FlaskId) (stall : Nat)
  /-- REDUCE (R593): The operation reduces dimensions by sum, mean, max, min or argmax. -/
  | reduce (f : FlaskId) (stall : Nat)
  /-- TRANSPOSE (R594): The operation permutes the dimensions of a tensor. -/
  | transpose (f : FlaskId) (stall : Nat)
  /-- CONCAT (R594): The operation joins up to four tensors along a dimension. -/
  | concat (f : FlaskId) (stall : Nat)
  /-- PAD (R594): The operation pads a tensor with a value. -/
  | pad (f : FlaskId) (stall : Nat)
  /-- GATHER (R595): The operation gathers slices by index. -/
  | gather (f : FlaskId) (stall : Nat)
  /-- SCATTER (R595): The operation scatters slices by index, replacing or adding. -/
  | scatter (f : FlaskId) (stall : Nat)
  /-- TOPK (R596): The operation selects the K largest values and their indices. -/
  | topk (f : FlaskId) (stall : Nat)
  /-- BOX_SUPPRESS (R597): The operation performs non-maximum suppression of boxes. -/
  | boxSuppress (f : FlaskId) (stall : Nat)
  /-- CONVERT (R598): The operation converts a tensor between formats and scales. -/
  | convert (f : FlaskId) (stall : Nat)
  /-- OPT_SGD (R599): The operation applies an SGD update with momentum and weight decay. -/
  | optSgd (f : FlaskId) (stall : Nat)
  /-- OPT_ADAM (R600): The operation applies an Adam update. -/
  | optAdam (f : FlaskId) (stall : Nat)
  /-- COPY (R594): The operation moves codes between tensors, encoding a Flux sequence when OUT is compressed. -/
  | copy (f : FlaskId) (stall : Nat)
  /-- FILL (R601): The operation writes a value into every element. -/
  | fill (f : FlaskId) (stall : Nat)
  /-- QPUSH (R605): The operation pushes entries to a permitted queue as its context. -/
  | qpush (f : FlaskId) (stall : Nat)
  /-- QPOP (R606): The operation pops entries from a permitted queue with a status. -/
  | qpop (f : FlaskId) (stall : Nat)
  /-- QPOP_TIMEOUT (R606): A waiting QPOP whose TIMEOUT elapses pops nothing and proceeds. -/
  | qpopTimeout (f : FlaskId) (stall : Nat)
  /-- WAIT (R604): The operation polls a word until its condition holds. -/
  | wait (f : FlaskId) (stall : Nat)
  /-- WAIT_OP_TIMEOUT (R604): A WAIT whose TIMEOUT elapses proceeds with an element count of 0. -/
  | waitOpTimeout (f : FlaskId) (stall : Nat)
  /-- FENCE (R602): The operation orders the job's accesses at CHIP or SYSTEM scope. -/
  | fence (f : FlaskId) (stall : Nat)
  /-- FENCE_COMPLETE (R62): A fence completes once its earlier writes are visible or acknowledged by peers. -/
  | fenceComplete (f : FlaskId) (stall : Nat)
  /-- SIGNAL (R603): The operation fences and writes a value atomically to an address. -/
  | signal (f : FlaskId) (stall : Nat)
  /-- IMAGE_RELOAD (R668): The Foreman reloads a TCM page of the running image from flash and rechecks its hash. -/
  | imageReload (readOk : Bool)
  /-- SPRUE_TRAIN_STAGE (R726): A Sprue port advances through DETECT, ALIGN and PARAM to UP, or goes DOWN. -/
  | sprueTrainStage (p : PortId) (lanes : BitVec 8) (peer : Fin 4) (n : Fin 5) (peerPort : PortId) (release : Word)
  /-- LANE_FAILURE (R729): A lane with too many sync errors makes the port narrow and replay. -/
  | laneFailure (p : PortId) (lane : Fin 8)
  /-- FLIT_RECEIVED (R730): A flit is checked for CRC, sequence and tag and accepted, or discarded with a NAK. -/
  | flitReceived (p : PortId) (b : List Byte)
  /-- SEAL_MARK (R740): A SEAL_MARK flit switches the port between sealed and unsealed mode. -/
  | sealMark (p : PortId) (salt : Word)
  /-- REPLAY_TIMER (R730): 2 µs without an advance of ACK makes the sender resend, and a fourth resend takes the port DOWN. -/
  | replayTimer (p : PortId)
  /-- READ_MESSAGE (R723): A remote READ arrives and is served or forwarded. -/
  | readMessage (p : PortId)
  /-- WRITE_MESSAGE (R723): A remote WRITE arrives and takes effect, in order when ORDERED, or is forwarded. -/
  | writeMessage (p : PortId)
  /-- READ_DATA_MESSAGE (R723): A READ_DATA response arrives and completes a remote read. -/
  | readDataMessage (p : PortId)
  /-- WRITE_ACK_MESSAGE (R733): A WRITE_ACK arrives and acknowledges a remote write. -/
  | writeAckMessage (p : PortId)
  /-- MAILBOX_MESSAGE (R735): A MAILBOX message delivers a relayed request segment to MB8 or MB9 or a response. -/
  | mailboxMessage (p : PortId)
  /-- QUEUE_MESSAGE (R735): A QUEUE message delivers an entry into Q100 + k. -/
  | queueMessage (p : PortId)
  /-- TSYNC_ANSWER (R742): A TSYNC answer gives the offset, and TB_NOW steps or slews toward it. -/
  | tsyncAnswer (eighth : Fin 8)
  /-- TILE_DECISION (R803): When a tile is ready and a core idle, the monitor dispatches it or makes it fall back. -/
  | tileDecision (stall : Nat)
  /-- TILE_COMPLETE (R803): A mould core finishes a tile, and its blend is written if before the deadline or discarded as FB_LATE. -/
  | tileComplete (c : Fin 8)
  /-- LINE_START (R842): A line is scanned out, sending FILL for bytes not yet fetched. -/
  | lineStart (fetched : Nat)
  /-- RELOCK_COMPLETE (R845): A timing change needing a relock restarts in the new timing or falls back to the old. -/
  | relockComplete (locked : Bool)
  /-- DISP_FLIP_WRITE (R839): A write of DISP_FLIP sets the plane address used from the next frame start. -/
  | dispFlipWrite (v : Word)
  /-- REGION_UPDATE_START (R849): The link starts the next queued region update, at a TE edge when one is configured. -/
  | regionUpdateStart (te : Bool)
  /-- EGRESS_FRAME_TAKE (R852): An egress ring takes a source frame and starts its copy or drops it. -/
  | egressFrameTake (e : Fin 8)
  /-- EGRESS_COPY_END (R853): When every write of a frame is issued the egress entry is placed and WRITTEN advances. -/
  | egressCopyEnd (e : Fin 8) (issued : Nat)
  /-- EG_RETURN_WRITE (R852): A write of EGe_RETURN returns host buffers, or is refused and counted. -/
  | egReturnWrite (e : Fin 8) (v : BitVec 16)
  /-- FBC_INTEGRATION (R876): After 11 recessive bits an INTEGRATING controller enters RUNNING. -/
  | fbcIntegration (k : SegId)
  /-- TXQ_POP (R881): The controller pops a TXQ packet when a completion credit and a FIFO buffer are free. -/
  | txqPop (k : SegId)
  /-- TX_ARBITRATION (R883): At each start of arbitration the controller offers the winning pending request. -/
  | txArbitration (k : SegId) (ramBad : Bool)
  /-- TX_CONFIRM (R885): A transmission confirmed at the last EOF bit completes its frame. -/
  | txConfirm (k : SegId) (ago : Nat) (fine : Fin 40) (loop : Nat) (tdcv : BitVec 7)
  /-- TX_ATTEMPT_FAIL (R884): An attempt lost in arbitration or ended in error is retried or completes ONE_SHOT_FAILED. -/
  | txAttemptFail (k : SegId) (tdcv : BitVec 7)
  /-- TXB_REQUEST (R888): A write of FBCk_TXB_REQ requests transmission of dedicated buffers. -/
  | txbRequest (k : SegId) (bits : BitVec 8)
  /-- TXB_ABORT (R888): A write of FBCk_TXB_ABORT aborts dedicated buffer requests. -/
  | txbAbort (k : SegId) (bits : BitVec 8)
  /-- FRAME_RECEIVED (R889): A frame received without error is snooped, filtered and placed in a buffer. -/
  | frameReceived (k : SegId) (f : CanFrame) (ago : Nat) (fine : Fin 40)
  /-- RXQ_DELIVERY (R891): An RXQ frame is delivered to Q64 + 2k once the queue has credit. -/
  | rxqDelivery (k : SegId) (ramBad : Bool)
  /-- BUS_ERROR (R895): A detected bus error updates TEC, REC and LEC. -/
  | busError (k : SegId) (code : Fin 7) (dataPhase : Bool) (change : Fin 4)
  /-- RECOVERED (R896): After 128 sequences of 11 recessive bits the controller returns to RUNNING error active. -/
  | recovered (k : SegId) (n : Fin 129)
  /-- PROTOCOL_EXCEPTION (R880): An XL-format frame under PEX puts the controller in protocol exception. -/
  | protocolException (k : SegId)
  /-- PEX_RESUME (R880): After 11 recessive bits the controller leaves protocol exception. -/
  | pexResume (k : SegId)
  /-- RESTRICTION_CHANGE (R897): A restriction takes effect at the end of a frame or is lifted at bus idle. -/
  | restrictionChange (k : SegId)
  /-- OFFER_TIMEOUT (R929): An ASSIGN without CAPS for 100 ms returns the address to its previous state. -/
  | offerTimeout (a : BitVec 8)
  /-- HEARTBEAT_LOSS (R935): A node without heartbeat for HB_PERIOD × HB_MISS + 1 ms enters LOST. -/
  | heartbeatLoss (a : BitVec 8)
  /-- LINGER_EXPIRY (R929): A LOST address becomes FREE or BOUND LINGER seconds after entry. -/
  | lingerExpiry (a : BitVec 8)
  /-- CHIP_HEARTBEAT_SEND (R936): Each device sends its chip HEARTBEAT every LEAD_HB on each INP segment. -/
  | chipHeartbeatSend (k : SegId)
  /-- TIME_SYNC_SEND (R938): Each device sends TIME_SYNC every TIME_PERIOD. -/
  | timeSyncSend (k : SegId)
  /-- TIME_FOLLOW_SEND (R938): Once TIME_SYNC's SOF stamp is known, the TIME_FOLLOW describing it is sent. -/
  | timeFollowSend (k : SegId)
  /-- CLIFF_PIN_CHANGE (R978): An enabled CLIFF pin held at its trip level for CLIFF_DEB makes cause 1 present or absent. -/
  | cliffPinChange (j : Fin 8) (high : Bool)
  /-- ODOM_SNOOP (R977): A snooped ODOM frame updates the speed and braking envelope and the causes. -/
  | odomSnoop (k : SegId) (f : CanFrame)
  /-- CLIFF_SNOOP (R978): A snooped CLIFF or bumper frame updates causes 4 and 5. -/
  | cliffSnoop (k : SegId) (f : CanFrame)
  /-- SECTOR_STALE (R978): A sector whose last publication is older than STALE[s] becomes stale. -/
  | sectorStale (i : SectorId)
  /-- ODOM_TIMEOUT (R978): An ODOM matcher without a frame for ODOM_TIMEOUT makes cause 7 present. -/
  | odomTimeout (i : Fin 8)
  /-- CLIFF_MATCHER_TIMEOUT (R978): A CLIFF matcher without a frame for 60 ms makes cause 4 or 5 present. -/
  | cliffMatcherTimeout (i : Fin 8)
  /-- READBACK_MISMATCH (R985): A readback mismatch lasting 10 µs makes cause 10 present or is READBACK_STUCK. -/
  | readbackMismatch (qpRb qnRb : Bool)
  /-- TRNG_RESTART (R1044): 1 s after the third failure the source restarts and TRNG_OK returns after 1024 good samples. -/
  | trngRestart (passes : Bool)
  /-- SAMPLE_PRELOAD (R1073): The TAP instruction samples and preloads the boundary register. -/
  | samplePreload (levels : BitVec 78) (shift : BitVec 234)
  /-- EXTEST (R1073): The TAP instruction drives and observes balls from the boundary register. -/
  | extest (levels : BitVec 78) (shift : BitVec 234)
  /-- MBOX (R1074): An Update-DR of the MBOX register reads or writes a word of MB10. -/
  | mbox (op : Fin 4) (word : Byte) (data : Word)
  /-- OTP_PROG (R1037): An Update-DR of the OTP register programs DBG_KEY_HASH, KP or LIFECYCLE, or is refused. -/
  | otpProg (field : Byte) (value : BitVec 384) (ends : Bool)
  /-- AON_POWER_ON_RESET_END (R160): VDD_AON rising above V_PORR ends the AON power-on reset, samples the straps, leaves the calendar at 2000-01-01 with UNSET true and starts the boot order into Breeze. -/
  | aonPowerOnResetEnd (boot chip : Fin 4) (belowUs : Nat)
  /-- PCIE_LINK_UP (R239): Link training ends, PCIE_LINK.UP becomes 1 and the endpoint from then on completes configuration requests successfully. -/
  | pcieLinkUp (width rate : Fin 5)
  /-- CONFIGURATION_REQUEST (R76): A host configuration request to PF0 or PF1 enumerates the endpoint, assigns the BARs, or sets Bus Master Enable and the MSI-X enable. -/
  | configurationRequest (pf1 : Bool) (what : ConfigReq)
  /-- WAIT_TIME_REACHED (R453): A WAIT node with KIND 1 completes when TB_NOW reaches TB_TRIG + 100 × DELAY, and the run proceeds. -/
  | waitTimeReached (g : GraphId)
  /-- STOPPED_TARGET_EDGE (R194): The first edge of a stopped target clock returns the meter channel's STOPPED status to 0. -/
  | stoppedTargetEdge (k : Fin 8)
  /-- AER_CORRECTABLE_ERROR (R74): The endpoint detects a Receiver Error, Bad TLP, Bad DLLP, Replay Timer Timeout or REPLAY_NUM Rollover on the link and reports it through AER. -/
  | aerCorrectableError (kind : Fin 5)
  /-- FUNCTION_LEVEL_RESET (R54): A Function Level Reset of PF1 tears down the PF1 contexts, closes their pages, masks the PF1 vectors and unbinds its mailboxes. -/
  | functionLevelReset
  /-- POWER_TRANSITION_COMPLETE (R132): A transition completes, STATE shows the new state and AON_PWR_EVC advances. -/
  | powerTransitionComplete
  /-- CALM_ENTRY_COMMIT (R133): At the AON tick at which the sequencer stops XHF, Calm entry passes its commit point. -/
  | calmEntryCommit
  /-- CALENDAR_TICK (R142): At each AON tick the subsecond advances and carries into the calendar fields by the Gregorian rules. -/
  | calendarTick
  /-- CAL_CAPTURE (R144): A write of AON_CAL_CAPTURE.TAKE requests a capture of the calendar and TB_NOW. -/
  | calCapture
  /-- CAL_CAPTURE_COPY (R144): Between two AON ticks the calendar, weekday and TB_NOW are copied into AON_CAL_CAP and the sequence advances. -/
  | calCaptureCopy
  /-- CAL_COMMIT (R145): A write of AON_CAL_COMMIT.GO copies and validates the staged date and time. -/
  | calCommit
  /-- CAL_COMMIT_APPLY (R145): At the next AON tick a valid commit loads the calendar, computes the weekday and clears UNSET, INACCURATE and WRAPPED. -/
  | calCommitApply
  /-- AON_POWER_ON_RESET (R160): VDD_AON falling below V_PORF resets the whole always-on domain, grave latch included. -/
  | aonPowerOnReset
  /-- BROWNOUT_RELEASE (R167): Once the rail has stayed above its release level for 1 ms, the held reset ends and the device comes up in Breeze. -/
  | brownoutRelease
  /-- XLF_STOP (R200): When the XLF detector sees the oscillation stop, the always-on core moves AON to LFRC by hardware. -/
  | xlfStop
  /-- PORN_ASSERT (R217): PORn asserted resets everything the PORn column of R217 marks. -/
  | pornAssert
  /-- WARMN_ASSERT (R216): WARMn asserted starts a warm-scope reset. -/
  | warmnAssert
  /-- CLASS_D_RESET (R1011): A Class D fault drives QP/QN SAFE, stops all output and starts a warm-scope reset with its DETAIL recorded. -/
  | classDReset
  /-- PERSTN_DEASSERT (R239): PERSTn deasserted lets link training start and ends a PE_WAKEn assertion. -/
  | perstnDeassert
  /-- TRSTN_ASSERT (R215): TRSTn resets the JTAG test access port only. -/
  | trstnAssert
  /-- BOOT_CLOCKS (R224): Once XHF and PLL_BUS are READY the ROM moves BUS, TB and FAB to PLL_BUS and the device is in Breeze. -/
  | bootClocks
  /-- FLASH_SLOT_CHECK (R228): The ROM reads a slot header and applies checks 1 to 6, refusing the slot or loading its payload. -/
  | flashSlotCheck
  /-- PAYLOAD_HASH_CHECK (R230): When the payload is in TCM the ROM checks its SHA-384 and accepts the slot or refuses it and clears the TCM. -/
  | payloadHashCheck
  /-- BOOT_PUSH_GO (R234): A write of RST_BOOT_PUSH.GO in WAIT_PUSH closes the window and verifies the pushed image, or is refused outside WAIT_PUSH. -/
  | bootPushGo
  /-- PUSH_VERIFY_END (R234): The pushed image is accepted, or is refused and the window reopens in WAIT_PUSH. -/
  | pushVerifyEnd
  /-- FW_INIT_HANDOFF (R236): The ROM records the accepted image, starts the watchdog and jumps to the entry point. -/
  | fwInitHandoff
  /-- FIRMWARE_RUNNING (R237): Firmware writes STAGE RUNNING and answers held mailbox requests. -/
  | firmwareRunning
  /-- LINK_TRAINING_START (R239): The endpoint starts link training within 20 ms of the later of reset end and PERSTn deassertion. -/
  | linkTrainingStart
  /-- DEFERRED_CALM_REQUEST (R282): The Foreman writes the armed Calm request once the link is in L1.2 or PERSTn is asserted, at the latest after 2 s. -/
  | deferredCalmRequest
  /-- DVFS_JOB_WAIT_TIMEOUT (R283): Jobs still running 5 ms after acceptance resume admission and answer BUSY. -/
  | dvfsJobWaitTimeout
  /-- SPRUE_TRAIN_TIMEOUT (R743): A chip still unreachable 2 s after acceptance ends SPRUE_TRAIN with TIMEOUT. -/
  | sprueTrainTimeout
  /-- CKPT_HOLD_TIMEOUT (R768): A job still running 5 ms after a HOLD or import wait resumes admission and answers BUSY. -/
  | ckptHoldTimeout
  /-- CHALLENGE_EXPIRY (R1039): A debug challenge expires 60 s after its DONE. -/
  | challengeExpiry
  /-- WDOG_WARN (R294): The watchdog's WARN cause becomes true when a quarter of the period remains. -/
  | wdogWarn
  /-- WATCHDOG_EXPIRY (R295): The watchdog expires, presents a trip to Quench and starts a warm-scope reset. -/
  | watchdogExpiry
  /-- ENCODER_GRANT (R696): A waiting COPY is granted an encoder or table slot when one is released. -/
  | encoderGrant
  /-- SCRUB_STEP (R664): The scrubber visits one line of the main or priority sweep and decodes its words. -/
  | scrubStep
  /-- ERROR_INJECT_ARM (R683): A write of MEM_INJ_GO.ARM makes the next full write to the address store the programmed inversions. -/
  | errorInjectArm
  /-- LINK_TIMEOUT (R731): A port with no good flit for 10 µs goes DOWN. -/
  | linkTimeout
  /-- LOST_ACCESS_END (R737): Accesses in flight to a lost peer or on a DOWN port end with their lost outcomes. -/
  | lostAccessEnd
  /-- TSYNC_REQUEST (R741): Once per ms a peer sends a TSYNC request on its time port. -/
  | tsyncRequest
  /-- TSYNC_TIMEOUT (R742): No TSYNC answer for 10 ms sets UNSYNC. -/
  | tsyncTimeout
  /-- BUILD_START (R795): At B(k) the FSU chooses its source frames and phase and starts the warp of output k. -/
  | buildStart
  /-- FRAME_REPORT (R814): When every tile is decided and written, the FSU pushes a report to Q92. -/
  | frameReport
  /-- PANEL_ON_STEP (R833): A step of the panel power-up sequence runs after its wait. -/
  | panelOnStep
  /-- PANEL_OFF_STEP (R834): A step of the panel power-down sequence runs after its wait. -/
  | panelOffStep
  /-- FRAME_START (R839): At vertical sync DISP applies staged sources and timings and chooses the frame's source. -/
  | frameStart
  /-- REGION_UPDATE_END (R848): A region update ends with a DONE entry and the slot's pending update is queued. -/
  | regionUpdateEnd
  /-- TE_TIMEOUT (R849): An update ready for 100 ms without a TE edge starts with TE_MISSED. -/
  | teTimeout
  /-- ANNOUNCE_RECEIVED (R930): The lead chooses an address for an announcing node and sends ASSIGN. -/
  | announceReceived
  /-- CAPS_RECEIVED (R929): CAPS from an offered UID makes its address ACTIVE and posts JOIN. -/
  | capsReceived
  /-- HEARTBEAT_RECEIVED (R935): A node heartbeat refreshes its supervision. -/
  | heartbeatReceived
  /-- SOUNDING_EXCHANGE (R941): Every 5 ms Sounding sends ECHO_REQ and records its edge times. -/
  | soundingExchange
  /-- ECHO_RECEIVED (R941): An ECHO from the node is stamped for Sounding. -/
  | echoReceived
  /-- ECHO_INFO_RECEIVED (R941): An ECHO_INFO gives the node's turnaround time for the exchange. -/
  | echoInfoReceived
  /-- LOAD_RECEIVED (R945): A LOAD frame posts a LOAD entry to Q72. -/
  | loadReceived
  /-- INP_ROUTE_RETURN (R937): A device regaining a route to chip 0 chooses a new REG_EPOCH so its nodes announce again. -/
  | inpRouteReturn
  /-- QCH_RESUME_WRITE (R980): A write of 1 to QCH_CTL.CMD resumes a TRIPPED Quench with no cause, or is refused. -/
  | qchResumeWrite
  /-- QCH_TRIP_WRITE (R980): A write of 2 to QCH_CTL.CMD is a software trip. -/
  | qchTripWrite
  /-- STOP_FRAME_REPEAT (R981): Every 50 ms while TRIPPED a STOP frame is sent on each STOP segment. -/
  | stopFrameRepeat
  /-- CLEAR_FRAME_SEND (R981): On entry to ARMED, CLEAR frames are sent at 0, 10 and 20 ms. -/
  | clearFrameSend
  /-- READBACK_MATCH (R985): A readback matching SAFE for 1 ms removes cause 10. -/
  | readbackMatch
  /-- DIVERSE_MISMATCH (R983): Implementations A and B disagreeing for 5 µs is a Class G fault. -/
  | diverseMismatch
  /-- LOG_RECORD_WRITE (R1021): The Foreman writes a held fault record to the flash log when the flash is free. -/
  | logRecordWrite
  /-- TRNG_HEALTH_FAIL (R1044): A failed health test discards samples, and three within 1 s clear TRNG_OK. -/
  | trngHealthFail
  /-- DRBG_RESEED (R1043): The DRBG is reseeded after 2^16 requests or 60 s. -/
  | drbgReseed
  /-- IDCODE (R1072): The TAP instruction selects the 32-bit identification register. -/
  | idcode
  /-- BYPASS (R1072): The TAP instruction selects the 1-bit bypass register. -/
  | bypass
deriving DecidableEq, Repr

end Sys2Proof
end

