-- ==== Sys2Proof/Config.lean ====
section
/-! DEFINITION. Sys2Proof/Config.lean: names of the blocks and masters, what the device fixes for itself, and the
free values: constants with no body, so that no proof can see what they are. -/
namespace Sys2Proof

/-- A block index of R80: the number of the block's register frame; CRUn has 48 + n. -/
abbrev Blk := Nat

namespace Blk

/-! Block indices of R45 and R80. -/
abbrev chip : Blk := 0
abbrev aon : Blk := 1
abbrev baro : Blk := 2
abbrev clk : Blk := 3
abbrev rst : Blk := 4
abbrev fmn : Blk := 5
abbrev que : Blk := 6
abbrev sch : Blk := 7
abbrev mem : Blk := 8
abbrev flx : Blk := 9
abbrev spr0 : Blk := 10
abbrev spr1 : Blk := 11
abbrev ing : Blk := 12
abbrev rect : Blk := 13
abbrev pyr : Blk := 14
abbrev sgm : Blk := 15
abbrev flow : Blk := 16
abbrev feat : Blk := 17
abbrev edge : Blk := 18
abbrev pat : Blk := 19
abbrev fsu : Blk := 20
abbrev disp : Blk := 21
abbrev fbc0 : Blk := 22
abbrev inp : Blk := 26
abbrev qch : Blk := 27
abbrev sec : Blk := 28
abbrev pcie : Blk := 29
abbrev xspi : Blk := 30
abbrev iox : Blk := 31
abbrev tb : Blk := 32
abbrev cru0 : Blk := 48

end Blk

namespace Config

/-! Master IDs of R38. -/
abbrev mForeman : Nat := 0x30
abbrev mQuench : Nat := 0x31
abbrev mPf0 : Nat := 0x32
abbrev mPf1 : Nat := 0x33
abbrev mSp0 : Nat := 0x34
abbrev mSp1 : Nat := 0x35
abbrev mIngest : Nat := 0x36
abbrev mEngine0 : Nat := 0x37
abbrev mPat : Nat := 0x3D
abbrev mFsu : Nat := 0x3E
abbrev mDisp : Nat := 0x3F
abbrev mFlux : Nat := 0x40
abbrev mScrub : Nat := 0x41
abbrev mEgress : Nat := 0x42
abbrev mQue : Nat := 0x43

/-- The fused grade of CHIP_PART.GRADE: 0 for CLN-960-E, 1 for CLN-960-C (fixed per device, R2). -/
opaque grade : Nat
/-- A fresh free value: applied to the counter of State that the step reads and advances. -/
opaque freeWord : Nat → BitVec 64
/-- A fresh free truth value, applied to the same counter. -/
opaque freeBool : Nat → Bool
/-- Level of QP at an instant of TB_NOW while the pair shows RUN (R972 gives the period, not the phase). -/
opaque qpPhase : Nat → Bool
/-- Whether a life mark is being shown at an instant of TB_NOW while the pair shows SAFE with life marks (R972). -/
opaque lifeMark : Nat → Bool
/-- The PF0 vector the Foreman chooses for a context's completion queue, of 33 to 63 (R322). -/
opaque cqVector : Nat → Nat
/-! OTP fields written at Cleilo test (R1032): fixed per device. -/
opaque deviceId : BitVec 64
opaque deviceKey : BitVec 256
/-- Extent of the Quench and SEC configuration copies in TCM that firmware sets, in 4 KiB pages (R681). -/
opaque tcmCfgBase : Nat
opaque tcmCfgLen : Nat
opaque fwKeyHash : Nat → BitVec 384

/-- Code lengths that an encoder would build for the symbol counts of a table epoch, where several sets have the smallest
total (R697). -/
opaque codeLengths : List Nat → List Nat

/-- The device's own count of the cycles that a mould program takes for one tile (R809). -/
opaque mouldCycles : List Byte → Nat

end Config
end Sys2Proof
end

