-- ==== Sys2Proof/Machine/RegTable.lean ====
section
/-! DEFINITION. Sys2Proof/Machine/RegTable.lean: the register map, from the Registers section of each chapter:
offset, guard level, snapshot set, type, the mask of RW and ACK bits and the Reset value of every register. A row
with a stride stands for `count` registers. -/
namespace Sys2Proof.Machine
open Sys2Proof

/-- Guard levels of R82. -/
inductive Guard where
  | anyClass | guarded | secureOnly
deriving DecidableEq, Repr

/-- What a register is, for its read and its write (R17, R86, R89, R93). `evc j` and `ack j` belong to event source
j, plus the register's place in its row. -/
inductive RegKind where
  | ro | rw | cmd
  | evc (src : Nat) | ack (src : Nat)
  | lo | hi | rwlo | rwhi
deriving DecidableEq, Repr

/-- One row of the register map. -/
structure RegRow where
  name : String
  off : Nat
  stride : Nat
  count : Nat
  guard : Guard
  snap : Bool
  kind : RegKind
  wmask : Word
  reset : Word
deriving DecidableEq, Repr

/-- The place of `off` in row `r`, if it is one of the row's registers. -/
def RegRow.place (r : RegRow) (off : Nat) : Option Nat :=
  if off < r.off then none
  else if r.stride = 0 then (if off = r.off then some 0 else none)
  else if (off - r.off) % r.stride = 0 && (off - r.off) / r.stride < r.count then some ((off - r.off) / r.stride)
  else none

/-- Registers of STD frames. -/
def regRowsStd0 : List RegRow := [
  ⟨"ID", 0x0, 0x0, 1, .anyClass, false, .ro, 0x0, 0x0⟩,
  ⟨"INT_STATUS", 0x8, 0x0, 1, .anyClass, true, .ro, 0x0, 0x0⟩,
  ⟨"INT_ENABLE", 0xc, 0x0, 1, .guarded, false, .rw, 0xffffffff, 0x0⟩,
  ⟨"INT_ENABLE_FMN", 0x10, 0x0, 1, .secureOnly, false, .rw, 0xffffffff, 0x0⟩,
  ⟨"EVBEHIND", 0x14, 0x0, 1, .anyClass, true, .ro, 0x0, 0x0⟩,
  ⟨"SNAPSHOT", 0x18, 0x0, 1, .guarded, false, .cmd, 0x0, 0x0⟩,
  ⟨"SNAPSHOT_SEQ", 0x1c, 0x0, 1, .anyClass, false, .ro, 0x0, 0x0⟩,
  ⟨"GUARD_VIOL_EVC", 0x20, 0x0, 1, .guarded, true, .evc 0, 0x0, 0x0⟩,
  ⟨"GUARD_VIOL_ACK", 0x24, 0x0, 1, .guarded, false, .ack 0, 0xffff, 0x0⟩,
  ⟨"GUARD_VIOL_INFO", 0x28, 0x0, 1, .guarded, true, .ro, 0x0, 0x0⟩,
  ⟨"CFG_PARITY_EVC", 0x2c, 0x0, 1, .guarded, true, .evc 1, 0x0, 0x0⟩,
  ⟨"CFG_PARITY_ACK", 0x30, 0x0, 1, .guarded, false, .ack 1, 0xffff, 0x0⟩,
  ⟨"CFG_PARITY_INFO", 0x34, 0x0, 1, .guarded, true, .ro, 0x0, 0x0⟩]
def regRowsStd : List RegRow := regRowsStd0

/-- Registers of CHIP frames. -/
def regRowsChip0 : List RegRow := [
  ⟨"PART", 0x100, 0x0, 1, .anyClass, false, .ro, 0x0, 0x0⟩,
  ⟨"SIZE_ERR_EVC", 0x104, 0x0, 1, .guarded, true, .evc 2, 0x0, 0x0⟩,
  ⟨"SIZE_ERR_ACK", 0x108, 0x0, 1, .guarded, false, .ack 2, 0xffff, 0x0⟩,
  ⟨"SIZE_ERR_INFO", 0x10c, 0x0, 1, .guarded, true, .ro, 0x0, 0x0⟩,
  ⟨"FAB_ERR_EVC", 0x200, 0x0, 1, .guarded, true, .evc 3, 0x0, 0x0⟩,
  ⟨"FAB_ERR_ACK", 0x204, 0x0, 1, .guarded, false, .ack 3, 0xffff, 0x0⟩,
  ⟨"FAB_ERR_ADDR_LO", 0x208, 0x0, 1, .guarded, true, .lo, 0x0, 0x0⟩,
  ⟨"FAB_ERR_ADDR_HI", 0x20c, 0x0, 1, .guarded, true, .hi, 0x0, 0x0⟩,
  ⟨"FAB_ERR_INFO", 0x210, 0x0, 1, .guarded, true, .ro, 0x0, 0x0⟩,
  ⟨"FAB_CHIPID", 0x214, 0x0, 1, .anyClass, false, .ro, 0x0, 0x0⟩]
def regRowsChip : List RegRow := regRowsChip0

/-- Registers of PCIE frames. -/
def regRowsPcie0 : List RegRow := [
  ⟨"LINK", 0x100, 0x0, 1, .anyClass, false, .ro, 0x0, 0x0⟩,
  ⟨"LINK_EVC", 0x104, 0x0, 1, .anyClass, true, .evc 2, 0x0, 0x0⟩,
  ⟨"LINK_ACK", 0x108, 0x0, 1, .anyClass, false, .ack 2, 0xffff, 0x0⟩,
  ⟨"POISON_EVC", 0x10c, 0x0, 1, .anyClass, true, .evc 3, 0x0, 0x0⟩,
  ⟨"POISON_ACK", 0x110, 0x0, 1, .anyClass, false, .ack 3, 0xffff, 0x0⟩,
  ⟨"PF1_MISS_EVC", 0x114, 0x0, 1, .anyClass, true, .evc 4, 0x0, 0x0⟩,
  ⟨"PF1_MISS_ACK", 0x118, 0x0, 1, .anyClass, false, .ack 4, 0xffff, 0x0⟩,
  ⟨"PF1_CTX", 0x11c, 0x0, 1, .guarded, false, .ro, 0x0, 0x0⟩]
def regRowsPcie : List RegRow := regRowsPcie0

/-- Registers of AON frames. -/
def regRowsAon0 : List RegRow := [
  ⟨"PWR_STATE", 0x100, 0x0, 1, .anyClass, true, .ro, 0x0, 0x0⟩,
  ⟨"PWR_REQ", 0x104, 0x0, 1, .secureOnly, false, .cmd, 0x0, 0x0⟩,
  ⟨"PWR_EVC", 0x108, 0x0, 1, .guarded, true, .evc 2, 0x0, 0x0⟩,
  ⟨"PWR_ACK", 0x10c, 0x0, 1, .guarded, false, .ack 2, 0xffff, 0x0⟩,
  ⟨"PWR_REFUSE_EVC", 0x110, 0x0, 1, .guarded, true, .evc 3, 0x0, 0x0⟩,
  ⟨"PWR_REFUSE_ACK", 0x114, 0x0, 1, .guarded, false, .ack 3, 0xffff, 0x0⟩,
  ⟨"PWR_REFUSE_INFO", 0x118, 0x0, 1, .guarded, true, .ro, 0x0, 0x0⟩,
  ⟨"WAKE_EN", 0x120, 0x0, 1, .guarded, false, .rw, 0xffff, 0x0⟩,
  ⟨"WAKE_CFG", 0x124, 0x0, 1, .guarded, false, .rw, 0x1fffff, 0x0⟩,
  ⟨"WAKE_LAST", 0x128, 0x0, 1, .anyClass, true, .ro, 0x0, 0x0⟩,
  ⟨"WAKE_EVC", 0x12c, 0x0, 1, .guarded, true, .evc 4, 0x0, 0x0⟩,
  ⟨"WAKE_ACK", 0x130, 0x0, 1, .guarded, false, .ack 4, 0xffff, 0x0⟩,
  ⟨"WAKE_SRC", 0x134, 0x0, 1, .anyClass, true, .ro, 0x0, 0x0⟩,
  ⟨"CAL_STATUS", 0x140, 0x0, 1, .anyClass, true, .ro, 0x0, 0x0⟩,
  ⟨"CAL_CAPTURE", 0x144, 0x0, 1, .anyClass, false, .cmd, 0x0, 0x0⟩,
  ⟨"CAL_CAP_SEQ", 0x148, 0x0, 1, .anyClass, false, .ro, 0x0, 0x0⟩,
  ⟨"CAL_CAP_DATE", 0x14c, 0x0, 1, .anyClass, true, .ro, 0x0, 0x7d05101⟩,
  ⟨"CAL_CAP_TIME", 0x150, 0x0, 1, .anyClass, true, .ro, 0x0, 0x0⟩,
  ⟨"CAL_CAP_SUB", 0x154, 0x0, 1, .anyClass, true, .ro, 0x0, 0x0⟩,
  ⟨"CAL_CAP_TB_LO", 0x158, 0x0, 1, .anyClass, true, .lo, 0x0, 0x0⟩,
  ⟨"CAL_CAP_TB_HI", 0x15c, 0x0, 1, .anyClass, true, .hi, 0x0, 0x0⟩,
  ⟨"CAL_SET_DATE", 0x160, 0x0, 1, .guarded, false, .rw, 0xfff0f1f, 0x7d00101⟩,
  ⟨"CAL_SET_TIME", 0x164, 0x0, 1, .guarded, false, .rw, 0x1f3f3f, 0x0⟩,
  ⟨"CAL_SET_SUB", 0x168, 0x0, 1, .guarded, false, .rw, 0x7fff, 0x0⟩]
/-- Registers of AON frames. -/
def regRowsAon1 : List RegRow := [
  ⟨"CAL_COMMIT", 0x16c, 0x0, 1, .guarded, false, .cmd, 0x0, 0x0⟩,
  ⟨"CAL_COMMIT_EVC", 0x170, 0x0, 1, .guarded, true, .evc 5, 0x0, 0x0⟩,
  ⟨"CAL_COMMIT_ACK", 0x174, 0x0, 1, .guarded, false, .ack 5, 0xffff, 0x0⟩,
  ⟨"CAL_REJECT_EVC", 0x178, 0x0, 1, .guarded, true, .evc 6, 0x0, 0x0⟩,
  ⟨"CAL_REJECT_ACK", 0x17c, 0x0, 1, .guarded, false, .ack 6, 0xffff, 0x0⟩,
  ⟨"CAL_REJECT_INFO", 0x180, 0x0, 1, .guarded, true, .ro, 0x0, 0x0⟩,
  ⟨"CAL_WRAP_EVC", 0x184, 0x0, 1, .guarded, true, .evc 7, 0x0, 0x0⟩,
  ⟨"CAL_WRAP_ACK", 0x188, 0x0, 1, .guarded, false, .ack 7, 0xffff, 0x0⟩,
  ⟨"ALM_DATE", 0x200, 0x10, 4, .guarded, false, .rw, 0xffff7f1f, 0x0⟩,
  ⟨"ALM_TIME", 0x204, 0x10, 4, .guarded, false, .rw, 0xf01f3f3f, 0x0⟩,
  ⟨"ALM_EVC", 0x208, 0x10, 4, .guarded, true, .evc 8, 0x0, 0x0⟩,
  ⟨"ALM_ACK", 0x20c, 0x10, 4, .guarded, false, .ack 8, 0xffff, 0x0⟩,
  ⟨"GRAVE", 0x300, 0x0, 1, .anyClass, true, .ro, 0x0, 0x0⟩,
  ⟨"GRAVE_TB_LO", 0x304, 0x0, 1, .anyClass, true, .lo, 0x0, 0x0⟩,
  ⟨"GRAVE_TB_HI", 0x308, 0x0, 1, .anyClass, true, .hi, 0x0, 0x0⟩,
  ⟨"CALM_TICKS_LO", 0x310, 0x0, 1, .anyClass, true, .lo, 0x0, 0x0⟩,
  ⟨"CALM_TICKS_HI", 0x314, 0x0, 1, .anyClass, true, .hi, 0x0, 0x0⟩]
def regRowsAon : List RegRow := regRowsAon0 ++ regRowsAon1

/-- Registers of BARO frames. -/
def regRowsBaro0 : List RegRow := [
  ⟨"CTRL", 0x100, 0x0, 1, .guarded, false, .rw, 0xfffff, 0x60000⟩,
  ⟨"STATUS", 0x104, 0x0, 1, .anyClass, true, .ro, 0x0, 0x0⟩,
  ⟨"LO_STATUS", 0x108, 0x0, 1, .anyClass, true, .ro, 0x0, 0x0⟩,
  ⟨"HI_STATUS", 0x10c, 0x0, 1, .anyClass, true, .ro, 0x0, 0x0⟩,
  ⟨"BO_CORE", 0x110, 0x0, 1, .secureOnly, false, .rw, 0xff, 0x14⟩,
  ⟨"TEMP_LIM", 0x114, 0x0, 1, .guarded, false, .rw, 0xffff, 0x6e5f⟩,
  ⟨"BO_EVC", 0x118, 0x0, 1, .guarded, true, .evc 2, 0x0, 0x0⟩,
  ⟨"BO_ACK", 0x11c, 0x0, 1, .guarded, false, .ack 2, 0xffff, 0x0⟩,
  ⟨"THR_EVC", 0x120, 0x0, 1, .guarded, true, .evc 3, 0x0, 0x0⟩,
  ⟨"THR_ACK", 0x124, 0x0, 1, .guarded, false, .ack 3, 0xffff, 0x0⟩,
  ⟨"TEMP_EVC", 0x128, 0x0, 1, .guarded, true, .evc 4, 0x0, 0x0⟩,
  ⟨"TEMP_ACK", 0x12c, 0x0, 1, .guarded, false, .ack 4, 0xffff, 0x0⟩,
  ⟨"RES", 0x140, 0x4, 16, .anyClass, true, .ro, 0x0, 0x0⟩,
  ⟨"THR", 0x180, 0x4, 16, .guarded, false, .rw, 0xfffffff, 0xfff000⟩,
  ⟨"TEMP", 0x1c0, 0x4, 8, .anyClass, true, .ro, 0x0, 0x0⟩]
def regRowsBaro : List RegRow := regRowsBaro0

/-- Registers of CLK frames. -/
def regRowsClk0 : List RegRow := [
  ⟨"READY", 0x100, 0x0, 1, .anyClass, true, .ro, 0x0, 0x0⟩,
  ⟨"CRU_POINT", 0x104, 0x0, 1, .secureOnly, false, .rw, 0x3, 0x2⟩,
  ⟨"PIX_MUL", 0x108, 0x0, 1, .secureOnly, false, .rw, 0x7fffff, 0x340000⟩,
  ⟨"PIX_DIV", 0x10c, 0x0, 1, .secureOnly, false, .rw, 0x3f, 0x10⟩,
  ⟨"SEL", 0x110, 0x4, 7, .secureOnly, true, .cmd, 0x0, 0x0⟩,
  ⟨"SW_EVC", 0x130, 0x0, 1, .guarded, true, .evc 2, 0x0, 0x0⟩,
  ⟨"SW_ACK", 0x134, 0x0, 1, .guarded, false, .ack 2, 0xffff, 0x0⟩,
  ⟨"SW_REFUSE_EVC", 0x138, 0x0, 1, .guarded, true, .evc 3, 0x0, 0x0⟩,
  ⟨"SW_REFUSE_ACK", 0x13c, 0x0, 1, .guarded, false, .ack 3, 0xffff, 0x0⟩,
  ⟨"SW_REFUSE_INFO", 0x140, 0x0, 1, .guarded, true, .ro, 0x0, 0x0⟩,
  ⟨"GATED_EVC", 0x144, 0x0, 1, .guarded, true, .evc 4, 0x0, 0x0⟩,
  ⟨"GATED_ACK", 0x148, 0x0, 1, .guarded, false, .ack 4, 0xffff, 0x0⟩,
  ⟨"GATED_INFO", 0x14c, 0x0, 1, .guarded, true, .ro, 0x0, 0x0⟩,
  ⟨"HANG_EVC", 0x150, 0x0, 1, .guarded, true, .evc 5, 0x0, 0x0⟩,
  ⟨"HANG_ACK", 0x154, 0x0, 1, .guarded, false, .ack 5, 0xffff, 0x0⟩,
  ⟨"DOMRST", 0x158, 0x0, 1, .secureOnly, false, .cmd, 0x0, 0x0⟩,
  ⟨"GATE_BLK", 0x160, 0x0, 1, .secureOnly, false, .rw, 0xc03bee00, 0xc03bee00⟩,
  ⟨"GATE_CRU0", 0x164, 0x0, 1, .secureOnly, false, .rw, 0xffffffff, 0xffffffff⟩,
  ⟨"GATE_CRU1", 0x168, 0x0, 1, .secureOnly, false, .rw, 0xffff, 0xffff⟩,
  ⟨"GATE_STATE_BLK", 0x16c, 0x0, 1, .anyClass, true, .ro, 0x0, 0x0⟩,
  ⟨"GATE_STATE_CRU0", 0x170, 0x0, 1, .anyClass, true, .ro, 0x0, 0x0⟩,
  ⟨"GATE_STATE_CRU1", 0x174, 0x0, 1, .anyClass, true, .ro, 0x0, 0x0⟩,
  ⟨"MTR_CFG", 0x200, 0x20, 8, .guarded, false, .rw, 0x9f10000f, 0x0⟩,
  ⟨"MTR_EXP", 0x204, 0x20, 8, .guarded, false, .rw, 0xffffffff, 0x0⟩]
/-- Registers of CLK frames. -/
def regRowsClk1 : List RegRow := [
  ⟨"MTR_PW", 0x208, 0x20, 8, .guarded, false, .rw, 0xffffffff, 0x0⟩,
  ⟨"MTR_FW", 0x20c, 0x20, 8, .guarded, false, .rw, 0xffffffff, 0x0⟩,
  ⟨"MTR_HYST", 0x210, 0x20, 8, .guarded, false, .rw, 0xffffffff, 0x0⟩,
  ⟨"MTR_LAST", 0x214, 0x20, 8, .anyClass, true, .ro, 0x0, 0x0⟩,
  ⟨"MTR_STATUS", 0x218, 0x20, 8, .anyClass, true, .ro, 0x0, 0x0⟩,
  ⟨"MTR_EVC", 0x300, 0x8, 8, .guarded, true, .evc 6, 0x0, 0x0⟩,
  ⟨"MTR_ACK", 0x304, 0x8, 8, .guarded, false, .ack 6, 0xffff, 0x0⟩]
def regRowsClk : List RegRow := regRowsClk0 ++ regRowsClk1

/-- Registers of TB frames. -/
def regRowsTb0 : List RegRow := [
  ⟨"NOW_LO", 0x100, 0x0, 1, .anyClass, true, .lo, 0x0, 0x0⟩,
  ⟨"NOW_HI", 0x104, 0x0, 1, .anyClass, true, .hi, 0x0, 0x0⟩,
  ⟨"STATUS", 0x108, 0x0, 1, .anyClass, true, .ro, 0x0, 0x0⟩]
def regRowsTb : List RegRow := regRowsTb0

/-- Registers of QCH frames. -/
def regRowsQch0 : List RegRow := [
  ⟨"EVC", 0x140, 0x8, 7, .guarded, true, .evc 2, 0x0, 0x0⟩,
  ⟨"ACK", 0x144, 0x8, 7, .guarded, false, .ack 2, 0xffff, 0x0⟩,
  ⟨"STATE", 0x100, 0x0, 1, .anyClass, true, .ro, 0x0, 0x0⟩,
  ⟨"CAUSES", 0x104, 0x0, 1, .anyClass, true, .ro, 0x0, 0x0⟩,
  ⟨"TRIP_INFO", 0x108, 0x0, 1, .anyClass, true, .ro, 0x0, 0x0⟩,
  ⟨"TRIP_TB_LO", 0x10c, 0x0, 1, .anyClass, true, .lo, 0x0, 0x0⟩,
  ⟨"TRIP_TB_HI", 0x110, 0x0, 1, .anyClass, true, .hi, 0x0, 0x0⟩,
  ⟨"ENV", 0x114, 0x0, 1, .anyClass, true, .ro, 0x0, 0x0⟩,
  ⟨"SPEED", 0x118, 0x0, 1, .anyClass, true, .ro, 0x0, 0x0⟩,
  ⟨"PAIR", 0x11c, 0x0, 1, .anyClass, true, .ro, 0x0, 0x0⟩,
  ⟨"CTL", 0x120, 0x0, 1, .guarded, false, .cmd, 0x0, 0x0⟩,
  ⟨"STOPSEQ01", 0x124, 0x0, 1, .anyClass, true, .ro, 0x0, 0x0⟩,
  ⟨"STOPSEQ23", 0x128, 0x0, 1, .anyClass, true, .ro, 0x0, 0x0⟩,
  ⟨"SECTOR", 0x200, 0x8, 16, .anyClass, true, .ro, 0x0, 0x0⟩,
  ⟨"SECTOR_AGE", 0x204, 0x8, 16, .anyClass, true, .ro, 0x0, 0x0⟩,
  ⟨"CFG", 0x400, 0x4, 17, .secureOnly, false, .rw, 0xffffffff, 0x0⟩]
def regRowsQch : List RegRow := regRowsQch0

/-- Registers of SEC frames. -/
def regRowsSec0 : List RegRow := [
  ⟨"EVC", 0x100, 0x8, 3, .guarded, true, .evc 2, 0x0, 0x0⟩,
  ⟨"ACK", 0x104, 0x8, 3, .guarded, false, .ack 2, 0xffff, 0x0⟩,
  ⟨"STATE", 0x140, 0x0, 1, .anyClass, true, .ro, 0x0, 0x0⟩,
  ⟨"FW_KEYS", 0x144, 0x0, 1, .anyClass, true, .ro, 0x0, 0x0⟩,
  ⟨"DEVICE_ID_LO", 0x148, 0x0, 1, .anyClass, true, .lo, 0x0, 0x0⟩,
  ⟨"DEVICE_ID_HI", 0x14c, 0x0, 1, .anyClass, true, .hi, 0x0, 0x0⟩]
def regRowsSec : List RegRow := regRowsSec0

/-- Registers of IOX frames. -/
def regRowsIox0 : List RegRow := [
  ⟨"GPIO_IN", 0x400, 0x0, 1, .anyClass, true, .ro, 0x0, 0x0⟩,
  ⟨"GPIO_OUT", 0x404, 0x0, 1, .guarded, false, .rw, 0xffffff, 0x0⟩,
  ⟨"GPIO_OE", 0x408, 0x0, 1, .guarded, false, .rw, 0xffffff, 0x0⟩,
  ⟨"GPIO_PULL_EN", 0x40c, 0x0, 1, .guarded, false, .rw, 0xffffff, 0x0⟩,
  ⟨"GPIO_PULL_UP", 0x410, 0x0, 1, .guarded, false, .rw, 0xffffff, 0x0⟩,
  ⟨"GPIO_DISP", 0x414, 0x0, 1, .anyClass, true, .ro, 0x0, 0x0⟩]
def regRowsIox : List RegRow := regRowsIox0

/-- Registers of EDGE frames. -/
def regRowsEdge0 : List RegRow := [
  ⟨"PUBLISHED", 0x200, 0x0, 1, .anyClass, true, .ro, 0x0, 0x0⟩]
def regRowsEdge : List RegRow := regRowsEdge0

/-- Registers of RST frames. -/
def regRowsRst0 : List RegRow := [
  ⟨"LAST", 0x100, 0x0, 1, .anyClass, true, .ro, 0x0, 0x0⟩,
  ⟨"BOOT_STRAP", 0x104, 0x0, 1, .anyClass, false, .ro, 0x0, 0x0⟩,
  ⟨"BOOT_STATUS", 0x108, 0x0, 1, .anyClass, true, .ro, 0x0, 0x0⟩,
  ⟨"BOOT_SET", 0x10c, 0x0, 1, .secureOnly, false, .rw, 0x3fffffff, 0x30⟩,
  ⟨"BOOT_PUSH", 0x110, 0x0, 1, .guarded, false, .cmd, 0x0, 0x0⟩,
  ⟨"BLK_RESET", 0x114, 0x0, 1, .secureOnly, false, .cmd, 0x0, 0x0⟩,
  ⟨"EVC", 0x120, 0x8, 8, .guarded, true, .evc 2, 0x0, 0x0⟩,
  ⟨"ACK", 0x124, 0x8, 8, .guarded, false, .ack 2, 0xffff, 0x0⟩]
def regRowsRst : List RegRow := regRowsRst0

/-- Registers of FMN frames. -/
def regRowsFmn0 : List RegRow := [
  ⟨"WDOG_CFG", 0x100, 0x0, 1, .secureOnly, false, .rw, 0x8000000f, 0xf⟩,
  ⟨"WDOG_KICK", 0x104, 0x0, 1, .secureOnly, false, .cmd, 0x0, 0x0⟩,
  ⟨"WDOG_STATUS", 0x108, 0x0, 1, .anyClass, true, .ro, 0x0, 0x0⟩,
  ⟨"MB_REFUSE_EVC", 0x110, 0x0, 1, .guarded, true, .evc 2, 0x0, 0x0⟩,
  ⟨"MB_REFUSE_ACK", 0x114, 0x0, 1, .guarded, false, .ack 2, 0xffff, 0x0⟩,
  ⟨"WDOG_WARN_EVC", 0x118, 0x0, 1, .guarded, true, .evc 3, 0x0, 0x0⟩,
  ⟨"WDOG_WARN_ACK", 0x11c, 0x0, 1, .guarded, false, .ack 3, 0xffff, 0x0⟩,
  ⟨"BAD_KICK_EVC", 0x120, 0x0, 1, .guarded, true, .evc 4, 0x0, 0x0⟩,
  ⟨"BAD_KICK_ACK", 0x124, 0x0, 1, .guarded, false, .ack 4, 0xffff, 0x0⟩,
  ⟨"MB0_REQ", 0x1000, 0x4, 64, .guarded, false, .rw, 0xffffffff, 0x0⟩,
  ⟨"MB0_RESP", 0x1100, 0x4, 64, .guarded, false, .ro, 0x0, 0x0⟩,
  ⟨"MB0_DOORBELL", 0x1200, 0x0, 1, .guarded, false, .cmd, 0x0, 0x0⟩,
  ⟨"MB0_STATE", 0x1204, 0x0, 1, .anyClass, true, .ro, 0x0, 0x0⟩,
  ⟨"MB0_RESP_EVC", 0x1208, 0x0, 1, .guarded, true, .evc 5, 0x0, 0x0⟩,
  ⟨"MB0_RESP_ACK", 0x120c, 0x0, 1, .guarded, false, .ack 5, 0xffff, 0x0⟩,
  ⟨"MB1_REQ", 0x1400, 0x4, 64, .guarded, false, .rw, 0xffffffff, 0x0⟩,
  ⟨"MB1_RESP", 0x1500, 0x4, 64, .guarded, false, .ro, 0x0, 0x0⟩,
  ⟨"MB1_DOORBELL", 0x1600, 0x0, 1, .guarded, false, .cmd, 0x0, 0x0⟩,
  ⟨"MB1_STATE", 0x1604, 0x0, 1, .anyClass, true, .ro, 0x0, 0x0⟩,
  ⟨"MB1_RESP_EVC", 0x1608, 0x0, 1, .guarded, true, .evc 6, 0x0, 0x0⟩,
  ⟨"MB1_RESP_ACK", 0x160c, 0x0, 1, .guarded, false, .ack 6, 0xffff, 0x0⟩,
  ⟨"MB2_REQ", 0x1800, 0x4, 64, .guarded, false, .rw, 0xffffffff, 0x0⟩,
  ⟨"MB2_RESP", 0x1900, 0x4, 64, .guarded, false, .ro, 0x0, 0x0⟩,
  ⟨"MB2_DOORBELL", 0x1a00, 0x0, 1, .guarded, false, .cmd, 0x0, 0x0⟩]
/-- Registers of FMN frames. -/
def regRowsFmn1 : List RegRow := [
  ⟨"MB2_STATE", 0x1a04, 0x0, 1, .anyClass, true, .ro, 0x0, 0x0⟩,
  ⟨"MB2_RESP_EVC", 0x1a08, 0x0, 1, .guarded, true, .evc 7, 0x0, 0x0⟩,
  ⟨"MB2_RESP_ACK", 0x1a0c, 0x0, 1, .guarded, false, .ack 7, 0xffff, 0x0⟩,
  ⟨"MB3_REQ", 0x1c00, 0x4, 64, .guarded, false, .rw, 0xffffffff, 0x0⟩,
  ⟨"MB3_RESP", 0x1d00, 0x4, 64, .guarded, false, .ro, 0x0, 0x0⟩,
  ⟨"MB3_DOORBELL", 0x1e00, 0x0, 1, .guarded, false, .cmd, 0x0, 0x0⟩,
  ⟨"MB3_STATE", 0x1e04, 0x0, 1, .anyClass, true, .ro, 0x0, 0x0⟩,
  ⟨"MB3_RESP_EVC", 0x1e08, 0x0, 1, .guarded, true, .evc 8, 0x0, 0x0⟩,
  ⟨"MB3_RESP_ACK", 0x1e0c, 0x0, 1, .guarded, false, .ack 8, 0xffff, 0x0⟩,
  ⟨"MB4_REQ", 0x2000, 0x4, 64, .guarded, false, .rw, 0xffffffff, 0x0⟩,
  ⟨"MB4_RESP", 0x2100, 0x4, 64, .guarded, false, .ro, 0x0, 0x0⟩,
  ⟨"MB4_DOORBELL", 0x2200, 0x0, 1, .guarded, false, .cmd, 0x0, 0x0⟩,
  ⟨"MB4_STATE", 0x2204, 0x0, 1, .anyClass, true, .ro, 0x0, 0x0⟩,
  ⟨"MB4_RESP_EVC", 0x2208, 0x0, 1, .guarded, true, .evc 9, 0x0, 0x0⟩,
  ⟨"MB4_RESP_ACK", 0x220c, 0x0, 1, .guarded, false, .ack 9, 0xffff, 0x0⟩,
  ⟨"MB5_REQ", 0x2400, 0x4, 64, .guarded, false, .rw, 0xffffffff, 0x0⟩,
  ⟨"MB5_RESP", 0x2500, 0x4, 64, .guarded, false, .ro, 0x0, 0x0⟩,
  ⟨"MB5_DOORBELL", 0x2600, 0x0, 1, .guarded, false, .cmd, 0x0, 0x0⟩,
  ⟨"MB5_STATE", 0x2604, 0x0, 1, .anyClass, true, .ro, 0x0, 0x0⟩,
  ⟨"MB5_RESP_EVC", 0x2608, 0x0, 1, .guarded, true, .evc 10, 0x0, 0x0⟩,
  ⟨"MB5_RESP_ACK", 0x260c, 0x0, 1, .guarded, false, .ack 10, 0xffff, 0x0⟩,
  ⟨"MB6_REQ", 0x2800, 0x4, 64, .guarded, false, .rw, 0xffffffff, 0x0⟩,
  ⟨"MB6_RESP", 0x2900, 0x4, 64, .guarded, false, .ro, 0x0, 0x0⟩,
  ⟨"MB6_DOORBELL", 0x2a00, 0x0, 1, .guarded, false, .cmd, 0x0, 0x0⟩]
/-- Registers of FMN frames. -/
def regRowsFmn2 : List RegRow := [
  ⟨"MB6_STATE", 0x2a04, 0x0, 1, .anyClass, true, .ro, 0x0, 0x0⟩,
  ⟨"MB6_RESP_EVC", 0x2a08, 0x0, 1, .guarded, true, .evc 11, 0x0, 0x0⟩,
  ⟨"MB6_RESP_ACK", 0x2a0c, 0x0, 1, .guarded, false, .ack 11, 0xffff, 0x0⟩,
  ⟨"MB7_REQ", 0x2c00, 0x4, 64, .guarded, false, .rw, 0xffffffff, 0x0⟩,
  ⟨"MB7_RESP", 0x2d00, 0x4, 64, .guarded, false, .ro, 0x0, 0x0⟩,
  ⟨"MB7_DOORBELL", 0x2e00, 0x0, 1, .guarded, false, .cmd, 0x0, 0x0⟩,
  ⟨"MB7_STATE", 0x2e04, 0x0, 1, .anyClass, true, .ro, 0x0, 0x0⟩,
  ⟨"MB7_RESP_EVC", 0x2e08, 0x0, 1, .guarded, true, .evc 12, 0x0, 0x0⟩,
  ⟨"MB7_RESP_ACK", 0x2e0c, 0x0, 1, .guarded, false, .ack 12, 0xffff, 0x0⟩,
  ⟨"MB8_REQ", 0x3000, 0x4, 64, .guarded, false, .ro, 0x0, 0x0⟩,
  ⟨"MB8_RESP", 0x3100, 0x4, 64, .guarded, false, .ro, 0x0, 0x0⟩,
  ⟨"MB8_DOORBELL", 0x3200, 0x0, 1, .guarded, false, .cmd, 0x0, 0x0⟩,
  ⟨"MB8_STATE", 0x3204, 0x0, 1, .anyClass, true, .ro, 0x0, 0x0⟩,
  ⟨"MB8_RESP_EVC", 0x3208, 0x0, 1, .guarded, true, .evc 13, 0x0, 0x0⟩,
  ⟨"MB8_RESP_ACK", 0x320c, 0x0, 1, .guarded, false, .ack 13, 0x0, 0x0⟩,
  ⟨"MB9_REQ", 0x3400, 0x4, 64, .guarded, false, .ro, 0x0, 0x0⟩,
  ⟨"MB9_RESP", 0x3500, 0x4, 64, .guarded, false, .ro, 0x0, 0x0⟩,
  ⟨"MB9_DOORBELL", 0x3600, 0x0, 1, .guarded, false, .cmd, 0x0, 0x0⟩,
  ⟨"MB9_STATE", 0x3604, 0x0, 1, .anyClass, true, .ro, 0x0, 0x0⟩,
  ⟨"MB9_RESP_EVC", 0x3608, 0x0, 1, .guarded, true, .evc 14, 0x0, 0x0⟩,
  ⟨"MB9_RESP_ACK", 0x360c, 0x0, 1, .guarded, false, .ack 14, 0x0, 0x0⟩,
  ⟨"MB10_REQ", 0x3800, 0x4, 64, .secureOnly, false, .rw, 0xffffffff, 0x0⟩,
  ⟨"MB10_RESP", 0x3900, 0x4, 64, .secureOnly, false, .ro, 0x0, 0x0⟩,
  ⟨"MB10_DOORBELL", 0x3a00, 0x0, 1, .secureOnly, false, .cmd, 0x0, 0x0⟩]
/-- Registers of FMN frames. -/
def regRowsFmn3 : List RegRow := [
  ⟨"MB10_STATE", 0x3a04, 0x0, 1, .anyClass, true, .ro, 0x0, 0x0⟩,
  ⟨"MB10_RESP_EVC", 0x3a08, 0x0, 1, .secureOnly, true, .evc 15, 0x0, 0x0⟩,
  ⟨"MB10_RESP_ACK", 0x3a0c, 0x0, 1, .secureOnly, false, .ack 15, 0xffff, 0x0⟩,
  ⟨"MB11_REQ", 0x3c00, 0x4, 64, .secureOnly, false, .rw, 0xffffffff, 0x0⟩,
  ⟨"MB11_RESP", 0x3d00, 0x4, 64, .secureOnly, false, .ro, 0x0, 0x0⟩,
  ⟨"MB11_DOORBELL", 0x3e00, 0x0, 1, .secureOnly, false, .cmd, 0x0, 0x0⟩,
  ⟨"MB11_STATE", 0x3e04, 0x0, 1, .anyClass, true, .ro, 0x0, 0x0⟩,
  ⟨"MB11_RESP_EVC", 0x3e08, 0x0, 1, .secureOnly, true, .evc 16, 0x0, 0x0⟩,
  ⟨"MB11_RESP_ACK", 0x3e0c, 0x0, 1, .secureOnly, false, .ack 16, 0xffff, 0x0⟩]
def regRowsFmn : List RegRow := regRowsFmn0 ++ regRowsFmn1 ++ regRowsFmn2 ++ regRowsFmn3

/-- Registers of FBC frames. -/
def regRowsFbc0 : List RegRow := [
  ⟨"EVC", 0x100, 0x8, 8, .guarded, true, .evc 2, 0x0, 0x0⟩,
  ⟨"ACK", 0x104, 0x8, 8, .guarded, false, .ack 2, 0xffff, 0x0⟩,
  ⟨"STATE", 0x160, 0x0, 1, .anyClass, true, .ro, 0x0, 0x0⟩,
  ⟨"ERRCNT", 0x164, 0x0, 1, .anyClass, true, .ro, 0x0, 0x0⟩,
  ⟨"LEC", 0x168, 0x0, 1, .anyClass, true, .ro, 0x0, 0x0⟩,
  ⟨"TDC", 0x16c, 0x0, 1, .anyClass, true, .ro, 0x0, 0x0⟩,
  ⟨"RECOV", 0x170, 0x0, 1, .anyClass, true, .ro, 0x0, 0x0⟩,
  ⟨"BUF", 0x174, 0x0, 1, .anyClass, true, .ro, 0x0, 0x0⟩,
  ⟨"RXSEQ", 0x178, 0x0, 1, .anyClass, true, .ro, 0x0, 0x0⟩,
  ⟨"TXB_REQ", 0x180, 0x0, 1, .secureOnly, false, .cmd, 0x0, 0x0⟩,
  ⟨"TXB_ABORT", 0x184, 0x0, 1, .secureOnly, false, .cmd, 0x0, 0x0⟩,
  ⟨"TXB_DONE", 0x188, 0x0, 1, .secureOnly, true, .ro, 0x0, 0x0⟩,
  ⟨"CFG", 0x200, 0x4, 8, .secureOnly, false, .rw, 0xffffffff, 0x0⟩,
  ⟨"MB0", 0x1000, 0x4, 20, .secureOnly, false, .ro, 0x0, 0x0⟩,
  ⟨"MB1_ID", 0x1050, 0x0, 1, .secureOnly, false, .rw, 0x7fffffff, 0x0⟩,
  ⟨"MB1_CTL", 0x1054, 0x0, 1, .secureOnly, false, .rw, 0xfff, 0x0⟩,
  ⟨"MB1_TS", 0x1058, 0x4, 2, .secureOnly, false, .rw, 0xffffffff, 0x0⟩,
  ⟨"MB1_DATA", 0x1060, 0x4, 16, .secureOnly, false, .rw, 0xffffffff, 0x0⟩,
  ⟨"MB2_ID", 0x10a0, 0x0, 1, .secureOnly, false, .rw, 0x7fffffff, 0x0⟩,
  ⟨"MB2_CTL", 0x10a4, 0x0, 1, .secureOnly, false, .rw, 0xfff, 0x0⟩,
  ⟨"MB2_TS", 0x10a8, 0x4, 2, .secureOnly, false, .rw, 0xffffffff, 0x0⟩,
  ⟨"MB2_DATA", 0x10b0, 0x4, 16, .secureOnly, false, .rw, 0xffffffff, 0x0⟩,
  ⟨"MB3_ID", 0x10f0, 0x0, 1, .secureOnly, false, .rw, 0x7fffffff, 0x0⟩,
  ⟨"MB3_CTL", 0x10f4, 0x0, 1, .secureOnly, false, .rw, 0xfff, 0x0⟩]
/-- Registers of FBC frames. -/
def regRowsFbc1 : List RegRow := [
  ⟨"MB3_TS", 0x10f8, 0x4, 2, .secureOnly, false, .rw, 0xffffffff, 0x0⟩,
  ⟨"MB3_DATA", 0x1100, 0x4, 16, .secureOnly, false, .rw, 0xffffffff, 0x0⟩,
  ⟨"MB4_ID", 0x1140, 0x0, 1, .secureOnly, false, .rw, 0x7fffffff, 0x0⟩,
  ⟨"MB4_CTL", 0x1144, 0x0, 1, .secureOnly, false, .rw, 0xfff, 0x0⟩,
  ⟨"MB4_TS", 0x1148, 0x4, 2, .secureOnly, false, .rw, 0xffffffff, 0x0⟩,
  ⟨"MB4_DATA", 0x1150, 0x4, 16, .secureOnly, false, .rw, 0xffffffff, 0x0⟩,
  ⟨"MB5_ID", 0x1190, 0x0, 1, .secureOnly, false, .rw, 0x7fffffff, 0x0⟩,
  ⟨"MB5_CTL", 0x1194, 0x0, 1, .secureOnly, false, .rw, 0xfff, 0x0⟩,
  ⟨"MB5_TS", 0x1198, 0x4, 2, .secureOnly, false, .rw, 0xffffffff, 0x0⟩,
  ⟨"MB5_DATA", 0x11a0, 0x4, 16, .secureOnly, false, .rw, 0xffffffff, 0x0⟩,
  ⟨"MB6_ID", 0x11e0, 0x0, 1, .secureOnly, false, .rw, 0x7fffffff, 0x0⟩,
  ⟨"MB6_CTL", 0x11e4, 0x0, 1, .secureOnly, false, .rw, 0xfff, 0x0⟩,
  ⟨"MB6_TS", 0x11e8, 0x4, 2, .secureOnly, false, .rw, 0xffffffff, 0x0⟩,
  ⟨"MB6_DATA", 0x11f0, 0x4, 16, .secureOnly, false, .rw, 0xffffffff, 0x0⟩,
  ⟨"MB7_ID", 0x1230, 0x0, 1, .secureOnly, false, .rw, 0x7fffffff, 0x0⟩,
  ⟨"MB7_CTL", 0x1234, 0x0, 1, .secureOnly, false, .rw, 0xfff, 0x0⟩,
  ⟨"MB7_TS", 0x1238, 0x4, 2, .secureOnly, false, .rw, 0xffffffff, 0x0⟩,
  ⟨"MB7_DATA", 0x1240, 0x4, 16, .secureOnly, false, .rw, 0xffffffff, 0x0⟩,
  ⟨"MB_RX", 0x1280, 0x4, 2400, .secureOnly, false, .ro, 0x0, 0x0⟩]
def regRowsFbc : List RegRow := regRowsFbc0 ++ regRowsFbc1

/-- Registers of QUE frames. -/
def regRowsQue0 : List RegRow := [
  ⟨"CREDIT_VIOL_EVC", 0x100, 0x0, 1, .guarded, true, .evc 2, 0x0, 0x0⟩,
  ⟨"CREDIT_VIOL_ACK", 0x104, 0x0, 1, .guarded, false, .ack 2, 0xffff, 0x0⟩,
  ⟨"CREDIT_VIOL_INFO", 0x108, 0x0, 1, .guarded, true, .ro, 0x0, 0x0⟩,
  ⟨"PTR_MISMATCH_EVC", 0x110, 0x0, 1, .guarded, true, .evc 3, 0x0, 0x0⟩,
  ⟨"PTR_MISMATCH_ACK", 0x114, 0x0, 1, .guarded, false, .ack 3, 0xffff, 0x0⟩,
  ⟨"PTR_MISMATCH_INFO", 0x118, 0x0, 1, .guarded, true, .ro, 0x0, 0x0⟩,
  ⟨"QRESET_EVC", 0x120, 0x0, 1, .guarded, true, .evc 4, 0x0, 0x0⟩,
  ⟨"QRESET_ACK", 0x124, 0x0, 1, .guarded, false, .ack 4, 0xffff, 0x0⟩,
  ⟨"RESET_CMD", 0x128, 0x0, 1, .secureOnly, false, .rw, 0x7f, 0x0⟩,
  ⟨"FMN_NOTIFY", 0x130, 0x4, 4, .anyClass, true, .ro, 0x0, 0x0⟩,
  ⟨"CFG", 0x1000, 0x40, 128, .secureOnly, false, .rw, 0x803fbf8f, 0x0⟩,
  ⟨"BASE", 0x1004, 0x40, 128, .secureOnly, false, .rw, 0x3fff000, 0x0⟩,
  ⟨"PUSH", 0x1008, 0x40, 128, .guarded, false, .cmd, 0x0, 0x0⟩,
  ⟨"POP", 0x100c, 0x40, 128, .guarded, false, .cmd, 0x0, 0x0⟩,
  ⟨"LEVEL", 0x1010, 0x40, 128, .anyClass, true, .ro, 0x0, 0x0⟩,
  ⟨"PTRS", 0x1014, 0x40, 128, .anyClass, true, .ro, 0x0, 0x0⟩,
  ⟨"FLAGS", 0x1018, 0x40, 128, .anyClass, true, .ro, 0x0, 0x0⟩,
  ⟨"EPOCH", 0x101c, 0x40, 128, .anyClass, true, .ro, 0x0, 0x0⟩,
  ⟨"RESULT", 0x1020, 0x40, 128, .anyClass, true, .ro, 0x0, 0x0⟩]
def regRowsQue : List RegRow := regRowsQue0

/-- Registers of MEM frames. -/
def regRowsMem0 : List RegRow := [
  ⟨"EVC", 0x100, 0x8, 5, .guarded, true, .evc 2, 0x0, 0x0⟩,
  ⟨"ACK", 0x104, 0x8, 5, .guarded, false, .ack 2, 0xffff, 0x0⟩,
  ⟨"ERR_INFO", 0x130, 0x0, 1, .guarded, true, .ro, 0x0, 0x0⟩,
  ⟨"ERR_ADDR_LO", 0x134, 0x0, 1, .guarded, true, .lo, 0x0, 0x0⟩,
  ⟨"ERR_ADDR_HI", 0x138, 0x0, 1, .guarded, true, .hi, 0x0, 0x0⟩,
  ⟨"SCRUB_CFG", 0x140, 0x0, 1, .secureOnly, false, .rw, 0xffff, 0x64⟩,
  ⟨"SCRUB_POS", 0x144, 0x0, 1, .anyClass, true, .ro, 0x0, 0x0⟩,
  ⟨"SCRUB_PASS", 0x148, 0x0, 1, .anyClass, true, .ro, 0x0, 0x0⟩,
  ⟨"SCRUB_INTERVAL", 0x14c, 0x0, 1, .anyClass, true, .ro, 0x0, 0xb9⟩,
  ⟨"TCM_RO_END", 0x150, 0x0, 1, .secureOnly, false, .rw, 0xff000, 0x0⟩,
  ⟨"TCM_CFG_BASE", 0x154, 0x0, 1, .secureOnly, false, .rw, 0xff000, 0x0⟩,
  ⟨"TCM_CFG_LEN", 0x158, 0x0, 1, .secureOnly, false, .rw, 0xff000, 0x0⟩,
  ⟨"INJ_ADDR_LO", 0x160, 0x0, 1, .secureOnly, false, .rwlo, 0xffffffff, 0x0⟩,
  ⟨"INJ_ADDR_HI", 0x164, 0x0, 1, .secureOnly, false, .rwhi, 0xff, 0x0⟩,
  ⟨"INJ_CTL", 0x168, 0x0, 1, .secureOnly, false, .rw, 0xffffff, 0xffff00⟩,
  ⟨"INJ_GO", 0x16c, 0x0, 1, .secureOnly, false, .cmd, 0x0, 0x0⟩,
  ⟨"BANK", 0x1000, 0x4, 73, .anyClass, true, .ro, 0x0, 0x0⟩,
  ⟨"E_BASE", 0x2000, 0x20, 32, .secureOnly, false, .rw, 0x3ffffff, 0x0⟩,
  ⟨"E_PAGES", 0x2004, 0x20, 32, .secureOnly, false, .rw, 0xffff, 0x0⟩,
  ⟨"E_OWNER", 0x2008, 0x20, 32, .secureOnly, false, .rw, 0xc30000ff, 0x0⟩,
  ⟨"E_RIGHTS", 0x200c, 0x20, 32, .secureOnly, false, .rw, 0xffffffff, 0x0⟩,
  ⟨"E_ATTR", 0x2010, 0x20, 32, .secureOnly, false, .rw, 0x73, 0x0⟩]
def regRowsMem : List RegRow := regRowsMem0

/-- Registers of ING frames. -/
def regRowsIng0 : List RegRow := [
  ⟨"EVC", 0x100, 0x8, 8, .guarded, true, .evc 2, 0x0, 0x0⟩,
  ⟨"ACK", 0x104, 0x8, 8, .guarded, false, .ack 2, 0xffff, 0x0⟩,
  ⟨"P_STATE", 0x400, 0x20, 6, .anyClass, true, .ro, 0x0, 0x0⟩,
  ⟨"P_ECC_CORR", 0x404, 0x20, 6, .anyClass, true, .ro, 0x0, 0x0⟩,
  ⟨"P_PHY_ERR", 0x408, 0x20, 6, .anyClass, true, .ro, 0x0, 0x0⟩,
  ⟨"P_UNROUTED", 0x40c, 0x20, 6, .anyClass, true, .ro, 0x0, 0x0⟩,
  ⟨"S_STATE", 0x1000, 0x80, 48, .anyClass, true, .ro, 0x0, 0x0⟩,
  ⟨"S_WRITTEN", 0x1004, 0x80, 48, .anyClass, true, .ro, 0x0, 0x0⟩,
  ⟨"S_RELEASE", 0x1008, 0x80, 48, .guarded, true, .rw, 0xffff, 0x0⟩,
  ⟨"S_DROPS", 0x100c, 0x80, 48, .anyClass, true, .ro, 0x0, 0x0⟩,
  ⟨"S_ERRFRAMES", 0x1010, 0x80, 48, .anyClass, true, .ro, 0x0, 0x0⟩,
  ⟨"S_LAST_FS_LO", 0x1014, 0x80, 48, .anyClass, true, .lo, 0x0, 0x0⟩,
  ⟨"S_LAST_FS_HI", 0x1018, 0x80, 48, .anyClass, true, .hi, 0x0, 0x0⟩,
  ⟨"S_LAST_FE_LO", 0x101c, 0x80, 48, .anyClass, true, .lo, 0x0, 0x0⟩,
  ⟨"S_LAST_FE_HI", 0x1020, 0x80, 48, .anyClass, true, .hi, 0x0, 0x0⟩,
  ⟨"S_CFG0", 0x1024, 0x80, 48, .secureOnly, false, .rw, 0xffffffff, 0x0⟩,
  ⟨"S_CFG1", 0x1028, 0x80, 48, .secureOnly, false, .rw, 0xffffffff, 0x0⟩,
  ⟨"S_CFG2", 0x102c, 0x80, 48, .secureOnly, false, .rw, 0xffffffff, 0x0⟩,
  ⟨"S_CFG3", 0x1030, 0x80, 48, .secureOnly, false, .rw, 0xffffffff, 0x0⟩,
  ⟨"S_CFG4", 0x1034, 0x80, 48, .secureOnly, false, .rw, 0xffffffff, 0x0⟩,
  ⟨"S_CFG5", 0x1038, 0x80, 48, .secureOnly, false, .rw, 0xffffffff, 0x0⟩,
  ⟨"S_CFG6", 0x103c, 0x80, 48, .secureOnly, false, .rw, 0xffffffff, 0x0⟩,
  ⟨"S_CFG7", 0x1040, 0x80, 48, .secureOnly, false, .rw, 0xffffffff, 0x0⟩,
  ⟨"S_CFG8", 0x1044, 0x80, 48, .secureOnly, false, .rw, 0xffffffff, 0x0⟩]
def regRowsIng : List RegRow := regRowsIng0

/-- Registers of ENG frames. -/
def regRowsEng0 : List RegRow := [
  ⟨"EVC", 0x110, 0x8, 4, .guarded, true, .evc 2, 0x0, 0x0⟩,
  ⟨"ACK", 0x114, 0x8, 4, .guarded, false, .ack 2, 0xffff, 0x0⟩,
  ⟨"STATE", 0x100, 0x0, 1, .anyClass, true, .ro, 0x0, 0x0⟩,
  ⟨"FAULT_INFO", 0x130, 0x0, 1, .guarded, true, .ro, 0x0, 0x0⟩,
  ⟨"P_STATUS", 0x1000, 0x100, 8, .anyClass, true, .ro, 0x0, 0x0⟩,
  ⟨"P_LASTOK", 0x1004, 0x100, 8, .anyClass, true, .ro, 0x0, 0x0⟩,
  ⟨"P_PREVOK", 0x1008, 0x100, 8, .anyClass, true, .ro, 0x0, 0x0⟩,
  ⟨"P0_CFG", 0x1010, 0x4, 60, .secureOnly, false, .rw, 0xffffffff, 0x0⟩,
  ⟨"P1_CFG", 0x1110, 0x4, 60, .secureOnly, false, .rw, 0xffffffff, 0x0⟩,
  ⟨"P2_CFG", 0x1210, 0x4, 60, .secureOnly, false, .rw, 0xffffffff, 0x0⟩,
  ⟨"P3_CFG", 0x1310, 0x4, 60, .secureOnly, false, .rw, 0xffffffff, 0x0⟩,
  ⟨"P4_CFG", 0x1410, 0x4, 60, .secureOnly, false, .rw, 0xffffffff, 0x0⟩,
  ⟨"P5_CFG", 0x1510, 0x4, 60, .secureOnly, false, .rw, 0xffffffff, 0x0⟩,
  ⟨"P6_CFG", 0x1610, 0x4, 60, .secureOnly, false, .rw, 0xffffffff, 0x0⟩,
  ⟨"P7_CFG", 0x1710, 0x4, 60, .secureOnly, false, .rw, 0xffffffff, 0x0⟩]
def regRowsEng : List RegRow := regRowsEng0

/-- Registers of SGM frames. -/
def regRowsSgm0 : List RegRow := [
  ⟨"PROGRESS", 0x200, 0x0, 1, .anyClass, true, .ro, 0x0, 0x0⟩,
  ⟨"PIXELS_LO", 0x208, 0x0, 1, .anyClass, true, .lo, 0x0, 0x0⟩,
  ⟨"PIXELS_HI", 0x20c, 0x0, 1, .anyClass, true, .hi, 0x0, 0x0⟩,
  ⟨"INVALID_LO", 0x210, 0x0, 1, .anyClass, true, .lo, 0x0, 0x0⟩,
  ⟨"INVALID_HI", 0x214, 0x0, 1, .anyClass, true, .hi, 0x0, 0x0⟩,
  ⟨"LRFAIL_LO", 0x218, 0x0, 1, .anyClass, true, .lo, 0x0, 0x0⟩,
  ⟨"LRFAIL_HI", 0x21c, 0x0, 1, .anyClass, true, .hi, 0x0, 0x0⟩]
def regRowsSgm : List RegRow := regRowsSgm0

/-- Registers of PAT frames. -/
def regRowsPat0 : List RegRow := [
  ⟨"EVC", 0x110, 0x8, 5, .guarded, true, .evc 2, 0x0, 0x0⟩,
  ⟨"ACK", 0x114, 0x8, 5, .guarded, false, .ack 2, 0xffff, 0x0⟩,
  ⟨"STATE", 0x100, 0x0, 1, .anyClass, true, .ro, 0x0, 0x0⟩,
  ⟨"FAULT_INFO", 0x138, 0x0, 1, .guarded, true, .ro, 0x0, 0x0⟩,
  ⟨"G_STATUS", 0x1000, 0x40, 16, .anyClass, true, .ro, 0x0, 0x0⟩,
  ⟨"G_TOKENS", 0x1004, 0x40, 16, .anyClass, true, .ro, 0x0, 0x0⟩,
  ⟨"G_TRIG", 0x1008, 0x40, 16, .anyClass, true, .ro, 0x0, 0x0⟩,
  ⟨"G_START_LO", 0x100c, 0x40, 16, .anyClass, true, .lo, 0x0, 0x0⟩,
  ⟨"G_START_HI", 0x1010, 0x40, 16, .anyClass, true, .hi, 0x0, 0x0⟩,
  ⟨"G_OVERLAPS", 0x1014, 0x40, 16, .anyClass, true, .ro, 0x0, 0x0⟩,
  ⟨"G_CFG0", 0x1018, 0x40, 16, .secureOnly, false, .rw, 0xffffffff, 0x0⟩,
  ⟨"G_CFG1", 0x101c, 0x40, 16, .secureOnly, false, .rw, 0xffffffff, 0x0⟩,
  ⟨"G_CFG2", 0x1020, 0x40, 16, .secureOnly, false, .rw, 0xffffffff, 0x0⟩,
  ⟨"G_CFG3", 0x1024, 0x40, 16, .secureOnly, false, .rw, 0xffffffff, 0x0⟩,
  ⟨"PROGRAM", 0x4000, 0x4, 4096, .secureOnly, false, .rw, 0xffffffff, 0x0⟩]
def regRowsPat : List RegRow := regRowsPat0

/-- Registers of SCH frames. -/
def regRowsSch0 : List RegRow := [
  ⟨"EVC", 0x100, 0x8, 5, .guarded, true, .evc 2, 0x0, 0x0⟩,
  ⟨"ACK", 0x104, 0x8, 5, .guarded, false, .ack 2, 0xffff, 0x0⟩,
  ⟨"TEARDOWN_INFO", 0x130, 0x0, 1, .guarded, true, .ro, 0x0, 0x0⟩,
  ⟨"WINVIOL_INFO", 0x134, 0x0, 1, .guarded, true, .ro, 0x0, 0x0⟩,
  ⟨"WINVIOL_ADDR_LO", 0x138, 0x0, 1, .guarded, true, .lo, 0x0, 0x0⟩,
  ⟨"WINVIOL_ADDR_HI", 0x13c, 0x0, 1, .guarded, true, .hi, 0x0, 0x0⟩,
  ⟨"CTX_OPEN", 0x140, 0x0, 1, .anyClass, true, .ro, 0x0, 0x0⟩,
  ⟨"CTX_FAULTED", 0x144, 0x0, 1, .anyClass, true, .ro, 0x0, 0x0⟩,
  ⟨"F_STATE", 0x1000, 0x100, 8, .anyClass, true, .ro, 0x0, 0x0⟩,
  ⟨"F_MASK_LO", 0x1004, 0x100, 8, .anyClass, false, .ro, 0x0, 0x0⟩,
  ⟨"F_MASK_HI", 0x1008, 0x100, 8, .anyClass, false, .ro, 0x0, 0x0⟩,
  ⟨"F_REMAIN", 0x100c, 0x100, 8, .anyClass, true, .ro, 0x0, 0x0⟩,
  ⟨"F_TABLE_SEQ", 0x1010, 0x100, 8, .anyClass, true, .ro, 0x0, 0x0⟩,
  ⟨"F_JOBS", 0x1014, 0x100, 8, .anyClass, true, .ro, 0x0, 0x0⟩,
  ⟨"F0_SLICE", 0x1040, 0x4, 16, .secureOnly, false, .rw, 0xbfffffff, 0x0⟩,
  ⟨"F1_SLICE", 0x1140, 0x4, 16, .secureOnly, false, .rw, 0xbfffffff, 0x0⟩,
  ⟨"F2_SLICE", 0x1240, 0x4, 16, .secureOnly, false, .rw, 0xbfffffff, 0x0⟩,
  ⟨"F3_SLICE", 0x1340, 0x4, 16, .secureOnly, false, .rw, 0xbfffffff, 0x0⟩,
  ⟨"F4_SLICE", 0x1440, 0x4, 16, .secureOnly, false, .rw, 0xbfffffff, 0x0⟩,
  ⟨"F5_SLICE", 0x1540, 0x4, 16, .secureOnly, false, .rw, 0xbfffffff, 0x0⟩,
  ⟨"F6_SLICE", 0x1640, 0x4, 16, .secureOnly, false, .rw, 0xbfffffff, 0x0⟩,
  ⟨"F7_SLICE", 0x1740, 0x4, 16, .secureOnly, false, .rw, 0xbfffffff, 0x0⟩,
  ⟨"CTX_STATE", 0x3000, 0x10, 32, .anyClass, true, .ro, 0x0, 0x0⟩,
  ⟨"W_BASE_LO", 0x4000, 0x20, 256, .secureOnly, false, .rwlo, 0xffffffff, 0x0⟩]
/-- Registers of SCH frames. -/
def regRowsSch1 : List RegRow := [
  ⟨"W_BASE_HI", 0x4004, 0x20, 256, .secureOnly, false, .rwhi, 0xff, 0x0⟩,
  ⟨"W_PAGES", 0x4008, 0x20, 256, .secureOnly, false, .rw, 0x1ffff, 0x0⟩,
  ⟨"W_ATTR", 0x400c, 0x20, 256, .secureOnly, false, .rw, 0x80000003, 0x0⟩,
  ⟨"RG_RATE0", 0x6000, 0x40, 10, .secureOnly, false, .rw, 0x800fffff, 0x0⟩,
  ⟨"RG_BURST0", 0x6004, 0x40, 10, .secureOnly, false, .rw, 0xfffff, 0x0⟩,
  ⟨"RG_LEVEL0", 0x6008, 0x40, 10, .anyClass, true, .ro, 0x0, 0x0⟩,
  ⟨"RG_STALL0", 0x600c, 0x40, 10, .anyClass, true, .ro, 0x0, 0x0⟩,
  ⟨"RG_RATE1", 0x6010, 0x40, 10, .secureOnly, false, .rw, 0x800fffff, 0x0⟩,
  ⟨"RG_BURST1", 0x6014, 0x40, 10, .secureOnly, false, .rw, 0xfffff, 0x0⟩,
  ⟨"RG_LEVEL1", 0x6018, 0x40, 10, .anyClass, true, .ro, 0x0, 0x0⟩,
  ⟨"RG_STALL1", 0x601c, 0x40, 10, .anyClass, true, .ro, 0x0, 0x0⟩,
  ⟨"RG_RATE2", 0x6020, 0x40, 10, .secureOnly, false, .rw, 0x800fffff, 0x0⟩,
  ⟨"RG_BURST2", 0x6024, 0x40, 10, .secureOnly, false, .rw, 0xfffff, 0x0⟩,
  ⟨"RG_LEVEL2", 0x6028, 0x40, 10, .anyClass, true, .ro, 0x0, 0x0⟩,
  ⟨"RG_STALL2", 0x602c, 0x40, 10, .anyClass, true, .ro, 0x0, 0x0⟩,
  ⟨"RG_STATUS", 0x6030, 0x40, 10, .anyClass, false, .ro, 0x0, 0x0⟩]
def regRowsSch : List RegRow := regRowsSch0 ++ regRowsSch1

/-- Registers of CRU frames. -/
def regRowsCru0 : List RegRow := [
  ⟨"STATE", 0x100, 0x0, 1, .anyClass, true, .ro, 0x0, 0x0⟩,
  ⟨"BUSY_LO", 0x104, 0x0, 1, .anyClass, true, .lo, 0x0, 0x0⟩,
  ⟨"BUSY_HI", 0x108, 0x0, 1, .anyClass, true, .hi, 0x0, 0x0⟩,
  ⟨"TILES_LO", 0x10c, 0x0, 1, .anyClass, true, .lo, 0x0, 0x0⟩,
  ⟨"TILES_HI", 0x110, 0x0, 1, .anyClass, true, .hi, 0x0, 0x0⟩,
  ⟨"EVC", 0x120, 0x8, 1, .guarded, true, .evc 2, 0x0, 0x0⟩,
  ⟨"ACK", 0x124, 0x8, 1, .guarded, false, .ack 2, 0xffff, 0x0⟩]
def regRowsCru : List RegRow := regRowsCru0

/-- Registers of FLX frames. -/
def regRowsFlx0 : List RegRow := [
  ⟨"EVC", 0x100, 0x8, 5, .guarded, true, .evc 2, 0x0, 0x0⟩,
  ⟨"ACK", 0x104, 0x8, 5, .guarded, false, .ack 2, 0xffff, 0x0⟩,
  ⟨"DAMAGE_INFO", 0x130, 0x0, 1, .guarded, true, .ro, 0x0, 0x0⟩,
  ⟨"DAMAGE_ADDR_LO", 0x134, 0x0, 1, .guarded, true, .lo, 0x0, 0x0⟩,
  ⟨"DAMAGE_ADDR_HI", 0x138, 0x0, 1, .guarded, true, .hi, 0x0, 0x0⟩,
  ⟨"BYPASS_INFO", 0x13c, 0x0, 1, .guarded, true, .ro, 0x0, 0x0⟩,
  ⟨"ENC_IN_LO", 0x140, 0x0, 1, .anyClass, true, .lo, 0x0, 0x0⟩,
  ⟨"ENC_IN_HI", 0x144, 0x0, 1, .anyClass, true, .hi, 0x0, 0x0⟩,
  ⟨"ENC_OUT_LO", 0x148, 0x0, 1, .anyClass, true, .lo, 0x0, 0x0⟩,
  ⟨"ENC_OUT_HI", 0x14c, 0x0, 1, .anyClass, true, .hi, 0x0, 0x0⟩,
  ⟨"DEC_BLOCKS_LO", 0x150, 0x0, 1, .anyClass, true, .lo, 0x0, 0x0⟩,
  ⟨"DEC_BLOCKS_HI", 0x154, 0x0, 1, .anyClass, true, .hi, 0x0, 0x0⟩,
  ⟨"ENC_KINDS", 0x158, 0x0, 1, .anyClass, true, .ro, 0x0, 0x0⟩,
  ⟨"ENC_STATE", 0x15c, 0x0, 1, .anyClass, true, .ro, 0x0, 0x0⟩]
def regRowsFlx : List RegRow := regRowsFlx0

/-- Registers of SPR frames. -/
def regRowsSpr0 : List RegRow := [
  ⟨"EVC", 0x100, 0x8, 6, .guarded, true, .evc 2, 0x0, 0x0⟩,
  ⟨"ACK", 0x104, 0x8, 6, .guarded, false, .ack 2, 0xffff, 0x0⟩,
  ⟨"STATE", 0x140, 0x0, 1, .anyClass, true, .ro, 0x0, 0x0⟩,
  ⟨"TSYNC", 0x144, 0x0, 1, .anyClass, true, .ro, 0x0, 0x0⟩,
  ⟨"TX_LO", 0x148, 0x0, 1, .anyClass, true, .lo, 0x0, 0x0⟩,
  ⟨"TX_HI", 0x14c, 0x0, 1, .anyClass, true, .hi, 0x0, 0x0⟩,
  ⟨"RX_LO", 0x150, 0x0, 1, .anyClass, true, .lo, 0x0, 0x0⟩,
  ⟨"RX_HI", 0x154, 0x0, 1, .anyClass, true, .hi, 0x0, 0x0⟩,
  ⟨"REACH", 0x158, 0x0, 1, .anyClass, true, .ro, 0x0, 0x0⟩]
def regRowsSpr : List RegRow := regRowsSpr0

/-- Registers of FSU frames. -/
def regRowsFsu0 : List RegRow := [
  ⟨"EVC", 0x100, 0x8, 8, .guarded, true, .evc 2, 0x0, 0x0⟩,
  ⟨"ACK", 0x104, 0x8, 8, .guarded, false, .ack 2, 0xffff, 0x0⟩,
  ⟨"EVC", 0x170, 0x8, 1, .guarded, true, .evc 10, 0x0, 0x0⟩,
  ⟨"ACK", 0x174, 0x8, 1, .guarded, false, .ack 10, 0xffff, 0x0⟩,
  ⟨"STATE", 0x140, 0x0, 1, .anyClass, true, .ro, 0x0, 0x0⟩,
  ⟨"OUTSEQ", 0x144, 0x0, 1, .anyClass, true, .ro, 0x0, 0x0⟩,
  ⟨"TILES_LO", 0x148, 0x0, 1, .anyClass, true, .lo, 0x0, 0x0⟩,
  ⟨"TILES_HI", 0x14c, 0x0, 1, .anyClass, true, .hi, 0x0, 0x0⟩,
  ⟨"FB_LO", 0x150, 0x0, 1, .anyClass, true, .lo, 0x0, 0x0⟩,
  ⟨"FB_HI", 0x154, 0x0, 1, .anyClass, true, .hi, 0x0, 0x0⟩,
  ⟨"MOULD_ID_LO", 0x160, 0x0, 1, .anyClass, true, .lo, 0x0, 0x0⟩,
  ⟨"MOULD_ID_HI", 0x164, 0x0, 1, .anyClass, true, .hi, 0x0, 0x0⟩,
  ⟨"LAST", 0x158, 0x0, 1, .anyClass, true, .ro, 0x0, 0x0⟩,
  ⟨"FAULT_INFO", 0x168, 0x0, 1, .guarded, true, .ro, 0x0, 0x0⟩,
  ⟨"BADENT_INFO", 0x16c, 0x0, 1, .guarded, true, .ro, 0x0, 0x0⟩,
  ⟨"CFG", 0x200, 0x4, 10, .secureOnly, false, .rw, 0xffffffff, 0x0⟩]
def regRowsFsu : List RegRow := regRowsFsu0

/-- Registers of DISP frames. -/
def regRowsDisp0 : List RegRow := [
  ⟨"EVC", 0x100, 0x8, 10, .guarded, true, .evc 2, 0x0, 0x0⟩,
  ⟨"ACK", 0x104, 0x8, 10, .guarded, false, .ack 2, 0xffff, 0x0⟩,
  ⟨"STATE", 0x150, 0x0, 1, .anyClass, true, .ro, 0x0, 0x0⟩,
  ⟨"FCOUNT", 0x154, 0x0, 1, .anyClass, true, .ro, 0x0, 0x0⟩,
  ⟨"T0_LO", 0x158, 0x0, 1, .anyClass, true, .lo, 0x0, 0x0⟩,
  ⟨"T0_HI", 0x15c, 0x0, 1, .anyClass, true, .hi, 0x0, 0x0⟩,
  ⟨"T0_NEXT_LO", 0x160, 0x0, 1, .anyClass, true, .lo, 0x0, 0x0⟩,
  ⟨"T0_NEXT_HI", 0x164, 0x0, 1, .anyClass, true, .hi, 0x0, 0x0⟩,
  ⟨"TLINE", 0x168, 0x0, 1, .anyClass, true, .ro, 0x0, 0x0⟩,
  ⟨"FLIP", 0x16c, 0x0, 1, .guarded, false, .rw, 0xffffffff, 0x0⟩,
  ⟨"UNDERFLOW_INFO", 0x170, 0x0, 1, .guarded, true, .ro, 0x0, 0x0⟩,
  ⟨"REGION", 0x180, 0x4, 16, .anyClass, true, .ro, 0x0, 0x0⟩,
  ⟨"SET0_CFG", 0x200, 0x4, 9, .secureOnly, false, .rw, 0xffffffff, 0x0⟩,
  ⟨"SET1_CFG", 0x240, 0x4, 9, .secureOnly, false, .rw, 0xffffffff, 0x0⟩,
  ⟨"SET2_CFG", 0x280, 0x4, 9, .secureOnly, false, .rw, 0xffffffff, 0x0⟩,
  ⟨"SET3_CFG", 0x2c0, 0x4, 9, .secureOnly, false, .rw, 0xffffffff, 0x0⟩,
  ⟨"EG_STATE", 0x1000, 0x40, 8, .anyClass, true, .ro, 0x0, 0x0⟩,
  ⟨"EG_WRITTEN", 0x1004, 0x40, 8, .anyClass, true, .ro, 0x0, 0x0⟩,
  ⟨"EG_RETURN", 0x1008, 0x40, 8, .guarded, false, .rw, 0xffff, 0x0⟩,
  ⟨"EG_DROPS", 0x100c, 0x40, 8, .anyClass, true, .ro, 0x0, 0x0⟩,
  ⟨"EG_CFG0", 0x1010, 0x40, 8, .secureOnly, false, .rw, 0xffffffff, 0x0⟩,
  ⟨"EG_CFG1", 0x1014, 0x40, 8, .secureOnly, false, .rw, 0xffffffff, 0x0⟩,
  ⟨"EG_CFG2", 0x1018, 0x40, 8, .secureOnly, false, .rw, 0xffffffff, 0x0⟩,
  ⟨"EG_CFG3", 0x101c, 0x40, 8, .secureOnly, false, .rw, 0xffffffff, 0x0⟩]
/-- Registers of DISP frames. -/
def regRowsDisp1 : List RegRow := [
  ⟨"EG_CFG4", 0x1020, 0x40, 8, .secureOnly, false, .rw, 0xffffffff, 0x0⟩,
  ⟨"EG_CFG5", 0x1024, 0x40, 8, .secureOnly, false, .rw, 0xffffffff, 0x0⟩,
  ⟨"EG_CFG6", 0x1028, 0x40, 8, .secureOnly, false, .rw, 0xffffffff, 0x0⟩,
  ⟨"EG_CFG7", 0x102c, 0x40, 8, .secureOnly, false, .rw, 0xffffffff, 0x0⟩]
def regRowsDisp : List RegRow := regRowsDisp0 ++ regRowsDisp1

/-- Registers of INP frames. -/
def regRowsInp0 : List RegRow := [
  ⟨"EVC", 0x100, 0x8, 7, .guarded, true, .evc 2, 0x0, 0x0⟩,
  ⟨"ACK", 0x104, 0x8, 7, .guarded, false, .ack 2, 0xffff, 0x0⟩,
  ⟨"STATE", 0x140, 0x0, 1, .anyClass, true, .ro, 0x0, 0x0⟩,
  ⟨"NODE", 0x1000, 0x10, 256, .anyClass, true, .ro, 0x0, 0x0⟩,
  ⟨"UID_LO", 0x1004, 0x10, 256, .anyClass, true, .lo, 0x0, 0x0⟩,
  ⟨"UID_HI", 0x1008, 0x10, 256, .anyClass, true, .hi, 0x0, 0x0⟩,
  ⟨"AGE", 0x100c, 0x10, 256, .anyClass, true, .ro, 0x0, 0x0⟩]
def regRowsInp : List RegRow := regRowsInp0

/-- The registers of block `b` above its standard block, by R45's frames. -/
def blkRows (b : Blk) : List RegRow :=
  match b with
  | 0 => regRowsChip
  | 1 => regRowsAon
  | 2 => regRowsBaro
  | 3 => regRowsClk
  | 4 => regRowsRst
  | 5 => regRowsFmn
  | 6 => regRowsQue
  | 7 => regRowsSch
  | 8 => regRowsMem
  | 9 => regRowsFlx
  | 10 => regRowsSpr
  | 11 => regRowsSpr
  | 12 => regRowsIng
  | 13 => regRowsEng
  | 14 => regRowsEng
  | 15 => regRowsEng ++ regRowsSgm
  | 16 => regRowsEng
  | 17 => regRowsEng
  | 18 => regRowsEng ++ regRowsEdge
  | 19 => regRowsPat
  | 20 => regRowsFsu
  | 21 => regRowsDisp
  | 22 => regRowsFbc
  | 23 => regRowsFbc
  | 24 => regRowsFbc
  | 25 => regRowsFbc
  | 26 => regRowsInp
  | 27 => regRowsQch
  | 28 => regRowsSec
  | 29 => regRowsPcie
  | 31 => regRowsIox
  | 32 => regRowsTb
  | n => if 48 ≤ n ∧ n < 96 then regRowsCru else []

/-- Whether block index `b` names a frame of R45. -/
def isBlock (b : Blk) : Bool := b < 33 || (48 ≤ b && b < 96)

def findRow (l : List RegRow) (off : Nat) : Option (RegRow × Nat) :=
  match l with
  | [] => none
  | r :: t => match r.place off with
    | some i => some (r, i)
    | none => findRow t off

/-- The register at offset `off` of block `b`, with its place in its row; none where no register is defined (R85). -/
def regRow (b : Blk) (off : Nat) : Option (RegRow × Nat) :=
  if !isBlock b then none
  else if off < 0x100 then findRow regRowsStd off
  else findRow (blkRows b) off

/-- Where a register of block `b` stands in the register store. -/
def regKey (b : Blk) (off : Nat) : Nat := b * 0x10000 + off

/-- What an unlisted register of the store reads as: its Reset value. BARO_TEMP_LIM resets by grade (R168). -/
def regDefault (k : Nat) : Word :=
  if k = 0x20114 then (if Config.grade = 1 then 0x6455 else 0x6e5f)
  else match regRow (k / 0x10000) (k % 0x10000) with
    | some (r, _) => r.reset
    | none => 0

end Sys2Proof.Machine
end

