-- ==== Sys2Proof/Machine/Tab.lean ====
section
/-! DEFINITION. Sys2Proof/Machine/Tab.lean: sparse tables in one canonical form. A table is a list of
(key, value) pairs, keys strictly rising, no entry equal to what an unlisted key reads as. -/
namespace Sys2Proof.Machine

/-- A sparse table: what an unlisted key reads as is given by the function `d` passed to each operation. -/
abbrev Tab (α : Type) := List (Nat × α)

/-- The value at key `k`. -/
def Tab.get {α : Type} (d : Nat → α) : Tab α → Nat → α
  | [], k => d k
  | (j, v) :: t, k => if j = k then v else Tab.get d t k

/-- Places `v` at key `k` of a table without looking at the default. -/
def Tab.ins {α : Type} (k : Nat) (v : α) : Tab α → Tab α
  | [] => [(k, v)]
  | (j, w) :: t => if k < j then (k, v) :: (j, w) :: t else if j = k then (k, v) :: t else (j, w) :: Tab.ins k v t

/-- Removes key `k`. -/
def Tab.del {α : Type} (k : Nat) : Tab α → Tab α
  | [] => []
  | (j, w) :: t => if j = k then Tab.del k t else (j, w) :: Tab.del k t

/-- Writes `v` at key `k`, keeping the canonical form: the default value is not listed. -/
def Tab.set {α : Type} [DecidableEq α] (d : Nat → α) (t : Tab α) (k : Nat) (v : α) : Tab α :=
  match t with
  | [] => if v = d k then [] else [(k, v)]
  | e :: t => if v = d k then Tab.del k (e :: t) else Tab.ins k v (e :: t)

/-- Removes every listed key that `p` holds of: those keys read as their default again. -/
def Tab.clear {α : Type} (p : Nat → Bool) (t : Tab α) : Tab α := t.filter (fun e => !p e.1)

/-- The n values from key a on, of a table that lists no key below a. -/
def Tab.fill {α : Type} (d : Nat → α) : Nat → Nat → Tab α → List α
  | 0, _, _ => []
  | n + 1, a, [] => d a :: Tab.fill d n (a + 1) []
  | n + 1, a, (j, v) :: t => if j = a then v :: Tab.fill d n (a + 1) t else d a :: Tab.fill d n (a + 1) ((j, v) :: t)

/-- The n values from key a on. -/
def Tab.slice {α : Type} (d : Nat → α) (t : Tab α) (a n : Nat) : List α :=
  Tab.fill d n a (t.dropWhile (fun e => decide (e.1 < a)))

/-- The entries that list values at a and the keys after it. -/
def Tab.listed {α : Type} [DecidableEq α] (d : Nat → α) : Nat → List α → Tab α
  | _, [] => []
  | a, v :: l => if v = d a then Tab.listed d (a + 1) l else (a, v) :: Tab.listed d (a + 1) l

/-- Writes values at key a and the keys after it, keeping the canonical form. -/
def Tab.put {α : Type} [DecidableEq α] (d : Nat → α) (t : Tab α) (a : Nat) (l : List α) : Tab α :=
  t.takeWhile (fun e => decide (e.1 < a)) ++ Tab.listed d a l ++ t.dropWhile (fun e => decide (e.1 < a + l.length))

/-- Keys strictly rising, all of them above `lo`. -/
def Tab.risingFrom {α : Type} : Option Nat → Tab α → Bool
  | _, [] => true
  | none, (j, _) :: t => Tab.risingFrom (some j) t
  | some lo, (j, _) :: t => decide (lo < j) && Tab.risingFrom (some j) t

/-- The canonical form: keys strictly rising, no entry equal to its default. -/
def Tab.wf {α : Type} [DecidableEq α] (d : Nat → α) (t : Tab α) : Bool :=
  Tab.risingFrom none t && t.all (fun e => !decide (e.2 = d e.1))

/-- Updates the value at key `k` by `f`. -/
def Tab.upd {α : Type} [DecidableEq α] (d : Nat → α) (t : Tab α) (k : Nat) (f : α → α) : Tab α :=
  Tab.set d t k (f (Tab.get d t k))

end Sys2Proof.Machine
end

