-- ==== Sys2Proof/Machine/Blocks.lean ====
section
/-! DEFINITION. Sys2Proof/Machine/Blocks.lean: the state of each block of the part, all of it plain data. Every
field's default value is its value at reset. Registers that software configures, and the captured values of
read-only registers, stand in `Regs.store` under their frame and offset; status registers are views of the fields
below (Machine/Flags.lean). -/
namespace Sys2Proof.Machine
open Sys2Proof

/-! ## Registers (Register behaviour) -/

/-- The register file of all frames, with what R83 to R122 keep beside it. -/
structure Regs where
  /-- RW fields and captured RO values, by block × 0x10000 + offset; an unlisted one reads its Reset value. -/
  store : Tab Word := []
  /-- EVC of source j of block b at key 32 × b + j (R89, R90). -/
  evc : Tab Count16 := []
  /-- ACK of the same source. -/
  ack : Tab Count16 := []
  /-- Held copies of SNAPSHOT, by the live register's key (R97). -/
  held : Tab Word := []
  /-- SNAPSHOT_SEQ by block. -/
  snapSeq : Tab Count16 := []
  /-- Read shadows: high half kept for a master and a LO register, key master × 2^24 + register key (R94). -/
  rdShadow : Tab Word := []
  /-- Write shadows, same key (R95). -/
  wrShadow : Tab Word := []
  /-- Registers whose hidden parity mismatches, by register key (R100 to R102): 4 × the bits that differ from what was
  written, + 1 while the mismatch is not found, 2 once it is found and counted, 3 once its block has reacted. -/
  parityBad : Tab Nat := []
  /-- Blocks halted under R116. -/
  halted : Tab Bool := []
  /-- TB_NOW of each halt of a block, newest first (R1016). -/
  haltTimes : Tab (List Nat) := []
  /-- Contexts torn down for a halted block (R1015). -/
  haltCtxs : Tab (List Nat) := []
  /-- Blocks left halted until the next warm-scope reset (R1016). -/
  leftHalted : Tab Bool := []
  /-- MSI-X messages due by PF0 vector (R105), not yet sent. -/
  msixDue : Tab Bool := []
deriving DecidableEq, Repr

/-! ## PCI Express endpoint and fabric -/

/-- One vector of an MSI-X table in BAR4 of PF0 or BAR2 of PF1 (R49, R50). -/
structure MsixVec where
  addr : Dword := 0
  data : Word := 0
  /-- Mask bit of the vector control word; 1 after reset, as PCI Express gives. -/
  masked : Bool := true
  /-- Pending-bit array bit. -/
  pbit : Bool := false
deriving DecidableEq, Repr

/-- A posted write inside the device that is not yet visible to the other masters (R55, R58). -/
structure Posted where
  master : Nat
  cls : AccessClass
  addr : Nat
  bytes : List Byte
deriving DecidableEq, Repr

/-- A doorbell with the ordered-write attribute that waits for its master's earlier writes (R58, R69), or a register
write of the same master behind one (R55): `addr` is the local address. -/
structure Doorbell where
  master : Nat
  cls : AccessClass
  addr : Nat
  value : Word
deriving DecidableEq, Repr

/-- A read that waits: a non-posted read through a BAR, behind the function's earlier posted writes (R58, R71), `addr`
being the offset in the BAR; or, with no BAR, a register read behind an ordered doorbell of its master (R55). -/
structure NpRead where
  master : Nat
  cls : AccessClass
  bar : Option Bar
  addr : Nat
  len : Nat
deriving DecidableEq, Repr

/-- The fabric and the endpoint. -/
structure Bus where
  /-- Writes issued and not yet visible, oldest first. -/
  posted : List Posted := []
  doorbells : List Doorbell := []
  reads : List NpRead := []
  /-- What the latest read of each master returned (the model's own: where a read's data goes). -/
  readData : Tab (List Byte) := []
  /-- Whether that read carried the Poisoned mark (R72). -/
  readPoison : Tab Bool := []
  /-- MSI-X tables: PF0 vector v at key v, PF1 vector v at key 64 + v. -/
  msix : Tab MsixVec := []
  /-- Messages sent on each vector, counted (the model's own trace of what leaves). -/
  msixSent : Tab Nat := []
  /-- BARs assigned, Bus Master Enable, MSI-X enable and Function Mask by function, 0 PF0, 1 PF1 (R76). -/
  barsAssigned : Tab Bool := []
  busMaster : Tab Bool := []
  msixOn : Tab Bool := []
  /-- Link training is in progress (R239). -/
  training : Bool := false
  linkUp : Bool := false
  linkWidth : Nat := 0
  linkRate : Nat := 0
  /-- L1 substate of PCIE_LINK.L1SUB. -/
  l1sub : Nat := 0
  /-- Contexts assigned to PF1 (PCIE_PF1_CTX). -/
  pf1Ctx : Tab Bool := []
  /-- AER correctable status bits as reported, by error kind 0 to 4 in R74's order. -/
  aerCorr : Tab Bool := []
  /-- AER uncorrectable status bits as reported, by error kind 0 to 4 in R74's order. -/
  aerUncorr : Tab Bool := []
  /-- CHIPID strap as sampled (R77). -/
  chipId : Nat := 0
deriving DecidableEq, Repr

/-! ## Always-on domain and Barometer -/

/-- Calendar fields of R141. -/
structure Calendar where
  year : Nat := 2000
  month : Nat := 1
  day : Nat := 1
  hour : Nat := 0
  minute : Nat := 0
  second : Nat := 0
  sub : Nat := 0
deriving DecidableEq, Repr

/-- The always-on core. -/
structure Aon where
  /-- AON_PWR_STATE.STATE: 0 Calm, 1 Breeze, 2 Gust, 3 Gale. -/
  pwr : Nat := 1
  /-- Target of the transition in progress. -/
  moving : Option Nat := none
  /-- Calm entry has passed its commit point: XHF is stopped (R133). -/
  calmCommitted : Bool := false
  /-- A wake asserted at or after the commit tick: Calm exit starts once the entry completes (R133). -/
  exitDue : Bool := false
  /-- TB_NOW at Calm entry (R135). -/
  tbAtCalm : Nat := 0
  /-- AON ticks counted in the present Calm. -/
  calmCount : Nat := 0
  /-- AON_WAKE_SRC (R136). -/
  wakeSrc : BitVec 16 := 0
  /-- Level of CLIFF0 to CLIFF7 at Calm entry (source 15). -/
  cliffAtCalm : BitVec 8 := 0
  cal : Calendar := {}
  /-- A capture written and not yet copied (R144). -/
  capDue : Bool := false
  /-- The copied, valid commit that waits for the next tick (R145). -/
  commit : Option Calendar := none
  unset : Bool := true
  inaccurate : Bool := false
  wrapped : Bool := false
  /-- Cause of the grave latch while it is set (R150). -/
  grave : Option (BitVec 8) := none
  /-- The AON power-on reset is asserted. -/
  porHeld : Bool := false
  /-- PE_WAKEn asserted (R139). -/
  peWake : Bool := false
  /-- FBk_STB driven high in Calm (R138), bit k. -/
  fbStb : BitVec 4 := 0
  /-- PMIC_CALM on GPIO23 driven high (R1094). -/
  pmicCalm : Bool := false
deriving DecidableEq, Repr

/-- The Barometer. -/
structure Baro where
  /-- Channel of the latest sample: the next one is the next enabled above it, in turn (R164). -/
  lastCh : Option Nat := none
  loStatus : BitVec 16 := 0
  hiStatus : BitVec 16 := 0
  /-- Consecutive samples against the present LO status of each channel (R165). -/
  loRun : Tab Nat := []
  hiRun : Tab Nat := []
  tempWarn : Bool := false
  tempCrit : Bool := false
  boCore : Bool := false
  boSram : Bool := false
  boAon : Bool := false
  /-- A brown-out holds the Class D reset (R167). -/
  held : Bool := false
deriving DecidableEq, Repr

/-! ## Clocks and timebase -/

/-- PHASE of a domain, with the source a move is going to (CLK_SELd). -/
inductive Phase where
  | idle
  | switching (dst : Nat)
  | hung
deriving DecidableEq, Repr

/-- One clock domain: the active source and the phase. -/
structure Domain where
  active : Nat
  phase : Phase := .idle
  /-- The move in progress was made by hardware (R198, R200). -/
  hw : Bool := false
  /-- A domain reset of R188 has been started and is not complete. -/
  resetting : Bool := false
deriving DecidableEq, Repr

/-- One clock-meter channel's causes (R193, R194). -/
structure Meter where
  prewarn : Bool := false
  fault : Bool := false
  stopped : Bool := false
  valid : Bool := false
deriving DecidableEq, Repr

/-- The active source at the end of a domain's reset (R175). -/
def resetSource (d : Nat) : Nat := if d = 0 then 2 else if d ≤ 3 then 1 else 3
def domainReset (d : Nat) : Domain := { active := resetSource d }

/-- Clocks, the clock meter and the timebase. -/
structure Clk where
  domains : Tab Domain := []
  /-- READY flags by source code of R174. -/
  ready : BitVec 9 := 0b000001100
  /-- Gates that are closed (R190), by block index. -/
  gateClosed : Tab Bool := []
  meters : Tab Meter := []
  /-- TB_NOW (R205). -/
  now : Nat := 0
deriving DecidableEq, Repr

/-! ## Reset and boot -/

/-- A boot image header's fields that the ROM and the firmware keep (R227). -/
structure Image where
  slot : Nat := 3
  len : Nat := 0
  entry : Nat := 0
  rollback : Nat := 0
  release : Nat := 0
  vcs : Nat := 0
  seq : Nat := 0
deriving DecidableEq, Repr

/-- Which slot check the boot ROM is at (R228 to R231). -/
inductive RomStep where
  /-- waiting for BOOT_ROM_START -/
  | start
  /-- step 2 of R224 -/
  | clocks
  /-- stage FLASH: the slot being checked (0 A, 1 B) and the one left to try -/
  | flashHeader (slot : Nat) (rest : Option Nat)
  /-- checks 1 to 6 passed; the payload's hash is next (check 7) -/
  | flashPayload (slot : Nat) (rest : Option Nat)
  | waitPush
  | pushVerify
  /-- an image is accepted and the hand-off of R236 is next -/
  | accepted
  | firmware
  | halted
deriving DecidableEq, Repr

/-- Reset and boot state outside the RST frame's stored registers. -/
structure Rst where
  /-- PORn asserted. -/
  porn : Bool := false
  /-- WARMn asserted. -/
  warmn : Bool := false
  /-- PERSTn asserted. -/
  perst : Bool := true
  /-- BOOT[1:0] as sampled (R222). -/
  boot : Nat := 0
  rom : RomStep := .start
  /-- The image accepted or running. -/
  image : Image := {}
  /-- A Class D fault detected whose reset has not begun, with its DETAIL (R1011). -/
  classD : Option Nat := none
  /-- A watchdog expiry whose warm-scope reset has not begun (R295, R1012). -/
  wdogDue : Bool := false
  /-- The staging window of R232 is open. -/
  window : Bool := false
  /-- Link training has not started since the reset or PERSTn (R239). -/
  trainingDue : Bool := true
deriving DecidableEq, Repr

/-! ## Foreman and mailboxes -/

/-- Mailbox states of R259. -/
inductive MbState where
  | idle | posted | working | responded
deriving DecidableEq, Repr

/-- A response the Foreman has prepared (R266). -/
structure Resp where
  code : Nat
  detail : Nat := 0
  payload : List Byte := []
  progress : Nat := 0
deriving DecidableEq, Repr

/-- One mailbox. Its request and response areas stand in the register store (R257). -/
structure Mailbox where
  st : MbState := .idle
  /-- The Foreman's TCM copy of the request (R260). -/
  copy : List Byte := []
  /-- The request passed the checks before its own fields (R268) and its command has not begun. -/
  ready : Bool := false
  /-- The command has begun and its final response is still to come. -/
  waiting : Bool := false
  /-- The command has passed its commit point (R272). -/
  committed : Bool := false
  /-- The response prepared and not yet posted. -/
  out : Option Resp := none
  /-- Instant of the RING's acceptance, TB_NOW. -/
  ringAt : Nat := 0
  /-- The PF1 context bound to MB4 to MB7 (R275). -/
  bound : Option Nat := none
  /-- Response discarded when the binding ended under R304. -/
  discard : Bool := false
  /-- PROGRESS of the latest progress response. -/
  progress : Nat := 0
  /-- CANCEL reached the command before its copy (R272, R279). -/
  cancelled : Bool := false
  /-- Of a request delivered by a Sprue port: its chip and TAG. -/
  peer : Nat := 0
  peerTag : Nat := 0
deriving DecidableEq, Repr

/-- The DVFS step in progress (R203, R283, R1092, R1093). -/
structure DvfsStep where
  mb : Nat
  point : Nat
  /-- TB_NOW of the acceptance. -/
  at0 : Nat := 0
  /-- The VSET write has failed once and is to be repeated. -/
  retry : Bool := false
deriving DecidableEq, Repr

/-- A RELAY whose inner response is still to come (R280). -/
structure Relay where
  mb : Nat
  chip : Nat
  /-- TAG of its MAILBOX messages. -/
  tag : Nat
  at0 : Nat
  /-- Bound of the inner command, in ms. -/
  bound : Nat
  /-- First segment of the inner response. -/
  first : Option (List Byte) := none
deriving DecidableEq, Repr

/-- The Foreman: mailboxes, watchdog and the firmware's own state. -/
structure Fmn where
  mbs : Tab Mailbox := []
  /-- Mailboxes in WORKING in the order they entered it (R270). -/
  order : List Nat := []
  /-- TB_NOW at the latest kick or start of the watchdog period (R292). -/
  wdogFrom : Nat := 0
  /-- WARN cause (R294). -/
  wdogWarn : Bool := false
  /-- Calm request armed by PWR_REQUEST, with its instant (R282). -/
  calmArmed : Option Nat := none
  /-- The mailbox whose PWR_REQUEST awaits the transition. -/
  pwrMb : Option Nat := none
  dvfs : Option DvfsStep := none
  /-- Admission stopped for a DVFS step (R203). -/
  admitStopped : Bool := false
  /-- FW_STAGE accepted and not followed by a failed one: source address and 512-byte header (R289). -/
  staged : Option (Nat × List Byte) := none
  /-- FW_WRITE_SLOT in progress: its mailbox, its target slot and the step of R289 that is next. -/
  slotWrite : Option (Nat × Nat × Nat) := none
  /-- RELAYs that await an inner response. -/
  relays : List Relay := []
  /-- An expiry of the watchdog is forced (R290, R293): at once, or after the response of a mailbox. -/
  wdogForced : Bool := false
  restartMb : Option Nat := none
  /-- Log records held in TCM while the flash is busy (R1021). -/
  logHeld : List (List Byte) := []
  logLost : Bool := false
  /-- LOG_SEQ of the next record and the ring offset it goes to (R1020, R1031). -/
  logSeq : Nat := 0
  logPos : Nat := 0
  /-- An operation on the xSPI flash is in progress (R271). -/
  flashBusy : Bool := false
deriving DecidableEq, Repr

/-! ## Quench -/

/-- States of Quench (R971). -/
inductive QchState where
  | disarmed | armed | tripped | grave
deriving DecidableEq, Repr

/-- What Quench holds of one floor sector (R978). -/
structure Sector where
  /-- KIND of R961: 0 never published, 1 CLEAR, 2 DROP, 3 UNKNOWN. -/
  kind : Nat := 0
  dist : Nat := 0
  /-- Stale from reset until the first publication. -/
  stale : Bool := true
  /-- TB_NOW of the last publication. -/
  pubAt : Nat := 0
deriving DecidableEq, Repr

/-- What a snoop matcher holds of its latest frame (R977, R978). -/
structure Matcher where
  /-- A frame has been received. -/
  seen : Bool := false
  /-- V of the latest ODOM frame, two's complement. -/
  speed : Int := 0
  /-- The latest CLIFF frame makes its cause present: KIND, and MASK non-zero or FAULT set. -/
  kind : Nat := 0
  hit : Bool := false
  arrived : Nat := 0
  /-- The matcher's time-out has passed with no frame. -/
  timedOut : Bool := false
deriving DecidableEq, Repr

/-- Quench. The accepted payloads of QCH_ENVELOPE and QCH_MASKS stand in QCH_CFG0 to QCH_CFG16. -/
structure Qch where
  st : QchState := .disarmed
  envDone : Bool := false
  masksDone : Bool := false
  selftestOk : Bool := false
  /-- Lowest cause code of the current trip. -/
  tripCause : Nat := 0
  sectors : Tab Sector := []
  matchers : Tab Matcher := []
  /-- CLIFF pins held at their trip level for CLIFF_DEB, bit j (cause 1). -/
  cliff : BitVec 8 := 0
  /-- Safety-role nodes presented as lost, by node address (cause 6). -/
  nodesLost : Tab Bool := []
  /-- Cause 8, until the following reset. -/
  watchdog : Bool := false
  /-- Cause 10. -/
  readback : Bool := false
  /-- Readback differs from the driven level: QP_RB, QN_RB. -/
  qpRbBad : Bool := false
  qnRbBad : Bool := false
  /-- STOP_SEQ by segment. -/
  stopSeq : Tab Nat := []
  /-- CLEAR frames still to send after an entry to ARMED (R981). -/
  clearLeft : Nat := 0
  /-- TB_NOW of the latest STOP or CLEAR round. -/
  roundAt : Nat := 0
  /-- Held in reset: the always-on core holds the pair SAFE without life marks (R219). -/
  inReset : Bool := false
  /-- A single STOP frame with CAUSE 15 has been sent in GRAVE (R984). -/
  graveStop : Bool := false
deriving DecidableEq, Repr

/-! ## Field bus controllers -/

/-- States of R876. -/
inductive FbcState where
  | off | integrating | running | busOff | recovering
deriving DecidableEq, Repr

/-- A frame of the transmit FIFO (R881, R886). -/
structure FifoFrame where
  frame : CanFrame
  oneShot : Bool := false
  tag : Word := 0
  attempts : Nat := 0
deriving DecidableEq, Repr

/-- A received frame in a buffer (R882, R890). -/
structure RxBuf where
  frame : CanFrame
  filter : Nat := 0xFF
  loopback : Bool := false
  copy : Bool := false
  fine : Nat := 0
  ts : Nat := 0
deriving DecidableEq, Repr

/-- An acceptance filter (R889, R900). -/
structure Filter where
  id : Nat
  mask : Nat
  flags : Nat
  dest : Nat
deriving DecidableEq, Repr

/-- The request on the bus (R883): a dedicated buffer or the head of the FIFO. -/
inductive TxSource where
  | dedicated (b : Nat)
  | fifo
deriving DecidableEq, Repr

/-- One field-bus controller. Its configuration payload stands in FBCk_CFG0 to CFG7, its dedicated buffers in
FBCk_MB0 to MB7. -/
structure Fbc where
  st : FbcState := .off
  configured : Bool := false
  /-- The three queues are enabled for the owner (R899, R905). -/
  owned : Bool := false
  tecCnt : Nat := 0
  recCnt : Nat := 0
  /-- Restricted operation in force (R897). -/
  restricted : Bool := false
  /-- Protocol exception state (R880). -/
  pex : Bool := false
  /-- Recessive sequences counted in RECOVERING. -/
  recov : Nat := 0
  fifo : List FifoFrame := []
  /-- The attempt in progress, and the frame it carries on the bus. -/
  attempt : Option TxSource := none
  onBus : Option CanFrame := none
  /-- ABORT entries taken during an attempt of their frame, which wait for its end (R887). -/
  abortWait : List Word := []
  /-- Dedicated requests pending, and aborted during an attempt. -/
  txReq : BitVec 8 := 0
  txAbortDue : BitVec 8 := 0
  /-- Last outcome of each dedicated buffer (FBCk_TXB_DONE). -/
  txDone : BitVec 8 := 0
  txAborted : BitVec 8 := 0
  /-- TAGs of the last 64 completed FIFO frames, newest first (R887). -/
  completed : List Word := []
  /-- Message buffers 8 to 127 in use by received frames. -/
  rx : Tab (Option RxBuf) := []
  /-- Buffers of the receive pool in the order of their frames' ends (R891). -/
  rxOrder : List Nat := []
  rxSeq : Nat := 0
  filters : List Filter := []
  /-- A delivery or completion write failed: RXQ delivery and TXQ popping stop (R917). -/
  failed : Bool := false
  /-- FBC_STOP with MODE 0 in progress: its mailbox and its CLEAR (R903). -/
  stopping : Option (Nat × Bool) := none
  /-- TB_NOW when that stop was accepted. -/
  stopAt : Nat := 0
  /-- The controller was not OFF when a halt took it to OFF: the Foreman resumes it (R1015 step 4). -/
  started : Bool := false
deriving DecidableEq, Repr

/-! ## Hardware queues -/

/-- A PUSH accepted and not yet in effect (R315). -/
structure PushReq where
  count : Nat
  first : Bool
  last : Bool
  master : Nat
deriving DecidableEq, Repr

/-- One hardware queue: what the queue engine keeps beside its configuration registers and its ring in memory. -/
structure Queue where
  head : Nat := 0
  tail : Nat := 0
  occ : Nat := 0
  /-- Entries removed whose credits return in the next FAB cycle (R314, R319). -/
  freed : Nat := 0
  dropping : Bool := false
  armed : Bool := false
  epoch : Nat := 0
  /-- FIRST and LAST of each entry present, from HEAD on (R313). -/
  flags : List (Bool × Bool) := []
  push : Option PushReq := none
  /-- QUE_Qn_RESULT. -/
  removed : Nat := 0
  viol : Bool := false
  pushed : Nat := 0
  /-- CONSUMER of the QUEUE_CONFIG that configured the queue (R323). -/
  given : Option Nat := none
deriving DecidableEq, Repr

/-! ## On-die memory -/

/-- The on-die memories (R650). Region-table entries, bank counters and injection settings stand in the MEM frame. -/
structure Mem where
  /-- Stored data bytes by local address: ingots, hearths, boot ROM and TCM; mould-core SRAM, which has no fabric
  address, from 0x4000_0000 on. An unlisted byte reads 0 (R127, R218). -/
  bytes : Tab Byte := []
  /-- Stored check byte XOR the correct check byte of the stored data, by word (address / 8) (R651, R653). -/
  chk : Tab Byte := []
  /-- An armed error injection (R683). -/
  injArmed : Bool := false
  /-- Next line of the main sweep (MEM_SCRUB_POS). -/
  scrubPos : Nat := 0
  /-- Next line of the priority sweep, counted from its start, and the sweep's lines as they stood at that start. -/
  prioPos : Nat := 0
  prioLines : List (Nat × Nat) := []
  /-- The next step is odd (R663). -/
  scrubOdd : Bool := false
  /-- TCM pages waiting for a reload from flash, with TB_NOW of the detection (R668). -/
  reloads : List (Nat × Nat) := []
deriving DecidableEq, Repr

end Sys2Proof.Machine
end

