-- ==== Sys2Proof/Machine/Media.lean ====
section
/-! DEFINITION. Sys2Proof/Machine/Media.lean: the state of ingest, the media engines, the Pattern sequencer, the
scheduler and the crucibles. -/
namespace Sys2Proof.Machine
open Sys2Proof

/-! ## Sensor ingest -/

/-- States of R344. -/
inductive SlotSt where
  | stopped | armed | receiving
deriving DecidableEq, Repr

/-- A frame that is open in a slot (R346 to R350). -/
structure OpenFrame where
  csiNum : Nat
  tbFs : Nat
  /-- Long packets received since Frame Start. -/
  lines : Nat := 0
  bytes : Nat := 0
  crcLines : Nat := 0
  eccCorr : Nat := 0
  long : Bool := false
  lineLen : Bool := false
  overrun : Bool := false
  late : Bool := false
  /-- Stored bytes of each line received. -/
  got : Tab Nat := []
deriving DecidableEq, Repr

/-- One ingest slot. Its configuration, WRITTEN, RELEASE and counters stand in the ING frame. -/
structure IngSlot where
  st : SlotSt := .stopped
  reason : Nat := 0
  configured : Bool := false
  frame : Option OpenFrame := none
  /-- Inside a dropped frame: every packet up to the next Frame Start is discarded. -/
  dropping : Bool := false
  fsSeen : Bool := false
  stalled : Bool := false
  droppedBefore : Nat := 0
  /-- STREAM_STOP with MODE 0 in progress: its mailbox and its CLEAR; and when it was accepted. -/
  stopping : Option (Nat × Bool) := none
  stopAt : Nat := 0
deriving DecidableEq, Repr

/-! ## Media engines -/

/-- What a run's input resolved to (R377). -/
structure RunInput where
  kind : Nat := 0
  index : Nat := 0
  addr : Nat := 0
  seq : Nat := 0
  /-- Geometry as it was when the run began: width, height, line stride in bytes, bytes per pixel (0 for a plane that is
  no image), pyramid levels (0 for none) and the run header that holds the address of level 0. -/
  w : Nat := 0
  h : Nat := 0
  stride : Nat := 0
  bpp : Nat := 0
  levels : Nat := 0
  hdr : Nat := 0
deriving DecidableEq, Repr

/-- A run that is active (R378, R379). -/
structure Run where
  prof : Nat
  runseq : Nat
  tbStart : Nat
  in0 : RunInput := {}
  in1 : RunInput := {}
  skipped : Nat := 0
  /-- The parameter block as the run began with it. -/
  params : List Byte := []
  /-- An input disagrees with the parameter block (R410, R415, R433, R956). -/
  badInput : Bool := false
  /-- A disable or a teardown has met the run (R407). -/
  stop : Bool := false
  /-- The graph token that the run completes (R451). -/
  token : Option (Nat × Nat) := none
deriving DecidableEq, Repr

/-- One profile. Its configuration payload stands in the engine's frame. -/
structure Profile where
  /-- 0 UNCONFIGURED, 1 DISABLED, 2 ENABLED, 3 FAULTED (R373, R413). -/
  st : Nat := 0
  runseq : Nat := 0
  lastStatus : Nat := 0
  lastOk : Option Nat := none
  prevOk : Option Nat := none
  pending : Bool := false
  /-- The graph token of the pending start. -/
  pendingToken : Option (Nat × Nat) := none
  arrA : Bool := false
  arrB : Bool := false
  /-- Arrivals raised and not yet taken by TRIGGER_ARRIVAL, oldest first: true for TRIG_B. -/
  arrivals : List Bool := []
  skipped : Nat := 0
  /-- The mailbox of a disable that waits for the active run to stop; none for a teardown. -/
  stopMb : Option Nat := none
  /-- The owner is torn down: the profile is cleared when its run has stopped. -/
  clearDue : Bool := false
deriving DecidableEq, Repr

/-- One media engine. -/
structure Engine where
  profs : Tab Profile := []
  /-- Profiles with a pending start, in the order in which they became pending (R376). -/
  order : List Nat := []
  run : Option Run := none
deriving DecidableEq, Repr

/-! ## Pattern sequencer -/

/-- A token of an instance (R451). -/
structure Token where
  outstanding : Bool := false
  /-- OUTCOME; 4 NOT_ISSUED until a RUN names the token. -/
  outcome : Nat := 4
  status : Nat := 0
  runseq : Nat := 0
  buffer : Nat := 0
  /-- Frames that the run's SLOT inputs resolved to: slot and SEQ. -/
  frames : List (Nat × Nat) := []
deriving DecidableEq, Repr

/-- A trigger: the frames of both slots and the later TB_FE (R448). -/
structure Trigger where
  seqA : Nat
  seqB : Nat := 0
  tb : Nat
deriving DecidableEq, Repr

/-- A running instance. -/
structure Inst where
  node : Nat := 0
  trig : Trigger
  late : Bool := false
  waitTimeout : Bool := false
  tokens : Tab Token := []
  stamps : Tab Nat := []
  startAt : Nat := 0
  /-- When the WAIT being executed began. -/
  waitFrom : Option Nat := none
deriving DecidableEq, Repr

/-- States of R444. -/
inductive GraphSt where
  | unloaded | stopped | idle | running | faulted
deriving DecidableEq, Repr

/-- One frame graph. Its program store and configuration stand in the PAT frame. -/
structure Graph where
  st : GraphSt := .unloaded
  fcount : Nat := 0
  /-- No instance has started since GRAPH_START. -/
  first : Bool := true
  /-- Frame-end events raised for the graph's triggers and not yet taken: trigger B, SEQ and TB_FE. -/
  events : List (Bool × Nat × Nat) := []
  arrA : Option (Nat × Nat) := none
  arrB : Option (Nat × Nat) := none
  pending : Option Trigger := none
  inst : Option Inst := none
  /-- EPOCH of Q76 + g that the latest record was pushed in (R461). -/
  epochSeen : Nat := 0
  stopping : Option (Nat × Bool) := none
  stopAt : Nat := 0
deriving DecidableEq, Repr

/-! ## Contexts, flasks and jobs -/

/-- A job, from its descriptor (R532). -/
structure Job where
  /-- Owner: a context, or 32 for the FSU's assist work (R489). -/
  ctx : Nat
  flask : Nat
  jobId : Nat := 0
  barrier : Bool := false
  report : Bool := false
  budget : Nat := 0
  opsBase : Nat := 0
  nOps : Nat := 0
  nTensors : Nat := 0
  tensorBase : Nat := 0
  scaleBase : Nat := 0
  reportBase : Nat := 0
  userTag : Nat := 0
  args : List Nat := []
  /-- EPOCH of Q(2c + 1) at staging (R562). -/
  epoch : Nat := 0
  /-- Its place in the order of its context's submissions. -/
  sub : Nat := 0
deriving DecidableEq, Repr

/-- What a running operation waits for, with the instant its wait began. -/
inductive OpWait where
  | poll | pop | credit | encoder | fence
deriving DecidableEq, Repr

/-- A job on a flask, from its admission to its commit point. -/
structure Running where
  job : Job
  started : Bool := false
  tbStart : Nat := 0
  opsDone : Nat := 0
  clip : Nat := 0
  elems : Nat := 0
  recastOps : Nat := 0
  driftOps : Nat := 0
  substituted : Bool := false
  stall : Nat := 0
  /-- Redirections of R551: tensor, WIDE tensor. -/
  wide : List (Nat × Nat) := []
  wait : Option (OpWait × Nat) := none
  /-- An operation has ended the job: STATUS, CODE, tensor, operation; the commit point is next. -/
  ended : Option (Nat × Nat × Nat × Nat) := none
  /-- Mailboxes of ABORT_JOB that wait for the stop (R498). -/
  aborts : List Nat := []
  /-- An ABORT_JOB has reached the job. -/
  abort : Bool := false
  /-- Bytes read over a Sprue link for the operation in progress: 40-bit address and bytes of each message. -/
  fetched : List (Nat × List Byte) := []
  /-- One of them carried the POISON mark. -/
  fetchedBad : Bool := false
deriving DecidableEq, Repr

/-- States of R484. -/
inductive CtxSt where
  | closed | opened | teardown | faulted
deriving DecidableEq, Repr

/-- One context. Its windows stand in the SCH frame. -/
structure Ctx where
  st : CtxSt := .closed
  lastStatus : Nat := 0
  /-- Opened for PF1. -/
  pf1 : Bool := false
  /-- QUEUE_BASE of CTX_OPEN. -/
  queueBase : Nat := 0
  staged : List Job := []
  /-- SEQ of the next record (R557). -/
  seq : Nat := 0
  /-- JOB_ID of the last job record placed. -/
  lastJob : Option Nat := none
  /-- JOB_IDs of the last 64 committed jobs, newest first. -/
  committed : List Nat := []
  /-- Notices held (R556), and whether one was not recorded. -/
  notices : List (List Byte) := []
  noticeLost : Bool := false
  /-- Records that wait behind a KIND 1 record, with the EPOCH at their job's staging (R562). -/
  heldRecs : List (Option Nat × List Byte) := []
  /-- The mailbox of a CTX_CLOSE in progress. -/
  closing : Option Nat := none
  /-- Flask of the job that was running when the teardown began (SCH_TEARDOWN_INFO). -/
  tearFlask : Option Nat := none
  /-- Crucibles whose hearth part is still to be zeroed in step 3 of R500. -/
  zeroLeft : List Nat := []
  /-- Entries of Q(2c) pushed before CTX_REOPEN: their jobs complete as FLUSHED (R558). -/
  flushLeft : Nat := 0
  /-- Jobs staged so far. -/
  subs : Nat := 0
deriving DecidableEq, Repr

/-- One flask. Its applied slice table stands in the SCH frame. -/
structure Flask where
  built : Bool := false
  mask : Nat := 0
  slack : Nat := 0
  n : Nat := 0
  entry : Nat := 0
  /-- TB_NOW at which the current entry began and ends. -/
  entryFrom : Nat := 0
  entryEnd : Nat := 0
  /-- Staged table: owners and lengths, SLACK (R510). -/
  staged : Option (List (Nat × Nat) × Nat) := none
  running : Option Running := none
  /-- Sector of an assist job staged for the flask (R812). -/
  assist : Option Job := none
deriving DecidableEq, Repr

/-- The scheduler. -/
structure Sch where
  ctxs : Tab Ctx := []
  flasks : Tab Flask := []
  /-- Queue resets whose KIND 1 records are due: queue and entries discarded (R327). -/
  resetDue : List (Nat × Nat) := []
  /-- What each regulator bucket's LEVEL lies below its BURST, in 1/256 byte, key 4r + k (R505). -/
  used : Tab Nat := []
  /-- Buckets that hold back an access. -/
  held : Tab Bool := []
  /-- FLASK_SLICES or FSU_ASSIST mailboxes are answered at once; a withdraw waits for the entry's end. -/
  withdrawMb : Option Nat := none
deriving DecidableEq, Repr

end Sys2Proof.Machine
end

