-- ==== Sys2Proof/Machine/Links.lean ====
section
/-! DEFINITION. Sys2Proof/Machine/Links.lean: the state of Flux, the Sprue ports, checkpoints, frame synthesis, the
display, the node profile, security, the test port and the pins. -/
namespace Sys2Proof.Machine
open Sys2Proof

/-! ## Flux -/

/-- An encode in progress or waiting (R696): the flask whose COPY it is, and the table slots it holds. -/
structure Encode where
  flask : Nat
  slots : List Nat := []
  /-- REASON of R701 as it was when the operation started; 0 with no bypass. -/
  bypass : Nat := 0
deriving DecidableEq, Repr

structure Flx where
  encoders : List Encode := []
  /-- Encodes that wait for an encoder or a slot, in the order in which their operations started. -/
  waiting : List Encode := []
deriving DecidableEq, Repr

/-! ## Sprue link -/

/-- States of R726. -/
inductive PortSt where
  | off | detect | align | param | up | down
deriving DecidableEq, Repr

/-- A message of R723. -/
structure Msg where
  op : Nat
  cls : Nat := 0
  ordered : Bool := false
  poison : Bool := false
  status : Nat := 0
  len : Nat := 0
  src : Nat := 0
  dst : Nat := 0
  forwarded : Bool := false
  tag : Nat := 0
  master : Nat := 0
  addr : Nat := 0
  data : List Byte := []
deriving DecidableEq, Repr

/-- A flit held in the replay buffer (R730). -/
structure Flit where
  typ : Nat
  seq : Nat
  bytes : List Byte
  msg : Option Msg := none
deriving DecidableEq, Repr

/-- An access of this device in flight on a port. -/
structure InFlight where
  tag : Nat
  master : Nat
  cls : AccessClass := .ordinary
  write : Bool
  dst : Nat
  addr : Nat
  len : Nat
  /-- Place of these bytes in the whole read. -/
  off : Nat := 0
  /-- Flask of a job's access; none for another master. -/
  flask : Option Nat := none
deriving DecidableEq, Repr

/-- One Sprue port. -/
structure Port where
  st : PortSt := .off
  width : Nat := 0
  /-- Lowest lane of the group in use. -/
  lane0 : Nat := 0
  lanesBad : BitVec 8 := 0
  peer : Nat := 0
  reason : Nat := 0
  /-- Sealed mode of what it sends and of what it receives (R740). -/
  sealedTx : Bool := false
  sealedRx : Bool := false
  /-- The port answers training that the other side starts (R728). -/
  listening : Bool := false
  /-- SEQ of the next flit sent, and the next one expected. -/
  txSeq : Nat := 0
  rxSeq : Nat := 0
  held : List Flit := []
  /-- Messages that wait for a replay place or credits. -/
  txWait : List Msg := []
  /-- Credits spent of each VC, in 16-byte units. -/
  spent : Tab Nat := []
  /-- Credits to return on each VC. -/
  owed : Tab Nat := []
  resends : Nat := 0
  /-- TB_NOW of the latest advance of ACK, and of the latest good flit. -/
  ackAt : Nat := 0
  goodAt : Nat := 0
  /-- Messages received and not yet taken, oldest first. -/
  inbox : List Msg := []
  inflight : List InFlight := []
  /-- The port has gone DOWN and its accesses in flight have not yet ended (R737). -/
  lostDue : Bool := false
  /-- Protected flits sent and received since sealing (R739), and the key and salts. -/
  sealTx : Nat := 0
  sealRx : Nat := 0
  key : List Byte := []
  saltOwn : Nat := 0
  saltPeer : Nat := 0
  /-- A SEAL_MARK has been received and has not taken effect. -/
  markGot : Bool := false
  /-- The mailbox of a SPRUE_SEAL that waits, with the mode it asks for. -/
  sealMb : Option (Nat × Bool) := none
  /-- The mark waits for the port to be UP again (R748). -/
  markDue : Bool := false
  /-- The port retrains after a narrowing (R729). -/
  narrowing : Bool := false
  /-- A TSYNC answer received: T2 and T3, 1/8 ticks, and TB_NOW of its arrival. -/
  tsyncIn : Option (Nat × Nat × Nat) := none
  /-- Flits sent, oldest first (the model's own trace of what leaves). -/
  sent : List (List Byte) := []
deriving DecidableEq, Repr

/-- The Sprue link as a whole. -/
structure Spr where
  ports : Tab Port := []
  /-- System size N, 0 until learnt. -/
  n : Nat := 0
  /-- Chips lost until SPRUE_TRAIN brings back a route (R738). -/
  lost : Tab Bool := []
  /-- SPRUE_TRAIN in progress: mailbox, ports, and acceptance. -/
  train : Option (Nat × Nat) := none
  trainAt : Nat := 0
  /-- T1 of the TSYNC request that waits for its answer, 1/8 ticks (R741). -/
  tsyncT1 : Option Nat := none
  /-- TAG of the next remote access or relayed request (R723). -/
  nextTag : Nat := 0
  /-- The latest offset, and whether one has been measured since the time port came UP. -/
  theta : Int := 0
  thetaValid : Bool := false
  /-- TB_NOW of the latest answer, and whether none has arrived for 10 ms. -/
  answerAt : Nat := 0
  stale : Bool := true
  /-- Offset left to absorb by slewing, 1/8 ticks; ticks since the last eighth; eighths gained and not yet a tick. -/
  slew : Int := 0
  slewTicks : Nat := 0
  eighths : Int := 0
  /-- TB_NOW holds still for so many eighths of a tick. -/
  hold : Nat := 0
  /-- First segment of the request that arrives on a port (R723), by port. -/
  segs : Tab (List Byte) := []
deriving DecidableEq, Repr

/-! ## Checkpoints -/

/-- A checkpoint command in progress (R768, R770, R772, R773). -/
structure CkptJob where
  mb : Nat
  /-- 0 BUILD, 1 FLASH_PART, 2 CKPT_IMPORT. -/
  kind : Nat
  /-- The next step. -/
  step : Nat := 1
  /-- It waits for running jobs since this instant. -/
  waitAt : Option Nat := none
  /-- MANIFEST_SEQ chosen or found. -/
  seq : Nat := 0
  /-- Of a build: the end of what it has stored, SALT, TB_NOW at its start, the request records with the MODE of each,
  and the entry records written so far, oldest first. -/
  len : Nat := 0
  salt : Nat := 0
  tb : Nat := 0
  todo : List (List Byte × Nat) := []
  recs : List (List Byte) := []
  /-- Flash slot that an import reads, or a part writes. -/
  slot : Option Nat := none
  /-- Substituted blocks of an import. -/
  subst : Nat := 0
deriving DecidableEq, Repr

structure Ckpt where
  job : Option CkptJob := none
  /-- Admission is stopped on every flask (R768, R773). -/
  hold : Bool := false
  /-- MANIFEST_SEQ of the latest BUILD since RUNNING. -/
  lastSeq : Nat := 0
  /-- Flash slot being written part by part, the OFFSET of the next part, MANIFEST_SEQ of the image (R770). -/
  target : Option (Nat × Nat × Nat) := none
deriving DecidableEq, Repr

/-! ## Frame synthesis -/

/-- A source frame (R789 to R792). -/
structure SrcFrame where
  rseq : Nat
  format : Nat := 0
  cut : Bool := false
  tbRender : Nat := 0
  color : Nat := 0
  stride64 : Nat := 0
  motion : Nat := 0
  depth : Nat := 0
  hasMotion : Bool := false
  motionOk : Bool := true
  /-- 0 no assist job, 1 staged or running, 2 committed OK, 3 failed. -/
  assist : Nat := 0
  /-- R793's judgement of its motion, made at the build that first needs it. -/
  stale : Option Bool := none
deriving DecidableEq, Repr

/-- A tile on a mould core. -/
structure CoreTile where
  tile : Nat
  /-- TB_NOW by which the core completes it (R803), in ns. -/
  finishBy : Nat
  /-- Warp-only content of the tile, line by line. -/
  u : List Byte := []
deriving DecidableEq, Repr

/-- A build in progress (R794 to R805). -/
structure Build where
  k : Nat
  n : SrcFrame
  n1 : Option SrcFrame := none
  j : Nat := 0
  generated : Bool := false
  held : Bool := false
  stale : Bool := false
  asExtrap : Bool := false
  assistLate : Bool := false
  warpLate : Bool := false
  mouldOff : Bool := false
  noTiles : Bool := false
  t0 : Nat := 0
  /-- t_line in ps. -/
  tline : Nat := 0
  begun : Nat := 0
  tiles : Nat := 0
  /-- Tiles whose warp-only content is written. -/
  warped : Nat := 0
  next : Nat := 0
  pred : Nat := 0
  late : Nat := 0
  holes : Nat := 0
  cores : Tab (Option CoreTile) := []
  ecc : Bool := false
  win : Bool := false
  rel : Option Nat := none
deriving DecidableEq, Repr

/-- The Frame Synthesis Unit. Its configuration stands in FSU_CFG0 to CFG9. -/
structure Fsu where
  /-- 0 OFF, 1 STOPPED, 2 RUNNING, 3 FAULTED. -/
  st : Nat := 0
  bankA : Nat := 0
  bankB : Nat := 0
  active : Option Nat := none
  wide : Bool := false
  /-- A bank marked VALID that becomes active at the next B(k). -/
  ready : Option Nat := none
  /-- A MOULD_LOAD in progress: its mailbox, its bank, whether the image is wide. -/
  load : Option (Nat × Nat × Bool) := none
  /-- Headers of the images in banks A and B, 64 bytes each. -/
  headA : List Byte := []
  headB : List Byte := []
  /-- Flask lent, its budget, ASSIST_BASE and ASSIST_SIZE. -/
  lent : Option Nat := none
  lentBudget : Nat := 0
  assistBase : Nat := 0
  assistSize : Nat := 0
  n : Option SrcFrame := none
  later : List SrcFrame := []
  j : Nat := 0
  k : Nat := 0
  motionIn : Option (List Byte) := none
  build : Option Build := none
  /-- T0 of the latest build started (PACE 1), and the start's instant. -/
  t0 : Nat := 0
  /-- Latest output every tile of which has been decided, with its T0 and address. -/
  lastOut : Option (Nat × Nat × Nat) := none
  /-- Stop in progress: its mailbox, none for a teardown. -/
  stopping : Bool := false
  stopMb : Option Nat := none
  clearDue : Bool := false
deriving DecidableEq, Repr

/-! ## Display output -/

/-- A region update (R857). -/
structure Update where
  x : Nat
  y : Nat
  w : Nat
  h : Nat
  stride64 : Nat
  src : Nat
  tag : Nat
  teMissed : Bool := false
deriving DecidableEq, Repr

/-- A region slot (R848). -/
structure RegionSlot where
  queued : Option Update := none
  running : Option Update := none
  pending : Option Update := none
deriving DecidableEq, Repr

/-- An egress copy in progress. -/
structure EgCopy where
  seq : Nat
  addr : Nat
  stride : Nat
  time : Nat
  buffer : Nat
  host : Nat
deriving DecidableEq, Repr

/-- An egress slot (R851 to R858). -/
structure Egress where
  /-- 0 UNCONFIGURED, 1 STOPPED, 2 RUNNING. -/
  st : Nat := 0
  written : Nat := 0
  drops : Nat := 0
  droppedBefore : Nat := 0
  /-- Source frames seen since the start. -/
  seen : Nat := 0
  /-- Source frames raised and not yet taken: sequence, address, line stride, time. -/
  frames : List (Nat × Nat × Nat × Nat) := []
  copy : Option EgCopy := none
  incomplete : Bool := false
  /-- Posted writes of the latest copy: host address and bytes (the model's own trace). -/
  hostOut : List (Nat × List Byte) := []
  stopping : Option Nat := none
deriving DecidableEq, Repr

/-- What the video frame in progress is scanned from. -/
inductive ScanSrc where
  | fill
  | plane (addr stride : Nat)
deriving DecidableEq, Repr

/-- The display block. Timing sets stand in DISP_SETt_CFG. -/
structure Disp where
  /-- 0 OFF, 1 STARTING, 2 ON, 3 STOPPING. -/
  st : Nat := 0
  stored : BitVec 4 := 0
  active : Option Nat := none
  staged : Option Nat := none
  /-- The set that a relock in progress goes to (R845). -/
  relock : Option Nat := none
  source : Nat := 0
  stride64 : Nat := 0
  stagedSource : Option (Nat × Nat) := none
  owner : Nat := 0xFF
  pwrGpio : Nat := 0xFF
  rstGpio : Nat := 0xFF
  teGpio : Nat := 0xFF
  tPwr : Nat := 0
  tRst : Nat := 0
  initBase : Nat := 0
  initLen : Nat := 0
  /-- Levels that DISP drives on PWR_GPIO and RST_GPIO (R1068). -/
  pwrHigh : Bool := false
  rstHigh : Bool := false
  /-- Next step of the panel sequence, the instant from which its wait runs, and the wait in ms. -/
  step : Nat := 0
  initIdx : Nat := 0
  stepAt : Nat := 0
  wait : Nat := 0
  initBad : Option Nat := none
  /-- Start of the video frame in progress on TB, in ps; none while no frame is scanned. -/
  frameAt : Option Nat := none
  fcount : Nat := 0
  scan : ScanSrc := .fill
  underflowed : Bool := false
  line : Nat := 0
  /-- Pixels of the line scanned last, R, G and B of each (the model's own trace). -/
  out : List Byte := []
  /-- TB_NOW at which the lanes went to LP-11 for a relock, and the relock's old set. -/
  relockAt : Nat := 0
  relockOld : Option Nat := none
  /-- A set whose TIMING entry is due at the next frame start (R844). -/
  commitDue : Option Nat := none
  /-- Lanes: 0 LP-00, 1 LP-11, 2 high speed. -/
  lanes : Nat := 0
  /-- DCS packets the DSI host has sent, oldest first (the model's own trace). -/
  sent : List (List Byte) := []
  regions : Tab RegionSlot := []
  /-- Slots with a QUEUED update, in link order. -/
  order : List Nat := []
  /-- The link has been busy since a TE edge. -/
  teSince : Bool := false
  /-- TB_NOW when the update at the head of the link became ready. -/
  readyAt : Nat := 0
  egress : Tab Egress := []
deriving DecidableEq, Repr

/-! ## Ichado Node Profile -/

/-- What BIND gives an address (R943). -/
structure Binding where
  uid : Nat
  safetyCh : Nat
  hbMiss : Nat
  hbPeriod : Nat
deriving DecidableEq, Repr

/-- A registry address (R929). -/
structure Node where
  /-- 0 FREE, 1 BOUND, 2 OFFERED, 3 ACTIVE, 4 LOST. -/
  st : Nat := 0
  prev : Nat := 0
  seg : Nat := 0
  host : Nat := 0
  role : Nat := 0
  cls : Nat := 0
  safetyCh : Nat := 0
  uid : Nat := 0
  binding : Option Binding := none
  hbPeriod : Nat := 0
  hbMiss : Nat := 0
  cable : Int := 0
  trxLoop : Nat := 0
  turnRes : Nat := 0
  /-- TB_NOW of the latest HEARTBEAT, of the ASSIGN, and of the entry to LOST. -/
  hbAt : Nat := 0
  offeredAt : Nat := 0
  lostAt : Nat := 0
deriving DecidableEq, Repr

/-- Sounding in progress (R941, R944): edge times of the present exchange and the sums, in 0.25 ns units. -/
structure Sounding where
  mb : Nat
  addr : Nat
  n : Nat
  k : Nat := 0
  seq : Nat := 0
  /-- An exchange is in progress; it is the repeat of one that failed. -/
  out : Bool := false
  failed : Bool := false
  ta : Option Nat := none
  tb : Nat := 0
  td : Option Nat := none
  sumLoop : Int := 0
  sumTrip : Int := 0
  sumTurn : Int := 0
  sentAt : Nat := 0
deriving DecidableEq, Repr

/-- A frame handed to the INP engine: the chip and segment it came from, and its buffer of 8 to 15 while it is one of
this device's (R875, R890). -/
structure InpFrame where
  chip : Nat
  seg : Nat
  buf : Option Nat := none
  frame : CanFrame
  ts : Nat := 0
  fine : Nat := 0
deriving DecidableEq, Repr

/-- The INP engine and the registry. -/
structure Inp where
  nodes : Tab Node := []
  owner : Nat := 0xFF
  autoBase : Nat := 0x20
  hbMiss : Nat := 3
  hbPeriod : Nat := 100
  leadHb : Nat := 100
  linger : Nat := 10
  loadPeriod : Nat := 0
  timePeriod : Nat := 100
  regEpoch : Nat := 0
  hbSeq : Tab Nat := []
  syncSeq : Tab Nat := []
  /-- TIME_SYNC confirmed on a segment, whose TIME_FOLLOW is due: its SEQ, TS and FINE. -/
  follow : Tab (Option (Nat × Nat × Nat)) := []
  sounding : Option Sounding := none
  /-- ANNOUNCEs forwarded to the lead without an answer: segment and UID. -/
  forwarded : List (Nat × Nat) := []
  /-- INP frames handed over and not yet taken, oldest first. -/
  inbox : List InpFrame := []
  /-- TB_NOW from which the next chip HEARTBEAT and TIME_SYNC of a segment are due. -/
  hbNext : Tab Nat := []
  syncNext : Tab Nat := []
  /-- The route to chip 0 has been lost and has not returned (R937). -/
  cut : Bool := false
deriving DecidableEq, Repr

/-! ## Security, test access, pins -/

/-- The OTP array (R1032). The fields that Cleilo's test writes have, in the machine right after reset, values that nothing
in the model can see. -/
structure Otp where
  /-- DEVICE_ID, KD and FW_KEYHASH_0 to FW_KEYHASH_3. -/
  deviceId : BitVec 64 := Config.deviceId
  deviceKey : BitVec 256 := Config.deviceKey
  fwKeyHash : List (BitVec 384) := [Config.fwKeyHash 0, Config.fwKeyHash 1, Config.fwKeyHash 2, Config.fwKeyHash 3]
  revoke : BitVec 4 := 0
  /-- Number of ROLLBACK bits set. -/
  rollback : Nat := 0
  dbgKeyHash : Option Nat := none
  kp : Option Nat := none
  /-- LIFECYCLE as programmed; it takes effect at the next warm-scope reset (R1037). -/
  lifecycle : Nat := 0
deriving DecidableEq, Repr

/-- The security block. -/
structure Sec where
  otp : Otp := {}
  /-- LIFECYCLE in force. -/
  lifecycle : Nat := 0
  /-- 0 locked, 1 authenticated, 2 open. -/
  debug : Nat := 2
  keysetDebug : Bool := true
  unlockFails : Nat := 0
  lockout : Bool := false
  /-- Outstanding challenge: nonce and TB_NOW of its DONE. -/
  challenge : Option (Nat × Nat) := none
  /-- The mailbox of a DEBUG_UNLOCK that has been accepted and has not zeroed yet, and of a DEBUG_LOCK that waits for
  it (R1052). -/
  unlockMb : Option Nat := none
  lockMb : Option Nat := none
  trngOk : Bool := true
  /-- TB_NOW of the latest failures of a health test, newest first. -/
  failAt : List Nat := []
  /-- Generate requests since the latest reseed, and its instant. -/
  drbgReqs : Nat := 0
  reseedAt : Nat := 0
deriving DecidableEq, Repr

/-- The test access port (R1072 to R1075). -/
structure Jtag where
  /-- Selected instruction: 0 IDCODE, 1 BYPASS, 2 SAMPLE/PRELOAD, 3 EXTEST, 4 MBOX, 5 OTP_PROG. -/
  ir : Nat := 0
  /-- What Capture-DR last loaded into the selected data register. -/
  dr : Nat := 0x10960573
  /-- Boundary register as last shifted in, cell i at bit i (R1073). -/
  boundary : BitVec 234 := 0
  /-- EXTEST drives the balls. -/
  drives : Bool := false
  /-- MBOX data register: result and word of the latest access (R1074). -/
  mboxOut : Nat := 0
  /-- Result of the latest OTP_PROG. -/
  otpResult : Nat := 0
deriving DecidableEq, Repr

/-- What stands outside the part at its pins: the flash and the PMIC. -/
structure Pins where
  /-- Bytes of the xSPI flash that differ from the erased 0xFF. -/
  flash : Tab Byte := []
  /-- The PMIC's VDD_CORE set point as last written, in mV, 0 for none. -/
  vset : Nat := 0
deriving DecidableEq, Repr

end Sys2Proof.Machine
end

