-- ==== Sys2Proof/Machine/State.lean ====
section
/-! DEFINITION. Sys2Proof/Machine/State.lean: the whole state of the block, the reasons a step can stop, and the
state right after reset. -/
namespace Sys2Proof.Machine
open Sys2Proof

/-- No command of this block ends in a fault: every departure the spec gives is a state. -/
inductive Fault
deriving DecidableEq, Repr

/-- Why a command has no meaning here. -/
inductive Refusal where
  /-- An arm of Dispatch that has no meaning yet (safe: the model stops). -/
  | notModelled (mnemonic : String)
deriving DecidableEq, Repr

/-- The state of the block. -/
structure State where
  /-- The commands that are waiting, first in, first out. -/
  pending : List Instr := []
  /-- The model's own counter of free values used so far; nothing rests on its value. -/
  free : Nat := 0
  rf : Regs := {}
  bus : Bus := {}
  aon : Aon := {}
  baro : Baro := {}
  clk : Clk := {}
  rst : Rst := {}
  fmn : Fmn := {}
  qch : Qch := {}
  fbcs : Tab Fbc := []
  queues : Tab Queue := []
  mem : Mem := {}
  ing : Tab IngSlot := []
  eng : Tab Engine := []
  pat : Tab Graph := []
  sch : Sch := {}
  flx : Flx := {}
  spr : Spr := {}
  ckpt : Ckpt := {}
  fsu : Fsu := {}
  disp : Disp := {}
  inp : Inp := {}
  sec : Sec := {}
  jtag : Jtag := {}
  pins : Pins := {}
deriving DecidableEq, Repr

/-- The machine right after reset: every field at its default above. -/
def State.reset : State := {}

end Sys2Proof.Machine
end

