-- ==== Sys2Proof/Machine/Ops.lean ====
section
/-! DEFINITION. Sys2Proof/Machine/Ops.lean: the named operations every meaning is written with: reading and writing
the register store, counting events, free values, bit fields. -/
namespace Sys2Proof.Machine
open Sys2Proof

/-! ## Bit fields and bytes -/

/-- Bits lo to lo + n - 1 of a word, as a number. -/
def fld (w : Word) (lo n : Nat) : Nat := w.toNat / 2 ^ lo % 2 ^ n
/-- The number `v`, n bits of it, at bit lo of a word. -/
def at_ (v lo n : Nat) : Word := BitVec.ofNat 32 (v % 2 ^ n * 2 ^ lo)
/-- A truth value at bit lo of a word. -/
def bitAt (b : Bool) (lo : Nat) : Word := if b then BitVec.ofNat 32 (2 ^ lo) else 0
def b2n (b : Bool) : Nat := if b then 1 else 0
/-- Little-endian value of a list of bytes (R13). -/
def leNat : List Byte → Nat
  | [] => 0
  | b :: t => b.toNat + 256 * leNat t
/-- The n bytes of v, lowest first (R13). -/
def leBytes : Nat → Nat → List Byte
  | 0, _ => []
  | n + 1, v => BitVec.ofNat 8 v :: leBytes n (v / 256)
/-- The n-byte little-endian field at offset o of a message or record. -/
def bytesAt (l : List Byte) (o n : Nat) : Nat := leNat ((l.drop o).take n)
/-- Two's complement reading of an n-bit number. -/
def sgn (n v : Nat) : Int := if v % 2 ^ n < 2 ^ (n - 1) then (v % 2 ^ n : Nat) else ((v % 2 ^ n : Nat) : Int) - 2 ^ n
/-- ceil(a / b) of two numbers. -/
def cdiv (a b : Nat) : Nat := (a + b - 1) / b
/-- Floor division of an integer by a positive integer. -/
def fdiv (a b : Int) : Int := Int.fdiv a b

/-! ## Register store -/

/-- The stored value of a register: an RW field's, or a captured RO value. -/
def State.reg (s : State) (b : Blk) (off : Nat) : Word := Tab.get regDefault s.rf.store (regKey b off)

/-- Writes the register store. -/
def State.setReg (s : State) (b : Blk) (off : Nat) (v : Word) : State :=
  { s with rf.store := Tab.set regDefault s.rf.store (regKey b off) v }

/-- Writes a pair of the store, low half at `off` (R93). -/
def State.setPair (s : State) (b : Blk) (off : Nat) (v : Nat) : State :=
  (s.setReg b off (BitVec.ofNat 32 v)).setReg b (off + 4) (BitVec.ofNat 32 (v / 2 ^ 32))

/-- Writes the field of n bits at bit lo of a stored register. -/
def State.setFld (s : State) (b : Blk) (off lo n v : Nat) : State :=
  let old := s.reg b off
  s.setReg b off (BitVec.ofNat 32 (old.toNat - fld old lo n * 2 ^ lo + v % 2 ^ n * 2 ^ lo))

/-- Adds k to a 32-bit counter of the store, wrapping. -/
def State.addReg (s : State) (b : Blk) (off k : Nat) : State := s.setReg b off (s.reg b off + BitVec.ofNat 32 k)

/-! ## Events (R89 to R92) -/

def evKey (b : Blk) (j : Nat) : Nat := 32 * b + j
def zero16 : Nat → Count16 := fun _ => 0
/-- EVC of source j of block b. -/
def State.evc (s : State) (b : Blk) (j : Nat) : Count16 := Tab.get zero16 s.rf.evc (evKey b j)
/-- ACK of source j of block b. -/
def State.ackOf (s : State) (b : Blk) (j : Nat) : Count16 := Tab.get zero16 s.rf.ack (evKey b j)
/-- PEND of R89: not stored, evaluated from the two fields. -/
def State.pend (s : State) (b : Blk) (j : Nat) : Bool := s.evc b j != s.ackOf b j
/-- BEHIND of R92. -/
def State.behind (s : State) (b : Blk) (j : Nat) : Bool := 0x8000 ≤ (s.evc b j - s.ackOf b j).toNat
/-- k events of one source in one cycle: EVC advances by k modulo 65536 (R90). -/
def State.bumpBy (s : State) (b : Blk) (j k : Nat) : State :=
  { s with rf.evc := Tab.set zero16 s.rf.evc (evKey b j) (s.evc b j + BitVec.ofNat 16 k) }
/-- One event. -/
def State.bump (s : State) (b : Blk) (j : Nat) : State := s.bumpBy b j 1
/-- One event whose information is captured in a register only while PEND is 0 (R102, R122, R131, R146, R179, R191). -/
def State.bumpInfo (s : State) (b : Blk) (j off : Nat) (info : Word) : State :=
  if s.pend b j then s.bump b j else (s.setReg b off info).bump b j

/-- A write of an ACK field (R91). -/
def State.setAck (s : State) (b : Blk) (j : Nat) (v : Count16) : State :=
  { s with rf.ack := Tab.set zero16 s.rf.ack (evKey b j) v }

/-! ## Tables of truth values and numbers -/

def offTab : Nat → Bool := fun _ => false
def zeroTab : Nat → Nat := fun _ => 0
def tget (t : Tab Bool) (k : Nat) : Bool := Tab.get offTab t k
def tset (t : Tab Bool) (k : Nat) (v : Bool) : Tab Bool := Tab.set offTab t k v
def nget (t : Tab Nat) (k : Nat) : Nat := Tab.get zeroTab t k
def nset (t : Tab Nat) (k v : Nat) : Tab Nat := Tab.set zeroTab t k v
/-- Bit i of a number. -/
def bit (v i : Nat) : Bool := v.testBit i
/-- The number v with bit i set to b. -/
def setBit (v i : Nat) (b : Bool) : Nat := if b then v ||| 2 ^ i else v - (if v.testBit i then 2 ^ i else 0)
/-- The number whose bit i is f i, for i below n. -/
def mkBits : Nat → (Nat → Bool) → Nat
  | 0, _ => 0
  | n + 1, f => mkBits n f + (if f n then 2 ^ n else 0)
/-- The lowest i below n of which p holds. -/
def lowest (n : Nat) (p : Nat → Bool) : Option Nat := (List.range n).find? p

/-! ## Free values -/

/-- Takes a fresh free number below 2^n: nothing constrains it. -/
def State.takeFree (s : State) (n : Nat) : Nat × State :=
  ((Config.freeWord s.free).toNat % 2 ^ n, { s with free := s.free + 1 })
/-- Takes a fresh free truth value. -/
def State.takeBool (s : State) : Bool × State := (Config.freeBool s.free, { s with free := s.free + 1 })

/-- n free bytes. -/
def State.freeBytes (s : State) : Nat → List Byte × State
  | 0 => ([], s)
  | n + 1 =>
    let (v, s1) := s.takeFree 8
    let (l, s2) := State.freeBytes s1 n
    (BitVec.ofNat 8 v :: l, s2)

/-! ## Clock domains and power -/

def State.domain (s : State) (d : Nat) : Domain := Tab.get domainReset s.clk.domains d
def State.setDomain (s : State) (d : Nat) (x : Domain) : State :=
  { s with clk.domains := Tab.set domainReset s.clk.domains d x }
/-- READY of a source (R174). -/
def State.srcReady (s : State) (c : Nat) : Bool := s.clk.ready.toNat.testBit c
/-- TB_NOW as 64 bits. -/
def State.tbNow (s : State) : Nat := s.clk.now % 2 ^ 64

/-- Blocks that R126 lists as off in power state p: their registers count as gated (R190). -/
def blockOff (p : Nat) (b : Blk) : Bool :=
  if b < 33 then
    if p = 0 then true
    else if p = 1 then
      -- CSI ingest, engines, PAT, FSU, DISP, Sprue ports and Flux are off in Breeze
      b = 9 || b = 10 || b = 11 || b = 12 || (13 ≤ b && b ≤ 21)
    else false
  else p != 3

/-- The gateable blocks of R189: bit of CLK_GATE_BLK by block index, or a crucible. -/
def gateable (b : Blk) : Bool := (b < 32 && (0xc03bee00 : Nat).testBit b) || (48 ≤ b && b < 96)

/-- Whether the frame of block b is unclocked (check 2 of R83, R190). -/
def State.gated (s : State) (b : Blk) : Bool :=
  blockOff s.aon.pwr b || (gateable b && tget s.clk.gateClosed b)

def State.isHalted (s : State) (b : Blk) : Bool := tget s.rf.halted b

/-! ## Time -/

/-- TB ticks in a millisecond and a microsecond (10 ns each, R205). -/
abbrev tbMs : Nat := 100000
abbrev tbUs : Nat := 100

end Sys2Proof.Machine
end

