-- ==== Sys2Proof/Machine/Faults.lean ====
section
/-! DEFINITION. Sys2Proof/Machine/Faults.lean: the shared reactions to faults: the grave latch (R150, R1007), the
detection of a Class D fault (R1011), the records held for the flash log (R1020, R1021). -/
namespace Sys2Proof.Machine
open Sys2Proof Config

/-! ## CRC-32C of R690 -/

/-- One bit of the reflected CRC-32C, polynomial 0x1EDC6F41 (0x82F63B78 reflected). -/
def crcBit (c : Nat) : Nat := if c % 2 = 1 then (c / 2) ^^^ 0x82F63B78 else c / 2
def crcByte (c : Nat) (b : Byte) : Nat :=
  crcBit (crcBit (crcBit (crcBit (crcBit (crcBit (crcBit (crcBit (c ^^^ b.toNat))))))))
/-- CRC-32C of a list of bytes. -/
def crc32c (l : List Byte) : Nat := (l.foldl crcByte 0xFFFFFFFF) ^^^ 0xFFFFFFFF

/-! ## Flash log -/

/-- A log record without its LOG_SEQ, FLAGS and CRC, which are set when it is written (R1020). -/
def logBody (cls code tbn blk ctx arg st : Nat) : List Byte :=
  leBytes 2 0x4C47 ++ leBytes 1 cls ++ leBytes 1 code ++ leBytes 4 0 ++ leBytes 8 tbn ++ leBytes 1 blk ++
  leBytes 1 ctx ++ leBytes 2 0 ++ leBytes 4 arg ++ leBytes 4 st

/-- Holds a record in TCM; one that would be the 65th is dropped and marks the next (R1021). -/
def State.logRecord (s : State) (cls code blk ctx arg st : Nat) : State :=
  if s.fmn.logHeld.length < 64 then
    { s with fmn.logHeld := s.fmn.logHeld ++ [logBody cls code s.tbNow blk ctx arg st] }
  else { s with fmn.logLost := true }

/-! ## AON_GRAVE and the classes -/

/-- AON_GRAVE as a word. -/
def State.graveWord (s : State) : Word :=
  match s.aon.grave with
  | none => 0
  | some c => at_ c.toNat 8 8 ||| 1

/-- Whether TB is running: powered in Breeze and above, its domain not stopped. -/
def State.tbRuns (s : State) : Bool := s.aon.pwr != 0

/-- A refused request: the state stays, AON_PWR_REFUSE advances and captures request and reason (R131). -/
def State.pwrRefuse (s : State) (req reason : Nat) : State :=
  s.bumpInfo Blk.aon 3 0x118 (at_ reason 8 4 ||| at_ req 0 3)

/-- PMIC_CALM on GPIO23 (R1091, R1094). -/
def State.pmicCalm (s : State) (high : Bool) : State :=
  { ((s.setFld Blk.iox 0x404 23 1 (b2n high)).setFld Blk.iox 0x408 23 1 1) with aon.pmicCalm := high }

/-- A Calm entry is abandoned: back in Breeze, counted as refused with ABANDONED, no Calm exit (R133). -/
def State.abandonCalm (s : State) : State :=
  ({ s with aon.moving := none, aon.calmCommitted := false, aon.exitDue := false }.pmicCalm false).pwrRefuse 1 6

/-- A Class G fault sets the grave latch: the first one's cause and TB_NOW are captured, later ones change nothing
of the capture; Quench enters GRAVE (R150, R1007); a latch set in Calm starts a Calm exit (R129, R1009), one set
during a transition abandons it (R156, R1111). The record of CLASS G is held for the log (R1008). -/
def State.graveFault (s : State) (cause blk arg : Nat) : State :=
  let s1 :=
    match s.aon.grave with
    | some _ => s
    | none =>
      { (s.setPair Blk.aon 0x304 (if s.tbRuns then s.tbNow else 0)) with
        aon.grave := some (BitVec.ofNat 8 cause) }
  let s2 := { s1 with qch.st := .grave, qch.clearLeft := 0 }
  let s3 := s2.logRecord 0 cause blk 0xFF arg s2.graveWord.toNat
  if s.aon.grave.isSome then s3
  else if s.aon.pwr = 0 then
    if s.aon.moving.isSome then s3
    -- the latch starts a Calm exit: MASK 0, FIRST 0, GRAVE 1 (R129)
    else { ((s3.setReg Blk.aon 0x128 0x10).bump Blk.aon 4) with aon.moving := some 1 }
  else if s.aon.moving = some 0 then
    if s.aon.calmCommitted then { s3.setReg Blk.aon 0x128 0x10 with aon.exitDue := true } else s3.abandonCalm
  else { s3 with aon.moving := none }

/-- Detection of a Class D fault: from this cycle on nothing commits, is pushed, posted or sent, and the reset is
due; a second cause keeps the lower DETAIL (R1011, R1024). The pair is held SAFE by `State.pairHeld`. A transition of
the power sequencer is abandoned (R156). -/
def State.classDFault (s : State) (detail : Nat) : State :=
  { s with
    rst.classD := some (match s.rst.classD with | some d => min d detail | none => detail)
    aon.moving := none, aon.calmCommitted := false }

/-- From the detection of a Class D fault or a watchdog expiry nothing commits, is pushed, posted or sent
(R1011 step 2, R1012). -/
def State.frozen (s : State) : Bool := s.rst.classD.isSome || s.rst.wdogDue

/-- The always-on core holds QP low and QN high: Calm, the grave latch, a reset that reaches QCH, a fault reaction
(R128, R150, R219, R1007, R1011). -/
def State.pairHeld (s : State) : Bool :=
  s.aon.pwr == 0 || s.aon.grave.isSome || s.qch.inReset || s.frozen || s.rst.porn || s.rst.warmn || s.aon.porHeld

/-- The pair shows RUN: Quench ARMED and nothing holds it SAFE (R973). -/
def State.pairRun (s : State) : Bool := s.qch.st == .armed && !s.pairHeld

/-- Level of QP at the pins. -/
def State.qp (s : State) : Bool := s.pairRun && Config.qpPhase s.tbNow
/-- Level of QN at the pins (R972). -/
def State.qn (s : State) : Bool :=
  if s.pairRun then !Config.qpPhase s.tbNow
  else if s.pairHeld || s.qch.st == .grave then true
  else !Config.lifeMark s.tbNow

/-- BARO_BO_CORE.THR as used: above 70 it is taken as 70 (R168). -/
def State.boThr (s : State) : Nat := min 70 (fld (s.reg Blk.baro 0x110) 0 8)
/-- The grade default of CRIT (R168). -/
def critDefault : Nat := if Config.grade = 1 then 100 else 110
/-- BARO_TEMP_LIM.CRIT as used. -/
def State.tempCritLim (s : State) : Nat := min critDefault (fld (s.reg Blk.baro 0x114) 8 8)
def State.tempWarnLim (s : State) : Nat := fld (s.reg Blk.baro 0x114) 0 8

/-- DETAIL of a CFG_PARITY Class D fault (R1006). -/
def parityDetail (b : Blk) : Nat := 0x40 + b

end Sys2Proof.Machine
end

