-- ==== Sys2Proof/Machine/QchOps.lean ====
section
/-! DEFINITION. Sys2Proof/Machine/QchOps.lean: the shared operations of Quench (Quench and Edge watch): the braking
envelope of R977, the trip causes of R978, the trip of R979, the STOP and CLEAR frames of R981. -/
namespace Sys2Proof.Machine
open Sys2Proof

/-! ## Field-bus controllers, as Quench sees them -/

def fbcReset : Nat → Fbc := fun _ => {}
def State.fbc (s : State) (k : Nat) : Fbc := Tab.get fbcReset s.fbcs k
def State.setFbc (s : State) (k : Nat) (x : Fbc) : State := { s with fbcs := Tab.set fbcReset s.fbcs k x }
/-- Block index of FBCk. -/
def fbcBlk (k : Nat) : Blk := Blk.fbc0 + k
/-- Byte o of the accepted FBC_CONFIG request (FBCk_CFG0 to CFG7 hold bytes 0x10 to 0x2F). -/
def State.fbcCfg (s : State) (k o : Nat) : Nat :=
  fld (s.reg (fbcBlk k) (0x200 + (o - 0x10) / 4 * 4)) ((o - 0x10) % 4 * 8) 8
/-- Effective mode of R877: 0 NORMAL, 1 RESTRICTED, 2 LISTEN, 3 LOOP_INT, 4 LOOP_EXT. -/
def State.fbcMode (s : State) (k : Nat) : Nat :=
  if s.fbcCfg k 0x12 = 0 && (s.fbc k).restricted then 1 else s.fbcCfg k 0x12
/-- The controller is RUNNING in an effective mode that transmits (R876, R877). -/
def State.fbcSends (s : State) (k : Nat) : Bool :=
  (s.fbc k).st == .running && (s.fbcMode k == 0 || s.fbcMode k == 3 || s.fbcMode k == 4)

/-- Writes a frame into the registers of message buffer b of FBCk (R920). -/
def State.setMsgBuf (s : State) (k b : Nat) (f : CanFrame) (ts : Nat) : State :=
  let o := 0x1000 + 0x50 * b
  let flags := b2n f.fdf + 2 * b2n f.brs + 4 * b2n f.esi
  let s := s.setReg (fbcBlk k) o f.idw
  let s := s.setReg (fbcBlk k) (o + 4) (at_ flags 0 8 ||| at_ f.dlc 8 4)
  let s := s.setPair (fbcBlk k) (o + 8) ts
  (List.range 16).foldl (fun s w => s.setReg (fbcBlk k) (o + 0x10 + 4 * w) (BitVec.ofNat 32 (bytesAt f.data (4 * w) 4))) s

/-- Data bytes of a frame by its DLC, as ISO 11898-1:2015 gives. -/
def dlcLen (fdf : Bool) (dlc : Nat) : Nat :=
  if dlc ≤ 8 then dlc
  else if fdf then (match dlc with | 9 => 12 | 10 => 16 | 11 => 20 | 12 => 24 | 13 => 32 | 14 => 48 | _ => 64)
  else 8

/-- The frame held in message buffer b of FBCk's registers. -/
def State.msgBuf (s : State) (k b : Nat) : CanFrame :=
  let o := 0x1000 + 0x50 * b
  let c := s.reg (fbcBlk k) (o + 4)
  let fdf := bit (fld c 0 8) 0
  let dlc := fld c 8 4
  { idw := s.reg (fbcBlk k) o, fdf := fdf, brs := bit (fld c 0 8) 1, esi := bit (fld c 0 8) 2, dlc := dlc
    data := ((List.range 16).flatMap (fun w => leBytes 4 (s.reg (fbcBlk k) (o + 0x10 + 4 * w)).toNat)).take (dlcLen fdf dlc) }

/-! ## Configuration -/

/-- Byte o of the accepted QCH_ENVELOPE request, o from 0x10. -/
def State.qEnv (s : State) (o : Nat) : Nat := fld (s.reg Blk.qch (0x400 + (o - 0x10) / 4 * 4)) ((o - 0x10) % 4 * 8) 8
/-- Byte o of the accepted QCH_MASKS request, o from 0x10. -/
def State.qMask (s : State) (o : Nat) : Nat := fld (s.reg Blk.qch (0x408 + (o - 0x10) / 4 * 4)) ((o - 0x10) % 4 * 8) 8
def State.qMask16 (s : State) (o : Nat) : Nat := s.qMask o + 256 * s.qMask (o + 1)
def State.qTReact (s : State) : Nat := s.qEnv 0x10
def State.qOdomTimeout (s : State) : Nat := s.qEnv 0x11
def State.qAMin (s : State) : Nat := s.qEnv 0x12 + 256 * s.qEnv 0x13
def State.qDMargin (s : State) : Nat := s.qEnv 0x14 + 256 * s.qEnv 0x15
def State.qVIdle (s : State) : Nat := s.qEnv 0x16 + 256 * s.qEnv 0x17
def State.fwdMask (s : State) : Nat := s.qMask16 0x10
def State.revMask (s : State) : Nat := s.qMask16 0x12
def State.unknownTrip (s : State) : Nat := s.qMask16 0x14
def State.stopSegs (s : State) : Nat := s.qMask 0x16
def State.cliffEn (s : State) : Nat := s.qMask 0x17
def State.cliffPol (s : State) : Nat := s.qMask 0x18
def State.staleMs (s : State) (sec : Nat) : Nat := s.qMask (0x1C + sec)
/-- KIND, SEGS and ID of snoop matcher i. -/
def State.matcherKind (s : State) (i : Nat) : Nat := s.qMask (0x2C + 4 * i)
def State.matcherSegs (s : State) (i : Nat) : Nat := s.qMask (0x2D + 4 * i)
def State.matcherId (s : State) (i : Nat) : Nat := s.qMask16 (0x2E + 4 * i)
/-- Quench is configured once both commands have been accepted since the last reset (R987). -/
def State.qConfigured (s : State) : Bool := s.qch.envDone && s.qch.masksDone

def sectorReset : Nat → Sector := fun _ => {}
def matcherReset : Nat → Matcher := fun _ => {}
def State.sector (s : State) (i : Nat) : Sector := Tab.get sectorReset s.qch.sectors i
def State.setSector (s : State) (i : Nat) (x : Sector) : State :=
  { s with qch.sectors := Tab.set sectorReset s.qch.sectors i x }
def State.matcher (s : State) (i : Nat) : Matcher := Tab.get matcherReset s.qch.matchers i
def State.setMatcher (s : State) (i : Nat) (x : Matcher) : State :=
  { s with qch.matchers := Tab.set matcherReset s.qch.matchers i x }

/-! ## Envelope (R977) -/

/-- Speeds of the ODOM matchers, forward for true. -/
def State.speedMax (s : State) (fwd : Bool) : Nat :=
  (List.range 8).foldl (fun m i =>
    if s.matcherKind i = 2 && (s.matcher i).seen then
      max m (if fwd then (s.matcher i).speed.toNat else (-(s.matcher i).speed).toNat)
    else m) 0
/-- d(v) of R977, in mm, saturating at 65 535. -/
def State.brakeDist (s : State) (v : Nat) : Nat :=
  min 65535 (s.qDMargin + cdiv (2 * s.qAMin * v * s.qTReact + 1000 * v * v) (2000 * s.qAMin))
def State.vF (s : State) : Nat := s.speedMax true
def State.vR (s : State) : Nat := s.speedMax false
def State.dF (s : State) : Nat := s.brakeDist s.vF
def State.dR (s : State) : Nat := s.brakeDist s.vR

/-! ## Causes (R978) -/

/-- Cause 2 holds for a sector in the direction of the mask. -/
def State.dropAt (s : State) (fwd : Bool) (i : Nat) : Bool :=
  bit (if fwd then s.fwdMask else s.revMask) i && s.qVIdle < (if fwd then s.vF else s.vR) &&
  (s.sector i).kind == 2 && (s.sector i).dist ≤ (if fwd then s.dF else s.dR)
/-- Cause 3 holds for a sector in the direction of the mask. -/
def State.unknownAt (s : State) (fwd : Bool) (i : Nat) : Bool :=
  bit (if fwd then s.fwdMask else s.revMask) i && bit s.unknownTrip i && s.qVIdle < (if fwd then s.vF else s.vR) &&
  ((s.sector i).kind == 3 || (s.sector i).stale)
/-- A CLIFF matcher makes cause 4, or cause 5 when its latest frame has KIND 2. -/
def State.cliffAt (s : State) (bumper : Bool) (i : Nat) : Bool :=
  s.matcherKind i == 1 && ((s.matcher i).hit || (s.matcher i).timedOut) && (((s.matcher i).kind == 2) == bumper)

/-- The pin, sector, matcher or node address for which a cause is present (QCH_TRIP_INFO [15:8]). -/
def State.causeWhere (s : State) (c : Nat) : Option Nat :=
  match c with
  | 1 => lowest 8 (fun j => bit s.cliffEn j && s.qch.cliff.toNat.testBit j)
  | 2 => lowest 16 (fun i => s.dropAt true i || s.dropAt false i)
  | 3 => lowest 16 (fun i => s.unknownAt true i || s.unknownAt false i)
  | 4 => lowest 8 (s.cliffAt false)
  | 5 => lowest 8 (s.cliffAt true)
  | 6 => lowest 256 (fun a => tget s.qch.nodesLost a)
  | 7 => lowest 8 (fun i => s.matcherKind i == 2 && (s.matcher i).timedOut)
  | _ => none

/-- Whether cause c of R978 is present; cause 9 is present only in the cycle of its write. -/
def State.causeNow (s : State) (c : Nat) : Bool :=
  match c with
  | 6 => (s.causeWhere 6).isSome || s.isHalted Blk.inp
  | 8 => s.qch.watchdog
  | 10 => s.qch.readback
  | _ => (s.causeWhere c).isSome

/-- QCH_CAUSES: bit c for cause c. -/
def State.causes (s : State) : Nat := mkBits 11 (fun c => c != 0 && s.causeNow c)

/-! ## STOP and CLEAR frames (R981, R926) -/

def stopFrame (cmd cause seq tbn : Nat) : CanFrame :=
  { idw := 1, dlc := 8, data := leBytes 1 cmd ++ leBytes 1 cause ++ leBytes 2 seq ++ leBytes 4 tbn }

/-- Sends one frame from dedicated buffer 0 of segment k: any pending request is aborted, the buffer written and
requested. -/
def State.sendSafety (s : State) (k cmd cause tbn : Nat) : State :=
  let s1 := s.setMsgBuf k 0 (stopFrame cmd cause (nget s.qch.stopSeq k) tbn) 0
  let f := s1.fbc k
  let s2 := s1.setFbc k { f with txReq := f.txReq ||| 1, txDone := f.txDone &&& 0xFE, txAborted := f.txAborted &&& 0xFE }
  if cmd = 0x5A then { s2 with qch.stopSeq := nset s2.qch.stopSeq k ((nget s2.qch.stopSeq k + 1) % 65536) } else s2

/-- A round on every STOP segment: those of STOP_SEGS whose controller is RUNNING in a mode that transmits. -/
def State.safetyRound (s : State) (cmd cause tbn : Nat) : State :=
  let s1 := (List.range 4).foldl (fun s k =>
    if bit s.stopSegs k && s.fbcSends k then s.sendSafety k cmd cause tbn else s) s
  { s1 with qch.roundAt := s1.tbNow }

/-- TB_NOW recorded at the trip. -/
def State.tripTb (s : State) : Nat := (s.reg Blk.qch 0x10C).toNat

/-! ## Trip (R979) and entry to ARMED -/

/-- The trip: TRIPPED, the pair SAFE, the lowest code present recorded with the TB_NOW, the TRIP event, STOP. -/
def State.trip (s : State) (present : Nat) : State :=
  let c := (lowest 16 (fun c => bit present c)).getD 0
  let i := (s.causeWhere c).getD 0
  let rear := (c = 2 && !(s.dropAt true i)) || (c = 3 && !(s.unknownAt true i))
  let s1 := s.setReg Blk.qch 0x108 (at_ c 0 4 ||| at_ i 8 8 ||| at_ (if rear then s.dR else s.dF) 16 16)
  let s2 := (s1.setPair Blk.qch 0x10C s1.tbNow).bump Blk.qch 2
  let s3 := { s2 with qch.st := .tripped, qch.tripCause := c, qch.clearLeft := 0 }
  s3.safetyRound 0x5A c s3.tripTb

/-- After a step that may change causes: a cause present now and not before, in ARMED, trips Quench (R978, R979).
`before` and `extra` are sets of causes as QCH_CAUSES codes them. -/
def State.evalTrip (s : State) (before extra : Nat) : State :=
  let now := s.causes ||| extra
  if s.qch.st == .armed && (List.range 11).any (fun c => bit now c && !bit before c) then s.trip now else s

/-- Entry to ARMED: CLEAR at 0 ms, with two more rounds to come (R981). -/
def State.enterArmed (s : State) : State :=
  ({ s with qch.st := .armed, qch.clearLeft := 2, qch.tripCause := 0 }).safetyRound 0xA5 0 0

/-- Presents the watchdog's trip (cause 8, R295). -/
def State.watchdogTrip (s : State) : State :=
  let before := s.causes
  ({ s with qch.watchdog := true }).evalTrip before 0

end Sys2Proof.Machine
end

