-- ==== Sys2Proof/Machine/Flags.lean ====
section
/-! DEFINITION. Sys2Proof/Machine/Flags.lean: the status bits: each block's INT_STATUS and EVBEHIND (R89, R92, R103),
the MSI-X messages they call for (R105), and how a meaning ends. -/
namespace Sys2Proof.Machine
open Sys2Proof

/-- PEND of n sources from j on, as bits from 0. -/
def State.pends (s : State) (b : Blk) (j n : Nat) : Nat := mkBits n (fun i => s.pend b (j + i))

def meterReset : Nat → Meter := fun _ => {}
def State.meter (s : State) (k : Nat) : Meter := Tab.get meterReset s.clk.meters k
/-- FAULT of a channel: its cause, or STOPPED (R194). -/
def State.meterFault (s : State) (k : Nat) : Bool := (s.meter k).fault || (s.meter k).stopped
/-- TARGET and EN of a meter channel. -/
def State.meterTarget (s : State) (k : Nat) : Nat := fld (s.reg Blk.clk (0x200 + 0x20 * k)) 0 4
def State.meterOn (s : State) (k : Nat) : Bool := fld (s.reg Blk.clk (0x200 + 0x20 * k)) 31 1 == 1
/-- Some enabled channel with this target is in FAULT (R198). -/
def State.targetFault (s : State) (t : Nat) : Bool :=
  (List.range 8).any (fun k => s.meterOn k && s.meterTarget k == t && s.meterFault k)
/-- System size; 1 while none has been learnt. -/
def State.chips (s : State) : Nat := max 1 s.spr.n
/-- Time port of R741: the fewest hops to chip 0, SP1 on a tie. -/
def State.timePort (s : State) : Nat := if s.chips - s.bus.chipId < s.bus.chipId then 0 else 1
/-- The Sprue link makes UNSYNC 1 (R742); never on chip 0. -/
def State.sprUnsync (s : State) : Bool :=
  s.bus.chipId != 0 &&
  ((Tab.get (fun _ => ({} : Port)) s.spr.ports s.timePort).st != .up || s.spr.stale || decide (16 < s.spr.theta.natAbs))
/-- TB_STATUS.UNSYNC. -/
def State.unsync (s : State) : Bool := s.targetFault 10 || s.sprUnsync

/-- Mailbox m. -/
def mbReset : Nat → Mailbox := fun _ => {}
def State.mb (s : State) (m : Nat) : Mailbox := Tab.get mbReset s.fmn.mbs m
def State.setMb (s : State) (m : Nat) (x : Mailbox) : State := { s with fmn.mbs := Tab.set mbReset s.fmn.mbs m x }

/-- STAGE of RST_BOOT_SET. -/
def State.stage (s : State) : Nat := fld (s.reg Blk.rst 0x10C) 0 4

/-- Error passive of R895: TEC or REC above 127. -/
def Fbc.passive (f : Fbc) : Bool := 127 < f.tecCnt || 127 < f.recCnt

/-- INT_STATUS.BLOCK: the bits 28:0 each block's chapter assigns. -/
def State.blockBits (s : State) (b : Blk) : Nat :=
  match b with
  | 1 => s.pends Blk.aon 2 6 + 64 * b2n s.aon.inaccurate + 128 * b2n s.aon.unset + 256 * s.pends Blk.aon 8 4 +
         4096 * b2n s.aon.grave.isSome
  | 2 => s.pends Blk.baro 2 3 + 8 * b2n s.baro.tempWarn + 16 * b2n s.baro.tempCrit +
         32 * b2n (s.baro.loStatus != 0) + 64 * b2n (s.baro.hiStatus != 0)
  | 3 => s.pends Blk.clk 2 12 + 4096 * mkBits 8 s.meterFault +
         2 ^ 20 * b2n ((List.range 7).any (fun d => (s.domain d).phase == .hung))
  | 4 => s.pends Blk.rst 2 8 + 256 * b2n (s.stage == 15)
  | 5 => s.pends Blk.fmn 5 12 + 4096 * s.pends Blk.fmn 2 3 + 2 ^ 15 * b2n s.fmn.wdogWarn
  | 22 | 23 | 24 | 25 =>
    let f := s.fbc (b - 22)
    s.pends b 2 8 + 256 * b2n (f.st == .busOff || f.st == .recovering) + 512 * b2n f.passive +
    1024 * b2n (f.st != .off && s.fbcMode (b - 22) == 1)
  | 6 => s.pends Blk.que 2 3 + 8 * b2n ((List.range 128).any (fun q =>
      let w := s.reg Blk.que (0x1000 + 0x40 * q)
      fld w 31 1 == 1 && fld w 7 7 == 0 && (Tab.get (fun _ => ({} : Queue)) s.queues q).flags.any (fun e => e.2)))
  | 7 => s.pends Blk.sch 2 5 + 32 * b2n (s.sch.ctxs.any (fun e => e.2.st == .faulted))
  | 8 => s.pends Blk.mem 2 5
  | 9 => s.pends Blk.flx 2 5
  | 10 | 11 => s.pends b 2 6 + 64 * b2n ((Tab.get (fun _ => ({} : Port)) s.spr.ports (b - 10)).st == .down)
  | 12 => s.pends Blk.ing 2 8 + 256 * b2n (s.ing.any (fun e => e.2.stalled))
  | 13 | 14 | 15 | 16 | 17 | 18 =>
    s.pends b 2 4 + 16 * b2n ((Tab.get (fun _ => ({} : Engine)) s.eng (b - 13)).profs.any (fun e => e.2.st == 3))
  | 19 => s.pends Blk.pat 2 5 + 32 * b2n (s.pat.any (fun e => e.2.st == .faulted))
  | 20 => s.pends Blk.fsu 2 8 + 256 * b2n (s.fsu.st == 3) + 512 * b2n (s.pend Blk.fsu 10)
  | 21 => s.pends Blk.disp 2 10 + 1024 * b2n s.disp.staged.isSome
  | 26 => s.pends Blk.inp 2 7
  | 28 => s.pends Blk.sec 2 3 + 8 * b2n (!s.sec.trngOk)
  | 27 => s.pends Blk.qch 2 7 + 128 * b2n (s.qch.st == .tripped) + 256 * b2n (s.causes != 0)
  | 32 => b2n s.unsync
  | _ => if 48 ≤ b then b2n (s.pend b 2) else 0

/-- EVBEHIND of a block (R92). -/
def State.evBehind (s : State) (b : Blk) : Nat := mkBits 32 (fun j => s.behind b j)

/-- The CFG_PARITY cause: a register of the block holds a mismatch that has been found (R102). -/
def State.parityCause (s : State) (b : Blk) : Bool := s.rf.parityBad.any (fun e => e.1 / 0x10000 == b && 2 ≤ e.2 % 4)

/-- INT_STATUS of a block (R103). -/
def State.intStatus (s : State) (b : Blk) : Word :=
  BitVec.ofNat 32 (s.blockBits b % 2 ^ 29 + 2 ^ 29 * b2n (s.evBehind b != 0) + 2 ^ 30 * b2n (s.pend b 0) +
    2 ^ 31 * b2n (s.parityCause b))

/-- INT_STATUS AND INT_ENABLE: what drives the block's MSI-X vector (R105). -/
def State.msixCause (s : State) (b : Blk) : Word := s.intStatus b &&& s.reg b 0xC

/-- A write of an ACK field, or of INT_ENABLE, that leaves (INT_STATUS AND INT_ENABLE) non-zero makes a message due
(R105). -/
def State.msixAgain (s : State) (b : Blk) : State :=
  if b < 33 ∧ s.msixCause b ≠ 0 then { s with rf.msixDue := tset s.rf.msixDue b true } else s

/-- The block's line to the Foreman is asserted (R104). -/
def State.fmnLine (s : State) (b : Blk) : Bool := (s.intStatus b &&& s.reg b 0x10) != 0

/-- A message is due on a block's vector where a bit of (INT_STATUS AND INT_ENABLE) rose in the step (R105). -/
def latchRises (s0 s : State) : State :=
  let due := (List.range 33).foldl (fun t b =>
    if (s.intStatus b &&& s.reg b 0xC) &&& ~~~(s0.intStatus b &&& s0.reg b 0xC) = 0 then t else tset t b true) s.rf.msixDue
  { s with rf.msixDue := due }

/-- Quench does not stay ARMED with a trip cause present: whatever the step did, the trip comes in the same cycle
(R978, R979). -/
def State.tripDue (s : State) : State := if s.qch.st == .armed && s.causes != 0 then s.trip s.causes else s

/-- The end of every step: the trip of Quench that is due, then the MSI-X messages the step made due. -/
def finish (s0 s : State) : State := latchRises s0 s.tripDue

/-- How a meaning ends: the next state. -/
def done (s0 s : State) : Host.Outcome State Fault Refusal := .next (finish s0 s)

end Sys2Proof.Machine
end

