-- ==== Sys2Proof/Machine/MbOps.lean ====
section
/-! DEFINITION. Sys2Proof/Machine/MbOps.lean: how every mailbox command reads its request and answers (R265 to R268). -/
namespace Sys2Proof.Machine
open Sys2Proof

/-! Response codes of R267. -/
abbrev rDone : Nat := 0
abbrev rBusy : Nat := 1
abbrev rBadCommand : Nat := 2
abbrev rBadArgument : Nat := 3
abbrev rNotPermitted : Nat := 4
abbrev rNoResource : Nat := 5
abbrev rStateConflict : Nat := 6
abbrev rTimeout : Nat := 7
abbrev rAlreadyDone : Nat := 8
abbrev rInProgress : Nat := 9
abbrev rSuperseded : Nat := 10

/-- The n-byte field at offset o of mailbox m's request, from the Foreman's TCM copy. -/
def State.rq (s : State) (m o n : Nat) : Nat := bytesAt (s.mb m).copy o n
def State.rqOpcode (s : State) (m : Nat) : Nat := s.rq m 0 2
def State.rqTag (s : State) (m : Nat) : Nat := s.rq m 4 4
def State.rqLen (s : State) (m : Nat) : Nat := s.rq m 8 2
/-- The payload bytes of the request. -/
def State.rqPayload (s : State) (m : Nat) : List Byte := ((s.mb m).copy.drop 16).take (s.rqLen m)

/-- Prepares the final response of mailbox m's command. -/
def State.reply (s : State) (m : Nat) (r : Resp) : State :=
  let x := s.mb m
  s.setMb m { x with out := some r, ready := false, waiting := false, committed := true }
/-- DONE with a payload. -/
def State.replyDone (s : State) (m : Nat) (p : List Byte := []) : State :=
  s.reply m { code := rDone, payload := p, progress := 100 }
/-- A refusal with its DETAIL. -/
def State.refuse (s : State) (m code detail : Nat) (p : List Byte := []) : State :=
  s.reply m { code := code, detail := detail, payload := p }
/-- The command has begun and answers later. -/
def State.await (s : State) (m : Nat) : State :=
  let x := s.mb m
  s.setMb m { x with ready := false, waiting := true }

/-- The transition that a PWR_REQUEST asked for is complete: DONE with the state reached (R282). -/
def State.pwrAnswer (s : State) : State :=
  match s.fmn.pwrMb with
  | some m => { s with fmn.pwrMb := none }.replyDone m (leBytes 1 s.aon.pwr ++ [0])
  | none => s

/-- The first field found wrong, by its offset: the checks are listed by ascending offset. -/
def badField : List (Nat × Bool) → Option Nat
  | [] => none
  | (o, ok) :: t => if ok then badField t else some o

/-- The header checks every request has: FLAGS, LENGTH, the zero fields, CONTEXT (R265). -/
def State.headerChecks (s : State) (m : Nat) (lenOk : Bool) : List (Nat × Bool) :=
  [(0x02, s.rq m 2 2 == 0), (0x08, lenOk), (0x0B, s.rq m 0x0B 1 == 0),
   (0x0C, s.rq m 0x0C 1 < 32 || s.rq m 0x0C 1 == 0xFF), (0x0D, s.rq m 0x0D 3 == 0)]

/-! ## Classes of commands (R269 to R271, R277) -/

/-- Bounds of the fast, normal and long classes. -/
inductive CmdClass where
  | fast | normal | long
deriving DecidableEq, Repr
/-- The catalogue of R277; RELAY has the class of its inner command. -/
def opClass (op : Nat) : Option CmdClass :=
  if [0x0001, 0x0002, 0x0306, 0x0502, 0x0522, 0x0612, 0x0704, 0x0804, 0x0805, 0x0806, 0x0B03, 0x0C03, 0x0C04].contains op then
    some .fast
  else if [0x0601, 0x0712, 0x0901, 0x0A01, 0x0A02, 0x0B02, 0x0C02].contains op then some .long
  else if [0x0004, 0x0101, 0x0102, 0x0201, 0x0202, 0x0203, 0x0301, 0x0302, 0x0303, 0x0304, 0x0305, 0x0310, 0x0401, 0x0402,
      0x0403, 0x0501, 0x0503, 0x0504, 0x0511, 0x0521, 0x0523, 0x0602, 0x0603, 0x0611, 0x0613, 0x0701, 0x0702, 0x0703, 0x0711,
      0x0801, 0x0802, 0x0803, 0x0807, 0x0902, 0x0A03, 0x0B01, 0x0B04, 0x0C01].contains op then some .normal
  else none
/-- Class of a request: a RELAY's is that of the request from 0x14 on. -/
def reqClass (l : List Byte) : Option CmdClass :=
  if bytesAt l 0 2 = 0x0003 then (match opClass (bytesAt l 0x14 2) with | some c => some c | none => some .normal)
  else opClass (bytesAt l 0 2)
def State.mbLong (s : State) (m : Nat) : Bool := reqClass (s.mb m).copy == some .long
/-- A long command of mailbox m has begun and not ended. -/
def State.longRuns (s : State) (m : Nat) : Bool := (s.mb m).st == .working && (s.mb m).waiting && s.mbLong m
/-- Two other long commands run already (R271). -/
def State.longFull (s : State) (m : Nat) : Bool :=
  s.mbLong m && 2 ≤ ((List.range 12).filter (fun k => k != m && s.longRuns k)).length
/-- The resource of a command, by which commands are kept in the order of R270: its group in the catalogue. -/
def State.group (s : State) (m : Nat) : Nat := s.rqOpcode m / 256
/-- No mailbox that entered WORKING earlier has a command of the same group that has not begun (R270). -/
def State.inTurn (s : State) (m : Nat) : Bool :=
  (s.fmn.order.takeWhile (fun k => k != m)).all (fun k => !((s.mb k).ready && s.group k == s.group m))

/-- A block is left halted under R1016. -/
def State.leftHalted (s : State) (b : Blk) : Bool := tget s.rf.leftHalted b
/-- Mailbox m's command configures a block that is left halted (R1016): the blocks that ENGINE_CFG, EDGE_FLOOR,
GRAPH_LOAD, MOULD_LOAD, FSU_CONFIG, DISP_TIMING, EGRESS_RING, FBC_CONFIG, INP_REGISTRY, SPRUE_TRAIN and FLASK_BUILD
configure. -/
def State.configuresHalted (s : State) (m : Nat) : Bool :=
  match s.rqOpcode m with
  | 0x0302 => (List.range 48).any (fun n => bit (s.rq m 0x18 8) n && s.leftHalted (Blk.cru0 + n))
  | 0x0511 => s.leftHalted (Blk.rect + s.rq m 0x10 1)
  | 0x0521 => s.leftHalted Blk.pat
  | 0x0601 | 0x0602 => s.leftHalted Blk.fsu
  | 0x0611 | 0x0613 => s.leftHalted Blk.disp
  | 0x0701 => s.leftHalted (Blk.fbc0 + s.rq m 0x10 1)
  | 0x0711 => s.leftHalted Blk.inp
  | 0x0801 => s.leftHalted Blk.edge
  | 0x0901 => (List.range 2).any (fun p => (s.rq m 0x10 1 == 2 || s.rq m 0x10 1 == p) && s.leftHalted (Blk.spr0 + p))
  | _ => false

/-- n zero bytes at offset o. -/
def State.zeroField (s : State) (m o n : Nat) : Nat × Bool := (o, s.rq m o n == 0)

/-- Runs mailbox m's command: it is WORKING on this opcode, passed the checks before its own fields and has not
begun; then its fields are checked, and a field out of range is BAD_ARGUMENT with its offset (R267, R268). -/
def State.command (s : State) (m opcode : Nat) (lenOk : Bool) (checks : List (Nat × Bool)) (f : State → State) : State :=
  let x := s.mb m
  if x.st = .working ∧ x.ready ∧ x.out = none ∧ s.rqOpcode m = opcode ∧ s.inTurn m then
    match badField (s.headerChecks m lenOk ++ checks) with
    | some o => s.refuse m rBadArgument o
    | none =>
      if s.longFull m then s.refuse m rBusy 0
      else if s.configuresHalted m then s.refuse m rNoResource 0
      else f s
  else s

/-- The checks of a payload: each field at its first byte, every byte of no field zero (R266, R267). -/
def State.fieldChecks (s : State) (m : Nat) (fields : List (Nat × Nat × Bool)) : List (Nat × Bool) :=
  (List.range (s.rqLen m)).map (fun i =>
    let o := 0x10 + i
    match fields.find? (fun e => e.1 ≤ o && o < e.1 + e.2.1) with
    | some (a, _, ok) => (a, ok || o != a)
    | none => (o, s.rq m o 1 == 0))

/-- A command whose payload holds the given fields (offset, size, in range), its LENGTH reaching at least over
`span` bytes and at most over 240. -/
def State.request (s : State) (m opcode span : Nat) (fields : List (Nat × Nat × Bool)) (f : State → State) : State :=
  s.command m opcode (span ≤ s.rqLen m && s.rqLen m ≤ 240) (s.fieldChecks m fields) f

end Sys2Proof.Machine
end

