-- ==== Sys2Proof/Machine/MemOps.lean ====
section
/-! DEFINITION. Sys2Proof/Machine/MemOps.lean: the named operations on the on-die memories: bytes, the ECC code and
poison (R651 to R653), demand reads and writes (R659 to R661), the region table and its rights (R654 to R657), and
the counting of fabric errors (R72, R78). -/
namespace Sys2Proof.Machine
open Sys2Proof

/-! ## Ranges of the local address map (R43) -/

def inIngot (a : Nat) : Bool := a < 0x4000000
def inHearth (a : Nat) : Bool := 0x10000000 ≤ a && a < 0x16000000
def inRegs (a : Nat) : Bool := 0x20000000 ≤ a && a < 0x21000000
def inRom (a : Nat) : Bool := 0x30000000 ≤ a && a < 0x30020000
def inTcm (a : Nat) : Bool := 0x30100000 ≤ a && a < 0x30180000
/-- Mould-core SRAM's place in `Mem.bytes`. -/
def mouldBase : Nat := 0x40000000
def inMould (a : Nat) : Bool := mouldBase ≤ a && a < mouldBase + 0x400000
/-- len bytes from a lie wholly in the local ingot range. -/
def ingotRange (a len : Nat) : Bool := a + len ≤ 0x4000000
/-- len bytes from a lie wholly in the hearth range. -/
def hearthRange (a len : Nat) : Bool := 0x10000000 ≤ a && a + len ≤ 0x16000000
/-- len bytes from a lie wholly in the boot ROM, or in TCM. -/
def romRange (a len : Nat) : Bool := 0x30000000 ≤ a && a + len ≤ 0x30020000
def tcmRange (a len : Nat) : Bool := 0x30100000 ≤ a && a + len ≤ 0x30180000
/-- Crucible whose hearth holds a. -/
def hearthOf (a : Nat) : Nat := (a - 0x10000000) / 0x200000
/-- MEM_ERR_INFO.MEMORY and the bank of R684. -/
def memoryCode (a : Nat) : Nat := if inIngot a then 0 else if inHearth a then 1 else if inMould a then 2 else 3
def bankOf (a : Nat) : Nat :=
  if inIngot a then a / 4096 % 16 else if inHearth a then 16 + hearthOf a
  else if inMould a then 64 + (a - mouldBase) / 0x80000 else 72

/-! ## Bytes -/

def zeroByte : Nat → Byte := fun _ => 0
def State.mbyte (s : State) (a : Nat) : Byte := Tab.get zeroByte s.mem.bytes a
/-- n stored bytes from a, as they stand. -/
def State.mbytes (s : State) (a n : Nat) : List Byte := Tab.slice zeroByte s.mem.bytes a n
/-- Places bytes from address a on in a table of bytes. -/
def putBytes (t : Tab Byte) (a : Nat) (l : List Byte) : Tab Byte := Tab.put zeroByte t a l
/-- The check-byte difference of the word that holds a. -/
def State.chkAt (s : State) (a : Nat) : Byte := Tab.get zeroByte s.mem.chk (a / 8)
def State.setChk (s : State) (a : Nat) (c : Byte) : State :=
  { s with mem.chk := Tab.set zeroByte s.mem.chk (a / 8) c }
/-- Clears every word touched by len bytes from a to valid check bits. -/
def clearChk (t : Tab Byte) (a len : Nat) : Tab Byte :=
  if len = 0 then t else Tab.clear (fun w => decide (a / 8 ≤ w ∧ w ≤ (a + len - 1) / 8)) t
/-- Fills a range of memory with zeros and valid check bits (R127, R218, R658). -/
def State.zeroRange (s : State) (a len : Nat) : State :=
  { s with
    mem.bytes := Tab.clear (fun k => decide (a ≤ k ∧ k < a + len)) s.mem.bytes
    mem.chk := Tab.clear (fun w => decide (a ≤ 8 * w ∧ 8 * w < a + len)) s.mem.chk }
/-- Stores bytes with fresh check bits where no ECC history matters: whole words of a device's own output. -/
def State.store (s : State) (a : Nat) (l : List Byte) : State :=
  { s with mem.bytes := putBytes s.mem.bytes a l, mem.chk := clearChk s.mem.chk a l.length }
def State.load (s : State) (a n : Nat) : Nat := leNat (s.mbytes a n)

/-! ## ECC (R651, R652) -/

/-- Outcome of decoding a word. -/
inductive EccOutcome where
  | clean
  /-- the bit at this position is inverted -/
  | correctable (pos : Nat)
  | uncorrectable
  | poisoned
deriving DecidableEq, Repr

/-- Parity of an 8-bit number. -/
def parity8 (c : Byte) : Nat := ((List.range 8).foldl (fun n i => n + b2n (c.toNat.testBit i)) 0) % 2
/-- The decoding of R652: the stored check byte differs from the correct one by `c`, so s is its low seven bits and
p its parity. -/
def eccDecode (c : Byte) : EccOutcome :=
  let s := c.toNat % 128
  let p := parity8 c
  if s = 0 ∧ p = 0 then .clean
  else if p = 1 then (if s ≤ 71 then .correctable s else .uncorrectable)
  else if s = 127 then .poisoned
  else .uncorrectable
/-- Data bit held at a position of R651; none for a check bit. -/
def dataBitAt (pos : Nat) : Option Nat :=
  if pos = 0 ∨ pos = 1 ∨ pos = 2 ∨ pos = 4 ∨ pos = 8 ∨ pos = 16 ∨ pos = 32 ∨ pos = 64 then none
  else some (pos - 3 - b2n (4 < pos) - b2n (8 < pos) - b2n (16 < pos) - b2n (32 < pos) - b2n (64 < pos))
/-- Position of a data bit (R651). -/
def posOfData (d : Nat) : Nat :=
  if d < 1 then 3 else if d < 4 then d + 4 else if d < 11 then d + 5 else if d < 26 then d + 6 else if d < 57 then d + 7 else d + 8
/-- What inverting data bit d changes in the check byte: the seven bits of its position, and c7. -/
def flipChk (d : Nat) : Byte :=
  let pos := posOfData d
  let pops := (List.range 7).foldl (fun n i => n + b2n (pos.testBit i)) 0
  BitVec.ofNat 8 (pos % 128 + (if (pops + 1) % 2 = 1 then 128 else 0))

/-- Inverts data bit d of the word at a. -/
def State.flipData (s : State) (a d : Nat) : State :=
  let k := a / 8 * 8 + d / 8
  { s with mem.bytes := Tab.set zeroByte s.mem.bytes k (s.mbyte k ^^^ BitVec.ofNat 8 (2 ^ (d % 8))) }

/-- Corrects the word at a in place (R659). -/
def State.correct (s : State) (a pos : Nat) : State :=
  let s1 := match dataBitAt pos with
    | some d => s.flipData a d
    | none => s
  s1.setChk a 0

/-! ## Region table (R654 to R657, R685) -/

def State.entBase (s : State) (e : Nat) : Nat := (s.reg Blk.mem (0x2000 + 0x20 * e)).toNat * 4096
def State.entPages (s : State) (e : Nat) : Nat := (s.reg Blk.mem (0x2004 + 0x20 * e)).toNat
def State.entOwner (s : State) (e : Nat) : Word := s.reg Blk.mem (0x2008 + 0x20 * e)
def State.entValid (s : State) (e : Nat) : Bool := fld (s.entOwner e) 31 1 == 1
def State.entManaged (s : State) (e : Nat) : Bool := fld (s.entOwner e) 30 1 == 1
def State.entKind (s : State) (e : Nat) : Nat := fld (s.entOwner e) 24 2
def State.entId (s : State) (e : Nat) : Nat := fld (s.entOwner e) 0 8
def State.entRights (s : State) (e : Nat) : Word := s.reg Blk.mem (0x200C + 0x20 * e)
def State.entAttr (s : State) (e : Nat) : Word := s.reg Blk.mem (0x2010 + 0x20 * e)
def State.entProtected (s : State) (e : Nat) : Bool := fld (s.entAttr e) 5 1 == 1
/-- COMPRESS_OK, taken as 0 in a PROTECTED entry (R658). -/
def State.entCompress (s : State) (e : Nat) : Bool := fld (s.entAttr e) 4 1 == 1 && !s.entProtected e
def State.entCovers (s : State) (e a : Nat) : Bool :=
  s.entValid e && decide (s.entBase e ≤ a) && decide (a < s.entBase e + s.entPages e * 4096)
/-- The governing entry: the valid entry with the highest number that covers the location (R656). -/
def State.governing (s : State) (a : Nat) : Option Nat :=
  (List.range 32).foldl (fun r e => if s.entCovers e a then some e else r) none

/-- The Ordinary group of a master (R655). -/
def masterGroup (m : Nat) : Nat :=
  if m < 0x30 then 0
  else match m with
  | 0x33 => 1
  | 0x34 | 0x35 => 2
  | 0x36 => 3
  | 0x37 => 4
  | 0x38 => 5
  | 0x39 => 6
  | 0x3A => 7
  | 0x3B => 8
  | 0x3C => 9
  | 0x3D => 10
  | 0x3E => 11
  | 0x3F => 12
  | 0x40 => 13
  | 0x42 => 14
  | _ => 15

/-- Rights at one location (R656). -/
def State.rightAt (s : State) (m : Nat) (cls : AccessClass) (write : Bool) (a : Nat) : Bool :=
  match cls with
  | .secure => true
  | .privileged =>
    (match s.governing a with
     | some e => bit (s.entAttr e).toNat (if write then 1 else 0)
     | none => false)
  | .ordinary =>
    (match s.governing a with
     | some e => bit (s.entRights e).toNat (masterGroup m + (if write then 16 else 0))
     | none => inHearth a && masterGroup m == 0)

/-- Every 4 KiB page touched admits the access (R657). -/
def State.rightsOk (s : State) (m : Nat) (cls : AccessClass) (write : Bool) (a len : Nat) : Bool :=
  (List.range ((a + len + 4095) / 4096 - a / 4096)).all (fun i =>
    s.rightAt m cls write (max a ((a / 4096 + i) * 4096)))

/-- The staging window of R232 is open to Privileged masters in WAIT_PUSH. -/
def State.windowOk (s : State) (cls : AccessClass) (a len : Nat) : Bool :=
  s.rst.window && cls == .privileged && a + len ≤ 0x80000

/-! ## Fabric errors (R72, R78) -/

/-- Counts a fabric error and captures it while VALID is 0. -/
def State.fabErr (s : State) (kind m : Nat) (cls : AccessClass) (ctx : Nat) (write : Bool) (a : Nat) : State :=
  let c := match cls with | .ordinary => 0 | .privileged => 1 | .secure => 2
  let info := at_ ctx 16 4 ||| at_ (ctx / 16) 15 1 ||| at_ kind 12 3 ||| at_ c 10 2 ||| bitAt write 9 ||| at_ m 0 8
  if s.pend Blk.chip 3 then s.bump Blk.chip 3
  else ((s.setPair Blk.chip 0x208 (a % 2 ^ 40)).setReg Blk.chip 0x210 info).bump Blk.chip 3

/-! ## Demand reads and writes -/

/-- Captures a memory error (R683) and counts it: source 3 UE, 4 POISON_READ, 5 LATENT. -/
def State.memErr (s : State) (src kind m a : Nat) : State :=
  let c := s.chkAt a
  let g := s.governing a
  let info := at_ m 24 8 ||| at_ (parity8 c) 23 1 ||| at_ (c.toNat % 128) 16 7 ||| at_ kind 12 4 |||
    at_ (memoryCode a) 8 4 ||| bitAt g.isNone 5 ||| at_ (g.getD 31) 0 5
  let adr := if inMould a then (a - mouldBase) / 8 * 8 else a / 8 * 8 + s.bus.chipId * 2 ^ 38
  if s.pend Blk.mem src then s.bump Blk.mem src
  else ((s.setReg Blk.mem 0x130 info).setPair Blk.mem 0x134 adr).bump Blk.mem src

/-- A bank's correctable or uncorrectable count (R684). -/
def State.bankCount (s : State) (a : Nat) (ue : Bool) : State :=
  let o := 0x1000 + 4 * bankOf a
  let w := s.reg Blk.mem o
  if ue then s.setReg Blk.mem o (at_ (fld w 16 16 + 1) 16 16 ||| at_ (fld w 0 16) 0 16)
  else s.setReg Blk.mem o (at_ (fld w 16 16) 16 16 ||| at_ (fld w 0 16 + 1) 0 16)

/-- A demand read reaches the word at a (R659, R660): true when the reader receives a poisoned read. The boot ROM has
no ECC. -/
def State.touchWord (s : State) (m a : Nat) : Bool × State :=
  if inRom a then (false, s)
  else match eccDecode (s.chkAt a) with
  | .clean => (false, s)
  | .correctable pos => (false, ((s.correct a pos).bankCount a false).bump Blk.mem 2)
  | .uncorrectable => (true, ((s.memErr 3 1 m a).bankCount a true).setChk a 0xFF)
  | .poisoned => (true, s.memErr 4 2 m a)

/-- Demand read of n words from word index w. -/
def State.touchWords (s : State) (m w : Nat) : Nat → Bool × State
  | 0 => (false, s)
  | n + 1 =>
    let (p, s1) := s.touchWord m (8 * w)
    let (q, s2) := State.touchWords s1 m (w + 1) n
    (p || q, s2)

/-- A demand read of len bytes: the data, whether any word was poisoned, the state after. -/
def State.demandRead (s : State) (m a len : Nat) : List Byte × Bool × State :=
  let (p, s1) := s.touchWords m (a / 8) ((a + len + 7) / 8 - a / 8)
  (s1.mbytes a len, p, s1)

/-- The armed injection meets a full write of its word (R683): its inversions are stored. -/
def State.inject (s : State) (a : Nat) : State :=
  let adr := (s.reg Blk.mem 0x160).toNat + (s.reg Blk.mem 0x164).toNat * 2 ^ 32
  if s.mem.injArmed && adr / 8 == a / 8 then
    let c := s.reg Blk.mem 0x168
    let one := fun (s : State) (d : Nat) =>
      if d < 64 then (s.flipData a d).setChk a (s.chkAt a ^^^ flipChk d) else s
    let s1 := one (one s (fld c 8 8)) (fld c 16 8)
    { (s1.setChk a (s1.chkAt a ^^^ BitVec.ofNat 8 (fld c 0 8))) with mem.injArmed := false }
  else s

/-- A write to one word: `l` bytes from a, all in one aligned word (R661): true when it is discarded and the writer
receives a poisoned read. -/
def State.writeWord (s : State) (m a : Nat) (l : List Byte) : Bool × State :=
  if l.length = 8 then (false, ({ s with mem.bytes := putBytes s.mem.bytes a l }.setChk a 0).inject a)
  else match eccDecode (s.chkAt a) with
  | .clean => (false, { s with mem.bytes := putBytes s.mem.bytes a l })
  | .correctable pos =>
    let s1 := ((s.correct a pos).bankCount a false).bump Blk.mem 2
    (false, { s1 with mem.bytes := putBytes s1.mem.bytes a l })
  | .uncorrectable => (true, ((s.memErr 3 1 m a).bankCount a true).setChk a 0xFF)
  | .poisoned => (true, s.memErr 4 2 m a)

/-- A write of bytes from a, word by word; `fuel` counts the words it may touch. -/
def State.writeWords (s : State) (m a : Nat) (l : List Byte) : Nat → Bool × State
  | 0 => (false, s)
  | fuel + 1 =>
    if l = [] then (false, s)
    else
      let n := 8 - a % 8
      let (p, s1) := s.writeWord m a (l.take n)
      let (q, s2) := State.writeWords s1 m (a + n) (l.drop n) fuel
      (p || q, s2)

/-- A demand write. -/
def State.demandWrite (s : State) (m a : Nat) (l : List Byte) : Bool × State :=
  s.writeWords m a l (l.length / 8 + 2)

/-! ## Accesses of the device's own masters to local memory -/

/-- How an access to memory ended. -/
inductive Access where
  | ok
  /-- decode error of R72 -/
  | decode
  /-- region-rights violation of R657 -/
  | rights
  /-- poisoned read of R660 -/
  | poison
deriving DecidableEq, Repr

/-- An address with the chip field of this device, or with none taken off: the local part. -/
def localOf (a : Nat) : Nat := a % 2 ^ 38
def chipOf (a : Nat) : Nat := a / 2 ^ 38 % 4

/-- The memory at a has no power: a hearth outside Gale, the ingots in Calm (R126). -/
def State.unpowered (s : State) (a : Nat) : Bool := (inHearth a && s.aon.pwr != 3) || (inIngot a && s.aon.pwr == 0)

/-- The checks of an access to local memory: the KIND of the error of R72 that it meets, none when it may take effect.
The boot ROM and TCM admit Secure masters only, and the ROM no write. -/
def State.memCheck (s : State) (m : Nat) (cls : AccessClass) (write : Bool) (a len : Nat) : Option Nat :=
  if !(ingotRange a len || hearthRange a len || tcmRange a len || romRange a len) then some 0
  else if (tcmRange a len || romRange a len) && cls != .secure || (romRange a len && write) then some 2
  else if !(s.rightsOk m cls write a len) && !(s.windowOk cls a len) then some 2
  else none
/-- The 40-bit address of a local address. -/
def State.fullAddr (s : State) (a : Nat) : Nat := localOf a + s.bus.chipId * 2 ^ 38

/-- A read by a master of the device: local memory only, checked and counted. -/
def State.readMem (s : State) (m : Nat) (cls : AccessClass) (ctx a len : Nat) : List Byte × Access × State :=
  match s.memCheck m cls false a len with
  | some k => (List.replicate len 0, if k = 0 then .decode else .rights, s.fabErr k m cls ctx false (s.fullAddr a))
  | none =>
    if s.unpowered a then
      let (d, s1) := s.freeBytes len
      (d, .ok, s1)
    else
      let (d, p, s1) := s.demandRead m a len
      if p then (d, .poison, s1.fabErr 3 m cls ctx false (s.fullAddr a)) else (d, .ok, s1)

/-- A write by a master of the device: local memory only, checked and counted. -/
def State.writeMem (s : State) (m : Nat) (cls : AccessClass) (ctx a : Nat) (l : List Byte) : Access × State :=
  match s.memCheck m cls true a l.length with
  | some k => (if k = 0 then .decode else .rights, s.fabErr k m cls ctx true (s.fullAddr a))
  | none =>
    if s.unpowered a then (.ok, s)
    else
      let (p, s1) := s.demandWrite m a l
      if p then (.poison, s1.fabErr 3 m cls ctx true (s.fullAddr a)) else (.ok, s1)

/-! ## Entries made and cleared by the Foreman -/

/-- The highest free entry (R669). -/
def State.freeEntry (s : State) : Option Nat :=
  (List.range 32).foldl (fun r e => if s.entValid e then r else some e) none

/-- Writes an entry. -/
def State.setEntry (s : State) (e base pages kind id orm owm attr : Nat) (managed : Bool) : State :=
  let o := 0x2000 + 0x20 * e
  let s := s.setReg Blk.mem o (BitVec.ofNat 32 (base / 4096))
  let s := s.setReg Blk.mem (o + 4) (BitVec.ofNat 32 pages)
  let s := s.setReg Blk.mem (o + 8) (bitAt true 31 ||| bitAt managed 30 ||| at_ kind 24 2 ||| at_ id 0 8)
  let s := s.setReg Blk.mem (o + 0xC) (at_ owm 16 16 ||| at_ orm 0 16)
  s.setReg Blk.mem (o + 0x10) (BitVec.ofNat 32 attr)

/-- Clears an entry; a PROTECTED entry's pages are zeroed first (R658). -/
def State.clearEntry (s : State) (e : Nat) : State :=
  let s1 := if s.entProtected e && s.entValid e then s.zeroRange (s.entBase e) (s.entPages e * 4096) else s
  (List.range 5).foldl (fun s i => s.setReg Blk.mem (0x2000 + 0x20 * e + 4 * i) 0) s1

/-- A MANAGED entry for an area of another chapter's command: none when no entry is free. -/
def State.manage (s : State) (base len kind id orm owm : Nat) : Option State :=
  match s.freeEntry with
  | none => none
  | some e => some (s.setEntry e base (cdiv len 4096) kind id orm owm 0 true)

/-- Clears every valid MANAGED entry that starts at `base`. -/
def State.unmanage (s : State) (base : Nat) : State :=
  (List.range 32).foldl (fun s e =>
    if s.entValid e && s.entManaged e && s.entBase e == base then s.clearEntry e else s) s

end Sys2Proof.Machine
end

