-- ==== Sys2Proof/Machine/QueOps.lean ====
section
/-! DEFINITION. Sys2Proof/Machine/QueOps.lean: the queue engine's operations (Hardware queues): credits, entries in
effect, pops and drops, notification, reset. -/
namespace Sys2Proof.Machine
open Sys2Proof

def queueReset0 : Nat → Queue := fun _ => {}
def State.queue (s : State) (q : Nat) : Queue := Tab.get queueReset0 s.queues q
def State.setQueue (s : State) (q : Nat) (x : Queue) : State :=
  { s with queues := Tab.set queueReset0 s.queues q x }

/-- QUE_Qn_CFG. -/
def State.qcfg (s : State) (q : Nat) : Word := s.reg Blk.que (0x1000 + 0x40 * q)
def State.qEn (s : State) (q : Nat) : Bool := fld (s.qcfg q) 31 1 == 1
def State.qOwned (s : State) (q : Nat) : Bool := fld (s.qcfg q) 21 1 == 1
def State.qCtx (s : State) (q : Nat) : Nat := fld (s.qcfg q) 16 5
def State.qVector (s : State) (q : Nat) : Nat := fld (s.qcfg q) 8 6
def State.qPf1 (s : State) (q : Nat) : Bool := fld (s.qcfg q) 7 1 == 1
/-- Entries of a ring by DEPTH_LOG2, which outside 4 to 12 is taken as 4 (R311). -/
def depthOf (d : Nat) : Nat := if 4 ≤ d && d ≤ 12 then 2 ^ d else 16
def State.qDepth (s : State) (q : Nat) : Nat := depthOf (fld (s.qcfg q) 0 4)
/-- Ring base. -/
def State.qRing (s : State) (q : Nat) : Nat := fld (s.reg Blk.que (0x1004 + 0x40 * q)) 12 14 * 4096
/-- Landing zone, directly after the ring (R311). -/
def State.qLanding (s : State) (q : Nat) : Nat := s.qRing q + 64 * s.qDepth q
/-- Address of ring slot i. -/
def State.qSlot (s : State) (q i : Nat) : Nat := s.qRing q + 64 * (i % s.qDepth q)
/-- CREDITS (R314). -/
def State.credits (s : State) (q : Nat) : Nat := s.qDepth q - (s.queue q).occ - (s.queue q).freed

/-- The condition of R321: at least one entry with LAST is present. -/
def State.qReady (s : State) (q : Nat) : Bool := s.qEn q && (s.queue q).flags.any (fun e => e.2)
/-- QUE_FMN_NOTIFY bit of queue q. -/
def State.qFmnBit (s : State) (q : Nat) : Bool := s.qReady q && s.qVector q == 0 && !s.qPf1 q

/-- Where the condition holds and ARMED is 1, the message is due and ARMED becomes 0 (R321). PF0 vectors stand at
their number, PF1 vectors at 64 + number. -/
def State.qNotify (s : State) (q : Nat) : State :=
  let x := s.queue q
  if s.qReady q && x.armed && (s.qPf1 q || 33 ≤ s.qVector q) then
    let v := if s.qPf1 q then 64 + s.qCtx q else s.qVector q
    { s.setQueue q { x with armed := false } with rf.msixDue := tset s.rf.msixDue v true }
  else s

/-- Entries enter the ring in order with their flags; while DROPPING they are discarded up to and including the
first with LAST, their credits returning a cycle later (R315, R320). -/
def State.enqueue (s : State) (q : Nat) : List (List Byte × Bool × Bool) → State
  | [] => s
  | (body, first, last) :: t =>
    let x := s.queue q
    if x.dropping then
      State.enqueue (s.setQueue q { x with dropping := !last, freed := x.freed + 1 }) q t
    else
      let s1 := s.store (s.qSlot q x.tail) body
      State.enqueue (s1.setQueue q { x with
        tail := (x.tail + 1) % s.qDepth q
        occ := x.occ + 1
        flags := x.flags ++ [(first, last)] }) q t

/-- The entries of one push: FIRST on the first, LAST on the last (R315). -/
def framed (first last : Bool) (bodies : List (List Byte)) : List (List Byte × Bool × Bool) :=
  bodies.zipIdx.map (fun e => (e.1, first && e.2 == 0, last && e.2 + 1 == bodies.length))

/-- A device producer that has taken a credit for each entry writes them (R318); a disabled queue takes nothing. -/
def State.deviceEntries (s : State) (q : Nat) (l : List (List Byte × Bool × Bool)) : State :=
  if s.qEn q then (s.enqueue q l).qNotify q else s
/-- One entry of a device producer, a packet of its own. -/
def State.devicePush (s : State) (q : Nat) (body : List Byte) : State :=
  s.deviceEntries q [(body, true, true)]
/-- A 64-byte entry from its leading bytes. -/
def entry64 (l : List Byte) : List Byte := (l ++ List.replicate 64 0).take 64

/-- The ring bytes of the entry i places behind HEAD. -/
def State.qEntry (s : State) (q i : Nat) : List Byte := s.mbytes (s.qSlot q ((s.queue q).head + i)) 64

/-- Removes n entries from HEAD; their credits return one cycle later (R319). -/
def State.qRemove (s : State) (q n : Nat) : State :=
  let x := s.queue q
  s.setQueue q { x with
    head := (x.head + n) % s.qDepth q, occ := x.occ - n, freed := x.freed + n, flags := x.flags.drop n }

/-- Entries from HEAD up to and including the first with LAST; none has it: all of them. -/
def uptoLast : List (Bool × Bool) → Nat
  | [] => 0
  | e :: t => if e.2 then 1 else 1 + uptoLast t

/-- The reset of R325: contents discarded, EPOCH advanced. `mismatch` tells which event counts it. A context's queue
takes a note of the record that is due (R327): whether it is Q(2c + 1), and the entries discarded. -/
def State.queueReset (s : State) (q : Nat) (mismatch : Bool) : State :=
  let x := s.queue q
  let s1 := s.setQueue q { epoch := (x.epoch + 1) % 65536, given := x.given }
  let s2 := if q < 64 && s.qEn q then
      let ctxs := if q % 2 = 0 then
          Tab.upd (fun _ => ({} : Ctx)) s1.sch.ctxs (q / 2) (fun c => { c with flushLeft := 0 })
        else s1.sch.ctxs
      { s1 with
        sch.resetDue := s1.sch.resetDue ++ [(q, x.occ)]
        sch.ctxs := ctxs }
    else s1
  if mismatch then s2.bumpInfo Blk.que 3 0x118 (at_ q 16 7 ||| at_ (x.epoch + 1) 0 13)
  else s2.bump Blk.que 4

/-- Disables a queue: EN = 0, contents gone, no notification. EPOCH stays. -/
def State.queueOff (s : State) (q : Nat) : State :=
  (s.setQueue q { epoch := (s.queue q).epoch }).setReg Blk.que (0x1000 + 0x40 * q) 0

/-- Configures and enables a queue with its ring, empty (R312, R323). -/
def State.queueOn (s : State) (q ring depthLog2 : Nat) (owner : Option Nat) (vector : Nat) (pf1 : Bool) : State :=
  let x := s.queue q
  let s := s.setReg Blk.que (0x1000 + 0x40 * q)
    (bitAt true 31 ||| bitAt owner.isSome 21 ||| at_ (owner.getD 0) 16 5 ||| at_ vector 8 6 ||| bitAt pf1 7 |||
     at_ depthLog2 0 4)
  let s := s.setReg Blk.que (0x1004 + 0x40 * q) (at_ (ring / 4096) 12 14)
  s.setQueue q { epoch := x.epoch }

/-! ## Region entries of queue storage (R312, R323) -/

/-- Who produces into a queue, or consumes from it. -/
inductive QueueUser where
  | pf0 | pf1 | jobs | fsu | device
deriving DecidableEq, Repr
/-- Bit of an Ordinary group of R655; the others reach memory by their class. -/
def QueueUser.mask : QueueUser → Nat
  | .jobs => 0x0001
  | .pf1 => 0x0002
  | .fsu => 0x0800
  | .pf0 => 0
  | .device => 0
def userMask (l : List QueueUser) : Nat := l.foldl (fun n u => n ||| u.mask) 0

/-- Areas of a queue's storage: start, pages, O_RMASK, O_WMASK, ATTR. A ring and a landing zone that share a page
take the rights of both, since rights are given by the page (R657). -/
def queueAreas (base depthLog2 : Nat) (landing : Bool) (prod cons : List QueueUser) : List (Nat × Nat × Nat × Nat × Nat) :=
  let len := 64 * 2 ^ depthLog2
  let pr := b2n (cons.contains .pf0)
  let pw := 2 * b2n (prod.contains .pf0)
  let lr := 0x8000 ||| (if prod.contains .pf1 then 2 else 0)
  if landing && len < 4096 then [(base, 1, userMask cons ||| lr, userMask prod ||| 0x8000, pr + pw)]
  else [(base, cdiv len 4096, userMask cons ||| 0x8000, 0x8000, pr)] ++
    (if landing then [(base + len, 1, lr, userMask prod, pw)] else [])

/-- Covers areas with MANAGED entries; none when no entry is free (R669). -/
def State.coverAreas (s : State) (kind id : Nat) : List (Nat × Nat × Nat × Nat × Nat) → Option State
  | [] => some s
  | (a, pages, orm, owm, attr) :: t =>
    match s.freeEntry with
    | none => none
    | some e => State.coverAreas (s.setEntry e a pages kind id orm owm attr true) kind id t
/-- Releases the MANAGED entries of a queue's storage. -/
def State.uncoverQueue (s : State) (base depthLog2 : Nat) : State :=
  let s1 := s.unmanage base
  if 64 ≤ 2 ^ depthLog2 then s1.unmanage (base + 64 * 2 ^ depthLog2) else s1

end Sys2Proof.Machine
end

