-- ==== Sys2Proof/Machine/StopOps.lean ====
section
/-! DEFINITION. Sys2Proof/Machine/StopOps.lean: areas covered for the commands of other chapters, the accessors of
ingest, engines, graphs, frame synthesis, display and controllers, and what a teardown of their owner does to each
(R357, R407, R468, R816, R859, R905). -/
namespace Sys2Proof.Machine
open Sys2Proof

/-! ## Areas covered by MANAGED entries -/

def pageBase (a : Nat) : Nat := a / 4096 * 4096
/-- KIND and ID of an owner: a context, or firmware for 0xFF (R654). -/
def ownerKind (o : Nat) : Nat := if o = 0xFF then 1 else 0
def ownerId (o : Nat) : Nat := if o = 0xFF then 0 else o
/-- Read groups given to an area that the media masters and jobs consume: crucibles, ingest, the engines, PAT, FSU,
DISP, Flux and egress. -/
def readGroups : Nat := 0x7FF9

/-- Covers len bytes from a with one MANAGED entry; none when no entry is free (R669). -/
def State.cover (s : State) (a len kind id orm owm attr : Nat) : Option State :=
  match s.freeEntry with
  | none => none
  | some e => some (s.setEntry e (pageBase a) (cdiv (a + len - pageBase a) 4096) kind id orm owm attr true)
/-- Releases one MANAGED entry made for that area. -/
def State.release (s : State) (a len orm owm : Nat) : State :=
  match (List.range 32).find? (fun e => s.entValid e && s.entManaged e && s.entBase e == pageBase a &&
      s.entPages e == cdiv (a + len - pageBase a) 4096 && s.entRights e == (at_ owm 16 16 ||| at_ orm 0 16)) with
  | some e => s.clearEntry e
  | none => s

/-! ## Ingest -/

def ingReset : Nat → IngSlot := fun _ => {}
def State.slot (s : State) (i : Nat) : IngSlot := Tab.get ingReset s.ing i
def State.setSlot (s : State) (i : Nat) (x : IngSlot) : State := { s with ing := Tab.set ingReset s.ing i x }
def slotBase (i : Nat) : Nat := 0x1000 + 0x80 * i
/-- The n-byte field at offset o of the accepted STREAM_CONFIG of slot i (words 0x10 to 0x33). -/
def State.slotCfg (s : State) (i o n : Nat) : Nat :=
  let w := s.reg Blk.ing (slotBase i + 0x24 + (o - 0x10) / 4 * 4)
  fld w ((o - 0x10) % 4 * 8) (8 * n)
def State.slotWritten (s : State) (i : Nat) : Nat := (s.reg Blk.ing (slotBase i + 4)).toNat
def State.slotRelease (s : State) (i : Nat) : Nat := fld (s.reg Blk.ing (slotBase i + 8)) 0 16
def State.slotOwner (s : State) (i : Nat) : Nat := s.slotCfg i 0x32 1
/-- Buffers in use (R345). -/
def State.slotInUse (s : State) (i : Nat) : Nat := (s.slotWritten i + 65536 - s.slotRelease i) % 65536
def IngSlot.running (x : IngSlot) : Bool := x.st != .stopped
/-- Bytes of a stored line of w pixels or bytes (R341). -/
def lineLen (dt fmt w : Nat) : Nat :=
  if fmt = 1 || fmt = 2 then 2 * w
  else match dt with
  | 0x2B => w * 10 / 8
  | 0x2C => w * 3 / 2
  | 0x1E => 2 * w
  | 0x24 => 3 * w
  | _ => w
/-- Extent of the buffers and of the headers of slot i. -/
def State.slotBufLen (s : State) (i : Nat) : Nat := s.slotCfg i 0x17 1 * s.slotCfg i 0x24 4
def State.slotHdrLen (s : State) (i : Nat) : Nat := s.slotCfg i 0x17 1 * 64
def ingWrites : Nat := 0x0008

/-- Unconfigures a slot and releases its entries (R356). -/
def State.slotClear (s : State) (i : Nat) : State :=
  let s1 := s.release (s.slotCfg i 0x20 4) (s.slotBufLen i) readGroups ingWrites
  let s2 := s1.release (s1.slotCfg i 0x28 4) (s1.slotHdrLen i) readGroups ingWrites
  let s3 := (List.range 9).foldl (fun s w => s.setReg Blk.ing (slotBase i + 0x24 + 4 * w) 0) s2
  s3.setSlot i { s3.slot i with configured := false }
/-- Stops a slot at once, its open frame discarded without a sequence number (R356 MODE 1). A STREAM_STOP that waits is
answered. -/
def State.slotStop (s : State) (i reason : Nat) (detail : Nat := 0) : State :=
  let x := s.slot i
  let s1 := s.setSlot i { x with
    st := .stopped, reason := reason, frame := none, dropping := false, stalled := false, fsSeen := false, stopping := none }
  match x.stopping with
  | none => s1
  | some (m, clear) =>
    (if clear then s1.slotClear i else s1).reply m
      { code := rDone, detail := detail, payload := leBytes 2 (s.slotWritten i), progress := 100 }

/-- Slots of a torn-down context (R357). -/
def State.ingGone (s : State) (c : Nat) : State :=
  (List.range 48).foldl (fun s i =>
    if (s.slot i).configured && s.slotOwner i == c then
      let s1 := s.slotStop i 2
      if (s1.slot i).configured then s1.slotClear i else s1
    else s) s

/-! ## Engines -/

def engReset : Nat → Engine := fun _ => {}
def profReset : Nat → Profile := fun _ => {}
def engBlk (e : Nat) : Blk := Blk.rect + e
def State.engine (s : State) (e : Nat) : Engine := Tab.get engReset s.eng e
def State.setEngine (s : State) (e : Nat) (x : Engine) : State := { s with eng := Tab.set engReset s.eng e x }
def State.prof (s : State) (e p : Nat) : Profile := Tab.get profReset (s.engine e).profs p
def State.setProf (s : State) (e p : Nat) (x : Profile) : State :=
  let g := s.engine e
  s.setEngine e { g with profs := Tab.set profReset g.profs p x }
/-- The n-byte field at offset o of the accepted ENGINE_CFG of a profile, n at most 4 within a word. -/
def State.engCfg (s : State) (e p o n : Nat) : Nat :=
  fld (s.reg (engBlk e) (0x1000 + 0x100 * p + (o / 4 * 4))) (o % 4 * 8) (8 * n)
def State.engOwner (s : State) (e p : Nat) : Nat := s.engCfg e p 0x14 1
def State.engNout (s : State) (e p : Nat) : Nat := s.engCfg e p 0x15 1
/-- Output buffer and header of run number r (R378). -/
def State.engOut (s : State) (e p r : Nat) : Nat := s.engCfg e p 0x30 4 + s.engCfg e p 0x34 4 * (r % s.engNout e p)
def State.engHdr (s : State) (e p r : Nat) : Nat := s.engCfg e p 0x38 4 + 64 * (r % s.engNout e p)
/-- Write mask of an engine's group (R655). -/
def engWrites (e : Nat) : Nat := 2 ^ (4 + e)
/-- Scratch bytes of an SGM profile with PATHS 8 (R432, R433). -/
def sgmScratch (levels w h : Nat) : Nat :=
  (List.range levels).foldl (fun n l => n + cdiv w (2 ^ l) * cdiv h (2 ^ l) * 2 * (if l + 1 = levels then 64 else 9)) 0

/-- Clears a profile to UNCONFIGURED and releases its entries (R383 ACTION 3). -/
def State.profClear (s : State) (e p : Nat) : State :=
  let n := s.engNout e p
  let s1 := s.release (s.engCfg e p 0x30 4) (n * s.engCfg e p 0x34 4) readGroups (engWrites e)
  let s2 := s1.release (s1.engCfg e p 0x38 4) (64 * n) readGroups (engWrites e)
  let s3 := if e = 2 && s2.engCfg e p 0x41 1 = 8 then
      s2.release (s2.engCfg e p 0x54 4)
        (sgmScratch (s2.engCfg e p 0x40 1) (s2.engCfg e p 0x58 2) (s2.engCfg e p 0x5A 2)) (engWrites e) (engWrites e)
    else s2
  let s4 := (List.range 60).foldl (fun s w => s.setReg (engBlk e) (0x1010 + 0x100 * p + 4 * w) 0) s3
  let g := s4.engine e
  s4.setEngine e { g with profs := Tab.set profReset g.profs p {}, order := g.order.filter (fun q => q != p) }

/-- Whether the active run is of profile p. -/
def State.profActive (s : State) (e p : Nat) : Bool :=
  match (s.engine e).run with
  | some r => r.prof == p
  | none => false

/-- Marks the active run to stop (R407). -/
def State.markStop (s : State) (e : Nat) : State :=
  let g := s.engine e
  s.setEngine e { g with run := g.run.map (fun r => { r with stop := true }) }

/-- Completes a graph's token (R451). -/
def graphReset : Nat → Graph := fun _ => {}
def tokenReset : Nat → Token := fun _ => {}
def State.graph (s : State) (g : Nat) : Graph := Tab.get graphReset s.pat g
def State.setGraph (s : State) (g : Nat) (x : Graph) : State := { s with pat := Tab.set graphReset s.pat g x }
def State.setToken (s : State) (t : Option (Nat × Nat)) (x : Token) : State :=
  match t with
  | none => s
  | some (g, k) =>
    let y := s.graph g
    match y.inst with
    | none => s
    | some i => s.setGraph g { y with inst := some { i with tokens := Tab.set tokenReset i.tokens k x } }

/-- A token completes (R451): outcome, header STATUS, RUNSEQ, output buffer, frames that SLOT inputs resolved to. -/
def State.tokenDone (s : State) (t : Option (Nat × Nat)) (outcome status runseq buffer : Nat) (frames : List (Nat × Nat)) :
    State :=
  s.setToken t { outcome := outcome, status := status, runseq := runseq, buffer := buffer, frames := frames }
/-- Tokens that an engine still owes complete as NOT_OK: it has halted or was reset. -/
def State.engTokensLost (s : State) (e : Nat) : State :=
  let x := s.engine e
  let s1 := match x.run with
    | some r => s.tokenDone r.token 1 0 r.runseq 0 []
    | none => s
  (List.range 8).foldl (fun s p => s.tokenDone (s.prof e p).pendingToken 1 0 0 0 []) s1

/-- Profiles of a torn-down context: an active run stops at its next line, every other is cleared (R407). -/
def State.engGone (s : State) (c : Nat) : State :=
  (List.range 6).foldl (fun s e => (List.range 8).foldl (fun s p =>
    if (s.prof e p).st != 0 && s.engOwner e p == c then
      if s.profActive e p then
        let s1 := s.markStop e
        let x := s1.prof e p
        let g := s1.engine e
        (s1.setEngine e { g with order := g.order.filter (fun q => q != p) }).setProf e p
          { x with clearDue := true, pending := false, st := 1 }
      else s.profClear e p
    else s) s) s

/-! ## Graphs -/

def State.graphCfg (s : State) (g o n : Nat) : Nat :=
  fld (s.reg Blk.pat (0x1018 + 0x40 * g + (o - 0x10) / 4 * 4)) ((o - 0x10) % 4 * 8) (8 * n)
def State.graphOwner (s : State) (g : Nat) : Nat := s.graphCfg g 0x11 1
/-- Forgets the instance's claims on runs in progress (R460). -/
def State.dropTokens (s : State) (g : Nat) : State :=
  (List.range 6).foldl (fun s e =>
    let x := s.engine e
    let mine := fun (t : Option (Nat × Nat)) => match t with | some (h, _) => h == g | none => false
    let run := x.run.map (fun r => if mine r.token then { r with token := none } else r)
    let s1 := s.setEngine e { x with run := run }
    (List.range 8).foldl (fun s p =>
      let y := s.prof e p
      if mine y.pendingToken then s.setProf e p { y with pendingToken := none } else s) s1) s
/-- Unloads a stopped graph and disables its queue (R467 CLEAR). -/
def State.graphUnload (s : State) (g : Nat) : State :=
  let n := s.graphCfg g 0x12 1
  let s1 := (List.range (4 * n)).foldl (fun s w => s.setReg Blk.pat (0x4000 + 0x400 * g + 4 * w) 0) s
  let s2 := (List.range 4).foldl (fun s w => s.setReg Blk.pat (0x1018 + 0x40 * g + 4 * w) 0) s1
  (s2.queueOff (76 + g)).setGraph g { epochSeen := (s.graph g).epochSeen }
/-- Stops a graph as with MODE 1: the instance ends without a record (R467). A GRAPH_STOP that waits is answered. -/
def State.graphStop (s : State) (g : Nat) (detail : Nat := 0) : State :=
  let s1 := s.dropTokens g
  let x := s1.graph g
  let s2 := s1.setGraph g { x with
    st := .stopped, pending := none, inst := none, events := [], arrA := none, arrB := none, stopping := none }
  match x.stopping with
  | none => s2
  | some (m, clear) =>
    (if clear then s2.graphUnload g else s2).reply m { code := rDone, detail := detail, progress := 100 }
def State.patGone (s : State) (c : Nat) : State :=
  (List.range 16).foldl (fun s g =>
    if (s.graph g).st != .unloaded && s.graphOwner g == c then
      let s1 := s.graphStop g
      if (s1.graph g).st != .unloaded then s1.graphUnload g else s1
    else s) s

/-! ## Frame synthesis -/

def State.fsuCfg (s : State) (o n : Nat) : Nat :=
  fld (s.reg Blk.fsu (0x200 + (o - 0x10) / 4 * 4)) ((o - 0x10) % 4 * 8) (8 * n)
def State.fsuOwner (s : State) : Nat := s.fsuCfg 0x11 1
def State.fsuRunning (s : State) : Bool := s.fsu.st == 2
/-- Clears the FSU to OFF (R815 ACTION 3): its ring's entry is released and Q92 disabled. -/
def State.fsuClear (s : State) : State :=
  let s1 := s.release (s.fsuCfg 0x20 4) (s.fsuCfg 0x1F 1 * s.fsuCfg 0x24 4) 0x5800 0x0800
  let s2 := (List.range 10).foldl (fun s w => s.setReg Blk.fsu (0x200 + 4 * w) 0) s1
  let s3 := match s.fsu.stopMb with | some m => s2.replyDone m | none => s2
  { s3.queueOff 92 with
    fsu := { s3.fsu with
      st := 0, build := none, n := none, later := [], j := 0, k := 0, motionIn := none, stopping := false
      stopMb := none, clearDue := false, lastOut := none } }
/-- The table entry with owner 32 of a lent flask is removed at the end of the current entry (R811). -/
def flaskReset : Nat → Flask := fun _ => {}
def State.flask (s : State) (f : Nat) : Flask := Tab.get flaskReset s.sch.flasks f
def State.setFlask (s : State) (f : Nat) (x : Flask) : State :=
  { s with sch.flasks := Tab.set flaskReset s.sch.flasks f x }
/-- Applied slice table of a flask: owners and lengths (R528). -/
def State.slices (s : State) (f : Nat) : List (Nat × Nat) :=
  (List.range (s.flask f).n).map (fun e =>
    let w := s.reg Blk.sch (0x1040 + 0x100 * f + 4 * e)
    (fld w 24 6, fld w 0 24))
/-- The lend is withdrawn: a table without owner 32 is staged. -/
def State.withdrawLend (s : State) : State :=
  match s.fsu.lent with
  | none => s
  | some f =>
    let x := s.flask f
    let t := match x.staged with | some (l, k) => (l, k) | none => (s.slices f, x.slack)
    s.setFlask f { x with staged := some (t.1.filter (fun e => e.1 != 32), t.2), assist := none }
/-- A poisoned or uncorrectable word of mould-core SRAM (R824): its bank becomes INVALID. -/
def State.mouldError (s : State) (a : Nat) : State :=
  let o := a - mouldBase
  let hit := fun (b : Nat) => s.fsu.wide && s.fsu.active == some 0 || b == o % 0x80000 / 0x40000
  let s1 := s.bumpInfo Blk.fsu 8 0x168 (at_ 0xFF 24 8 ||| at_ (o / 0x80000) 16 4 ||| at_ (o % 0x80000 / 8) 0 16)
  { s1 with
    fsu.bankA := if hit 0 then 0 else s.fsu.bankA
    fsu.bankB := if hit 1 then 0 else s.fsu.bankB
    fsu.active := s.fsu.active.filter (fun b => !hit b)
    fsu.ready := s.fsu.ready.filter (fun b => !hit b) }
def State.fsuGone (s : State) (c : Nat) : State :=
  if s.fsu.st != 0 && s.fsuOwner == c then (s.fsuClear).withdrawLend else s

/-! ## Display and egress -/

def egReset : Nat → Egress := fun _ => {}
def regionReset : Nat → RegionSlot := fun _ => {}
def State.egress (s : State) (e : Nat) : Egress := Tab.get egReset s.disp.egress e
def State.setEgress (s : State) (e : Nat) (x : Egress) : State :=
  { s with disp.egress := Tab.set egReset s.disp.egress e x }
def State.regionSlot (s : State) (i : Nat) : RegionSlot := Tab.get regionReset s.disp.regions i
def State.setRegionSlot (s : State) (i : Nat) (x : RegionSlot) : State :=
  { s with disp.regions := Tab.set regionReset s.disp.regions i x }
/-- The n-byte field at offset o of the accepted EGRESS_RING of slot e (bytes 0x12 to 0x31). -/
def State.egCfg (s : State) (e o : Nat) : Nat → Nat
  | 0 => 0
  | n + 1 => fld (s.reg Blk.disp (0x1010 + 0x40 * e + (o - 0x12) / 4 * 4)) ((o - 0x12) % 4 * 8) 8 +
      256 * State.egCfg s e (o + 1) n
def State.egOwner (s : State) (e : Nat) : Nat := s.egCfg e 0x12 1
/-- Clears an egress slot: its list's entry is released, and its queue is disabled when no other ring names it. -/
def State.egressClear (s : State) (e : Nat) : State :=
  let q := s.egCfg e 0x16 1
  let s1 := s.release (s.egCfg e 0x18 4) (16 * s.egCfg e 0x17 1) 0x4000 0
  let shared := (List.range 8).any (fun i => i != e && (s.egress i).st != 0 && s.egCfg i 0x16 1 == q)
  let s2 := if shared then s1 else s1.queueOff q
  let s3 := (List.range 8).foldl (fun s w => s.setReg Blk.disp (0x1010 + 0x40 * e + 4 * w) 0) s2
  let s4 := match (s.egress e).stopping with | some m => s3.replyDone m | none => s3
  (s4.setReg Blk.disp (0x1008 + 0x40 * e) 0).setEgress e {}
def State.dispGone (s : State) (c : Nat) : State :=
  let s1 := (List.range 8).foldl (fun s e =>
    if (s.egress e).st != 0 && s.egOwner e == c then s.egressClear e else s) s
  if s1.disp.st != 0 && s1.disp.owner == c then
    let regs := s1.disp.regions.filterMap (fun r =>
      match r.2.running with
      | some u => some (r.1, { running := some u : RegionSlot })
      | none => none)
    { s1.queueOff 96 with disp := { s1.disp with staged := none, regions := regs, order := [], owner := 0xFF } }
  else s1

/-! ## Field-bus controllers -/

/-- TXQ of a configured controller. -/
def State.fbcTxq (s : State) (k : Nat) : Nat := s.fbcCfg k 0x1F
def State.fbcOwner (s : State) (k : Nat) : Nat := s.fbcCfg k 0x11
/-- STATE code of R876. -/
def fbcStCode : FbcState → Nat
  | .off => 0
  | .integrating => 1
  | .running => 2
  | .busOff => 3
  | .recovering => 4
/-- A completion entry of R886. -/
def State.fbcCompletion (s : State) (k kind result attempts : Nat) (tag idw : Word) (fine ts : Nat) : List Byte :=
  let f := s.fbc k
  entry64 (leBytes 1 kind ++ leBytes 1 result ++ leBytes 2 (min attempts 65535) ++ leBytes 4 tag.toNat ++
    leBytes 4 idw.toNat ++ leBytes 1 fine ++ leBytes 3 0 ++ leBytes 8 ts ++ leBytes 2 f.tecCnt ++
    leBytes 1 f.recCnt ++ leBytes 1 (fbcStCode f.st))
/-- The ring slots that n new entries of a queue take admit the queue engine's writes (R657, R72). -/
def State.ringOk (s : State) (q n : Nat) : Bool :=
  (List.range n).all (fun i =>
    let a := s.qSlot q ((s.queue q).tail + i)
    ingotRange a 64 && s.rightsOk Config.mQue .ordinary true a 64)
/-- A delivery or completion write of controller k fails (R917): the fabric error is counted, and delivery and popping
stop. -/
def State.fbcWriteFails (s : State) (k q : Nat) : State :=
  let s1 := s.fabErr 2 Config.mQue .ordinary (s.qCtx q) true (s.fullAddr (s.qSlot q (s.queue q).tail))
  s1.setFbc k { s1.fbc k with failed := true }
/-- Pushes a completion entry, for which a credit was reserved, while the owner's queues are enabled; TX_DONE counts
it. -/
def State.fbcReport (s : State) (k : Nat) (e : List Byte) : State :=
  if !(s.fbc k).owned || (s.fbc k).failed then s
  else if s.ringOk (65 + 2 * k) 1 then (s.devicePush (65 + 2 * k) e).bump (fbcBlk k) 4
  else s.fbcWriteFails k (65 + 2 * k)
/-- A FIFO frame ends: its completion entry is placed and its TAG remembered (R886, R887). -/
def State.fifoEnd (s : State) (k : Nat) (x : FifoFrame) (result fine ts : Nat) : State :=
  let s1 := s.fbcReport k (s.fbcCompletion k 0 result x.attempts x.tag x.frame.idw fine ts)
  let f := s1.fbc k
  s1.setFbc k { f with completed := (x.tag :: f.completed).take 64 }
/-- Every FIFO frame completes as FLUSHED, in FIFO order; aborts that wait for the attempt's end answer. -/
def State.fifoFlush (s : State) (k : Nat) : State :=
  let f := s.fbc k
  let s1 := f.fifo.foldl (fun s x => s.fifoEnd k x 3 0 0) s
  let s2 := f.abortWait.foldl (fun s tag => s.fbcReport k (s.fbcCompletion k 1 1 0 tag 0 0 0)) s1
  s2.setFbc k { s2.fbc k with fifo := [], abortWait := [], attempt := (match f.attempt with | some .fifo => none | a => a) }
/-- A controller of a torn-down context keeps running for INP and Quench: its FIFO is flushed and its queues are
disabled (R905). -/
def State.fbcGone (s : State) (c : Nat) : State :=
  (List.range 4).foldl (fun s k =>
    let f := s.fbc k
    if f.configured && f.owned && s.fbcOwner k == c then
      let s1 := s.fifoFlush k
      let s2 := ((s1.queueOff (64 + 2 * k)).queueOff (65 + 2 * k)).queueOff (s1.fbcTxq k)
      s2.setFbc k { s2.fbc k with owned := false }
    else s) s

/-- Everything that a torn-down context owns outside the scheduler. -/
def State.ownedGone (s : State) (c : Nat) : State :=
  (((((s.ingGone c).engGone c).patGone c).fsuGone c).dispGone c).fbcGone c

end Sys2Proof.Machine
end

