-- ==== Sys2Proof/Machine/SchOps.lean ====
section
/-! DEFINITION. Sys2Proof/Machine/SchOps.lean: contexts, records, commit points and teardown (Crucibles, flasks and
scheduling; Jobs, tensors and completions). -/
namespace Sys2Proof.Machine
open Sys2Proof

/-! Status codes of R543. -/
abbrev stOk : Nat := 0
abbrev stAborted : Nat := 1
abbrev stFlushed : Nat := 2
abbrev stBudget : Nat := 3
abbrev stWindow : Nat := 4
abbrev stEcc : Nat := 5
abbrev stFlux : Nat := 6
abbrev stDescriptor : Nat := 7
abbrev stFormat : Nat := 8
abbrev stRecast : Nat := 9
abbrev stCredit : Nat := 10
abbrev stQueueReset : Nat := 11
abbrev stPeer : Nat := 12

def ctxReset : Nat → Ctx := fun _ => {}
def State.ctx (s : State) (c : Nat) : Ctx := Tab.get ctxReset s.sch.ctxs c
def State.setCtx (s : State) (c : Nat) (x : Ctx) : State := { s with sch.ctxs := Tab.set ctxReset s.sch.ctxs c x }
def State.ctxOpen (s : State) (c : Nat) : Bool := c < 32 && (s.ctx c).st == .opened

/-! ## Flasks and running jobs -/

/-- Flasks on which a job of c runs or is admitted. -/
def State.ctxFlasks (s : State) (c : Nat) : List Nat :=
  (List.range 8).filter (fun f => match (s.flask f).running with | some r => r.job.ctx == c | none => false)
/-- Crucibles of a flask, ascending. -/
def State.crucibles (s : State) (f : Nat) : List Nat :=
  (List.range 48).filter (fun n => (s.flask f).built && (s.flask f).mask.testBit n)
/-- The built flask that holds crucible n. -/
def State.flaskOf (s : State) (n : Nat) : Option Nat :=
  lowest 8 (fun f => (s.flask f).built && (s.flask f).mask.testBit n)
/-- The flask's table holds an entry with owner 32 (R489). -/
def State.lentFlask (s : State) (f : Nat) : Bool := (s.slices f).any (fun e => e.1 == 32)
/-- A stop by kill, abort or teardown is counted by every crucible of the flask (R531). -/
def State.stopEvents (s : State) (f : Nat) : State :=
  (s.crucibles f).foldl (fun s n => s.bump (Blk.cru0 + n) 2) s

/-! ## Windows (R485 to R487) -/

def winBase (c w : Nat) : Nat := 0x4000 + 0x100 * c + 0x20 * w
def State.winLo (s : State) (c w : Nat) : Nat :=
  (s.reg Blk.sch (winBase c w)).toNat + fld (s.reg Blk.sch (winBase c w + 4)) 0 8 * 2 ^ 32
def State.winLen (s : State) (c w : Nat) : Nat := fld (s.reg Blk.sch (winBase c w + 8)) 0 17 * 4096
def State.winAttr (s : State) (c w : Nat) : Word := s.reg Blk.sch (winBase c w + 12)
def State.winValid (s : State) (c w : Nat) : Bool := fld (s.winAttr c w) 31 1 == 1
def State.winWrite (s : State) (c w : Nat) : Bool := s.winValid c w && fld (s.winAttr c w) 1 1 == 1
def State.winRead (s : State) (c w : Nat) : Bool := s.winValid c w && fld (s.winAttr c w) 0 1 == 1
/-- The window check of R486: a 40-bit address. -/
def State.inWindow (s : State) (c a len : Nat) (write : Bool) : Bool :=
  (List.range 8).any (fun w =>
    (if write then s.winWrite c w else s.winRead c w) &&
    s.winLo c w ≤ a && a + len ≤ s.winLo c w + s.winLen c w)
/-- Clears every window of c. -/
def State.clearWindows (s : State) (c : Nat) : State :=
  (List.range 8).foldl (fun s w => (List.range 4).foldl (fun s i => s.setReg Blk.sch (winBase c w + 4 * i) 0) s) s

/-- The part of crucible n's hearth that a window of c covers with WRITE: start and length of each. -/
def State.hearthParts (s : State) (c n : Nat) : List (Nat × Nat) :=
  let lo := 0x10000000 + n * 0x200000
  (List.range 8).filterMap (fun w =>
    if s.winWrite c w && chipOf (s.winLo c w) == s.bus.chipId then
      let a := max lo (localOf (s.winLo c w))
      let b := min (lo + 0x200000) (localOf (s.winLo c w) + s.winLen c w)
      if a < b then some (a, b - a) else none
    else none)
/-- Zeroes that part with valid check bits (step 3 of R500). -/
def State.zeroParts (s : State) (c n : Nat) : State :=
  (s.hearthParts c n).foldl (fun s p => s.zeroRange p.1 p.2) s

/-! ## Records (R541, R542, R555 to R562) -/

def qComp (c : Nat) : Nat := 2 * c + 1
/-- Credits of Q(2c + 1) reserved for the records of staged and running jobs and for held records. -/
def State.reserved (s : State) (c : Nat) : Nat :=
  (s.ctx c).staged.length + (s.ctxFlasks c).length + (s.ctx c).heldRecs.length
/-- A reset of Q(2c + 1) whose KIND 1 record is still due. -/
def State.epochDue (s : State) (c : Nat) : Bool := s.sch.resetDue.any (fun e => e.1 == qComp c)

/-- A 64-byte record. SEQ is filled in when it is placed. -/
def recordBytes (kind status flags jobId c flask detail tbStart tbCommit tag opsDone clip elem recast drift stall : Nat) :
    List Byte :=
  leBytes 1 kind ++ leBytes 1 status ++ leBytes 2 flags ++ leBytes 4 jobId ++ leBytes 1 c ++ leBytes 1 flask ++
  leBytes 2 0 ++ leBytes 4 detail ++ leBytes 8 tbStart ++ leBytes 8 tbCommit ++ leBytes 8 tag ++ leBytes 4 opsDone ++
  leBytes 4 clip ++ leBytes 8 elem ++ leBytes 2 recast ++ leBytes 2 drift ++ leBytes 4 stall
/-- DETAIL of R541. -/
def recDetail (code tensor op : Nat) : Nat := code % 256 * 2 ^ 24 + tensor % 4096 * 4096 + op % 4096
/-- Replaces n bytes at offset o of a record. -/
def patch (l : List Byte) (o n v : Nat) : List Byte := l.take o ++ leBytes n v ++ l.drop (o + n)

/-- Places a record at its instant: SEQ is the context's next, FLAGS.EPOCH_NEW is set where the job was staged in
an earlier epoch of the queue (R557, R562). -/
def State.placeNow (s : State) (c : Nat) (ep : Option Nat) (body : List Byte) : State :=
  let x := s.ctx c
  let fresh := match ep with | some e => decide (e ≠ (s.queue (qComp c)).epoch) | none => false
  let flags := bytesAt body 2 2 ||| (if fresh then 0x40 else 0)
  let jobRec := bytesAt body 0 1 == 0
  let s1 := s.setCtx c { x with
    seq := (x.seq + 1) % 65536
    lastJob := if jobRec then some (bytesAt body 4 4) else x.lastJob }
  s1.devicePush (qComp c) (patch (patch body 2 2 flags) 10 2 x.seq)
/-- A job record: it waits behind a KIND 1 record that is due. -/
def State.placeJob (s : State) (c : Nat) (ep : Nat) (body : List Byte) : State :=
  if s.epochDue c || s.credits (qComp c) = 0 then
    let x := s.ctx c
    s.setCtx c { x with heldRecs := x.heldRecs ++ [(some ep, body)] }
  else s.placeNow c (some ep) body
/-- A credit for a notice is free: the reserve or another (R556). -/
def State.noticeCredit (s : State) (c : Nat) : Bool :=
  s.reserved c + 1 ≤ s.credits (qComp c) && !s.epochDue c
/-- Places a notice, with FLAGS.NOTICE_LOST where one was not recorded. -/
def State.placeNotice (s : State) (c : Nat) (body : List Byte) : State :=
  let x := s.ctx c
  let flags := bytesAt body 2 2 ||| (if x.noticeLost then 0x10 else 0)
  (s.setCtx c { x with noticeLost := false }).placeNow c none (patch body 2 2 flags)
/-- A notice is placed, or held while neither the reserve nor a credit is free; a fifth is not recorded (R556). -/
def State.notice (s : State) (c : Nat) (body : List Byte) : State :=
  let x := s.ctx c
  if x.notices = [] ∧ s.noticeCredit c then s.placeNotice c body
  else if x.notices.length < 4 then s.setCtx c { x with notices := x.notices ++ [body] }
  else s.setCtx c { x with noticeLost := true }
/-- A CONTEXT_NOTICE about an address (R542, R555). -/
def State.contextNotice (s : State) (c status code a : Nat) : State :=
  s.notice c (recordBytes 3 status 0 0 c 0xFF (recDetail code 0xFFF 0) s.tbNow 0 0 (a % 2 ^ 32) (a / 2 ^ 32) 0 0 0 0)

/-- The record of a job that never ran. -/
def State.stagedRecord (s : State) (j : Job) (status code framing : Nat) : List Byte :=
  recordBytes 0 status framing j.jobId j.ctx j.flask (recDetail code 0xFFF 0) 0 s.tbNow j.userTag 0 0 0 0 0 0
/-- FLAGS of a job that ran (R553). -/
def Running.flags (r : Running) : Nat :=
  b2n (r.recastOps != 0) + 2 * b2n (r.driftOps != 0) + 4 * b2n (r.clip != 0) + 32 * b2n r.substituted
/-- The record of a job that was admitted. TB ticks of stall are given in µs, saturating. DETAIL is 0 with OK. -/
def State.runRecord (s : State) (r : Running) (status code tensor op : Nat) : List Byte :=
  recordBytes 0 status r.flags r.job.jobId r.job.ctx r.job.flask
    (if status = stOk then 0 else recDetail code tensor op) r.tbStart s.tbNow r.job.userTag
    r.opsDone (min r.clip 0xFFFFFFFF) r.elems r.recastOps r.driftOps (min (r.stall / 100) 0xFFFFFFFF)

/-- Remembers a committed job (R498). -/
def State.remember (s : State) (c jobId : Nat) : State :=
  let x := s.ctx c
  s.setCtx c { x with committed := (jobId :: x.committed).take 64 }
/-- Completes a job that never ran: the checks of R547, or a flush. -/
def State.completeStaged (s : State) (j : Job) (status code framing : Nat) : State :=
  (s.remember j.ctx j.jobId).placeJob j.ctx j.epoch (s.stagedRecord j status code framing)

/-! ## Commit point (R497) -/

/-- The assist job's outcome reaches the FSU's frame (R812, R822). -/
def State.assistEnd (s : State) (rseq : Nat) (ok : Bool) : State :=
  let f := fun (x : SrcFrame) => if x.rseq = rseq ∧ x.assist = 1 then { x with assist := if ok then 2 else 3 } else x
  { s with fsu := { s.fsu with n := s.fsu.n.map f, later := s.fsu.later.map f } }

/-- Encoders of a flask's job are freed (R713). -/
def State.freeEncoders (s : State) (f : Nat) : State :=
  { s with
    flx.encoders := s.flx.encoders.filter (fun e => e.flask != f)
    flx.waiting := s.flx.waiting.filter (fun e => e.flask != f) }

/-- Hearth parts of contexts in TEARDOWN on a flask's crucibles are zeroed when its job commits (step 3 of R500). -/
def State.zeroDeferred (s : State) (f : Nat) : State :=
  (List.range 32).foldl (fun s c =>
    let x := s.ctx c
    let mine := x.zeroLeft.filter (fun n => (s.crucibles f).contains n)
    if mine = [] then s
    else (mine.foldl (fun s n => s.zeroParts c n) s).setCtx c { x with
      zeroLeft := x.zeroLeft.filter (fun n => !mine.contains n) }) s

/-- Messages in flight for flask f's job no longer belong to a job. -/
def State.dropRemote (s : State) (f : Nat) : State :=
  (List.range 2).foldl (fun s p =>
    { s with spr.ports := Tab.upd (fun _ => ({} : Port)) s.spr.ports p (fun x =>
        { x with inflight := x.inflight.map (fun i => if i.flask = some f then { i with flask := some 8 } else i) }) }) s

/-- The commit point of the job on flask f: outcome, record, counts; aborts that wait are answered (R497, R498). -/
def State.commitJob (s : State) (f status code tensor op : Nat) : State :=
  match (s.flask f).running with
  | none => s
  | some r =>
    let c := r.job.ctx
    let s1 := (s.setFlask f { s.flask f with running := none }).dropRemote f
    let s2 := (s1.freeEncoders f).setReg Blk.sch (0x1014 + 0x100 * f)
      (BitVec.ofNat 32 ((fld (s1.reg Blk.sch (0x1014 + 0x100 * f)) 0 16 + 1) % 65536))
    let s3 := s2.bump Blk.sch 2
    let s4 := if c < 32 then
        (s3.remember c r.job.jobId).placeJob c r.job.epoch (s.runRecord r status code tensor op)
      else s3.assistEnd r.job.jobId (status = stOk)
    let s5 := r.aborts.foldl (fun s m =>
      if status = stAborted then s.replyDone m else s.refuse m rAlreadyDone 0) s4
    s5.zeroDeferred f

/-! ## Teardown (R499, R500) -/

/-- SCH_TEARDOWN_INFO of context c's teardown. -/
def State.teardownInfo (s : State) (c : Nat) : Word :=
  let x := s.ctx c
  at_ x.lastStatus 24 8 ||| at_ c 16 5 ||| at_ (x.tearFlask.getD 0) 8 3 ||| bitAt x.tearFlask.isSome 0

/-- A cause of R499 reaches context c: steps 1 and 2, and the part of step 3 that waits for no other job. `on` is the
flask whose job is the cause, with the DETAIL of its record. A context that is not OPEN absorbs the cause (R521). -/
def State.teardownOn (s : State) (c status : Nat) (on : Option (Nat × Nat × Nat × Nat)) : State :=
  let x := s.ctx c
  if x.st ≠ .opened then s
  else
    let fl := s.ctxFlasks c
    let first := match on with | some (f, _) => some f | none => fl.head?
    let s1 := s.setCtx c { x with st := .teardown, lastStatus := status, tearFlask := first }
    let s1 := s1.logRecord 2 status Blk.sch c 0 (s1.teardownInfo c).toNat
    let s2 := fl.foldl (fun s f =>
      let (code, tensor, op) := match on with
        | some (g, d) => if g = f then d else (0, 0xFFF, 0)
        | none => (0, 0xFFF, 0)
      (s.stopEvents f).commitJob f status code tensor op) s1
    let s3 := ((s2.ctx c).staged).foldl (fun s j => s.completeStaged j stFlushed 0 0)
      (s2.setCtx c { s2.ctx c with staged := [] })
    let s4 := s3.ownedGone c
    let busy := (List.range 48).filter (fun n => s4.hearthParts c n != [] &&
      (match s4.flaskOf n with | some f => ((s4.flask f).running).isSome | none => false))
    let s5 := (List.range 48).foldl (fun s n => if busy.contains n then s else s.zeroParts c n) s4
    s5.setCtx c { s5.ctx c with zeroLeft := busy }
/-- A teardown whose cause is no running job's own. -/
def State.teardown (s : State) (c status : Nat) : State := s.teardownOn c status none
/-- A teardown for a cause to which R543 gives no status (R116, R188, R221, R54): the status is a free value. -/
def State.teardownFree (s : State) (c : Nat) : State :=
  if (s.ctx c).st ≠ .opened then s
  else
    let (v, s1) := s.takeFree 8
    s1.teardown c v
/-- A Class C fault of the job on flask f ends it and tears its context down; an assist job fails alone (R812). -/
def State.jobFault (s : State) (f status code tensor op : Nat) : State :=
  match (s.flask f).running with
  | none => s
  | some r =>
    if r.job.ctx < 32 then s.teardownOn r.job.ctx status (some (f, code, tensor, op))
    else (s.stopEvents f).commitJob f status code tensor op
/-- A window violation of the job on flask f (R70, R72, R524): counted, captured, Class C. -/
def State.winViol (s : State) (f cru a : Nat) (write : Bool) (op : Nat) : State :=
  match (s.flask f).running with
  | none => s
  | some r =>
    let s1 := if s.pend Blk.sch 6 then s.bump Blk.sch 6
      else ((s.setReg Blk.sch 0x134 (at_ cru 24 8 ||| at_ r.job.ctx 16 5 ||| bitAt write 15)).setPair Blk.sch 0x138 a).bump
        Blk.sch 6
    (s1.fabErr 1 cru .ordinary r.job.ctx write a).jobFault f stWindow 0 0xFFF op

/-! ## Dependent contexts of a halted block (R117) -/

/-- Contexts with a job running or staged on flask f. -/
def State.flaskUsers (s : State) (f : Nat) : List Nat :=
  (List.range 32).filter (fun c => (s.ctxFlasks c).contains f || (s.ctx c).staged.any (fun j => j.flask == f))

/-- Context c meets a condition of R117 for block b. -/
def State.dependsOn (s : State) (c : Nat) (b : Blk) : Bool :=
  if 48 ≤ b then
    match s.flaskOf (b - 48) with
    | some f => (s.flaskUsers f).contains c
    | none => false
  else if b = Blk.flx then
    s.flx.encoders.any (fun e => match (s.flask e.flask).running with | some r => r.job.ctx == c | none => false)
  else if 13 ≤ b && b ≤ 18 then
    (List.range 8).any (fun p => (s.prof (b - 13) p).st != 0 && s.engOwner (b - 13) p == c)
  else if b = Blk.pat then (List.range 16).any (fun g => (s.graph g).st != .unloaded && s.graphOwner g == c)
  else if b = Blk.fsu then s.fsu.st != 0 && s.fsuOwner == c
  else if b = Blk.disp then
    (s.disp.st != 0 && s.disp.owner == c) ||
      (List.range 8).any (fun e => (s.egress e).st != 0 && s.egOwner e == c)
  else if 22 ≤ b && b ≤ 25 then (s.fbc (b - 22)).owned && s.fbcOwner (b - 22) == c
  else if b = Blk.inp then s.inp.owner == c
  else if b = Blk.spr0 || b = Blk.spr1 then
    (s.ctxFlasks c).any (fun f => (Tab.get (fun _ => ({} : Port)) s.spr.ports (b - 10)).inflight.any (fun i => i.flask == some f))
  else false

end Sys2Proof.Machine
end

