-- ==== Sys2Proof/Machine/ResetOps.lean ====
section
/-! DEFINITION. Sys2Proof/Machine/ResetOps.lean: what a reset does to a frame, to a block and to everything its scope
reaches (R120, R215 to R221, R252 and each chapter's From reset section). -/
namespace Sys2Proof.Machine
open Sys2Proof

/-! ## Frames -/

/-- A reset reaches a block's frame: every field at its Reset value, no event pending, held copies and shadows zero,
parity recomputed (R120). -/
def State.frameReset (s : State) (b : Blk) : State :=
  let own := fun (k : Nat) => k / 0x10000 == b
  let sh := fun (k : Nat) => k % 2 ^ 24 / 0x10000 == b
  let ev := fun (k : Nat) => k / 32 == b
  { s with
    rf.store := Tab.clear own s.rf.store, rf.held := Tab.clear own s.rf.held, rf.evc := Tab.clear ev s.rf.evc
    rf.ack := Tab.clear ev s.rf.ack, rf.snapSeq := Tab.clear (fun k => k == b) s.rf.snapSeq
    rf.rdShadow := Tab.clear sh s.rf.rdShadow, rf.wrShadow := Tab.clear sh s.rf.wrShadow
    rf.parityBad := Tab.clear own s.rf.parityBad, rf.halted := Tab.clear (fun k => k == b) s.rf.halted
    rf.haltCtxs := Tab.clear (fun k => k == b) s.rf.haltCtxs }

def State.framesReset (s : State) (l : List Blk) : State := l.foldl (fun s b => s.frameReset b) s

/-- Zeroes a crucible's hearth. -/
def State.zeroHearth (s : State) (n : Nat) : State := s.zeroRange (0x10000000 + n * 0x200000) 0x200000
def State.zeroMould (s : State) : State := s.zeroRange mouldBase 0x400000

/-! ## Single blocks -/

def portReset : Nat → Port := fun _ => {}
def State.port (s : State) (p : Nat) : Port := Tab.get portReset s.spr.ports p
def State.setPort (s : State) (p : Nat) (x : Port) : State := { s with spr.ports := Tab.set portReset s.spr.ports p x }

/-- Queues whose producer is a block: they are disabled with it (R479, R826, R870, R918). -/
def blockQueues (b : Blk) : List Nat :=
  match b with
  | 19 => (List.range 16).map (fun g => 76 + g)
  | 20 => [92]
  | 21 => [96, 97, 98, 99]
  | 22 | 23 | 24 | 25 => [64 + 2 * (b - 22), 65 + 2 * (b - 22)]
  | _ => []

/-- The state of a block of the halt group as its resets leave it. A Sprue port's accesses in flight end as lost. -/
def State.blockState (s : State) (b : Blk) : State :=
  let s := (blockQueues b).foldl (fun s q => s.queueOff q) s
  if 48 ≤ b then s.zeroHearth (b - 48)
  else match b with
  | 9 => { s with flx := {} }
  | 10 | 11 =>
    let x := s.port (b - 10)
    s.setPort (b - 10) { inflight := x.inflight, lostDue := x.inflight != [], peer := x.peer }
  | 13 | 14 | 15 | 16 | 17 | 18 => (s.engTokensLost (b - 13)).setEngine (b - 13) {}
  | 19 => { s with pat := [] }
  | 20 => ({ s with fsu := {} }).zeroMould
  | 21 => { s with disp := {} }
  | 22 | 23 | 24 | 25 => s.setFbc (b - 22) {}
  | 26 =>
    -- the registry, bindings and policy are the Foreman's (R952): frames that wait for the engine are lost
    let s1 := (List.range 4).foldl (fun s k =>
      let f := s.fbc k
      s.setFbc k { f with rx := f.rx.filter (fun e => !(8 ≤ e.1 && e.1 < 16)) }) s
    { s1 with inp := { s1.inp with inbox := [], follow := [] } }
  | _ => s

/-- Blocks of the halt group of R116. -/
def haltGroup (b : Blk) : Bool :=
  b = 9 || b = 10 || b = 11 || (13 ≤ b && b ≤ 26) || b = 31 || (48 ≤ b && b < 96)

/-- A reset of one block: its frame and its state (R217). -/
def State.blockReset (s : State) (b : Blk) : State := (s.blockState b).frameReset b

/-! ## Blocks that the Foreman configures again from its copy (R411, R479, R826, R1015) -/

/-- Register words of a list of offsets, to be written again. -/
def State.copyRegs (s : State) (b : Blk) (offs : List Nat) : List (Nat × Word) := offs.map (fun o => (o, s.reg b o))
def State.writeRegs (s : State) (b : Blk) (l : List (Nat × Word)) : State := l.foldl (fun s e => s.setReg b e.1 e.2) s

/-- An engine is reset; profiles whose owner survives are configured and enabled again, RUNSEQ 0. -/
def State.engineRestart (s : State) (e : Nat) : State :=
  let live := (List.range 8).filter (fun p => (s.prof e p).st != 0)
  let regs := s.copyRegs (engBlk e) (live.flatMap (fun p => (List.range 60).map (fun w => 0x1010 + 0x100 * p + 4 * w)))
  let sts := live.map (fun p => (p, (s.prof e p).st))
  let s1 := (s.blockReset (engBlk e)).writeRegs (engBlk e) regs
  sts.foldl (fun s x => s.setProf e x.1 { st := if x.2 = 1 then 1 else 2 }) s1

/-- PAT is reset; graphs whose owner survives are loaded and started again, FCOUNT 0. -/
def State.patRestart (s : State) : State :=
  let live := (List.range 16).filter (fun g => (s.graph g).st != .unloaded)
  let regs := s.copyRegs Blk.pat (live.flatMap (fun g =>
    (List.range 4).map (fun w => 0x1018 + 0x40 * g + 4 * w) ++ (List.range 256).map (fun w => 0x4000 + 0x400 * g + 4 * w)))
  let sts := live.map (fun g => (g, (s.graph g).st))
  let qs := live.map (fun g => (76 + g, s.qcfg (76 + g), s.reg Blk.que (0x1004 + 0x40 * (76 + g))))
  let s1 := (s.blockReset Blk.pat).writeRegs Blk.pat regs
  let s2 := qs.foldl (fun s q => (s.setReg Blk.que (0x1000 + 0x40 * q.1) q.2.1).setReg Blk.que (0x1004 + 0x40 * q.1) q.2.2) s1
  sts.foldl (fun s x => s.setGraph x.1 { st := if x.2 = .stopped then .stopped else .idle }) s2

/-- The FSU is reset and, for a surviving owner, configured and started again; it runs with MOULD_OFF. -/
def State.fsuRestart (s : State) : State :=
  let live := s.fsu.st != 0
  let regs := s.copyRegs Blk.fsu ((List.range 10).map (fun w => 0x200 + 4 * w))
  let st := if s.fsu.st = 3 then 2 else s.fsu.st
  let q := (s.qcfg 92, s.reg Blk.que (0x1004 + 0x40 * 92))
  let s1 := s.blockReset Blk.fsu
  if live then
    let s2 := (s1.writeRegs Blk.fsu regs).setReg Blk.que (0x1000 + 0x40 * 92) q.1
    { s2.setReg Blk.que (0x1004 + 0x40 * 92) q.2 with fsu := { s2.fsu with st := st } }
  else s1

/-- A block that has been halted or reset in a domain is brought back from the firmware's copy. -/
def State.blockRestart (s : State) (b : Blk) : State :=
  if 13 ≤ b && b ≤ 18 then s.engineRestart (b - 13)
  else if b = 19 then s.patRestart
  else if b = 20 then s.fsuRestart
  else s.blockReset b

/-! ## Warm scope, PORn, AON power-on reset (R217, R252) -/

/-- Blocks whose frames the warm scope reaches: all but AON and RST. -/
def warmFrames : List Blk := (List.range 96).filter (fun b => b != 1 && b != 4)

/-- Everything the warm scope reaches. The flash, OTP, the pins, the RST frame, TB_NOW and the always-on core stay. -/
def State.warmScope (s : State) : State :=
  let s := s.framesReset warmFrames
  let lc := s.sec.otp.lifecycle
  { s with
    rf.haltTimes := [], rf.leftHalted := [], rf.msixDue := []
    bus := { chipId := s.bus.chipId }
    aon.pwr := 1, aon.moving := none, aon.calmCommitted := false, aon.exitDue := false, aon.fbStb := 0
    baro.lastCh := none, baro.loStatus := 0, baro.hiStatus := 0, baro.loRun := [], baro.hiRun := []
    clk.domains := s.clk.domains.filter (fun e => e.1 == 0), clk.meters := [], clk.gateClosed := []
    clk.ready := s.clk.ready &&& 0b000001111
    rst.rom := .start, rst.classD := none, rst.wdogDue := false, rst.window := false, rst.trainingDue := true
    fmn := {}
    qch := { st := if s.aon.grave.isSome then .grave else .disarmed }
    fbcs := [], queues := [], mem := {}, ing := [], eng := [], pat := [], sch := {}, flx := {}, spr := {}, ckpt := {}
    fsu := {}, disp := {}, inp := {}
    -- EXTEST is honoured in the open debug state only (R1079)
    jtag.drives := s.jtag.drives && lc == 0
    sec := { otp := s.sec.otp, lifecycle := lc, debug := if lc = 0 then 2 else 0, keysetDebug := lc == 0 } }

/-- PORn also reaches the RST frame and TB_NOW. -/
def State.porScope (s : State) : State :=
  let s1 := (s.warmScope).frameReset Blk.rst
  { s1 with clk.now := 0, rst := { porn := s1.rst.porn, warmn := s1.rst.warmn, perst := s1.rst.perst, trainingDue := true } }

/-- The AON power-on reset also reaches the always-on domain and the comparators; the grave latch is decided at its
end (R151, R160). -/
def State.aonScope (s : State) : State :=
  let s1 := (s.porScope).frameReset Blk.aon
  { s1 with
    aon := { grave := s1.aon.grave, porHeld := s1.aon.porHeld }
    baro := {}
    clk.domains := [] }

/-- A warm-scope reset that the sources give: `warmn` itself, a watchdog expiry and a Class D fault that are due. The
lowest cause is recorded, each source's event advances (R215, R242, R243). -/
def State.warmReset (s : State) (warmn : Bool) : State :=
  let dog := s.rst.wdogDue
  let d := s.rst.classD
  let cause := if warmn then 2 else if dog then 3 else 4
  let last := at_ s.stage 16 4 ||| at_ (d.getD 0) 8 8 ||| at_ cause 0 3
  let s1 := s.setReg Blk.rst 0x100 last
  let s2 := if warmn then s1.bump Blk.rst 2 else s1
  let s3 := if dog then s2.bump Blk.rst 3 else s2
  let s4 := if d.isSome then s3.bump Blk.rst 4 else s3
  -- a HALTED part starts its boot again only by PORn or the AON power-on reset (R249)
  if s.rst.rom = .halted then { s4.warmScope with rst.rom := .halted } else (s4.setFld Blk.rst 0x10C 0 4 0).warmScope

/-! ## PERSTn scope (R217, R221, R307, R336, R568) -/

/-- Contexts that are OPEN. -/
def State.openCtxs (s : State) : List Nat := (List.range 32).filter (fun c => s.ctxOpen c)

/-- PERSTn scope is reached: the endpoint, the egress rings, every context, Q0 to Q63, the bindings and responses of
the host's mailboxes. `pin` tells the pin from a Hot Reset or DL_Down. -/
def State.perstScope (s : State) (pin : Bool) : State :=
  let s1 := (List.range 8).foldl (fun s e =>
    let x := s.egress e
    if x.st = 2 then s.setEgress e { x with st := 1, copy := none, frames := [], stopping := none } else s) s
  let s2 := s1.openCtxs.foldl (fun s c => s.teardownFree c) s1
  let s3 := (List.range 64).foldl (fun s q => if s.qEn q then (s.queueReset q false).queueOff q else s) s2
  let s4 := (List.range 32).foldl (fun s c =>
    let x := s.ctx c
    s.setCtx c { x with staged := [], heldRecs := [], notices := [], noticeLost := false, flushLeft := 0, seq := 0 }) s3
  let s5 := (List.range 8).foldl (fun s m =>
    let x := s.mb m
    s.setMb m { x with
      bound := if 4 ≤ m then none else x.bound
      discard := x.discard || x.st == .posted || x.st == .working }) s4
  let s6 := (s5.bump Blk.rst 5).frameReset Blk.pcie
  { s6 with
    sch.resetDue := []
    bus := { posted := s6.bus.posted, doorbells := s6.bus.doorbells, chipId := s6.bus.chipId }
    rst.perst := pin || s6.rst.perst, rst.trainingDue := true }

/-! ## Domain resets (R188, R217) -/

/-- Contexts that a CRU (4) or MED (6) domain reset tears down. -/
def State.domainTeardown (s : State) (d : Nat) : State :=
  (List.range 32).foldl (fun s c =>
    let hit := if d = 4 then s.ctxFlasks c != [] else (List.range 8).any (fun i => s.dependsOn c (13 + i))
    if hit then s.teardownFree c else s) s

/-- The blocks of the domain are reset; those of MED are configured again for surviving owners. -/
def State.domainReset (s : State) (d : Nat) : State :=
  if d = 4 then (List.range 48).foldl (fun s n => s.blockReset (Blk.cru0 + n)) s
  else (List.range 8).foldl (fun s i => s.blockRestart (13 + i)) s

end Sys2Proof.Machine
end

