-- ==== Sys2Proof/Machine/Work.lean ====
section
/-! DEFINITION. Sys2Proof/Machine/Work.lean: what counts as work in progress for the power sequencer (R130) and for
gating (R190), and what entering and leaving a power state does to the blocks (R126 to R128). -/
namespace Sys2Proof.Machine
open Sys2Proof

/-- A job runs or is admitted on a flask, or a flask is lent to the FSU (R130, leaving Gale). -/
def State.galeWork (s : State) : Bool := (List.range 8).any (fun f => (s.flask f).running.isSome || s.lentFlask f)
/-- An ingest stream, frame graph, egress stream, display timing, Sprue link or FSU operation is enabled (R130). -/
def State.gustWork (s : State) : Bool :=
  (List.range 48).any (fun i => (s.slot i).running) ||
  (List.range 16).any (fun g => (s.graph g).st == .idle || (s.graph g).st == .running) ||
  (List.range 8).any (fun e => (s.egress e).st == 2) || s.disp.st != 0 ||
  (List.range 2).any (fun p => (s.port p).st != .off && (s.port p).st != .down) || s.fsuRunning
/-- The link is neither in L1.2 nor held by PERSTn, or an xSPI operation is in progress (R130, to Calm). -/
def State.linkActive (s : State) : Bool := !(s.bus.l1sub == 3 || s.rst.perst) || s.fmn.flashBusy

/-- Leaving Gust for Breeze: every ENABLED profile becomes DISABLED (R384). -/
def State.leaveGust (s : State) : State :=
  (List.range 6).foldl (fun s e =>
    let s1 := (List.range 8).foldl (fun s p =>
      let x := s.prof e p
      if x.st = 2 then s.setProf e p { x with st := 1, pending := false, arrivals := [], arrA := false, arrB := false }
      else s) s
    (s1.setEngine e { s1.engine e with order := [] }).markStop e) s
/-- Leaving Gale: every slice clock stops where it is (R495). -/
def State.leaveGale (s : State) : State := s
/-- Reaching Gale: hearths are filled with zeros (R127) and every slice clock starts at entry 0 (R495). -/
def State.enterGale (s : State) : State :=
  let s1 := s.zeroRange 0x10000000 0x6000000
  (List.range 8).foldl (fun s f =>
    let x := s.flask f
    if x.built && x.n != 0 then
      s.setFlask f { x with entry := 0, entryFrom := s.clk.now
                            entryEnd := s.clk.now + (((s.slices f)[0]?).getD (0, 0)).2 * tbUs }
    else s) s1
/-- Reaching Gust: mould-core SRAM is filled with zeros (R127), so that no bank holds an image. -/
def State.enterGust (s : State) : State :=
  { s.zeroMould with fsu.bankA := 0, fsu.bankB := 0, fsu.active := none, fsu.ready := none, fsu.wide := false }
/-- Calm exit: the ingots were lost and hold zeros, TCM is kept (R126, R127); Quench leaves Calm as it leaves its own
reset (R128); a running field-bus controller integrates again (R137). -/
def State.leaveCalm (s : State) : State :=
  let s1 := (s.zeroRange 0 0x4000000).frameReset Blk.qch
  let s2 := { s1 with qch := { st := if s1.aon.grave.isSome then .grave else .disarmed } }
  (List.range 4).foldl (fun s k =>
    let f := s.fbc k
    if f.st = .running then s.setFbc k { f with st := .integrating } else s) s2

/-- Idle for gating: no work of the block is in progress (R190). -/
def State.blockIdle (s : State) (b : Blk) : Bool :=
  if 48 ≤ b then
    match s.flaskOf (b - 48) with
    | some f => (s.flask f).running.isNone
    | none => true
  else if 13 ≤ b && b ≤ 18 then (s.engine (b - 13)).run.isNone
  else match b with
  | 9 => s.flx.encoders == []
  | 10 | 11 => (s.port (b - 10)).st == .off || (s.port (b - 10)).st == .down
  | 19 => (List.range 16).all (fun g => (s.graph g).inst.isNone)
  | 20 => s.fsu.build.isNone
  | 21 => s.disp.st == 0
  | 30 => !s.fmn.flashBusy
  | _ => true

end Sys2Proof.Machine
end

