-- ==== Sys2Proof/Machine/Aon.lean ====
section
/-! DEFINITION. Sys2Proof/Machine/Aon.lean: the always-on domain and the Barometer: power-state sequencer, wake
sources, calendar and alarms, ADC, temperature and brown-outs (R125 to R173). -/
namespace Sys2Proof.Machine
open Sys2Proof

/-! ## Power-state sequencer -/

/-- The first condition of R130 that a request to state t does not meet. An unlisted REQ is BAD_TARGET (R131). -/
def State.pwrReason (s : State) (req : Nat) : Option Nat :=
  let cur := s.aon.pwr
  let t := req - 1
  if req = 0 || 4 < req then some 8
  else if s.aon.moving.isSome then some 1
  else if t = cur then some 7
  else if cur = 3 && t < 3 && s.galeWork then some 2
  else if 2 ≤ cur && t < 2 && s.gustWork then some 2
  else if t = 0 && (s.aon.wakeSrc &&& BitVec.ofNat 16 (s.reg Blk.aon 0x120).toNat) != 0 then some 3
  else if t = 0 && s.linkActive then some 4
  else if 2 ≤ t && s.baro.tempCrit then some 5
  else none

/-- A Foreman write of AON_PWR_REQ (R130, R131, R155). -/
def State.powerRequest (s : State) (req : Nat) : State :=
  match s.pwrReason req with
  | some r => s.pwrRefuse req r
  | none =>
    let s1 := { s with aon.moving := some (req - 1), aon.calmCommitted := false, aon.exitDue := false }
    if req = 1 then s1.pmicCalm true else s1

/-- POWER_REQUEST: REQ is bits 2:0 of the value written. -/
def execPowerRequest (v : Word) (s : State) : Host.Outcome State Fault Refusal :=
  done s (s.powerRequest (fld v 0 3))

/-- Wake sources enabled in AON_WAKE_EN. -/
def State.wakeEn (s : State) : BitVec 16 := BitVec.ofNat 16 (s.reg Blk.aon 0x120).toNat

/-- AON_WAKE_LAST for a set of sources. -/
def wakeLast (mask : BitVec 16) : Word :=
  at_ mask.toNat 16 16 ||| at_ ((lowest 16 (fun i => mask.toNat.testBit i)).getD 0) 0 4

/-- The sources that become asserted in one AON tick: `level` is what AON_WAKE_SRC shows from then on
(R129, R133, R136, R154). -/
def State.wake (s : State) (level : BitVec 16) : State :=
  let new := level &&& ~~~s.aon.wakeSrc &&& s.wakeEn
  let s := { s with aon.wakeSrc := level }
  if new = 0 then s
  else if s.aon.moving = some 0 then
    if s.aon.calmCommitted then
      if s.aon.exitDue then s else { (s.setReg Blk.aon 0x128 (wakeLast new)) with aon.exitDue := true }
    else s.abandonCalm
  else if s.aon.pwr = 0 && s.aon.moving.isNone then
    { ((s.setReg Blk.aon 0x128 (wakeLast new)).bump Blk.aon 4) with aon.moving := some 1 }
  else s

/-- WAKE_SOURCE_ASSERTED: `level` is AON_WAKE_SRC from this AON tick on. -/
def execWakeSourceAsserted (level : BitVec 16) (s : State) : Host.Outcome State Fault Refusal :=
  done s (s.wake level)

/-- CALM_ENTRY_COMMIT: the AON tick at which the sequencer stops XHF (R133, R135, R138). -/
def execCalmEntryCommit (s : State) : Host.Outcome State Fault Refusal :=
  if s.aon.moving = some 0 ∧ ¬s.aon.calmCommitted ∧ s.aon.pwr ≠ 0 then
    if s.aon.wakeSrc &&& s.wakeEn ≠ 0 then done s s.abandonCalm
    else
      done s { s with
        aon.calmCommitted := true
        aon.tbAtCalm := s.clk.now
        aon.calmCount := 0
        aon.fbStb := BitVec.ofNat 4 (fld (s.reg Blk.aon 0x124) 16 4)
        clk.ready := s.clk.ready &&& 0b000000101 }
  else done s s

/-- A domain moved by the power-state sequencer (R178): the mux ends on source c and CLK_SW counts it. -/
def State.seqMove (s : State) (d c : Nat) : State :=
  let x := s.domain d
  if x.active = c then s else (s.setDomain d { x with active := c, phase := .idle, hw := false }).bump Blk.clk 2

def State.setReady (s : State) (c : Nat) (b : Bool) : State :=
  { s with clk.ready := BitVec.ofNat 9 (setBit s.clk.ready.toNat c b) }

/-- Clock moves of a transition that has reached state t (R126, R178). -/
def State.seqClocks (s : State) (t : Nat) : State :=
  match t with
  | 0 => s
  | 1 => (((((((s.seqMove 5 8).seqMove 6 3).seqMove 4 3).seqMove 3 1).setReady 4 false).setReady 5 false).setReady 6 false).setReady 7 false
  | 2 => ((((((s.setReady 5 true).setReady 6 true).seqMove 5 5).seqMove 6 6).seqMove 4 3).setReady 4 false)
  | _ => (((((s.setReady 5 true).setReady 6 true).setReady 4 true).seqMove 5 5).seqMove 6 6).seqMove 4 4

/-- Breeze reached from Calm: TB_NOW is loaded, CALM_TICKS holds n, FBk_STB falls, PE_WAKEn as R139 gives, the
watchdog restarts with its full period (R134, R135, R138, R139, R292, R1094). -/
def State.calmExit (s : State) : State :=
  let n := s.aon.calmCount
  let last := s.reg Blk.aon 0x128
  let first := fld last 0 4
  let viaPin := fld last 4 1 = 1 || first = 12 || first = 13
  let pe := fld (s.reg Blk.aon 0x124) 20 1 = 1 && !viaPin && s.rst.perst
  let tbn := s.aon.tbAtCalm + n * 100000000 / 32768
  let s1 := (s.setPair Blk.aon 0x310 n).leaveCalm
  let s2 := { s1 with
    clk.now := tbn, clk.ready := s1.clk.ready ||| 0b100001010
    aon.fbStb := 0, aon.peWake := s1.aon.peWake || pe
    aon.calmCommitted := false, aon.exitDue := false, fmn.wdogFrom := tbn }
  s2.pmicCalm false

/-- POWER_TRANSITION_COMPLETE: STATE shows the new state and AON_PWR_EVC advances (R132). -/
def execPowerTransitionComplete (s : State) : Host.Outcome State Fault Refusal :=
  match s.aon.moving with
  | none => done s s
  | some t =>
    if t = 0 ∧ ¬s.aon.calmCommitted then done s s
    else
      let old := s.aon.pwr
      let s1 := if old = 3 ∧ t < 3 then s.leaveGale else s
      let s2 := if 2 ≤ old ∧ t < 2 then s1.leaveGust else s1
      let s3 := if old = 0 ∧ 1 ≤ t then s2.calmExit else s2
      let s4 := (({ s3 with aon.pwr := t, aon.moving := none }).seqClocks t).bump Blk.aon 2
      let s5 := if old < 2 ∧ 2 ≤ t then s4.enterGust else s4
      let s6 := if old < 3 ∧ t = 3 then s5.enterGale else s5
      if t = 0 ∧ s6.aon.exitDue then
        -- a wake at or after the commit tick: Calm exit starts at once (R133)
        done s { (s6.bump Blk.aon 4) with aon.moving := some 1, aon.exitDue := false }
      else done s s6.pwrAnswer

/-! ## Calendar -/

def leapYear (y : Nat) : Bool := (y % 4 == 0 && y % 100 != 0) || y % 400 == 0
/-- Length of a month (R142). -/
def monthLen (y m : Nat) : Nat :=
  match m with
  | 4 | 6 | 9 | 11 => 30
  | 2 => if leapYear y then 29 else 28
  | _ => 31
/-- Days from 2000-01-01 to the first day of year y, y from 2000. -/
def daysToYear (y : Nat) : Nat := 365 * (y - 2000) + (y - 2000 + 3) / 4 - (y - 2000 + 99) / 100 + (y - 2000 + 399) / 400
/-- Weekday, 0 Monday to 6 Sunday; 2000-01-01 is a Saturday (R141). -/
def weekday (c : Calendar) : Nat :=
  (5 + daysToYear c.year + ((List.range (c.month - 1)).foldl (fun n i => n + monthLen c.year (i + 1)) 0) + (c.day - 1)) % 7

/-- The advance of one AON tick, with carry by the Gregorian rules; the Bool is the wrap of R143. -/
def calAdvance (c : Calendar) : Calendar × Bool :=
  if c.sub + 1 < 32768 then ({ c with sub := c.sub + 1 }, false)
  else if c.second + 1 < 60 then ({ c with sub := 0, second := c.second + 1 }, false)
  else if c.minute + 1 < 60 then ({ c with sub := 0, second := 0, minute := c.minute + 1 }, false)
  else if c.hour + 1 < 24 then ({ c with sub := 0, second := 0, minute := 0, hour := c.hour + 1 }, false)
  else
    let z := { c with sub := 0, second := 0, minute := 0, hour := 0 }
    if c.day < monthLen c.year c.month then ({ z with day := c.day + 1 }, false)
    else if c.month < 12 then ({ z with day := 1, month := c.month + 1 }, false)
    else if c.year < 2399 then ({ z with day := 1, month := 1, year := c.year + 1 }, false)
    else ({}, true)

/-- The date and time layouts of the AON frame. -/
def dateWord (c : Calendar) : Word := at_ c.year 16 12 ||| at_ (weekday c) 12 3 ||| at_ c.month 8 4 ||| at_ c.day 0 5
def timeWord (c : Calendar) : Word := at_ c.hour 16 5 ||| at_ c.minute 8 6 ||| at_ c.second 0 6

/-- Alarm k is enabled and every selected field matches (R148). -/
def State.alarmHit (s : State) (k : Nat) (c : Calendar) : Bool :=
  let d := s.reg Blk.aon (0x200 + 0x10 * k)
  let t := s.reg Blk.aon (0x204 + 0x10 * k)
  fld t 31 1 == 1 &&
  (fld d 31 1 == 0 || fld d 8 4 == c.month) && (fld d 30 1 == 0 || fld d 0 5 == c.day) &&
  (fld d 29 1 == 0 || fld d 12 3 == weekday c) && (fld d 28 1 == 0 || fld d 16 12 == c.year) &&
  (fld t 30 1 == 0 || fld t 16 5 == c.hour) && (fld t 29 1 == 0 || fld t 8 6 == c.minute) &&
  (fld t 28 1 == 0 || fld t 0 6 == c.second)

/-- What every AON tick does besides the calendar: INACCURATE on LFRC (R147), the tick counted in Calm (R135). -/
def State.aonTick (s : State) : State :=
  let s1 := if (s.domain 0).active = 2 then { s with aon.inaccurate := true } else s
  if s1.aon.pwr = 0 ∨ s1.aon.calmCommitted then { s1 with aon.calmCount := s1.aon.calmCount + 1 } else s1

/-- The tick that applies a pending commit in place of its advance (R145, R147, R149, R157). -/
def State.commitApply (s : State) (c : Calendar) : State :=
  let s1 := s.aonTick
  { (s1.bump Blk.aon 5) with
    aon.cal := c, aon.commit := none, aon.unset := false, aon.inaccurate := false, aon.wrapped := false }

/-- CALENDAR_TICK: one AON tick (R142, R143, R148). With a commit pending the tick applies it (R145). -/
def execCalendarTick (s : State) : Host.Outcome State Fault Refusal :=
  match s.aon.commit with
  | some c => done s (s.commitApply c)
  | none =>
    let (c, wrap) := calAdvance s.aon.cal
    let s1 := { s.aonTick with aon.cal := c }
    let s2 := if wrap then { (s1.bump Blk.aon 7) with aon.wrapped := true } else s1
    let hit := if c.sub = 0 then mkBits 4 (fun k => s2.alarmHit k c) else 0
    let s3 := (List.range 4).foldl (fun s k => if bit hit k then s.bump Blk.aon (8 + k) else s) s2
    -- an alarm's wake source is asserted for this one tick (R136)
    done s (s3.wake ((s3.aon.wakeSrc &&& 0xFF0F) ||| BitVec.ofNat 16 (16 * hit)))

/-- CAL_COMMIT_APPLY: the next AON tick after a valid commit. -/
def execCalCommitApply (s : State) : Host.Outcome State Fault Refusal :=
  match s.aon.commit with
  | some c => done s (s.commitApply c)
  | none => done s s

/-- CAL_CAPTURE: a write of 1 to AON_CAL_CAPTURE.TAKE (R144). -/
def execCalCapture (s : State) : Host.Outcome State Fault Refusal := done s { s with aon.capDue := true }

/-- CAL_CAPTURE_COPY: the copy is taken between two AON ticks and AON_CAL_CAP_SEQ advances (R144). -/
def execCalCaptureCopy (s : State) : Host.Outcome State Fault Refusal :=
  if s.aon.capDue then
    let c := s.aon.cal
    let s1 := (((s.setReg Blk.aon 0x14C (dateWord c)).setReg Blk.aon 0x150 (timeWord c)).setReg Blk.aon 0x154
      (BitVec.ofNat 32 c.sub)).setPair Blk.aon 0x158 s.tbNow
    done s { (s1.setReg Blk.aon 0x148 (BitVec.ofNat 32 ((fld (s1.reg Blk.aon 0x148) 0 16 + 1) % 65536))) with aon.capDue := false }
  else done s s

/-- The staged date and time (R145). -/
def State.stagedCal (s : State) : Calendar :=
  let d := s.reg Blk.aon 0x160
  let t := s.reg Blk.aon 0x164
  { year := fld d 16 12, month := fld d 8 4, day := fld d 0 5, hour := fld t 16 5, minute := fld t 8 6
    second := fld t 0 6, sub := fld (s.reg Blk.aon 0x168) 0 15 }

/-- The lowest reason code of R146 whose condition holds. -/
def calReason (c : Calendar) (busy : Bool) : Option Nat :=
  if c.year < 2000 || 2399 < c.year then some 1
  else if c.month = 0 || 12 < c.month then some 2
  else if c.day = 0 || monthLen c.year c.month < c.day then some 3
  else if 23 < c.hour then some 4
  else if 59 < c.minute then some 5
  else if 59 < c.second then some 6
  else if busy then some 7
  else none

/-- A write of 1 to AON_CAL_COMMIT.GO (R145, R146, R158). -/
def State.calCommit (s : State) : State :=
  match calReason s.stagedCal s.aon.commit.isSome with
  | some r => s.bumpInfo Blk.aon 6 0x180 (at_ r 0 4)
  | none => { s with aon.commit := some s.stagedCal }
/-- CAL_COMMIT. -/
def execCalCommit (s : State) : Host.Outcome State Fault Refusal := done s s.calCommit

/-! ## Barometer -/

/-- Scale of an ADC channel (R163). -/
def adcScale (ch : Nat) : Nat := if ch = 4 ∨ ch = 5 ∨ ch = 6 ∨ ch = 9 then 2 else 1
/-- Code of a voltage in microvolts (R163). -/
def adcCode (ch uv : Nat) : Nat := min 4095 (uv * 4096 / (1800000 * adcScale ch))

/-- The channel the ADC samples next: enabled, in ascending order, in turn (R164). -/
def State.adcNext (s : State) : Option Nat :=
  let en := fld (s.reg Blk.baro 0x100) 0 16
  match s.baro.lastCh with
  | none => lowest 16 (bit en)
  | some l => match lowest 16 (fun k => bit en k && l < k) with
    | some k => some k
    | none => lowest 16 (bit en)

/-- One threshold status after a sample (R165): the status and the run of samples against it. -/
def thrStep (status below : Bool) (run persist : Nat) : Bool × Nat :=
  if below = status then (status, 0)
  else if persist ≤ run then (below, 0)
  else (status, run + 1)

/-- ADC_SAMPLE: the ADC samples its next enabled channel, at `uv` microvolts (R163 to R165). In Calm it does so only
with CALM_SCAN. -/
def execAdcSample (uv : Nat) (s : State) : Host.Outcome State Fault Refusal :=
  if s.aon.pwr = 0 ∧ fld (s.reg Blk.baro 0x100) 16 1 = 0 then done s s
  else match s.adcNext with
  | none => done s s
  | some k =>
    let code := adcCode k uv
    let thr := s.reg Blk.baro (0x180 + 4 * k)
    let persist := fld thr 24 3
    let (lo, loN) := thrStep (s.baro.loStatus.toNat.testBit k) (code < fld thr 0 12) (nget s.baro.loRun k) persist
    let (hi, hiN) := thrStep (s.baro.hiStatus.toNat.testBit k) (fld thr 12 12 < code) (nget s.baro.hiRun k) persist
    let rises := b2n (lo && !s.baro.loStatus.toNat.testBit k) + b2n (hi && !s.baro.hiStatus.toNat.testBit k)
    let s1 := s.setReg Blk.baro (0x140 + 4 * k) (0x8000#32 ||| BitVec.ofNat 32 code)
    let s2 := { s1 with
      baro.lastCh := some k
      baro.loStatus := BitVec.ofNat 16 (setBit s.baro.loStatus.toNat k lo)
      baro.hiStatus := BitVec.ofNat 16 (setBit s.baro.hiStatus.toNat k hi)
      baro.loRun := nset s.baro.loRun k loN, baro.hiRun := nset s.baro.hiRun k hiN }
    let s3 := s2.bumpBy Blk.baro 3 rises
    if s.aon.pwr = 0 ∧ 0 < rises ∧ fld thr 27 1 = 1 then done s (s3.wake (s3.aon.wakeSrc ||| 0x4000)) else done s s3

/-- BARO_THR_WRITE: a write of BARO_THRk restarts the counting of consecutive samples for channel k (R165). -/
def State.baroThrWrite (s : State) (k : Nat) (v : Word) : State :=
  { (s.setReg Blk.baro (0x180 + 4 * k) (v &&& 0x0FFFFFFF)) with
    baro.loRun := nset s.baro.loRun k 0, baro.hiRun := nset s.baro.hiRun k 0 }
def execBaroThrWrite (k : Fin 16) (v : Word) (s : State) : Host.Outcome State Fault Refusal :=
  done s (s.baroThrWrite k.val v)

/-- BARO_BO_CORE_WRITE: the threshold takes effect, 70 at most (R168, `State.boThr`). -/
def execBaroBoCoreWrite (v : Word) (s : State) : Host.Outcome State Fault Refusal :=
  done s (s.setReg Blk.baro 0x110 (v &&& 0xFF))

/-- A cause of R166 after an update: true at or above the limit, away when every sensor is at limit − 3 °C or below. -/
def State.tempCause (s : State) (old : Bool) (lim : Nat) : Bool :=
  let read := fun n => s.reg Blk.baro (0x1C0 + 4 * n)
  let valid := fun n => fld (read n) 16 1 == 1
  if (List.range 8).any (fun n => valid n && decide ((16 * lim : Int) ≤ sgn 16 (fld (read n) 0 16))) then true
  else if (List.range 8).all (fun n => !valid n || decide (sgn 16 (fld (read n) 0 16) ≤ 16 * ((lim : Int) - 3))) then false
  else old

/-- TEMP_UPDATE: a sensor is read, in 1/16 °C (R166, R167, R170, R172). -/
def execTempUpdate (n : Fin 8) (temp : BitVec 16) (s : State) : Host.Outcome State Fault Refusal :=
  let s1 := s.setReg Blk.baro (0x1C0 + 4 * n.val) (0x10000#32 ||| BitVec.ofNat 32 temp.toNat)
  let warn := s1.tempCause s.baro.tempWarn s1.tempWarnLim
  let crit := s1.tempCause s.baro.tempCrit s1.tempCritLim
  let s2 := { s1 with baro.tempWarn := warn, baro.tempCrit := crit }
  let s3 := if warn && !s.baro.tempWarn then s2.bump Blk.baro 4 else s2
  if crit && !s.baro.tempCrit && !s.baro.held then done s (s3.classDFault 3) else done s s3

/-- CORE_BROWNOUT: VDD_CORE or VDD_SRAM is below its threshold; both in one episode count as one (R167, R170). -/
def execCoreBrownout (core sram : Bool) (s : State) : Host.Outcome State Fault Refusal :=
  if s.aon.pwr = 0 ∨ (core || sram) = false then done s s
  else
    let s1 := { s with baro.boCore := s.baro.boCore || core, baro.boSram := s.baro.boSram || sram, baro.held := true }
    let s2 := if s.baro.held then s1 else s1.bump Blk.baro 2
    if s.baro.boAon then done s s2 else done s (s2.classDFault (if core then 1 else 2))

/-- BROWNOUT_RELEASE: the rails have stayed at or above their release levels for 1 ms; the held reset ends (R167). -/
def execBrownoutRelease (s : State) : Host.Outcome State Fault Refusal :=
  done s { s with baro.boCore := false, baro.boSram := false, baro.held := false }

/-- AON_BROWNOUT: VDD_AON below 0.700 V and above its power-on-reset threshold: Class G (R167, R170, R1087). `low`
false is the rail's return. -/
def execAonBrownout (low : Bool) (s : State) : Host.Outcome State Fault Refusal :=
  if s.aon.porHeld then done s s
  else if low && !s.baro.boAon then
    let s1 := { s with baro.boAon := true }
    done s ((if s.baro.held then { s1 with rst.classD := none } else s1).graveFault 4 Blk.aon 0)
  else done s { s with baro.boAon := low }

end Sys2Proof.Machine
end

