-- ==== Sys2Proof/Machine/Crypto.lean ====
section
/-! DEFINITION. Sys2Proof/Machine/Crypto.lean: the functions that Security and boot cite by name: SHA-384, HMAC,
AES-256 in GCM and XTS, and ECDSA P-384 verification. PRESUMED: taken from the standards those names stand for. -/
namespace Sys2Proof.Machine
open Sys2Proof

/-! ## SHA-384 -/

/-- Big-endian value of a list of bytes. -/
def beNat (l : List Byte) : Nat := l.foldl (fun n b => 256 * n + b.toNat) 0
/-- The n bytes of v, highest first. -/
def beBytes (n v : Nat) : List Byte := (leBytes n v).reverse

def shaK0 : List (BitVec 64) := [
  0x428a2f98d728ae22, 0x7137449123ef65cd, 0xb5c0fbcfec4d3b2f, 0xe9b5dba58189dbbc,
  0x3956c25bf348b538, 0x59f111f1b605d019, 0x923f82a4af194f9b, 0xab1c5ed5da6d8118,
  0xd807aa98a3030242, 0x12835b0145706fbe, 0x243185be4ee4b28c, 0x550c7dc3d5ffb4e2,
  0x72be5d74f27b896f, 0x80deb1fe3b1696b1, 0x9bdc06a725c71235, 0xc19bf174cf692694,
  0xe49b69c19ef14ad2, 0xefbe4786384f25e3, 0x0fc19dc68b8cd5b5, 0x240ca1cc77ac9c65]
def shaK1 : List (BitVec 64) := [
  0x2de92c6f592b0275, 0x4a7484aa6ea6e483, 0x5cb0a9dcbd41fbd4, 0x76f988da831153b5,
  0x983e5152ee66dfab, 0xa831c66d2db43210, 0xb00327c898fb213f, 0xbf597fc7beef0ee4,
  0xc6e00bf33da88fc2, 0xd5a79147930aa725, 0x06ca6351e003826f, 0x142929670a0e6e70,
  0x27b70a8546d22ffc, 0x2e1b21385c26c926, 0x4d2c6dfc5ac42aed, 0x53380d139d95b3df,
  0x650a73548baf63de, 0x766a0abb3c77b2a8, 0x81c2c92e47edaee6, 0x92722c851482353b]
def shaK2 : List (BitVec 64) := [
  0xa2bfe8a14cf10364, 0xa81a664bbc423001, 0xc24b8b70d0f89791, 0xc76c51a30654be30,
  0xd192e819d6ef5218, 0xd69906245565a910, 0xf40e35855771202a, 0x106aa07032bbd1b8,
  0x19a4c116b8d2d0c8, 0x1e376c085141ab53, 0x2748774cdf8eeb99, 0x34b0bcb5e19b48a8,
  0x391c0cb3c5c95a63, 0x4ed8aa4ae3418acb, 0x5b9cca4f7763e373, 0x682e6ff3d6b2b8a3,
  0x748f82ee5defb2fc, 0x78a5636f43172f60, 0x84c87814a1f0ab72, 0x8cc702081a6439ec]
def shaK3 : List (BitVec 64) := [
  0x90befffa23631e28, 0xa4506cebde82bde9, 0xbef9a3f7b2c67915, 0xc67178f2e372532b,
  0xca273eceea26619c, 0xd186b8c721c0c207, 0xeada7dd6cde0eb1e, 0xf57d4f7fee6ed178,
  0x06f067aa72176fba, 0x0a637dc5a2c898a6, 0x113f9804bef90dae, 0x1b710b35131c471b,
  0x28db77f523047d84, 0x32caab7b40c72493, 0x3c9ebe0a15c9bebc, 0x431d67c49c100d4c,
  0x4cc5d4becb3e42b6, 0x597f299cfc657e2a, 0x5fcb6fab3ad6faec, 0x6c44198c4a475817]
/-- Round constants. -/
def shaK : List (BitVec 64) := shaK0 ++ shaK1 ++ shaK2 ++ shaK3
/-- Initial hash value of SHA-384. -/
def shaInit : List (BitVec 64) := [
  0xcbbb9d5dc1059ed8, 0x629a292a367cd507, 0x9159015a3070dd17, 0x152fecd8f70e5939,
  0x67332667ffc00b31, 0x8eb44a8768581511, 0xdb0c2e0d64f98fa7, 0x47b5481dbefa4fa4]

def rotr (x : BitVec 64) (n : Nat) : BitVec 64 := x.rotateRight n
/-- One more word of the message schedule: the list holds the words so far, newest first. -/
def shaNext (w : List (BitVec 64)) : BitVec 64 :=
  let g := fun i => (w[i]?).getD 0
  let a := g 14
  let b := g 1
  (rotr b 19 ^^^ rotr b 61 ^^^ (b >>> 6)) + g 6 + (rotr a 1 ^^^ rotr a 8 ^^^ (a >>> 7)) + g 15
def shaSchedule : Nat → List (BitVec 64) → List (BitVec 64)
  | 0, w => w
  | n + 1, w => shaSchedule n (shaNext w :: w)
/-- One round on the eight working words. -/
def shaRound (v : List (BitVec 64)) (kw : BitVec 64 × BitVec 64) : List (BitVec 64) :=
  match v with
  | [a, b, c, d, e, f, g, h] =>
    let t1 := h + (rotr e 14 ^^^ rotr e 18 ^^^ rotr e 41) + ((e &&& f) ^^^ (~~~e &&& g)) + kw.1 + kw.2
    let t2 := (rotr a 28 ^^^ rotr a 34 ^^^ rotr a 39) + ((a &&& b) ^^^ (a &&& c) ^^^ (b &&& c))
    [t1 + t2, a, b, c, d + t1, e, f, g]
  | _ => v
/-- One 128-byte block. -/
def shaBlock (h : List (BitVec 64)) (blk : List Byte) : List (BitVec 64) :=
  let w := (List.range 16).map (fun i => BitVec.ofNat 64 (beNat ((blk.drop (8 * i)).take 8)))
  let ws := (shaSchedule 64 w.reverse).reverse
  (h.zip ((shaK.zip ws).foldl shaRound h)).map (fun p => p.1 + p.2)
/-- Blocks of a padded message. -/
def shaBlocks : Nat → List (BitVec 64) → List Byte → List (BitVec 64)
  | 0, h, _ => h
  | n + 1, h, l => shaBlocks n (shaBlock h (l.take 128)) (l.drop 128)
/-- SHA-384 of a message, 48 bytes. -/
def sha384 (l : List Byte) : List Byte :=
  let pad := (239 - l.length % 128) % 128
  let m := l ++ (0x80 : Byte) :: List.replicate pad 0 ++ beBytes 16 (8 * l.length)
  ((shaBlocks (m.length / 128) shaInit m).take 6).flatMap (fun w => beBytes 8 w.toNat)

/-- HMAC-SHA-384. -/
def hmac384 (key msg : List Byte) : List Byte :=
  let k0 := if 128 < key.length then sha384 key else key
  let k := k0 ++ List.replicate (128 - k0.length) 0
  sha384 (k.map (fun b => b ^^^ 0x5C) ++ sha384 (k.map (fun b => b ^^^ 0x36) ++ msg))
/-- The ASCII bytes of a label. -/
def ascii (s : String) : List Byte := s.toList.map (fun c => BitVec.ofNat 8 c.toNat)

/-! ## AES-256 -/

/-- Multiplication by x in GF(2^8) of AES. -/
def xtime (b : Byte) : Byte := (b <<< 1) ^^^ (if b.msb then 0x1B else 0)
def gmulN : Nat → Byte → Byte → Byte
  | 0, _, _ => 0
  | n + 1, a, b => (if b.getLsbD 0 then a else 0) ^^^ gmulN n (xtime a) (b >>> 1)
def gmul (a b : Byte) : Byte := gmulN 8 a b
/-- Inverse in the field, 0 for 0: the 254th power. -/
def ginv (a : Byte) : Byte :=
  let a2 := gmul a a
  let a4 := gmul a2 a2
  let a8 := gmul a4 a4
  let a16 := gmul a8 a8
  let a32 := gmul a16 a16
  let a64 := gmul a32 a32
  gmul (gmul (gmul a2 a4) (gmul a8 a16)) (gmul (gmul a32 a64) (gmul a64 a64))
def sbox (b : Byte) : Byte :=
  let i := ginv b
  i ^^^ i.rotateLeft 1 ^^^ i.rotateLeft 2 ^^^ i.rotateLeft 3 ^^^ i.rotateLeft 4 ^^^ 0x63
def invSbox (b : Byte) : Byte := ginv (b.rotateLeft 1 ^^^ b.rotateLeft 3 ^^^ b.rotateLeft 6 ^^^ 0x05)
def xorBytes (a b : List Byte) : List Byte := (a.zip b).map (fun p => p.1 ^^^ p.2)
/-- Key schedule: words of 4 bytes, newest first; i is the index of the next word. -/
def aesExpand : Nat → Nat → Byte → List (List Byte) → List (List Byte)
  | 0, _, _, w => w
  | n + 1, i, rc, w =>
    let p := w.headD []
    let t := if i % 8 = 0 then xorBytes ((p.drop 1 ++ p.take 1).map sbox) [rc, 0, 0, 0]
      else if i % 8 = 4 then p.map sbox else p
    aesExpand n (i + 1) (if i % 8 = 0 then xtime rc else rc) (xorBytes t ((w[7]?).getD []) :: w)
/-- The 15 round keys of a 32-byte key. -/
def aesKeys (key : List Byte) : List (List Byte) :=
  let w := (List.range 8).map (fun i => (key.drop (4 * i)).take 4)
  let all := (aesExpand 52 8 1 w.reverse).reverse
  (List.range 15).map (fun r => ((all.drop (4 * r)).take 4).flatten)
def shiftRows (s : List Byte) : List Byte := (List.range 16).map (fun i => (s[(i + 4 * (i % 4)) % 16]?).getD 0)
def invShiftRows (s : List Byte) : List Byte := (List.range 16).map (fun i => (s[(i + 12 * (i % 4)) % 16]?).getD 0)
/-- MixColumns with the row (a, b, c, d) of its matrix. -/
def mixCols (a b c d : Byte) (s : List Byte) : List Byte :=
  (List.range 16).map (fun i =>
    let g := fun k => (s[i / 4 * 4 + (i + k) % 4]?).getD 0
    gmul a (g 0) ^^^ gmul b (g 1) ^^^ gmul c (g 2) ^^^ gmul d (g 3))
/-- AES-256 of one block. -/
def aesEnc (key blk : List Byte) : List Byte :=
  match aesKeys key with
  | k0 :: ks =>
    let mid := (ks.take 13).foldl (fun s k => xorBytes (mixCols 2 3 1 1 (shiftRows (s.map sbox))) k) (xorBytes blk k0)
    xorBytes (shiftRows (mid.map sbox)) (ks.getLastD [])
  | [] => blk
/-- Inverse of aesEnc. -/
def aesDec (key blk : List Byte) : List Byte :=
  match (aesKeys key).reverse with
  | kl :: ks =>
    let mid := (ks.take 13).foldl (fun s k => mixCols 14 11 13 9 (xorBytes ((invShiftRows s).map invSbox) k))
      (xorBytes blk kl)
    xorBytes ((invShiftRows mid).map invSbox) (ks.getLastD [])
  | [] => blk

/-! ## GCM -/

/-- Multiplication in GF(2^128) of GCM: bit 0 of the field is the most significant bit of the block. -/
def ghMul : Nat → Nat → Nat → Nat → Nat
  | 0, _, _, z => z
  | n + 1, x, v, z =>
    ghMul n x (if v % 2 = 1 then (v / 2) ^^^ (0xE1 * 2 ^ 120) else v / 2) (if x.testBit n then z ^^^ v else z)
def chunk16 : Nat → List Byte → List (List Byte)
  | 0, _ => []
  | n + 1, l => (l.take 16 ++ List.replicate (16 - l.length) 0) :: chunk16 n (l.drop 16)
def blocks16 (l : List Byte) : List (List Byte) := chunk16 ((l.length + 15) / 16) l
def ghash (h : Nat) (l : List (List Byte)) : Nat := l.foldl (fun y b => ghMul 128 (y ^^^ beNat b) h 0) 0
/-- Counter mode from a counter block value. -/
def gcmCtr (key : List Byte) (j : Nat) (l : List Byte) : List Byte :=
  ((blocks16 l).zipIdx.flatMap (fun b =>
    let c := j / 2 ^ 32 * 2 ^ 32 + (j + b.2) % 2 ^ 32
    xorBytes b.1 (aesEnc key (beBytes 16 c)))).take l.length
/-- The GCM tag over additional data and a ciphertext. -/
def gcmTag (key iv aad c : List Byte) : List Byte :=
  let h := beNat (aesEnc key (List.replicate 16 0))
  let j0 := beNat iv * 2 ^ 32 + 1
  let s := ghash h (blocks16 aad ++ blocks16 c ++ [beBytes 8 (8 * aad.length) ++ beBytes 8 (8 * c.length)])
  xorBytes (beBytes 16 s) (aesEnc key (beBytes 16 j0))
/-- AES-256-GCM with a 12-byte IV: ciphertext (or plaintext) of the data. -/
def gcmCrypt (key iv l : List Byte) : List Byte := gcmCtr key (beNat iv * 2 ^ 32 + 2) l

/-! ## XTS -/

/-- Multiplication of a tweak by x, little-endian. -/
def xtsNext (t : List Byte) : List Byte :=
  let v := leNat t
  leBytes 16 ((2 * v % 2 ^ 128) ^^^ (if v < 2 ^ 127 then 0 else 0x87))
def xtsGo (k : List Byte → List Byte) : List Byte → List (List Byte) → List Byte
  | _, [] => []
  | t, b :: bs => xorBytes (k (xorBytes b t)) t ++ xtsGo k (xtsNext t) bs
/-- AES-256-XTS of a unit of whole blocks, 64-byte key, unit number as tweak. -/
def xtsEnc (key : List Byte) (unit : Nat) (l : List Byte) : List Byte :=
  xtsGo (aesEnc (key.take 32)) (aesEnc (key.drop 32) (leBytes 16 unit)) (blocks16 l)
def xtsDec (key : List Byte) (unit : Nat) (l : List Byte) : List Byte :=
  xtsGo (aesDec (key.take 32)) (aesEnc (key.drop 32) (leBytes 16 unit)) (blocks16 l)

/-! ## ECDSA P-384 -/

def ecP : Nat := 2 ^ 384 - 2 ^ 128 - 2 ^ 96 + 2 ^ 32 - 1
def ecB : Nat := 0xb3312fa7e23ee7e4988e056be3f82d19181d9c6efe8141120314088f5013875ac656398d8a2ed19d2a85c8edd3ec2aef
def ecGx : Nat := 0xaa87ca22be8b05378eb1c71ef320ad746e1d3b628ba79b9859f741e082542a385502f25dbf55296c3a545e3872760ab7
def ecGy : Nat := 0x3617de4a96262c6f5d9e98bf9292dc29f8f41dbd289a147ce9da3113b5f0b8c00a60b1ce1d7e819d7a431d7c90ea0e5f
def ecN : Nat := 0xffffffffffffffffffffffffffffffffffffffffffffffffc7634d81f4372ddf581a0db248b0a77aecec196accc52973
/-- b^e mod m over the low `fuel` bits of e. -/
def powMod (m : Nat) : Nat → Nat → Nat → Nat → Nat
  | 0, _, _, r => r
  | fuel + 1, b, e, r => powMod m fuel (b * b % m) (e / 2) (if e % 2 = 1 then r * b % m else r)
/-- Inverse modulo a prime. -/
def invMod (m a : Nat) : Nat := powMod m 384 (a % m) (m - 2) 1
/-- Point addition; none is the point at infinity. -/
def ecAdd : Option (Nat × Nat) → Option (Nat × Nat) → Option (Nat × Nat)
  | none, q => q
  | p, none => p
  | some (x1, y1), some (x2, y2) =>
    let go := fun (num den : Nat) =>
      let l := num * invMod ecP den % ecP
      let x := (l * l + 2 * ecP - x1 - x2) % ecP
      some (x, (l * (x1 + ecP - x) + ecP - y1) % ecP)
    if x1 = x2 then
      if (y1 + y2) % ecP = 0 then none else go (3 * x1 * x1 + ecP - 3) (2 * y1)
    else go (y2 + ecP - y1) (x2 + ecP - x1)
def ecMul : Nat → Nat → Option (Nat × Nat) → Option (Nat × Nat) → Option (Nat × Nat)
  | 0, _, _, r => r
  | fuel + 1, k, p, r => ecMul fuel (k / 2) (ecAdd p p) (if k % 2 = 1 then ecAdd r p else r)
/-- Verifies a signature r, s by the key x, y over a 48-byte digest; every field is a 48-byte big-endian string. -/
def ecdsaVerify (pub sig digest : List Byte) : Bool :=
  let x := beNat (pub.take 48)
  let y := beNat (pub.drop 48)
  let r := beNat (sig.take 48)
  let t := beNat (sig.drop 48)
  let onCurve := x < ecP && y < ecP && (y * y) % ecP == (x * x * x + (ecP - 3) * x + ecB) % ecP
  if !onCurve || r == 0 || ecN ≤ r || t == 0 || ecN ≤ t then false
  else
    let w := invMod ecN t
    match ecAdd (ecMul 384 (beNat digest * w % ecN) (some (ecGx, ecGy)) none) (ecMul 384 (r * w % ecN) (some (x, y)) none) with
    | none => false
    | some (px, _) => px % ecN == r

/-! ## Deterministic random bits (R1043, R1045) -/

/-- One generate request of the DRBG for n bytes: the bytes are free. -/
def State.drbg (s : State) (n : Nat) : List Byte × State :=
  { s with sec.drbgReqs := s.sec.drbgReqs + 1 }.freeBytes n

end Sys2Proof.Machine
end

