-- ==== Sys2Proof/Machine/Flash.lean ====
section
/-! DEFINITION. Sys2Proof/Machine/Flash.lean: the xSPI flash, the image slots in it (R227, R228) and the flash log
(R1020 to R1022, R1031). -/
namespace Sys2Proof.Machine
open Sys2Proof

/-! ## Bytes -/

/-- Bytes of the flash, erased 0xFF where none is listed. -/
def erased : Nat → Byte := fun _ => 0xFF
def State.flashByte (s : State) (a : Nat) : Byte := Tab.get erased s.pins.flash a
def State.flashBytes (s : State) (a n : Nat) : List Byte := Tab.slice erased s.pins.flash a n
/-- Programming clears bits; it sets none. -/
def programBytes (t : Tab Byte) (a : Nat) (l : List Byte) : Tab Byte :=
  Tab.put erased t a (List.zipWith (fun old new => old &&& new) (Tab.slice erased t a l.length) l)
def State.flashProgram (s : State) (a : Nat) (l : List Byte) : State :=
  { s with pins.flash := programBytes s.pins.flash a l }
/-- Erases whole 64 KiB sectors from a. -/
def State.flashErase (s : State) (a sectors : Nat) : State :=
  { s with pins.flash := Tab.clear (fun k => a ≤ k && k < a + sectors * 0x10000) s.pins.flash }
/-- Slot bases of R227: A and B. -/
def slotAddr (slot : Nat) : Nat := if slot = 0 then 0 else 0x800000

/-! ## Image headers -/

/-- FW_KEYHASH_i of the OTP array. -/
def State.fwKeyHash (s : State) (i : Nat) : BitVec 384 := s.sec.otp.fwKeyHash.getD i 0
/-- SHA-384 of a key matches an active firmware key slot (R1033); the slot. -/
def State.keySlot (s : State) (pub : List Byte) : Option Nat :=
  let h := beNat (sha384 pub)
  lowest 4 (fun i => (s.fwKeyHash i).toNat != 0 && !s.sec.otp.revoke.toNat.testBit i && (s.fwKeyHash i).toNat == h)

/-- The first of checks 1 to 6 of R228 that a 512-byte header fails. -/
def State.headerReason (s : State) (h : List Byte) : Option Nat :=
  let len := bytesAt h 8 4
  let entry := bytesAt h 0xC 4
  let zero := fun o n => ((h.drop o).take n).all (fun b => b == 0)
  if bytesAt h 0 4 ≠ 0x464E4C43 then some 1
  else if bytesAt h 4 2 ≠ 1 || !(len % 16 == 0 && 1024 ≤ len && len ≤ 393216) || !(entry % 2 == 0 && entry < len) ||
      63 < bytesAt h 0x10 4 || !(zero 6 2 && zero 0x24 28 && zero 0x130 208) then some 2
  else if bytesAt h 0x20 2 ≠ 0x960 || 0xB0 < bytesAt h 0x22 2 then some 3
  else if (s.keySlot ((h.drop 0x70).take 96)).isNone then some 4
  else if !ecdsaVerify ((h.drop 0x70).take 96) ((h.drop 0xD0).take 96) (sha384 (h.take 0x70)) then some 5
  else if bytesAt h 0x10 4 < s.sec.otp.rollback then some 6
  else none
/-- The fields of a header that the ROM and the firmware keep. -/
def parseImage (slot : Nat) (h : List Byte) : Image :=
  { slot := slot, len := bytesAt h 8 4, entry := bytesAt h 0xC 4, rollback := bytesAt h 0x10 4
    release := bytesAt h 0x14 4, vcs := bytesAt h 0x18 4, seq := bytesAt h 0x1C 4 }
def payloadHash (h : List Byte) : List Byte := (h.drop 0x40).take 48
/-- SEQ of a flash slot; 0 with a wrong MAGIC (R288). -/
def State.slotMagic (s : State) (slot : Nat) : Bool := leNat (s.flashBytes (slotAddr slot) 4) == 0x464E4C43
def State.slotSeq (s : State) (slot : Nat) : Nat :=
  if s.slotMagic slot then leNat (s.flashBytes (slotAddr slot + 0x1C) 4) else 0

/-! ## Flash log -/

abbrev logBase : Nat := 0xF00000
/-- Whether a 32-byte record is valid: MAGIC and CRC pass (R1022). -/
def logValid (r : List Byte) : Bool := bytesAt r 0 2 == 0x4C47 && bytesAt r 0x1C 4 == crc32c (r.take 28)
/-- Places of the ring in which something is programmed. -/
def State.logPlaces (s : State) : List Nat :=
  (s.pins.flash.filterMap (fun e => if logBase ≤ e.1 ∧ e.1 < 0x1000000 then some ((e.1 - logBase) / 32) else none)).eraseDups
/-- Inserts by LOG_SEQ, ascending. -/
def logInsert (x : Nat × Nat) : List (Nat × Nat) → List (Nat × Nat)
  | [] => [x]
  | y :: t => if x.1 < y.1 then x :: y :: t else y :: logInsert x t
/-- The valid records: LOG_SEQ and place, in ascending LOG_SEQ. -/
def State.logIndex (s : State) : List (Nat × Nat) :=
  (s.logPlaces.filter (fun p => logValid (s.flashBytes (logBase + 32 * p) 32))).foldl
    (fun l p => logInsert (leNat (s.flashBytes (logBase + 32 * p + 4) 4), p) l) []
/-- The log as LOG_READ presents it. -/
def State.logText (s : State) : List Byte := s.logIndex.flatMap (fun e => s.flashBytes (logBase + 32 * e.2) 32)
/-- LOG_SEQ and the place of the next record (R1031). -/
def State.logNext (s : State) : Nat × Nat :=
  match s.logIndex.getLast? with
  | none => (0, 0)
  | some (q, p) => (q + 1, (p + 1) % 32768)

/-- LOG_RECORD_WRITE (R1020, R1021): the oldest held record goes to the ring; its sector is erased before the ring
reaches it. -/
def execLogRecordWrite (s : State) : Host.Outcome State Fault Refusal :=
  done s (match s.fmn.logHeld with
    | [] => s
    | r :: t =>
      if s.fmn.flashBusy || s.rst.rom != .firmware || s.aon.pwr = 0 || s.frozen then s
      else
        let body := patch (patch (r.take 28) 4 4 s.fmn.logSeq) 0x12 1 (b2n s.fmn.logLost)
        let full := body ++ leBytes 4 (crc32c body)
        let p := s.fmn.logPos
        let s1 := if p % 2048 = 0 then s.flashErase (logBase + 32 * p) 1 else s
        let s2 := s1.flashProgram (logBase + 32 * p) full
        { s2 with fmn.logHeld := t, fmn.logLost := false, fmn.logSeq := (s.fmn.logSeq + 1) % 2 ^ 32, fmn.logPos := (p + 1) % 32768 })

/-! ## Image reload (R668, R678) -/

/-- IMAGE_RELOAD (R668): the oldest page waiting is read from the running slot's payload and the whole payload is
checked; a mismatch, a failed read, or 20 ms passed is Class D. -/
def execImageReload (readOk : Bool) (s : State) : Host.Outcome State Fault Refusal :=
  done s (match s.mem.reloads with
    | [] => s
    | (page, at0) :: t =>
      let im := s.rst.image
      let n := min 4096 (im.len - 4096 * page)
      let src := slotAddr im.slot + 0x200 + 4096 * page
      let s1 := s.store (0x30100000 + 4096 * page) (s.flashBytes src n)
      let ok := readOk && s.clk.now ≤ at0 + 20 * tbMs &&
        sha384 (s1.mbytes 0x30100000 im.len) == payloadHash (s.flashBytes (slotAddr im.slot) 0x200)
      if ok then
        ({ s1 with mem.reloads := t }.bump Blk.mem 6).logRecord 3 2 Blk.mem 0xFF (4096 * page) 0
      else s.classDFault 7)

end Sys2Proof.Machine
end

