-- ==== Sys2Proof/Machine/Num.lean ====
section
/-! DEFINITION. Sys2Proof/Machine/Num.lean: number formats (R615 to R629): exact values, RNE32 of R576, binary32
arithmetic with one rounding per step, decoding and encoding of every format. -/
namespace Sys2Proof.Machine
open Sys2Proof

/-! ## Values -/

/-- A floating-point value: a number is (−1)^neg · m · 2^e; a zero keeps its sign. -/
inductive Fl where
  | nan
  | inf (neg : Bool)
  | fin (neg : Bool) (m : Nat) (e : Int)
deriving DecidableEq, Repr

/-- 2^e as an exact rational. -/
def pow2 (e : Int) : Rat := if 0 ≤ e then ((2 ^ e.toNat : Nat) : Rat) else 1 / ((2 ^ (-e).toNat : Nat) : Rat)
/-- The number m · 2^e with a sign. -/
def dyad (neg : Bool) (m : Nat) (e : Int) : Rat := if neg then -((m : Rat) * pow2 e) else (m : Rat) * pow2 e
/-- The exact value of a finite number; 0 for the others. -/
def Fl.rat : Fl → Rat
  | .fin s m e => dyad s m e
  | _ => 0
def Fl.zero (neg : Bool := false) : Fl := .fin neg 0 0
def Fl.isNan : Fl → Bool
  | .nan => true
  | _ => false
def Fl.isZero : Fl → Bool
  | .fin _ m _ => m == 0
  | _ => false
def Fl.neg? : Fl → Bool
  | .nan => false
  | .inf s => s
  | .fin s _ _ => s
def Fl.finite : Fl → Bool
  | .fin _ _ _ => true
  | _ => false

/-! ## Rounding -/

/-- n / d to the nearest integer, halves to even. -/
def evenDiv (n d : Nat) : Nat :=
  let q := n / d
  let r := n % d
  if 2 * r < d then q else if d < 2 * r then q + 1 else if q % 2 = 0 then q else q + 1
/-- floor(log2(n / d)) of a positive fraction. -/
def log2Frac (n d : Nat) : Int :=
  let k : Int := (Nat.log2 n : Int) - Nat.log2 d
  if 0 ≤ k then (if d * 2 ^ k.toNat ≤ n then k else k - 1)
  else (if d ≤ n * 2 ^ (-k).toNat then k else k - 1)
/-- |x| rounded to p significant bits with no bit below 2^emin, ties to even: mantissa and exponent. -/
def roundTo (p : Nat) (emin : Int) (x : Rat) : Nat × Int :=
  let n := x.num.natAbs
  if n = 0 then (0, emin)
  else
    let q := max emin (log2Frac n x.den - ((p : Int) - 1))
    (if 0 ≤ q then evenDiv n (x.den * 2 ^ q.toNat) else evenDiv (n * 2 ^ (-q).toNat) x.den, q)
/-- RNE32 of R576: to binary32, to nearest, ties to even, subnormals kept, overflow to infinity. A zero result takes the
sign `z`. -/
def rne32s (z : Bool) (x : Rat) : Fl :=
  let (m, q) := roundTo 24 (-149) x
  let neg := if x.num = 0 then z else decide (x.num < 0)
  if 0 ≤ q ∧ 2 ^ 128 ≤ m * 2 ^ q.toNat then .inf neg else .fin neg m q
def rne32 (x : Rat) : Fl := rne32s false x

/-! ## Binary32 arithmetic, one rounding per step -/

def Fl.negate : Fl → Fl
  | .nan => .nan
  | .inf s => .inf (!s)
  | .fin s m e => .fin (!s) m e
def fadd : Fl → Fl → Fl
  | .nan, _ => .nan
  | _, .nan => .nan
  | .inf a, .inf b => if a = b then .inf a else .nan
  | .inf a, .fin _ _ _ => .inf a
  | .fin _ _ _, .inf b => .inf b
  | .fin a m e, .fin b n f => rne32s (a && b) (dyad a m e + dyad b n f)
def fsub (x y : Fl) : Fl := fadd x y.negate
def fmul : Fl → Fl → Fl
  | .nan, _ => .nan
  | _, .nan => .nan
  | .inf a, .inf b => .inf (a != b)
  | .inf a, .fin b m _ => if m = 0 then .nan else .inf (a != b)
  | .fin a m _, .inf b => if m = 0 then .nan else .inf (a != b)
  | .fin a m e, .fin b n f => rne32s (a != b) (dyad a m e * dyad b n f)
def fdivide : Fl → Fl → Fl
  | .nan, _ => .nan
  | _, .nan => .nan
  | .inf _, .inf _ => .nan
  | .inf a, .fin b _ _ => .inf (a != b)
  | .fin a _ _, .inf b => Fl.zero (a != b)
  | .fin a m e, .fin b n f =>
    if n = 0 then (if m = 0 then .nan else .inf (a != b))
    else rne32s (a != b) (dyad a m e / dyad b n f)
/-- A square root rounded once: `isqrt` of a scaled numerator, with a sticky bit. -/
def sqrtRat (x : Rat) : Rat :=
  -- 80 fraction bits beyond the leading one are far below half a unit of any binary32 result
  let k : Nat := 400
  let n := x.num.natAbs * 2 ^ (2 * k) / x.den
  let r := Nat.sqrt n
  let sticky := r * r != n || x.num.natAbs * 2 ^ (2 * k) % x.den != 0
  ((2 * r + b2n sticky : Nat) : Rat) / ((2 ^ (k + 1) : Nat) : Rat)
def fsqrt : Fl → Fl
  | .nan => .nan
  | .inf s => if s then .nan else .inf false
  | .fin s m e => if m = 0 then .fin s m e else if s then .nan else rne32 (sqrtRat (dyad false m e))
/-- x < y; false with a NaN. -/
def flt : Fl → Fl → Bool
  | .nan, _ => false
  | _, .nan => false
  | .inf a, .inf b => a && !b
  | .inf a, _ => a
  | _, .inf b => !b
  | .fin a m e, .fin b n f => decide (dyad a m e < dyad b n f)
def fle : Fl → Fl → Bool
  | .nan, _ => false
  | _, .nan => false
  | x, y => !flt y x
def feq (x y : Fl) : Bool := fle x y && fle y x
/-- An exact integer as binary32. -/
def fint (n : Int) : Fl := rne32 (n : Rat)

/-! ## Codes -/

/-- A code of an IEEE 754 layout with eb exponent and fb fraction bits. -/
def ieeeDecode (eb fb : Nat) (c : Nat) : Fl :=
  let s := c.testBit (eb + fb)
  let x := c / 2 ^ fb % 2 ^ eb
  let f := c % 2 ^ fb
  let bias : Int := 2 ^ (eb - 1) - 1
  if x = 2 ^ eb - 1 then (if f = 0 then .inf s else .nan)
  else if x = 0 then .fin s f (1 - bias - fb)
  else .fin s (2 ^ fb + f) ((x : Int) - bias - fb)
/-- Code of a mantissa and exponent already rounded to the layout, without sign; none on overflow past its largest
exponent code `top`. -/
def packCode (fb : Nat) (emin : Int) (m : Nat) (q : Int) : Nat :=
  -- m < 2^fb: subnormal at q = emin; m = 2^(fb+1): the next exponent
  if m < 2 ^ fb then m else ((q - emin).toNat) * 2 ^ fb + m
/-- A finite magnitude in a layout: its code without sign. Codes run on into infinity as they do in IEEE 754. -/
def roundCode (eb fb : Nat) (x : Rat) : Nat :=
  let bias : Int := 2 ^ (eb - 1) - 1
  let emin := 1 - bias - fb
  let (m, q) := roundTo (fb + 1) emin x
  packCode fb emin m q

def decode32 (c : Nat) : Fl := ieeeDecode 8 23 c
/-- Bits of a binary32 value; a NaN is 0x7FC0_0000. -/
def encode32 : Fl → Nat
  | .nan => 0x7FC00000
  | .inf s => 0x7F800000 + 2 ^ 31 * b2n s
  | .fin s m e => min 0x7F800000 (roundCode 8 23 (dyad false m e)) + 2 ^ 31 * b2n s

/-- Levels of R617 and R618. -/
def bg4Levels : List Nat := [0, 544, 1829, 3719, 6153, 9093, 12510, 16384]
def bg6Levels : List Nat :=
  [0, 40, 135, 275, 455, 673, 925, 1212, 1531, 1881, 2262, 2673, 3112, 3580, 4076, 4599, 5149, 5726, 6328, 6956, 7609, 8287,
   8990, 9718, 10469, 11244, 12043, 12865, 13711, 14579, 15470, 16384]

/-- The formats of R615 by FORMAT code: bits of a code. -/
def fmtBits (f : Nat) : Nat :=
  match f with
  | 0 => 4
  | 1 => 8
  | 2 => 16
  | 10 => 32
  | 3 => 8
  | 4 => 8
  | 5 => 16
  | 6 => 16
  | 7 => 32
  | 8 => 4
  | 9 => 8
  | _ => 8
def fmtInt (f : Nat) : Bool := f = 0 || f = 1 || f = 2 || f = 10
def fmtBell (f : Nat) : Bool := f = 8 || f = 9
/-- FP8-E4M3: no infinity, 0x7F and 0xFF are NaN. -/
def e4m3Decode (c : Nat) : Fl :=
  if c % 128 = 0x7F then .nan
  else
    let s := c.testBit 7
    let x := c / 8 % 16
    let f := c % 8
    if x = 0 then .fin s f (-9) else .fin s (8 + f) ((x : Int) - 10)
/-- Integer code of a bell-grid code: sign times level. -/
def bellCode (f c : Nat) : Int :=
  let (s, m, l) := if f = 8 then (c.testBit 3, c % 8, bg4Levels) else (c.testBit 5, c % 32, bg6Levels)
  let v : Int := (l[m]?).getD 0
  if s then -v else v
/-- c of R576 as an integer, of the integer and bell formats. -/
def intCode (f c : Nat) : Int := if fmtBell f then bellCode f c else sgn (fmtBits f) c
/-- e of R576. -/
def fmtExp (f : Nat) : Int := if fmtBell f then -14 else 0
/-- c · 2^e of R576 as a value, without scale: exact but for INT32, which R579 rounds. -/
def fmtDecode (f c : Nat) : Fl :=
  match f with
  | 3 => e4m3Decode c
  | 4 => ieeeDecode 5 2 c
  | 5 => ieeeDecode 5 10 c
  | 6 => ieeeDecode 8 7 c
  | 7 => decode32 c
  | 10 => fint (sgn 32 c)
  | _ => rne32 ((intCode f c : Rat) * pow2 (fmtExp f))

/-- A binary32 value rounded to an integer, halves to even. -/
def evenInt (x : Rat) : Int :=
  let v : Int := evenDiv x.num.natAbs x.den
  if x.num < 0 then -v else v
/-- Index of the level nearest to a, the smaller one midway. -/
def nearestLevel (l : List Nat) (a : Rat) : Nat :=
  (l.zipIdx.foldl (fun (b : Nat × Rat) e =>
    let d := if a < (e.1 : Rat) then (e.1 : Rat) - a else a - (e.1 : Rat)
    if d < b.2 then (e.2, d) else b) (0, a)).1

/-- Encodes a binary32 value (R625 to R628): the code, and whether the element is clipped. -/
def fmtEncode (f : Nat) (v : Fl) : Nat × Bool :=
  if fmtInt f then
    let n := fmtBits f
    let lo : Int := -(2 ^ (n - 1))
    let hi : Int := 2 ^ (n - 1) - 1
    let code := fun (k : Int) => (k % 2 ^ n).toNat
    match v with
    | .nan => (0, true)
    | .inf s => (code (if s then lo else hi), true)
    | .fin s m e =>
      let k := evenInt (dyad s m e)
      if k < lo then (code lo, true) else if hi < k then (code hi, true) else (code k, false)
  else if fmtBell f then
    let l := if f = 8 then bg4Levels else bg6Levels
    let sb := if f = 8 then 8 else 32
    match v with
    | .nan => (0, true)
    | .inf s => (l.length - 1 + sb * b2n s, true)
    | .fin s m e =>
      let a := dyad false m e * 16384
      if 16384 < a then (l.length - 1 + sb * b2n s, true)
      else
        let i := nearestLevel l a
        (if i = 0 then 0 else i + sb * b2n s, false)
  else match f with
  | 3 =>
    (match v with
     | .nan => (0x7F, false)
     | .inf s => (0x7E + 128 * b2n s, true)
     | .fin s m e =>
       let (q, x) := roundTo 4 (-9) (dyad false m e)
       let c := packCode 3 (-9) q x
       if 0x7E < c then (0x7E + 128 * b2n s, true) else (c + 128 * b2n s, false))
  | 4 =>
    (match v with
     | .nan => (0x7F, false)
     | .inf s => (0x7B + 128 * b2n s, true)
     | .fin s m e =>
       let c := roundCode 5 2 (dyad false m e)
       if 0x7B < c then (0x7B + 128 * b2n s, true) else (c + 128 * b2n s, false))
  | 5 =>
    (match v with
     | .nan => (0x7E00, false)
     | .inf s => (0x7C00 + 2 ^ 15 * b2n s, false)
     | .fin s m e =>
       let c := roundCode 5 10 (dyad false m e)
       if 0x7C00 ≤ c then (0x7C00 + 2 ^ 15 * b2n s, true) else (c + 2 ^ 15 * b2n s, false))
  | 6 =>
    (match v with
     | .nan => (0x7FC0, false)
     | .inf s => (0x7F80 + 2 ^ 15 * b2n s, false)
     | .fin s m e =>
       let c := roundCode 8 7 (dyad false m e)
       if 0x7F80 ≤ c then (0x7F80 + 2 ^ 15 * b2n s, true) else (c + 2 ^ 15 * b2n s, false))
  | _ => (encode32 v, false)

end Sys2Proof.Machine
end

