-- ==== Sys2Proof/Machine/Act.lean ====
section
/-! DEFINITION. Sys2Proof/Machine/Act.lean: the functions of R580 and of R590 to R592, each the exact mathematical value at
its binary32 argument rounded once: an enclosure of 1024 fraction bits, far finer than any binary32 rounding of it needs. -/
namespace Sys2Proof.Machine
open Sys2Proof

/-! ## Fixed point -/

/-- Fraction bits of the enclosures. -/
abbrev fxBits : Nat := 1024
def fxOne : Int := 2 ^ fxBits
def toFx (x : Rat) : Int := (x * (fxOne : Rat)).floor
def ofFx (v : Int) : Rat := (v : Rat) / (fxOne : Rat)
def fxMul (a b : Int) : Int := Int.fdiv (a * b) fxOne
/-- Σ of term_k from term_0 = t, term_(k+1) = term_k · r / (k + 1). -/
def expSeries (r : Int) : Nat → Nat → Int → Int
  | 0, _, t => t
  | n + 1, k, t => t + expSeries r n (k + 1) (Int.fdiv (fxMul t r) (k + 1))
def squares : Nat → Int → Int
  | 0, v => v
  | n + 1, v => squares n (fxMul v v)
/-- e^x for |x| at most 400. -/
def expR (x : Rat) : Rat := ofFx (squares 9 (expSeries (toFx (x / 512)) 220 0 fxOne))
/-- Σ of t^(2k+1) s^k / (2k + 1): atanh for s = 1, atan for s = −1. -/
def oddSeries (t2 : Int) : Nat → Nat → Int → Int
  | 0, _, _ => 0
  | n + 1, k, p => Int.fdiv p (2 * k + 1) + oddSeries t2 n (k + 1) (fxMul p t2)
def atanhFx (t : Int) (n : Nat) : Int := oddSeries (fxMul t t) n 0 t
def atanFx (t : Int) (n : Nat) : Int := oddSeries (-(fxMul t t)) n 0 t
def ln2Fx : Int := 2 * atanhFx (toFx (1 / 3)) 340
def piFx : Int := 16 * atanFx (toFx (1 / 5)) 230 - 4 * atanFx (toFx (1 / 239)) 70
/-- 1 / sqrt(2π). -/
def phi0 : Int := (Nat.sqrt (fxOne * fxOne * fxOne / (2 * piFx)).toNat : Int)
/-- ln x of a positive x. -/
def lnR (x : Rat) : Rat :=
  let e := log2Frac x.num.natAbs x.den
  let m := x / pow2 e
  let (e, m) := if m < 3 / 2 then (e, m) else (e + 1, m / 2)
  ofFx (e * ln2Fx + 2 * atanhFx (toFx ((m - 1) / (m + 1))) 240)
/-- Σ of (−u)^n / (n! (2n + 1)). -/
def erfSeries (u : Int) : Nat → Nat → Int → Int
  | 0, _, _ => 0
  | n + 1, k, t => Int.fdiv t (2 * k + 1) + erfSeries u n (k + 1) (Int.fdiv (-(fxMul t u)) (k + 1))
/-- Φ(x) = (1 + erf(x / √2)) / 2 for |x| at most 15. -/
def normCdf (x : Rat) : Rat :=
  1 / 2 + x * ofFx (fxMul phi0 (erfSeries (toFx (x * x / 2)) 1000 0 fxOne))
def normPdf (x : Rat) : Rat := expR (-(x * x / 2)) * ofFx phi0
def sigR (x : Rat) : Rat := 1 / (1 + expR (-x))

/-! ## The functions -/

/-- Exact value at a finite argument x, or a value that rounds as it does; z is the sign of a zero that −0 gives. -/
def expF : Fl → Fl
  | .nan => .nan
  | .inf s => if s then Fl.zero else .inf false
  | .fin s m e =>
    let x := dyad s m e
    if 89 < x then .inf false else if x < -105 then Fl.zero else rne32 (expR x)
/-- ln x; −infinity at 0, NaN below. -/
def lnF : Fl → Fl
  | .nan => .nan
  | .inf s => if s then .nan else .inf false
  | .fin s m e => if m = 0 then .inf true else if s then .nan else if dyad false m e = 1 then Fl.zero else rne32 (lnR (dyad false m e))

/-- The sign-aware zero for an argument that is a zero. -/
def zeroLike (z : Bool) (x : Fl) : Fl := Fl.zero (x.neg? && z)

/-- f(x) of R580; α is ACT_PARAM; z is the free sign of a zero where the manual gives none:
for the argument −0, and where the exact value or the limit is 0. -/
def actF (code : Nat) (alpha : Fl) (z : Bool) (x : Fl) : Fl :=
  match x with
  | .nan => .nan
  | .inf neg =>
    (match code with
     | 0 => .inf neg
     | 1 => if neg then Fl.zero else .inf false
     | 2 => if neg then Fl.zero else fint 6
     | 3 => if !neg then .inf false else if alpha.isZero then Fl.zero (!alpha.neg?) else fmul alpha (.inf true)
     | 4 => if neg then Fl.zero else fint 1
     | 5 => fint (if neg then -1 else 1)
     | 9 => expF x
     | _ => if neg then Fl.zero z else .inf false)
  | .fin s m e =>
    let v := dyad s m e
    if code = 0 then x
    else if code = 3 then (if 0 ≤ v then x else fmul alpha x)
    else if m = 0 && code != 4 && code != 9 then zeroLike z x
    else match code with
    | 1 => if 0 < v then x else Fl.zero
    | 2 => if v ≤ 0 then Fl.zero else if 6 < v then fint 6 else x
    | 4 => if v < -105 then Fl.zero else if 105 < v then fint 1 else rne32 (sigR v)
    | 5 =>
      if 50 < v then fint 1 else if v < -50 then fint (-1)
      else
        let t := expR (-2 * v)
        rne32 ((1 - t) / (1 + t))
    | 6 => if 15 < v then x else if v < -15 then Fl.zero true else rne32s true (v * normCdf v)
    | 7 => if 115 < v then x else if v < -115 then Fl.zero true else rne32s true (v * sigR v)
    | 8 => if v ≤ -3 then Fl.zero z else rne32 (v * min (v + 3) 6 / 6)
    | _ => expF x

/-- f′(x) of R580. -/
def actD (code : Nat) (alpha : Fl) (z : Bool) (x : Fl) : Fl :=
  match x with
  | .nan => .nan
  | .inf neg =>
    (match code with
     | 0 => fint 1
     | 1 => if neg then Fl.zero else fint 1
     | 3 => if neg then alpha else fint 1
     | 6 | 7 => if neg then Fl.zero z else fint 1
     | 8 => if neg then Fl.zero else fint 1
     | 9 => expF x
     | _ => Fl.zero)
  | .fin s m e =>
    let v := dyad s m e
    match code with
    | 0 => fint 1
    | 1 => if 0 < v then fint 1 else Fl.zero
    | 2 => if 0 < v ∧ v < 6 then fint 1 else Fl.zero
    | 3 => if 0 ≤ v then fint 1 else alpha
    | 4 =>
      if 110 < v ∨ v < -110 then Fl.zero
      else
        let t := sigR v
        rne32 (t * (1 - t))
    | 5 =>
      if 60 < v ∨ v < -60 then Fl.zero
      else
        let t := expR (-2 * v)
        rne32 (4 * t / ((1 + t) * (1 + t)))
    | 6 => if 15 < v then fint 1 else if v < -15 then Fl.zero true else rne32s (decide (v < 0)) (normCdf v + v * normPdf v)
    | 7 =>
      if 115 < v then fint 1 else if v < -115 then Fl.zero true
      else
        let t := sigR v
        rne32s (decide (v < 0)) (t * (1 + v * (1 - t)))
    | 8 => if v ≤ -3 then Fl.zero else if v = 3 then Fl.zero else if 3 < v then fint 1 else rne32 ((2 * v + 3) / 6)
    | _ => expF x

/-- 1 / sqrt(x), rounded once (R590). -/
def rsqrtF : Fl → Fl
  | .nan => .nan
  | .inf s => if s then .nan else Fl.zero
  | .fin s m e => if m = 0 then .inf s else if s then .nan else rne32 (sqrtRat (1 / dyad false m e))

/-! ## Exact arithmetic of dot products (R577, R578) -/

/-- A product, not rounded. -/
def xmul : Fl → Fl → Fl
  | .fin a m e, .fin b n f => .fin (a != b) (m * n) (e + f)
  | x, y => fmul x y
/-- A sum, not rounded. -/
def xadd : Fl → Fl → Fl
  | .fin a m e, .fin b n f =>
    let q := min e f
    let v : Int := (if a then -1 else 1) * ((m * 2 ^ (e - q).toNat : Nat) : Int) + (if b then -1 else 1) * ((n * 2 ^ (f - q).toNat : Nat) : Int)
    .fin (if v = 0 then a && b else decide (v < 0)) v.natAbs q
  | x, y => fadd x y
/-- RNE32 of an exact value. -/
def rnd : Fl → Fl
  | .fin s m e => rne32s s (dyad s m e)
  | x => x
/-- The sum of a list, each addition by `add`, from its first element. -/
def foldFl (add : Fl → Fl → Fl) : List Fl → Fl
  | [] => Fl.zero
  | x :: t => t.foldl add x

/-- Exact value of a code without scale: c · 2^e of R576. -/
def codeFl (f c : Nat) : Fl :=
  if fmtInt f || fmtBell f then
    let v := intCode f c
    .fin (decide (v < 0)) v.natAbs (fmtExp f)
  else fmtDecode f c
/-- c of R576: without the exponent of the bell grids. -/
def codeC (f c : Nat) : Fl :=
  if fmtInt f || fmtBell f then
    let v := intCode f c
    .fin (decide (v < 0)) v.natAbs 0
  else fmtDecode f c

end Sys2Proof.Machine
end

