-- ==== Sys2Proof/Machine/InpOps.lean ====
section
/-! DEFINITION. Sys2Proof/Machine/InpOps.lean: the shared operations of the Ichado Node Profile: the registry (R929),
Q72 (R945), frames sent from dedicated buffers 1 to 6 (R924, R925), the loss of a node (R935) and of a chip (R937). -/
namespace Sys2Proof.Machine
open Sys2Proof

/-! ## Registry -/

def nodeReset : Nat → Node := fun _ => {}
def State.node (s : State) (a : Nat) : Node := Tab.get nodeReset s.inp.nodes a
def State.setNode (s : State) (a : Nat) (x : Node) : State := { s with inp.nodes := Tab.set nodeReset s.inp.nodes a x }
/-- An address without a node: FREE, or BOUND with its binding (R929). -/
def vacant (b : Option Binding) : Node :=
  match b with
  | none => {}
  | some v => { st := 1, binding := b, uid := v.uid, safetyCh := v.safetyCh }

/-- FLAGS of the accepted FBC_CONFIG. -/
def State.fbcFlag (s : State) (k i : Nat) : Bool := bit (s.fbcCfg k 0x13) i
/-- The INP engine runs on segment k (R921). -/
def State.runsInp (s : State) (k : Nat) : Bool := (s.fbc k).configured && s.fbcFlag k 6
/-- Management frames are sent and accepted on segment k (R922). -/
def State.manages (s : State) (k : Nat) : Bool := s.runsInp k && s.fbcFlag k 0

/-! ## Host reports (R945) -/

/-- An entry of Q72; without a credit it is discarded and Q72_DROP advances. -/
def State.q72 (s : State) (kind addr seg chip flags uid : Nat) (load : List Byte := []) : State :=
  if s.qEn 72 && 1 ≤ s.credits 72 then
    s.devicePush 72 (entry64 (leBytes 1 kind ++ leBytes 1 addr ++ leBytes 1 seg ++ leBytes 1 chip ++ leBytes 2 flags ++
      leBytes 2 0 ++ leBytes 8 uid ++ leBytes 8 s.tbNow ++ load))
  else s.bump Blk.inp 8

/-! ## Frames sent -/

/-- DLC of a CAN FD frame of n data bytes, n one of R925's lengths. -/
def dlcOf (n : Nat) : Nat := if n ≤ 8 then n else if n = 16 then 10 else 12
/-- A management frame of this device (R924). -/
def State.mgmtFrame (s : State) (cls func dst : Nat) (data : List Byte) : CanFrame :=
  { idw := at_ (2 ^ 29 + cls * 2 ^ 24 + func * 65536 + s.bus.chipId * 256 + dst) 0 32
    fdf := true, brs := true, dlc := dlcOf data.length, data := data }
/-- Writes dedicated buffer b of segment k and requests it (R888), while the engine runs there. -/
def State.sendInp (s : State) (k b : Nat) (f : CanFrame) : State :=
  if !s.manages k || (s.fbc k).st == .off || s.isHalted Blk.inp || s.frozen then s
  else
    let s1 := s.setMsgBuf k b f 0
    let x := s1.fbc k
    let m : BitVec 8 := BitVec.ofNat 8 (2 ^ b)
    s1.setFbc k { x with txReq := x.txReq ||| m, txDone := x.txDone &&& ~~~m, txAborted := x.txAborted &&& ~~~m }

/-! ## Losses (R935, R937) -/

/-- A node enters LOST; that of a safety role is presented to Quench (cause 6 of R978). -/
def State.nodeLost (s : State) (a : Nat) : State :=
  let x := s.node a
  let before := s.causes
  let s1 := ((s.setNode a { x with st := 4, lostAt := s.clk.now }).bump Blk.inp 3).q72 1 a x.seg x.host 0 x.uid
  if 1 ≤ x.role && x.role ≤ 3 then
    { s1 with qch.nodesLost := tset s1.qch.nodesLost a true }.evalTrip before 0
  else s1

/-- Chip d has been lost: on the lead every ACTIVE node whose host chip it is enters LOST; on another device that
loses chip 0 the ANNOUNCEs it had forwarded are discarded, each counted in REFUSED. -/
def State.inpChipLost (s : State) (d : Nat) : State :=
  if s.bus.chipId = 0 then
    (List.range 256).foldl (fun s a =>
      if (s.node a).st = 3 ∧ (s.node a).host = d then s.nodeLost a else s) s
  else if d = 0 then
    { s.bumpBy Blk.inp 4 s.inp.forwarded.length with inp.forwarded := [], inp.cut := true }
  else s

/-! ## INP_NODEa (R954) -/

/-- The four words of INP_NODEa; `chip` tells an address of a reachable device. -/
def State.nodeWord (s : State) (a i : Nat) (chip : Bool) : Word :=
  let x := s.node a
  if chip then (if i = 0 then 7 else 0)
  else match i with
  | 0 => at_ x.safetyCh 16 8 ||| at_ x.cls 12 3 ||| at_ x.role 8 2 ||| at_ x.host 6 2 ||| at_ x.seg 4 2 ||| at_ x.st 0 3
  | 1 => BitVec.ofNat 32 x.uid
  | 2 => BitVec.ofNat 32 (x.uid / 2 ^ 32)
  | _ =>
    let age := if x.st = 3 || x.st = 4 then min 65535 ((s.clk.now - x.hbAt) / tbMs) else 0
    at_ (x.cable % 65536).toNat 16 16 ||| at_ age 0 16

end Sys2Proof.Machine
end

