-- ==== Sys2Proof/Machine/SprOps.lean ====
section
/-! DEFINITION. Sys2Proof/Machine/SprOps.lean: the shared operations of the Sprue link: routes (R733), messages and
flits (R721 to R725), the replay buffer (R730), sealed mode (R739), a port that goes DOWN (R734, R737). -/
namespace Sys2Proof.Machine
open Sys2Proof

/-! ## Topology and routes (R733) -/

def State.portUp (s : State) (p : Nat) : Bool := (s.port p).st == .up
/-- The chip on the other side of a port. -/
def State.neighbour (s : State) (p : Nat) : Nat :=
  if p = 0 then (s.bus.chipId + 1) % s.chips else (s.bus.chipId + s.chips - 1) % s.chips
/-- f of R733. -/
def State.hops (s : State) (d : Nat) : Nat := (d + s.chips - s.bus.chipId) % s.chips
/-- Port over which a message for chip d goes: none while d is this device, absent or without a route. `low` tells
that ADDR bit 12 is 0, or that the message is a MAILBOX or QUEUE. -/
def State.routeBy (s : State) (d : Nat) (low : Bool) : Option Nat :=
  let f := s.hops d
  let pick := fun a b => if s.portUp a then some a else if s.portUp b then some b else none
  let only := fun a => if s.portUp a then some a else none
  if s.chips ≤ d || f = 0 then none
  else match s.chips with
  | 2 => if low then pick 0 1 else pick 1 0
  | 3 => if f = 1 then pick 0 1 else pick 1 0
  | 4 => if f = 1 then only 0 else if f = 2 then pick 0 1 else only 1
  | _ => none
/-- A chip counts as lost from the loss on, until SPRUE_TRAIN brings back a route (R738). -/
def State.chipLost (s : State) (d : Nat) : Bool := tget s.spr.lost d
def State.route (s : State) (d a : Nat) : Option Nat :=
  if s.chipLost d then none else s.routeBy d (!a.testBit 12)
def State.mailRoute (s : State) (d : Nat) : Option Nat := if s.chipLost d then none else s.routeBy d true
/-- Chip d is reachable. -/
def State.reachable (s : State) (d : Nat) : Bool :=
  d == s.bus.chipId || (decide (d < s.chips) && (s.mailRoute d).isSome)
/-! ## Messages (R723, R725) -/

def opRead : Nat := 1
def opWrite : Nat := 2
def opReadData : Nat := 3
def opWriteAck : Nat := 4
def opMailbox : Nat := 5
def opQueue : Nat := 6

def Msg.bytes (m : Msg) : List Byte :=
  leBytes 1 m.op ++ leBytes 1 (m.cls % 4 + 4 * b2n m.ordered + 8 * b2n m.poison + 16 * (m.status % 16)) ++
  leBytes 1 m.len ++ leBytes 1 (m.src % 4 + 4 * (m.dst % 4) + 16 * b2n m.forwarded) ++ leBytes 2 (m.tag % 4096) ++
  leBytes 1 m.master ++ leBytes 1 0 ++ leBytes 5 m.addr ++ leBytes 3 0 ++ m.data
/-- Data bytes of a message by its OP and LEN. -/
def msgData (op len : Nat) : Nat :=
  match op with
  | 2 | 3 => len
  | 5 => 128
  | 6 => 64
  | _ => 0
def parseMsg (l : List Byte) : Msg :=
  let at1 := bytesAt l 1 1
  let r := bytesAt l 3 1
  let op := bytesAt l 0 1
  { op := op, cls := at1 % 4, ordered := bit at1 2, poison := bit at1 3, status := at1 / 16, len := bytesAt l 2 1
    src := r % 4, dst := r / 4 % 4, forwarded := bit r 4, tag := bytesAt l 4 2 % 4096, master := bytesAt l 6 1
    addr := bytesAt l 8 5, data := (l.drop 16).take (msgData op (bytesAt l 2 1)) }
/-- The messages of a payload; OP 0 ends them. -/
def parseMsgs : Nat → List Byte → List Msg
  | 0, _ => []
  | fuel + 1, l =>
    let op := bytesAt l 0 1
    if op = 0 ∨ 6 < op ∨ l.length < 16 then []
    else
      let n := 16 + msgData op (bytesAt l 2 1)
      parseMsg l :: parseMsgs fuel (l.drop n)
/-- Credit units of 16 bytes. -/
def Msg.units (m : Msg) : Nat := cdiv (16 + m.data.length) 16
/-- VC of a message that ends at, or is forwarded by, its receiver. -/
def Msg.vc (m : Msg) (ends : Bool) : Nat :=
  if !ends then 3
  else match m.op with
  | 1 | 2 => 0
  | 3 | 4 => 1
  | _ => 2
/-- Receiver buffer of a VC, in credits. -/
def vcCredits (v : Nat) : Nat := match v with | 0 => 512 | 1 => 1024 | 2 => 128 | _ => 512

/-! ## Flits (R721, R722, R739) -/

/-- Flit bytes before the CRC is known. -/
def flitHead (typ flags seq ack : Nat) (credits : List Nat) : List Byte :=
  leBytes 1 typ ++ leBytes 1 flags ++ leBytes 1 seq ++ leBytes 1 ack ++ credits.flatMap (fun c => leBytes 1 c)
/-- IV of a protected flit: the port salt, then the count. -/
def sealIv (salt count : Nat) : List Byte := leBytes 4 salt ++ leBytes 8 count
/-- The whole flit of 256 bytes. -/
def flitBytes (head payload : List Byte) : List Byte :=
  let b := (head ++ payload ++ List.replicate 240 0).take 248 ++ List.replicate 4 0
  b ++ leBytes 4 (crc32c b)

/-- The port sends a flit now: ACK and up to 255 owed credits of each VC go with it. Protected flits are sealed in
sealed mode and held in the replay buffer until an ACK covers them. -/
def State.sendFlit (s : State) (p typ : Nat) (payload : List Byte) (msg : Option Msg) : State :=
  let x := s.port p
  let held := typ = 1 || typ = 3 || typ = 4
  let credits := (List.range 4).map (fun v => min 255 (nget x.owed v))
  let owed := (List.range 4).foldl (fun t v => nset t v (nget x.owed v - min 255 (nget x.owed v))) x.owed
  let head := flitHead typ (b2n (x.sealedTx && held)) x.txSeq ((x.rxSeq + 255) % 256) credits
  let body := if x.sealedTx && held then
      let iv := sealIv x.saltOwn x.sealTx
      let c := gcmCrypt x.key iv ((payload ++ List.replicate 224 0).take 224)
      c ++ gcmTag x.key iv head c
    else payload
  let b := flitBytes head body
  let y := { x with owed := owed, sent := x.sent ++ [b] }
  if held then
    s.setPort p { y with
      txSeq := (x.txSeq + 1) % 256
      sealTx := if x.sealedTx then x.sealTx + 1 else x.sealTx
      ackAt := if x.held = [] then s.clk.now else x.ackAt
      held := x.held ++ [{ typ := typ, seq := x.txSeq, bytes := b, msg := msg }] }
  else s.setPort p y

/-- Adds k to a pair of counters of the store. -/
def State.addPair (s : State) (b : Blk) (off k : Nat) : State :=
  s.setPair b off ((s.reg b off).toNat + 2 ^ 32 * (s.reg b (off + 4)).toNat + k)

/-- A message goes out on a port: in a flit of its own while a replay place and credits for all of its bytes are
free, else it waits. `blocked` holds the VCs on which an earlier message waits. -/
def State.pumpMsgs (s : State) (p : Nat) : List Msg → List Nat → State
  | [], _ => s
  | m :: t, blocked =>
    let x := s.port p
    let v := m.vc (m.dst == s.neighbour p)
    if !blocked.contains v && x.st == .up && x.held.length < 64 && nget x.spent v + m.units ≤ vcCredits v then
      let s1 := s.setPort p { x with spent := nset x.spent v (nget x.spent v + m.units) }
      State.pumpMsgs ((s1.sendFlit p 1 m.bytes (some m)).addPair (Blk.spr0 + p) 0x148 1) p t blocked
    else
      State.pumpMsgs (s.setPort p { x with txWait := x.txWait ++ [m] }) p t (v :: blocked)
/-- Sends what can be sent of the messages that wait. -/
def State.pump (s : State) (p : Nat) : State :=
  let x := s.port p
  (s.setPort p { x with txWait := [] }).pumpMsgs p x.txWait []
/-- Sends a message behind those that wait. -/
def State.sendMsg (s : State) (p : Nat) (m : Msg) : State :=
  let x := s.port p
  (s.setPort p { x with txWait := x.txWait ++ [m] }).pump p

/-! ## Remote accesses of this device (R724, R733) -/

/-- Pieces of an access: none crosses a 4 KiB boundary, none is longer than `most`. -/
def splitAccess (most : Nat) : Nat → Nat → Nat → List (Nat × Nat)
  | 0, _, _ => []
  | fuel + 1, a, len =>
    if len = 0 then []
    else
      let n := min (min most len) (4096 - a % 4096)
      (a, n) :: splitAccess most fuel (a + n) (len - n)

def clsCode : AccessClass → Nat
  | .ordinary => 0
  | .privileged => 1
  | .secure => 2

/-- One message of a remote access, with its place in flight. -/
def State.issuePiece (s : State) (p dst m : Nat) (cls : AccessClass) (flask : Option Nat) (write ordered : Bool) (a n off : Nat)
    (d : List Byte) : State :=
  let x := s.port p
  let tag := s.spr.nextTag
  let s1 := s.setPort p { x with
    inflight := x.inflight ++ [{ tag := tag, master := m, cls := cls, write := write, dst := dst, addr := a, len := n
                                 off := off, flask := flask }] }
  { s1 with spr.nextTag := (tag + 1) % 4096 }.sendMsg p {
                 op := if write then opWrite else opRead, cls := min 1 (clsCode cls), ordered := ordered, len := n
                 src := s.bus.chipId, dst := dst, tag := tag, master := m, addr := a, data := d }

/-- A remote access of master m to 40-bit address a; `d` is what a write carries. The chip has a route. -/
def State.issueRemote (s : State) (m : Nat) (cls : AccessClass) (flask : Option Nat) (write ordered : Bool) (a len : Nat)
    (d : List Byte) : State :=
  match s.route (chipOf a) a with
  | none => s
  | some p =>
    let most := if (s.port p).sealedTx then 208 else 224
    (splitAccess most (len + 1) a len).foldl (fun s e =>
      match s.route (chipOf a) e.1 with
      | none => s
      | some p => s.issuePiece p (chipOf a) m cls flask write ordered e.1 e.2 (e.1 - a) ((d.drop (e.1 - a)).take e.2)) s

/-- Accesses in flight on any port that satisfy a condition. -/
def State.anyInflight (s : State) (f : InFlight → Bool) : Bool := (List.range 2).any (fun p => (s.port p).inflight.any f)

/-! ## A port that goes DOWN, and the loss of a chip (R734 to R738) -/

/-- Chips without a route become lost; the node profile follows (R935, R937). -/
def State.loseChips (s : State) : State :=
  (List.range s.chips).foldl (fun s d =>
    if d != s.bus.chipId && (s.routeBy d true).isNone && !s.chipLost d then
      { s with spr.lost := tset s.spr.lost d true }.inpChipLost d
    else s) s

/-- A port goes DOWN. What it had sent and not had answered is lost (`State.lostEnd` ends it); MAILBOX and QUEUE
messages in its replay buffer and messages it forwarded are discarded; what it had not sent goes over the new route,
in order. -/
def State.portDown (s : State) (p reason : Nat) : State :=
  let x := s.port p
  let own := s.bus.chipId
  let unsent := x.txWait.filter (fun m => m.src == own)
  let gone := unsent.filter (fun m => m.op == opRead || m.op == opWrite)
  let moved := gone.map (fun m => m.tag)
  let stay := x.inflight.filter (fun i => !moved.contains i.tag)
  let go := x.inflight.filter (fun i => moved.contains i.tag)
  -- accesses sent on the other port whose response was to return on this one
  let q := 1 - p
  let y := s.port q
  let back := fun (i : InFlight) => s.chips == 4 && p == 1 && s.hops i.dst == 2
  let lost := stay ++ y.inflight.filter back
  let s0 := s.setPort q { y with inflight := y.inflight.filter (fun i => !back i) }
  let s1 := (s0.setPort p { x with
    st := .down, reason := reason, held := [], txWait := [], inflight := lost, lostDue := lost != [], markGot := false
    markDue := false, sealMb := none, narrowing := false }).bump (Blk.spr0 + p) 5
  let s2 := s1.loseChips
  let s3 := match x.sealMb with | some (m, _) => s2.refuse m rStateConflict 1 | none => s2
  let s4 := unsent.foldl (fun s m =>
    match s.routeBy m.dst (m.op = opMailbox || m.op = opQueue || !m.addr.testBit 12) with
    | some q =>
      if q = p then s
      else match go.find? (fun i => i.tag == m.tag && (m.op == opRead || m.op == opWrite)) with
      | some i =>
        let y := s.port q
        (s.setPort q { y with inflight := y.inflight ++ [i] }).sendMsg q m
      | none => s.sendMsg q m
    | none =>
      let y := s.port p
      s.setPort p { y with
        inflight := y.inflight ++ (go.filter (fun i => i.tag == m.tag)), lostDue := true }) s3
  s4

/-- Replaces bytes at an offset of a list. -/
def patchBytes (l : List Byte) (o : Nat) (d : List Byte) : List Byte := l.take o ++ d ++ l.drop (o + d.length)

/-- An access that is lost ends: a job's ends its job with PEER_LOST, any other one as a decode error with the
LOST_ACCESS event (R736, R737). -/
def State.lostEnd (s : State) (p : Nat) (i : InFlight) : State :=
  match i.flask with
  | some f => s.jobFault f stPeer 0 0xFFF (match (s.flask f).running with | some r => r.opsDone | none => 0)
  | none =>
    let s1 := (s.fabErr 0 i.master i.cls 0 i.write i.addr).bump (Blk.spr0 + p) 7
    if i.write then s1
    else { s1 with bus.readData := Tab.set (fun _ => []) s1.bus.readData i.master
                    (patchBytes (Tab.get (fun _ => []) s1.bus.readData i.master) i.off (List.replicate i.len 0)) }

end Sys2Proof.Machine
end

