-- ==== Sys2Proof/Machine/Tens.lean ====
section
/-! DEFINITION. Sys2Proof/Machine/Tens.lean: what an operation reaches memory with: the accesses of a job (R486, R533,
R539, R703), tensor descriptors and their layouts (R534 to R540), scales (R620, R621), operation descriptors (R569). -/
namespace Sys2Proof.Machine
open Sys2Proof

/-! ## Accesses of a job -/

/-- Who runs an operation: the flask, its job, the operation's index, the crucible that issues, and the bytes that
remote reads have already brought. A mould core (R807) has the base of its bank in `Mem.bytes` and the bank's length. -/
structure JobUser where
  f : Nat
  job : Job
  op : Nat
  cru : Nat
  fetched : List (Nat × List Byte) := []
  mould : Option (Nat × Nat) := none
  /-- The program is only tried: assist tensors read as zeros. -/
  trial : Bool := false

/-- Why an operation does not complete. -/
inductive Bad where
  /-- a window violation at an address (R486) -/
  | window (a : Nat) (write : Bool)
  /-- a rights violation (R657, R72) -/
  | rights
  /-- a poisoned read (R660) -/
  | poison
  /-- a lost peer (R736) -/
  | peer
  /-- an outcome of R543 with CODE and tensor index -/
  | stop (status code tensor : Nat)
deriving DecidableEq, Repr

/-- Why its evaluation ends: bytes of a peer are still to be read, or it goes no further. -/
inductive Halt where
  | need (a len : Nat)
  | bad (b : Bad)
deriving DecidableEq, Repr

/-- A computation over the state that may end early. -/
abbrev JM := ExceptT Halt (StateM State)

def jmFail {α : Type} (b : Bad) : JM α := throw (.bad b)
/-- DESCRIPTOR_INVALID with CODE 9 names a tensor, CODE 10 the operation (R548). -/
def badTensor {α : Type} (t : Nat) : JM α := jmFail (.stop stDescriptor 9 t)
def badOp {α : Type} : JM α := jmFail (.stop stDescriptor 10 0xFFF)
def badFormat {α : Type} (t : Nat) : JM α := jmFail (.stop stFormat 12 t)
/-- A check of the operation's layout. -/
def need10 (ok : Bool) : JM Unit := if ok then pure () else badOp

/-- A plane of source frame n, at a local address. -/
def inPlane (base size a len : Nat) : Bool := base != 0 && base ≤ a && a + len ≤ base + size
/-- The accesses of the assist job (R812): within KIND 2 entries and the planes of frame n. -/
def State.assistAllows (s : State) (rseq a len : Nat) : Bool :=
  let l := localOf a
  let w := s.fsuCfg 0x18 2
  let h := s.fsuCfg 0x1A 2
  let g := max 1 (s.fsuCfg 0x1D 1)
  let frame := fun (x : SrcFrame) => x.rseq == rseq &&
    (inPlane x.color (64 * x.stride64 * h) l len ||
     (x.hasMotion && inPlane x.motion (cdiv (cdiv w g * 8) 64 * 64 * cdiv h g) l len) || inPlane x.depth (2 * w * h) l len)
  chipOf a == s.bus.chipId &&
  ((List.range ((l + len + 4095) / 4096 - l / 4096)).all (fun i =>
      match s.governing (max l ((l / 4096 + i) * 4096)) with
      | some e => s.entKind e == 2
      | none => false) ||
    (match s.fsu.n with | some x => frame x | none => false) || s.fsu.later.any frame)

/-- The window check of an access (R486, R812). -/
def State.jobAllows (s : State) (j : Job) (a len : Nat) (write : Bool) : Bool :=
  if j.ctx < 32 then s.inWindow j.ctx a len write else s.assistAllows j.jobId a len

/-- Byte a of what remote reads brought. -/
def fetchedByte (l : List (Nat × List Byte)) (a : Nat) : Option Byte :=
  (l.find? (fun e => e.1 ≤ a && a < e.1 + e.2.length)).bind (fun e => e.2[a - e.1]?)

/-- Bytes of a mould core's bank; an assist tensor lies beyond the bank, in ingots (R813). -/
def mouldRead (master base len : Nat) (trial : Bool) (a n : Nat) : JM (List Byte) := do
  let s ← get
  if a + n ≤ len then
    let (d, p, s1) := s.demandRead master (base + a) n
    set s1
    if p then jmFail .poison else pure d
  else if trial then pure (List.replicate n 0)
  else
    let (d, acc, s1) := s.readMem master .ordinary 0 a n
    set s1
    match acc with
    | .ok => pure d
    | .poison => jmFail .poison
    | _ => jmFail .rights

/-- One read of a job: checked at its 40-bit address; a peer's bytes are waited for (R486, R72, R736). -/
def jread (u : JobUser) (a n : Nat) : JM (List Byte) := do
  let s ← get
  match u.mould with
  | some (base, len) => mouldRead u.cru base len u.trial a n
  | none =>
    if !s.jobAllows u.job a n false then jmFail (.window a false)
    else if chipOf a == s.bus.chipId then
      let (d, acc, s1) := s.readMem u.cru .ordinary u.job.ctx (localOf a) n
      set s1
      match acc with
      | .ok => pure d
      | .poison => jmFail .poison
      | _ => jmFail .rights
    else
      let l := (List.range n).filterMap (fun i => fetchedByte u.fetched (a + i))
      if l.length = n then pure l
      else if (s.route (chipOf a) a).isNone then jmFail .peer
      else throw (.need a n)

/-- One write of a job. A peer's write is sent; its acknowledgement is waited for before the next operation (R573). -/
def jwriteAs (m : Nat) (u : JobUser) (a : Nat) (l : List Byte) : JM Unit := do
  let s ← get
  match u.mould with
  | some (base, len) =>
    if a + l.length ≤ len then
      let (p, s1) := s.demandWrite m (base + a) l
      set s1
      if p then jmFail .poison else pure ()
    else jmFail .rights
  | none =>
    if !s.jobAllows u.job a l.length true then jmFail (.window a true)
    else if chipOf a == s.bus.chipId then
      let (acc, s1) := s.writeMem m .ordinary u.job.ctx (localOf a) l
      set s1
      match acc with
      | .ok => pure ()
      | .poison => jmFail .poison
      | _ => jmFail .rights
    else if (s.route (chipOf a) a).isNone then jmFail .peer
    else set (s.issueRemote m .ordinary (some u.f) true false a l.length l)
def jwrite (u : JobUser) (a : Nat) (l : List Byte) : JM Unit := jwriteAs u.cru u a l

/-- Reads n bytes from a in accesses that cross no 4 KiB boundary. -/
def jreadAll (u : JobUser) (a n : Nat) : JM (List Byte) := do
  let l ← (splitAccess 4096 (n + 1) a n).mapM (fun e => jread u e.1 e.2)
  pure l.flatten
/-- Writes bytes from a in accesses that cross no 4 KiB boundary. -/
def jwriteAllAs (m : Nat) (u : JobUser) (a : Nat) (l : List Byte) : JM Unit := do
  let _ ← (splitAccess 4096 (l.length + 1) a l.length).mapM (fun e => jwriteAs m u e.1 ((l.drop (e.1 - a)).take e.2))
  pure ()

/-- A free number below 2^n. -/
def jfree (n : Nat) : JM Nat := do
  let s ← get
  let (v, s1) := s.takeFree n
  set s1
  pure v

/-! ## Tensors -/

/-- A tensor descriptor (R534) and its index in the table. -/
structure Tensor where
  ix : Nat
  fmt : Nat
  layout : Nat
  rank : Nat
  space : Nat
  split : Nat
  scaleMode : Nat
  compress : Nat
  flags : Nat
  addr : Nat
  dims : List Nat
  strides : List Nat
  base : Nat
  scaleAddr : Nat
  tableId : Nat
  wide : Nat
  capacity : Nat
deriving DecidableEq, Repr

def Tensor.dim (t : Tensor) (k : Nat) : Nat := (t.dims[k]?).getD 1
/-- STRIDEk for k from 1. -/
def Tensor.stride (t : Tensor) (k : Nat) : Nat := (t.strides[k - 1]?).getD 0
def Tensor.count (t : Tensor) : Nat := t.dims.foldl (fun n d => n * d) 1
def Tensor.bits (t : Tensor) : Nat := fmtBits t.fmt
def Tensor.four (t : Tensor) : Bool := t.fmt == 0 || t.fmt == 8

/-- Reads a descriptor's fields. -/
def parseTensor (ix : Nat) (d : List Byte) : Tensor :=
  { ix := ix, fmt := bytesAt d 0 1, layout := bytesAt d 1 1, rank := bytesAt d 2 1, space := bytesAt d 3 1
    split := bytesAt d 4 1, scaleMode := bytesAt d 5 1, compress := bytesAt d 6 1, flags := bytesAt d 7 1
    addr := bytesAt d 8 8, dims := (List.range 5).map (fun i => bytesAt d (0x10 + 2 * i) 2)
    strides := (List.range 4).map (fun i => bytesAt d (0x1C + 4 * i) 4), base := bytesAt d 0x2C 2
    scaleAddr := bytesAt d 0x30 8, tableId := bytesAt d 0x38 1, wide := bytesAt d 0x3A 2, capacity := bytesAt d 0x3C 4 }

/-- Bytes of r rows of tiles, and the whole content's length (R537, R538, R540), for dimensions `ds`. -/
def contentLen (t : Tensor) (ds : List Nat) : Nat :=
  let d := fun k => (ds[k]?).getD 1
  let far := fun k => (d k - 1) * t.stride k
  if t.layout = 0 then cdiv (d 0 * t.bits) 8 + far 1 + far 2 + far 3 + far 4
  else cdiv (d 0) 32 * (128 * t.bits) + (cdiv (d 1) 32 - 1) * t.stride 1 + far 2 + far 3 + far 4

/-- Blocks and table epochs of a sequence of `len` content bytes (R686). -/
def seqBlocks (len : Nat) : Nat := cdiv len 4096
def seqEpochs (len : Nat) : Nat := cdiv (seqBlocks len) 1024
def seqTables (len : Nat) : Nat := 32 + 32 * cdiv (4 * seqBlocks len) 32

/-- A descriptor meets R534 to R538, and what R540 and R694 ask of it alone. -/
def Tensor.shapeOk (t : Tensor) (d : List Byte) : Bool :=
  let z := fun o n => ((d.drop o).take n).all (fun b => b == 0)
  z 0x1A 2 && z 0x2E 2 && z 0x39 1 && t.fmt ≤ 10 && t.layout ≤ 1 && 1 ≤ t.rank && t.rank ≤ 5 && t.space ≤ 1 &&
  (if t.space = 1 then t.split < t.rank && t.addr < 0x200000 else t.split == 0 && t.addr < 2 ^ 40) &&
  t.scaleMode ≤ 3 && t.compress ≤ 1 && t.flags ≤ 1 &&
  (List.range 5).all (fun k => if k < t.rank then 1 ≤ t.dim k else t.dim k == 1) &&
  (List.range 5).all (fun k => k == 0 || k < t.rank || t.stride k == 0) &&
  (!t.four || t.dim 0 % 2 == 0) && (t.layout == 0 || 2 ≤ t.rank) &&
  (if t.scaleMode = 0 then t.scaleAddr == 0 else t.scaleAddr < 2 ^ 40) && t.tableId < 64 &&
  (t.flags == 0 || t.base != 0xFFFF) &&
  (if t.compress = 0 then t.capacity == 0
   else t.space == 0 && t.capacity % 32 == 0 && ingotRange (localOf t.addr) t.capacity &&
     seqTables (contentLen t t.dims) + 160 * seqEpochs (contentLen t t.dims) ≤ t.capacity)

/-- Reads and checks descriptor ix on its own. -/
def readTensor (u : JobUser) (ix : Nat) : JM Tensor := do
  if u.job.nTensors ≤ ix then badTensor ix
  else
    let d ← jread u (u.job.tensorBase + 64 * ix) 64
    let t := parseTensor ix d
    if t.shapeOk d then pure t else badTensor ix

/-- The base that a compressed tensor names, checked (R540, R694). -/
def baseOf (u : JobUser) (t : Tensor) : JM (Option Tensor) := do
  if t.compress = 0 || t.base = 0xFFFF then pure none
  else
    let b ← readTensor u t.base
    let len := contentLen t t.dims
    if b.compress = 0 && b.base = 0xFFFF && b.space = 0 && b.fmt = t.fmt && b.layout = t.layout && b.rank = t.rank &&
        b.dims = t.dims && b.strides = t.strides && chipOf b.addr = chipOf t.addr &&
        (b.addr + len ≤ t.addr || t.addr + t.capacity ≤ b.addr) then pure (some b)
    else badTensor t.ix

/-- The tensor that index ix stands for after redirections (R551). -/
def redirect (l : List (Nat × Nat)) : Nat → Nat → Nat
  | 0, ix => ix
  | n + 1, ix =>
    match l.find? (fun e => e.1 == ix) with
    | some e => redirect l n e.2
    | none => ix

/-- The tensor an operation names, checked with its base. An assist job's tensor that names a base is read with
SUBSTITUTE_BASE (R812). -/
def getTensor (u : JobUser) (ix : Nat) : JM Tensor := do
  if ix = 0xFFFF then badOp
  else
    let s ← get
    let wide := match (s.flask u.f).running with | some r => if u.mould.isNone then r.wide else [] | none => []
    let t ← readTensor u (redirect wide wide.length ix)
    let _ ← baseOf u t
    pure (if u.job.ctx = 32 && t.base ≠ 0xFFFF then { t with flags := 1 } else t)
def getTensor? (u : JobUser) (ix : Nat) : JM (Option Tensor) := do
  if ix = 0xFFFF then pure none
  else
    let t ← getTensor u ix
    pure (some t)

/-! ## Elements -/

/-- The index of linear element k, dimension 0 innermost. -/
def unlin : List Nat → Nat → List Nat
  | [], _ => []
  | d :: t, k => (k % d) :: unlin t (k / d)
/-- Linear number of an index. -/
def lin : List Nat → List Nat → Nat
  | d :: ds, i :: is => i + d * lin ds is
  | _, _ => 0

/-- A part of a tensor: its 40-bit address and the range of the split dimension that it holds (R539). -/
structure Part where
  addr : Nat
  lo : Nat
  hi : Nat
deriving DecidableEq, Repr

/-- The parts of a tensor. -/
def State.parts (s : State) (u : JobUser) (t : Tensor) : List Part :=
  if t.space = 0 then [{ addr := t.addr, lo := 0, hi := t.dim t.split }]
  else
    let l := s.crucibles u.f
    let n := l.length
    let d := t.dim t.split
    l.zipIdx.map (fun e =>
      { addr := s.bus.chipId * 2 ^ 38 + 0x10000000 + e.1 * 0x200000 + t.addr, lo := e.2 * d / n, hi := (e.2 + 1) * d / n })
/-- Dimensions of a part. -/
def Tensor.partDims (t : Tensor) (p : Part) : List Nat := t.dims.zipIdx.map (fun e => if e.2 = t.split then p.hi - p.lo else e.1)

/-- One stored place: byte offset in the part, the upper half of the byte, and the element it holds, none for a pad. -/
structure Slot where
  off : Nat
  upper : Bool := false
  el : Option Nat

/-- Place number k of a part in storage order (R537, R538). -/
def Tensor.slot (t : Tensor) (p : Part) (k : Nat) : Slot :=
  let ds := t.partDims p
  let d := fun i => (ds[i]?).getD 1
  let whole := fun (l : List Nat) => lin t.dims (l.zipIdx.map (fun e => if e.2 = t.split then e.1 + p.lo else e.1))
  if t.layout = 0 then
    let i := unlin ds k
    let at0 := (i[0]?).getD 0
    { off := at0 * t.bits / 8 + (i[1]?).getD 0 * t.stride 1 + (i[2]?).getD 0 * t.stride 2 + (i[3]?).getD 0 * t.stride 3 +
        (i[4]?).getD 0 * t.stride 4
      upper := t.four && at0 % 2 == 1, el := some (whole i) }
  else
    let r := unlin [32, 32, cdiv (d 0) 32, cdiv (d 1) 32, d 2, d 3, d 4] k
    let g := fun i => (r[i]?).getD 0
    let i0 := 32 * g 2 + g 0
    let i1 := 32 * g 3 + g 1
    let e := 32 * g 1 + g 0
    { off := g 2 * (128 * t.bits) + e * t.bits / 8 + g 3 * t.stride 1 + g 4 * t.stride 2 + g 5 * t.stride 3 + g 6 * t.stride 4
      upper := t.four && e % 2 == 1
      el := if i0 < d 0 ∧ i1 < d 1 then some (whole [i0, i1, g 4, g 5, g 6]) else none }
/-- Places of a part. -/
def Tensor.slots (t : Tensor) (p : Part) : Nat :=
  let ds := t.partDims p
  let d := fun i => (ds[i]?).getD 1
  if t.layout = 0 then ds.foldl (fun n x => n * x) 1
  else 1024 * cdiv (d 0) 32 * cdiv (d 1) 32 * d 2 * d 3 * d 4

/-- Runs of consecutive bytes that a part's places occupy, in storage order. -/
def joinRuns (l : List (Nat × Nat)) : List (Nat × Nat) :=
  (l.foldl (fun (acc : List (Nat × Nat)) e =>
    match acc with
    | (a, n) :: t => if a + n = e.1 then (a, n + e.2) :: t else if a ≤ e.1 ∧ e.1 + e.2 ≤ a + n then (a, n) :: t else e :: acc
    | [] => [e]) []).reverse
def Tensor.runs (t : Tensor) (p : Part) : List (Nat × Nat) :=
  joinRuns ((List.range (t.slots p)).map (fun k => ((t.slot p k).off, max 1 (t.bits / 8))))

/-- The byte range of a tensor, from its lowest to its highest addressed element; of a compressed one its sequence. -/
def State.ranges (s : State) (u : JobUser) (t : Tensor) : List (Nat × Nat) :=
  if t.compress = 1 then [(t.addr, t.addr + t.capacity)]
  else ((s.parts u t).filter (fun p => p.lo < p.hi)).map (fun p => (p.addr, p.addr + contentLen t (t.partDims p)))
def State.overlaps (s : State) (u : JobUser) (a b : Tensor) : Bool :=
  (s.ranges u a).any (fun x => (s.ranges u b).any (fun y => x.1 < y.2 && y.1 < x.2))

/-- The code at a byte, from the bytes of an element's place. -/
def Tensor.codeAt (t : Tensor) (upper : Bool) (byte : Nat → Nat) : Nat :=
  if t.four then (if upper then byte 0 / 16 else byte 0 % 16)
  else (List.range (t.bits / 8)).foldl (fun v i => v + byte i * 256 ^ i) 0

/-- Codes of every element from the bytes of each part: part number and offset. -/
def Tensor.gatherCodes (t : Tensor) (parts : List Part) (byte : Nat → Nat → Nat) : Array Nat :=
  parts.zipIdx.foldl (fun (arr : Array Nat) e =>
    (List.range (t.slots e.1)).foldl (fun (arr : Array Nat) k =>
      let sl := t.slot e.1 k
      match sl.el with
      | some i => arr.setIfInBounds i (t.codeAt sl.upper (fun b => byte e.2 (sl.off + b)))
      | none => arr) arr) (Array.replicate t.count 0)

/-- The byte that n bytes read in pieces hold at an offset. -/
def pieceByte (l : List (Nat × List Byte)) (a : Nat) : Nat := ((fetchedByte l a).getD 0).toNat

/-- Reads every element of a plain tensor: its codes in linear order. -/
def readPlain (u : JobUser) (t : Tensor) : JM (Array Nat) := do
  let s ← get
  let ps := s.parts u t
  let pieces ← ps.mapM (fun p => do
    let l ← (t.runs p).mapM (fun r => do
      let d ← jreadAll u (p.addr + r.1) r.2
      pure (r.1, d))
    pure l)
  pure (t.gatherCodes ps (fun i o => pieceByte ((pieces[i]?).getD []) o))

/-- What is stored at a tensor's places for new codes: part, byte offset, byte. An element without a new code keeps its
place; the other half of a byte whose half alone is written is given by `other`. Pads are zero (R538). BG6 bits 7:6 are
zero (R619). -/
def Tensor.storeBytes (t : Tensor) (p : Part) (codes : Nat → Option Nat) : List (Nat × Option Bool × Nat) :=
  (List.range (t.slots p)).flatMap (fun k =>
    let sl := t.slot p k
    let c := match sl.el with | some i => codes i | none => some 0
    match c with
    | none => []
    | some c =>
      if t.four then [(sl.off, some sl.upper, c % 16)]
      else (leBytes (t.bits / 8) (if t.fmt = 9 then c % 64 else c)).zipIdx.map (fun e => (sl.off + e.2, none, e.1.toNat)))

/-- Joins halves of one byte; a lone half takes the other from `other`. -/
def joinHalves (other : Nat → Nat) : List (Nat × Option Bool × Nat) → List (Nat × Nat)
  | (a, some false, v) :: (b, some true, w) :: t =>
    if a = b then (a, v + 16 * w) :: joinHalves other t
    else (a, v + 16 * (other a / 16)) :: joinHalves other ((b, some true, w) :: t)
  | (a, some false, v) :: t => (a, v + 16 * (other a / 16)) :: joinHalves other t
  | (a, some true, v) :: t => (a, other a % 16 + 16 * v) :: joinHalves other t
  | (a, none, v) :: t => (a, v) :: joinHalves other t
  | [] => []

/-- Runs of bytes at rising addresses. -/
def byteRuns (l : List (Nat × Nat)) : List (Nat × List Byte) :=
  ((l.foldl (fun (acc : List (Nat × Nat × List Byte)) e =>
    match acc with
    | (a, n, d) :: t => if a + n = e.1 then (a, n + 1, BitVec.ofNat 8 e.2 :: d) :: t else (e.1, 1, [BitVec.ofNat 8 e.2]) :: acc
    | [] => [(e.1, 1, [BitVec.ofNat 8 e.2])]) []).map (fun e => (e.1, e.2.2.reverse))).reverse

/-- Writes codes of a plain tensor. -/
def writePlain (u : JobUser) (t : Tensor) (codes : Nat → Option Nat) : JM Unit := do
  let s ← get
  let _ ← (s.parts u t).mapM (fun p => do
    let l := t.storeBytes p codes
    let s ← get
    -- a byte of which one half alone is written: the other half stays as it is
    let lone := l.filter (fun e => e.2.1.isSome && !l.any (fun g => g.1 == e.1 && g.2.1 != e.2.1))
    let old ← lone.mapM (fun e => do
      if chipOf (p.addr + e.1) == s.bus.chipId && u.mould.isNone then
        pure (e.1, [s.mbyte (localOf (p.addr + e.1))])
      else
        let d ← jread u (p.addr + e.1) 1
        pure (e.1, d))
    let _ ← (byteRuns (joinHalves (pieceByte old) l)).mapM (fun r => jwriteAllAs u.cru u (p.addr + r.1) r.2)
    pure ())
  pure ()

/-- Content bytes of a tensor in one piece (R540): bytes in no element are zero (R691). -/
def Tensor.content (t : Tensor) (codes : Nat → Option Nat) : Array Byte :=
  let p : Part := { addr := 0, lo := 0, hi := t.dim t.split }
  (joinHalves (fun _ => 0) (t.storeBytes p codes)).foldl (fun (arr : Array Byte) e => arr.setIfInBounds e.1 (BitVec.ofNat 8 e.2))
    (Array.replicate (contentLen t t.dims) 0)

/-! ## Scales (R620, R621) -/

/-- A tensor's scales, and which of them an index takes: mode 2 by dimension h, mode 3 by groups along dimension r. -/
structure Scales where
  mode : Nat
  h : Nat
  r : Nat
  dims : List Nat
  vals : Array Fl
deriving DecidableEq, Repr

/-- Number of scale of an index. -/
def Scales.at (x : Scales) (i : List Nat) : Nat :=
  match x.mode with
  | 2 => (i[x.h]?).getD 0
  | 3 => (i[x.r]?).getD 0 / 32 + cdiv ((x.dims[x.r]?).getD 1) 32 * lin (x.dims.eraseIdx x.r) (i.eraseIdx x.r)
  | _ => 0
def Scales.val (x : Scales) (i : List Nat) : Fl := if x.mode = 0 then fint 1 else x.vals.getD (x.at i) (fint 1)
/-- How many scales a tensor holds. -/
def scaleCount (t : Tensor) (h r : Nat) : Nat :=
  match t.scaleMode with
  | 0 => 0
  | 1 => 1
  | 2 => t.dim h
  | _ => cdiv (t.dim r) 32 * (t.dims.eraseIdx r).foldl (fun n d => n * d) 1
/-- Reads a tensor's scales. -/
def readScales (u : JobUser) (t : Tensor) (h r : Nat) : JM Scales := do
  let n := scaleCount t h r
  let d ← if n = 0 then pure [] else jreadAll u t.scaleAddr (2 * n)
  pure { mode := t.scaleMode, h := h, r := r, dims := t.dims
         vals := ((List.range n).map (fun i => fmtDecode 6 (bytesAt d (2 * i) 2))).toArray }

/-! ## Operation descriptors (R569, R570) -/

/-- An operation descriptor. -/
structure OpD where
  d : List Byte
deriving DecidableEq, Repr

def OpD.opcode (o : OpD) : Nat := bytesAt o.d 0 2
def OpD.variant (o : OpD) : Nat := bytesAt o.d 2 1
def OpD.quant (o : OpD) : Nat := bytesAt o.d 3 1
def OpD.drift (o : OpD) : Bool := bit o.quant 0
def OpD.recast (o : OpD) : Bool := bit o.quant 1
def OpD.out (o : OpD) : Nat := bytesAt o.d 4 2
/-- IN0 to IN3. -/
def OpD.inp (o : OpD) (k : Nat) : Nat := bytesAt o.d (6 + 2 * k) 2
def OpD.entry (o : OpD) : Nat := bytesAt o.d 0xE 2
def OpD.act (o : OpD) : Nat := bytesAt o.d 0x10 1
def OpD.alpha (o : OpD) : Fl := fmtDecode 6 (bytesAt o.d 0x12 2)
/-- A field of PARAMS. -/
def OpD.p (o : OpD) (off n : Nat) : Nat := bytesAt o.d off n
def OpD.f32 (o : OpD) (off : Nat) : Fl := decode32 (bytesAt o.d off 4)

/-- Opcodes of R571. -/
def opcodes : List Nat :=
  [0x01, 0x02, 0x03, 0x10, 0x11, 0x20, 0x21, 0x30, 0x31, 0x32, 0x40, 0x42, 0x43, 0x50, 0x60, 0x61, 0x62, 0x70, 0x71, 0x80,
   0x81, 0x90, 0xA0, 0xA1, 0xB0, 0xB1, 0xC0, 0xC1, 0xC2, 0xC3, 0xC4]

/-- The layout of R569: bytes outside the listed fields and outside the PARAMS that the operation uses are zero, and the
general fields are in range. -/
def OpD.layoutOk (o : OpD) (variants : Nat) (used : List (Nat × Nat)) : Bool :=
  let free := fun i => (0x18 ≤ i && used.any (fun e => e.1 ≤ i && i < e.1 + e.2)) || (i != 0x11 && i < 0x14)
  o.variant < variants && o.quant < 4 && o.act < 10 &&
  (List.range 64).all (fun i => free i || (o.d[i]?).getD 0 == 0)

/-- VALUE under its VSRC byte (R570). -/
def OpD.value (o : OpD) (u : JobUser) (src off : Nat) : JM Nat :=
  let k := o.p src 1
  if k = 0 then pure (o.p off 8)
  else if k ≤ 8 then pure ((u.job.args[k - 1]?).getD 0)
  else badOp

/-! ## Input values -/

/-- A decoded input: its codes and scales. -/
structure In where
  t : Tensor
  codes : Array Nat
  sc : Scales
deriving DecidableEq, Repr

def In.codeI (x : In) (i : List Nat) : Nat := x.codes.getD (lin x.t.dims i) 0
/-- The value of an element as binary32 (R576, R579, R624). -/
def In.val (x : In) (i : List Nat) : Fl :=
  let v := codeFl x.t.fmt (x.codeI i)
  if x.sc.mode = 0 then rnd v else rnd (xmul (if x.t.fmt = 10 then rnd v else v) (x.sc.val i))
def In.valK (x : In) (k : Nat) : Fl := x.val (unlin x.t.dims k)
/-- An index as an I32 integer. -/
def In.intK (x : In) (k : Nat) : Int := sgn 32 (x.codes.getD k 0)

end Sys2Proof.Machine
end

