-- ==== Sys2Proof/Machine/Flux.lean ====
section
/-! DEFINITION. Sys2Proof/Machine/Flux.lean: the Flux codec (R686 to R719): block sequences, deltas, symbols, canonical
codes, the checks of a decoder, and what an encoder writes. -/
namespace Sys2Proof.Machine
open Sys2Proof

/-! ## Deltas (R691) -/

/-- DELTA mode of a FORMAT. -/
def deltaMode (fmt : Nat) : Nat :=
  match fmt with
  | 0 => 0
  | 1 => 1
  | 2 => 2
  | 10 => 3
  | _ => 4
/-- Bytes that are differenced together. -/
def deltaWidth (mode : Nat) : Nat := if mode = 2 then 2 else if mode = 3 then 4 else 1
/-- Combines one group of n bytes x with b: the difference, or back again. -/
def deltaGroup (mode : Nat) (back : Bool) (n x b : Nat) : Nat :=
  let m := 256 ^ n
  match mode with
  | 0 =>
    let h := fun (p q : Nat) => if back then (p + q) % 16 else (p + 16 - q) % 16
    h (x % 16) (b % 16) + 16 * h (x / 16) (b / 16)
  | 4 => x ^^^ b
  | _ => if back then (x + b) % m else (x + m - b) % m
/-- Differences of a block's bytes against base bytes, or the bytes back from them. -/
def deltaBytes (mode : Nat) (back : Bool) (x b : List Byte) : List Byte :=
  let w := deltaWidth mode
  ((List.range (cdiv x.length w)).flatMap (fun i =>
    let g := (x.drop (w * i)).take w
    leBytes g.length (deltaGroup mode back g.length (leNat g) (leNat ((b.drop (w * i)).take g.length)))))

/-! ## Symbols (R692) -/

def symEnd : Nat := 265
/-- Run symbols of 2h zero bytes in descending size. -/
def runSyms (h : Nat) : List Nat :=
  (List.range 9).reverse.flatMap (fun j => if h.testBit j then [256 + j] else [])
/-- Symbols of a run of n zero bytes. -/
def zeroSyms (n : Nat) : List Nat := if n = 0 then [] else runSyms (n / 2) ++ (if n % 2 = 1 then [0] else [])
/-- Symbols of a sub-stream; z zero bytes stand before the rest. -/
def symbols (z : Nat) : List Byte → List Nat
  | [] => zeroSyms z ++ [symEnd]
  | b :: t => if b = 0 then symbols (z + 1) t else zeroSyms z ++ b.toNat :: symbols 0 t
/-- Zero bytes that a run symbol stands for, or the literal. -/
def symBytes (y : Nat) : List Byte :=
  if y < 256 then [BitVec.ofNat 8 y] else List.replicate (2 ^ (y - 255)) 0

/-- Sub-streams of a block's bytes: each with its expected bytes. -/
def substreams (l : List Byte) : List (List Byte) := (List.range 8).map (fun k => (l.drop (512 * k)).take 512)

/-! ## Canonical codes (R693) -/

/-- Code lengths of the 266 symbols. -/
abbrev Lengths := List Nat

def lenOf (l : Lengths) (y : Nat) : Nat := (l[y]?).getD 0
def countLen (l : Lengths) (n : Nat) : Nat := (l.filter (fun x => x == n)).length
/-- first(L). -/
def firstCode (l : Lengths) : Nat → Nat
  | 0 => 0
  | 1 => 0
  | n + 2 => (firstCode l (n + 1) + countLen l (n + 1)) * 2
/-- The code of symbol y. -/
def codeOf (l : Lengths) (y : Nat) : Nat :=
  let n := lenOf l y
  firstCode l n + ((List.range y).filter (fun k => lenOf l k == n)).length
/-- Its bits, most significant first. -/
def codeBits (l : Lengths) (y : Nat) : List Bool :=
  let n := lenOf l y
  (List.range n).reverse.map (fun i => (codeOf l y).testBit i)
/-- Bits as bytes, bit j of the stream at bit 7 − (j mod 8), padded with zeros. -/
def packBits (l : List Bool) : List Byte :=
  (List.range (cdiv l.length 8)).map (fun i =>
    BitVec.ofNat 8 ((List.range 8).foldl (fun v j => v + (if (l[8 * i + j]?).getD false then 2 ^ (7 - j) else 0)) 0))
def streamBits (l : List Byte) : List Bool := l.flatMap (fun b => (List.range 8).map (fun j => b.toNat.testBit (7 - j)))
/-- A coded sub-stream. -/
def codeStream (l : Lengths) (syms : List Nat) : List Byte := packBits (syms.flatMap (codeBits l))

/-- The symbol whose code is the n bits of value v. -/
def symbolOf (l : Lengths) (n v : Nat) : Option Nat :=
  let f := firstCode l n
  if f ≤ v ∧ v < f + countLen l n then ((List.range 266).filter (fun y => lenOf l y == n))[v - f]? else none
/-- Decodes bits: the symbols before END and the bits after it; none where the bits end before END. -/
def decodeBits (l : Lengths) : List Bool → Nat → Nat → List Nat → Option (List Nat × List Bool)
  | [], _, _, _ => none
  | b :: t, n, v, out =>
    let v1 := 2 * v + b2n b
    match symbolOf l (n + 1) v1 with
    | some y => if y = symEnd then some (out.reverse, t) else decodeBits l t 0 0 (y :: out)
    | none => if n + 1 < 15 then decodeBits l t (n + 1) v1 out else none

/-! ## Table images (R689) -/

/-- Σ 2^(15 − length) over symbols with a code. -/
def kraft (l : Lengths) : Nat := l.foldl (fun n x => if x = 0 then n else n + 2 ^ (15 - x)) 0
def lengthsOk (l : Lengths) : Bool := l.all (fun x => x == 0) || kraft l == 2 ^ 15
def imageBytes (l : Lengths) : List Byte :=
  let body := (List.range 133).map (fun j => BitVec.ofNat 8 (lenOf l (2 * j) + 16 * lenOf l (2 * j + 1))) ++ List.replicate 3 0
  body ++ leBytes 4 (crc32c body) ++ List.replicate 20 0
def imageLengths (d : List Byte) : Lengths :=
  (List.range 266).map (fun y => if y % 2 = 0 then bytesAt d (y / 2) 1 % 16 else bytesAt d (y / 2) 1 / 16)
/-- A valid image with some code (R689, R704 reason 5). -/
def imageOk (d : List Byte) : Bool :=
  let l := imageLengths d
  bytesAt d 0x88 4 == crc32c (d.take 0x88) && lengthsOk l && l.any (fun x => x != 0)

/-! ## Smallest code lengths (R697) -/

/-- A package: its weight and the symbols in it. -/
abbrev Package := Nat × List Nat
/-- Puts a package in its place by weight. -/
def putPackage (p : Package) : List Package → List Package
  | [] => [p]
  | q :: t => if p.1 < q.1 then p :: q :: t else q :: putPackage p t
def pairUp : List Package → List Package
  | a :: b :: t => (a.1 + b.1, a.2 ++ b.2) :: pairUp t
  | _ => []
/-- The packages of level n from the coins of every level. -/
def packages (coins : List Package) : Nat → List Package
  | 0 => coins
  | n + 1 => (pairUp (packages coins n)).foldl (fun l p => putPackage p l) coins
/-- Lengths of at most 15 with the smallest Σ count × length, by packages of coins. -/
def smallestLengths (counts : List Nat) : Lengths :=
  let coins := (counts.zipIdx.filter (fun e => e.1 != 0)).foldl (fun l e => putPackage (e.1, [e.2]) l) []
  let taken := ((packages coins 14).take (2 * coins.length - 2)).flatMap (fun p => p.2)
  (List.range 266).map (fun y => (taken.filter (fun k => k == y)).length)
def totalBits (counts : List Nat) (l : Lengths) : Nat := ((List.range 266).map (fun y => (counts[y]?).getD 0 * lenOf l y)).foldl (· + ·) 0
/-- The lengths the device builds: any valid set with the smallest total. -/
def builtLengths (counts : List Nat) : Lengths :=
  let best := smallestLengths counts
  let l := Config.codeLengths counts
  if l.length = 266 && l.all (fun x => x ≤ 15) && kraft l == 2 ^ 15 &&
      (List.range 266).all (fun y => ((counts[y]?).getD 0 == 0) == (lenOf l y == 0)) && totalBits counts l == totalBits counts best
  then l else best

/-! ## Decoding (R702 to R708) -/

/-- Outcome of one block: its content, or the reason of R704; whether sub-streams over- or underran; the header's
address. -/
structure BlockRead where
  content : Option (List Byte)
  reason : Nat := 0
  overrun : Bool := false
  underrun : Bool := false
  addr : Nat
deriving DecidableEq, Repr

/-- Content bytes of block i of a sequence of `len` bytes. -/
def blockLen (len i : Nat) : Nat := min 4096 (len - 4096 * i)
/-- n_k of a block of n bytes. -/
def subLen (n k : Nat) : Nat := min 512 (n - 512 * k)
/-- CLEN that R688 asks for a payload of n bytes. -/
def clenOf (n : Nat) : Nat := 32 * cdiv (32 + n) 32

/-- The sequence header of `len` content bytes agrees (reason 1). -/
def seqHeaderOk (t : Tensor) (len : Nat) (h : List Byte) : Bool :=
  bytesAt h 0 4 == 0x51F1C500 && bytesAt h 0x1C 4 == crc32c (h.take 0x1C) && bytesAt h 0xA 1 == t.fmt &&
  bytesAt h 0x10 8 == len && bytesAt h 0x18 4 ≤ t.capacity
/-- Table epochs by the header's BYPASS. -/
def headerEpochs (len : Nat) (h : List Byte) : Nat := if bit (bytesAt h 0xB 1) 0 then 0 else seqEpochs len
/-- End of the table images. -/
def tablesEnd (len : Nat) (h : List Byte) : Nat := seqTables len + 160 * headerEpochs len h
/-- A block header agrees (reason 3). -/
def blockHeaderOk (t : Tensor) (len i : Nat) (b : List Byte) : Bool :=
  let n := blockLen len i
  let mode := bytesAt b 2 1
  let store := mode % 4
  let sub := fun k => bytesAt b (0xA + 2 * k) 2
  let total := (List.range 8).foldl (fun v k => v + sub k) 0
  bytesAt b 0 2 == 0xF1C5 && store ≤ 2 && mode / 4 % 4 == 0 && mode / 128 == 0 && mode / 16 == deltaMode t.fmt &&
  bytesAt b 4 2 == n && bytesAt b 0x1A 2 == i % 65536 &&
  (match store with
   | 0 => (List.range 8).all (fun k => sub k == subLen n k) && bytesAt b 6 2 == clenOf n
   | 1 => (List.range 8).all (fun k => subLen n k != 0 || sub k == 0) && bytesAt b 6 2 == clenOf total
   | _ => (List.range 8).all (fun k => sub k == 0) && bytesAt b 6 2 == 32)

/-- One decoded sub-stream of n expected bytes: none where it is MALFORMED; else its bytes, over, under (R705). -/
def decodeSub (l : Lengths) (n : Nat) (d : List Byte) : Option (List Byte × Bool × Bool) :=
  if n = 0 then some ([], false, false)
  else match decodeBits l (streamBits d) 0 0 [] with
  | none => none
  | some (syms, rest) =>
    if 7 < rest.length || rest.any (fun b => b) then none
    else
      let out := syms.flatMap symBytes
      some ((out ++ List.replicate n 0).take n, decide (n < out.length), decide (out.length < n))

/-- Reads and decodes block i of a sequence of `len` content bytes, by what reads its bytes and what reads its base's
content bytes where it has one. -/
def readBlockBy {m : Type → Type} [Monad m] (rd : Nat → Nat → m (List Byte)) (rdBase : Option (Nat → Nat → m (List Byte)))
    (t : Tensor) (len i : Nat) : m BlockRead := do
  let n := blockLen len i
  let h ← rd t.addr 32
  if !seqHeaderOk t len h then pure { content := none, reason := 1, addr := t.addr }
  else
    let ix ← rd (t.addr + 0x20 + 4 * i) 4
    let start := 32 * (leNat ix % 2 ^ 26)
    let ha := t.addr + start
    if start < tablesEnd len h || t.capacity < start + 32 then pure { content := none, reason := 2, addr := ha }
    else
      let b ← rd ha 32
      if t.capacity < start + bytesAt b 6 2 then pure { content := none, reason := 2, addr := ha }
      else if !blockHeaderOk t len i b then pure { content := none, reason := 3, addr := ha }
      else if bytesAt b 8 2 ≠ (if rdBase.isSome then 0 else 0xFFFF) then pure { content := none, reason := 4, addr := ha }
      else
        let store := bytesAt b 2 1 % 4
        let img ← if store = 1 && headerEpochs len h ≠ 0 then
            rd (t.addr + seqTables len + 160 * (i / 1024)) 160 else pure (List.replicate 160 0)
        if store = 1 && !imageOk img then pure { content := none, reason := 5, addr := ha }
        else
          let sub := fun k => bytesAt b (0xA + 2 * k) 2
          let total := (List.range 8).foldl (fun v k => v + sub k) 0
          let payload ← if total = 0 then pure [] else rd (ha + 32) total
          let subs : List (Option (List Byte × Bool × Bool)) := (List.range 8).map (fun k =>
            let d := (payload.drop ((List.range k).foldl (fun v j => v + sub j) 0)).take (sub k)
            match store with
            | 0 => some (d, false, false)
            | 1 => decodeSub (imageLengths img) (subLen n k) d
            | _ => some (List.replicate (subLen n k) 0, false, false))
          let overrun := subs.any (fun x => match x with | some y => y.2.1 | none => false)
          let underrun := subs.any (fun x => match x with | some y => y.2.2 | none => false)
          if subs.any (fun x => x.isNone) then
            pure { content := none, reason := 6, overrun := overrun, underrun := underrun, addr := ha }
          else
            let delta := subs.flatMap (fun x => match x with | some y => y.1 | none => [])
            let bb ← match rdBase with
              | some f => f (4096 * i) n
              | none => pure (List.replicate n 0)
            let content := deltaBytes (deltaMode t.fmt) true delta bb
            if crc32c content = bytesAt b 0x1C 4 then
              pure { content := some content, overrun := overrun, underrun := underrun, addr := ha }
            else pure { content := none, reason := 7, overrun := overrun, underrun := underrun, addr := ha }
/-- Block i of a compressed tensor of an operation. -/
def readBlock (u : JobUser) (t : Tensor) (base : Option Tensor) (i : Nat) : JM BlockRead :=
  readBlockBy (jreadAll u) (base.map (fun bt => fun o n => jreadAll u (bt.addr + o) n)) t (contentLen t t.dims) i

/-- Counts what a decoder of this device met for a reading master of a context (R705, R706, R719). -/
def State.countBlock (s : State) (master ctx : Nat) (b : BlockRead) (subst : Bool) : State :=
  let s1 := if b.overrun then s.bump Blk.flx 2 else s
  let s2 := if b.underrun then s1.bump Blk.flx 3 else s1
  if b.content.isSome then
    let v := (s2.reg Blk.flx 0x150).toNat + 2 ^ 32 * (s2.reg Blk.flx 0x154).toNat
    s2.setPair Blk.flx 0x150 ((v + 1) % 2 ^ 64)
  else
    let info := at_ master 24 8 ||| at_ (if ctx < 32 then ctx else 0) 16 5 ||| bitAt subst 11 ||| at_ b.reason 0 4
    let s3 := if s2.pend Blk.flx 4 then s2.bump Blk.flx 4
      else ((s2.setReg Blk.flx 0x130 info).setPair Blk.flx 0x134 b.addr).bump Blk.flx 4
    if subst then s3.bump Blk.flx 5 else s3

/-- Marks the job's record SUBSTITUTED (R706). -/
def State.markSubst (s : State) (f : Nat) : State :=
  match (s.flask f).running with
  | some r => s.setFlask f { s.flask f with running := some { r with substituted := true } }
  | none => s

/-- Reads block i of a compressed input with the reaction of R706. -/
def takeBlock (u : JobUser) (t : Tensor) (base : Option Tensor) (i : Nat) : JM (List Byte) := do
  let b ← readBlock u t base i
  let s ← get
  let here := chipOf t.addr == s.bus.chipId
  match b.content with
  | some d => do
    if here then set (s.countBlock u.cru u.job.ctx b false)
    pure d
  | none =>
    match base, bit t.flags 0 with
    | some bt, true => do
      let d ← jreadAll u (bt.addr + 4096 * i) (blockLen (contentLen t t.dims) i)
      let s ← get
      set ((if here then s.countBlock u.cru u.job.ctx b true else s).markSubst u.f)
      pure d
    | _, _ => do
      if here then set (s.countBlock u.cru u.job.ctx b false)
      jmFail (.stop stFlux 0 t.ix)

/-- Codes of a compressed tensor. -/
def readCompressed (u : JobUser) (t : Tensor) : JM (Array Nat) := do
  let base ← baseOf u t
  let l ← (List.range (seqBlocks (contentLen t t.dims))).mapM (fun i => takeBlock u t base i)
  let d := l.flatten.toArray
  pure (t.gatherCodes [{ addr := 0, lo := 0, hi := t.dim t.split }] (fun _ o => (d.getD o 0).toNat))

/-- Codes of an input in any form. -/
def readCodes (u : JobUser) (t : Tensor) : JM (Array Nat) := if t.compress = 1 then readCompressed u t else readPlain u t

/-! ## Encoding (R696 to R701) -/

/-- Attributes of the page that holds a 40-bit address: PROTECTED, COMPRESS_OK. A peer's are a free value here. -/
def State.pageAttrs (s : State) (free a : Nat) : Bool × Bool :=
  if chipOf a = s.bus.chipId then
    (match s.governing (localOf a) with
     | some e => (s.entProtected e, s.entCompress e)
     | none => (false, true))
  else (Config.freeBool free, Config.freeBool (free + 1))
/-- Pages of a byte range, by the address of each. -/
def pagesOf (r : Nat × Nat) : List Nat := (List.range ((r.2 + 4095) / 4096 - r.1 / 4096)).map (fun i => (r.1 / 4096 + i) * 4096)
/-- REASON of R701 for a COPY: 1 PROTECTED, 2 COMPRESS_OK 0, 0 for none. -/
def State.bypassReason (s : State) (u : JobUser) (src out : Tensor) (base : Option Tensor) : Nat :=
  let seq := (s.ranges u out).flatMap pagesOf
  let other := (s.ranges u src).flatMap pagesOf ++ (match base with | some b => (s.ranges u b).flatMap pagesOf | none => [])
  let prot := fun (l : List Nat) => l.any (fun a => !(inHearth (localOf a)) && (s.pageAttrs (s.free + 2 * (a / 4096)) a).1)
  if prot seq || prot other then 1
  else if seq.any (fun a => !(s.pageAttrs (s.free + 2 * (a / 4096)) a).2) then 2 else 0

/-- One encoded block: its bytes, and its STORE mode. -/
def encodeBlock (t : Tensor) (bypass : Bool) (lengths : Lengths) (i : Nat) (content delta : List Byte) : List Byte × Nat :=
  let n := content.length
  let coded := (substreams delta).map (fun d => if d = [] then [] else codeStream lengths (symbols 0 d))
  let codedLen := coded.foldl (fun v d => v + d.length) 0
  let store := if bypass then 0 else if delta.all (fun b => b == 0) then 2 else if clenOf codedLen < clenOf n then 1 else 0
  let subs : List (List Byte) := match store with
    | 0 => substreams delta
    | 1 => coded
    | _ => List.replicate 8 []
  let payload := subs.flatten
  let clen := if store = 2 then 32 else clenOf payload.length
  let hdr := leBytes 2 0xF1C5 ++ leBytes 1 (store + 16 * deltaMode t.fmt) ++
    leBytes 1 (if store = 1 then (t.tableId + i / 1024) % 64 else 0xFF) ++ leBytes 2 n ++ leBytes 2 clen ++
    leBytes 2 (if t.base = 0xFFFF then 0xFFFF else 0) ++ subs.flatMap (fun d => leBytes 2 d.length) ++
    leBytes 2 (i % 65536) ++ leBytes 4 (crc32c content)
  (hdr ++ payload ++ List.replicate (clen - 32 - payload.length) 0, store)

/-- The lengths an epoch's blocks are coded with: counted over all its non-empty sub-streams. -/
def epochLengths (deltas : List (List Byte)) : Lengths :=
  let syms := deltas.flatMap (fun d => (substreams d).flatMap (fun x => if x = [] then [] else symbols 0 x))
  let arr := syms.foldl (fun (a : Array Nat) y => a.setIfInBounds y (a.getD y 0 + 1)) (Array.replicate 266 0)
  builtLengths arr.toList

/-- A whole encoded sequence: the blocks with their STORE modes, and the lengths of each epoch that has a CODED block. -/
def encodeBlocks (t : Tensor) (bypass : Bool) (content base : Array Byte) : List (List Byte × Nat) × List Lengths :=
  let len := content.size
  let n := seqBlocks len
  let cut := fun (a : Array Byte) i => (List.range (blockLen len i)).map (fun j => a.getD (4096 * i + j) 0)
  let deltas := (List.range n).map (fun i => deltaBytes (deltaMode t.fmt) false (cut content i) (cut base i))
  let epochs := if bypass then [] else
    (List.range (seqEpochs len)).map (fun e => epochLengths ((deltas.drop (1024 * e)).take 1024))
  let blocks := deltas.zipIdx.map (fun d => encodeBlock t bypass ((epochs[d.2 / 1024]?).getD []) d.2 (cut content d.2) d.1)
  let images := epochs.zipIdx.map (fun l =>
    if ((blocks.drop (1024 * l.2)).take 1024).any (fun b => b.2 == 1) then l.1 else List.replicate 266 0)
  (blocks, images)

/-- Adds to the encode statistics of R719. -/
def State.countEncode (s : State) (inBytes outBytes raw zeros : Nat) : State :=
  let pair := fun (s : State) o k => s.setPair Blk.flx o (((s.reg Blk.flx o).toNat + 2 ^ 32 * (s.reg Blk.flx (o + 4)).toNat + k) % 2 ^ 64)
  let s1 := pair (pair s 0x140 inBytes) 0x148 outBytes
  let k := s1.reg Blk.flx 0x158
  s1.setReg Blk.flx 0x158 (at_ (fld k 16 16 + raw) 16 16 ||| at_ (fld k 0 16 + zeros) 0 16)

/-- Places of the blocks from the end of the tables on. -/
def blockPlaces (first : Nat) (blocks : List (List Byte × Nat)) : List (Nat × List Byte × Nat) :=
  (blocks.foldl (fun (a : List (Nat × List Byte × Nat) × Nat) b => ((a.2, b) :: a.1, a.2 + b.1.length)) ([], first)).1.reverse
/-- The index of blocks, zero padded to 32 bytes. -/
def blockIndex (places : List (Nat × List Byte × Nat)) : List Byte :=
  places.flatMap (fun p => leBytes 4 (p.1 / 32)) ++
    List.replicate (32 * cdiv (4 * places.length) 32 - 4 * places.length) 0
/-- The sequence header of R687. -/
def seqHeader (t : Tensor) (blocks epochs : Nat) (bypass : Bool) (len used : Nat) : List Byte :=
  let hdr := leBytes 4 0x51F1C500 ++ leBytes 4 blocks ++ leBytes 2 epochs ++ leBytes 1 t.fmt ++
    leBytes 1 (b2n bypass + 2 * b2n (t.base == 0xFFFF)) ++ leBytes 4 0 ++ leBytes 8 len ++ leBytes 4 used
  hdr ++ leBytes 4 (crc32c hdr)

/-- Writes a sequence in the order of R699 after SEQ_MAGIC has been zeroed. A block that would end beyond CAPACITY stops
the COPY with CODE 13. -/
def writeSequence (u : JobUser) (t : Tensor) (bypass : Bool) (content base : Array Byte) : JM Unit := do
  let len := content.size
  let (blocks, images) := encodeBlocks t bypass content base
  let first := seqTables len + 160 * images.length
  let places := blockPlaces first blocks
  let fit := places.takeWhile (fun p => p.1 + p.2.1.length ≤ t.capacity)
  let _ ← fit.mapM (fun p => jwriteAllAs Config.mFlux u (t.addr + p.1) p.2.1)
  let raw := (fit.filter (fun p => p.2.2 == 0)).length
  let zeros := (fit.filter (fun p => p.2.2 == 2)).length
  let bytes := fit.foldl (fun v p => v + p.2.1.length) 0
  if fit.length < places.length then
    let s ← get
    set (s.countEncode (4096 * fit.length) bytes raw zeros)
    jmFail (.stop stDescriptor 13 t.ix)
  else
    jwriteAllAs Config.mFlux u (t.addr + 0x20) (blockIndex places ++ images.flatMap imageBytes)
    let full := seqHeader t blocks.length images.length bypass len (first + bytes)
    jwriteAllAs Config.mFlux u (t.addr + 4) (full.drop 4)
    jwriteAllAs Config.mFlux u t.addr (full.take 4)
    let s ← get
    set (s.countEncode len (first + bytes) raw zeros)

end Sys2Proof.Machine
end

