-- ==== Sys2Proof/Machine/Clk.lean ====
section
/-! DEFINITION. Sys2Proof/Machine/Clk.lean: clock domains, switches and muxes, gates, the clock meter, DVFS point and
PLL_PIX settings (R174 to R214). -/
namespace Sys2Proof.Machine
open Sys2Proof

/-- A refusal of the CLK frame: CLK_SW_REFUSE advances and captures domain, source and reason. -/
def State.clkRefuse (s : State) (d src reason : Nat) : State :=
  s.bumpInfo Blk.clk 3 0x140 (at_ d 16 3 ||| at_ src 12 4 ||| at_ reason 0 4)

/-- The source is permitted for the domain (R175). -/
def srcAllowed (d c : Nat) : Bool :=
  match d with
  | 0 => c == 0 || c == 2
  | 1 | 2 => c == 8 || c == 1
  | 3 => c == 7 || c == 1
  | 4 => c == 4 || c == 3
  | 5 => c == 5 || c == 8 || c == 3
  | 6 => c == 6 || c == 3
  | _ => false

def Phase.moving : Phase → Bool
  | .switching _ => true
  | _ => false

/-- The first condition of R179 a request fails. -/
def State.switchReason (s : State) (d c : Nat) : Option Nat :=
  let x := s.domain d
  if x.phase = .hung then some 5
  else if !srcAllowed d c then some 2
  else if x.phase.moving then some 3
  else if d = 1 && (List.range 4).any (fun k => (s.fbc k).st != .off) then some 4
  else if !s.srcReady c then some 1
  else none

/-- A write of CLK_SELd.REQ (R179, R180). -/
def State.clockSwitch (s : State) (d c : Nat) : State :=
  match s.switchReason d c with
  | some r => s.clkRefuse d c r
  | none =>
    let x := s.domain d
    if x.active = c then s.bump Blk.clk 2
    else s.setDomain d { x with phase := .switching c, hw := false }

/-- CLOCK_SWITCH_REQUEST. -/
def execClockSwitchRequest (d : Fin 7) (c : BitVec 4) (s : State) : Host.Outcome State Fault Refusal :=
  done s (s.clockSwitch d.val c.toNat)

/-- A move completes: the new source is active and CLK_SW counts it. -/
def State.moveDone (s : State) (d : Nat) : State :=
  let x := s.domain d
  match x.phase with
  | .switching c => (s.setDomain d { x with active := c, phase := .idle, hw := false }).bump Blk.clk 2
  | _ => s

/-- CHECKED_SWITCH_COMPLETE of AON, BUS, TB or PIX (R181). TB_NOW is neither reset nor stepped (R183). -/
def execCheckedSwitchComplete (d : Fin 4) (s : State) : Host.Outcome State Fault Refusal := done s (s.moveDone d.val)

/-- MUX_MOVE_COMPLETE of CRU, FAB or MED (R184). -/
def execMuxMoveComplete (d : Fin 3) (s : State) : Host.Outcome State Fault Refusal := done s (s.moveDone (4 + d.val))

/-- The hardware moves AON to LFRC (R198, R200): a checked switch of its own, which a software request does not stop. -/
def State.hwToLfrc (s : State) : State :=
  let x := s.domain 0
  if x.active = 2 && !x.phase.moving then s
  else if x.phase = .switching 2 then s.setDomain 0 { x with hw := true }
  else if x.active = 2 then s.setDomain 0 { x with phase := .idle, hw := false }
  else s.setDomain 0 { x with phase := .switching 2, hw := true }

/-- READY of a source falls: a checked switch to it that is not complete is abandoned and counted as refused with
NOT_READY (R182). -/
def State.readyFall (s : State) (c : Nat) : State :=
  (List.range 4).foldl (fun s d =>
    let x := s.domain d
    if x.phase = .switching c then (s.setDomain d { x with phase := .idle, hw := false }).clkRefuse d c 1 else s)
  (s.setReady c false)

/-- SOURCE_READY_CHANGE (R174, R182). LFRC is always ready. -/
def execSourceReadyChange (c : Fin 9) (up : Bool) (s : State) : Host.Outcome State Fault Refusal :=
  if c.val = 2 then done s s
  else if up then done s (s.setReady c.val true)
  else done s (s.readyFall c.val)

/-- MUX_HANG: SWITCHING has lasted 10 µs because the old clock is stopped (R185, R186); a hang of FAB is a Class D
fault at once (R188). -/
def execMuxHang (d : Fin 3) (s : State) : Host.Outcome State Fault Refusal :=
  let k := 4 + d.val
  let x := s.domain k
  if x.phase.moving then
    let s1 := (s.setDomain k { x with phase := .hung }).bump Blk.clk 5
    done s (if k = 5 then s1.classDFault 4 else s1)
  else done s s

/-- A domain reset of CRU or MED starts: the contexts concerned are torn down, DOMRST advances (R188). -/
def State.domainResetStart (s : State) (d : Nat) : State :=
  let x := s.domain d
  if x.phase = .hung && !x.resetting then
    ((s.setDomain d { x with resetting := true }).bump Blk.rst 6).domainTeardown d
  else s

/-- A Secure write of CLK_DOMRST (R188): CRU is 4, MED is 6, other values have no effect. -/
def State.domainResetWrite (s : State) (d : Nat) : State :=
  if d = 4 ∨ d = 6 then
    if (s.domain d).phase = .hung then s.domainResetStart d else s.clkRefuse d 0 7
  else s
/-- DOMAIN_RESET_REQUEST. -/
def execDomainResetRequest (v : Word) (s : State) : Host.Outcome State Fault Refusal :=
  done s (s.domainResetWrite (fld v 0 3))

/-- AUTO_DOMAIN_RESET: 100 µs after HUNG with no write, the always-on core starts it itself; `med` names MED. -/
def execAutoDomainReset (med : Bool) (s : State) : Host.Outcome State Fault Refusal :=
  done s (s.domainResetStart (if med then 6 else 4))

/-- DOMAIN_RESET_COMPLETE: the blocks are reset and the mux ends on HFRC with PHASE IDLE (R188, R217). -/
def execDomainResetComplete (med : Bool) (s : State) : Host.Outcome State Fault Refusal :=
  let d := if med then 6 else 4
  let x := s.domain d
  if x.resetting then done s ((s.domainReset d).setDomain d { active := 3 })
  else done s s

/-! ## Gates -/

/-- The gate bit of a gateable block (R189). -/
def State.gateBit (s : State) (b : Blk) : Bool :=
  if b < 32 then (s.reg Blk.clk 0x160).toNat.testBit b
  else if b < 80 then (s.reg Blk.clk 0x164).toNat.testBit (b - 48)
  else (s.reg Blk.clk 0x168).toNat.testBit (b - 80)

/-- Opens every gate whose bit is 1 (R190). -/
def State.openGates (s : State) : State :=
  { s with clk.gateClosed := Tab.clear (fun b => s.gateBit b) s.clk.gateClosed }

/-- CLK_GATE_WRITE: register 0 GATE_BLK, 1 GATE_CRU0, 2 GATE_CRU1. A 1 opens the gate; a 0 requests that it close. -/
def State.gateWrite (s : State) (r : Nat) (v : Word) : State :=
  let m : Word := if r = 0 then 0xc03bee00 else if r = 1 then 0xffffffff else 0xffff
  (s.setReg Blk.clk (0x160 + 4 * r) (v &&& m)).openGates
def execClkGateWrite (r : Fin 3) (v : Word) (s : State) : Host.Outcome State Fault Refusal := done s (s.gateWrite r.val v)

/-- GATE_CLOSE: a gate requested closed closes when its block is next idle (R190). -/
def execGateClose (b : Fin 96) (s : State) : Host.Outcome State Fault Refusal :=
  if gateable b.val ∧ s.gateBit b.val = false ∧ s.blockIdle b.val then
    done s { s with clk.gateClosed := tset s.clk.gateClosed b.val true }
  else done s s

/-! ## Clock meter -/

def State.setMeter (s : State) (k : Nat) (x : Meter) : State := { s with clk.meters := Tab.set meterReset s.clk.meters k x }

/-- The reaction of R198 that the hardware takes at once: an XLF FAULT moves AON to LFRC. -/
def State.meterReact (s : State) : State := if s.targetFault 0 then s.hwToLfrc else s

/-- METER_MEASUREMENT: channel k completes a measurement with count C (R192, R193). -/
def execMeterMeasurement (k : Fin 8) (count : Nat) (s : State) : Host.Outcome State Fault Refusal :=
  if s.meterOn k.val then
    let o := 0x200 + 0x20 * k.val
    let c := min count 0xFFFFFFFF
    let e := (s.reg Blk.clk (o + 4)).toNat
    let diff := (c - e) + (e - c)
    let pw := (s.reg Blk.clk (o + 8)).toNat
    let fw := (s.reg Blk.clk (o + 12)).toNat
    let hy := (s.reg Blk.clk (o + 16)).toNat
    let x := s.meter k.val
    let pre := if pw < diff then true else if (diff : Int) ≤ (pw : Int) - hy then false else x.prewarn
    let flt := if fw < diff then true else if (diff : Int) ≤ (fw : Int) - hy then false else x.fault
    let rises := b2n (pre && !x.prewarn) + b2n ((flt || x.stopped) && !(x.fault || x.stopped))
    let s1 := s.setReg Blk.clk (o + 0x14) (BitVec.ofNat 32 c)
    done s (((s1.setMeter k.val { x with prewarn := pre, fault := flt, valid := true }).bumpBy Blk.clk (6 + k.val) rises).meterReact)
  else done s s

/-- METER_STOPPED: the target shows no edge during 2 reference cycles (R194). -/
def execMeterStopped (k : Fin 8) (s : State) : Host.Outcome State Fault Refusal :=
  let x := s.meter k.val
  if s.meterOn k.val && !x.stopped then
    let s1 := s.setMeter k.val { x with stopped := true }
    done s ((if x.fault then s1 else s1.bump Blk.clk (6 + k.val)).meterReact)
  else done s s

/-- STOPPED_TARGET_EDGE: the target's first edge ends STOPPED (R194). A target of 12 to 15 has no clock. -/
def execStoppedTargetEdge (k : Fin 8) (s : State) : Host.Outcome State Fault Refusal :=
  if s.meterTarget k.val < 12 then done s (s.setMeter k.val { s.meter k.val with stopped := false }) else done s s

/-- METER_CFG_WRITE: register r of channel k (0 CFG, 1 EXP, 2 PW, 3 FW, 4 HYST); the measurement in progress is
discarded (R197). -/
def State.meterWrite (s : State) (k r : Nat) (v : Word) : State :=
  let m : Word := if r = 0 then 0x9f10000f else 0xffffffff
  let s1 := s.setReg Blk.clk (0x200 + 0x20 * k + 4 * r) (v &&& m)
  let x := s.meter k
  let moved := s1.meterTarget k != s.meterTarget k
  let stop := if 12 ≤ s1.meterTarget k then s1.meterOn k else x.stopped && !moved
  s1.setMeter k { x with valid := false, stopped := stop }
def execMeterCfgWrite (k : Fin 8) (r : Fin 5) (v : Word) (s : State) : Host.Outcome State Fault Refusal :=
  done s (s.meterWrite k.val r.val v)

/-- XLF_STOP: the amplitude detector sees the oscillation stop; the always-on core moves AON to LFRC (R200, R208). -/
def execXlfStop (s : State) : Host.Outcome State Fault Refusal := done s (s.readyFall 0).hwToLfrc

/-! ## DVFS point and PLL_PIX -/

/-- A write of CLK_CRU_POINT (R202). -/
def State.cruPointWrite (s : State) (p : Nat) : State :=
  if (s.domain 4).active = 4 then s.clkRefuse 4 4 4
  else (s.setReg Blk.clk 0x104 (BitVec.ofNat 32 (p % 4))).setReady 4 false
def execCruPointWrite (v : Word) (s : State) : Host.Outcome State Fault Refusal := done s (s.cruPointWrite (fld v 0 2))

/-- The settings give f_vco, POSTDIV and f_pix within R204 (38.4 MHz reference, NF in 1/65 536). -/
def pixInRange (ni nf post : Nat) : Bool :=
  let x := 38400000 * (ni * 65536 + nf)
  1600000000 * 65536 ≤ x && x ≤ 3200000000 * 65536 && 2 ≤ post && post ≤ 63 &&
  25000000 * 65536 * post ≤ x && x ≤ 600000000 * 65536 * post

/-- PIX_PLL_WRITE: CLK_PIX_MUL, or CLK_PIX_DIV when `div` (R204). -/
def State.pixWrite (s : State) (div : Bool) (v : Word) : State :=
  let mul := if div then s.reg Blk.clk 0x108 else v &&& 0x7fffff
  let post := if div then fld v 0 6 else fld (s.reg Blk.clk 0x10C) 0 6
  if !pixInRange (fld mul 16 7) (fld mul 0 16) post then s.clkRefuse 3 7 6
  else if (s.domain 3).active = 7 then s.clkRefuse 3 7 4
  else if div then s.setReg Blk.clk 0x10C (v &&& 0x3f) else s.setReg Blk.clk 0x108 (v &&& 0x7fffff)
def execPixPllWrite (div : Bool) (v : Word) (s : State) : Host.Outcome State Fault Refusal := done s (s.pixWrite div v)

end Sys2Proof.Machine
end

