-- ==== Sys2Proof/Machine/Rst.lean ====
section
/-! DEFINITION. Sys2Proof/Machine/Rst.lean: resets, the boot ROM, hand-off to firmware, and the PCI Express link's
readiness (R215 to R253). -/
namespace Sys2Proof.Machine
open Sys2Proof

/-! ## Resets -/

/-- PORN_ASSERT (R217). -/
def execPornAssert (s : State) : Host.Outcome State Fault Refusal :=
  let s1 := s.porScope
  done s (({ s1 with rst.porn := true }).setReg Blk.rst 0x100 1)

/-- The straps are sampled (R77, R222). -/
def State.sampleStraps (s : State) (boot chip : Fin 4) : State := { s with rst.boot := boot.val, bus.chipId := chip.val }

/-- PORN_RELEASE (R222). -/
def execPornRelease (boot chip : Fin 4) (s : State) : Host.Outcome State Fault Refusal :=
  done s (if s.rst.porn then { s.sampleStraps boot chip with rst.porn := false } else s)

/-- WARMN_ASSERT (R215, R216, R243). -/
def execWarmnAssert (s : State) : Host.Outcome State Fault Refusal :=
  done s (if s.rst.porn || s.aon.porHeld then s else s.warmReset true)

/-- CLASS_D_RESET (R1011, R1024). -/
def execClassDReset (s : State) : Host.Outcome State Fault Refusal :=
  done s (if s.rst.classD.isSome then s.warmReset false else s)

/-- PERSTN_ASSERT (R215, R221): the pin, or a Hot Reset or DL_Down. -/
def execPerstnAssert (pin : Bool) (s : State) : Host.Outcome State Fault Refusal := done s (s.perstScope pin)

/-- PERSTN_DEASSERT (R139, R239). -/
def execPerstnDeassert (s : State) : Host.Outcome State Fault Refusal :=
  done s { s with rst.perst := false, aon.peWake := false }

/-- A Secure write of RST_BLK_RESET (R251). -/
def State.blkResetWrite (s : State) (b : Nat) : State :=
  if haltGroup b then (s.blockReset b).bump Blk.rst 7 else s.bump Blk.rst 9
/-- BLOCK_RESET (R215, R217, R251). -/
def execBlockReset (index : BitVec 8) (s : State) : Host.Outcome State Fault Refusal :=
  done s (s.blkResetWrite index.toNat)

/-- TRSTN_ASSERT (R215): the test access port alone. -/
def execTrstnAssert (s : State) : Host.Outcome State Fault Refusal := done s { s with jtag := {} }

/-- AON_POWER_ON_RESET (R160): VDD_AON is below its power-on-reset threshold. -/
def execAonPowerOnReset (s : State) : Host.Outcome State Fault Refusal :=
  let s1 := s.aonScope
  done s { s1 with aon.porHeld := true }

/-- AON_POWER_ON_RESET_END (R151, R160, R161, R222): VDD_AON was below its threshold for `belowUs` µs. -/
def execAonPowerOnResetEnd (boot chip : Fin 4) (belowUs : Nat) (s : State) : Host.Outcome State Fault Refusal :=
  done s (if !s.aon.porHeld then s
    else
      let (f, s1) := if 2000 ≤ belowUs ∧ belowUs < 10000 then s.takeBool else (decide (belowUs < 2000), s)
      let s2 := { s1.sampleStraps boot chip with aon.porHeld := false, aon.grave := if f then s1.aon.grave else none }
      { s2 with qch.st := if s2.aon.grave.isSome then .grave else .disarmed })

/-! ## Boot ROM (R224 to R236) -/

/-- Writes STAGE. -/
def State.setStage (s : State) (n : Nat) : State := s.setFld Blk.rst 0x10C 0 4 n
/-- The ROM halts (R249). -/
def State.romHalt (s : State) (code : Nat) : State :=
  { (s.setStage 15).setFld Blk.rst 0x10C 20 4 code with rst.rom := .halted }
/-- The ROM runs: no reset is asserted or held. -/
def State.romRuns (s : State) : Bool := !(s.rst.porn || s.rst.warmn || s.aon.porHeld || s.baro.held || s.frozen)
/-- Fills the TCM with zeros. -/
def State.zeroTcm (s : State) : State := s.zeroRange 0x30100000 0x80000

/-- BOOT_ROM_START (R224 step 1): `otpOk` is the outcome of the OTP integrity check (R1033). -/
def execBootRomStart (otpOk : Bool) (s : State) : Host.Outcome State Fault Refusal :=
  done s (if s.rst.rom = .start ∧ s.romRuns then
      let s1 := { s with rf.parityBad := Tab.clear (fun k => k / 0x10000 == Blk.rst) s.rf.parityBad }
      let s2 := (s1.setStage 0).zeroTcm
      if !otpOk then s2.romHalt 2
      else if s.rst.boot = 3 then s2.romHalt 1
      else { s2.setStage 1 with rst.rom := .clocks }
    else s)

/-- The ROM opens the staging window (R232). -/
def State.openWindow (s : State) : State := { s.setStage 3 with rst.rom := .waitPush, rst.window := true }

/-- The order of R229: the slot checked first. -/
def State.firstSlot (s : State) : Nat :=
  let last := s.reg Blk.rst 0x100
  let named := fld (s.reg Blk.rst 0x10C) 4 2
  if fld last 0 3 = 3 ∧ fld last 16 4 = 5 ∧ named < 2 then 1 - named
  else match s.slotMagic 0, s.slotMagic 1 with
  | true, false => 0
  | false, true => 1
  | _, _ => if s.slotSeq 0 < s.slotSeq 1 then 1 else 0

/-- BOOT_CLOCKS (R224 step 2): BUS, TB and FAB move to PLL_BUS; the image source follows from the strap (R223). -/
def execBootClocks (s : State) : Host.Outcome State Fault Refusal :=
  done s (if s.rst.rom = .clocks ∧ s.srcReady 1 ∧ s.srcReady 8 ∧ s.romRuns then
      let s1 := ((s.seqMove 1 8).seqMove 2 8).seqMove 5 8
      if s.rst.boot = 1 then s1.openWindow
      else
        let s2 := (s1.setFld Blk.rst 0x10C 8 8 0).setStage 2
        { s2 with rst.rom := .flashHeader s2.firstSlot (some (1 - s2.firstSlot)) }
    else s)

/-- A refused slot: the other one is checked, or none is left (R229, R231). -/
def State.nextSlot (s : State) (rest : Option Nat) : State :=
  match rest with
  | some n => { s with rst.rom := .flashHeader n none }
  | none => if s.rst.boot = 0 then s.romHalt 3 else s.openWindow
def State.setReason (s : State) (slot code : Nat) : State := s.setFld Blk.rst 0x10C (8 + 4 * slot) 4 code

/-- FLASH_SLOT_CHECK (R228, R230): checks 1 to 6 on the header, then the payload is copied into the TCM. -/
def execFlashSlotCheck (s : State) : Host.Outcome State Fault Refusal :=
  done s (match s.rst.rom with
    | .flashHeader slot rest =>
      if !s.romRuns then s
      else
        let h := s.flashBytes (slotAddr slot) 0x200
        match s.headerReason h with
        | some code => (s.setReason slot code).nextSlot rest
        | none =>
          let s1 := s.store 0x30100000 (s.flashBytes (slotAddr slot + 0x200) (bytesAt h 8 4))
          { s1 with rst.rom := .flashPayload slot rest }
    | _ => s)

/-- PAYLOAD_HASH_CHECK (R228 check 7, R230). -/
def execPayloadHashCheck (s : State) : Host.Outcome State Fault Refusal :=
  done s (match s.rst.rom with
    | .flashPayload slot rest =>
      if !s.romRuns then s
      else
        let h := s.flashBytes (slotAddr slot) 0x200
        if sha384 (s.mbytes 0x30100000 (bytesAt h 8 4)) = payloadHash h then
          { s.setReason slot 8 with rst.rom := .accepted, rst.image := parseImage slot h }
        else ((s.setReason slot 7).zeroTcm).nextSlot rest
    | _ => s)

/-- A write of RST_BOOT_PUSH with GO (R234, R245). -/
def State.pushGo (s : State) : State :=
  if s.rst.rom = .waitPush then { s.setStage 4 with rst.rom := .pushVerify, rst.window := false } else s.bump Blk.rst 9
/-- BOOT_PUSH_GO. -/
def execBootPushGo (s : State) : Host.Outcome State Fault Refusal := done s s.pushGo

/-- PUSH_VERIFY_END (R234): the header in the window and the TCM copy of the payload are checked. -/
def execPushVerifyEnd (s : State) : Host.Outcome State Fault Refusal :=
  done s (if s.rst.rom = .pushVerify ∧ s.romRuns then
      let h := s.mbytes 0 0x200
      let len := bytesAt h 8 4
      let bad := match s.headerReason h with
        | some code => some code
        | none => if sha384 (s.mbytes 0x200 len) = payloadHash h then none else some 7
      match bad with
      | some code => ((((s.setFld Blk.rst 0x10C 16 4 code).bump Blk.rst 8).zeroTcm).openWindow)
      | none =>
        { (s.store 0x30100000 (s.mbytes 0x200 len)).setFld Blk.rst 0x10C 16 4 8 with
          rst.rom := .accepted, rst.image := parseImage 2 h }
    else s)

/-- FW_INIT_HANDOFF (R224 step 4, R236, R681): the watchdog starts with a period of 8 s. -/
def execFwInitHandoff (s : State) : Host.Outcome State Fault Refusal :=
  done s (if s.rst.rom = .accepted ∧ s.romRuns then
      let im := s.rst.image
      let s1 := ((s.setFld Blk.rst 0x10C 4 2 im.slot).setFld Blk.rst 0x10C 24 6 im.rollback).setStage 5
      let s2 := (s1.setReg Blk.fmn 0x100 0x8000000F).setReg Blk.mem 0x150 (BitVec.ofNat 32 (cdiv im.len 4096 * 4096))
      { s2 with rst.rom := .firmware, fmn.wdogFrom := s2.clk.now }
    else s)

/-- round(a × b / c) of the meter's windows (R196). -/
def roundDiv (a c : Nat) : Nat := (2 * a + c) / (2 * c)
/-- Programs meter channel k: target, reference, NLOG2, EXP and the release's windows (R196, R238). -/
def State.programMeter (s : State) (k target ref nlog2 exp : Nat) (en : Bool) : State :=
  let o := 0x200 + 0x20 * k
  let w := fun (ppm : Nat) => BitVec.ofNat 32 (roundDiv (exp * ppm) 1000000)
  let s := s.setReg Blk.clk (o + 4) (BitVec.ofNat 32 exp)
  let s := ((s.setReg Blk.clk (o + 8) (w 200)).setReg Blk.clk (o + 12) (w 1000)).setReg Blk.clk (o + 16) (w 50)
  s.setReg Blk.clk o (bitAt en 31 ||| at_ nlog2 24 5 ||| at_ ref 20 1 ||| at_ target 0 4)

/-- FIRMWARE_RUNNING (R237, R238, R297, R681, R1011, R1021): firmware has set its registers, holds the records of this
boot for the log and answers mailbox requests. -/
def execFirmwareRunning (s : State) : Host.Outcome State Fault Refusal :=
  done s (if s.rst.rom = .firmware ∧ s.stage = 5 ∧ !s.frozen then
      let xlf := s.srcReady 0
      let s1 := (((s.programMeter 0 10 0 15 100000000 xlf).programMeter 1 9 0 15 80000000 xlf).programMeter 2 6 0 15
        200000000 xlf).programMeter 7 0 1 26 57266 xlf
      let s2 := (((s1.programMeter 3 5 0 15 0 false).programMeter 4 7 0 15 0 false).programMeter 5 8 0 15 0 false).programMeter
        6 11 0 15 100000000 false
      let s3 := if xlf && (s2.domain 0).active != 0 && !(s2.domain 0).phase.moving then s2.clockSwitch 0 0 else s2
      -- the point-2 voltage and threshold (R1092)
      let s3 := { s3.setReg Blk.baro 0x110 40 with pins.vset := 770 }
      let s4 := (s3.setReg Blk.mem 0x154 (at_ Config.tcmCfgBase 12 8)).setReg Blk.mem 0x158 (at_ Config.tcmCfgLen 12 8)
      let last := s4.reg Blk.rst 0x100
      let cause := fld last 0 3
      let s5 := if cause = 4 then s4.logRecord 1 (fld last 8 8) 0xFF 0xFF 0 last.toNat
        else if cause = 3 then s4.logRecord 4 0 0xFF 0xFF 0 last.toNat else s4
      let s6 := s5.logRecord 5 0 0xFF 0xFF 0 last.toNat
      let (q, p) := s6.logNext
      let s7 := (s6.setStage 6).setFld Blk.fmn 0x100 0 4 3
      -- REG_EPOCH is chosen at RUNNING (R936)
      let ep := s7.clk.now % 65536
      let s7 := { s7 with inp.regEpoch := if ep = 0 then 1 else ep }
      let s8 := { s7 with fmn.logSeq := q, fmn.logPos := p, fmn.wdogFrom := s7.clk.now, fmn.wdogWarn := false }
      if s8.bus.chipId = 0 then s8
      else
        -- a device other than the lead listens on both ports and requests Gust (R728)
        ((s8.setPort 0 { s8.port 0 with listening := true }).setPort 1 { s8.port 1 with listening := true }).powerRequest 3
    else s)

/-! ## PCI Express link (R76, R239) -/

/-- LINK_TRAINING_START (R239). -/
def execLinkTrainingStart (s : State) : Host.Outcome State Fault Refusal :=
  done s (if s.rst.trainingDue && !s.rst.perst && !s.rst.porn && !s.aon.porHeld then
      { s with rst.trainingDue := false, bus.training := true }
    else s)

/-- PCIE_LINK_UP (R49, R239): the negotiated width and rate. -/
def execPcieLinkUp (width rate : Fin 5) (s : State) : Host.Outcome State Fault Refusal :=
  done s (if s.bus.training && (width == 1 || width == 2 || width == 4) && rate != 0 then
      { s with bus.training := false, bus.linkUp := true, bus.linkWidth := width.val, bus.linkRate := rate.val }
    else s)

/-- Egress copies in progress end INCOMPLETE (R855). -/
def State.egressLost (s : State) : State :=
  (List.range 8).foldl (fun s e =>
    let x := s.egress e
    if x.copy.isSome then s.setEgress e { x with incomplete := true } else s) s

/-- CONFIGURATION_REQUEST (R49, R76). -/
def execConfigurationRequest (pf1 : Bool) (what : ConfigReq) (s : State) : Host.Outcome State Fault Refusal :=
  let f := b2n pf1
  done s (if !s.bus.linkUp then s
    else match what with
    | .identity =>
      let d := leBytes 2 0x1E5A ++ leBytes 2 (0x960 + f) ++ leBytes 1 0xB0 ++ leBytes 3 0x120000
      { s with bus.readData := Tab.set (fun _ => []) s.bus.readData (Config.mPf0 + f) d }
    | .assignBars on => { s with bus.barsAssigned := tset s.bus.barsAssigned f on }
    | .busMaster on =>
      let s1 := { s with bus.busMaster := tset s.bus.busMaster f on }
      if on || pf1 then s1 else s1.egressLost
    | .msixEnable on => { s with bus.msixOn := tset s.bus.msixOn f on })

/-- AER_CORRECTABLE_ERROR (R74): the error kind in R74's order. -/
def execAerCorrectableError (kind : Fin 5) (s : State) : Host.Outcome State Fault Refusal :=
  done s { s with bus.aerCorr := tset s.bus.aerCorr kind.val true }

end Sys2Proof.Machine
end

