-- ==== Sys2Proof/Machine/Fmn.lean ====
section
/-! DEFINITION. Sys2Proof/Machine/Fmn.lean: the mailboxes, the Foreman's own commands and its watchdog (R254 to
R309). -/
namespace Sys2Proof.Machine
open Sys2Proof

/-! ## Doorbell, copy, response, acknowledgement (R259 to R264) -/

def mbBase (m : Nat) : Nat := 0x1000 + 0x400 * m

/-- A write of MBm_DOORBELL with RING (R259, R261). -/
def State.ring (s : State) (m : Nat) : State :=
  let x := s.mb m
  if x.st = .idle then s.setMb m { x with st := .posted, ringAt := s.clk.now } else s.bump Blk.fmn 2
/-- MB_DOORBELL_RING (R259, R261, R299). -/
def execMbDoorbellRing (m : MbId) (s : State) : Host.Outcome State Fault Refusal := done s (s.ring m.val)

/-- The 256 bytes of mailbox m's request area, and of its response area. -/
def State.reqArea (s : State) (m : Nat) : List Byte :=
  (List.range 64).flatMap (fun w => leBytes 4 (s.reg Blk.fmn (mbBase m + 4 * w)).toNat)
def State.setArea (s : State) (o : Nat) (l : List Byte) : State :=
  (List.range 64).foldl (fun s w => s.setReg Blk.fmn (o + 4 * w) (BitVec.ofNat 32 (bytesAt l (4 * w) 4))) s

/-- Commands marked PF1 in R277. -/
def opPf1 (op : Nat) : Bool := op = 0x0001 || op = 0x0002 || op = 0x0203 || op = 0x0306
/-- The issuer's permission (R274, R280). A CTX_REOPEN also names its context at 0x10. -/
def State.permitted (s : State) (m : Nat) (l : List Byte) : Bool :=
  let op := bytesAt l 0 2
  let mine := fun c => c == 0xFF || (s.mb m).bound == some c
  if 4 ≤ m ∧ m ≤ 7 then
    opPf1 op && mine (bytesAt l 0x0C 1) && (op != 0x0203 || (s.mb m).bound == some (bytesAt l 0x10 1))
  else if m = 8 ∨ m = 9 then op != 0x0003
  else true

/-- The Foreman runs its service loops: RUNNING is reached, it is not in Calm and no reset is due (R237). -/
def State.foremanRuns (s : State) : Bool := s.stage == 6 && s.aon.pwr != 0 && !s.frozen

/-- MAILBOX_COPY (R259, R260, R268, R271): the request is copied, then OPCODE, VERSION and permission are checked. -/
def execMailboxCopy (m : MbId) (s : State) : Host.Outcome State Fault Refusal :=
  let x := s.mb m.val
  done s (if x.st = .posted ∧ s.foremanRuns then
      let l := s.reqArea m.val
      let y := { x with st := .working, copy := l, ready := true, waiting := false, committed := false, out := none
                        progress := 0, cancelled := false }
      let s1 := { s.setMb m.val y with fmn.order := s.fmn.order.filter (fun k => k != m.val) ++ [m.val] }
      if (opClass (bytesAt l 0 2)).isNone && bytesAt l 0 2 != 0x0003 || bytesAt l 0x0A 1 != 3 then
        s1.refuse m.val rBadCommand 0
      else if !s1.permitted m.val l then s1.refuse m.val rNotPermitted 0
      else if x.cancelled then s1.refuse m.val rSuperseded 0
      else s1
    else s)

/-- The 256 bytes of a response (R266). -/
def responseBytes (op tag : Nat) (r : Resp) : List Byte :=
  let n := min 240 r.payload.length
  (leBytes 2 op ++ leBytes 2 r.code ++ leBytes 4 tag ++ leBytes 2 n ++ leBytes 1 r.progress ++ leBytes 1 0 ++
    leBytes 4 r.detail ++ r.payload.take 240 ++ List.replicate 240 0).take 256

/-- The response area is written and MBm_RESP_EVC advances; a bound mailbox also signals the PF1 vector of its
context's completion queue (R262, R275, R276). -/
def State.postArea (s : State) (m : Nat) (l : List Byte) : State :=
  let s1 := (s.setArea (mbBase m + 0x100) l).bump Blk.fmn (5 + m)
  match (s.mb m).bound with
  | some c => { s1 with rf.msixDue := tset s1.rf.msixDue (64 + c) true }
  | none => s1

/-- A response on MB8 or MB9 goes back to the requester as two MAILBOX segments (R280, R723). -/
def State.answerPeer (s : State) (m : Nat) (l : List Byte) : State :=
  let a := s.mb m
  let req := (a.peerTag, a.peer)
  match s.mailRoute req.2 with
  | none => s
  | some p =>
    [0, 1].foldl (fun s i => s.sendMsg p
      { op := opMailbox, src := s.bus.chipId, dst := req.2, tag := req.1, master := Config.mForeman, addr := m + 256 * i
        status := 1, data := (l.drop (128 * i)).take 128 }) s

/-- MAILBOX_RESPONSE_POST (R262 to R264, R266, R269, R300): the final response prepared, else a progress response of
a long command with the estimate `pct`. None is posted while RESP_EVC differs from RESP_ACK. -/
def execMailboxResponsePost (m : MbId) (pct : Fin 100) (s : State) : Host.Outcome State Fault Refusal :=
  let x := s.mb m.val
  let op := s.rqOpcode m.val
  let tag := s.rqTag m.val
  done s (if x.st ≠ .working ∨ !s.foremanRuns ∨ s.pend Blk.fmn (5 + m.val) then s
    else match x.out with
    | some r =>
      let order := s.fmn.order.filter (fun k => k != m.val)
      if x.discard then { s.setMb m.val { bound := x.bound } with fmn.order := order }
      else
        let l := responseBytes op tag r
        let s1 := { s.setMb m.val { x with st := .responded, out := none } with fmn.order := order }
        let s2 := s1.postArea m.val l
        if m.val = 8 ∨ m.val = 9 then
          let s3 := s2.answerPeer m.val l
          -- the SPR delivery has taken the response: it acknowledges it
          (s3.setAck Blk.fmn (5 + m.val) (s3.evc Blk.fmn (5 + m.val))).setMb m.val { s3.mb m.val with st := .idle }
        else s2
    | none =>
      if x.waiting && s.mbLong m.val && !x.discard then
        let p := max x.progress pct.val
        (s.setMb m.val { x with progress := p }).postArea m.val
          (responseBytes op tag { code := rInProgress, progress := p })
      else s)

/-- A write of MBm_RESP_ACK (R263). -/
def State.ackResponse (s : State) (m : Nat) (v : Count16) : State :=
  let s1 := s.setAck Blk.fmn (5 + m) v
  let x := s1.mb m
  if x.st = .responded ∧ !s1.pend Blk.fmn (5 + m) then s1.setMb m { x with st := .idle } else s1
/-- MB_RESP_ACK (R259, R263, R300). -/
def execMbRespAck (m : MbId) (v : Count16) (s : State) : Host.Outcome State Fault Refusal :=
  done s ((s.ackResponse m.val v).msixAgain Blk.fmn)

/-! ## IDENTIFY and LOG_READ -/

/-- IDENTIFY (R278). -/
def execIdentify (m : MbId) (s : State) : Host.Outcome State Fault Refusal :=
  done s (s.command m.val 0x0001 (s.rqLen m.val == 0) [] (fun s =>
    let im := s.rst.image
    s.replyDone m.val
      (leBytes 2 0x0960 ++ leBytes 2 0x00B0 ++ leBytes 4 im.release ++ leBytes 4 3 ++ leBytes 1 im.slot ++
       leBytes 1 s.bus.chipId ++ leBytes 1 s.chips ++ leBytes 1 Config.grade ++ leBytes 4 im.rollback ++
       leBytes 4 im.seq ++ leBytes 1 m.val ++ List.replicate 7 0 ++ leBytes 8 s.tbNow)))

/-- LOG_READ (R281, R1022). -/
def execLogRead (m : MbId) (s : State) : Host.Outcome State Fault Refusal :=
  let o := s.rq m.val 0x10 4
  done s (s.request m.val 0x0004 4 [(0x10, 4, true)] (fun s =>
    let t := s.logText
    s.replyDone m.val (leBytes 4 t.length ++ leBytes 4 0 ++ (t.drop o).take 224)))

/-! ## PWR_REQUEST (R282, R305, R1008) -/

/-- An earlier PWR_REQUEST, an armed Calm entry or a DVFS step is in progress. -/
def State.powerBusy (s : State) : Bool := s.fmn.pwrMb.isSome || s.fmn.calmArmed.isSome || s.fmn.dvfs.isSome

/-- PWR_REQUEST (R282, R305, R1008). A request whose transition has been abandoned is answered when the command's row
comes again. -/
def execPwrRequest (m : MbId) (s : State) : Host.Outcome State Fault Refusal :=
  let req := s.rq m.val 0x10 1
  let pay := fun (s : State) (reason : Nat) => leBytes 1 s.aon.pwr ++ leBytes 1 reason
  done s (if (s.mb m.val).waiting && s.fmn.pwrMb == some m.val then
      if s.aon.moving.isNone then { s with fmn.pwrMb := none }.refuse m.val rStateConflict 2 (pay s 0) else s
    else s.request m.val 0x0101 1 [(0x10, 1, 1 ≤ req && req ≤ 4)] (fun s =>
      if s.powerBusy then s.refuse m.val rBusy 0
      else if s.aon.moving.isSome && (s.aon.grave.isSome || s.baro.held) then s.refuse m.val rStateConflict 2 (pay s 0)
      else if req = 1 && s.aon.grave.isSome then s.refuse m.val rStateConflict 3 (pay s 0)
      else if req = 1 then { s with fmn.calmArmed := some s.clk.now }.replyDone m.val (leBytes 2 1)
      else match s.pwrReason req with
      | some r => (s.pwrRefuse req r).refuse m.val rStateConflict r (pay s r)
      | none => { (s.powerRequest req).await m.val with fmn.pwrMb := some m.val }))

/-- DEFERRED_CALM_REQUEST (R282, R1094): the Foreman writes the armed Calm request. -/
def execDeferredCalmRequest (s : State) : Host.Outcome State Fault Refusal :=
  done s (match s.fmn.calmArmed with
    | none => s
    | some t =>
      if s.foremanRuns && (s.bus.l1sub == 3 || s.rst.perst || decide (t + 2000 * tbMs ≤ s.clk.now)) then
        ({ s with fmn.calmArmed := none }).powerRequest 1
      else s)

/-! ## DVFS_POINT (R203, R283, R1092, R1093) -/

/-- VSET and THR of a DVFS point. -/
def pointVset (p : Nat) : Nat := match p with | 0 => 14 | 1 => 24 | 2 => 34 | _ => 54
def pointThr (p : Nat) : Nat := match p with | 0 => 20 | 1 => 30 | 2 => 40 | _ => 60
/-- The PMIC holds a new VDD_CORE request, in mV. -/
def State.setVset (s : State) (p : Nat) : State := { s with pins.vset := 600 + 5 * pointVset p }
/-- CLK_CRU_POINT. -/
def State.point (s : State) : Nat := fld (s.reg Blk.clk 0x104) 0 2
/-- The CRU domain goes to HFRC, PLL_CRU restarts at the new point, and the domain comes back (R202, R203). -/
def State.moveCru (s : State) (p : Nat) : State := (((s.seqMove 4 3).cruPointWrite p).setReady 4 true).seqMove 4 4
/-- The step ends: admission resumes and DVFS_POINT is answered. -/
def State.dvfsEnd (s : State) (f : State → State) : State := f { s with fmn.dvfs := none, fmn.admitStopped := false }
/-- What follows the PMIC's acceptance of the write. -/
def State.dvfsWritten (s : State) (d : DvfsStep) : State :=
  let s1 := s.setVset d.point
  let s2 := if s.point < d.point then (s1.setReg Blk.baro 0x110 (BitVec.ofNat 32 (pointThr d.point))).moveCru d.point else s1
  s2.dvfsEnd (fun s => s.replyDone d.mb)
/-- What precedes the write: nothing on a raise; on a lower, the new point runs with its lower threshold. -/
def State.dvfsBefore (s : State) (d : DvfsStep) : State :=
  if s.point < d.point then s
  else (s.moveCru d.point).setReg Blk.baro 0x110 (BitVec.ofNat 32 (pointThr d.point))
/-- No job runs on any crucible, and the CRU domain is not hung. -/
def State.dvfsReady (s : State) : Bool :=
  (List.range 8).all (fun f => (s.flask f).running.isNone) && (s.domain 4).phase == .idle
/-- The step is made as far as the write of VSET, which the PMIC accepts or not. -/
def State.dvfsGo (s : State) (d : DvfsStep) (accepted : Bool) : State :=
  if !s.dvfsReady then s
  else
    let raise := s.point < d.point
    let s1 := s.dvfsBefore d
    if accepted then
      if raise then s1.dvfsWritten d else (s1.setVset d.point).dvfsEnd (fun s => s.replyDone d.mb)
    else { s1 with fmn.dvfs := some { d with retry := true } }

/-- DVFS_POINT (R203, R283): `accepted` tells whether the PMIC accepts the VDD_CORE write. While jobs run, the row
stops admission; it comes again once none runs. -/
def execDvfsPoint (m : MbId) (accepted : Bool) (s : State) : Host.Outcome State Fault Refusal :=
  let p := s.rq m.val 0x10 1
  done s (match s.fmn.dvfs with
    | some d => if d.mb = m.val ∧ !d.retry then s.dvfsGo d accepted
        else s.request m.val 0x0102 1 [(0x10, 1, p < 4)] (fun s => s.refuse m.val rBusy 0)
    | none => s.request m.val 0x0102 1 [(0x10, 1, p < 4)] (fun s =>
      if s.aon.pwr ≠ 3 then s.refuse m.val rStateConflict 1
      else if s.powerBusy then s.refuse m.val rBusy 0
      else if s.point = p then s.refuse m.val rAlreadyDone 0
      else
        let d : DvfsStep := { mb := m.val, point := p, at0 := s.clk.now }
        ({ s.await m.val with fmn.dvfs := some d, fmn.admitStopped := true }).dvfsGo d accepted))

/-- DVFS_JOB_WAIT_TIMEOUT (R283): 5 ms after acceptance jobs still run. -/
def execDvfsJobWaitTimeout (s : State) : Host.Outcome State Fault Refusal :=
  done s (match s.fmn.dvfs with
    | some d =>
      if !d.retry && !s.dvfsReady && d.at0 + 5 * tbMs ≤ s.clk.now then s.dvfsEnd (fun s => s.refuse d.mb rBusy 0) else s
    | none => s)

/-- PMIC_WRITE_RETRY (R1093): the write is repeated once; a second failure is logged and ends the step. -/
def execPmicWriteRetry (accepted : Bool) (s : State) : Host.Outcome State Fault Refusal :=
  done s (match s.fmn.dvfs with
    | some d =>
      if !d.retry then s
      else
        let raise := s.point < d.point
        if accepted then
          if raise then s.dvfsWritten d else (s.setVset d.point).dvfsEnd (fun s => s.replyDone d.mb)
        else (s.logRecord 3 5 0xFF 0xFF 0 0).dvfsEnd (fun s => s.refuse d.mb rTimeout (if raise then 1 else 2))
    | none => s)

/-! ## Firmware update (R286 to R291, R1042) -/

/-- The target slot of R288. -/
def State.targetSlot (s : State) : Nat :=
  if s.rst.image.slot < 2 then 1 - s.rst.image.slot else if s.slotSeq 0 < s.slotSeq 1 then 0 else 1

/-- REASON of R228 for an image at local ingot address a, and its header. An image that does not lie in the ingots, or
that cannot be read, fails check 7. -/
def State.stageReason (s : State) (a : Nat) : Nat × List Byte × State :=
  let (bad, s) := s.touchWords Config.mForeman (a / 8) 64
  let h := s.mbytes a 0x200
  let len := bytesAt h 8 4
  match s.headerReason h with
  | some r => (r, h, s)
  | none =>
    if !ingotRange a (0x200 + len) then (7, h, s)
    else
      let (d, worse, s1) := s.demandRead Config.mForeman (a + 0x200) len
      if !bad && !worse && sha384 d == payloadHash h then (8, h, s1) else (7, h, s1)

/-- FW_STAGE (R287, R288). -/
def execFwStage (m : MbId) (s : State) : Host.Outcome State Fault Refusal :=
  let a := s.rq m.val 0x10 8
  done s (s.request m.val 0x0B01 8 [(0x10, 8, a % 4096 == 0 && ingotRange a 0x200)] (fun s =>
    let (r, h, s) := s.stageReason a
    let im := parseImage 3 h
    let pay := leBytes 1 r ++ leBytes 1 s.targetSlot ++ leBytes 2 0 ++ leBytes 4 im.release ++ leBytes 4 im.rollback ++
      leBytes 4 im.seq
    let fail := { s with fmn.staged := none }
    if r ≠ 8 then fail.refuse m.val rBadArgument 0x10 pay
    else if s.rst.image.slot < 2 && im.seq ≤ s.slotSeq s.rst.image.slot then fail.refuse m.val rStateConflict 1 pay
    else { s with fmn.staged := some (a, h) }.replyDone m.val pay))

/-- The next step of R289 for the FW_WRITE_SLOT in progress. The start of step 4 is its commit point. -/
def State.slotStep (s : State) (m slot step a : Nat) (h : List Byte) : State :=
  let len := bytesAt h 8 4
  let base := slotAddr slot
  match step with
  | 1 => { s.flashErase base (cdiv (0x200 + len) 0x10000) with fmn.slotWrite := some (m, slot, 2) }
  | 2 =>
    let (d, _, s1) := s.demandRead Config.mForeman (a + 0x200) len
    { s1.flashProgram (base + 0x200) d with fmn.slotWrite := some (m, slot, 3) }
  | 3 =>
    if sha384 (s.flashBytes (base + 0x200) len) = payloadHash h then { s with fmn.slotWrite := some (m, slot, 4) }
    else { s with fmn.slotWrite := none, fmn.flashBusy := false }.refuse m rBadArgument 0 [7]
  | _ =>
    { s.flashProgram base h with fmn.slotWrite := none, fmn.flashBusy := false, fmn.staged := none }.replyDone m
      (leBytes 1 slot ++ leBytes 3 0 ++ leBytes 4 (bytesAt h 0x1C 4))

/-- FW_WRITE_SLOT (R289, R271): it is accepted, and each time the row comes again it takes its next step. -/
def execFwWriteSlot (m : MbId) (s : State) : Host.Outcome State Fault Refusal :=
  done s (match s.fmn.slotWrite, s.fmn.staged with
    | some (k, slot, step), some (a, h) =>
      if k = m.val then s.slotStep m.val slot step a h
      else s.command m.val 0x0B02 (s.rqLen m.val == 0) [] (fun s => s.refuse m.val rBusy 0)
    | _, st => s.command m.val 0x0B02 (s.rqLen m.val == 0) [] (fun s =>
      if st.isNone then s.refuse m.val rStateConflict 1
      else if s.fmn.flashBusy then s.refuse m.val rBusy 0
      else { s.await m.val with fmn.flashBusy := true, fmn.slotWrite := some (m.val, s.targetSlot, 1) }))

/-- FW_RESTART (R290): DONE, then an expiry of the watchdog is forced. -/
def execFwRestart (m : MbId) (s : State) : Host.Outcome State Fault Refusal :=
  done s (s.command m.val 0x0B03 (s.rqLen m.val == 0) [] (fun s =>
    if s.qch.st = .armed then s.refuse m.val rStateConflict 1
    else if (List.range 12).any s.longRuns then s.refuse m.val rStateConflict 2
    else { s with fmn.restartMb := some m.val }.replyDone m.val))

/-- Key slot of the running image: of the flash slot's header, or of the header still held in the window. -/
def State.runningKey (s : State) : Nat :=
  (s.keySlot ((s.flashBytes (slotAddr s.rst.image.slot + 0x70) 96))).getD 0

/-- FW_COMMIT_ROLLBACK (R291, R1042). -/
def execFwCommitRollback (m : MbId) (s : State) : Host.Outcome State Fault Refusal :=
  done s (s.command m.val 0x0B04 (s.rqLen m.val == 0) [] (fun s =>
    let im := s.rst.image
    let n := s.sec.otp.rollback
    if im.slot = 2 then s.refuse m.val rStateConflict 1 (leBytes 1 n)
    else if im.rollback ≤ n then s.refuse m.val rAlreadyDone 0 (leBytes 1 n)
    else
      let r := s.sec.otp.revoke ||| BitVec.ofNat 4 (2 ^ s.runningKey - 1)
      let s1 := { s with sec.otp := { s.sec.otp with rollback := min 63 im.rollback, revoke := r } }
      s1.replyDone m.val (leBytes 1 (min 63 im.rollback))))

/-! ## Watchdog (R292 to R297, R302) -/

def State.wdogOn (s : State) : Bool := fld (s.reg Blk.fmn 0x100) 31 1 == 1
/-- Period in TB ticks. -/
def State.wdogPeriod (s : State) : Nat := (fld (s.reg Blk.fmn 0x100) 0 4 + 1) * 500 * tbMs
/-- TB ticks left to the expiry. -/
def State.wdogLeft (s : State) : Nat := s.fmn.wdogFrom + s.wdogPeriod - s.clk.now

/-- A write of FMN_WDOG_KICK (R293). -/
def State.kick (s : State) (key : Nat) : State :=
  if key = 0x6B then { s with fmn.wdogFrom := s.clk.now, fmn.wdogWarn := false }
  else { s.bump Blk.fmn 4 with fmn.wdogForced := true }
/-- WDOG_KICK (R293, R302). -/
def execWdogKick (key : Byte) (s : State) : Host.Outcome State Fault Refusal := done s (s.kick key.toNat)

/-- WDOG_WARN (R294): at most a quarter of the period remains. -/
def execWdogWarn (s : State) : Host.Outcome State Fault Refusal :=
  done s (if s.wdogOn && s.aon.pwr != 0 && !s.fmn.wdogWarn && 4 * s.wdogLeft ≤ s.wdogPeriod then
      { s.bump Blk.fmn 3 with fmn.wdogWarn := true }
    else s)

/-- The watchdog expires: no time remains, or an expiry is forced. FW_RESTART's is forced after its response. -/
def State.wdogExpires (s : State) : Bool :=
  (s.wdogOn && s.aon.pwr != 0 && s.wdogLeft == 0) || s.fmn.wdogForced ||
  (match s.fmn.restartMb with | some m => (s.mb m).out.isNone | none => false)
/-- WATCHDOG_EXPIRY (R295, R1012): the trip is presented to Quench and a warm-scope reset follows. -/
def execWatchdogExpiry (s : State) : Host.Outcome State Fault Refusal :=
  done s (if s.wdogExpires || s.rst.wdogDue then
      ({ s.watchdogTrip with rst.wdogDue := true }).warmReset false
    else s)

end Sys2Proof.Machine
end

