-- ==== Sys2Proof/Machine/Qch.lean ====
section
/-! DEFINITION. Sys2Proof/Machine/Qch.lean: Quench's own commands and events (R970 to R1002). -/
namespace Sys2Proof.Machine
open Sys2Proof

/-! ## Configuration -/

def QchState.locked : QchState → Bool
  | .armed | .grave => true
  | _ => false

/-- QCH_ENVELOPE (R987). -/
def execQchEnvelope (m : MbId) (s : State) : Host.Outcome State Fault Refusal :=
  let q := fun o n => s.rq m.val o n
  done s (s.command m.val 0x0802 (s.rqLen m.val == 8)
    [(0x11, 3 ≤ q 0x11 1 && q 0x11 1 ≤ 50), (0x12, 100 ≤ q 0x12 2), (0x16, q 0x16 2 ≤ 1000)]
    (fun s =>
      if s.qch.st.locked then s.refuse m.val rStateConflict 1
      else
        let s1 := (s.setReg Blk.qch 0x400 (BitVec.ofNat 32 (q 0x10 4))).setReg Blk.qch 0x404 (BitVec.ofNat 32 (q 0x14 4))
        ({ s1 with qch.envDone := true }).replyDone m.val))

/-- A matcher's ID fits its KIND (R923, R987). -/
def matcherOk (kind segs id : Nat) : Bool :=
  match kind with
  | 0 => true
  | 1 => segs < 16 && 0x008 ≤ id && id ≤ 0x00F
  | 2 => segs < 16 && 0x010 ≤ id && id ≤ 0x01F
  | 3 => segs < 16 && id == 0x002
  | _ => false

/-- QCH_MASKS (R987): the accepted payload goes to QCH_CFG2 to QCH_CFG16; the matchers start afresh. -/
def execQchMasks (m : MbId) (s : State) : Host.Outcome State Fault Refusal :=
  let q := fun o n => s.rq m.val o n
  done s (s.command m.val 0x0803 (s.rqLen m.val == 0x3C)
    (([(0x16, q 0x16 1 < 16), (0x1A, q 0x1A 2 == 0)] : List (Nat × Bool)) ++
      (List.range 16).map (fun i => (0x1C + i, q (0x1C + i) 1 != 0)) ++
      (List.range 8).map (fun i =>
        (0x2C + 4 * i, matcherOk (q (0x2C + 4 * i) 1) (q (0x2D + 4 * i) 1) (q (0x2E + 4 * i) 2))))
    (fun s =>
      if s.qch.st.locked then s.refuse m.val rStateConflict 1
      else
        let s1 := (List.range 15).foldl
          (fun s w => s.setReg Blk.qch (0x408 + 4 * w) (BitVec.ofNat 32 (q (0x10 + 4 * w) 4))) s
        let s2 := (List.range 8).foldl (fun s i => s.setMatcher i { arrived := s.clk.now }) s1
        ({ s2 with qch.masksDone := true }).replyDone m.val))

/-! ## Arm, disarm, resume, self-test -/

/-- The self-test of R986 with the six result bits observed; all six make it passed. -/
def State.selfTest (s : State) (result : BitVec 6) : State :=
  if result = 0x3F then { s with qch.selftestOk := true } else s

def State.causesWord (s : State) : List Byte := leBytes 4 s.causes

/-- QCH_ARM (R988, R993): `result` is what the self-test observes if it runs. -/
def execQchArm (m : MbId) (result : BitVec 6) (s : State) : Host.Outcome State Fault Refusal :=
  done s (s.command m.val 0x0804 (s.rqLen m.val == 0) [] (fun s =>
    if s.qch.st = .armed then s.refuse m.val rAlreadyDone 0
    else if s.qch.st = .grave then s.refuse m.val rStateConflict 3
    else if s.aon.pwr = 0 then s.refuse m.val rStateConflict 4
    else if s.qch.st = .tripped then s.refuse m.val rStateConflict 5
    else if !s.qConfigured || !(List.range 8).any (fun i => s.matcherKind i == 2) then s.refuse m.val rStateConflict 2
    else
      let s1 := if s.qch.selftestOk then s else s.selfTest result
      if !s1.qch.selftestOk then s1.refuse m.val rStateConflict 6 (leBytes 1 result.toNat)
      else if s1.causes ≠ 0 then s1.refuse m.val rStateConflict 1 s1.causesWord
      else (s1.enterArmed).replyDone m.val))

/-- QCH_DISARM (R989, R994). -/
def execQchDisarm (m : MbId) (s : State) : Host.Outcome State Fault Refusal :=
  done s (s.command m.val 0x0805 (s.rqLen m.val == 0) [] (fun s =>
    match s.qch.st with
    | .disarmed => s.refuse m.val rAlreadyDone 0
    | .grave => s.refuse m.val rStateConflict 3
    | _ => ({ s with qch.st := .disarmed, qch.clearLeft := 0, qch.tripCause := 0 }).replyDone m.val))

/-- RESUME of R980: in TRIPPED with no cause it enters ARMED; otherwise it has no effect and REFUSE advances. -/
def State.qchResume (s : State) : State :=
  if s.qch.st = .tripped ∧ s.causes = 0 then (s.bump Blk.qch 3).enterArmed else s.bump Blk.qch 8

/-- QCH_RESUME (R990). -/
def execQchResume (m : MbId) (s : State) : Host.Outcome State Fault Refusal :=
  done s (s.command m.val 0x0806 (s.rqLen m.val == 0) [] (fun s =>
    match s.qch.st with
    | .armed => s.refuse m.val rAlreadyDone 0
    | .tripped =>
      if s.causes ≠ 0 then (s.qchResume).refuse m.val rStateConflict 1 s.causesWord
      else (s.qchResume).replyDone m.val
    | _ => (s.qchResume).refuse m.val rStateConflict 2))

/-- QCH_SELFTEST (R986, R991). -/
def execQchSelftest (m : MbId) (result : BitVec 6) (s : State) : Host.Outcome State Fault Refusal :=
  done s (s.command m.val 0x0807 (s.rqLen m.val == 0) [] (fun s =>
    if s.qch.st ≠ .disarmed then s.refuse m.val rStateConflict 1
    else if result = 0x3F then (s.selfTest result).replyDone m.val (leBytes 1 result.toNat)
    else s.refuse m.val rStateConflict 6 (leBytes 1 result.toNat)))

/-- QCH_RESUME_WRITE: a write of 1 to QCH_CTL.CMD (R980, R993). -/
def execQchResumeWrite (s : State) : Host.Outcome State Fault Refusal := done s s.qchResume

/-- A write of 2 to QCH_CTL.CMD: cause 9, present in this cycle only (R978, R980). -/
def State.qchTripWrite (s : State) : State := s.evalTrip s.causes 0x200
/-- QCH_TRIP_WRITE. -/
def execQchTripWrite (s : State) : Host.Outcome State Fault Refusal := done s s.qchTripWrite

/-- A write of QCH_CTL by its value (R980): 0 nothing, 1 RESUME, 2 TRIP, 3 REFUSE. -/
def State.qchCtl (s : State) (v : Nat) : State :=
  match v % 4 with
  | 0 => s
  | 1 => s.qchResume
  | 2 => s.qchTripWrite
  | _ => s.bump Blk.qch 8

/-! ## Inputs -/

/-- CLIFF_PIN_CHANGE: pin j has been at the level `high` for CLIFF_DEB µs (R978 code 1). -/
def execCliffPinChange (j : Fin 8) (high : Bool) (s : State) : Host.Outcome State Fault Refusal :=
  let before := s.causes
  let s1 := { s with qch.cliff := BitVec.ofNat 8 (setBit s.qch.cliff.toNat j.val (high == bit s.cliffPol j.val)) }
  done s (s1.evalTrip before 0)

/-- Matcher i matches a frame on segment k: classical base frames, exactly (R987). -/
def State.matches (s : State) (i k : Nat) (f : CanFrame) : Bool :=
  s.matcherKind i != 0 && bit (s.matcherSegs i) k && !f.fdf && fld f.idw 29 2 == 0 && fld f.idw 0 29 == s.matcherId i

/-- The ODOM matchers take a frame (R977): V = 0x8000 counts as not received. -/
def State.snoopOdom (s : State) (k : Nat) (f : CanFrame) : State :=
  (List.range 8).foldl (fun s i =>
    if s.matches i k f && s.matcherKind i == 2 && bytesAt f.data 0 2 != 0x8000 then
      s.setMatcher i { s.matcher i with seen := true, speed := sgn 16 (bytesAt f.data 0 2), arrived := s.clk.now, timedOut := false }
    else s) s

/-- The CLIFF matchers take a frame (R926, R978 codes 4 and 5). -/
def State.snoopCliff (s : State) (k : Nat) (f : CanFrame) : State :=
  (List.range 8).foldl (fun s i =>
    if s.matches i k f && s.matcherKind i == 1 then
      s.setMatcher i { s.matcher i with
        seen := true, kind := bytesAt f.data 0 1
        hit := bytesAt f.data 1 1 != 0 || bytesAt f.data 3 1 % 2 == 1
        arrived := s.clk.now, timedOut := false }
    else s) s

/-- A matcher of KIND RESUME counts a RESUME_REQUEST in RESUME_REQ and never resumes Quench (R980). -/
def State.snoopResume (s : State) (k : Nat) (f : CanFrame) : State :=
  if (List.range 8).any (fun i => s.matches i k f && s.matcherKind i == 3) then s.bump Blk.qch 7 else s

/-- The snoop tap presents a frame of segment k to every matcher, then the causes are evaluated (R894, R995). -/
def State.snoop (s : State) (k : Nat) (f : CanFrame) : State :=
  (((s.snoopOdom k f).snoopCliff k f).snoopResume k f).evalTrip s.causes 0

/-- ODOM_SNOOP. -/
def execOdomSnoop (k : SegId) (f : CanFrame) (s : State) : Host.Outcome State Fault Refusal :=
  done s ((s.snoopOdom k.val f).evalTrip s.causes 0)
/-- CLIFF_SNOOP. -/
def execCliffSnoop (k : SegId) (f : CanFrame) (s : State) : Host.Outcome State Fault Refusal :=
  done s ((s.snoopCliff k.val f).evalTrip s.causes 0)

/-- SECTOR_STALE: the sector's last publication is STALE ms old (R978, R966). -/
def execSectorStale (i : SectorId) (s : State) : Host.Outcome State Fault Refusal :=
  let x := s.sector i.val
  if x.stale = false ∧ s.staleMs i.val * tbMs ≤ s.clk.now - x.pubAt then
    done s (((s.setSector i.val { x with stale := true }).bump Blk.qch 6).evalTrip s.causes 0)
  else done s s

/-- ODOM_TIMEOUT: ODOM matcher i has received no frame for ODOM_TIMEOUT ms (R978 code 7). -/
def execOdomTimeout (i : Fin 8) (s : State) : Host.Outcome State Fault Refusal :=
  let x := s.matcher i.val
  if s.matcherKind i.val = 2 ∧ s.qOdomTimeout * tbMs ≤ s.clk.now - x.arrived then
    done s ((s.setMatcher i.val { x with timedOut := true }).evalTrip s.causes 0)
  else done s s

/-- CLIFF_MATCHER_TIMEOUT: CLIFF matcher i has received no frame for 60 ms (R978 codes 4 and 5). -/
def execCliffMatcherTimeout (i : Fin 8) (s : State) : Host.Outcome State Fault Refusal :=
  let x := s.matcher i.val
  if s.matcherKind i.val = 1 ∧ 60 * tbMs ≤ s.clk.now - x.arrived then
    done s ((s.setMatcher i.val { x with timedOut := true }).evalTrip s.causes 0)
  else done s s

/-! ## STOP, CLEAR, readback -/

/-- STOP_FRAME_REPEAT: every 50 ms while TRIPPED; in GRAVE the single frame with CAUSE 15 (R981, R984, R996). -/
def execStopFrameRepeat (s : State) : Host.Outcome State Fault Refusal :=
  if s.qch.st = .tripped ∧ 50 * tbMs ≤ s.clk.now - s.qch.roundAt then
    done s (s.safetyRound 0x5A s.qch.tripCause s.tripTb)
  else if s.qch.st = .grave ∧ s.qch.graveStop = false then
    done s ({ s with qch.graveStop := true }.safetyRound 0x5A 15 s.tbNow)
  else done s s

/-- CLEAR_FRAME_SEND: the rounds at 10 ms and 20 ms after an entry to ARMED (R981). -/
def execClearFrameSend (s : State) : Host.Outcome State Fault Refusal :=
  if s.qch.st = .armed ∧ 0 < s.qch.clearLeft ∧ 10 * tbMs ≤ s.clk.now - s.qch.roundAt then
    done s ({ s with qch.clearLeft := s.qch.clearLeft - 1 }.safetyRound 0xA5 0 0)
  else done s s

/-- READBACK_MISMATCH: QP_RB or QN_RB has differed from the driven line for 10 µs (R985): in RUN cause 10; while
SAFE is driven a readback of QP_RB high and QN_RB low is Class G. -/
def execReadbackMismatch (qpRb qnRb : Bool) (s : State) : Host.Outcome State Fault Refusal :=
  let before := s.causes
  let s1 := { (s.bump Blk.qch 5) with qch.qpRbBad := qpRb != s.qp, qch.qnRbBad := qnRb != s.qn }
  if s.pairRun then done s ({ s1 with qch.readback := true }.evalTrip before 0)
  else if qpRb && !qnRb then done s (s1.graveFault 6 Blk.qch 0)
  else done s s1

/-- READBACK_MATCH: the readback has matched SAFE for 1 ms: cause 10 goes away (R985). -/
def execReadbackMatch (s : State) : Host.Outcome State Fault Refusal :=
  if s.pairRun then done s s
  else done s { s with qch.readback := false, qch.qpRbBad := false, qch.qnRbBad := false }

/-- DIVERSE_MISMATCH: implementations A and B have differed for more than 5 µs (R983). -/
def execDiverseMismatch (s : State) : Host.Outcome State Fault Refusal := done s (s.graveFault 5 Blk.qch 0)

end Sys2Proof.Machine
end

