-- ==== Sys2Proof/Machine/Fbc.lean ====
section
/-! DEFINITION. Sys2Proof/Machine/Fbc.lean: the field-bus controllers (R873 to R920): configuration, transmission,
reception, error confinement. -/
namespace Sys2Proof.Machine
open Sys2Proof

/-! ## Settings -/

def State.fbcTxf (s : State) (k : Nat) : Nat := s.fbcCfg k 0x1E
/-- Storage of the three queues from QBASE (R899): base and DEPTH_LOG2 of Q64 + 2k, Q65 + 2k and TXQ. -/
def nextPage (a : Nat) : Nat := cdiv a 4096 * 4096
def State.fbcRings (s : State) (k : Nat) : List (Nat × Nat) :=
  let b := (s.reg (fbcBlk k) 0x218).toNat
  let r := s.fbcCfg k 0x22
  let c := s.fbcCfg k 0x23
  let b2 := nextPage (b + 64 * 2 ^ r)
  [(b, r), (b2, c), (nextPage (b2 + 64 * 2 ^ c), s.fbcCfg k 0x24)]

/-- BUS runs from PLL_BUS, source 8 of R174. -/
def State.busOnPll (s : State) : Bool := (s.domain 1).active == 8

/-- The failure of a delivery or completion write reaches the owner (R917). -/
def State.fbcSettle (s0 : State) (k : Nat) (s : State) : State :=
  if (s.fbc k).failed && !(s0.fbc k).failed && s.fbcOwner k != 0xFF then s.teardownFree (s.fbcOwner k) else s

/-! ## Stopping (R903, R914) -/

/-- The controller enters OFF: FIFO frames complete as FLUSHED in state OFF, dedicated requests are discarded and reported. -/
def State.fbcOff (s : State) (k : Nat) : State :=
  let s1 := (s.setFbc k { s.fbc k with st := .off }).fifoFlush k
  let f := s1.fbc k
  s1.setFbc k { f with
    st := .off, attempt := none, onBus := none, pex := false, recov := 0
    txAborted := f.txAborted ||| f.txReq, txReq := 0, txAbortDue := 0, stopping := none }

/-- CLEAR: the three queues are disabled, their entries released, frames not delivered are lost (R903). -/
def State.fbcClear (s : State) (k : Nat) : State :=
  let f := s.fbc k
  if !f.configured then s
  else
    let rings := s.fbcRings k
    let s1 := if f.owned then ((s.queueOff (64 + 2 * k)).queueOff (65 + 2 * k)).queueOff (s.fbcTxq k) else s
    let s2 := rings.foldl (fun s r => s.uncoverQueue r.1 r.2) s1
    let s3 := s2.bumpBy (fbcBlk k) 3 f.rxOrder.length
    let s4 := (List.range 8).foldl (fun s w => s.setReg (fbcBlk k) (0x200 + 4 * w) 0) s3
    s4.setFbc k { s4.fbc k with
      configured := false, owned := false, failed := false, started := false, filters := [], rxOrder := []
      rx := f.rx.filter (fun e => e.1 < 16) }

/-- A stop in progress ends: OFF, CLEAR if asked, DONE. -/
def State.fbcStopEnd (s : State) (k detail : Nat) : State :=
  match (s.fbc k).stopping with
  | none => s
  | some (m, clear) =>
    let s1 := s.fbcOff k
    (if clear then s1.fbcClear k else s1).reply m { code := rDone, detail := detail, progress := 100 }
/-- A frame on the bus has ended: a MODE 0 stop takes place. -/
def State.frameOver (s : State) (k : Nat) : State := s.fbcStopEnd k 0

/-! ## FBC_CONFIG (R878, R899 to R901, R952) -/

/-- A filter record. -/
def filterOf (l : List Byte) : Filter :=
  { id := bytesAt l 0 4, mask := bytesAt l 4 4, flags := bytesAt l 8 1, dest := bytesAt l 9 1 }
/-- Whether a record is in range. -/
def filterOk (l : List Byte) : Bool :=
  let f := filterOf l
  f.id < 2 ^ 29 && f.mask < 2 ^ 29 && f.flags < 32 && f.dest < 4 && bytesAt l 10 6 == 0
/-- Filters 0 to 3 of a segment that runs INP (R952). -/
def inpFilters (own : Nat) : List Filter :=
  [{ id := 0, mask := 0x7C0, flags := 0x0E, dest := 3 }, { id := 0x10000, mask := 0xFF0000, flags := 0x0B, dest := 2 },
   { id := own, mask := 0x8000FF, flags := 0x0B, dest := 2 }, { id := 0x800000, mask := 0x800000, flags := 0x0F, dest := 1 }]

/-- FBC_CONFIG (R899). -/
def execFbcConfig (m : MbId) (s : State) : Host.Outcome State Fault Refusal :=
  let q := fun o n => s.rq m.val o n
  let k := q 0x10 1
  let owner := q 0x11 1
  let fw := owner == 0xFF
  let pf1 := !fw && (s.ctx owner).pf1
  let flags := q 0x13 1
  let fd := bit flags 0
  let n := q 0x14 1 * (1 + q 0x16 2 + q 0x18 1)
  let d := q 0x19 1 * (1 + q 0x1A 1 + q 0x1B 1)
  let rng := fun v lo hi => decide (lo ≤ v ∧ v ≤ hi)
  let nf := q 0x20 1
  let vec := q 0x21 1
  let rl := q 0x22 1
  let cl := q 0x23 1
  let tl := q 0x24 1
  let base := q 0x28 4
  let b2 := nextPage (base + 64 * 2 ^ rl)
  let b3 := nextPage (b2 + 64 * 2 ^ cl)
  let fb := q 0x2C 4
  let txq := q 0x1F 1
  done s (s.request m.val 0x0701 0x20
    [(0x10, 1, k < 4), (0x11, 1, fw || s.ctxOpen owner), (0x12, 1, q 0x12 1 < 5),
     (0x13, 1, !fd || 80 ≤ d || bit flags 4),
     (0x14, 1, rng (q 0x14 1) 1 32 && rng n 80 640), (0x15, 1, rng (q 0x15 1) 1 128 && q 0x15 1 ≤ q 0x18 1),
     (0x16, 2, rng (q 0x16 2) 2 256), (0x18, 1, rng (q 0x18 1) 1 128),
     (0x19, 1, !fd || (rng (q 0x19 1) 1 32 && 10 ≤ d && d ≤ n)), (0x1A, 1, !fd || rng (q 0x1A 1) 1 32),
     (0x1B, 1, !fd || rng (q 0x1B 1) 1 16), (0x1C, 1, !fd || (rng (q 0x1C 1) 1 16 && q 0x1C 1 ≤ q 0x1B 1)),
     (0x1D, 1, !fd || rng (q 0x1D 1) 1 127), (0x1E, 1, rng (q 0x1E 1) 1 64), (0x1F, 1, rng txq 108 127),
     (0x20, 1, nf ≤ (if bit flags 6 then 60 else 64)),
     (0x21, 1, if !fw && !pf1 then rng vec 33 63 else vec == 0), (0x22, 1, rng rl 4 12), (0x23, 1, rng cl 4 12),
     (0x24, 1, rng tl 4 12),
     (0x28, 4, base % 4096 == 0 && ingotRange base (b3 + 64 * 2 ^ tl + 1024 - base)),
     (0x2C, 4, fb % 16 == 0 && ingotRange fb (16 * nf))]
    (fun s =>
      let (raw, acc, s) := s.readMem Config.mForeman .secure 0 fb (16 * nf)
      let recs := (List.range nf).map (fun j => (raw.drop (16 * j)).take 16)
      let f := s.fbc k
      if acc != .ok then s.refuse m.val rBadArgument 0x2C
      else match lowest nf (fun j => !filterOk ((raw.drop (16 * j)).take 16)) with
      | some j => s.refuse m.val rBadArgument (0x100 + 16 * j)
      | none =>
        if f.st != .off then s.refuse m.val rStateConflict 1
        else if !s.busOnPll then s.refuse m.val rStateConflict 2
        else if s.qEn txq && !(f.configured && f.owned && s.fbcTxq k == txq) then s.refuse m.val rStateConflict 3
        else
          let s1 := s.fbcClear k
          let host := if fw then QueueUser.device else if pf1 then .pf1 else .pf0
          let areas := queueAreas base rl false [.device] [host] ++ queueAreas b2 cl false [.device] [host] ++
            queueAreas b3 tl true [host] [.device]
          match s1.coverAreas (ownerKind owner) (ownerId owner) areas with
          | none => s.refuse m.val rNoResource 0
          | some s2 =>
            let own := if fw then none else some owner
            let s3 := ((s2.queueReset (64 + 2 * k) false).queueReset (65 + 2 * k) false).queueReset txq false
            let s4 := (s3.queueOn (64 + 2 * k) base rl own vec pf1).queueOn (65 + 2 * k) b2 cl own vec pf1
            let s5 := s4.queueOn txq b3 tl own 0 false
            let words := (List.range 8).map (fun w => s.rq m.val (0x10 + 4 * w) 4)
            let s6 := words.zipIdx.foldl (fun s w => s.setReg (fbcBlk k) (0x200 + 4 * w.2) (BitVec.ofNat 32 w.1)) s5
            let filt := (if bit flags 6 then inpFilters s.bus.chipId else []) ++ recs.map filterOf
            (s6.setFbc k { s6.fbc k with configured := true, owned := true, filters := filt, restricted := s.targetFault 9 }).replyDone
              m.val))

/-- FBC_START (R902): the error counters begin at 0. -/
def execFbcStart (m : MbId) (s : State) : Host.Outcome State Fault Refusal :=
  let k := s.rq m.val 0x10 1
  done s (s.request m.val 0x0702 1 [(0x10, 1, k < 4)] (fun s =>
    let f := s.fbc k
    if f.st != .off then s.refuse m.val rAlreadyDone 0
    else if !f.configured then s.refuse m.val rStateConflict 1
    else if !s.busOnPll then s.refuse m.val rStateConflict 2
    else (s.setFbc k { f with st := .integrating, tecCnt := 0, recCnt := 0 }).replyDone m.val))

/-- FBC_STOP (R903, R914): `rxBusy` tells that a frame of another node is on the bus. -/
def execFbcStop (m : MbId) (rxBusy : Bool) (s : State) : Host.Outcome State Fault Refusal :=
  let k := s.rq m.val 0x10 1
  let now := s.rq m.val 0x11 1 == 1
  let clear := s.rq m.val 0x12 1 == 1
  done s (s.request m.val 0x0703 3 [(0x10, 1, k < 4), (0x11, 1, s.rq m.val 0x11 1 < 2), (0x12, 1, s.rq m.val 0x12 1 < 2)]
    (fun s =>
      let f := s.fbc k
      if f.st == .off then
        if clear then (s.fbcClear k).replyDone m.val else s.refuse m.val rAlreadyDone 0
      else if f.stopping.isSome then s.refuse m.val rBusy 0
      else
        let s1 := (s.setFbc k { f with stopping := some (m.val, clear), stopAt := s.clk.now }).await m.val
        if now || (f.attempt.isNone && !rxBusy) then s1.fbcStopEnd k 0 else s1))

/-- FBC_STOP_TIMEOUT (R903): 5 ms after acceptance the stop is forced, and DONE carries DETAIL 1. -/
def execFbcStopTimeout (k : SegId) (s : State) : Host.Outcome State Fault Refusal :=
  let f := s.fbc k.val
  done s (if f.stopping.isSome && f.stopAt + 5 * tbMs ≤ s.clk.now then s.fbcStopEnd k.val 1 else s)

/-- FBC_REJOIN (R904, R911). -/
def execFbcRejoin (m : MbId) (s : State) : Host.Outcome State Fault Refusal :=
  let k := s.rq m.val 0x10 1
  done s (s.request m.val 0x0704 1 [(0x10, 1, k < 4)] (fun s =>
    let f := s.fbc k
    match f.st with
    | .busOff => (s.setFbc k { f with st := .recovering, recov := 0 }).replyDone m.val
    | .recovering => s.refuse m.val rAlreadyDone 0
    | _ => s.refuse m.val rStateConflict 1))

/-- The controller works: it is neither OFF nor halted, and nothing holds the part. -/
def State.fbcLive (s : State) (k : Nat) : Bool := (s.fbc k).st != .off && s.aon.pwr != 0 && !s.isHalted (fbcBlk k) && !s.frozen

/-- FBC_INTEGRATION (R876, R137). -/
def execFbcIntegration (k : SegId) (s : State) : Host.Outcome State Fault Refusal :=
  let f := s.fbc k.val
  done s (if s.fbcLive k.val && f.st == .integrating then s.setFbc k.val { f with st := .running } else s)

/-! ## Transmit FIFO (R881, R882, R886, R887) -/

/-- The frame of a transmit packet. -/
def entryFrame (l : List Byte) : CanFrame :=
  let len := bytesAt l 6 1
  let fl := bytesAt l 4 1
  { idw := BitVec.ofNat 32 (bytesAt l 0 4), fdf := bit fl 0, brs := bit fl 1, dlc := bytesAt l 5 1
    data := (((l.drop 0x18).take 40) ++ ((l.drop 64).take 24)).take len }

/-- The conditions under which a FRAME packet of n entries is not BAD_ENTRY (R886). -/
def entryOk (l : List Byte) (n : Nat) (fdOn : Bool) : Bool :=
  let id := bytesAt l 0 4
  let fl := bytesAt l 4 1
  let dlc := bytesAt l 5 1
  let len := bytesAt l 6 1
  let fdf := bit fl 0
  n == (if len ≤ 40 then 1 else 2) && dlc < 16 && len == dlcLen fdf dlc && (len ≤ 8 || fdf) &&
  !(bit fl 1 && !fdf) && !(bit id 30 && fdf) && !bit id 31 && (bit id 29 || id % 2 ^ 29 < 2 ^ 11) &&
  (!fdf || fdOn) && fl &&& 0xF4 == 0 && bytesAt l 7 1 == 0 && bytesAt l 0x0C 12 == 0 &&
  (n != 2 || bytesAt l (64 + 24) 40 == 0)

/-- An ABORT acts on the oldest FIFO frame with its TAG; during an attempt of it, its result waits (R887). -/
def State.fifoAbort (s : State) (k : Nat) (tag : Word) : State :=
  let f := s.fbc k
  let result := fun (s : State) r => s.fbcReport k (s.fbcCompletion k 1 r 0 tag 0 0 0)
  match f.fifo.zipIdx.find? (fun e => e.1.tag == tag) with
  | some (x, i) =>
    if i = 0 && f.attempt == some .fifo then s.setFbc k { f with abortWait := f.abortWait ++ [tag] }
    else
      let s1 := (s.setFbc k { f with fifo := f.fifo.eraseIdx i }).fifoEnd k x 1 0 0
      result s1 0
  | none => if f.completed.contains tag then result s 1 else result s 2

/-- Entries of the packet at the head of a queue, none while its last entry is missing. -/
def State.headEntries (s : State) (q : Nat) : Option Nat :=
  if (s.queue q).flags.any (fun e => e.2) then some (uptoLast (s.queue q).flags) else none

/-- TXQ_POP (R881, R886, R887): a packet is popped when a credit for its completion entry is free, and for a frame a
FIFO buffer. -/
def State.txqPop (s : State) (k : Nat) : State :=
  let f := s.fbc k
  let q := s.fbcTxq k
  if !s.fbcLive k || !f.configured || !f.owned || f.failed || !s.qEn q then s
  else if s.credits (65 + 2 * k) ≤ f.fifo.length + f.abortWait.length then s
  else match s.headEntries q with
  | none => s
  | some n =>
    let l := s.qEntry q 0 ++ (if 2 ≤ n then s.qEntry q 1 else [])
    let tag := BitVec.ofNat 32 (bytesAt l 8 4)
    if bytesAt l 7 1 = 1 then (s.qRemove q n).fifoAbort k tag
    else if s.fbcTxf k ≤ f.fifo.length then s
    else
      let s1 := s.qRemove q n
      let x : FifoFrame := { frame := entryFrame l, oneShot := bit (bytesAt l 4 1) 3, tag := tag }
      if entryOk l n (s.fbcFlag k 0) then s1.setFbc k { s1.fbc k with fifo := f.fifo ++ [x] }
      else s1.fifoEnd k x 4 0 0
/-- TXQ_POP. -/
def execTxqPop (k : SegId) (s : State) : Host.Outcome State Fault Refusal := done s (State.fbcSettle s k.val (s.txqPop k.val))

/-! ## Arbitration and attempts (R883 to R885, R888, R898) -/

/-- Bus order of a frame's identifier: base identifier, base before extended, extension bits. -/
def busKey (w : Word) : Nat :=
  if fld w 29 1 = 1 then fld w 18 11 * 2 ^ 19 + 2 ^ 18 + fld w 0 18 else fld w 0 11 * 2 ^ 19

/-- The request that wins among two; the earlier one of the list on a tie. -/
def bestOf : List (TxSource × CanFrame) → Option (TxSource × CanFrame)
  | [] => none
  | e :: t =>
    match bestOf t with
    | none => some e
    | some b => if busKey e.2.idw ≤ busKey b.2.idw then some e else some b

/-- Requests that take part: dedicated buffers, then the head of the FIFO. -/
def State.txOffers (s : State) (k : Nat) : List (TxSource × CanFrame) :=
  let f := s.fbc k
  ((List.range 8).filter (fun b => f.txReq.toNat.testBit b)).map (fun b => (TxSource.dedicated b, s.msgBuf k b)) ++
    (match f.fifo with | x :: _ => [(TxSource.fifo, x.frame)] | [] => [])

/-- Ends the FIFO's head with a result; aborts that waited for it are answered. -/
def State.headEnd (s : State) (k result abortResult fine ts : Nat) : State :=
  let f := s.fbc k
  match f.fifo with
  | [] => s
  | x :: t =>
    let s1 := (s.setFbc k { f with fifo := t, attempt := none, onBus := none, abortWait := [] }).fifoEnd k x result fine ts
    f.abortWait.foldl (fun s tag => s.fbcReport k (s.fbcCompletion k 1 abortResult 0 tag 0 0 0)) s1

/-- Ends dedicated buffer b's attempt: confirmed, aborted, or still pending. A request made again meanwhile stays. -/
def State.dedicatedEnd (s : State) (k b : Nat) (ok gone : Bool) : State :=
  let f := s.fbc k
  let m : BitVec 8 := BitVec.ofNat 8 (2 ^ b)
  let same := f.onBus == some { s.msgBuf k b with esi := match f.onBus with | some x => x.esi | none => false }
  s.setFbc k { f with
    attempt := none, onBus := none, txAbortDue := f.txAbortDue &&& ~~~m
    txReq := if (ok || gone) && same then f.txReq &&& ~~~m else f.txReq
    txDone := if ok then f.txDone ||| m else f.txDone
    txAborted := if gone then f.txAborted ||| m else f.txAborted }

/-- TX_ARBITRATION (R883, R912): an attempt of the winning request starts. `ramBad` tells that its buffer shows a
parity error: the frame completes as RAM_ERROR (R917). -/
def State.txArbitrate (s : State) (k : Nat) (ramBad : Bool) : State :=
  let f := s.fbc k
  if !s.fbcLive k || !s.fbcSends k || f.pex || f.attempt.isSome || f.stopping.isSome then s
  else match bestOf (s.txOffers k) with
  | none => s
  | some (.dedicated b, x) =>
    if ramBad then (s.setFbc k { f with onBus := some x }).dedicatedEnd k b false true
    else s.setFbc k { f with attempt := some (.dedicated b), onBus := some { x with esi := x.fdf && f.passive } }
  | some (.fifo, x) =>
    if ramBad then s.headEnd k 5 1 0 0
    else
      let fifo := match f.fifo with | y :: t => { y with attempts := y.attempts + 1 } :: t | [] => []
      s.setFbc k { f with attempt := some .fifo, fifo := fifo, onBus := some { x with esi := x.fdf && f.passive } }
/-- TX_ARBITRATION. -/
def execTxArbitration (k : SegId) (ramBad : Bool) (s : State) : Host.Outcome State Fault Refusal :=
  done s (State.fbcSettle s k.val (s.txArbitrate k.val ramBad))

/-! ## Reception (R889 to R893) -/

/-- A filter matches a frame. -/
def Filter.hits (x : Filter) (f : CanFrame) : Bool :=
  let id := fld f.idw 0 29
  let ide := fld f.idw 29 1 == 1
  let rtr := fld f.idw 30 1 == 1
  (id ^^^ x.id) &&& x.mask == 0 && (!bit x.flags 1 || ide == bit x.flags 0) &&
  (if rtr then bit x.flags 4 else if f.fdf then bit x.flags 3 else bit x.flags 2)

/-- A free buffer of lo to hi − 1. -/
def State.freeBuf (s : State) (k lo hi : Nat) : Option Nat :=
  (List.range (hi - lo)).findSome? (fun i =>
    if (Tab.get (fun _ => none) (s.fbc k).rx (lo + i)).isNone then some (lo + i) else none)
/-- A received frame takes a buffer. -/
def State.holdRx (s : State) (k b : Nat) (x : RxBuf) : State :=
  let s1 := s.setMsgBuf k b x.frame x.ts
  s1.setFbc k { s1.fbc k with rx := Tab.set (fun _ => none) (s1.fbc k).rx b (some x) }
/-- Frees a buffer. -/
def State.freeRx (s : State) (k b : Nat) : State :=
  s.setFbc k { s.fbc k with rx := Tab.set (fun _ => none) (s.fbc k).rx b none }

/-- The copy for the receive queue. -/
def State.rxqCopy (s : State) (k : Nat) (x : RxBuf) : State :=
  if !(s.fbc k).owned then s.bump (fbcBlk k) 3
  else match s.freeBuf k (16 + s.fbcTxf k) 128 with
  | none => s.bump (fbcBlk k) 3
  | some b =>
    let s1 := s.holdRx k b x
    s1.setFbc k { s1.fbc k with rxOrder := (s1.fbc k).rxOrder ++ [b] }

/-- Payload length of a management frame from a node, or of RESUME_REQUEST (R923, R925): none for a frame that the
engine does not take. -/
def inpLength (func : Nat) : Option Nat :=
  match func with
  | 0x01 => some 8
  | 0x10 => some 8
  | 0x31 => some 24
  | 0x40 => some 8
  | 0x51 => some 1
  | 0x52 => some 8
  | _ => none

/-- The copy for the INP engine: a frame of a node that the engine has still to take stays in its buffer; a
RESUME_REQUEST is reported (R945); one of a wrong length is ignored and counted (R949). -/
def State.inpCopy (s : State) (k : Nat) (x : RxBuf) : State :=
  match s.freeBuf k 8 16 with
  | none => s.bump (fbcBlk k) 3
  | some b =>
    let f := x.frame
    let ext := fld f.idw 29 1 == 1
    let func := fld f.idw 16 8
    if !s.runsInp k || s.isHalted Blk.inp then (if s.isHalted Blk.inp then s.holdRx k b x else s)
    else if !ext then
      if fld f.idw 0 29 != 2 then s
      else if f.data = [] then ((s.bump Blk.inp 6).q72 4 0 k s.bus.chipId 0 0)
      else s.bump Blk.inp 7
    else if !s.manages k || !f.fdf || (func == 0x10 && fld f.idw 8 8 < 4) then s
    else match inpLength func with
    | none => s
    | some n =>
      if f.data.length != n then s.bump Blk.inp 7
      else
        let s1 := s.holdRx k b x
        { s1 with inp.inbox := s1.inp.inbox ++
                    [{ chip := s.bus.chipId, seg := k, buf := some b, frame := f, ts := x.ts, fine := x.fine }] }

/-- Routes a received frame by the first filter that matches. -/
def State.routeFrame (s : State) (k : Nat) (f : CanFrame) (ts fine : Nat) (loopback : Bool) : State :=
  let x : RxBuf := { frame := f, loopback := loopback, ts := ts, fine := fine }
  match (s.fbc k).filters.zipIdx.find? (fun e => e.1.hits f) with
  | none => if s.fbcFlag k 5 then s.rxqCopy k x else s
  | some (e, j) =>
    let y := { x with filter := j, copy := e.dest == 3 }
    let s1 := if e.dest = 1 ∨ e.dest = 3 then s.rxqCopy k y else s
    if e.dest = 2 ∨ e.dest = 3 then s1.inpCopy k y else s1

/-- REC after a frame received without error (R895, ISO 11898-1:2015): above 127 it becomes one of 119 to 127. -/
def State.recGood (s : State) (k : Nat) : State :=
  let f := s.fbc k
  if f.st != .running || s.fbcMode k == 1 then s
  else if f.recCnt ≤ 127 then s.setFbc k { f with recCnt := f.recCnt - 1 }
  else
    let (v, s1) := s.takeFree 64
    s1.setFbc k { f with recCnt := 119 + v % 9 }

/-- FRAME_RECEIVED (R889 to R894): a frame of another node whose SOF was `ago` ticks before. -/
def execFrameReceived (k : SegId) (f : CanFrame) (ago : Nat) (fine : Fin 40) (s : State) : Host.Outcome State Fault Refusal :=
  done s (
    if !s.fbcLive k.val || (s.fbc k.val).st == .integrating || (s.fbc k.val).pex || s.fbcMode k.val == 3 ||
        (f.fdf && !s.fbcFlag k.val 0) then s
    else
      (((s.snoop k.val f).recGood k.val).routeFrame k.val f (s.clk.now - ago) fine.val false).frameOver k.val)

/-- The receive entry of R882. -/
def State.rxEntries (s : State) (k : Nat) (x : RxBuf) : List (List Byte) :=
  let f := x.frame
  let n := f.data.length
  let first := leBytes 4 f.idw.toNat ++ leBytes 1 (b2n f.fdf + 2 * b2n f.brs + 4 * b2n f.esi) ++ leBytes 1 f.dlc ++
    leBytes 1 (dlcLen f.fdf f.dlc) ++ leBytes 1 x.filter ++ leBytes 2 (s.fbc k).rxSeq ++ leBytes 1 k ++
    leBytes 1 (b2n x.loopback + 2 * b2n x.copy) ++ leBytes 1 x.fine ++ leBytes 3 0 ++ leBytes 8 x.ts ++ f.data.take 40
  if n ≤ 40 then [entry64 first] else [entry64 first, entry64 (f.data.drop 40)]

/-- RXQ_DELIVERY (R891, R917): the oldest frame goes to Q64 + 2k once the queue has credits for all of it. `ramBad`
tells that its buffer shows a parity error: it is lost. -/
def State.rxqDeliver (s : State) (k : Nat) (ramBad : Bool) : State :=
  let f := s.fbc k
  let q := 64 + 2 * k
  if s.isHalted (fbcBlk k) || s.frozen || f.failed || !f.owned then s
  else match f.rxOrder with
  | [] => s
  | b :: t =>
    match Tab.get (fun _ => none) f.rx b with
    | none => s.setFbc k { f with rxOrder := t }
    | some x =>
      if ramBad then ((s.freeRx k b).setFbc k { (s.freeRx k b).fbc k with rxOrder := t }).bump (fbcBlk k) 3
      else
        let l := s.rxEntries k x
        if s.credits q < l.length || !s.qEn q then s
        else if !s.ringOk q l.length then s.fbcWriteFails k q
        else
          let s1 := (s.deviceEntries q (framed true true l)).freeRx k b
          (s1.setFbc k { s1.fbc k with rxOrder := t, rxSeq := (f.rxSeq + 1) % 65536 }).bump (fbcBlk k) 2
/-- RXQ_DELIVERY. -/
def execRxqDelivery (k : SegId) (ramBad : Bool) (s : State) : Host.Outcome State Fault Refusal :=
  done s (State.fbcSettle s k.val (s.rxqDeliver k.val ramBad))

/-! ## Ends of attempts -/

/-- FBCk_TDC after an attempt with BRS under TDC (R879). -/
def State.measureTdc (s : State) (k : Nat) (f : CanFrame) (tdcv : BitVec 7) : State :=
  if f.brs && s.fbcFlag k 4 then s.setReg (fbcBlk k) 0x16C (at_ (s.fbcCfg k 0x1D) 8 7 ||| at_ tdcv.toNat 0 7) else s

/-- The STOP event counts each STOP frame confirmed from dedicated buffer 0 (Quench, event source 4). -/
def State.stopSent (s : State) (b : Nat) (f : CanFrame) : State :=
  if b = 0 ∧ bytesAt f.data 0 1 = 0x5A then s.bump Blk.qch 4 else s

/-- What the INP engine takes of a confirmed frame of a dedicated buffer: the SOF of TIME_SYNC (R938), both edges of
ECHO_REQ (R941). `loop` is the time from the edge at FBk_TX to that at FBk_RX, in 0.25 ns. -/
def State.inpSent (s : State) (k b : Nat) (f : CanFrame) (ts fine loop : Nat) : State :=
  if b = 1 && s.runsInp k then
    { s with inp.follow := Tab.set (fun _ => none) s.inp.follow k (some (bytesAt f.data 0 1, ts, fine)) }
  else if b = 6 then
    match s.inp.sounding with
    | some x =>
      if x.out && bytesAt f.data 0 1 == x.seq && fld f.idw 16 8 == 0x50 && fld f.idw 0 8 == x.addr then
        { s with inp.sounding := some { x with ta := some (ts * 40 + fine), tb := ts * 40 + fine + loop } }
      else s
    | none => s
  else s

/-- TX_CONFIRM (R885, R893, R894): the last bit of the end-of-frame field passes without an error. The SOF edge was
`ago` ticks before. -/
def State.txConfirm (s : State) (k ago fine loop : Nat) (tdcv : BitVec 7) : State :=
  let f := s.fbc k
  match f.attempt, f.onBus with
  | some src, some x =>
    if !s.fbcLive k || f.st != .running then s
    else if x.brs && s.fbcFlag k 4 && 127 < tdcv.toNat + s.fbcCfg k 0x1D then s
    else
      let ts := s.clk.now - ago
      let s1 := (s.snoop k x).measureTdc k x tdcv
      let s2 := s1.setFbc k { s1.fbc k with tecCnt := f.tecCnt - 1 }
      let s3 := match src with
        | .fifo => s2.headEnd k 0 1 fine ts
        | .dedicated b => ((s2.dedicatedEnd k b true false).inpSent k b x ts fine loop).stopSent b x
      let s4 := if s.fbcMode k = 3 ∨ s.fbcMode k = 4 then s3.routeFrame k x ts fine true else s3
      s4.frameOver k
  | _, _ => s
/-- TX_CONFIRM. -/
def execTxConfirm (k : SegId) (ago : Nat) (fine : Fin 40) (loop : Nat) (tdcv : BitVec 7) (s : State) :
    Host.Outcome State Fault Refusal :=
  done s (State.fbcSettle s k.val (s.txConfirm k.val ago fine.val loop tdcv))

/-- TX_ATTEMPT_FAIL (R884, R887, R913): the attempt is lost in arbitration or ends in an error. -/
def State.txFail (s : State) (k : Nat) (tdcv : BitVec 7) : State :=
  let f := s.fbc k
  match f.attempt, f.onBus with
  | some src, some x =>
    if !s.fbcLive k then s
    else
      let s1 := s.measureTdc k x tdcv
      let once := s.fbcFlag k 3
      let s2 := match src with
        | .fifo =>
          (match f.fifo with
           | y :: _ =>
             if f.abortWait != [] then s1.headEnd k 1 0 0 0
             else if once || y.oneShot then s1.headEnd k 2 0 0 0
             else s1.setFbc k { f with attempt := none, onBus := none }
           | [] => s1.setFbc k { f with attempt := none, onBus := none })
        | .dedicated b => s1.dedicatedEnd k b false (once || f.txAbortDue.toNat.testBit b)
      s2.frameOver k
  | _, _ => s
/-- TX_ATTEMPT_FAIL. -/
def execTxAttemptFail (k : SegId) (tdcv : BitVec 7) (s : State) : Host.Outcome State Fault Refusal :=
  done s (State.fbcSettle s k.val (s.txFail k.val tdcv))

/-- A write of FBCk_TXB_REQ (R888). -/
def State.txbRequest (s : State) (k : Nat) (bits : BitVec 8) : State :=
  let f := s.fbc k
  s.setFbc k { f with txReq := f.txReq ||| bits, txDone := f.txDone &&& ~~~bits, txAborted := f.txAborted &&& ~~~bits }
/-- TXB_REQUEST. -/
def execTxbRequest (k : SegId) (bits : BitVec 8) (s : State) : Host.Outcome State Fault Refusal :=
  done s (s.txbRequest k.val bits)

/-- A write of FBCk_TXB_ABORT (R888): a buffer whose attempt is in progress waits for its end. -/
def State.txbAbort (s : State) (k : Nat) (bits : BitVec 8) : State :=
  let f := s.fbc k
  let busy : BitVec 8 := match f.attempt with | some (.dedicated b) => BitVec.ofNat 8 (2 ^ b) | _ => 0
  let hit := f.txReq &&& bits
  s.setFbc k { f with
    txAbortDue := f.txAbortDue ||| (hit &&& busy), txReq := f.txReq &&& ~~~(hit &&& ~~~busy)
    txAborted := f.txAborted ||| (hit &&& ~~~busy) }
/-- TXB_ABORT. -/
def execTxbAbort (k : SegId) (bits : BitVec 8) (s : State) : Host.Outcome State Fault Refusal :=
  done s (s.txbAbort k.val bits)

/-! ## Error confinement (R880, R895 to R897) -/

/-- Entry to error passive counted. -/
def State.passiveEntry (s : State) (k : Nat) (was : Bool) : State :=
  if (s.fbc k).passive && !was then s.bump (fbcBlk k) 6 else s

/-- BUS_ERROR (R895, R896): the code of FBCk_LEC, its phase, and how ISO 11898-1:2015 changes the counters: not at all,
REC by 1, REC by 8, TEC by 8. -/
def execBusError (k : SegId) (code : Fin 7) (dataPhase : Bool) (change : Fin 4) (s : State) :
    Host.Outcome State Fault Refusal :=
  let f := s.fbc k.val
  let b := fbcBlk k.val
  done s (
    if !s.fbcLive k.val || f.st != .running || f.pex || code == 0 then s
    else
      let s1 := (s.setFld b 0x168 (if dataPhase then 4 else 0) 4 code.val).bump b 5
      let c := if s.fbcMode k.val == 1 then 0 else change.val
      let rec' := min 255 (f.recCnt + (if c = 1 then 1 else if c = 2 then 8 else 0))
      let tec' := if c = 3 then f.tecCnt + 8 else f.tecCnt
      let s2 := (s1.setFbc k.val { f with tecCnt := tec', recCnt := rec' }).passiveEntry k.val f.passive
      let s3 := if 255 < tec' then
          (s2.setFbc k.val { s2.fbc k.val with
            st := if s.fbcFlag k.val 2 then .recovering else .busOff, recov := 0 }).bump b 7
        else s2
      if (s3.fbc k.val).attempt.isNone then s3.frameOver k.val else s3)

/-- RECOVERED (R876, R896): n more sequences of 11 recessive bits have been seen; at the 128th the controller is RUNNING
and error active. -/
def execRecovered (k : SegId) (n : Fin 129) (s : State) : Host.Outcome State Fault Refusal :=
  let f := s.fbc k.val
  done s (
    if !s.fbcLive k.val || f.st != .recovering then s
    else if f.recov + n.val < 128 then s.setFbc k.val { f with recov := f.recov + n.val }
    else (s.setFbc k.val { f with st := .running, recov := 0, tecCnt := 0, recCnt := 0 }).bump (fbcBlk k.val) 8)

/-- PROTOCOL_EXCEPTION (R880): a received frame with a recessive res bit, or with FD clear any FD frame, under PEX. -/
def execProtocolException (k : SegId) (s : State) : Host.Outcome State Fault Refusal :=
  let f := s.fbc k.val
  done s (
    if !s.fbcLive k.val || f.st != .running || f.pex || !s.fbcFlag k.val 1 then s
    else (s.setFbc k.val { f with pex := true }).bump (fbcBlk k.val) 9)

/-- PEX_RESUME (R880). -/
def execPexResume (k : SegId) (s : State) : Host.Outcome State Fault Refusal :=
  let f := s.fbc k.val
  done s (if s.fbcLive k.val && f.pex then (s.setFbc k.val { f with pex := false }).frameOver k.val else s)

/-- RESTRICTION_CHANGE (R897): no frame is in progress; the clock cause as it now is takes effect or is lifted. -/
def execRestrictionChange (k : SegId) (s : State) : Host.Outcome State Fault Refusal :=
  let f := s.fbc k.val
  done s (if s.fbcLive k.val && f.attempt.isNone then s.setFbc k.val { f with restricted := s.targetFault 9 } else s)

end Sys2Proof.Machine
end

