-- ==== Sys2Proof/Machine/Inp.lean ====
section
/-! DEFINITION. Sys2Proof/Machine/Inp.lean: the Ichado Node Profile (R921 to R954): discovery, supervision, time
distribution, Sounding, and the registry commands. -/
namespace Sys2Proof.Machine
open Sys2Proof

/-! ## Between the devices of a system (R921)

The manual gives the messages no layout. A frame that a device other than the lead takes goes to the lead as a QUEUE
message with 0xA1, and a frame that the lead wants sent comes back with 0xA2 (DESIGN CHOICE). -/

/-- Body of such a message: kind, segment, ID word, data. -/
def inpBody (kind k : Nat) (f : CanFrame) : List Byte :=
  entry64 (leBytes 1 kind ++ leBytes 1 k ++ leBytes 1 f.data.length ++ leBytes 1 0 ++ leBytes 4 f.idw.toNat ++ f.data)
/-- Sends a body to chip d. -/
def State.toChip (s : State) (d : Nat) (body : List Byte) : State :=
  match s.mailRoute d with
  | some p => s.sendMsg p { op := opQueue, status := 3, src := s.bus.chipId, dst := d, data := body }
  | none => s
/-- The frame of a body. -/
def bodyFrame (l : List Byte) : CanFrame :=
  let n := bytesAt l 2 1
  { idw := BitVec.ofNat 32 (bytesAt l 4 4), fdf := true, brs := true, dlc := dlcOf n, data := (l.drop 8).take n }

/-- The device is the lead. -/
def State.isLead (s : State) : Bool := s.bus.chipId == 0
/-- This device has a route to chip 0. -/
def State.leadReach (s : State) : Bool := s.reachable 0
/-- Passes a frame of this device's segments on to the lead. -/
def State.tellLead (s : State) (x : InpFrame) : State :=
  if s.isLead || x.chip != s.bus.chipId then s else s.toChip 0 (inpBody 0xA1 x.seg x.frame)

/-! ## Taking frames -/

/-- The oldest frame that waits for the engine, when it has this function. -/
def State.inpHead (s : State) (func : Nat) : Option InpFrame :=
  if s.isHalted Blk.inp || s.frozen then none
  else match s.inp.inbox with
  | x :: _ => if fld x.frame.idw 16 8 = func then some x else none
  | [] => none
/-- Takes it: its buffer is free again. -/
def State.inpTake (s : State) : State :=
  match s.inp.inbox with
  | [] => s
  | x :: t =>
    let s1 := match x.buf with | some b => s.freeRx x.seg b | none => s
    { s1 with inp.inbox := t }
/-- A row that takes a frame. -/
def State.onInp (s : State) (func : Nat) (f : InpFrame → State → State) : State :=
  match s.inpHead func with
  | some x => f x s.inpTake
  | none => s
/-- Source address of a frame. -/
def InpFrame.src (x : InpFrame) : Nat := fld x.frame.idw 8 8
/-- The frame comes from where the node at its source address sits. -/
def State.fromNode (s : State) (x : InpFrame) : Bool :=
  (s.node x.src).seg == x.seg && (s.node x.src).host == x.chip
/-- BAD_FRAME (R949). -/
def State.badFrame (s : State) : State := s.bump Blk.inp 7

/-! ## ANNOUNCE and ASSIGN (R930, R937) -/

/-- Address for a UID: the bound one, the one it holds, the lowest FREE one. -/
def State.chooseAddr (s : State) (uid : Nat) : Option Nat :=
  match lowest 256 (fun a => match (s.node a).binding with | some b => b.uid == uid | none => false) with
  | some a => some a
  | none =>
    match lowest 256 (fun a => 2 ≤ (s.node a).st && (s.node a).uid == uid) with
    | some a => some a
    | none => lowest 256 (fun a => 4 ≤ a && s.inp.autoBase ≤ a && (s.node a).st == 0)

/-- ASSIGN for a node record at address a. -/
def State.assignFrame (s : State) (a : Nat) (x : Node) : CanFrame :=
  s.mgmtFrame 3 0x02 0 (leBytes 8 x.uid ++ leBytes 1 a ++ leBytes 1 x.safetyCh ++ leBytes 2 x.hbPeriod ++
    leBytes 1 x.hbMiss ++ leBytes 1 s.inp.leadHb ++ leBytes 2 s.inp.loadPeriod)
/-- Sends a frame on a segment of a chip: its own, or through that device. -/
def State.sendOn (s : State) (chip k b : Nat) (f : CanFrame) : State :=
  if chip = s.bus.chipId then s.sendInp k b f else s.toChip chip (inpBody 0xA2 k f)

/-- The lead's answer to an ANNOUNCE of `uid` on segment k of a chip. -/
def State.announce (s : State) (uid chip k : Nat) : State :=
  match s.chooseAddr uid with
  | none => (s.bump Blk.inp 4).q72 2 0 k chip 0 uid
  | some a =>
    let x := s.node a
    let b := x.binding.getD { uid := uid, safetyCh := 0xFF, hbMiss := 0, hbPeriod := 0 }
    let y := { x with
      st := 2, prev := if x.st = 2 then x.prev else x.st, seg := k, host := chip, uid := uid
      safetyCh := b.safetyCh, hbPeriod := if b.hbPeriod = 0 then s.inp.hbPeriod else b.hbPeriod
      hbMiss := if b.hbMiss = 0 then s.inp.hbMiss else b.hbMiss, offeredAt := s.clk.now }
    let s1 := if x.st = 3 then (s.bump Blk.inp 5).q72 3 a k chip 0 uid else s
    (s1.setNode a y).sendOn chip k 4 (s1.assignFrame a y)

/-- ANNOUNCE_RECEIVED (R921, R930, R937). -/
def execAnnounceReceived (s : State) : Host.Outcome State Fault Refusal :=
  done s (s.onInp 0x01 (fun x s =>
    let uid := bytesAt x.frame.data 0 8
    if s.isLead then s.announce uid x.chip x.seg
    else if s.leadReach then { s with inp.forwarded := s.inp.forwarded ++ [(x.seg, uid)] }.tellLead x
    else s.bump Blk.inp 4))

/-- What a device other than the lead does with a message of the lead: it sends the frame on the segment as its own, and
keeps what an ASSIGN tells of the node (R921, R937). -/
def State.leadAsks (s : State) (l : List Byte) : State :=
  let k := bytesAt l 1 1 % 4
  let f0 := bodyFrame l
  let f := { f0 with idw := f0.idw &&& 0xFFFF00FF ||| at_ s.bus.chipId 8 8 }
  let func := fld f.idw 16 8
  if func = 0x02 then
    let uid := bytesAt f.data 0 8
    let a := bytesAt f.data 8 1
    if !s.inp.forwarded.any (fun e => e.2 == uid) then s
    else
      let x := s.node a
      let s1 := s.setNode a { x with
        st := 2, prev := if x.st = 2 then x.prev else x.st, seg := k, host := s.bus.chipId, uid := uid
        safetyCh := bytesAt f.data 9 1, hbPeriod := bytesAt f.data 10 2, hbMiss := bytesAt f.data 12 1
        offeredAt := s.clk.now }
      ({ s1 with inp.forwarded := s1.inp.forwarded.filter (fun e => e.2 != uid) }).sendInp k 4 f
  else if func = 0x03 then (s.setNode (fld f.idw 0 8) {}).sendInp k 4 f
  else s
/-- A QUEUE message of a peer's Foreman about its segments, taken at once; none when it is no such message. -/
def State.inpMessage (s : State) (src : Nat) (l : List Byte) : Option State :=
  if bytesAt l 0 1 = 0xA1 ∧ s.isLead then
    some { s with inp.inbox := s.inp.inbox ++ [{ chip := src, seg := bytesAt l 1 1 % 4, frame := bodyFrame l, ts := s.clk.now }] }
  else if bytesAt l 0 1 = 0xA2 ∧ !s.isLead ∧ src = 0 then some (s.leadAsks l)
  else none

/-! ## CAPS, HEARTBEAT, LOAD (R928, R929, R931, R935, R945) -/

/-- CAPS_RECEIVED. -/
def execCapsReceived (s : State) : Host.Outcome State Fault Refusal :=
  done s (s.onInp 0x31 (fun x s =>
    let a := x.src
    let n := s.node a
    let d := x.frame.data
    let role := bytesAt d 9 1
    let open_ := n.st == 2 || n.st == 3
    if !open_ || bytesAt d 0 8 != n.uid || !s.fromNode x then s.badFrame
    else
      let y := { n with
        st := 3, cls := bytesAt d 8 1, role := role, trxLoop := bytesAt d 12 2, turnRes := bytesAt d 14 2
        hbAt := if n.st = 2 then s.clk.now else n.hbAt }
      let s1 := s.setNode a y
      let s2 := { s1 with qch.nodesLost := tset s1.qch.nodesLost a false }
      let s3 := if n.st = 2 then
          (s2.bump Blk.inp 2).q72 0 a n.seg n.host (b2n (decide (1 ≤ role ∧ role ≤ 3) && n.safetyCh == 0xFF)) n.uid
        else s2
      s3.tellLead x))

/-- OFFER_TIMEOUT (R929). -/
def execOfferTimeout (a : BitVec 8) (s : State) : Host.Outcome State Fault Refusal :=
  let x := s.node a.toNat
  done s (if x.st = 2 ∧ x.offeredAt + 100 * tbMs ≤ s.clk.now ∧ !s.frozen then
      s.setNode a.toNat (if x.prev < 2 then vacant x.binding else { x with st := x.prev })
    else s)

/-- HEARTBEAT_RECEIVED (R935, R948, R949): one of a FREE or LOST address is a bad frame. -/
def execHeartbeatReceived (s : State) : Host.Outcome State Fault Refusal :=
  done s (s.onInp 0x10 (fun x s =>
    let n := s.node x.src
    if n.st = 2 then s
    else if n.st != 3 || !s.fromNode x then s.badFrame
    else (s.setNode x.src { n with hbAt := s.clk.now }).tellLead x))

/-- HEARTBEAT_LOSS (R935, R937): the lead judges every node; another device without a route to chip 0 its own. -/
def execHeartbeatLoss (a : BitVec 8) (s : State) : Host.Outcome State Fault Refusal :=
  let x := s.node a.toNat
  let judges := s.isLead || (!s.leadReach && x.host == s.bus.chipId)
  done s (if judges && x.st == 3 && x.hbAt + (x.hbPeriod * x.hbMiss + 1) * tbMs ≤ s.clk.now && !s.frozen then
      s.nodeLost a.toNat
    else s)

/-- LINGER_EXPIRY (R929). -/
def execLingerExpiry (a : BitVec 8) (s : State) : Host.Outcome State Fault Refusal :=
  let x := s.node a.toNat
  done s (if x.st = 4 ∧ x.lostAt + s.inp.linger * 1000 * tbMs ≤ s.clk.now ∧ !s.frozen then
      s.setNode a.toNat (vacant x.binding)
    else s)

/-- LOAD_RECEIVED (R945). -/
def execLoadReceived (s : State) : Host.Outcome State Fault Refusal :=
  done s (s.onInp 0x40 (fun x s =>
    let n := s.node x.src
    if n.st != 3 || !s.fromNode x then s.badFrame
    else if s.isLead then s.q72 6 x.src n.seg n.host 0 n.uid x.frame.data
    else s.tellLead x))

/-! ## Frames on a timer (R936, R938, R950) -/

/-- QSTATE of a chip HEARTBEAT. -/
def qState : QchState → Nat
  | .disarmed => 0
  | .armed => 1
  | .tripped => 2
  | .grave => 3

/-- The engine may send on segment k. -/
def State.inpSends (s : State) (k : Nat) : Bool :=
  s.manages k && (s.fbc k).st != .off && !s.isHalted Blk.inp && !s.frozen && s.aon.pwr != 0

/-- CHIP_HEARTBEAT_SEND (R936). -/
def execChipHeartbeatSend (k : SegId) (s : State) : Host.Outcome State Fault Refusal :=
  let q := nget s.inp.hbSeq k.val
  done s (if s.inpSends k.val && nget s.inp.hbNext k.val ≤ s.clk.now then
      let s1 := { s with
        inp.hbSeq := nset s.inp.hbSeq k.val ((q + 1) % 256)
        inp.hbNext := nset s.inp.hbNext k.val (s.clk.now + s.inp.leadHb * tbMs) }
      s1.sendInp k.val 3 (s.mgmtFrame 2 0x10 0 (leBytes 2 s.inp.regEpoch ++ leBytes 1 (qState s.qch.st) ++ leBytes 1 q))
    else s)

/-- TIME_SYNC_SEND (R938). -/
def execTimeSyncSend (k : SegId) (s : State) : Host.Outcome State Fault Refusal :=
  let q := nget s.inp.syncSeq k.val
  done s (if s.inpSends k.val && nget s.inp.syncNext k.val ≤ s.clk.now then
      let s1 := { s with
        inp.syncSeq := nset s.inp.syncSeq k.val ((q + 1) % 256)
        inp.syncNext := nset s.inp.syncNext k.val (s.clk.now + s.inp.timePeriod * tbMs)
        inp.follow := Tab.set (fun _ => none) s.inp.follow k.val none }
      s1.sendInp k.val 1 (s.mgmtFrame 1 0x20 0 (leBytes 1 q))
    else s)

/-- TIME_FOLLOW_SEND (R938). -/
def execTimeFollowSend (k : SegId) (s : State) : Host.Outcome State Fault Refusal :=
  done s (match Tab.get (fun _ => none) s.inp.follow k.val with
    | some (q, ts, fine) =>
      if !s.inpSends k.val then s
      else
        { s with inp.follow := Tab.set (fun _ => none) s.inp.follow k.val none }.sendInp k.val 2 (s.mgmtFrame 1 0x21 0
          (leBytes 1 q ++ leBytes 1 (b2n s.unsync) ++ leBytes 2 fine ++ leBytes 8 ts ++ leBytes 2 s.inp.timePeriod ++
            leBytes 2 0))
    | none => s)

/-- INP_ROUTE_RETURN (R937). -/
def execInpRouteReturn (s : State) : Host.Outcome State Fault Refusal :=
  let e := if s.clk.now % 65536 = 0 then 1 else s.clk.now % 65536
  let e' := if e = s.inp.regEpoch then (if e = 65535 then 1 else e + 1) else e
  done s (if !s.isLead && s.inp.cut && s.leadReach && !s.frozen then
      let nodes := s.inp.nodes.filterMap (fun n =>
        if n.2.host = s.bus.chipId ∧ 2 ≤ n.2.st then (n.2.binding.map (fun b => (n.1, vacant (some b)))) else some n)
      { s with inp.cut := false, inp.regEpoch := e', inp.nodes := nodes }
    else s)

/-! ## Sounding (R941, R944) -/

/-- a / b rounded to the nearest integer, b positive (a half upwards). -/
def nearest (a b : Int) : Int := Int.fdiv (2 * a + b) (2 * b)

/-- The N exchanges are complete: DELAY is sent, and DONE carries the results. -/
def State.soundingEnd (s : State) (x : Sounding) : State :=
  let n : Int := x.n
  let trip := nearest x.sumTrip n
  let loop := nearest x.sumLoop n
  let node := s.node x.addr
  let delay := nearest (x.sumTrip - x.sumTurn) (2 * n)
  let cable := nearest (5 * (x.sumTrip - x.sumLoop - x.sumTurn - n * node.trxLoop)) (2 * n)
  let le := fun (bytes : Nat) (v : Int) => leBytes bytes (v % (2 : Int) ^ (8 * bytes)).toNat
  let s1 := { s with inp.sounding := none }.setNode x.addr { node with cable := cable }
  let s2 := s1.sendInp node.seg 6 (s1.mgmtFrame 4 0x53 x.addr (le 4 delay ++ le 2 cable ++ leBytes 2 0))
  s2.replyDone x.mb (le 2 cable ++ leBytes 2 0 ++ le 4 trip ++ le 4 loop ++ le 4 delay)

/-- INP_SOUNDING (R944). -/
def execInpSounding (m : MbId) (s : State) : Host.Outcome State Fault Refusal :=
  let a := s.rq m.val 0x10 1
  let n := s.rq m.val 0x12 2
  done s (s.request m.val 0x0712 4 [(0x10, 1, true), (0x12, 2, 16 ≤ n && n ≤ 256)] (fun s =>
    let x := s.node a
    if x.st != 3 || x.host != s.bus.chipId then s.refuse m.val rStateConflict 1
    else if x.turnRes = 0 then s.refuse m.val rStateConflict 2
    else if s.inp.sounding.isSome then s.refuse m.val rBusy 0
    else { s with inp.sounding := some { mb := m.val, addr := a, n := n } }.await m.val))

/-- SOUNDING_EXCHANGE (R941, R944): 5 ms after the latest one the next ECHO_REQ is sent; an exchange without its ECHO and
ECHO_INFO 10 ms after its ECHO_REQ has failed and is repeated once. -/
def execSoundingExchange (s : State) : Host.Outcome State Fault Refusal :=
  done s (match s.inp.sounding with
    | none => s
    | some x =>
      let late := x.out && decide (x.sentAt + 10 * tbMs ≤ s.clk.now)
      if s.isHalted Blk.inp || s.frozen || (x.out && !late) || (x.k != 0 && s.clk.now < x.sentAt + 5 * tbMs) then s
      else if late && x.failed then { s with inp.sounding := none }.refuse x.mb rTimeout 0
      else
        let q := (x.seq + 1) % 256
        { s with inp.sounding := some { x with
                  seq := q, out := true, failed := late, ta := none, tb := 0, td := none, sentAt := s.clk.now } }.sendInp
          (s.node x.addr).seg 6 (s.mgmtFrame 4 0x50 x.addr (leBytes 1 q)))

/-- ECHO_RECEIVED (R941). -/
def execEchoReceived (s : State) : Host.Outcome State Fault Refusal :=
  done s (s.onInp 0x51 (fun x s =>
    match s.inp.sounding with
    | some y =>
      if y.out && x.src == y.addr && bytesAt x.frame.data 0 1 == y.seq && s.fromNode x then
        { s with inp.sounding := some { y with td := some (x.ts * 40 + x.fine) } }
      else s
    | none => s))

/-- ECHO_INFO_RECEIVED (R941). -/
def execEchoInfoReceived (s : State) : Host.Outcome State Fault Refusal :=
  done s (s.onInp 0x52 (fun x s =>
    match s.inp.sounding with
    | some y =>
      (match y.ta, y.td with
       | some ta, some td =>
         if y.out && x.src == y.addr && bytesAt x.frame.data 0 1 == y.seq && s.fromNode x then
           let z := { y with
             k := y.k + 1, out := false, failed := false, ta := none, td := none
             sumLoop := y.sumLoop + ((y.tb : Int) - ta), sumTrip := y.sumTrip + ((td : Int) - ta)
             sumTurn := y.sumTurn + bytesAt x.frame.data 4 4 }
           if z.k = z.n then s.soundingEnd z else { s with inp.sounding := some z }
         else s
       | _, _ => s)
    | none => s))

/-! ## INP_REGISTRY (R943) -/

/-- BIND of address a: the address must be FREE or hold the UID, the channel and the UID be bound nowhere else. -/
def State.bindNode (s : State) (m a : Nat) (b : Binding) : State :=
  let x := s.node a
  let elsewhere := fun (p : Binding → Bool) => (List.range 256).any (fun i => i != a &&
    (match (s.node i).binding with | some v => p v | none => false))
  if x.st != 0 && x.uid != b.uid then s.refuse m rStateConflict 1
  else if b.safetyCh != 0xFF && elsewhere (fun v => v.safetyCh == b.safetyCh) then s.refuse m rStateConflict 2
  else if elsewhere (fun v => v.uid == b.uid) then s.refuse m rStateConflict 3
  else if x.st < 2 then (s.setNode a (vacant (some b))).replyDone m
  else (s.setNode a { x with binding := some b }).replyDone m

/-- RELEASE of address a. -/
def State.releaseNode (s : State) (m a : Nat) : State :=
  let x := s.node a
  if x.st = 0 then s.refuse m rAlreadyDone 0
  else if x.st = 1 then s.replyDone m
  else
    let s1 := s.sendOn x.host x.seg 4 (s.mgmtFrame 3 0x03 a (leBytes 8 x.uid))
    ((s1.setNode a (vacant x.binding)).q72 5 a x.seg x.host 0 x.uid).replyDone m

/-- POLICY: the defaults of the registry, and the owner of Q72. -/
def State.setPolicy (s : State) (m : Nat) : State :=
  let q := fun o n => s.rq m o n
  let o := q 0x11 1
  let pf1 := o != 0xFF && (s.ctx o).pf1
  let s1 := if s.qEn 72 then
      ((s.setFld Blk.que (0x1000 + 0x40 * 72) 21 1 (b2n (o != 0xFF))).setFld Blk.que (0x1000 + 0x40 * 72) 16 5
        (if o = 0xFF then 0 else o)).setFld Blk.que (0x1000 + 0x40 * 72) 7 1 (b2n pf1)
    else s
  { s1 with
    inp.owner := o, inp.autoBase := q 0x12 1, inp.hbMiss := q 0x13 1, inp.hbPeriod := q 0x14 2
    inp.leadHb := q 0x16 1, inp.linger := q 0x18 2, inp.loadPeriod := q 0x1A 2, inp.timePeriod := q 0x1C 2 }

/-- The answer of READ. -/
def State.readNode (s : State) (a : Nat) : List Byte :=
  let x := s.node a
  let chip := a < 4 && s.reachable a
  (List.range 4).flatMap (fun i => leBytes 4 (s.nodeWord a i chip).toNat) ++ leBytes 1 x.cls ++ leBytes 1 x.role ++
    leBytes 2 x.trxLoop

/-- INP_REGISTRY. -/
def execInpRegistry (m : MbId) (s : State) : Host.Outcome State Fault Refusal :=
  let q := fun o n => s.rq m.val o n
  let act := q 0x10 1
  let a := q 0x11 1
  let rng := fun v lo hi => decide (lo ≤ v ∧ v ≤ hi)
  let ch := q 0x12 1
  let fields :=
    match act with
    | 0 => [(0x11, 1, a == 0xFF || s.ctxOpen a), (0x12, 1, 4 ≤ ch), (0x13, 1, rng (q 0x13 1) 2 8),
            (0x14, 2, rng (q 0x14 2) 10 1000), (0x16, 1, rng (q 0x16 1) 10 100), (0x18, 2, q 0x18 2 ≤ 3600),
            (0x1A, 2, q 0x1A 2 == 0 || rng (q 0x1A 2) 10 6000), (0x1C, 2, rng (q 0x1C 2) 10 1000)]
    | 1 => [(0x11, 1, 4 ≤ a), (0x12, 1, ch == 0xFF || rng ch 8 0x1F), (0x13, 1, q 0x13 1 == 0 || rng (q 0x13 1) 2 8),
            (0x14, 2, q 0x14 2 == 0 || rng (q 0x14 2) 10 1000), (0x18, 8, true)]
    | 3 => [(0x11, 1, true)]
    | _ => [(0x11, 1, 4 ≤ a)]
  done s (s.request m.val 0x0711 (if act = 0 then 0x0E else if act = 1 then 0x10 else 2) ((0x10, 1, decide (act < 5)) :: fields)
    (fun s =>
      match act with
      | 0 => (s.setPolicy m.val).replyDone m.val
      | 1 => s.bindNode m.val a { uid := q 0x18 8, safetyCh := ch, hbMiss := q 0x13 1, hbPeriod := q 0x14 2 }
      | 2 =>
        let x := s.node a
        if x.binding.isNone then s.refuse m.val rAlreadyDone 0
        else (s.setNode a (if x.st = 1 then {} else { x with binding := none })).replyDone m.val
      | 3 => s.replyDone m.val (s.readNode a)
      | _ => s.releaseNode m.val a))

end Sys2Proof.Machine
end

