-- ==== Sys2Proof/Machine/Spr.lean ====
section
/-! DEFINITION. Sys2Proof/Machine/Spr.lean: training, flits, replay, messages, sealed mode and time of the Sprue link
(R720 to R755), and RELAY (R280). -/
namespace Sys2Proof.Machine
open Sys2Proof

/-! ## Training (R726 to R729, R743) -/

/-- Groups of lanes of R727, the widest first, the lowest of a width first: width and lowest lane. -/
def laneGroups : List (Nat × Nat) := [(8, 0), (4, 0), (4, 4), (2, 0), (2, 2), (2, 4), (2, 6)]
/-- The group taken, no wider than `most`, of the lanes in `ok`. -/
def laneGroup (ok : BitVec 8) (most : Nat) : Option (Nat × Nat) :=
  laneGroups.find? (fun g => g.1 ≤ most && (List.range g.1).all (fun i => ok.toNat.testBit (g.2 + i)))

/-- Every chip of the system is reachable. -/
def State.allReachable (s : State) : Bool := (List.range s.chips).all s.reachable
def State.reachBits (s : State) : Nat := mkBits 4 s.reachable
/-- SPRUE_TRAIN ends with an answer. -/
def State.trainEnd (s : State) (f : Nat → State → State) : State :=
  match s.spr.train with
  | some (m, _) => f m { s with spr.train := none }
  | none => s
def State.trainPayload (s : State) : List Byte := leBytes 1 s.reachBits ++ leBytes 1 (s.port 0).width ++ leBytes 1 (s.port 1).width

/-- Chips that have a route again are no longer lost (R738). -/
def State.findChips (s : State) : State :=
  (List.range s.chips).foldl (fun s d =>
    if (s.routeBy d true).isSome then { s with spr.lost := tset s.spr.lost d false } else s) s

/-- SPRUE_TRAIN (R743). -/
def execSprueTrain (m : MbId) (s : State) : Host.Outcome State Fault Refusal :=
  let port := s.rq m.val 0x10 1
  let n := s.rq m.val 0x11 1
  let named := fun p => port == 2 || port == p
  done s (if s.rqOpcode m.val = 0x0901 && s.bus.chipId != 0 && (s.mb m.val).ready then
      s.command m.val 0x0901 true [] (fun s => s.refuse m.val rNotPermitted 0)
    else s.request m.val 0x0901 2 [(0x10, 1, port < 3), (0x11, 1, 2 ≤ n && n ≤ 4)] (fun s =>
      if s.aon.pwr < 2 then s.refuse m.val rStateConflict 1
      else if s.spr.train.isSome then s.refuse m.val rBusy 0
      else
        let all := (List.range 2).all (fun p => !named p || s.portUp p)
        if all && s.chips == n && s.allReachable then s.refuse m.val rAlreadyDone 0
        else
          let s1 := { s.await m.val with spr.n := n, spr.train := some (m.val, port), spr.trainAt := s.clk.now }
          let s2 := (List.range 2).foldl (fun s p =>
            let x := s.port p
            if named p && (x.st == .off || x.st == .down) then s.setPort p { x with st := .detect, reason := 0 } else s) s1
          if all then
            let s3 := s2.findChips
            if s3.allReachable then s3.trainEnd (fun m s => s.replyDone m s.trainPayload) else s3
          else s2))

/-- SPRUE_TRAIN_TIMEOUT (R743): 2 s after acceptance a chip is still unreachable. -/
def execSprueTrainTimeout (s : State) : Host.Outcome State Fault Refusal :=
  done s (if s.spr.trainAt + 2000 * tbMs ≤ s.clk.now && !s.allReachable then
      s.trainEnd (fun m s => s.refuse m rTimeout 0)
    else s)

/-- The flits in the replay buffer are sent again with their original bytes. -/
def State.resend (s : State) (p : Nat) : State :=
  let x := s.port p
  s.setPort p { x with sent := x.sent ++ x.held.map (fun f => f.bytes), ackAt := s.clk.now }

/-- This side sends its SEAL_MARK: what it sends from then on follows the new mode. -/
def State.sendMark (s : State) (p : Nat) : State :=
  let x := s.port p
  if x.st = .up then
    let s1 := s.sendFlit p 4 [] none
    s1.setPort p { s1.port p with sealedTx := !x.sealedTx, sealTx := 0 }
  else s.setPort p { x with markDue := true }

/-- The port reaches UP with a lane group: after a narrowing it replays, else it starts afresh, unsealed. -/
def State.portUpNow (s : State) (p : Nat) (g : Nat × Nat) (peer n : Nat) : State :=
  let x := s.port p
  if x.narrowing then
    let s1 := (s.setPort p { x with st := .up, width := g.1, lane0 := g.2, narrowing := false, goodAt := s.clk.now }).resend p
    (if x.markDue then (s1.setPort p { s1.port p with markDue := false }).sendMark p else s1).pump p
  else
    let s1 := s.setPort p {
      st := .up, width := g.1, lane0 := g.2, lanesBad := x.lanesBad, peer := peer, listening := x.listening
      inflight := x.inflight, lostDue := x.lostDue, goodAt := s.clk.now, ackAt := s.clk.now, sent := x.sent }
    let s2 := { s1 with spr.n := if s1.spr.n = 0 then n else s1.spr.n }
    let s3 := if s2.spr.train.isSome || s2.bus.chipId != 0 then s2.findChips else s2
    let s4 := if p = s3.timePort then { s3 with spr.thetaValid := false } else s3
    -- a device that learns N of 3 or more starts training on its other port (R728)
    let o := s4.port (1 - p)
    if s4.bus.chipId ≠ 0 ∧ 3 ≤ s4.spr.n ∧ o.st = .off then s4.setPort (1 - p) { o with st := .detect } else s4

/-- Whether the parameters agree (R727): 0, or the DETAIL of SPRUE_TRAIN's STATE_CONFLICT. -/
def State.paramMismatch (s : State) (p peer n port : Nat) (release : Nat) : Nat :=
  let own := s.bus.chipId
  let wired := if p = 0 then port == 1 && peer == (own + 1) % n else port == 0 && own == (peer + 1) % n
  if (s.spr.n ≠ 0 && s.spr.n != n) || n < 2 || release ≠ s.rst.image.release then 3
  else if !wired then 2
  else 0

/-- SPRUE_TRAIN_STAGE (R726, R727): the stage that port p is in ends. `lanes` are the lanes that pass in both directions;
the rest is what the other side sends in PARAM. -/
def execSprueTrainStage (p : PortId) (lanes : BitVec 8) (peer : Fin 4) (n : Fin 5) (peerPort : PortId) (release : Word)
    (s : State) : Host.Outcome State Fault Refusal :=
  let x := s.port p.val
  let ok := lanes &&& ~~~x.lanesBad
  done s (match x.st with
    | .off => if x.listening && 2 ≤ s.aon.pwr then s.setPort p.val { x with st := .detect } else s
    | .detect =>
      if 2 ≤ ((List.range 8).filter (fun i => lanes.toNat.testBit i)).length then s.setPort p.val { x with st := .align } else s
    | .align => s.setPort p.val { x with st := .param }
    | .param =>
      match (if x.narrowing then laneGroup ok (x.width - 1) else laneGroup lanes 8) with
      | none => (s.portDown p.val 3)
      | some g =>
        let bad := if x.narrowing then 0 else s.paramMismatch p.val peer.val n.val peerPort.val release.toNat
        if bad ≠ 0 then
          let s1 := s.portDown p.val 0
          s1.trainEnd (fun m s => s.refuse m rStateConflict bad)
        else
          let s1 := (if x.narrowing then s else s.setPort p.val { x with lanesBad := 0 }).portUpNow p.val g peer.val n.val
          match s1.spr.train with
          | some (m, port) =>
            let s2 := if port = 2 ∨ port = p.val then s1.setMb m { s1.mb m with committed := true } else s1
            if s2.allReachable then s2.trainEnd (fun m s => s.replyDone m s.trainPayload) else s2
          | none => s1
    | _ => s)

/-- LANE_FAILURE (R729, R747): the port narrows, or goes DOWN when no width is left. -/
def execLaneFailure (p : PortId) (lane : Fin 8) (s : State) : Host.Outcome State Fault Refusal :=
  let x := s.port p.val
  done s (if x.st = .up ∧ x.lane0 ≤ lane.val ∧ lane.val < x.lane0 + x.width then
      let bad := x.lanesBad ||| BitVec.ofNat 8 (2 ^ lane.val)
      match laneGroup (~~~bad) (x.width - 1) with
      | none => (s.setPort p.val { x with lanesBad := bad }).portDown p.val 3
      | some _ =>
        let s1 := (s.setPort p.val { x with lanesBad := bad, st := .align, narrowing := true }).bump (Blk.spr0 + p.val) 4
        { s1 with spr.tsyncT1 := none }
    else s)

/-! ## Replay (R730, R731) -/

/-- The sender resends from the oldest unacknowledged flit; the fourth time without an advance of ACK takes the port
DOWN. -/
def State.replay (s : State) (p : Nat) : State :=
  let x := s.port p
  if x.held = [] then s
  else
    let s1 := (s.setPort p { x with resends := x.resends + 1 }).bump (Blk.spr0 + p) 3
    let s2 := { s1 with spr.tsyncT1 := none }
    if 4 ≤ x.resends + 1 then s2.portDown p 2 else s2.resend p

/-- REPLAY_TIMER (R730): 2 µs with no advance of ACK while flits are held. -/
def execReplayTimer (p : PortId) (s : State) : Host.Outcome State Fault Refusal :=
  let x := s.port p.val
  done s (if x.st = .up ∧ x.held ≠ [] ∧ x.ackAt + 2 * tbUs ≤ s.clk.now then s.replay p.val else s)

/-- A port that has received no flit with a good CRC for 10 µs goes DOWN (R731). -/
def State.portSilent (s : State) (p : Nat) : State :=
  let x := s.port p
  if x.st = .up ∧ x.goodAt + 10 * tbUs ≤ s.clk.now then s.portDown p 1 else s
/-- LINK_TIMEOUT (R731): each port that is due goes DOWN. -/
def execLinkTimeout (s : State) : Host.Outcome State Fault Refusal := done s ((s.portSilent 0).portSilent 1)

/-- ACK and the credits of a good flit. -/
def State.takeAck (s : State) (p : Nat) (b : List Byte) : State :=
  let x := s.port p
  let ack := bytesAt b 3 1
  let n := match x.held.findIdx? (fun f => f.seq == ack) with | some i => i + 1 | none => 0
  let spent := (List.range 4).foldl (fun t v => nset t v (nget x.spent v - bytesAt b (4 + v) 1)) x.spent
  let s1 := s.setPort p { x with
    held := x.held.drop n, spent := spent, goodAt := s.clk.now
    ackAt := if n = 0 then x.ackAt else s.clk.now, resends := if n = 0 then x.resends else 0 }
  s1.pump p

/-- The payload of a protected flit in the receive mode: none when its tag fails. -/
def State.openFlit (s : State) (p : Nat) (b : List Byte) : Option (List Byte) :=
  let x := s.port p
  let pay := (b.drop 8).take 240
  if !x.sealedRx then some pay
  else
    let iv := sealIv x.saltPeer x.sealRx
    let c := pay.take 224
    if gcmTag x.key iv (b.take 8) c = pay.drop 224 then some (gcmCrypt x.key iv c) else none

/-- Layout of a TSYNC payload: 1 a request, 2 an answer; T2 at 8, T3 at 16, in 1/8 ticks. -/
def tsyncPayload (kind t2 t3 : Nat) : List Byte := leBytes 8 kind ++ leBytes 8 t2 ++ leBytes 8 t3

/-- An accepted flit takes effect by its TYPE. -/
def State.takeFlit (s : State) (p typ : Nat) (pay : List Byte) : State :=
  let x := s.port p
  let s1 := s.setPort p { x with rxSeq := (x.rxSeq + 1) % 256, sealRx := if x.sealedRx then x.sealRx + 1 else x.sealRx }
  let y := s1.port p
  match typ with
  | 1 => (s1.setPort p { y with inbox := y.inbox ++ parseMsgs 15 pay }).addPair (Blk.spr0 + p) 0x150 1
  | 3 =>
    if bytesAt pay 0 8 = 1 then
      if s1.unsync then s1 else s1.sendFlit p 3 (tsyncPayload 2 (8 * s1.tbNow) (8 * s1.tbNow)) none
    else s1.setPort p { y with tsyncIn := some (bytesAt pay 8 8, bytesAt pay 16 8, s1.tbNow) }
  | _ => s1.setPort p { y with markGot := true }

/-- FLIT_RECEIVED (R721, R730, R731, R739): 256 bytes arrive on port p. -/
def execFlitReceived (p : PortId) (b : List Byte) (s : State) : Host.Outcome State Fault Refusal :=
  let x := s.port p.val
  let typ := bytesAt b 0 1
  done s (if x.st ≠ .up ∨ b.length ≠ 256 then s
    else if bytesAt b 0xFC 4 ≠ crc32c (b.take 0xFC) then
      (s.bump (Blk.spr0 + p.val) 2).sendFlit p.val 2 [] none
    else if typ = 1 ∨ typ = 3 ∨ typ = 4 then
      if bytesAt b 2 1 ≠ x.rxSeq then
        (s.setPort p.val { x with goodAt := s.clk.now }).sendFlit p.val 2 [] none
      else match s.openFlit p.val b with
      | none => (s.bump (Blk.spr0 + p.val) 6).portDown p.val 4
      | some pay => (s.takeAck p.val b).takeFlit p.val typ pay
    else if typ = 2 then (s.takeAck p.val b).replay p.val
    else s.takeAck p.val b)

/-! ## Messages (R723, R733, R735, R1047) -/

/-- The first message in port p's inbox with an OP of `ops`, when no earlier message of its VC waits before it (R732). -/
def State.firstMsg (s : State) (p : Nat) (ops : List Nat) : Option Msg :=
  let own := s.bus.chipId
  match (s.port p).inbox.find? (fun m => ops.contains m.op) with
  | none => none
  | some m =>
    let v := m.vc (m.dst == own)
    match (s.port p).inbox.find? (fun k => k.vc (k.dst == own) == v) with
    | some k => if k = m then some m else none
    | none => none
/-- Takes a message out of the inbox; its credits are owed back. -/
def State.takeMsg (s : State) (p : Nat) (m : Msg) : State :=
  let x := s.port p
  let v := m.vc (m.dst == s.bus.chipId)
  s.setPort p { x with inbox := x.inbox.erase m, owed := nset x.owed v (nget x.owed v + m.units) }
/-- A message for another chip goes on, once; without a route it is discarded (R725, R736). -/
def State.forward (s : State) (m : Msg) : State :=
  if m.forwarded then s
  else match s.route m.dst m.addr with
  | some p => s.sendMsg p { m with forwarded := true }
  | none => s
/-- Handles the first message of an OP: it is forwarded, or `f` serves it. -/
def State.onMsg (s : State) (p : Nat) (ops : List Nat) (f : Msg → State → State) : State :=
  match s.firstMsg p ops with
  | none => s
  | some m => if m.dst = s.bus.chipId then f m (s.takeMsg p m) else (s.takeMsg p m).forward m
/-- Sends a response to a request. -/
def State.respond (s : State) (m r : Msg) : State :=
  match s.route m.src m.addr with
  | some p => s.sendMsg p { r with src := s.bus.chipId, dst := m.src, tag := m.tag, master := m.master }
  | none => s

/-- Class of an access that arrives from a peer: never Secure (R40). -/
def peerClass (c : Nat) : AccessClass := if c = 0 then .ordinary else .privileged
/-- Check of an inbound access: 0 OK, 1 DECODE, 2 RIGHTS. A PROTECTED page is reached over a sealed port only. -/
def State.peerCheck (s : State) (p : Nat) (m : Msg) (write : Bool) : Nat :=
  let a := localOf m.addr
  let guarded := (List.range (m.len + 1)).any (fun i =>
    match s.governing (a + i) with | some e => s.entProtected e && decide (i < m.len) | none => false)
  if !ingotRange a m.len then 1
  else if (guarded && !(s.port p).sealedRx) || !s.rightsOk (0x34 + p) (peerClass m.cls) write a m.len then 2
  else 0
/-- A refused inbound access is counted here (R72). -/
def State.peerErr (s : State) (p : Nat) (m : Msg) (write : Bool) (code : Nat) : State :=
  s.fabErr (if code = 1 then 0 else 2) (0x34 + p) (peerClass m.cls) 0 write m.addr

/-- READ_MESSAGE (R47, R723, R733, R1047). -/
def execReadMessage (p : PortId) (s : State) : Host.Outcome State Fault Refusal :=
  done s (s.onMsg p.val [opRead] (fun m s =>
    let c := s.peerCheck p.val m false
    if c ≠ 0 then
      (s.peerErr p.val m false c).respond m { op := opReadData, status := c, len := m.len, data := List.replicate m.len 0 }
    else
      let (d, bad, s1) := s.demandRead (0x34 + p.val) (localOf m.addr) m.len
      let s2 := if bad then s1.fabErr 3 (0x34 + p.val) (peerClass m.cls) 0 false m.addr else s1
      s2.respond m { op := opReadData, poison := bad, len := m.len, data := d }))

/-- WRITE_MESSAGE (R47, R723, R733, R1047): messages take effect in the order they arrive, so an ORDERED one comes
after every earlier one. One with POISON leaves its words poisoned. -/
def execWriteMessage (p : PortId) (s : State) : Host.Outcome State Fault Refusal :=
  done s (s.onMsg p.val [opWrite] (fun m s =>
    let c := s.peerCheck p.val m true
    if c ≠ 0 then (s.peerErr p.val m true c).respond m { op := opWriteAck, status := c }
    else
      let a := localOf m.addr
      let (bad, s1) := s.demandWrite (0x34 + p.val) a m.data
      let s2 := if bad then s1.fabErr 3 (0x34 + p.val) (peerClass m.cls) 0 true m.addr else s1
      let s3 := if m.poison then
          (List.range ((a + m.len + 7) / 8 - a / 8)).foldl (fun s i => s.setChk (8 * (a / 8 + i)) 0xFF) s2
        else s2
      s3.respond m { op := opWriteAck }))

/-- The access in flight that a response answers. -/
def State.inflightOf (s : State) (m : Msg) (write : Bool) : Option InFlight :=
  ((List.range 2).flatMap (fun p => (s.port p).inflight)).find? (fun i => i.tag == m.tag && i.dst == m.src && i.write == write)
def State.endInflight (s : State) (i : InFlight) : State :=
  (List.range 2).foldl (fun s p => let x := s.port p; s.setPort p { x with inflight := x.inflight.erase i }) s

/-- READ_DATA_MESSAGE (R723, R736): bytes of a remote read arrive. A rights violation of a job counts for it as a
window violation (R72). -/
def execReadDataMessage (p : PortId) (s : State) : Host.Outcome State Fault Refusal :=
  done s (s.onMsg p.val [opReadData] (fun m s =>
    match s.inflightOf m false with
    | none => s
    | some i =>
      let s1 := s.endInflight i
      let d := if m.status = 0 then (m.data ++ List.replicate i.len 0).take i.len else List.replicate i.len 0
      if m.status = 3 then s1.lostEnd p.val i
      else match i.flask with
      | some f =>
        match (s1.flask f).running with
        | none => s1
        | some r =>
          if m.status = 2 then s1.jobFault f stWindow 0 0xFFF r.opsDone
          else s1.setFlask f { s1.flask f with
            running := some { r with fetched := r.fetched ++ [(i.addr, d)], fetchedBad := r.fetchedBad || m.poison } }
      | none =>
        { s1 with
          bus.readData := Tab.set (fun _ => []) s1.bus.readData i.master
            (patchBytes (Tab.get (fun _ => []) s1.bus.readData i.master) i.off d)
          bus.readPoison := tset s1.bus.readPoison i.master (tget s1.bus.readPoison i.master || m.poison) }))

/-- WRITE_ACK_MESSAGE (R733, R746). -/
def execWriteAckMessage (p : PortId) (s : State) : Host.Outcome State Fault Refusal :=
  done s (s.onMsg p.val [opWriteAck] (fun m s =>
    match s.inflightOf m true with
    | none => s
    | some i =>
      let s1 := s.endInflight i
      if m.status = 3 then s1.lostEnd p.val i
      else match i.flask with
      | some f =>
        match (s1.flask f).running with
        | some r => if m.status = 2 then s1.jobFault f stWindow 0 0xFFF r.opsDone else s1
        | none => s1
      | none => s1))

/-- LOST_ACCESS_END (R736, R737, R750): every access in flight on a port that went DOWN, or to a lost chip, ends. -/
def execLostAccessEnd (s : State) : Host.Outcome State Fault Refusal :=
  done s ((List.range 2).foldl (fun s p =>
    let x := s.port p
    let gone := x.inflight.filter (fun i => x.lostDue || s.chipLost i.dst)
    let s1 := s.setPort p { x with inflight := x.inflight.filter (fun i => !(x.lostDue || s.chipLost i.dst)), lostDue := false }
    gone.foldl (fun s i => s.lostEnd p i) s1) s)

/-! ## RELAY (R280, R735) -/

/-- Bound of a class in TB ticks (R269). -/
def classTicks : Option CmdClass → Nat
  | some .fast => 100 * tbUs
  | some .long => 5000 * tbMs
  | _ => 10 * tbMs

/-- RELAY (R280): the inner request goes to the peer in two MAILBOX segments. -/
def execRelay (m : MbId) (s : State) : Host.Outcome State Fault Refusal :=
  let chip := s.rq m.val 0x10 1
  let inner := s.rq m.val 0x1C 2
  done s (s.command m.val 0x0003 (s.rqLen m.val == 20 + inner && s.rqLen m.val ≤ 240)
    [(0x10, decide (chip < s.chips ∧ chip ≠ s.bus.chipId)), (0x11, s.rq m.val 0x11 3 == 0)] (fun s =>
      let l := (((s.mb m.val).copy.drop 0x14).take (16 + inner) ++ List.replicate 256 0).take 256
      let tag := s.spr.nextTag
      let s1 := s.await m.val
      let r : Relay :=
        { mb := m.val, chip := chip, tag := tag, at0 := s.clk.now, bound := classTicks (opClass (bytesAt l 0 2)) }
      let s2 := { s1 with
        spr.nextTag := (tag + 1) % 4096
        fmn.relays := s1.fmn.relays ++ [r] }
      let s3 := s2.setMb m.val { s2.mb m.val with committed := true }
      match s3.mailRoute chip with
      | none => s3
      | some p =>
        [0, 1].foldl (fun (s : State) (i : Nat) => s.sendMsg p
          { op := opMailbox, src := s.bus.chipId, dst := chip, tag := tag, master := Config.mForeman
            addr := (if p = 0 then 9 else 8) + 256 * i, data := (l.drop (128 * i)).take 128 }) s3))

/-- RELAY_TIMEOUT (R280): the inner class bound plus 2 ms has passed. -/
def execRelayTimeout (m : MbId) (s : State) : Host.Outcome State Fault Refusal :=
  done s (match s.fmn.relays.find? (fun r => r.mb == m.val) with
    | some r =>
      if r.at0 + r.bound + 2 * tbMs ≤ s.clk.now then
        { s with fmn.relays := s.fmn.relays.erase r }.refuse m.val rTimeout 0
      else s
    | none => s)

/-- The inner response of a RELAY is whole. -/
def State.relayAnswer (s : State) (r : Relay) (l : List Byte) : State :=
  if bytesAt l 2 2 = rInProgress then
    let x := s.mb r.mb
    { s.setMb r.mb { x with progress := max x.progress (min 99 (bytesAt l 0x0A 1)) } with
      fmn.relays := s.fmn.relays.map (fun k => if k = r then { k with first := none } else k) }
  else
    let n := 16 + bytesAt l 8 2
    let s1 := { s with fmn.relays := s.fmn.relays.filter (fun k => k.mb != r.mb) }
    s1.reply r.mb { code := rDone, detail := b2n (240 < n), payload := l.take (min 240 n), progress := 100 }

/-- MAILBOX_MESSAGE (R723, R735): a request segment goes to MB8 + p, which must be IDLE for the second; any other
mailbox number marks a segment of a response. -/
def execMailboxMessage (p : PortId) (s : State) : Host.Outcome State Fault Refusal :=
  let mb := 8 + p.val
  done s (match s.firstMsg p.val [opMailbox] with
    | some m =>
      let request := m.addr % 16 = 8 ∨ m.addr % 16 = 9
      if m.dst = s.bus.chipId ∧ m.status = 0 ∧ request ∧ m.addr / 256 % 2 = 1 ∧ (s.mb mb).st ≠ .idle then s
      else s.onMsg p.val [opMailbox] (fun m s =>
        let second := m.addr / 256 % 2 == 1
        if m.status = 0 ∧ request then
          if !second then ({ s with spr.segs := Tab.set (fun _ => []) s.spr.segs p.val m.data } : State)
          else
            let l := Tab.get (fun _ => []) s.spr.segs p.val ++ m.data
            let s1 := (({ s with spr.segs := Tab.set (fun _ => []) s.spr.segs p.val [] } : State).setArea (mbBase mb) l).ring mb
            s1.setMb mb { s1.mb mb with peer := m.src, peerTag := m.tag }
        else match s.fmn.relays.find? (fun r => r.chip == m.src && r.tag == m.tag) with
        | none => s
        | some r =>
          match r.first with
          | none =>
            if second then s
            else { s with fmn.relays := s.fmn.relays.map (fun k => if k = r then { k with first := some m.data } else k) }
          | some d => if second then s.relayAnswer r (d ++ m.data) else s)
    | none => s)

/-- QUEUE_MESSAGE (R723, R735): an entry for Q100 + k from chip k, with FIRST in ATTR bit 5 and LAST in bit 4. It waits
for a credit; a disabled queue takes nothing. What a peer's Foreman tells of its segments is taken at once (R921). -/
def execQueueMessage (p : PortId) (s : State) : Host.Outcome State Fault Refusal :=
  done s (match s.firstMsg p.val [opQueue] with
    | some m =>
      let q := 100 + m.src
      if m.dst = s.bus.chipId ∧ (s.inpMessage m.src m.data).isNone ∧ s.qEn q ∧ s.credits q = 0 then s
      else s.onMsg p.val [opQueue] (fun m s =>
        match s.inpMessage m.src m.data with
        | some t => t
        | none => s.deviceEntries q [(entry64 m.data, bit m.status 1, bit m.status 0)])
    | none => s)

/-! ## Sealed mode (R739, R740, R744, R1034, R1048) -/

/-- KP as bytes. -/
def State.kpBytes (s : State) : Option (List Byte) := s.sec.otp.kp.map (fun k => leBytes 32 k)
/-- KP check value, 32 bits. -/
def kpCheck (kp : List Byte) : Nat := leNat ((hmac384 kp (ascii "CLN-KP-CHECK")).take 4)
/-- The link key of a port pair: the label, N, the lower and the higher chip ID, their salts. -/
def linkKey (kp : List Byte) (n own peer saltOwn saltPeer : Nat) : List Byte :=
  let ordered := if own < peer then (own, peer, saltOwn, saltPeer) else (peer, own, saltPeer, saltOwn)
  (hmac384 kp (ascii "CLN-SPRUE" ++ leBytes 1 n ++ leBytes 1 ordered.1 ++ leBytes 1 ordered.2.1 ++
    leBytes 4 ordered.2.2.1 ++ leBytes 4 ordered.2.2.2)).take 32
/-- KEYS_DISABLED (R1038). -/
def State.keysDisabled (s : State) : Bool := s.sec.lifecycle == 2

/-- SPRUE_SEAL (R744, R748, R1048): `check` is the peer's KP check value, none when its KP is not written, `salt` its
salt. -/
def execSprueSeal (m : MbId) (check : Option Word) (salt : Word) (s : State) : Host.Outcome State Fault Refusal :=
  let p := s.rq m.val 0x10 1
  let on := s.rq m.val 0x11 1 == 0
  done s (s.request m.val 0x0902 2 [(0x10, 1, p < 2), (0x11, 1, s.rq m.val 0x11 1 < 2)] (fun s =>
    let x := s.port p
    if s.keysDisabled then s.refuse m.val rNotPermitted 0
    else match s.kpBytes, check with
    | some kp, some c =>
      if c.toNat ≠ kpCheck kp then s.refuse m.val rNotPermitted 0
      else if !(x.st == .up || (x.st != .off && x.narrowing)) then s.refuse m.val rStateConflict 1
      else if x.sealMb.isSome then s.refuse m.val rBusy 0
      else if x.sealedTx = on && x.sealedRx = on then s.refuse m.val rAlreadyDone 0
      else if !s.sec.trngOk then s.refuse m.val rStateConflict 9
      else
        let (salt0, s1) := s.drbg 4
        let own := leNat salt0
        let key := if on then linkKey kp s.chips s.bus.chipId x.peer own salt.toNat else x.key
        (((s1.setPort p { x with
            sealMb := some (m.val, on), key := key
            saltOwn := if on then own else x.saltOwn, saltPeer := if on then salt.toNat else x.saltPeer }).await m.val).sendMark p)
    | _, _ => s.refuse m.val rNotPermitted 0))

/-- SEAL_MARK (R740, R744): the mark received takes effect. A side that has not sent its own mark derives the key with
the peer's salt and sends it now. -/
def execSealMark (p : PortId) (salt : Word) (s : State) : Host.Outcome State Fault Refusal :=
  let x := s.port p.val
  done s (if !x.markGot then s
    else match x.sealMb with
    | some (m, on) =>
      (s.setPort p.val { x with markGot := false, sealedRx := on, sealRx := 0, sealMb := none }).replyDone m
    | none =>
      let on := !x.sealedRx
      let (salt0, s1) := s.drbg 4
      let own := leNat salt0
      let key := match s.kpBytes with
        | some kp => if on then linkKey kp s.chips s.bus.chipId x.peer own salt.toNat else x.key
        | none => x.key
      (s1.setPort p.val { x with
        markGot := false, sealedRx := on, sealRx := 0, key := key
        saltOwn := if on then own else x.saltOwn, saltPeer := if on then salt.toNat else x.saltPeer }).sendMark p.val)

/-! ## Time (R741, R742, R751) -/

/-- TSYNC_REQUEST (R741): a chip other than 0 sends a request on its time port. -/
def execTsyncRequest (s : State) : Host.Outcome State Fault Refusal :=
  done s (if s.bus.chipId ≠ 0 ∧ s.portUp s.timePort then
      { s.sendFlit s.timePort 3 (tsyncPayload 1 0 0) none with spr.tsyncT1 := some (8 * s.tbNow) }
    else s)

/-- θ of R741, rounded toward zero. -/
def tsyncOffset (t1 t2 t3 t4 : Nat) : Int := Int.tdiv (((t2 : Int) - t1) + ((t3 : Int) - t4)) 2

/-- The correction of R742. -/
def State.applyOffset (s : State) (th : Int) : State :=
  let s1 := { s with spr.theta := th, spr.thetaValid := true, spr.stale := false, spr.answerAt := s.clk.now }
  if !s.spr.thetaValid && 800 < th.natAbs then
    if 0 < th then
      { s1 with clk.now := (s.clk.now + th.toNat / 8) % 2 ^ 64, spr.slew := 0, spr.slewTicks := 0
                spr.eighths := s.spr.eighths + (th.toNat % 8 : Nat) }
    else { s1 with spr.hold := (-th).toNat, spr.slew := 0, spr.slewTicks := 0 }
  else { s1 with spr.slew := th, spr.slewTicks := 0 }

/-- TSYNC_ANSWER (R741, R742): the answer arrived `eighth` eighths into its tick. -/
def execTsyncAnswer (eighth : Fin 8) (s : State) : Host.Outcome State Fault Refusal :=
  let p := s.timePort
  let x := s.port p
  done s (match x.tsyncIn, s.spr.tsyncT1 with
    | some (t2, t3, at0), some t1 =>
      ({ s.setPort p { x with tsyncIn := none } with spr.tsyncT1 := none }).applyOffset
        (tsyncOffset t1 t2 t3 (8 * at0 + eighth.val))
    | some _, none => s.setPort p { x with tsyncIn := none }
    | _, _ => s)

/-- TSYNC_TIMEOUT (R742): no answer for 10 ms. -/
def execTsyncTimeout (s : State) : Host.Outcome State Fault Refusal :=
  done s (if s.bus.chipId ≠ 0 ∧ s.spr.answerAt + 10 * tbMs ≤ s.clk.now then { s with spr.stale := true } else s)

/-- One tick of TB_NOW with what is held back or gained (R742): the number of ticks by which it advances. -/
def State.tbAdvance (s : State) : Nat × State :=
  if 8 ≤ s.spr.hold then (0, { s with spr.hold := s.spr.hold - 8 })
  else
    let s1 := { s with spr.eighths := s.spr.eighths - s.spr.hold, spr.hold := 0 }
    let s2 : State := if s1.spr.slew = 0 then s1
      else if s1.spr.slewTicks + 1 < 32 then { s1 with spr.slewTicks := s1.spr.slewTicks + 1 }
      else
        let d : Int := if 0 < s1.spr.slew then 1 else -1
        { s1 with spr.slewTicks := 0, spr.slew := s1.spr.slew - d, spr.eighths := s1.spr.eighths + d }
    if 8 ≤ s2.spr.eighths then (2, { s2 with spr.eighths := s2.spr.eighths - 8 })
    else if s2.spr.eighths + 8 ≤ 0 then (0, { s2 with spr.eighths := s2.spr.eighths + 8 })
    else (1, s2)

end Sys2Proof.Machine
end

