-- ==== Sys2Proof/Machine/Sec.lean ====
section
/-! DEFINITION. Sys2Proof/Machine/Sec.lean: debug unlock and lock, the DRBG and the entropy source, the derived keys
(R1034 to R1045, R1050 to R1053). -/
namespace Sys2Proof.Machine
open Sys2Proof

/-! ## Keys (R1034) -/

/-- A key derived from KD; its label ends with "-DBG" while KEYSET_DEBUG is 1. -/
def State.deviceKeyOf (s : State) (label : List Byte) : List Byte :=
  hmac384 (leBytes 32 s.sec.otp.deviceKey.toNat) (label ++ (if s.sec.keysetDebug then ascii "-DBG" else []))
/-- The checkpoint sealing key, 256 bits. -/
def State.ckptSealKey (s : State) : List Byte := (s.deviceKeyOf (ascii "CLN-CKPT-SEAL")).take 32
/-- The checkpoint MAC key, 384 bits. -/
def State.ckptMacKey (s : State) : List Byte := s.deviceKeyOf (ascii "CLN-CKPT-MAC")
/-- The region sealing key, 256 bits (R1047). -/
def State.regionKey (s : State) : List Byte := (s.deviceKeyOf (ascii "CLN-REGION-XTS")).take 32

/-! ## DEBUG_CHALLENGE, DEBUG_UNLOCK, DEBUG_LOCK (R1039 to R1041) -/

/-- DEBUG_CHALLENGE (R1039). -/
def execDebugChallenge (m : MbId) (s : State) : Host.Outcome State Fault Refusal :=
  done s (s.command m.val 0x0C01 (s.rqLen m.val == 0) [] (fun s =>
    if s.sec.debug ≠ 0 then s.refuse m.val rAlreadyDone 0
    else if !s.sec.trngOk then s.refuse m.val rStateConflict 1
    else
      let (nonce, s1) := s.drbg 32
      { s1 with sec.challenge := some (leNat nonce, s.clk.now) }.replyDone m.val
        (nonce ++ leBytes 8 s.sec.otp.deviceId.toNat ++ leBytes 1 s.sec.lifecycle ++ leBytes 1 s.sec.debug)))

/-- What the signature of DEBUG_UNLOCK is over. -/
def State.unlockDigest (s : State) (nonce : Nat) : List Byte :=
  sha384 (leBytes 32 nonce ++ leBytes 8 s.sec.otp.deviceId.toNat ++ ascii "CLN-DEBUG-UNLOCK")
/-- The three conditions of R1040 on the challenge, the key and the signature. -/
def State.unlockOk (s : State) (pub sig : List Byte) : Bool :=
  match s.sec.challenge, s.sec.otp.dbgKeyHash with
  | some (nonce, _), some h => beNat (sha384 pub) == h && h != 0 && ecdsaVerify pub sig (s.unlockDigest nonce)
  | _, _ => false
/-- A job runs or is admitted on a flask, or a long command of another mailbox runs. -/
def State.unlockBusy (s : State) (m : Nat) : Bool :=
  (List.range 8).any (fun f => (s.flask f).running.isSome) || (List.range 12).any (fun k => k != m && s.longRuns k)
/-- Zeroes every valid PROTECTED region, each entry kept (R1040, R658). -/
def State.zeroProtected (s : State) : State :=
  (List.range 32).foldl (fun s e =>
    if s.entValid e && s.entProtected e then s.zeroRange (s.entBase e) (s.entPages e * 4096) else s) s
/-- A refused unlock: UNLOCK_FAIL advances, and the third sets LOCKOUT. -/
def State.unlockFailed (s : State) : State :=
  { s.bump Blk.sec 3 with
    sec.unlockFails := s.sec.unlockFails + 1, sec.lockout := s.sec.lockout || decide (3 ≤ s.sec.unlockFails + 1) }
/-- The locked state (R1041). -/
def State.lockDebug (s : State) : State := { s with sec.debug := 0 }
/-- The unlock's commit point and what follows it: the zeroing, the debug key set, the authenticated state, DONE; a
DEBUG_LOCK that waits then locks (R1040, R1052). -/
def State.unlockNow (s : State) (m : Nat) : State :=
  let s1 := s.zeroProtected
  let s2 := ({ s1 with sec.keysetDebug := true, sec.debug := 1, sec.unlockMb := none }.bump Blk.sec 2).replyDone m
  match s2.sec.lockMb with
  | some k => { s2.lockDebug with sec.lockMb := none }.replyDone k
  | none => s2

/-- DEBUG_UNLOCK (R1040, R1050): it is accepted, and the row's next execution makes the zeroing. -/
def execDebugUnlock (m : MbId) (s : State) : Host.Outcome State Fault Refusal :=
  done s (if s.sec.unlockMb = some m.val then s.unlockNow m.val
    else s.command m.val 0x0C02 (s.rqLen m.val == 192) [] (fun s0 =>
      let s := { s0 with sec.challenge := none }
      if s.sec.debug ≠ 0 then s.refuse m.val rAlreadyDone 0
      else if s.sec.lockout then s.refuse m.val rNotPermitted 2
      else if s.qch.st = .armed then s.refuse m.val rStateConflict 1
      else if s.unlockBusy m.val then s.refuse m.val rStateConflict 2
      else if !s0.unlockOk ((s.rqPayload m.val).take 96) ((s.rqPayload m.val).drop 96) then
        s.unlockFailed.refuse m.val rNotPermitted 1
      else { s with sec.unlockMb := some m.val }.await m.val))

/-- DEBUG_LOCK (R1041, R1052): taken while an unlock's zeroing runs, it waits for it. -/
def execDebugLock (m : MbId) (s : State) : Host.Outcome State Fault Refusal :=
  done s (s.command m.val 0x0C03 (s.rqLen m.val == 0) [] (fun s =>
    if s.sec.lifecycle = 0 then s.refuse m.val rStateConflict 1
    else if s.sec.unlockMb.isSome && s.sec.lockMb.isNone then { s with sec.lockMb := some m.val }.await m.val
    else if s.sec.debug = 0 then s.refuse m.val rAlreadyDone 0
    else s.lockDebug.replyDone m.val))

/-- CHALLENGE_EXPIRY (R1039): 60 s after its DONE. -/
def execChallengeExpiry (s : State) : Host.Outcome State Fault Refusal :=
  done s (match s.sec.challenge with
    | some (_, t) => if t + 60000 * tbMs ≤ s.clk.now then { s with sec.challenge := none } else s
    | none => s)

/-! ## Entropy and DRBG (R1043 to R1045) -/

/-- RNG_READ (R1045, R1053). -/
def execRngRead (m : MbId) (s : State) : Host.Outcome State Fault Refusal :=
  let len := s.rq m.val 0x10 1
  done s (s.request m.val 0x0C04 1 [(0x10, 1, 1 ≤ len && len ≤ 224)] (fun s =>
    if !s.sec.trngOk then s.refuse m.val rStateConflict 1
    else
      let (l, s1) := s.drbg len
      s1.replyDone m.val l))

/-- TRNG_HEALTH_FAIL (R1044): the samples are discarded; the third failure within 1 s clears TRNG_OK. -/
def execTrngHealthFail (s : State) : Host.Outcome State Fault Refusal :=
  let times := s.clk.now :: s.sec.failAt.filter (fun t => decide (s.clk.now < t + 1000 * tbMs))
  done s { s.bump Blk.sec 4 with
    sec.failAt := times.take 3, sec.trngOk := s.sec.trngOk && decide (times.length < 3) }

/-- TRNG_RESTART (R1044): the restart that the Foreman makes 1 s after the third failure; `passes` tells whether 1024
consecutive samples passed. -/
def execTrngRestart (passes : Bool) (s : State) : Host.Outcome State Fault Refusal :=
  let due := match s.sec.failAt.head? with
    | some t => decide (t + 1000 * tbMs ≤ s.clk.now)
    | none => true
  done s (if !s.sec.trngOk && due && passes then { s with sec.trngOk := true, sec.failAt := [] } else s)

/-- DRBG_RESEED (R1043, R1044): after 2^16 generate requests or 60 s, never while TRNG_OK is 0. -/
def execDrbgReseed (s : State) : Host.Outcome State Fault Refusal :=
  done s (if s.sec.trngOk && (decide (2 ^ 16 ≤ s.sec.drbgReqs) || decide (s.sec.reseedAt + 60000 * tbMs ≤ s.clk.now)) then
      { s with sec.drbgReqs := 0, sec.reseedAt := s.clk.now }
    else s)

end Sys2Proof.Machine
end

