-- ==== Sys2Proof/Machine/Ckpt.lean ====
section
/-! DEFINITION. Sys2Proof/Machine/Ckpt.lean: checkpoint images (R757 to R761), their build, their parts in flash and
their import (R766 to R782). A command is accepted, and each time its row comes again it takes its next step. -/
namespace Sys2Proof.Machine
open Sys2Proof

/-! ## Images -/

def ckMagic : Nat := 0x54504B43
/-- Where the flash on XSPI_CS1n stands in `Pins.flash`: after the 256 MiB of the other one. -/
def ckSlotAt (slot off : Nat) : Nat := 0x10000000 + 0x4000000 * slot + off
/-- v rounded up to a multiple of k. -/
def roundUp (v k : Nat) : Nat := cdiv v k * k
/-- Bytes of the header, N records and the HMAC. -/
def headSpan (n : Nat) : Nat := 64 + 64 * n + 48
/-- MAGIC, the header CRC and the HMAC pass (R761), of `n` bytes from offset o as `rd o n` reads them. -/
def imageValid (mac : List Byte) (rd : Nat → Nat → List Byte) : Bool :=
  let h := rd 0 64
  let n := bytesAt h 6 2
  bytesAt h 0 4 == ckMagic && bytesAt h 0x3C 4 == crc32c (h.take 0x3C) &&
  hmac384 mac (rd 0 (64 + 64 * n)) == rd (64 + 64 * n) 48
def State.slotHead (s : State) (slot : Nat) : List Byte := s.flashBytes (ckSlotAt slot 0) 64
def State.slotValid (s : State) (slot : Nat) : Bool :=
  imageValid s.ckptMacKey (fun o n => s.flashBytes (ckSlotAt slot o) n)
/-- MANIFEST_SEQ of a slot, 0 where it is not valid. -/
def State.ckSeq (s : State) (slot : Nat) : Nat := if s.slotValid slot then bytesAt (s.slotHead slot) 8 4 else 0
/-- The slot of SOURCE 0 or 1: the one with the larger MANIFEST_SEQ, A on a tie, or the other. -/
def State.sourceSlot (s : State) (source : Nat) : Nat :=
  let best := if s.ckSeq 0 < s.ckSeq 1 then 1 else 0
  if source = 0 then best else 1 - best

/-- The Foreman's Secure read of local memory. -/
def State.secRead (s : State) (a n : Nat) : List Byte × Bool × State := s.demandRead Config.mForeman a n
def State.secWrite (s : State) (a : Nat) (l : List Byte) : State := (s.demandWrite Config.mForeman a l).2
/-- A valid image stands in the stage: its header. -/
def State.stageHead (s : State) (stage cap : Nat) : Option (List Byte) × State :=
  let (h, bad, s1) := s.secRead stage 64
  let n := bytesAt h 6 2
  if bad || cap < headSpan n then (none, s1)
  else
    let (l, bad2, s2) := s1.secRead stage (headSpan n)
    (if !bad2 && imageValid s.ckptMacKey (fun o k => (l.drop o).take k) then some h else none, s2)

/-- A stage of R766: a local ingot range, both ends on 4 KiB. -/
def stageOk (stage cap : Nat) : Bool := stage % 4096 == 0 && cap % 4096 == 0 && cap != 0 && ingotRange stage cap

/-! ## The command in progress -/

def State.ckptJob (s : State) (j : CkptJob) : State := { s with ckpt.job := some j }
/-- The command ends: admission resumes and the flash is released. -/
def State.ckptEnd (s : State) (j : CkptJob) : State :=
  let uses := j.kind == 1 || (j.kind == 2 && j.step == 1)
  { s with ckpt.job := none, ckpt.hold := false, fmn.flashBusy := s.fmn.flashBusy && !uses }
/-- Zero over MAGIC in the stage (R768, R769). -/
def State.dropMagic (s : State) (stage : Nat) : State := s.secWrite stage (leBytes 4 0)
def State.ckStage (s : State) (j : CkptJob) : Nat := s.rq j.mb 0x18 8
def State.ckCap (s : State) (j : CkptJob) : Nat := s.rq j.mb 0x20 4
/-- It ends with a refusal; a build leaves no valid MAGIC. -/
def State.ckptFail (s : State) (j : CkptJob) (code detail : Nat) (p : List Byte := []) : State :=
  let s1 := if j.kind = 0 then s.dropMagic (s.ckStage j) else s
  (s1.ckptEnd j).refuse j.mb code detail p
/-- Some job runs on a flask. -/
def State.jobsRun (s : State) : Bool := (List.range 8).any (fun f => (s.flask f).running.isSome)
def ckIndex (i : Nat) : List Byte := leBytes 4 i

/-! ## BUILD (R766 to R769) -/

/-- A page of the range has the property of its governing entry. -/
def State.pageAny (s : State) (a len : Nat) (p : Option Nat → Bool) : Bool :=
  (pagesOf (a, a + len)).any (fun x => p (s.governing (max a x)))
def State.pageProtected (s : State) (a len : Nat) : Bool :=
  s.pageAny a len (fun e => match e with | some k => s.entProtected k | none => false)
/-- MODE of R767. -/
def State.entryMode (s : State) (r : List Byte) : Nat :=
  let a := bytesAt r 0 8
  let len := bytesAt r 8 8
  let sealIt := bit (bytesAt r 0x1A 1) 0
  let noComp := s.pageAny a len (fun e => match e with | some k => !s.entCompress k | none => false)
  if s.pageProtected a len then 2
  else if noComp && sealIt then 2
  else if noComp then 0
  else if sealIt then 3
  else 1
def sealedMode (mode : Nat) : Bool := 2 ≤ mode
def codedMode (mode : Nat) : Bool := mode % 2 == 1

/-- A request record in range (R759, R766, R769). -/
def requestOk (stage cap : Nat) (r : List Byte) : Bool :=
  let a := bytesAt r 0 8
  let len := bytesAt r 8 8
  let base := bytesAt r 0x10 8
  a % 64 == 0 && 1 ≤ len && len ≤ 67108864 && ingotRange a len &&
  (base == 0 || (ingotRange base len && (base + len ≤ stage || stage + cap ≤ base))) &&
  bytesAt r 0x18 1 ≤ 10 && bytesAt r 0x19 1 < 64 && bytesAt r 0x1A 1 ≤ 1 && (r.drop 0x1B).all (fun b => b == 0)

/-- The tensor that stands for an entry's content in the codec. -/
def entryTensor (a fmt tableId base capacity : Nat) : Tensor :=
  { parseTensor 0 [] with
    addr := a, fmt := fmt, tableId := tableId, base := if base = 0 then 0xFFFF else 0, capacity := capacity }
/-- A whole sequence as bytes, with its RAW and ZERO blocks counted. -/
def sequenceBytes (t : Tensor) (content base : List Byte) : List Byte × Nat × Nat :=
  let (blocks, images) := encodeBlocks t false content.toArray base.toArray
  let first := seqTables content.length + 160 * images.length
  let used := blocks.foldl (fun v b => v + b.1.length) first
  (seqHeader t blocks.length images.length false content.length used ++ blockIndex (blockPlaces first blocks) ++
    images.flatMap imageBytes ++ blocks.flatMap (fun b => b.1),
   (blocks.filter (fun b => b.2 == 0)).length, (blocks.filter (fun b => b.2 == 2)).length)

/-- IV of R760. -/
def chunkIv (salt entry chunk : Nat) : List Byte := leBytes 4 salt ++ leBytes 4 entry ++ leBytes 4 chunk
def chunksOf : Nat → Nat → List Byte → List (List Byte)
  | 0, _, _ => []
  | fuel + 1, k, l => if l = [] then [] else l.take k :: chunksOf fuel k (l.drop k)
/-- Seals a form chunk by chunk. -/
def sealBytes (key aad : List Byte) (salt entry : Nat) (l : List Byte) : List Byte :=
  ((chunksOf (cdiv l.length 65536) 65536 l).zipIdx).flatMap (fun c =>
    let iv := chunkIv salt entry c.2
    let x := gcmCrypt key iv c.1
    x ++ gcmTag key iv aad x)

/-- Table slots of an encode of len bytes. -/
def ckSlots (tableId len : Nat) : List Nat := ((List.range (seqEpochs len)).map (fun e => (tableId + e) % 64)).dedup
/-- An encoder is idle and the slots are held by none (R696). -/
def State.encoderFree (s : State) (slots : List Nat) : Bool :=
  s.flx.encoders.length < 4 &&
  (s.flx.encoders ++ s.flx.waiting).all (fun e => slots.all (fun k => !e.slots.contains k))

/-- Stores one entry under R760, or waits for an encoder. -/
def State.storeEntry (s : State) (j : CkptJob) (r : List Byte) (mode : Nat) (rest : List (List Byte × Nat)) : State :=
  let len := bytesAt r 8 8
  let base := bytesAt r 0x10 8
  let fmt := bytesAt r 0x18 1
  let tid := bytesAt r 0x19 1
  let i := j.recs.length
  if codedMode mode && !s.encoderFree (ckSlots tid len) then s
  else
    let (d, bad, s1) := s.secRead (bytesAt r 0 8) len
    let (b, badB, s2) := if base = 0 then (List.replicate len 0, false, s1) else s1.secRead base len
    if bad || badB then s2.ckptFail j rStateConflict 9 (ckIndex i)
    else
      let t := entryTensor 0 fmt tid base 0
      let coded := sequenceBytes t d b
      let plain := if codedMode mode then coded.1 else d
      let s3 := if codedMode mode then s2.countEncode len plain.length coded.2.1 coded.2.2 else s2
      let aad := leBytes 8 (bytesAt r 0 8) ++ leBytes 8 len ++ leBytes 1 fmt ++ leBytes 1 mode ++ leBytes 1 tid ++
        leBytes 1 0 ++ leBytes 4 (if base = 0 then 0 else crc32c b) ++ leBytes 8 base
      let stored := if sealedMode mode then sealBytes s3.ckptSealKey aad j.salt i plain else plain
      let off := roundUp j.len 4096
      if s.ckCap j < off + stored.length then s3.ckptFail j rNoResource 0 (ckIndex i)
      else
        let a0 := s.ckStage j + roundUp j.len 8
        let gap := if i = 0 then [] else List.replicate (s.ckStage j + off - a0) 0
        let pad := List.replicate (roundUp stored.length 8 - stored.length) 0
        let s4 := (s3.secWrite a0 gap).secWrite (s.ckStage j + off) (stored ++ pad)
        let entry := aad ++ leBytes 8 off ++ leBytes 8 stored.length ++ leBytes 4 (crc32c d) ++ List.replicate 12 0
        s4.ckptJob { j with len := off + stored.length, todo := rest, recs := j.recs ++ [entry] }

/-- The manifest header (R758). -/
def State.manifest (s : State) (j : CkptJob) : List Byte :=
  let body := leBytes 4 ckMagic ++ leBytes 2 1 ++ leBytes 2 j.recs.length ++ leBytes 4 j.seq ++ leBytes 4 j.salt ++
    leBytes 8 (s.rq j.mb 0x30 8) ++ leBytes 8 j.tb ++ leBytes 8 j.len ++ leBytes 1 s.bus.chipId ++
    leBytes 1 (b2n (j.recs.any (fun r => sealedMode (bytesAt r 0x11 1)))) ++ List.replicate 18 0
  body ++ leBytes 4 (crc32c body)
/-- The records, the HMAC and the header, MAGIC last (R768). -/
def State.closeImage (s : State) (j : CkptJob) : State :=
  let l := s.manifest j ++ j.recs.flatten
  let full := l ++ hmac384 s.ckptMacKey l
  let pad := List.replicate (roundUp full.length 4096 - full.length) 0
  let s1 := (s.secWrite (s.ckStage j + 8) ((full ++ pad).drop 8)).secWrite (s.ckStage j) (full.take 8)
  ({ s1.ckptEnd j with ckpt.lastSeq := j.seq }).replyDone j.mb (leBytes 4 j.seq ++ leBytes 4 0 ++ leBytes 8 j.len)

/-- The build starts once no job runs, or at once without HOLD. -/
def State.startBuild (s : State) (j : CkptJob) : State :=
  if j.waitAt.isSome && s.jobsRun then s
  else
    let todo := j.todo.map (fun r => (r.1, s.entryMode r.1))
    if todo.any (fun r => sealedMode r.2) && s.keysDisabled then s.ckptFail j rNotPermitted 0
    else if !s.sec.trngOk then s.ckptFail j rStateConflict 9
    else if s.ckCap j < roundUp (headSpan todo.length) 4096 then s.ckptFail j rNoResource 0 (ckIndex 0)
    else
      let (salt, s1) := (s.dropMagic (s.ckStage j)).drbg 4
      s1.ckptJob { j with
        step := 2, waitAt := none, seq := 1 + max (max (s.ckSeq 0) (s.ckSeq 1)) s.ckpt.lastSeq, salt := leNat salt
        tb := s.tbNow, len := headSpan todo.length, todo := todo }
def State.buildStep (s : State) (j : CkptJob) : State :=
  if j.step = 1 then s.startBuild j
  else match j.todo with
    | [] => s.closeImage j
    | r :: rest => s.storeEntry j r.1 r.2 rest

/-- BUILD is accepted, its request records copied. -/
def State.acceptBuild (s : State) (m : Nat) : State :=
  let n := s.rq m 0x12 2
  let stage := s.rq m 0x18 8
  let cap := s.rq m 0x20 4
  let list := s.rq m 0x28 8
  let usable := stageOk stage cap
  let drop := fun (s : State) => if usable then s.dropMagic stage else s
  match badField [(0x12, 1 ≤ n && n ≤ 256), (0x18, stage % 4096 == 0 && ingotRange stage 4096), (0x20, usable),
      (0x28, list % 64 == 0 && ingotRange list (32 * n))] with
  | some o => (drop s).refuse m rBadArgument o
  | none =>
    let (l, bad, s1) := s.secRead list (32 * n)
    let recs := chunksOf n 32 l
    if bad then (drop s1).refuse m rStateConflict 9 (ckIndex 0)
    else if !recs.all (requestOk stage cap) then (drop s1).refuse m rBadArgument 0x28
    else
      let hold := bit (s.rq m 0x11 1) 0
      ({ s1.await m with ckpt.hold := hold }).ckptJob
        { mb := m, kind := 0, waitAt := if hold then some s.clk.now else none, todo := recs.map (fun r => (r, 0)) }

/-! ## FLASH_PART (R770) -/

/-- FLASH_PART is accepted. -/
def State.acceptPart (s : State) (m : Nat) : State :=
  let stage := s.rq m 0x18 8
  let cap := s.rq m 0x20 4
  let off := s.rq m 0x24 4
  let len := s.rq m 0x38 4
  match badField [(0x18, stage % 4096 == 0 && ingotRange stage 4096), (0x20, stageOk stage cap), (0x24, off % 2 ^ 20 == 0),
      (0x38, 1 ≤ len && len ≤ 2 ^ 20)] with
  | some o => s.refuse m rBadArgument o
  | none =>
    if s.fmn.flashBusy then s.refuse m rBusy 0
    else match s.stageHead stage cap with
    | (none, s1) => s1.refuse m rStateConflict 1
    | (some h, s1) =>
      let seq := bytesAt h 8 4
      let imageLen := bytesAt h 0x20 8
      let slot := match s.ckpt.target with
        | some (k, next, q) => if next = off ∧ q = seq then some k else none
        | none => none
      if off ≠ 0 && slot.isNone then s1.refuse m rStateConflict 2
      else if imageLen < off + len then s1.refuse m rBadArgument 0x38
      else ({ s1.await m with fmn.flashBusy := true }).ckptJob
        { mb := m, kind := 1, step := if off = 0 then 1 else 2, seq := seq, len := imageLen, slot := if off = 0 then none else slot }

/-- The next step of a part; `flashOk` tells whether the read-back agrees. -/
def State.partStep (s : State) (j : CkptJob) (flashOk : Bool) : State :=
  let stage := s.ckStage j
  let off := s.rq j.mb 0x24 4
  let len := s.rq j.mb 0x38 4
  let slot := j.slot.getD 0
  match j.step with
  | 1 =>
    let k := if s.ckSeq 0 < s.ckSeq 1 then 0 else 1
    ({ s.flashErase (ckSlotAt k 0) 1 with ckpt.target := none }).ckptJob { j with step := 2, slot := some k }
  | 2 =>
    let (d, bad, s1) := s.secRead (stage + off) len
    let s2 := s1.flashErase (ckSlotAt slot (off / 0x10000 * 0x10000)) ((off + len + 0xFFFF) / 0x10000 - off / 0x10000)
    let skip := if off = 0 then 256 else 0
    let s3 := s2.flashProgram (ckSlotAt slot (off + skip)) (d.drop skip)
    if bad then ({ s2 with ckpt.target := none }).ckptFail j rStateConflict 9
    else if !flashOk then ({ s3 with ckpt.target := none }).ckptFail j rStateConflict 3
    else if off + len = j.len then s3.ckptJob { j with step := 3 }
    else ({ s3 with ckpt.target := some (slot, off + len, j.seq) }.ckptEnd j).replyDone j.mb (leBytes 1 slot)
  | _ =>
    let (d, bad, s1) := s.secRead stage 256
    if bad then ({ s1 with ckpt.target := none }).ckptFail j rStateConflict 9
    else
      (({ s1.flashProgram (ckSlotAt slot 0) d with ckpt.target := none }).ckptEnd j).replyDone j.mb
        (leBytes 1 slot ++ leBytes 3 0 ++ leBytes 4 j.seq)

/-- CKPT_EXPORT (R766 to R770). One that meets another checkpoint command in progress waits for it (R270). -/
def execCkptExport (m : MbId) (flashOk : Bool) (s : State) : Host.Outcome State Fault Refusal :=
  let act := s.rq m.val 0x10 1
  let fields : List (Nat × Nat × Bool) := [(0x10, 1, act < 2), (0x11, 1, s.rq m.val 0x11 1 < 2), (0x12, 2, true), (0x18, 8, true), (0x20, 4, true),
    (0x24, 4, true), (0x28, 8, true), (0x30, 8, true), (0x38, 4, true)]
  done s (match s.ckpt.job with
    | some j =>
      if j.mb ≠ m.val || s.frozen then s
      else if j.kind = 0 then s.buildStep j
      else if j.kind = 1 then s.partStep j flashOk
      else s
    | none => s.request m.val 0x0A01 (if act = 0 then 40 else 44) fields (fun s =>
        if act = 0 then s.acceptBuild m.val else s.acceptPart m.val))

/-- CKPT_HOLD_TIMEOUT (R768, R773, R775): jobs still run 5 ms after the wait began. -/
def execCkptHoldTimeout (s : State) : Host.Outcome State Fault Refusal :=
  done s (match s.ckpt.job with
    | some j =>
      (match j.waitAt with
       | some t => if s.jobsRun && decide (t + 5 * tbMs ≤ s.clk.now) then (s.ckptEnd j).refuse j.mb rBusy 0 else s
       | none => s)
    | none => s)

/-! ## CKPT_IMPORT (R771 to R773) -/

/-- Runs a check over the entry records; the DETAIL and index of the first that fails. -/
def firstFailing (f : State → Nat → List Byte → Option Nat × State) : List (List Byte × Nat) → State → Option (Nat × Nat) × State
  | [], s => (none, s)
  | r :: t, s =>
    match f s r.2 r.1 with
    | (some d, s1) => (some (d, r.2), s1)
    | (none, s1) => firstFailing f t s1

def entLen (r : List Byte) : Nat := bytesAt r 8 8
def entMode (r : List Byte) : Nat := bytesAt r 0x11 1
def entBaseAt (r : List Byte) : Nat := bytesAt r 0x18 8

/-- Check 6: the base is the one of the export. -/
def State.checkBase (s : State) (_ : Nat) (r : List Byte) : Option Nat × State :=
  if entBaseAt r = 0 then (none, s)
  else
    let (b, bad, s1) := s.secRead (entBaseAt r) (entLen r)
    (if bad then some 9 else if crc32c b = bytesAt r 0x14 4 then none else some 6, s1)

/-- Opens the chunks of a sealed entry: the plain chunks with their tags kept behind them; none where a tag fails. -/
def openChunks (key aad : List Byte) (salt entry : Nat) (stored : List Byte) : Option (List Byte) :=
  let cs := (chunksOf (cdiv stored.length 65552) 65552 stored).zipIdx
  if cs.all (fun c =>
      let n := c.1.length - 16
      16 ≤ c.1.length && gcmTag key (chunkIv salt entry c.2) aad (c.1.take n) == c.1.drop n) then
    some (cs.flatMap (fun c =>
      let n := c.1.length - 16
      gcmCrypt key (chunkIv salt entry c.2) (c.1.take n) ++ c.1.drop n))
  else none
/-- Check 7: tags, and what is PROTECTED. Sealed data is decrypted in place. -/
def State.checkSeal (s : State) (stage cap salt : Nat) (i : Nat) (r : List Byte) : Option Nat × State :=
  if sealedMode (entMode r) then
    let (d, bad, s1) := s.secRead (stage + bytesAt r 0x20 8) (bytesAt r 0x28 8)
    let inProtected := !s.pageAny stage cap (fun e => match e with | some k => !s.entProtected k | none => true)
    if bad then (some 9, s1)
    else match openChunks s.ckptSealKey (r.take 0x20) salt i d with
      | some p => if inProtected then (none, s1.secWrite (stage + bytesAt r 0x20 8) p) else (some 7, s1)
      | none => (some 7, s1)
  else (if s.pageProtected (bytesAt r 0 8) (entLen r) then some 7 else none, s)

/-- An entry's stored form as it stands decrypted in the stage, tags left out. -/
def plainForm (r : List Byte) (d : List Byte) : List Byte :=
  if sealedMode (entMode r) then (chunksOf (cdiv d.length 65552) 65552 d).flatMap (fun c => c.take (c.length - 16)) else d
/-- Blocks of a sequence held as bytes. -/
def sequenceBlocks (t : Tensor) (len : Nat) (d : Array Byte) (base : Option (Array Byte)) : List BlockRead :=
  let cut := fun (a : Array Byte) (o n : Nat) => (List.range n).map (fun k => a.getD (o + k) 0)
  (List.range (seqBlocks len)).map (fun i =>
    readBlockBy (m := Id) (fun o n => cut d o n) (base.map (fun b => fun o n => cut b o n)) t len i)

/-- An entry's blocks and content: a damaged block delivers the base bytes of its range. -/
structure EntryRead where
  bad : Bool
  blocks : List BlockRead := []
  content : List Byte := []
/-- Reads an entry back from the stage. -/
def State.readEntry (s : State) (stage : Nat) (r : List Byte) : EntryRead × State :=
  let len := entLen r
  let (d, bad, s1) := s.secRead (stage + bytesAt r 0x20 8) (bytesAt r 0x28 8)
  let p := plainForm r d
  if !codedMode (entMode r) then ({ bad := bad, content := p.take len }, s1)
  else
    let (b, badB, s2) := if entBaseAt r = 0 then (List.replicate len 0, false, s1) else s1.secRead (entBaseAt r) len
    let t := entryTensor 0 (bytesAt r 0x10 1) (bytesAt r 0x12 1) (entBaseAt r) p.length
    let blocks := sequenceBlocks t len p.toArray (if entBaseAt r = 0 then none else some b.toArray)
    let content := (blocks.zipIdx).flatMap (fun x =>
      match x.1.content with | some c => c | none => (b.drop (4096 * x.2)).take (blockLen len x.2))
    ({ bad := bad || badB, blocks := blocks, content := content }, s2)
/-- Damaged blocks of an entry. -/
def EntryRead.damaged (e : EntryRead) : Nat := (e.blocks.filter (fun b => b.content.isNone)).length

/-- Check 8: every block passes R704, or is substituted. -/
def State.checkBlocks (s : State) (stage : Nat) (subst : Bool) (_ : Nat) (r : List Byte) : Option Nat × State :=
  let (e, s1) := s.readEntry stage r
  if e.bad then (some 9, s1)
  else
    let s2 := e.blocks.foldl (fun s b => s.countBlock Config.mForeman 0xFF b subst) s1
    (if e.damaged = 0 || subst then none else some 8, s2)
/-- Check 10: the content is the exported one, for an entry with no substituted block. -/
def State.checkContent (s : State) (stage : Nat) (_ : Nat) (r : List Byte) : Option Nat × State :=
  let (e, s1) := s.readEntry stage r
  (if e.bad then some 9 else if e.damaged = 0 && crc32c e.content ≠ bytesAt r 0x30 4 then some 10 else none, s1)

/-- Entry records of the image in the stage, with their indices. -/
def State.stageRecs (s : State) (stage n : Nat) : List (List Byte × Nat) × State :=
  let (l, _, s1) := s.secRead (stage + 64) (64 * n)
  ((chunksOf n 64 l).zipIdx, s1)

/-- The whole verify pass over a valid image: the first check that fails, in the order of R772. -/
def State.verifyImage (s : State) (j : CkptJob) (h : List Byte) : Option (Nat × Nat) × State :=
  let stage := s.ckStage j
  let subst := bit (s.rq j.mb 0x11 1) 0
  let (recs, s1) := s.stageRecs stage (bytesAt h 6 2)
  if s.keysDisabled || bytesAt h 4 2 ≠ 1 || s.ckCap j < bytesAt h 0x20 8 then (some (4, 0), s1)
  else if bytesAt h 0x28 1 ≠ s.bus.chipId then (some (5, 0), s1)
  else match firstFailing State.checkBase recs s1 with
  | (some e, s2) => (some e, s2)
  | (none, s2) =>
    match firstFailing (fun s i r => s.checkSeal stage (s.ckCap j) (bytesAt h 0xC 4) i r) recs s2 with
    | (some e, s3) => (some e, s3)
    | (none, s3) =>
      match firstFailing (fun s i r => s.checkBlocks stage subst i r) recs s3 with
      | (some e, s4) => (some e, s4)
      | (none, s4) => firstFailing (fun s i r => s.checkContent stage i r) recs s4

/-- Writes content from a with 8-byte words; each word is taken where `take` holds of its index. -/
def State.writeContent (s : State) (a : Nat) (l : List Byte) (take : Nat → Bool) : State :=
  ((chunksOf (cdiv l.length 8) 8 l).zipIdx).foldl (fun s c => if take c.2 then s.secWrite (a + 8 * c.2) c.1 else s) s
/-- The write pass (R773): from an entry whose read fails on, the destinations hold any mix. -/
def State.writeEntries (s : State) (stage : Nat) : List (List Byte × Nat) → Option Nat → Nat → Option Nat × Nat × State
  | [], bad, n => (bad, n, s)
  | r :: t, bad, n =>
    let (e, s1) := s.readEntry stage r.1
    let bad1 := match bad with | some k => some k | none => if e.bad then some r.2 else none
    let s2 := if bad1.isSome then
        { s1.writeContent (bytesAt r.1 0 8) e.content (fun w => Config.freeBool (s1.free + w)) with
          free := s1.free + cdiv (entLen r.1) 8 }
      else s1.writeContent (bytesAt r.1 0 8) e.content (fun _ => true)
    State.writeEntries s2 stage t bad1 (n + e.damaged)

/-- The next step of an import. -/
def State.importStep (s : State) (j : CkptJob) : State :=
  let stage := s.ckStage j
  let fail := fun (s : State) (d i : Nat) => s.ckptFail j rStateConflict d (ckIndex i)
  match j.step with
  | 1 =>
    let slot := s.sourceSlot (s.rq j.mb 0x10 1)
    let h := s.slotHead slot
    let len := bytesAt h 0x20 8
    if s.keysDisabled || !s.slotValid slot || s.ckCap j < max len (headSpan (bytesAt h 6 2)) then fail s 4 0
    else
      let n := roundUp len 8
      ({ s.secWrite stage (s.flashBytes (ckSlotAt slot 0) n) with fmn.flashBusy := false }).ckptJob
        { j with step := 2, slot := some slot }
  | 2 =>
    match s.stageHead stage (s.ckCap j) with
    | (none, s1) => fail s1 4 0
    | (some h, s1) =>
      match s1.verifyImage j h with
      | (some (d, i), s2) => fail s2 d i
      | (none, s2) =>
        let (recs, s3) := s2.stageRecs stage (bytesAt h 6 2)
        let seq := bytesAt h 8 4
        if bit (s.rq j.mb 0x11 1) 1 then
          let n := recs.foldl (fun (n : Nat) r => n + (s3.readEntry stage r.1).1.damaged) 0
          (s3.ckptEnd j).replyDone j.mb (leBytes 4 seq ++ leBytes 4 n)
        else ({ s3 with ckpt.hold := true }).ckptJob
          { j with step := 3, seq := seq, len := recs.length, waitAt := some s.clk.now }
  | _ =>
    if s.jobsRun then s
    else
      let (recs, s1) := s.stageRecs stage j.len
      match s1.writeEntries stage recs none 0 with
      | (some i, _, s2) => fail s2 9 i
      | (none, n, s2) => (s2.ckptEnd j).replyDone j.mb (leBytes 4 j.seq ++ leBytes 4 n)

/-- CKPT_IMPORT (R771 to R773). One that meets another checkpoint command in progress waits for it (R270). -/
def execCkptImport (m : MbId) (s : State) : Host.Outcome State Fault Refusal :=
  let source := s.rq m.val 0x10 1
  let stage := s.rq m.val 0x18 8
  let cap := s.rq m.val 0x20 4
  done s (match s.ckpt.job with
    | some j => if j.mb = m.val ∧ j.kind = 2 ∧ !s.frozen then s.importStep j else s
    | none => s.request m.val 0x0A02 20 [(0x10, 1, source < 3), (0x11, 1, s.rq m.val 0x11 1 < 4),
        (0x18, 8, stage % 4096 == 0 && ingotRange stage 4096), (0x20, 4, stageOk stage cap)] (fun s =>
      if source < 2 && s.fmn.flashBusy then s.refuse m.val rBusy 0
      else ({ s.await m.val with fmn.flashBusy := s.fmn.flashBusy || decide (source < 2) }).ckptJob
        { mb := m.val, kind := 2, step := if source < 2 then 1 else 2 }))

/-- MANIFEST_READ (R774). -/
def execManifestRead (m : MbId) (s : State) : Host.Outcome State Fault Refusal :=
  let source := s.rq m.val 0x10 1
  let stage := s.rq m.val 0x18 8
  done s (s.request m.val 0x0A03 (if source = 2 then 16 else 1)
    [(0x10, 1, source < 3), (0x18, 8, source != 2 || (stage % 4096 == 0 && ingotRange stage 4096))] (fun s =>
    if source = 2 then
      let (h, _, s1) := s.secRead stage 64
      let (v, s2) := s1.stageHead stage (0x4000000 - stage)
      s2.replyDone m.val (h ++ leBytes 1 (b2n v.isSome))
    else
      let slot := s.sourceSlot source
      s.replyDone m.val (s.slotHead slot ++ leBytes 1 (b2n (s.slotValid slot)) ++ leBytes 1 slot)))

end Sys2Proof.Machine
end

