-- ==== Sys2Proof/Machine/MediaOps.lean ====
section
/-! DEFINITION. Sys2Proof/Machine/MediaOps.lean: what a closed ingest frame and an OK run of an engine raise: arrivals on
trigger links, triggers of graphs, source frames of egress rings (R348, R375, R380, R447, R851), and the release of an
ingest buffer (R349). -/
namespace Sys2Proof.Machine
open Sys2Proof

/-- Link b of a profile: its KIND and INDEX (R382). -/
def State.engTrig (s : State) (e p : Nat) (b : Bool) : Nat × Nat :=
  (s.engCfg e p (if b then 0x1A else 0x18) 1, s.engCfg e p (if b then 0x1B else 0x19) 1)
/-- MODE CHAIN, and ENABLED. -/
def State.chained (s : State) (e p : Nat) : Bool := (s.prof e p).st == 2 && s.engCfg e p 0x13 1 == 0

/-- Arrivals on every link that names a source (kind, index), in the order of engines, profiles and links. -/
def State.raise (s : State) (kind index : Nat) : State :=
  (List.range 48).foldl (fun s i =>
    let e := i / 8
    let p := i % 8
    if !s.chained e p then s
    else
      let hits := [false, true].filter (fun b => s.engTrig e p b == (kind, index))
      if hits = [] then s
      else
        let x := s.prof e p
        s.setProf e p { x with arrivals := x.arrivals ++ hits }) s

/-- TRIG_A and TRIG_B of a graph. -/
def State.graphTrig (s : State) (g : Nat) (b : Bool) : Nat := s.graphCfg g (if b then 0x15 else 0x14) 1

/-- The frame-end event of slot i: arrivals, triggers of graphs in IDLE or RUNNING, source frames of egress rings. -/
def State.slotEvent (s : State) (i seq tb addr stride : Nat) : State :=
  let s1 := s.raise 1 i
  let s2 := (List.range 16).foldl (fun s g =>
    let x := s.graph g
    let hits := [false, true].filter (fun b => s.graphTrig g b == i)
    if (x.st == .idle || x.st == .running) && hits != [] then
      s.setGraph g { x with events := x.events ++ hits.map (fun b => (b, seq, tb)) }
    else s) s1
  (List.range 8).foldl (fun s e =>
    let x := s.egress e
    if x.st == 2 && s.egCfg e 0x13 1 == 1 && s.egCfg e 0x14 1 == i then
      s.setEgress e { x with frames := x.frames ++ [(seq, addr, stride, tb)] }
    else s) s2

/-- A write of RELEASE (R349). -/
def State.releaseWrite (s : State) (i v : Nat) : State :=
  let r := s.slotRelease i
  if (s.slotWritten i + 65536 - r) % 65536 < (v + 65536 - r) % 65536 then s.bump Blk.ing 8
  else s.setReg Blk.ing (slotBase i + 8) (at_ v 0 16)

end Sys2Proof.Machine
end

