-- ==== Sys2Proof/Machine/Ing.lean ====
section
/-! DEFINITION. Sys2Proof/Machine/Ing.lean: sensor ingest and the I3C controllers (R339 to R371). -/
namespace Sys2Proof.Machine
open Sys2Proof

/-! ## Settings of a slot -/

def State.slotPort (s : State) (i : Nat) : Nat := s.slotCfg i 0x11 1
def State.slotNbuf (s : State) (i : Nat) : Nat := s.slotCfg i 0x17 1
def State.slotHeight (s : State) (i : Nat) : Nat := s.slotCfg i 0x1A 2
/-- Bytes of a stored line. -/
def State.slotLine (s : State) (i : Nat) : Nat := lineLen (s.slotCfg i 0x14 1) (s.slotCfg i 0x15 1) (s.slotCfg i 0x18 2)
/-- Buffer and header of sequence number n. -/
def State.slotBuf (s : State) (i n : Nat) : Nat := s.slotCfg i 0x20 4 + s.slotCfg i 0x24 4 * (n % s.slotNbuf i)
def State.slotHdr (s : State) (i n : Nat) : Nat := s.slotCfg i 0x28 4 + 64 * (n % s.slotNbuf i)
/-- Running slots of a virtual channel of a link. -/
def State.vcSlots (s : State) (port link vc : Nat) : List Nat :=
  (List.range 48).filter (fun i => (s.slot i).running && s.slotPort i == port && s.slotCfg i 0x12 1 == link &&
    s.slotCfg i 0x13 1 == vc)
/-- The receivers work: Gust and Gale (R368), nothing holds the part. -/
def State.ingLive (s : State) : Bool := 2 ≤ s.aon.pwr && !s.frozen
/-- A 16-bit counter of the frame. -/
def State.ingCount (s : State) (off : Nat) : State :=
  s.setReg Blk.ing off (at_ (fld (s.reg Blk.ing off) 0 16 + 1) 0 16)

/-! ## Writes (R367) -/

/-- A write of the slot's frame fails: the slot stops, WRITE_FAULT advances, Class C of its owner. A partial write that
meets a poisoned word is an ECC error of the owner. -/
def State.slotFault (s : State) (i : Nat) (acc : Access) : State :=
  let c := s.slotOwner i
  let s1 := (s.slotStop i 1).bump Blk.ing 9
  s1.teardown c (if acc == .poison then stEcc else stWindow)

/-- Writes bytes of slot i's frame; false when it failed. -/
def State.slotPut (s : State) (i a : Nat) (l : List Byte) : Bool × State :=
  if l = [] then (true, s)
  else
    let (acc, s1) := s.writeMem Config.mIngest .ordinary (s.slotOwner i) a l
    if acc == .ok then (true, s1) else (false, s1.slotFault i acc)

/-! ## Closing a frame (R348, R350) -/

/-- Zero bytes over every part of lines 0 to n − 1 that was not received. -/
def State.zeroFill (s : State) (i base stride len : Nat) (got : Tab Nat) : Nat → Bool × State
  | 0 => (true, s)
  | n + 1 =>
    match State.zeroFill s i base stride len got n with
    | (false, s1) => (false, s1)
    | (true, s1) =>
      let have_ := nget got n - 1
      s1.slotPut i (base + n * stride + have_) (List.replicate (len - have_) 0)

/-- FLAGS of the header. -/
def OpenFrame.flags (f : OpenFrame) (short trunc : Bool) : Nat :=
  b2n short + 2 * b2n f.long + 4 * b2n f.lineLen + 8 * b2n (f.crcLines != 0) + 16 * b2n trunc + 32 * b2n f.overrun +
  64 * b2n f.late

/-- The slot closes its open frame: zero fill, header, WRITTEN, the frame-end event. A stop that waits takes place. -/
def State.closeFrame (s : State) (i : Nat) (trunc : Bool) (tbFe : Nat) : State :=
  let x := s.slot i
  match x.frame with
  | none => s
  | some f =>
    let n := s.slotWritten i
    let base := s.slotBuf i n
    let stride := s.slotCfg i 0x1E 2 * 64
    let h := s.slotHeight i
    let short := (List.range h).any (fun k => nget f.got k == 0)
    let flags := f.flags short trunc
    let hdr := entry64 (leBytes 2 n ++ leBytes 2 f.csiNum ++ leBytes 2 flags ++ leBytes 1 i ++ leBytes 1 0 ++
      leBytes 8 f.tbFs ++ leBytes 8 tbFe ++ leBytes 2 (min f.lines 65535) ++ leBytes 1 (s.slotCfg i 0x14 1) ++ leBytes 1 0 ++
      leBytes 4 f.bytes ++ leBytes 2 f.crcLines ++ leBytes 2 f.eccCorr ++ leBytes 2 (min x.droppedBefore 65535))
    match s.zeroFill i base stride (s.slotLine i) f.got h with
    | (false, s1) => s1
    | (true, s1) =>
      match s1.slotPut i (s1.slotHdr i n) hdr with
      | (false, s2) => s2
      | (true, s2) =>
        let s3 := (s2.setReg Blk.ing (slotBase i + 4) (at_ (n + 1) 0 16)).setPair Blk.ing (slotBase i + 0x1C) tbFe
        let s4 := s3.setSlot i { s3.slot i with st := .armed, frame := none, droppedBefore := 0 }
        let s5 := (s4.bump Blk.ing 2).slotEvent i n tbFe base stride
        let s6 := if flags % 64 = 0 then s5 else (s5.bump Blk.ing 4).ingCount (slotBase i + 0x10)
        if (s6.slot i).stopping.isSome then s6.slotStop i 0 else s6

/-! ## Packets (R343 to R347, R351, R352) -/

/-- TB_FS of the last Frame Start received. -/
def State.lastFs (s : State) (i : Nat) : Nat :=
  (s.reg Blk.ing (slotBase i + 0x14)).toNat + 2 ^ 32 * (s.reg Blk.ing (slotBase i + 0x18)).toNat

/-- A Frame Start reaches running slot i: an open frame is closed with TRUNCATED first (R364), then a frame is opened, or
dropped when no buffer is free. -/
def State.slotFrameStart (s : State) (i num tb : Nat) (fixed : Bool) : State :=
  let s0 := s.closeFrame i true s.tbNow
  let x := s0.slot i
  if !x.running then s0
  else
    let pm := s0.slotCfg i 0x2E 2
    let late := x.fsSeen && pm != 0 && s0.lastFs i + pm * 10000 < tb
    let s1 := s0.setPair Blk.ing (slotBase i + 0x14) tb
    let s2 := if late then s1.bump Blk.ing 5 else s1
    let y := { x with fsSeen := true, stalled := false }
    if s2.slotNbuf i ≤ s2.slotInUse i then
      ((s2.setSlot i { y with st := .armed, dropping := true, droppedBefore := x.droppedBefore + 1 }).ingCount
        (slotBase i + 0x0C)).bump Blk.ing 3
    else
      s2.setSlot i { y with
        st := .receiving, dropping := false
        frame := some { csiNum := num, tbFs := tb, late := late, eccCorr := b2n fixed } }

/-- A packet header of port k: 0 clean, 1 corrected, 2 beyond correction; none when the packet is discarded (R367). -/
def State.csiHeader (s : State) (k hdr : Nat) : Bool × State :=
  if hdr = 2 then (false, (s.ingCount (0x408 + 0x20 * k)).bump Blk.ing 7)
  else if hdr = 1 then (true, s.ingCount (0x404 + 0x20 * k))
  else (true, s)

/-- CSI_FRAME_START (R343, R346, R351): the stamp lies `off` ticks after the header crosses the pins. -/
def execCsiFrameStart (port : Fin 6) (link : Fin 2) (vc : Fin 16) (num : BitVec 16) (hdr : Fin 3) (off : Fin 21) (s : State) :
    Host.Outcome State Fault Refusal :=
  done s (if !s.ingLive then s
    else match s.csiHeader port.val hdr.val with
    | (false, s1) => s1
    | (true, s1) => (s1.vcSlots port.val link.val vc.val).foldl (fun s i =>
        s.slotFrameStart i num.toNat (s.tbNow + off.val) (hdr == 1)) s1)

/-- Unpacking of R341: RAW10 as four pixels in five bytes, RAW12 as two pixels in three (the packing of MIPI CSI-2). -/
def unpack10 : Nat → List Byte → List Byte
  | 0, _ => []
  | n + 1, l =>
    if l.length < 5 then []
    else
      let px := (List.range 4).flatMap (fun i => leBytes 2 (4 * bytesAt l i 1 + bytesAt l 4 1 / 4 ^ i % 4))
      px ++ unpack10 n (l.drop 5)
def unpack12 : Nat → List Byte → List Byte
  | 0, _ => []
  | n + 1, l =>
    if l.length < 3 then []
    else
      let px := (List.range 2).flatMap (fun i => leBytes 2 (16 * bytesAt l i 1 + bytesAt l 2 1 / 16 ^ i % 16))
      px ++ unpack12 n (l.drop 3)
/-- The bytes of a line as they are stored. -/
def storedLine (dt fmt : Nat) (l : List Byte) : List Byte :=
  if fmt = 1 then (if dt = 0x2B then unpack10 l.length l else unpack12 l.length l) else l

/-- A long packet reaches its running slot. -/
def State.slotLine' (s : State) (i : Nat) (payload : List Byte) (fixed crcErr lost : Bool) : State :=
  let x := s.slot i
  match x.frame with
  | none => s
  | some f =>
    let k := f.lines
    let len := s.slotLine i
    let l := storedLine (s.slotCfg i 0x14 1) (s.slotCfg i 0x15 1) payload
    let f1 := { f with lines := k + 1, eccCorr := f.eccCorr + b2n fixed, crcLines := f.crcLines + b2n crcErr }
    if s.slotHeight i ≤ k then s.setSlot i { x with frame := some { f1 with long := true } }
    else if lost then s.setSlot i { x with frame := some { f1 with overrun := true } }
    else
      let d := l.take len
      let f2 := { f1 with
        lineLen := f.lineLen || decide (len < l.length), bytes := f.bytes + d.length, got := nset f.got k (d.length + 1) }
      let s1 := s.setSlot i { x with frame := some f2 }
      (s1.slotPut i (s1.slotBuf i (s1.slotWritten i) + k * s1.slotCfg i 0x1E 2 * 64) d).2

/-- CSI_LONG_PACKET (R343, R347, R353): `lost` tells that the line does not fit in the port's line buffer. -/
def execCsiLongPacket (port : Fin 6) (link : Fin 2) (vc : Fin 16) (dt : BitVec 6) (payload : List Byte) (hdr : Fin 3)
    (crcErr lost : Bool) (s : State) : Host.Outcome State Fault Refusal :=
  done s (if !s.ingLive then s
    else match s.csiHeader port.val hdr.val with
    | (false, s1) => s1
    | (true, s1) =>
      if dt == 0x10 || dt == 0x11 then s1
      else match (s1.vcSlots port.val link.val vc.val).find? (fun i => s1.slotCfg i 0x14 1 == dt.toNat) with
      | none => (s1.ingCount (0x40C + 0x20 * port.val)).bump Blk.ing 6
      | some i => s1.slotLine' i payload (hdr == 1) crcErr lost)

/-- CSI_FRAME_END (R343, R348). -/
def execCsiFrameEnd (port : Fin 6) (link : Fin 2) (vc : Fin 16) (hdr : Fin 3) (off : Fin 21) (s : State) :
    Host.Outcome State Fault Refusal :=
  done s (if !s.ingLive then s
    else match s.csiHeader port.val hdr.val with
    | (false, s1) => s1
    | (true, s1) => (s1.vcSlots port.val link.val vc.val).foldl (fun s i =>
        let x := s.slot i
        let s2 := match x.frame with
          | some f => if hdr == 1 then s.setSlot i { x with frame := some { f with eccCorr := f.eccCorr + 1 } } else s
          | none => s
        s2.closeFrame i false (s.tbNow + off.val)) s1)

/-- FRAME_TIMEOUT (R348). -/
def execFrameTimeout (i : SlotId) (s : State) : Host.Outcome State Fault Refusal :=
  done s (match (s.slot i.val).frame with
    | some f =>
      if s.ingLive && f.tbFs + s.slotCfg i.val 0x2C 2 * 10000 ≤ s.clk.now then s.closeFrame i.val true s.tbNow else s
    | none => s)

/-- STALL_TIMEOUT (R352). -/
def execStallTimeout (i : SlotId) (s : State) : Host.Outcome State Fault Refusal :=
  let x := s.slot i.val
  let t := s.slotCfg i.val 0x30 2
  done s (if x.running && x.fsSeen && t != 0 && s.lastFs i.val + t * tbMs ≤ s.clk.now then
      s.setSlot i.val { x with stalled := true }
    else s)

/-- ING_RELEASE_WRITE (R349). -/
def execIngReleaseWrite (i : SlotId) (v : BitVec 16) (s : State) : Host.Outcome State Fault Refusal :=
  done s (s.releaseWrite i.val v.toNat)

/-! ## Stream commands (R354 to R356) -/

/-- Data types of R341, their formats, and what WIDTH must be a multiple of. -/
def dtFormats (dt : Nat) : List (Nat × Nat) :=
  if dt = 0x2A || dt = 0x24 || dt = 0x12 then [(0, 1)]
  else if dt = 0x2B then [(0, 4), (1, 1)]
  else if dt = 0x2C then [(0, 2), (1, 1)]
  else if dt = 0x1E then [(0, 2)]
  else if 0x30 ≤ dt && dt ≤ 0x37 then [(0, 1), (2, 1)]
  else []

/-- An area of a configured slot other than i overlaps len bytes from a. -/
def State.slotClash (s : State) (i a len : Nat) : Bool :=
  (List.range 48).any (fun k => k != i && (s.slot k).configured &&
    ((a < s.slotCfg k 0x20 4 + s.slotBufLen k && s.slotCfg k 0x20 4 < a + len) ||
     (a < s.slotCfg k 0x28 4 + s.slotHdrLen k && s.slotCfg k 0x28 4 < a + len)))

/-- STREAM_CONFIG (R354). -/
def execStreamConfig (m : MbId) (s : State) : Host.Outcome State Fault Refusal :=
  let q := fun o n => s.rq m.val o n
  let rng := fun v lo hi => decide (lo ≤ v ∧ v ≤ hi)
  let i := q 0x10 1
  let dt := q 0x14 1
  let fmt := q 0x15 1
  let w := q 0x18 2
  let h := q 0x1A 2
  let ls := q 0x1E 2
  let nb := q 0x17 1
  let fm := dtFormats dt
  let mult := match fm.find? (fun e => e.1 == fmt) with | some e => e.2 | none => 1
  let len := lineLen dt fmt w
  let base := q 0x20 4
  let stride := q 0x24 4
  let hb := q 0x28 4
  let owner := q 0x32 1
  done s (s.request m.val 0x0501 0x23
    [(0x10, 1, i < 48), (0x11, 1, q 0x11 1 < 6), (0x12, 1, q 0x12 1 == 0 || (q 0x12 1 == 1 && q 0x16 1 == 3)),
     (0x13, 1, q 0x13 1 < 16), (0x14, 1, fm != []), (0x15, 1, fm.any (fun e => e.1 == fmt)), (0x16, 1, q 0x16 1 < 4),
     (0x17, 1, rng nb 2 16), (0x18, 2, rng w 1 8192 && w % mult == 0), (0x1A, 2, rng h 1 8192),
     (0x1C, 2, rng (q 0x1C 2) 80 2500), (0x1E, 2, rng ls 1 512 && len ≤ ls * 64),
     (0x20, 4, base % 4096 == 0 && ingotRange base (nb * stride) && !s.slotClash i base (nb * stride)),
     (0x24, 4, stride % 4096 == 0 && ls * 64 * h ≤ stride),
     (0x28, 4, hb % 64 == 0 && ingotRange hb (64 * nb) && !s.slotClash i hb (64 * nb)),
     (0x2C, 2, 1 ≤ q 0x2C 2), (0x2E, 2, true), (0x30, 2, true), (0x32, 1, owner < 32 || owner == 0xFF)]
    (fun s =>
      let x := s.slot i
      let other := fun (p : Nat → Bool) => (List.range 48).any (fun k => k != i && (s.slot k).configured &&
        s.slotPort k == q 0x11 1 && p k)
      if x.st != .stopped then s.refuse m.val rStateConflict 1
      else if other (fun k => s.slotCfg k 0x16 1 != q 0x16 1 || s.slotCfg k 0x1C 2 != q 0x1C 2) then
        s.refuse m.val rStateConflict 2
      else if other (fun k => s.slotCfg k 0x12 1 == q 0x12 1 && s.slotCfg k 0x13 1 == q 0x13 1 && s.slotCfg k 0x14 1 == dt) then
        s.refuse m.val rStateConflict 3
      else
        let s1 := if x.configured then s.slotClear i else s
        let put := fun (s : State) a n => s.cover a n (ownerKind owner) (ownerId owner) readGroups ingWrites 0
        match (put s1 base (nb * stride)).bind (fun s => put s hb (64 * nb)) with
        | none => s.refuse m.val rNoResource 0
        | some s2 =>
          let s3 := (List.range 9).foldl (fun s k =>
            s.setReg Blk.ing (slotBase i + 0x24 + 4 * k) (BitVec.ofNat 32 (s.rq m.val (0x10 + 4 * k) 4))) s2
          (s3.setSlot i { s3.slot i with configured := true }).replyDone m.val))

/-- STREAM_START (R355). -/
def execStreamStart (m : MbId) (s : State) : Host.Outcome State Fault Refusal :=
  let i := s.rq m.val 0x10 1
  done s (s.request m.val 0x0502 1 [(0x10, 1, i < 48)] (fun s =>
    let x := s.slot i
    if x.running then s.refuse m.val rAlreadyDone 0
    else if !x.configured then s.refuse m.val rStateConflict 1
    else if s.aon.pwr < 2 then s.refuse m.val rStateConflict 2
    else (s.setSlot i { x with st := .armed, fsSeen := false, stalled := false, dropping := false }).replyDone m.val
      (leBytes 2 (s.slotWritten i))))

/-- STREAM_STOP (R356). -/
def execStreamStop (m : MbId) (s : State) : Host.Outcome State Fault Refusal :=
  let i := s.rq m.val 0x10 1
  let mode := s.rq m.val 0x11 1
  let clear := s.rq m.val 0x12 1
  done s (s.request m.val 0x0503 2 [(0x10, 1, i < 48), (0x11, 1, mode < 2), (0x12, 1, clear < 2)] (fun s =>
    let x := s.slot i
    if !x.running then s.refuse m.val rAlreadyDone 0
    else if x.stopping.isSome then s.refuse m.val rBusy 0
    else
      let s1 := (s.setSlot i { x with stopping := some (m.val, clear == 1), stopAt := s.clk.now }).await m.val
      if mode = 1 || x.frame.isNone then s1.slotStop i 0 else s1))

/-- STREAM_STOP_TIMEOUT (R356). -/
def execStreamStopTimeout (i : SlotId) (s : State) : Host.Outcome State Fault Refusal :=
  let x := s.slot i.val
  done s (if x.stopping.isSome && x.stopAt + 9 * tbMs ≤ s.clk.now then s.slotStop i.val 0 1 else s)

/-! ## I3C (R358, R359) -/

/-- I3C_XFER (R359): `out` is how the targets answer. -/
def execI3cXfer (m : MbId) (out : I3cOut) (s : State) : Host.Outcome State Fault Refusal :=
  let q := fun o n => s.rq m.val o n
  let op := q 0x11 1
  let wl := q 0x14 2
  let rl := q 0x16 2
  let legacy := decide (8 ≤ op)
  let reads := op == 2 || op == 3 || op == 6 || op == 9 || op == 10
  done s (s.request m.val 0x0504 (0x10 + wl)
    [(0x10, 1, q 0x10 1 < 2), (0x11, 1, decide (1 ≤ op ∧ op ≤ 10)), (0x12, 1, q 0x12 1 < 128), (0x13, 1, true),
     (0x14, 2, wl ≤ 200), (0x16, 2, rl ≤ 200), (0x18, 1, q 0x18 1 < 2), (0x20, wl, true)]
    (fun s =>
      match out with
      | .addrNack => s.refuse m.val rStateConflict 1
      | .dataNack => if legacy then s.refuse m.val rStateConflict 2 else s.replyDone m.val (leBytes 8 0)
      | .sclHeld => if legacy then s.refuse m.val rTimeout 0 else s.replyDone m.val (leBytes 8 0)
      | .read l =>
        let d := if reads then l.take rl else []
        s.replyDone m.val (leBytes 2 d.length ++ leBytes 6 0 ++ d)
      | .targets l =>
        if op = 7 then
          let t := l.take 20
          s.replyDone m.val (leBytes 2 0 ++ leBytes 2 t.length ++ leBytes 4 0 ++
            t.zipIdx.flatMap (fun e => leBytes 8 e.1.toNat ++ leBytes 1 ((q 0x12 1 + e.2) % 128) ++ leBytes 1 0))
        else s.replyDone m.val (leBytes 8 0)))

/-- I3C_IBI_REQUEST (R358): an in-band interrupt or hot-join request is NACKed and leaves nothing behind. -/
def execI3cIbiRequest (_ctrl : Fin 2) (_hotJoin : Bool) (s : State) : Host.Outcome State Fault Refusal := done s s

end Sys2Proof.Machine
end

