-- ==== Sys2Proof/Machine/EngOps.lean ====
section
/-! DEFINITION. Sys2Proof/Machine/EngOps.lean: the framework of the six media engines (R373 to R381, R404, R407, R410):
planes, reads and writes of an engine, starts, the resolution of inputs, and the ends of a run. -/
namespace Sys2Proof.Machine
open Sys2Proof

/-! ## Planes -/

/-- Rows of pixel values. -/
abbrev Plane := List (List Nat)
/-- The w by h plane of a function. -/
def grid {α : Type} (w h : Nat) (f : Nat → Nat → α) : List (List α) :=
  (List.range h).map (fun y => (List.range w).map (fun x => f x y))
/-- The value at (x, y) inside the plane. -/
def Plane.px (p : Plane) (x y : Nat) : Nat := (((p[y]?).getD [])[x]?).getD 0
/-- v held within 0 to n − 1. -/
def clampTo (n : Nat) (v : Int) : Nat := min v.toNat (n - 1)
/-- The value at (x, y) with both coordinates clamped into the w by h plane. -/
def Plane.at (p : Plane) (w h : Nat) (x y : Int) : Int := (p.px (clampTo w x) (clampTo h y) : Nat)
/-- n little-endian values of b bytes. -/
def values (b : Nat) (l : List Byte) (n : Nat) : List Nat := (List.range n).map (fun i => bytesAt l (b * i) b)
def sumInt (l : List Int) : Int := l.foldl (· + ·) 0

/-! ## Accesses of an engine -/

def engMaster (e : Nat) : Nat := Config.mEngine0 + e
/-- Context of a profile's owner, for the capture of fabric errors. -/
def ownerCtx (o : Nat) : Nat := if o = 0xFF then 0 else o
/-- What an engine's accesses carry: engine, and the owner's context. -/
structure EngUser where
  e : Nat
  ctx : Nat
/-- Reads n lines of len bytes; the first access that fails is answered. -/
def State.readLines (s : State) (u : EngUser) (a stride len : Nat) : Nat → List (List Byte) × Access × State
  | 0 => ([], .ok, s)
  | n + 1 =>
    let (l, acc, s1) := State.readLines s u a stride len n
    if acc != .ok then (l, acc, s1)
    else if len = 0 then (l ++ [[]], .ok, s1)
    else
      let (d, acc, s2) := s1.readMem (engMaster u.e) .ordinary u.ctx (a + n * stride) len
      (l ++ [d], acc, s2)
/-- Reads a plane of w by h pixels of bpp bytes. -/
def State.readPlane (s : State) (u : EngUser) (a stride w h bpp : Nat) : Plane × Access × State :=
  let (l, acc, s1) := s.readLines u a stride (w * bpp) h
  (l.map (fun r => values bpp r w), acc, s1)
/-- Writes lines at their addresses. -/
def State.writeLines (s : State) (u : EngUser) : List (Nat × List Byte) → Access × State
  | [] => (.ok, s)
  | (a, l) :: t =>
    if l = [] then State.writeLines s u t
    else
      let (acc, s1) := s.writeMem (engMaster u.e) .ordinary u.ctx a l
      if acc != .ok then (acc, s1) else State.writeLines s1 u t

/-- What a run has computed: its output lines, FLAGS of the header and the engine-specific bytes from 0x24, the status that
an access gave, the free values used. -/
structure RunResult where
  lines : List (Nat × List Byte) := []
  flags : Nat := 0
  spec : List Byte := []
  acc : Access := .ok
  /-- Verdicts of EDGE: sector, KIND, DIST. -/
  verdicts : List (Nat × Nat × Nat) := []
  /-- Totals of SGM: pixels, INVALID, LR_FAIL. -/
  totals : Nat × Nat × Nat := (0, 0, 0)

/-! ## Starts (R375, R376, R404) -/

/-- A start of profile p that replaced or met one is skipped. -/
def State.skipStart (s : State) (e p : Nat) : State :=
  let x := s.prof e p
  (s.setProf e p { x with skipped := x.skipped + 1 }).bump (engBlk e) 3
/-- A start becomes the pending start of its profile; an earlier one is replaced and keeps its place. -/
def State.makeStart (s : State) (e p : Nat) (token : Option (Nat × Nat)) : State :=
  let x := s.prof e p
  if x.pending then
    let s1 := (s.tokenDone x.pendingToken 2 0 0 0 []).skipStart e p
    s1.setProf e p { s1.prof e p with pendingToken := token }
  else
    let s1 := s.setProf e p { x with pending := true, pendingToken := token }
    let g := s1.engine e
    s1.setEngine e { g with order := g.order ++ [p] }
/-- Discards the pending start and the arrivals of a profile. -/
def State.dropStart (s : State) (e p : Nat) : State :=
  let x := s.prof e p
  let s1 := s.tokenDone x.pendingToken 2 0 0 0 []
  let y := s1.prof e p
  let s2 := s1.setProf e p { y with pending := false, pendingToken := none, arrA := false, arrB := false, arrivals := [] }
  let g := s2.engine e
  s2.setEngine e { g with order := g.order.filter (fun q => q != p) }

/-- An arrival on link b of a CHAIN profile (R375, R404). -/
def State.arrive (s : State) (e p : Nat) (b : Bool) : State :=
  let joined := (s.engTrig e p false).1 != 0 && (s.engTrig e p true).1 != 0
  if !joined then s.makeStart e p none
  else
    let x := s.prof e p
    let again := if b then x.arrB else x.arrA
    let s1 := if again then s.skipStart e p else s
    let y := s1.prof e p
    let z := if b then { y with arrB := true } else { y with arrA := true }
    if z.arrA && z.arrB then (s1.setProf e p { z with arrA := false, arrB := false }).makeStart e p none
    else s1.setProf e p z

/-! ## Inputs (R377, R390, R410, R415) -/

/-- Geometry of the plane that a configured profile writes: width, height, stride, bytes per pixel, levels. -/
def State.outGeometry (s : State) (e p : Nat) : Nat × Nat × Nat × Nat × Nat :=
  let f := fun o n => s.engCfg e p o n
  match e with
  | 0 => (f 0x48 2, f 0x4A 2, f 0x4C 2 * 64, f 0x47 1 + 1, 0)
  | 1 =>
    let b := f 0x46 1 + 1
    let w := f 0x40 2
    (w, f 0x42 2, if f 0x48 1 = 1 then cdiv (w * b) 64 * 64 else f 0x44 2 * 64, b, f 0x47 1)
  | _ => (0, 0, 0, 0, 0)

/-- Resolves input number i of a profile: none when it names a slot or a ring run that does not exist. -/
def State.resolve (s : State) (e p i : Nat) : Option RunInput :=
  let o := 0x20 + 8 * i
  let k := s.engCfg e p o 1
  let idx := s.engCfg e p (o + 1) 1
  let age := s.engCfg e p (o + 2) 1
  match k with
  | 0 => some {}
  | 1 => some { kind := 1, addr := s.engCfg e p (o + 4) 4 }
  | 2 =>
    let n := s.slotWritten idx
    if n = 0 then none
    else
      let q := n - 1
      let dt := s.slotCfg idx 0x14 1
      let fmt := s.slotCfg idx 0x15 1
      let w := s.slotCfg idx 0x18 2
      some { kind := 2, index := idx, seq := q, addr := s.slotCfg idx 0x20 4 + s.slotCfg idx 0x24 4 * (q % s.slotCfg idx 0x17 1)
             w := w, h := s.slotCfg idx 0x1A 2, stride := s.slotCfg idx 0x1E 2 * 64
             bpp := if fmt != 0 then 2 else if lineLen dt fmt w = w then 1 else 0 }
  | _ =>
    let se := idx / 8
    let sp := idx % 8
    let x := s.prof se sp
    match (if age = 0 then x.lastOk else x.prevOk) with
    | none => none
    | some r =>
      let (w, h, stride, bpp, lv) := s.outGeometry se sp
      let hdr := s.engHdr se sp r
      if se = 2 then
        -- the geometry of an SGM run is in its header (R434)
        let w := s.load (hdr + 0x3A) 2
        some { kind := 3, index := idx, seq := r, addr := s.engOut se sp r, hdr := hdr, w := w, h := s.load (hdr + 0x3C) 2
               stride := cdiv (2 * w) 64 * 64, bpp := 2 }
      else some { kind := 3, index := idx, seq := r, addr := s.engOut se sp r, hdr := hdr, w := w, h := h, stride := stride
                  bpp := bpp, levels := lv }

/-- Size of level l of a pyramid (R389). -/
def levelSize (n : Nat) : Nat → Nat
  | 0 => n
  | l + 1 => cdiv (levelSize n l) 2
/-- Line stride of level l (R390). -/
def levelStride (w b l : Nat) : Nat := cdiv (levelSize w l * b) 64 * 64
/-- Bytes from level a to level b − 1 of a pyramid. -/
def levelBytes (w h b : Nat) (ls : List Nat) : Nat :=
  ls.foldl (fun n l => n + levelStride w b l * levelSize h l) 0
/-- Where level l of a pyramid lies: address and stride. `l0` is the address of level 0 as the run header gives it; when it
lies in the output buffer the levels follow it, else they begin with level 1. -/
def levelAt (i : RunInput) (l0 l : Nat) : Nat × Nat :=
  if l = 0 then (l0, i.stride)
  else
    let first := if l0 = i.addr then levelStride i.w i.bpp 0 * i.h else 0
    (i.addr + first + levelBytes i.w i.h i.bpp ((List.range l).drop 1), levelStride i.w i.bpp l)

/-- Field of n bytes at request offset o of a run's parameters. -/
def Run.param (r : Run) (o n : Nat) : Nat := bytesAt r.params (o - 0x10) n
/-- The address of level 0 of a pyramid input, from its run header. -/
def State.level0 (s : State) (u : EngUser) (i : RunInput) : Nat × Access × State :=
  let (d, acc, s1) := s.readMem (engMaster u.e) .ordinary u.ctx (i.hdr + 0x24) 4
  (leNat d, acc, s1)
/-- Reads level l of a pyramid input. -/
def State.readLevel (s : State) (u : EngUser) (i : RunInput) (l0 l : Nat) : Plane × Access × State :=
  let (a, stride) := levelAt i l0 l
  s.readPlane u a stride (levelSize i.w l) (levelSize i.h l) i.bpp
/-- Reads levels 0 to n − 1. -/
def State.readLevels (s : State) (u : EngUser) (i : RunInput) (l0 : Nat) : Nat → List Plane × Access × State
  | 0 => ([], .ok, s)
  | n + 1 =>
    let (t, acc, s1) := State.readLevels s u i l0 n
    if acc != .ok then (t, acc, s1)
    else
      let (p, acc, s2) := s1.readLevel u i l0 n
      (t ++ [p], acc, s2)

/-! ## Ends of a run (R379, R380, R407, R410) -/

/-- The run header. -/
def State.runHeader (s : State) (e : Nat) (r : Run) (status flags stall : Nat) (spec : List Byte) : List Byte :=
  let nout := r.param 0x15 1
  entry64 (leBytes 2 r.runseq ++ leBytes 1 status ++ leBytes 1 (8 * e + r.prof) ++
    leBytes 2 (flags + 2 * b2n (stall != 0)) ++ leBytes 2 (min r.skipped 65535) ++ leBytes 8 r.tbStart ++
    leBytes 8 s.tbNow ++ leBytes 2 r.in0.seq ++ leBytes 2 r.in1.seq ++
    leBytes 4 (r.param 0x30 4 + r.param 0x34 4 * (r.runseq % nout)) ++ leBytes 4 (min stall 0xFFFFFFFF) ++ spec)
/-- Output buffer and header of a run. -/
def Run.out (r : Run) : Nat := r.param 0x30 4 + r.param 0x34 4 * (r.runseq % r.param 0x15 1)
def Run.hdrAddr (r : Run) : Nat := r.param 0x38 4 + 64 * (r.runseq % r.param 0x15 1)
/-- Owner of the run's profile. -/
def Run.owner (r : Run) : Nat := r.param 0x14 1
/-- Frames that SLOT inputs resolved to. -/
def Run.frames (r : Run) : List (Nat × Nat) :=
  ([r.in0, r.in1].filter (fun i => i.kind == 2)).map (fun i => (i.index, i.seq))
/-- ENG_FAULT_INFO. -/
def Run.info (r : Run) (status : Nat) : Word := at_ status 24 8 ||| at_ r.prof 16 3 ||| at_ r.runseq 0 16
/-- STATUS of an access that failed. -/
def accStatus (a : Access) : Nat := if a == .poison then stEcc else stWindow

/-- The run ends with a status: header, END event, token; `status` is OK, ABORTED or DESCRIPTOR_INVALID. A header that
cannot be written, or a status that an access gave, faults the profile and tears its owner down. -/
def State.runOver (s : State) (e : Nat) (r : Run) (status flags stall : Nat) (spec : List Byte) : State :=
  let b := engBlk e
  let p := r.prof
  let u : EngUser := { e := e, ctx := ownerCtx r.owner }
  let (acc, s1) := s.writeLines u [(r.hdrAddr, s.runHeader e r status flags stall spec)]
  let st := if acc == .ok then status else accStatus acc
  let fault := st = stWindow || st = stEcc
  let g := s1.engine e
  let s2 := (s1.setEngine e { g with run := none }).bump b 2
  let x := s2.prof e p
  let s3 := s2.setProf e p { x with
    lastStatus := st, st := if fault then 3 else x.st
    prevOk := if st = stOk then x.lastOk else x.prevOk, lastOk := if st = stOk then some r.runseq else x.lastOk }
  let s4 := if fault then (s3.dropStart e p).bumpInfo b 5 0x130 (r.info st)
    else if st = stOk then s3.raise 2 (8 * e + p) else s3.bumpInfo b 4 0x130 (r.info st)
  let s5 := s4.tokenDone r.token (if st = stOk then 0 else 1) st r.runseq r.out r.frames
  -- a disable or a teardown that waits for the run
  let y := s5.prof e p
  let s6 := match y.stopMb with
    | some m => ((s5.dropStart e p).setProf e p { (s5.dropStart e p).prof e p with st := 1, stopMb := none }).replyDone m
    | none => s5
  let s7 := if y.clearDue then s6.profClear e p else s6
  if fault then s7.teardown r.owner st else s7

/-- The engine works: Gust and Gale, neither halted nor gated, nothing holds the part. -/
def State.engLive (s : State) (e : Nat) : Bool :=
  2 ≤ s.aon.pwr && !s.isHalted (engBlk e) && !s.gated (engBlk e) && !s.frozen

end Sys2Proof.Machine
end

