-- ==== Sys2Proof/Machine/Vision.lean ====
section
/-! DEFINITION. Sys2Proof/Machine/Vision.lean: what RECT, PYR, FLOW and FEAT compute, to the bit (R385 to R400). -/
namespace Sys2Proof.Machine
open Sys2Proof

/-- Bytes of a row of b-byte values. -/
def rowBytes (b : Nat) (l : List Nat) : List Byte := l.flatMap (fun v => leBytes b v)
/-- Output lines of a plane. -/
def planeLines (a stride b : Nat) (p : Plane) : List (Nat × List Byte) :=
  p.zipIdx.map (fun e => (a + e.2 * stride, rowBytes b e.1))

/-! ## RECT (R385 to R387) -/

/-- One coordinate of the mesh at output pixel (u, v): bilinear between four nodes, in 1/256 pixel. -/
def meshAt (node : Nat → Nat → Int) (u v : Nat) : Int :=
  let i := u / 32
  let j := v / 32
  let a : Int := (u % 32 : Nat)
  let b : Int := (v % 32 : Nat)
  fdiv ((32 - a) * (32 - b) * node i j + a * (32 - b) * node (i + 1) j + (32 - a) * b * node i (j + 1) +
    a * b * node (i + 1) (j + 1) + 512) 1024

/-- RECT of a source plane: value at each output pixel, and whether it uses a neighbour outside the image. -/
def rectPixel (src : Plane) (w h : Nat) (replicate : Bool) (border : Nat) (sx sy : Int) : Nat × Bool :=
  let xi := fdiv sx 256
  let yi := fdiv sy 256
  let fx := sx - 256 * xi
  let fy := sy - 256 * yi
  let inside := fun (x y : Int) => decide (0 ≤ x ∧ x < w ∧ 0 ≤ y ∧ y < h)
  let p := fun (x y : Int) => if replicate || inside x y then src.at w h x y else (border : Int)
  let v := fdiv ((256 - fx) * (256 - fy) * p xi yi + fx * (256 - fy) * p (xi + 1) yi +
    (256 - fx) * fy * p xi (yi + 1) + fx * fy * p (xi + 1) (yi + 1) + 32768) 65536
  (v.toNat, !(inside xi yi && inside (xi + 1) (yi + 1)))

/-- A RECT run. -/
def State.runRect (s : State) (u : EngUser) (r : Run) : RunResult × State :=
  let f := r.param
  let w := f 0x40 2
  let h := f 0x42 2
  let ow := f 0x48 2
  let oh := f 0x4A 2
  let ib := f 0x46 1 + 1
  let ob := f 0x47 1 + 1
  let nx := cdiv ow 32 + 1
  let ny := cdiv oh 32 + 1
  let (src, acc, s1) := s.readPlane u r.in0.addr (f 0x44 2 * 64) w h ib
  let (mesh, acc2, s2) := if acc == .ok then s1.readLines u (f 0x54 4) (8 * nx) (8 * nx) ny else ([], acc, s1)
  if acc2 != .ok then ({ acc := acc2 }, s2)
  else
    let node := fun (o : Nat) (i j : Nat) => sgn 32 (bytesAt ((mesh[j]?).getD []) (8 * i + o) 4)
    let out := grid ow oh (fun x y =>
      let (v, oob) := rectPixel src w h (f 0x4F 1 == 1) (f 0x50 2) (meshAt (node 0) x y) (meshAt (node 4) x y)
      (if ib = 2 && ob = 1 then min 255 (v / 2 ^ f 0x4E 1) else v, oob))
    let count := (out.map (fun row => (row.filter (fun e => e.2)).length)).foldl (· + ·) 0
    ({ lines := planeLines r.out (f 0x4C 2 * 64) ob (out.map (fun row => row.map (fun e => e.1)))
       flags := b2n (count != 0), spec := leBytes 4 count }, s2)

/-! ## PYR (R388 to R390) -/

/-- The filter of R389 at (x, y). -/
def gauss (p : Plane) (w h : Nat) (x y : Int) : Nat :=
  let k : List Int := [1, 4, 6, 4, 1]
  let t := sumInt (k.zipIdx.flatMap (fun i => k.zipIdx.map (fun j =>
    i.1 * j.1 * p.at w h (x + i.2 - 2) (y + j.2 - 2))))
  (fdiv (t + 128) 256).toNat
/-- Levels l + 1 to n − 1 from level l. -/
def pyramid (w h : Nat) (p : Plane) (l : Nat) : Nat → List Plane
  | 0 => []
  | n + 1 =>
    let q := grid (levelSize w (l + 1)) (levelSize h (l + 1)) (fun x y =>
      gauss p (levelSize w l) (levelSize h l) (2 * (x : Int)) (2 * (y : Int)))
    q :: pyramid w h q (l + 1) n

/-- A PYR run. -/
def State.runPyr (s : State) (u : EngUser) (r : Run) : RunResult × State :=
  let f := r.param
  let w := f 0x40 2
  let h := f 0x42 2
  let b := f 0x46 1 + 1
  let copy := f 0x48 1 == 1
  let (src, acc, s1) := s.readPlane u r.in0.addr (f 0x44 2 * 64) w h b
  if acc != .ok then ({ acc := acc }, s1)
  else
    let levels := src :: pyramid w h src 0 (f 0x47 1 - 1)
    let first := if copy then 0 else 1
    let lines := (levels.zipIdx.filter (fun e => first ≤ e.2)).flatMap (fun e =>
      planeLines (r.out + levelBytes w h b (((List.range e.2).filter (fun l => first ≤ l)))) (levelStride w b e.2) b e.1)
    ({ lines := lines, spec := leBytes 4 (if copy then r.out else r.in0.addr) }, s1)

/-! ## FLOW (R391 to R395) -/

/-- Sum of absolute differences of the block centred at (px, py) of `a` against `b` displaced by (dx, dy). -/
def sad (a b : Plane) (w h block : Nat) (px py dx dy : Int) : Nat :=
  let o : Int := (block / 2 : Nat)
  (List.range block).foldl (fun t (j : Nat) => (List.range block).foldl (fun t (i : Nat) =>
    let x := px - o + i
    let y := py - o + j
    t + (a.at w h x y - b.at w h (x + dx) (y + dy)).natAbs) t) 0

/-- Whether offset d is better than e: lower cost, then smaller |dx| + |dy|, smaller dy, smaller dx. -/
def betterOffset (d e : Nat × Int × Int) : Bool :=
  let key := fun (v : Nat × Int × Int) => (v.1, v.2.1.natAbs + v.2.2.natAbs)
  if (key d).1 != (key e).1 then (key d).1 < (key e).1
  else if (key d).2 != (key e).2 then (key d).2 < (key e).2
  else if d.2.2 != e.2.2 then d.2.2 < e.2.2
  else d.2.1 < e.2.1
/-- Offsets within ±n of (cx, cy). -/
def offsets (n : Nat) (cx cy : Int) : List (Int × Int) :=
  (List.range (2 * n + 1)).flatMap (fun (j : Nat) => (List.range (2 * n + 1)).map (fun (i : Nat) => (cx + i - n, cy + j - n)))

/-- Candidates of level l and the best of them; `up` is the result of level l + 1, none at the top. -/
def flowLevel (prev cur : List Plane) (w h block search refine px py l : Nat) (up : Option (Int × Int)) :
    List (Nat × Int × Int) :=
  let a : Plane := (prev[l]?).getD []
  let b : Plane := (cur[l]?).getD []
  let cand := match up with
    | none => offsets search 0 0
    | some (dx, dy) => offsets refine (2 * dx) (2 * dy)
  cand.map (fun d => (sad a b (levelSize w l) (levelSize h l) block ((px / 2 ^ l : Nat) : Int) ((py / 2 ^ l : Nat) : Int) d.1 d.2,
    d.1, d.2))
def bestOffset : List (Nat × Int × Int) → Nat × Int × Int
  | [] => (0, 0, 0)
  | [d] => d
  | d :: t => let e := bestOffset t; if betterOffset e d then e else d
/-- The candidates of level 0 reached from level n down. -/
def flowDown (prev cur : List Plane) (w h block search refine px py : Nat) : Nat → Option (Int × Int) → List (Nat × Int × Int)
  | 0, up => flowLevel prev cur w h block search refine px py 0 up
  | n + 1, up =>
    let c := flowLevel prev cur w h block search refine px py (n + 1) up
    let d := bestOffset c
    flowDown prev cur w h block search refine px py n (some (d.2.1, d.2.2))

/-- n / d to the nearest integer, halves toward zero. -/
def towardZero (n d : Int) : Int :=
  let v : Int := ((2 * n.natAbs + d.natAbs - 1) / (2 * d.natAbs) : Nat)
  if (n < 0) == (d < 0) then v else -v
/-- Sub-pixel offset of one axis in 1/16 pixel (R394). -/
def subPixel (cm c0 cp : Int) : Int :=
  let den := 2 * (cm - 2 * c0 + cp)
  if den = 0 then 0 else max (-8) (min 8 (towardZero (16 * (cm - cp)) den))

/-- An element of the field before the backward check. -/
structure FlowElem where
  dx : Int
  dy : Int
  cost : Nat
  valid : Bool
  low : Bool
  /-- none where no candidate lies more than 1 away -/
  conf : Option Nat
/-- Element of the block centred at (px, py). -/
def flowElem (prev cur : List Plane) (w h block search refine levels texThr px py : Nat) : FlowElem :=
  let cand := flowDown prev cur w h block search refine px py (levels - 1) none
  let d := bestOffset cand
  let a : Plane := (prev[0]?).getD []
  let b : Plane := (cur[0]?).getD []
  let c := fun (dx dy : Int) => ((sad a b w h block px py dx dy : Nat) : Int)
  let x := 16 * d.2.1 + subPixel (c (d.2.1 - 1) d.2.2) d.1 (c (d.2.1 + 1) d.2.2)
  let y := 16 * d.2.2 + subPixel (c d.2.1 (d.2.2 - 1)) d.1 (c d.2.1 (d.2.2 + 1))
  let ok := x.natAbs ≤ 32767 && y.natAbs ≤ 32767
  let o : Int := (block / 2 : Nat)
  let tex := (List.range block).foldl (fun t (j : Nat) => (List.range block).foldl (fun t (i : Nat) =>
    let qx : Int := (px : Int) - o + i
    let qy : Int := (py : Int) - o + j
    let v := a.at w h (max 0 (min ((w : Int) - 1) qx)) (max 0 (min ((h : Int) - 1) qy))
    t + (a.at w h (qx + 1) qy - v).natAbs + (a.at w h qx (qy + 1) - v).natAbs) t) 0
  let far := cand.filter (fun e => 1 < (e.2.1 - d.2.1).natAbs || 1 < (e.2.2 - d.2.2).natAbs)
  let conf := match far with
    | [] => none
    | _ =>
      let c2 := (bestOffset far).1
      some (if c2 = 0 then 0 else 255 * (c2 - d.1) / c2)
  { dx := x, dy := y, cost := d.1, valid := ok, low := tex < texThr, conf := conf }

/-- FB_FAIL and BORDER of an element against the backward field (R395). -/
def flowBack (back : List (List FlowElem)) (cols rows grd thr : Nat) (px py : Nat) (e : FlowElem) : Bool × Bool :=
  let gx := fdiv (16 * px + e.dx) (16 * grd)
  let gy := fdiv (16 * py + e.dy) (16 * grd)
  if 0 ≤ gx ∧ gx < cols ∧ 0 ≤ gy ∧ gy < rows then
    match ((back[gy.toNat]?).getD [])[gx.toNat]? with
    | some b =>
      let bx := if b.valid then b.dx else -32768
      let by_ := if b.valid then b.dy else -32768
      (decide (thr < (e.dx + bx).natAbs + (e.dy + by_).natAbs), false)
    | none => (true, true)
  else (true, true)

/-- A FLOW run. A confidence that no candidate gives is a free value. -/
def State.runFlow (s : State) (u : EngUser) (r : Run) : RunResult × State :=
  let f := r.param
  let lv := f 0x40 1
  let grd := f 0x41 1
  let block := f 0x42 1
  let w := r.in0.w
  let h := r.in0.h
  let cols := cdiv w grd
  let rows := cdiv h grd
  let (a0, acc, s1) := s.level0 u r.in0
  let (b0, acc, s2) := if acc == .ok then s1.level0 u r.in1 else (0, acc, s1)
  let (cur, acc, s3) := if acc == .ok then s2.readLevels u r.in0 a0 lv else ([], acc, s2)
  let (prev, acc, s4) := if acc == .ok then s3.readLevels u r.in1 b0 lv else ([], acc, s3)
  if acc != .ok then ({ acc := acc }, s4)
  else
    let field := fun (a b : List Plane) => grid cols rows (fun x y =>
      flowElem a b w h block (f 0x43 1) (f 0x44 1) lv (f 0x48 4) (x * grd + grd / 2) (y * grd + grd / 2))
    let fwd := field prev cur
    let back := if f 0x45 1 = 1 then field cur prev else []
    let fin := fwd.zipIdx.map (fun row => row.1.zipIdx.map (fun e =>
      let (fail, border) := if f 0x45 1 = 1 && e.1.valid then
          flowBack back cols rows grd (f 0x46 2) (e.2 * grd + grd / 2) (row.2 * grd + grd / 2) e.1 else (false, false)
      let free := (Config.freeWord (s4.free + row.2 * cols + e.2)).toNat % 256
      let conf := if e.1.valid then (match e.1.conf with | some c => c | none => free) else 0
      let dx := if e.1.valid then (e.1.dx % 65536).toNat else 0x8000
      let dy := if e.1.valid then (e.1.dy % 65536).toNat else 0x8000
      let cost := if e.1.valid then min e.1.cost 0xFFFF else 0xFFFF
      (leBytes 2 dx ++ leBytes 2 dy ++ leBytes 2 cost ++
        leBytes 1 (b2n (!e.1.valid) + 2 * b2n fail + 4 * b2n border + 8 * b2n e.1.low) ++ leBytes 1 conf,
        e.1.valid, fail, e.1.low)))
    let count := fun (p : Bool × Bool × Bool → Bool) =>
      (fin.map (fun row => (row.filter (fun e => p e.2)).length)).foldl (· + ·) 0
    let stride := cdiv (cols * 8) 64 * 64
    ({ lines := fin.zipIdx.map (fun row => (r.out + row.2 * stride, row.1.flatMap (fun e => e.1)))
       spec := leBytes 4 (count (fun e => e.1)) ++ leBytes 4 (count (fun e => e.2.1)) ++ leBytes 4 (count (fun e => e.2.2)) },
      { s4 with free := s4.free + rows * cols })

/-! ## FEAT (R396 to R400) -/

/-- A feature: level, position, response. -/
structure Feature where
  level : Nat
  x : Nat
  y : Nat
  resp : Int
deriving DecidableEq, Repr

/-- The response H at (x, y). -/
def harris (p : Plane) (w h k : Nat) (x y : Int) : Int :=
  let sums := (List.range 5).foldl (fun (t : Int × Int × Int) (j : Nat) => (List.range 5).foldl (fun (t : Int × Int × Int) (i : Nat) =>
    let qx := x + i - 2
    let qy := y + j - 2
    let ix := p.at w h (qx + 1) qy - p.at w h (qx - 1) qy
    let iy := p.at w h qx (qy + 1) - p.at w h qx (qy - 1)
    (t.1 + ix * ix, t.2.1 + iy * iy, t.2.2 + ix * iy)) t) (0, 0, 0)
  256 * (sums.1 * sums.2.1 - sums.2.2 * sums.2.2) - (k : Int) * (sums.1 + sums.2.1) * (sums.1 + sums.2.1)

/-- Candidates of a level in raster order. -/
def featCandidates (p : Plane) (w h k thresh l : Nat) : List Feature :=
  (List.range h).flatMap (fun y => (List.range w).filterMap (fun x =>
    if 17 ≤ x ∧ x + 18 ≤ w ∧ 17 ≤ y ∧ y + 18 ≤ h then
      let v := harris p w h k x y
      if (thresh : Int) * 65536 < v then some { level := l, x := x, y := y, resp := v } else none
    else none))
/-- A candidate survives suppression. -/
def featSurvives (p : Plane) (w h k : Nat) (c : Feature) : Bool :=
  [(-1, -1), (0, -1), (1, -1), (-1, 0), (1, 0), (-1, 1), (0, 1), (1, 1)].all (fun (d : Int × Int) =>
    let v := harris p w h k ((c.x : Int) + d.1) ((c.y : Int) + d.2)
    if d.2 < 0 || (d.2 == 0 && d.1 < 0) then decide (v < c.resp) else decide (v ≤ c.resp))

/-- Inserts by falling response; equal ones keep their order. -/
def featInsert (c : Feature) : List Feature → List Feature
  | [] => [c]
  | d :: t => if d.resp < c.resp then c :: d :: t else d :: featInsert c t
/-- The n highest of a list in raster order, ties to the earlier; in the list's own order. -/
def featTop (n : Nat) (l : List Feature) : List Feature :=
  let best := (l.foldl (fun acc c => featInsert c acc) []).take n
  l.filter (fun c => best.contains c)

/-- The pairs of the built-in pattern. -/
def patStep (v : Nat) : Nat :=
  let a := v ^^^ (v * 2 ^ 13 % 2 ^ 32)
  let b := a ^^^ (a / 2 ^ 17)
  b ^^^ (b * 2 ^ 5 % 2 ^ 32)
def patValues : Nat → Nat → List Int
  | 0, _ => []
  | n + 1, v => let w := patStep v; (((w % 31 : Nat) : Int) - 15) :: patValues n w
def builtinPattern : List Int := patValues 1024 0x9E3779B9

/-- The 32 descriptor bytes of a feature. -/
def descriptor (p : Plane) (w h : Nat) (pat : List Int) (c : Feature) : List Byte :=
  let v := fun (i : Nat) => ((pat[i]?).getD 0 : Int)
  let bitOf := fun (i : Nat) => decide (gauss p w h ((c.x : Int) + v (4 * i)) ((c.y : Int) + v (4 * i + 1)) <
    gauss p w h ((c.x : Int) + v (4 * i + 2)) ((c.y : Int) + v (4 * i + 3)))
  (List.range 32).map (fun j => BitVec.ofNat 8 (mkBits 8 (fun b => bitOf (8 * j + b))))

/-- The kept features of all levels, the candidates' count, and whether a cap removed one. -/
def featKeep (levels : List (Nat × Plane × Nat × Nat)) (k thresh bucket per most : Nat) : List Feature × Nat × Bool :=
  let cands := levels.map (fun l => (l, featCandidates l.2.1 l.2.2.1 l.2.2.2 k thresh l.1))
  let n := (cands.map (fun c => c.2.length)).foldl (· + ·) 0
  let surv := cands.flatMap (fun c => c.2.filter (featSurvives c.1.2.1 c.1.2.2.1 c.1.2.2.2 k))
  let kept := surv.filter (fun c =>
    let mates := surv.filter (fun d => d.level == c.level && d.x / bucket == c.x / bucket && d.y / bucket == c.y / bucket)
    (featTop per mates).contains c)
  let top := featTop most kept
  (top, n, top.length != surv.length)

/-- A FEAT run. -/
def State.runFeat (s : State) (u : EngUser) (r : Run) : RunResult × State :=
  let f := r.param
  let ring := r.in0.kind == 3
  let (l0, acc, s1) := if ring then s.level0 u r.in0 else (0, .ok, s)
  let sel := if ring then (List.range r.in0.levels).filter (fun l => bit (f 0x46 1) l) else [0]
  let w := if ring then r.in0.w else f 0x40 2
  let h := if ring then r.in0.h else f 0x42 2
  let (planes, acc, s2) := sel.foldl (fun (t : List (Nat × Plane × Nat × Nat) × Access × State) l =>
    if t.2.1 != .ok then t
    else
      let (p, acc, s) := if ring then t.2.2.readLevel u r.in0 l0 l else t.2.2.readPlane u r.in0.addr (f 0x44 2 * 64) w h 1
      (t.1 ++ [(l, p, levelSize w l, levelSize h l)], acc, s)) (([] : List (Nat × Plane × Nat × Nat)), acc, s1)
  let desc := f 0x50 1
  let (pat, acc, s3) := if acc == .ok && desc == 2 then
      (let (d, acc, s) := s2.readMem (engMaster u.e) .ordinary u.ctx (f 0x54 4) 1024
       (d.map (fun b => max (-15) (min 15 (sgn 8 b.toNat))), acc, s))
    else (builtinPattern, acc, s2)
  if acc != .ok then ({ acc := acc }, s3)
  else
    let (fs, n, capped) := featKeep planes (f 0x47 1) (f 0x48 4) (f 0x4C 1) (f 0x4D 1) (f 0x4E 2)
    let rec1 := fun (c : Feature) =>
      let d := match planes.find? (fun l => l.1 == c.level) with
        | some (_, p, w, h) => if desc = 0 then List.replicate 32 0 else descriptor p w h pat c
        | none => List.replicate 32 0
      leBytes 2 c.x ++ leBytes 2 c.y ++ leBytes 4 (min (c.resp / 65536).toNat 0xFFFFFFFF) ++ leBytes 1 c.level ++
        leBytes 7 0 ++ d
    ({ lines := fs.zipIdx.map (fun c => (r.out + 48 * c.2, rec1 c.1)), flags := 4 * b2n capped
       spec := leBytes 4 n ++ leBytes 2 fs.length ++
         (List.range 6).flatMap (fun l => leBytes 2 ((fs.filter (fun c => c.level == l)).length)) }, s3)

end Sys2Proof.Machine
end

