-- ==== Sys2Proof/Machine/Edge.lean ====
section
/-! DEFINITION. Sys2Proof/Machine/Edge.lean: what EDGE computes, to the bit, and the publication of its verdicts
(R956 to R963). -/
namespace Sys2Proof.Machine
open Sys2Proof

/-- A valid pixel under R960: whether it takes part, whether it is a drop point, and its distance a. -/
def edgePoint (f : Nat → Nat → Nat) (u v : Nat) (z : Fl) : Bool × Bool × Fl :=
  let c := fun (o : Nat) => decode32 (f o 4)
  let x := fmul (fmul (fsub (fint u) (c 0x58)) (c 0x60)) z
  let y := fmul (fmul (fsub (fint v) (c 0x5C)) (c 0x60)) z
  let g := fadd (fadd (fmul (c 0x64) x) (fmul (c 0x68) y)) (fmul (c 0x6C) z)
  let b := fsub g (c 0x70)
  let q := fadd (fadd (fmul (c 0x74) x) (fmul (c 0x78) y)) (fmul (c 0x7C) z)
  let drop := flt (fint (f 0x4E 2)) b
  let a := fsub (if drop then fdivide (fmul (c 0x70) q) g else q) (c 0x80)
  (fle Fl.zero a && fle a (fint (f 0x4C 2)), drop, a)

/-- What a pixel contributes to its sector. -/
structure EdgePixel where
  sector : Nat
  valid : Bool
  part : Bool := false
  drop : Bool := false
  /-- floor(a) in mm of a point that takes part -/
  dist : Nat := 0
/-- The pixel at (u, v), its word, of a cell assigned to a sector (R959). -/
def edgePixel (f : Nat → Nat → Nat) (sector u v word : Nat) : EdgePixel :=
  let depth := f 0x40 1 == 1
  let d := word % 8192
  let valid := if depth then word != 0 && word != 0xFFFF else !(bit word 15) && d != 0
  if !valid then { sector := sector, valid := false }
  else
    let z := if depth then fint word else fdivide (decode32 (f 0x54 4)) (fint d)
    let (part, drop, a) := edgePoint f u v z
    { sector := sector, valid := true, part := part, drop := drop, dist := if part then a.rat.floor.toNat else 0 }

/-- Sorted rise. -/
def insertRise (v : Nat) : List Nat → List Nat
  | [] => [v]
  | x :: t => if v ≤ x then v :: x :: t else x :: insertRise v t
def sortRise : List Nat → List Nat
  | [] => []
  | v :: t => insertRise v (sortRise t)

/-- KIND and DIST of sector `c` (R961): N_s, I_s and the drop points' distances. -/
def edgeVerdict (f : Nat → Nat → Nat) (n i : Nat) (drops : List Nat) : Nat × Nat :=
  if f 0x4B 1 ≤ drops.length then (2, ((sortRise drops)[f 0x4B 1 - 1]?).getD 0)
  else if n = 0 || f 0x4A 1 * n < i * 256 then (3, 0xFFFF)
  else (1, f 0x4C 2)

/-- An EDGE run. -/
def State.runEdge (s : State) (u : EngUser) (r : Run) : RunResult × State :=
  let f := r.param
  let w := f 0x44 2
  let h := f 0x46 2
  let stride := if f 0x40 1 = 1 then f 0x48 2 * 64 else r.in0.stride
  let base := f 0x41 1
  let n := f 0x42 1
  let (map, acc, s1) := s.readLines u (f 0x50 4) (cdiv (cdiv w 16) 64 * 64) (cdiv w 16) (cdiv h 16)
  let (src, acc, s2) := if acc == .ok then s1.readPlane u r.in0.addr stride w h 2 else ([], acc, s1)
  if acc != .ok then ({ acc := acc }, s2)
  else
    let px := ((List.range h).flatMap (fun y => (List.range w).filterMap (fun x =>
      let c := bytesAt ((map[y / 16]?).getD []) (x / 16) 1
      if base ≤ c ∧ c < base + n then some (edgePixel f c x y (Plane.px src x y)) else none)))
    let recs := (List.range 16).map (fun c =>
      if c < base || base + n ≤ c then (0, 0, 0, 0, 0)
      else
        let mine := px.filter (fun e => e.sector == c)
        let bad := (mine.filter (fun e => !e.valid)).length
        let drops := (mine.filter (fun e => e.part && e.drop)).map (fun e => e.dist)
        let (kind, dist) := edgeVerdict f mine.length bad drops
        (kind, dist, (if mine = [] then 0xFFFF else 256 * bad / mine.length), min drops.length 65535, 1))
    let mask := fun (k : Nat) => mkBits 16 (fun c => ((recs[c]?).getD (0, 0, 0, 0, 0)).1 == k)
    ({ lines := [(r.out, recs.flatMap (fun (e : Nat × Nat × Nat × Nat × Nat) =>
         leBytes 1 e.1 ++ [0] ++ leBytes 2 e.2.1 ++ leBytes 2 e.2.2.1 ++ leBytes 2 e.2.2.2.1))]
       spec := leBytes 4 px.length ++ leBytes 4 (px.filter (fun e => e.part)).length ++
         leBytes 4 (px.filter (fun e => e.part && e.drop)).length ++ leBytes 2 (mask 2) ++ leBytes 2 (mask 3)
       verdicts := (recs.zipIdx.filter (fun e => e.1.2.2.2.2 == 1)).map (fun e => (e.2, e.1.1, e.1.2.1)) }, s2)

/-- The verdicts of a run are published to Quench (R963). -/
def State.publish (s : State) (l : List (Nat × Nat × Nat)) : State :=
  let before := s.causes
  let s1 := l.foldl (fun s v => s.setSector v.1 { kind := v.2.1, dist := v.2.2, stale := false, pubAt := s.clk.now }) s
  let w := s1.reg Blk.edge 0x200
  (s1.setReg Blk.edge 0x200 (at_ (fld w 0 16 + 1) 0 16 ||| at_ (l.foldl (fun m v => m ||| 2 ^ v.1) 0) 16 16)).evalTrip before 0

end Sys2Proof.Machine
end

