-- ==== Sys2Proof/Machine/Sgm.lean ====
section
/-! DEFINITION. Sys2Proof/Machine/Sgm.lean: what SGM computes, to the bit (R415 to R434). -/
namespace Sys2Proof.Machine
open Sys2Proof

/-! ## Cost (R418 to R421) -/

/-- Census code of the pixel at (x, y) (R420). -/
def census (p : Plane) (w h x y : Nat) : Nat :=
  let c := p.at w h x y
  mkBits 62 (fun k =>
    let r := if k < 31 then k else k + 1
    decide (p.at w h ((x : Int) + (r % 9 : Nat) - 4) ((y : Int) + (r / 9 : Nat) - 3) < c))
def popcount (n v : Nat) : Nat := (List.range n).foldl (fun t i => t + b2n (bit v i)) 0

/-- A pixel of a level: its left value, the lowest candidate and the cost of each. -/
structure SgmCell where
  value : Int
  lo : Nat
  cost : List Nat
/-- The window of a pixel with prior π: the lowest candidate and how many (R418). -/
def sgmWindow (prior : Nat) : Nat × Nat :=
  let lo := prior - 4
  (lo, min 255 (prior + 4) + 1 - lo)
/-- Cells of a level; `up` is the winner of each pixel of the next coarser level, none at the coarsest. -/
def sgmCells (left right : Plane) (w h adW adCap : Nat) (up : Option (List (List Nat))) : List (List SgmCell) :=
  let cl := grid w h (census left w h)
  let cr := grid w h (census right w h)
  grid w h (fun x y =>
    let (lo, n) := match up with
      | none => (0, 64)
      | some u => sgmWindow (2 * Plane.px u (x / 2) (y / 2))
    let code := Plane.px cl x y
    let v := Plane.px left x y
    { value := v, lo := lo
      cost := (List.range n).map (fun i =>
        let xr := x - (lo + i)
        popcount 62 (code ^^^ Plane.px cr xr y) +
          adW * min ((v : Int) - (Plane.px right xr y : Nat)).natAbs adCap / 16) })

/-! ## Aggregation (R422, R423) -/

/-- Value of a window's list at disparity d; none outside it. -/
def winAt (lo : Nat) (l : List Nat) (d : Nat) : Option Nat := if d < lo then none else l[d - lo]?
def minOf (l : List Nat) : Nat := l.foldl min (l.headD 0)
/-- One path at a cell, from its predecessor and that path's values there. A predecessor with an empty window counts as
one outside the image. -/
def sgmPath (p1 p2 gain : Nat) (c : SgmCell) (pred : Option (SgmCell × List Nat)) : List Nat :=
  match pred with
  | none => c.cost
  | some (q, l) =>
    if l = [] then c.cost
    else
      let m := minOf l
      let p2r := max p1 (16 * p2 / (16 + gain * (c.value - q.value).natAbs))
      c.cost.zipIdx.map (fun e =>
        let d := c.lo + e.2
        let terms := [winAt q.lo l d, (if d = 0 then none else winAt q.lo l (d - 1)).map (· + p1), (winAt q.lo l (d + 1)).map (· + p1)]
        e.1 + terms.foldl (fun t v => match v with | some v => min t v | none => t) (m + p2r) - m)

/-- A cell and its four path values. -/
abbrev SgmAgg := SgmCell × List (List Nat)
/-- Path value number r of a neighbour. -/
def aggPred (row : List SgmAgg) (x : Int) (r : Nat) : Option (SgmCell × List Nat) :=
  if x < 0 then none else (row[x.toNat]?).map (fun a => (a.1, (a.2[r]?).getD []))
/-- One row from left to right, under the row above it. -/
def sgmRow (p1 p2 gain : Nat) (above : List SgmAgg) : Nat → Option SgmAgg → List SgmCell → List SgmAgg
  | _, _, [] => []
  | x, left, c :: t =>
    let step := sgmPath p1 p2 gain c
    let a : SgmAgg := (c, [step (left.map (fun q => (q.1, (q.2[0]?).getD []))), step (aggPred above ((x : Int) - 1) 1),
      step (aggPred above x 2), step (aggPred above ((x : Int) + 1) 3)])
    a :: sgmRow p1 p2 gain above (x + 1) (some a) t
def sgmRows (p1 p2 gain : Nat) : List SgmAgg → List (List SgmCell) → List (List SgmAgg)
  | _, [] => []
  | above, r :: t =>
    let a := sgmRow p1 p2 gain above 0 none r
    a :: sgmRows p1 p2 gain a t
/-- Sums of the four causal paths at every candidate. -/
def sgmForward (p1 p2 gain : Nat) (cells : List (List SgmCell)) : List (List (List Nat)) :=
  (sgmRows p1 p2 gain [] cells).map (fun row => row.map (fun a =>
    (List.range a.1.cost.length).map (fun i => a.2.foldl (fun t l => t + (l[i]?).getD 0) 0)))
/-- Rows and columns reversed. -/
def turned {α : Type} (l : List (List α)) : List (List α) := (l.map List.reverse).reverse
/-- S(p, d): with 8 paths the stored forward sums are held to 16 bits, and the reverse pass is the forward pass of the
turned image. -/
def sgmSums (paths p1 p2 gain : Nat) (cells : List (List SgmCell)) : List (List (List Nat)) :=
  let fwd := sgmForward p1 p2 gain cells
  if paths = 8 then
    let rev := turned (sgmForward p1 p2 gain (turned cells))
    (fwd.zip rev).map (fun rows => (rows.1.zip rows.2).map (fun c =>
      (c.1.zip c.2).map (fun v => min v.1 65535 + v.2)))
  else fwd
/-- Position of the lowest value, the first one on a tie. -/
def argMin : List Nat → Nat
  | [] => 0
  | v :: t => if t.all (fun u => v ≤ u) then 0 else argMin t + 1
/-- Winners of a level (R424). -/
def sgmWinners (cells : List (List SgmCell)) (sums : List (List (List Nat))) : List (List Nat) :=
  (cells.zip sums).map (fun rows => (rows.1.zip rows.2).map (fun c => c.1.lo + argMin c.2))

/-- Cells and sums of level 0 reached from level n down. -/
def sgmDown (left right : List Plane) (w h paths p1 p2 gain adW adCap : Nat) :
    Nat → Option (List (List Nat)) → List (List SgmCell) × List (List (List Nat))
  | n, up =>
    let cells := sgmCells ((left[n]?).getD []) ((right[n]?).getD []) (levelSize w n) (levelSize h n) adW adCap up
    let sums := sgmSums paths p1 p2 gain cells
    match n with
    | 0 => (cells, sums)
    | k + 1 => sgmDown left right w h paths p1 p2 gain adW adCap k (some (sgmWinners cells sums))

/-! ## The pixel (R425 to R430) -/

/-- Fraction in 1/32 pixel, and the disparity word's number (R425). -/
def sgmFraction (subpix : Nat) (sm : Option Nat) (s0 : Nat) (sp : Option Nat) : Int :=
  match sm, sp with
  | some m, some p =>
    let m : Int := m
    let p : Int := p
    let c : Int := s0
    let den := if subpix = 0 then 2 * (m - 2 * c + p) else 2 * max (m - c) (p - c)
    if den = 0 then 0 else max (-16) (min 16 (towardZero (32 * (m - p)) den))
  | _, _ => 0
def sgmDisparity (w : Nat) (f : Int) : Nat := min 8191 (32 * (w : Int) + f).toNat
/-- S(u + d, d) of a row: none when d is no candidate there. -/
def diagAt (cells : List SgmCell) (sums : List (List Nat)) (u d : Nat) : Option Nat :=
  match cells[u + d]?, sums[u + d]? with
  | some c, some s => winAt c.lo s d
  | _, _ => none
/-- D_R of right pixel (u, y); none without a candidate (R426). -/
def rightDisparity (cells : List SgmCell) (sums : List (List Nat)) (subpix u : Nat) : Option Nat :=
  let best := (List.range 256).foldl (fun (b : Option (Nat × Nat)) d =>
    match diagAt cells sums u d, b with
    | some v, some (k, m) => if v < m then some (d, v) else some (k, m)
    | some v, none => some (d, v)
    | none, b => b) none
  best.map (fun (v, s0) =>
    sgmDisparity v (sgmFraction subpix (if v = 0 then none else diagAt cells sums u (v - 1)) s0 (diagAt cells sums u (v + 1))))

/-- What a level-0 pixel becomes: its word and its confidence. -/
structure SgmPixel where
  word : Nat
  conf : Nat
/-- The settings that the pixel's checks use. -/
structure SgmSet where
  subpix : Nat
  lrCheck : Bool
  lrThr : Nat
  texThr : Nat
  confMin : Nat
  invalidate : Nat
/-- The pixel at (x, y) from its row. -/
def sgmPixel (k : SgmSet) (left : Plane) (w h : Nat) (cells : List SgmCell) (sums : List (List Nat)) (x y : Nat) : SgmPixel :=
  let lo := match cells[x]? with | some c => c.lo | none => 0
  let l := (sums[x]?).getD []
  let i := argMin l
  let win := lo + i
  let s0 := (l[i]?).getD 0
  let d := sgmDisparity win (sgmFraction k.subpix (if i = 0 then none else l[i - 1]?) s0 l[i + 1]?)
  let far := l.zipIdx.filter (fun e => 1 < ((e.2 : Int) - i).natAbs)
  let s2 := minOf (far.map (fun e => e.1))
  let conf := if far = [] || s2 = 0 then 0 else 255 * (s2 - s0) / s2
  let thr := if k.lrThr = 0 then 32 else k.lrThr
  let fail := k.lrCheck &&
    (if x < win then true
     else match rightDisparity cells sums k.subpix (x - win) with
       | none => true
       | some r => decide (thr < ((d : Int) - r).natAbs))
  let tex := (List.range 5).foldl (fun t (j : Nat) => (List.range 5).foldl (fun t (i : Nat) =>
    let qx : Int := (x : Int) + i - 2
    let qy : Int := (y : Int) + j - 2
    t + (left.at w h (qx + 1) qy - left.at w h qx qy).natAbs) t) 0
  let low := decide (tex < k.texThr)
  let bad := (fail && bit k.invalidate 0) || (low && bit k.invalidate 1) || decide (conf < k.confMin) || decide (x < win)
  { word := d + 0x2000 * b2n low + 0x4000 * b2n fail + 0x8000 * b2n bad, conf := conf }

/-! ## The run -/

/-- Strides of the disparity and of the confidence plane (R431). -/
def sgmStride (w : Nat) : Nat := cdiv (2 * w) 64 * 64
def sgmConfStride (w : Nat) : Nat := cdiv w 64 * 64
/-- Bytes of the output. -/
def sgmBytes (w h : Nat) (conf : Bool) : Nat := sgmStride w * h + (if conf then sgmConfStride w * h else 0)

/-- What the scratch area holds after a run is not stated: free bytes over the part that the run used (R432). -/
def State.sgmScratchUse (s : State) (u : EngUser) (r : Run) : Access × State :=
  if r.param 0x41 1 != 8 then (.ok, s)
  else
    let n := sgmScratch (r.param 0x40 1) r.in0.w r.in0.h
    let l := (List.range n).map (fun i => BitVec.ofNat 8 (Config.freeWord (s.free + i)).toNat)
    { s with free := s.free + n }.writeMem (engMaster u.e) .ordinary u.ctx (r.param 0x54 4) l

/-- An SGM run. A pixel whose window is empty has a free word and a free confidence. -/
def State.runSgm (s : State) (u : EngUser) (r : Run) : RunResult × State :=
  let f := r.param
  let lv := f 0x40 1
  let w := r.in0.w
  let h := r.in0.h
  let (a0, acc, s1) := s.level0 u r.in0
  let (b0, acc, s2) := if acc == .ok then s1.level0 u r.in1 else (0, acc, s1)
  let (left, acc, s3) := if acc == .ok then s2.readLevels u r.in0 a0 lv else ([], acc, s2)
  let (right, acc, s4) := if acc == .ok then s3.readLevels u r.in1 b0 lv else ([], acc, s3)
  let (acc, s5) := if acc == .ok then s4.sgmScratchUse u r else (acc, s4)
  if acc != .ok then ({ acc := acc }, s5)
  else
    let (cells, sums) := sgmDown left right w h (f 0x41 1) (f 0x46 1) (f 0x48 2) (f 0x47 1) (f 0x4A 1) (f 0x4B 1) (lv - 1) none
    let k : SgmSet :=
      { subpix := f 0x42 1, lrCheck := f 0x43 1 == 1, lrThr := f 0x44 2, texThr := f 0x4C 4, confMin := f 0x50 1
        invalidate := f 0x51 1 }
    let l0 : Plane := (left[0]?).getD []
    let out := (cells.zip sums).zipIdx.map (fun row => (List.range w).map (fun x =>
      if (row.1.2[x]?).getD [] = [] then
        let v := (Config.freeWord (s5.free + row.2 * w + x)).toNat
        { word := v % 65536, conf := v / 65536 % 256 }
      else sgmPixel k l0 w h row.1.1 row.1.2 x row.2))
    let count := fun (p : SgmPixel → Bool) => (out.map (fun row => (row.filter p).length)).foldl (· + ·) 0
    let invalid := count (fun e => bit e.word 15)
    let lrFail := count (fun e => bit e.word 14)
    let conf := f 0x52 1 == 1
    let confBase := r.out + sgmStride w * h
    ({ lines := planeLines r.out (sgmStride w) 2 (out.map (fun row => row.map (fun e => e.word))) ++
         (if conf then planeLines confBase (sgmConfStride w) 1 (out.map (fun row => row.map (fun e => e.conf))) else [])
       spec := leBytes 4 (w * h - invalid) ++ leBytes 4 lrFail ++ leBytes 4 (count (fun e => bit e.word 13)) ++ leBytes 4 invalid ++
         leBytes 4 (if conf then confBase else 0) ++ leBytes 1 lv ++ leBytes 1 (f 0x41 1) ++ leBytes 2 w ++ leBytes 2 h
       totals := (w * h, invalid, lrFail) }, { s5 with free := s5.free + w * h })

end Sys2Proof.Machine
end

