-- ==== Sys2Proof/Machine/Eng.lean ====
section
/-! DEFINITION. Sys2Proof/Machine/Eng.lean: ENGINE_CFG, EDGE_FLOOR and the runs of the six engines (R375 to R440, R955 to
R967). -/
namespace Sys2Proof.Machine
open Sys2Proof

/-! ## ENGINE_CFG (R382, R383) -/

/-- A field by offset, size and lowest and highest value. -/
abbrev RangeRow := Nat × Nat × Nat × Nat
def rowOk (q : Nat → Nat → Nat) (r : RangeRow) : Nat × Nat × Bool :=
  (r.1, r.2.1, decide (r.2.2.1 ≤ q r.1 r.2.1 ∧ q r.1 r.2.1 ≤ r.2.2.2))
/-- A finite binary32 field. -/
def f32Ok (q : Nat → Nat → Nat) (o : Nat) : Bool := (decode32 (q o 4)).finite
/-- H0 is finite and positive. -/
def h0Ok (v : Nat) : Bool := (decode32 v).finite && flt Fl.zero (decode32 v)
/-- Length of the parameter block. -/
def engBlock (e : Nat) : Nat := [0x18, 9, 0x1C, 0x0C, 0x18, 0x44].getD e 0

/-- Output bytes that the request itself fixes; 0 where they follow from the inputs. -/
def engOutSize (e : Nat) (q : Nat → Nat → Nat) : Nat :=
  match e with
  | 0 => q 0x4C 2 * 64 * q 0x4A 2
  | 1 => levelBytes (q 0x40 2) (q 0x42 2) (q 0x46 1 + 1) ((List.range (q 0x47 1)).drop (if q 0x48 1 = 1 then 0 else 1))
  | 2 => if q 0x41 1 = 8 then sgmBytes (q 0x58 2) (q 0x5A 2) (q 0x52 1 == 1) else 0
  | 4 => 48 * q 0x4E 2
  | 5 => 128
  | _ => 0

/-- The parameter block's fields with their ranges (R385, R388, R391, R396, R433, R957). -/
def engFields (e : Nat) (q : Nat → Nat → Nat) : List (Nat × Nat × Bool) :=
  match e with
  | 0 => [(0x40, 2, 16, 8192), (0x42, 2, 16, 8192), (0x44, 2, 1, 512), (0x46, 1, 0, 1), (0x47, 1, 0, 1), (0x48, 2, 16, 8192),
      (0x4A, 2, 16, 8192)].map (rowOk q) ++
    [(0x4C, 2, decide (1 ≤ q 0x4C 2 ∧ q 0x4C 2 ≤ 512 ∧ q 0x48 2 * (q 0x47 1 + 1) ≤ q 0x4C 2 * 64))] ++
    [(0x4E, 1, 0, 8), (0x4F, 1, 0, 1), (0x50, 2, 0, 0xFFFF)].map (rowOk q) ++
    [(0x54, 4, q 0x54 4 % 8 == 0 && inIngot (q 0x54 4))]
  | 1 => [(0x40, 2, 16, 8192), (0x42, 2, 16, 8192), (0x44, 2, 1, 512), (0x46, 1, 0, 1), (0x47, 1, 2, 6), (0x48, 1, 0, 1)].map (rowOk q)
  | 2 =>
    let p8 := q 0x41 1 == 8
    let area := sgmScratch (q 0x40 1) (q 0x58 2) (q 0x5A 2)
    [(0x40, 1, decide (1 ≤ q 0x40 1 ∧ q 0x40 1 ≤ 3)), (0x41, 1, q 0x41 1 == 4 || p8)] ++
    [(0x42, 1, 0, 1), (0x43, 1, 0, 1), (0x44, 2, 0, 8191), (0x46, 1, 1, 255), (0x47, 1, 0, 255), (0x48, 2, q 0x46 1, 1023),
      (0x4A, 1, 0, 15), (0x4B, 1, 0, 255), (0x4C, 4, 0, 65535), (0x50, 1, 0, 255), (0x51, 1, 0, 3), (0x52, 1, 0, 1)].map (rowOk q) ++
    [(0x54, 4, if p8 then q 0x54 4 % 4096 == 0 && ingotRange (q 0x54 4) area else q 0x54 4 == 0)] ++
    [(0x58, 2, if p8 then 64 else 0, if p8 then 4096 else 0), (0x5A, 2, if p8 then 32 else 0, if p8 then 4096 else 0)].map (rowOk q)
  | 3 => [(0x40, 1, 1, 6), (0x41, 1, 4, 16), (0x42, 1, 8, 16), (0x43, 1, 1, 16), (0x44, 1, 1, 4), (0x45, 1, 0, 1), (0x46, 2, 0, 4095),
      (0x48, 4, 0, 0xFFFFFFFF)].map (fun r =>
        let (o, n, ok) := rowOk q r
        (o, n, ok && (o != 0x41 || q o n == 4 || q o n == 8 || q o n == 16) && (o != 0x42 || q o n == 8 || q o n == 16)))
  | 4 =>
    let ring := q 0x20 1 == 3
    [(0x40, 2, ring || decide (48 ≤ q 0x40 2 ∧ q 0x40 2 ≤ 8192)), (0x42, 2, ring || decide (48 ≤ q 0x42 2 ∧ q 0x42 2 ≤ 8192)),
      (0x44, 2, true), (0x46, 1, true), (0x47, 1, true), (0x48, 4, true),
      (0x4C, 1, q 0x4C 1 == 32 || q 0x4C 1 == 64 || q 0x4C 1 == 128)] ++
    [(0x4D, 1, 1, 64), (0x4E, 2, 1, 4096), (0x50, 1, 0, 2)].map (rowOk q) ++
    [(0x54, 4, q 0x50 1 != 2 || (q 0x54 4 % 4 == 0 && inIngot (q 0x54 4)))]
  | _ =>
    [(0x40, 1, 0, 1), (0x41, 1, 0, 15), (0x42, 1, 1, 16 - min 16 (q 0x41 1)), (0x43, 1, 0, 1), (0x44, 2, 64, 4096), (0x46, 2, 32, 4096),
      (0x48, 2, 0, if q 0x40 1 = 1 then 65535 else 0), (0x4A, 1, 0, 255), (0x4B, 1, 1, 255), (0x4C, 2, 1, 4000),
      (0x4E, 2, 5, 1000)].map (rowOk q) ++
    [(0x50, 4, q 0x50 4 % 64 == 0 && inIngot (q 0x50 4))] ++
    [0x54, 0x58, 0x5C, 0x60, 0x64, 0x68, 0x6C].map (fun o => (o, 4, f32Ok q o)) ++ [(0x70, 4, h0Ok (q 0x70 4))] ++
    [0x74, 0x78, 0x7C, 0x80].map (fun o => (o, 4, f32Ok q o))

/-- KIND, INDEX and AGE of an input are such as the engine takes (R377, R385, R388, R391, R396, R415, R956). -/
def engInputOk (e : Nat) (q : Nat → Nat → Nat) (i : Nat) : Bool × Bool × Bool :=
  let o := 0x20 + 8 * i
  let k := q o 1
  let x := q (o + 1) 1
  let age := q (o + 2) 1
  let pyr := x / 8 == 1
  let kindOk := match e with
    | 0 | 1 => if i = 0 then 1 ≤ k && k ≤ 3 else k == 0
    | 2 | 3 => k == 3
    | 4 => if i = 0 then 1 ≤ k && k ≤ 3 else k ≤ 3
    | _ => if i = 0 then (if q 0x40 1 = 0 then k == 3 else k == 1 || k == 2) else k == 0
  let indexOk := if k = 2 || k = 3 then decide (x < 48) else true
  let indexFit := match e with
    | 2 => pyr && (i == 0 || x != q 0x21 1)
    | 3 => pyr && (i == 0 || x == q 0x21 1)
    | 4 => i != 0 || k != 3 || pyr
    | 5 => k != 3 || x / 8 == 2
    | _ => true
  let ageOk := match e with
    | 2 => age == 0
    | 3 => age == i
    | 5 => k != 3 || age == 0
    | _ => true
  (kindOk, indexOk && indexFit, ageOk && (if k = 2 then age == 0 else if k = 3 then age ≤ 1 else true))

/-- The fields of ACTION 0 (R382). -/
def engConfigFields (q : Nat → Nat → Nat) : List (Nat × Nat × Bool) :=
  let e := q 0x10 1
  let nout := q 0x15 1
  let trig : Nat → List (Nat × Nat × Bool) := fun o =>
    [(o, 1, decide (q o 1 ≤ 2)),
     (o + 1, 1, q o 1 == 0 || (decide (q (o + 1) 1 < 48) && (q o 1 == 1 || q (o + 1) 1 / 8 != e)))]
  let input : Nat → List (Nat × Nat × Bool) := fun i =>
    let o := 0x20 + 8 * i
    let (k, x, a) := engInputOk e q i
    [(o, 1, k), (o + 1, 1, x), (o + 2, 1, a), (o + 4, 4, true)]
  [(0x10, 1, decide (e < 6)), (0x11, 1, decide (q 0x11 1 < 8)), (0x12, 1, true), (0x13, 1, decide (q 0x13 1 < 2)),
   (0x14, 1, q 0x14 1 < 32 || q 0x14 1 == 0xFF), (0x15, 1, decide (1 ≤ nout ∧ nout ≤ 16))] ++ trig 0x18 ++ trig 0x1A ++
  [(0x1C, 2, decide (1 ≤ q 0x1C 2))] ++ input 0 ++ input 1 ++
  [(0x30, 4, q 0x30 4 % 4096 == 0 && ingotRange (q 0x30 4) (nout * q 0x34 4)),
   (0x34, 4, q 0x34 4 % 4096 == 0 && 0 < q 0x34 4 && engOutSize e q ≤ q 0x34 4),
   (0x38, 4, q 0x38 4 % 64 == 0 && ingotRange (q 0x38 4) (64 * nout))] ++ engFields e q

/-- ACTION 0: the areas are covered and the profile is DISABLED with RUNSEQ 0 (R383). -/
def State.engConfigure (s : State) (m : Nat) : State :=
  let q := fun o n => s.rq m o n
  let e := q 0x10 1
  let p := q 0x11 1
  let owner := q 0x14 1
  let nout := q 0x15 1
  if owner != 0xFF && (s.ctx owner).st != .opened then s.refuse m rBadArgument 0x14
  else if 2 ≤ (s.prof e p).st then s.refuse m rStateConflict 1
  else
    let s1 := if (s.prof e p).st = 1 then s.profClear e p else s
    let put := fun (s : State) a n r => s.cover a n (ownerKind owner) (ownerId owner) r (engWrites e) 0
    let areas := ((put s1 (q 0x30 4) (nout * q 0x34 4) readGroups).bind (fun s => put s (q 0x38 4) (64 * nout) readGroups)).bind
      (fun s => if e = 2 && q 0x41 1 = 8 then
          put s (q 0x54 4) (sgmScratch (q 0x40 1) (q 0x58 2) (q 0x5A 2)) (engWrites e)
        else some s)
    match areas with
    | none => s.refuse m rNoResource 0
    | some s2 =>
      let s3 := (List.range 60).foldl (fun s w =>
        s.setReg (engBlk e) (0x1010 + 0x100 * p + 4 * w) (BitVec.ofNat 32 (s.rq m (0x10 + 4 * w) 4))) s2
      (s3.setProf e p { st := 1 }).replyDone m

/-- ACTION 1 to 3 (R383). -/
def State.engAction (s : State) (m e p a : Nat) : State :=
  let x := s.prof e p
  match a with
  | 1 =>
    if x.st = 0 then s.refuse m rStateConflict 2
    else if x.st = 2 then s.refuse m rAlreadyDone 0
    else if s.aon.pwr < 2 then s.refuse m rStateConflict 3
    else (s.setProf e p { x with st := 2 }).replyDone m
  | 2 =>
    if x.st = 0 then s.refuse m rStateConflict 2
    else if x.st = 1 then s.refuse m rAlreadyDone 0
    else if x.stopMb.isSome then s.refuse m rBusy 0
    else if s.profActive e p then ((s.markStop e).setProf e p { (s.markStop e).prof e p with stopMb := some m }).await m
    else
      let s1 := s.dropStart e p
      (s1.setProf e p { s1.prof e p with st := 1 }).replyDone m
  | _ =>
    if x.st = 0 then s.refuse m rAlreadyDone 0
    else if x.st = 2 then s.refuse m rStateConflict 1
    else (s.profClear e p).replyDone m

/-- ENGINE_CFG (R382, R383). -/
def execEngineCfg (m : MbId) (s : State) : Host.Outcome State Fault Refusal :=
  let q := fun o n => s.rq m.val o n
  let e := q 0x10 1
  let a := q 0x12 1
  let len := s.rqLen m.val
  if a = 0 then
    done s (s.command m.val 0x0511 (if e < 6 then len == 0x30 + engBlock e else 3 ≤ len && len ≤ 240)
      (s.fieldChecks m.val (engConfigFields q)) (fun s => s.engConfigure m.val))
  else
    done s (s.command m.val 0x0511 (3 ≤ len && len ≤ 240)
      [(0x10, e < 6), (0x11, q 0x11 1 < 8), (0x12, a < 4)] (fun s => s.engAction m.val e (q 0x11 1) a))

/-- EDGE_FLOOR (R964): runs that begin from now on use the new values. -/
def execEdgeFloor (m : MbId) (s : State) : Host.Outcome State Fault Refusal :=
  let p := s.rq m.val 0x10 1
  let words := [0x14, 0x18, 0x1C, 0x20, 0x24, 0x28, 0x2C, 0x30]
  done s (s.command m.val 0x0801 (s.rqLen m.val == 0x24)
    (s.fieldChecks m.val ([(0x10, 1, decide (p < 8))] ++ words.map (fun o =>
      (o, 4, if o = 0x20 then h0Ok (s.rq m.val o 4) else f32Ok (s.rq m.val) o))))
    (fun s =>
      if (s.prof 5 p).st = 0 then s.refuse m.val rStateConflict 1
      else
        (words.foldl (fun s o => s.setReg Blk.edge (0x1000 + 0x100 * p + 0x50 + o) (BitVec.ofNat 32 (s.rq m.val o 4))) s).replyDone
          m.val))

/-! ## Runs -/

/-- TRIGGER_ARRIVAL (R375, R404). -/
def execTriggerArrival (e : EngId) (p : ProfId) (s : State) : Host.Outcome State Fault Refusal :=
  let x := s.prof e.val p.val
  match x.arrivals with
  | [] => done s s
  | b :: t =>
    if !s.engLive e.val || !s.chained e.val p.val then done s s
    else done s ((s.setProf e.val p.val { x with arrivals := t }).arrive e.val p.val b)

/-- The image that a RING input of RECT or PYR reads: the first plane of the producer's output buffer (R377, R390). -/
def State.ringImage (s : State) (i : RunInput) : RunInput :=
  if i.levels != 0 && s.engCfg (i.index / 8) (i.index % 8) 0x48 1 = 0 then
    { i with w := levelSize i.w 1, h := levelSize i.h 1, stride := levelStride i.w i.bpp 1 }
  else i

/-- The inputs disagree with the parameter block, or the output does not fit the buffer (R410, R415, R433, R956). -/
def State.badInputs (s : State) (e p : Nat) (i j : RunInput) : Bool :=
  let f := fun o n => s.engCfg e p o n
  let plane := fun (a : RunInput) w h st b => a.kind != 1 && !(a.w == w && a.h == h && a.stride == st && a.bpp == b)
  match e with
  | 0 | 1 => plane (if i.kind = 3 then s.ringImage i else i) (f 0x40 2) (f 0x42 2) (f 0x44 2 * 64) (f 0x46 1 + 1)
  | 2 =>
    !(i.bpp == 1 && j.bpp == 1 && i.w == j.w && i.h == j.h && 64 ≤ i.w && i.w ≤ 4096 && 32 ≤ i.h && i.h ≤ 4096 &&
      f 0x40 1 ≤ i.levels && f 0x40 1 ≤ j.levels) ||
    (f 0x41 1 == 8 && !(i.w ≤ f 0x58 2 && i.h ≤ f 0x5A 2)) || f 0x34 4 < sgmBytes i.w i.h (f 0x52 1 == 1)
  | 3 =>
    !(i.bpp == 1 && f 0x40 1 ≤ i.levels) ||
    f 0x34 4 < cdiv (cdiv i.w (f 0x41 1) * 8) 64 * 64 * cdiv i.h (f 0x41 1)
  | 4 => if i.kind = 3 then i.bpp != 1 else plane i (f 0x40 2) (f 0x42 2) (f 0x44 2 * 64) 1
  | _ =>
    if f 0x40 1 = 0 then !(i.w == f 0x44 2 && i.h == f 0x46 2)
    else plane i (f 0x44 2) (f 0x46 2) (f 0x48 2 * 64) 2 || (i.kind == 2 && s.slotCfg i.index 0x15 1 != 2)

/-- RUN_BEGIN (R376 to R378): the oldest pending start begins. -/
def execRunBegin (e : EngId) (s : State) : Host.Outcome State Fault Refusal :=
  let g := s.engine e.val
  if !s.engLive e.val || g.run.isSome then done s s
  else match g.order with
    | [] => done s s
    | p :: t =>
      let x := s.prof e.val p
      let s1 := s.setProf e.val p { x with pending := false, pendingToken := none }
      let g1 := s1.engine e.val
      let s2 := s1.setEngine e.val { g1 with order := t }
      match s.resolve e.val p 0, s.resolve e.val p 1 with
      | some i, some j =>
        let params := (List.range 60).flatMap (fun w => leBytes 4 (s.reg (engBlk e.val) (0x1010 + 0x100 * p + 4 * w)).toNat)
        let i' := if e.val ≤ 1 && i.kind == 3 then s.ringImage i else i
        let r : Run :=
          { prof := p, runseq := x.runseq, tbStart := s.tbNow, in0 := i', in1 := j, skipped := x.skipped, params := params
            badInput := s.badInputs e.val p i j, token := x.pendingToken }
        let y := s2.prof e.val p
        let s3 := s2.setProf e.val p { y with runseq := (x.runseq + 1) % 65536, skipped := 0 }
        let g3 := s3.engine e.val
        done s (s3.setEngine e.val { g3 with run := some r })
      | _, _ => done s ((s2.tokenDone x.pendingToken 2 0 0 0 []).skipStart e.val p)

/-- What the run computes. -/
def State.runCompute (s : State) (e : Nat) (r : Run) : RunResult × State :=
  let u : EngUser := { e := e, ctx := ownerCtx r.owner }
  match e with
  | 0 => s.runRect u r
  | 1 => s.runPyr u r
  | 2 => s.runSgm u r
  | 3 => s.runFlow u r
  | 4 => s.runFeat u r
  | _ => s.runEdge u r

/-- Adds to a pair of 32-bit counters. -/
def State.addTotal (s : State) (b : Blk) (off k : Nat) : State :=
  s.setPair b off (((s.reg b off).toNat + 2 ^ 32 * (s.reg b (off + 4)).toNat + k) % 2 ^ 64)

/-- The run completes its computation: output, header, end event, and what OK brings (R380, R442, R963). -/
def State.runComplete (s : State) (e : Nat) (r : Run) (stall : Nat) : State :=
  if r.badInput then s.runOver e r stDescriptor 0 stall []
  else
    let (res, s1) := s.runCompute e r
    if res.acc != .ok then s1.runOver e r (accStatus res.acc) 0 stall []
    else
      let (acc, s2) := s1.writeLines { e := e, ctx := ownerCtx r.owner } res.lines
      if acc != .ok then s2.runOver e r (accStatus acc) 0 stall []
      else
        let s3 := s2.runOver e r stOk res.flags stall res.spec
        if (s3.prof e r.prof).lastOk != some r.runseq then s3
        else if e = 2 then
          ((s3.addTotal Blk.sgm 0x208 res.totals.1).addTotal Blk.sgm 0x210 res.totals.2.1).addTotal Blk.sgm 0x218 res.totals.2.2
        else if e = 5 && r.param 0x43 1 = 1 then s3.publish res.verdicts
        else s3

/-- RUN_END (R380, R408): the run ends by itself; `stall` is the time its regulator held it. -/
def execRunEnd (e : EngId) (stall : Nat) (s : State) : Host.Outcome State Fault Refusal :=
  if !s.engLive e.val then done s s
  else match (s.engine e.val).run with
    | none => done s s
    | some r => if r.stop then done s s else done s (s.runComplete e.val r stall)

/-- A run stops early with STATUS ABORTED, its first n lines written (R407); of SGM any mix of its lines is (R436). With
n = 0 it stopped before it read. -/
def State.runAbort (s : State) (e : Nat) (r : Run) (n stall : Nat) : State :=
  if r.badInput || n = 0 then s.runOver e r stAborted 0 stall []
  else
    let (res, s1) := s.runCompute e r
    if res.acc != .ok then s1.runOver e r (accStatus res.acc) 0 stall []
    else
      let lines := if e = 2 then (res.lines.zipIdx.filter (fun l => Config.freeBool (s1.free + l.2))).map (fun l => l.1)
        else res.lines.take n
      let s2 := if e = 2 then { s1 with free := s1.free + res.lines.length } else s1
      let (acc, s3) := s2.writeLines { e := e, ctx := ownerCtx r.owner } lines
      s3.runOver e r (if acc == .ok then stAborted else accStatus acc) 0 stall []

/-- RUN_STOP (R407): a run met by a disable or a teardown stops at its next line. -/
def execRunStop (e : EngId) (lines stall : Nat) (s : State) : Host.Outcome State Fault Refusal :=
  if !s.engLive e.val then done s s
  else match (s.engine e.val).run with
    | none => done s s
    | some r => if r.stop then done s (s.runAbort e.val r lines stall) else done s s

/-- RUN_LIMIT (R410): the run has lasted its limit, in units of 10 µs. -/
def execRunLimit (e : EngId) (lines stall : Nat) (s : State) : Host.Outcome State Fault Refusal :=
  if !s.engLive e.val then done s s
  else match (s.engine e.val).run with
    | none => done s s
    | some r =>
      if r.stop = false ∧ r.param 0x1C 2 * 1000 ≤ s.tbNow - r.tbStart then done s (s.runAbort e.val r lines stall)
      else done s s

end Sys2Proof.Machine
end

