-- ==== Sys2Proof/Machine/Pat.lean ====
section
/-! DEFINITION. Sys2Proof/Machine/Pat.lean: the Pattern sequencer: graphs, triggers, nodes and their commands (R443 to
R481). -/
namespace Sys2Proof.Machine
open Sys2Proof

/-! ## Programs (R446, R465) -/

def graphBase (g : Nat) : Nat := 0x1000 + 0x40 * g
/-- The field of n bytes at byte o of node i, n at most 4 within a word. -/
def State.nodeFld (s : State) (g i o n : Nat) : Nat :=
  fld (s.reg Blk.pat (0x4000 + 0x400 * g + 16 * i + o / 4 * 4)) (o % 4 * 8) (8 * n)
def State.graphNodes (s : State) (g : Nat) : Nat := s.graphCfg g 0x12 1
/-- OP of the node at which the instance stands; past the last loaded node it is an END with REL 0 (R450). -/
def State.nodeOp (s : State) (g i : Nat) : Nat := if s.graphNodes g ≤ i || 64 ≤ i then 0 else s.nodeFld g i 0 1
/-- A RUN of a loaded graph names the profile. -/
def State.runNamed (s : State) (g e p : Nat) : Bool :=
  (List.range (s.graphNodes g)).any (fun i => s.nodeFld g i 0 1 == 1 && s.nodeFld g i 1 1 == e && s.nodeFld g i 2 1 == p)

/-- Used bytes of a node are in range, every other byte is zero (reason 2). -/
def nodeFieldsOk (b : Nat → Nat) : Bool :=
  let zeroFrom := fun (i : Nat) => (List.range (16 - i)).all (fun k => b (i + k) == 0)
  match b 0 with
  | 0 => b 1 ≤ 3 && zeroFrom 2
  | 1 => b 1 ≤ 5 && b 2 ≤ 7 && b 3 ≤ 14 && zeroFrom 4
  | 2 =>
    b 1 ≤ 1 && b 3 < 128 &&
    (if b 1 = 0 then b 4 == 0 && b 5 == 0 && b 6 == 0 && b 7 == 0 else b 8 == 0 && b 9 == 0) && zeroFrom 10
  | 3 => b 1 ≤ 1 && b 3 ≤ 7 && [4, 5, 6, 7].all (fun i => b i ≤ 15) && zeroFrom 8
  | 4 => b 1 ≤ 1 && (if b 1 = 0 then 1 ≤ b 2 && b 3 < b 2 else b 2 ≤ 14 && b 3 == 0) && zeroFrom 5
  | _ => b 1 ≤ 7 && zeroFrom 2
/-- The reason for which node i of a program is refused; none when it passes (R465). -/
def State.nodeReason (s : State) (g owner n i : Nat) (b : Nat → Nat) : Option Nat :=
  if 5 < b 0 then some 1
  else if !nodeFieldsOk b then some 2
  else if b 0 = 1 && !((s.prof (b 1) (b 2)).st != 0 && s.engCfg (b 1) (b 2) 0x13 1 == 1 && s.engOwner (b 1) (b 2) == owner) then some 3
  else if b 0 = 1 && (List.range 16).any (fun h => h != g && (s.graph h).st != .unloaded && s.runNamed h (b 1) (b 2)) then some 4
  else if b 0 = 4 && !(i < b 4 && b 4 < n) then some 5
  else none

/-- Enables a queue whose ring its registers name already, empty, for an owner. -/
def State.queueEnable (s : State) (q owner : Nat) : State :=
  let c := s.qcfg q
  let x := s.queue q
  (s.setReg Blk.que (0x1000 + 0x40 * q) (bitAt true 31 ||| bitAt (owner != 0xFF) 21 ||| at_ (if owner = 0xFF then 0 else owner) 16 5 |||
    at_ (fld c 0 14) 0 14)).setQueue q { epoch := x.epoch }

/-- GRAPH_LOAD (R464, R465). -/
def execGraphLoad (m : MbId) (s : State) : Host.Outcome State Fault Refusal :=
  let q := fun o n => s.rq m.val o n
  let g := q 0x10 1
  let owner := q 0x11 1
  let n := q 0x12 1
  let src := q 0x18 8
  done s (s.request m.val 0x0521 0x10
    [(0x10, 1, g < 16), (0x11, 1, owner == 0xFF || s.ctxOpen owner), (0x12, 1, 1 ≤ n && n ≤ 64), (0x13, 1, q 0x13 1 < 2),
     (0x14, 1, q 0x14 1 < 48), (0x15, 1, q 0x15 1 == 0xFF || (q 0x15 1 < 48 && q 0x15 1 != q 0x14 1)),
     (0x16, 2, 1 ≤ q 0x16 2), (0x18, 8, src % 16 == 0 && ingotRange src (16 * n))]
    (fun s =>
      if (s.graph g).st != .unloaded then s.refuse m.val rStateConflict 1
      else
        let (d, acc, s1) := s.readMem Config.mForeman .secure 0 src (16 * n)
        if acc != .ok then s1.refuse m.val rBadArgument 0x18
        else
          let node := fun (i k : Nat) => bytesAt d (16 * i + k) 1
          match (List.range n).find? (fun i => (s.nodeReason g owner n i (node i)).isSome) with
          | some i =>
            s1.refuse m.val rBadArgument 0x18 (leBytes 1 i ++ leBytes 1 ((s.nodeReason g owner n i (node i)).getD 0))
          | none =>
            let s2 := (List.range (4 * n)).foldl (fun s w =>
              s.setReg Blk.pat (0x4000 + 0x400 * g + 4 * w) (BitVec.ofNat 32 (bytesAt d (4 * w) 4))) s1
            let s3 := (List.range 4).foldl (fun s w =>
              s.setReg Blk.pat (graphBase g + 0x18 + 4 * w) (BitVec.ofNat 32 (s.rq m.val (0x10 + 4 * w) 4))) s2
            let s4 := s3.queueEnable (76 + g) owner
            (s4.setGraph g { s4.graph g with st := .stopped }).replyDone m.val))

/-- GRAPH_START (R466). -/
def execGraphStart (m : MbId) (s : State) : Host.Outcome State Fault Refusal :=
  let g := s.rq m.val 0x10 1
  let again := s.rq m.val 0x11 1 == 1
  done s (s.request m.val 0x0522 2 [(0x10, 1, g < 16), (0x11, 1, s.rq m.val 0x11 1 < 2)] (fun s =>
    let x := s.graph g
    if x.st = .idle ∨ x.st = .running then s.refuse m.val rAlreadyDone 0
    else if x.st = .unloaded ∨ (x.st = .faulted ∧ !again) then s.refuse m.val rStateConflict 1
    else if s.aon.pwr < 2 then s.refuse m.val rStateConflict 2
    else (s.setGraph g { x with
      st := .idle, first := true, events := [], arrA := none, arrB := none, pending := none }).replyDone m.val))

/-- GRAPH_STOP (R467). A FAULTED graph keeps its state without CLEAR (R444). -/
def execGraphStop (m : MbId) (s : State) : Host.Outcome State Fault Refusal :=
  let g := s.rq m.val 0x10 1
  let now := s.rq m.val 0x11 1 == 1
  let clear := s.rq m.val 0x12 1 == 1
  done s (s.request m.val 0x0523 3
    [(0x10, 1, g < 16), (0x11, 1, s.rq m.val 0x11 1 < 2), (0x12, 1, s.rq m.val 0x12 1 < 2)] (fun s =>
      let x := s.graph g
      let finish := fun (s : State) => (if clear then s.graphUnload g else s).replyDone m.val
      match x.st with
      | .unloaded => s.refuse m.val rAlreadyDone 0
      | .stopped => if clear then finish s else s.refuse m.val rAlreadyDone 0
      | .faulted => if clear then finish s else s.refuse m.val rAlreadyDone 0
      | .idle => finish (s.graphStop g)
      | .running =>
        if now then
          let s1 := s.graphStop g
          if (s1.graph g).st = .unloaded then s1.replyDone m.val else finish s1
        else if x.stopping.isSome then s.refuse m.val rBusy 0
        else
          (s.setGraph g { x with
            stopping := some (m.val, clear), stopAt := s.clk.now, pending := none, events := [], arrA := none, arrB := none }).await
            m.val))

/-- GRAPH_STOP_TIMEOUT (R467): 9 ms after acceptance the stop takes place as with MODE 1. -/
def execGraphStopTimeout (g : GraphId) (s : State) : Host.Outcome State Fault Refusal :=
  let x := s.graph g.val
  done s (if x.stopping.isSome ∧ x.stopAt + 9 * tbMs ≤ s.clk.now then s.graphStop g.val 1 else s)

/-! ## Instances (R447 to R449, R459, R460) -/

/-- The sequencer works: Gust and Gale, neither halted nor gated, nothing holds the part. -/
def State.patLive (s : State) : Bool :=
  2 ≤ s.aon.pwr && !s.isHalted Blk.pat && !s.gated Blk.pat && !s.frozen

/-- An overlap of graph g: the event and the graph's own count. -/
def State.overlap (s : State) (g : Nat) : State :=
  (s.bump Blk.pat 3).setReg Blk.pat (graphBase g + 0x14)
    (at_ (fld (s.reg Blk.pat (graphBase g + 0x14)) 0 16 + 1) 0 16)

/-- A trigger starts an instance (R448). -/
def State.startInst (s : State) (g : Nat) (t : Trigger) (late : Bool) : State :=
  let x := s.graph g
  let s1 := (s.setPair Blk.pat (graphBase g + 0x0C) s.tbNow).setReg Blk.pat (graphBase g + 8) (at_ t.seqB 16 16 ||| at_ t.seqA 0 16)
  s1.setGraph g { x with
    st := .running, fcount := if x.first then 0 else (x.fcount + 1) % 65536, first := false, pending := none
    inst := some { trig := t, late := late, startAt := s.tbNow } }

/-- A trigger of graph g (R448, R449). -/
def State.graphTrigger (s : State) (g : Nat) (t : Trigger) : State :=
  let x := s.graph g
  if x.st = .idle then s.startInst g t false
  else if s.graphCfg g 0x13 1 = 1 then s.overlap g
  else
    let s1 := if x.pending.isSome then s.overlap g else s
    s1.setGraph g { s1.graph g with pending := some t }

/-- The running instance is over (R444, R449, R467). -/
def State.endInst (s : State) (g : Nat) : State :=
  let x := s.graph g
  if x.stopping.isSome then s.graphStop g
  else
    let s1 := s.setGraph g { x with st := .idle, inst := none, pending := none }
    match x.pending with
    | some t => s1.startInst g t true
    | none => s1

/-- GRAPH_TRIGGER (R447): the oldest frame-end event raised for graph g. -/
def execGraphTrigger (g : GraphId) (s : State) : Host.Outcome State Fault Refusal :=
  let x := s.graph g.val
  match x.events with
  | [] => done s s
  | (b, seq, tb) :: t =>
    if !s.patLive || !(x.st == .idle || x.st == .running) then done s s
    else
      let y := { x with events := t }
      let s0 := s.setGraph g.val y
      if s.graphTrig g.val true = 0xFF then done s (s0.graphTrigger g.val { seqA := seq, tb := tb })
      else
        let s1 := if (if b then x.arrB else x.arrA).isSome then s0.overlap g.val else s0
        let a := if b then x.arrA else some (seq, tb)
        let c := if b then some (seq, tb) else x.arrB
        match a, c with
        | some (n, u), some (k, v) =>
          done s ((s1.setGraph g.val { y with arrA := none, arrB := none }).graphTrigger g.val
            { seqA := n, seqB := k, tb := max u v })
        | _, _ => done s (s1.setGraph g.val { y with arrA := a, arrB := c })

/-! ## Nodes (R450 to R458) -/

/-- The instance of graph g when it stands at a node with this OP. -/
def State.nodeAt (s : State) (g op : Nat) : Option Inst :=
  if !s.patLive || (s.graph g).st != .running then none
  else match (s.graph g).inst with
    | none => none
    | some i => if s.nodeOp g i.node = op then some i else none
def State.setInst (s : State) (g : Nat) (i : Inst) : State := s.setGraph g { s.graph g with inst := some i }
/-- The instance goes on to a node. -/
def State.goNode (s : State) (g : Nat) (i : Inst) (n : Nat) : State := s.setInst g { i with node := n, waitFrom := none }
def Inst.token (i : Inst) (t : Nat) : Token := Tab.get tokenReset i.tokens t
/-- The token has completed (R451). -/
def Token.complete (t : Token) : Bool := !t.outstanding && t.outcome != 4

/-- RUN_NODE (R451, R452). -/
def execRunNode (g : GraphId) (s : State) : Host.Outcome State Fault Refusal :=
  match s.nodeAt g.val 1 with
  | none => done s s
  | some i =>
    let f := fun o => s.nodeFld g.val i.node o 1
    let (e, p, t) := (f 1, f 2, f 3)
    if (i.token t).outstanding then done s s
    else if (s.prof e p).st = 2 ∧ s.engCfg e p 0x13 1 = 1 then
      let s1 := s.goNode g.val { i with tokens := Tab.set tokenReset i.tokens t { outstanding := true } } (i.node + 1)
      done s (s1.makeStart e p (some (g.val, t)))
    else
      done s (s.goNode g.val { i with tokens := Tab.set tokenReset i.tokens t { outcome := 3 } } (i.node + 1))

/-- Every token of MASK has completed. -/
def State.waitDone (s : State) (g : Nat) (i : Inst) : Bool :=
  let m := s.nodeFld g i.node 2 2
  (List.range 15).all (fun t => !bit m t || (i.token t).complete)
/-- TB_NOW has reached the time of a WAIT with KIND 1. -/
def State.waitTimeDone (s : State) (g : Nat) (i : Inst) : Bool :=
  i.trig.tb + 100 * s.nodeFld g i.node 4 4 ≤ s.tbNow

/-- WAIT_NODE (R453): the wait begins, or completes with its tokens. -/
def execWaitNode (g : GraphId) (s : State) : Host.Outcome State Fault Refusal :=
  match s.nodeAt g.val 2 with
  | none => done s s
  | some i =>
    let ready := if s.nodeFld g.val i.node 1 1 = 0 then s.waitDone g.val i else s.waitTimeDone g.val i
    if ready then done s (s.goNode g.val i (i.node + 1))
    else if i.waitFrom.isSome then done s s
    else done s (s.setInst g.val { i with waitFrom := some s.tbNow })

/-- WAIT_TIME_REACHED (R453, R469). -/
def execWaitTimeReached (g : GraphId) (s : State) : Host.Outcome State Fault Refusal :=
  match s.nodeAt g.val 2 with
  | none => done s s
  | some i =>
    if s.nodeFld g.val i.node 1 1 = 1 ∧ i.waitFrom.isSome ∧ s.waitTimeDone g.val i then done s (s.goNode g.val i (i.node + 1))
    else done s s

/-- WAIT_NODE_TIMEOUT (R453, R473): TIMEOUT in units of 10 µs. -/
def execWaitNodeTimeout (g : GraphId) (s : State) : Host.Outcome State Fault Refusal :=
  match s.nodeAt g.val 2 with
  | none => done s s
  | some i =>
    match i.waitFrom with
    | none => done s s
    | some t0 =>
      let n := s.nodeFld g.val i.node 8 2
      if s.nodeFld g.val i.node 1 1 = 0 ∧ n ≠ 0 ∧ t0 + 1000 * n ≤ s.tbNow then
        if s.waitDone g.val i then done s (s.goNode g.val i (i.node + 1))
        else done s (s.goNode g.val { i with waitTimeout := true } (i.node + 1))
      else done s s

/-- BRANCH_NODE (R454). -/
def execBranchNode (g : GraphId) (s : State) : Host.Outcome State Fault Refusal :=
  match s.nodeAt g.val 4 with
  | none => done s s
  | some i =>
    let f := fun o => s.nodeFld g.val i.node o 1
    let t := i.token (f 2)
    let taken := if f 1 = 0 then (s.graph g.val).fcount % f 2 == f 3
      else t.outstanding || (t.complete && t.outcome != 0)
    done s (s.goNode g.val i (if taken then f 4 else i.node + 1))

/-- TIMESTAMP_NODE (R455). -/
def execTimestampNode (g : GraphId) (s : State) : Host.Outcome State Fault Refusal :=
  match s.nodeAt g.val 5 with
  | none => done s s
  | some i =>
    done s (s.goNode g.val { i with stamps := nset i.stamps (s.nodeFld g.val i.node 1 1) s.tbNow } (i.node + 1))

/-! ## Records (R456, R457, R461) -/

/-- A token record of 8 bytes. -/
def tokenRecord (i : Inst) (t : Nat) : List Byte :=
  if t = 15 then 0xF0 :: List.replicate 7 0
  else
    let x := i.token t
    leBytes 1 (t + 16 * x.outcome) ++
      (if x.outcome ≤ 1 then leBytes 1 x.status ++ leBytes 2 x.runseq ++ leBytes 4 x.buffer else List.replicate 7 0)
/-- FRAME_SKEW of the tokens reported (R458). -/
def State.frameSkew (s : State) (g : Nat) (i : Inst) (sel : List Nat) : Bool :=
  sel.any (fun t => t != 15 && (i.token t).frames.any (fun f =>
    (f.1 == s.graphTrig g false && f.2 != i.trig.seqA) || (f.1 == s.graphTrig g true && f.2 != i.trig.seqB)))
/-- EPOCH_NEW of graph g's next record (R461). -/
def State.epochNew (s : State) (g : Nat) : Bool := (s.queue (76 + g)).epoch != (s.graph g).epochSeen
/-- A record: CODE, the further bits of FLAGS, node index, the 32 bytes of token records and the stamp. -/
def State.patRecord (s : State) (g : Nat) (i : Inst) (code flags node : Nat) (tokens : List Byte) (stamp : Nat) : List Byte :=
  entry64 (leBytes 2 (s.graph g).fcount ++ leBytes 1 g ++ leBytes 1 code ++
    leBytes 2 (b2n i.late + 2 * b2n i.waitTimeout + flags) ++ leBytes 2 i.trig.seqA ++ leBytes 2 i.trig.seqB ++ leBytes 2 node ++
    leBytes 4 0 ++ leBytes 8 i.trig.tb ++ tokens ++ leBytes 8 stamp)

/-- A push to Q76 + g: 0 pushed, 1 discarded for want of credit, 2 failed its region check (R456, R477). -/
def State.patPush (s : State) (g : Nat) (body : List Byte) : Nat × State :=
  let q := 76 + g
  if !s.qEn q || s.credits q = 0 then (1, s.bump Blk.pat 4)
  else if !s.ringOk q 1 then
    (2, s.fabErr 2 Config.mQue .ordinary (s.qCtx q) true (s.fullAddr (s.qSlot q (s.queue q).tail)))
  else
    let s1 := s.devicePush q body
    (0, s1.setGraph g { s1.graph g with epochSeen := (s1.queue q).epoch })

/-- A push failed: the instance ends without a record, the graph is FAULTED, Class C of its owner (R477). -/
def State.graphFault (s : State) (g node : Nat) : State :=
  let s1 := s.dropTokens g
  let x := s1.graph g
  let s2 := s1.setGraph g { x with
    st := .faulted, inst := none, pending := none, events := [], arrA := none, arrB := none, stopping := none }
  let s3 := match x.stopping with
    | some (m, clear) => (if clear then s2.graphUnload g else s2).replyDone m
    | none => s2
  (s3.bumpInfo Blk.pat 6 0x138 (at_ g 16 4 ||| at_ node 8 6 ||| at_ 2 0 8)).teardown (s.graphOwner g) stWindow

/-- SIGNAL_NODE (R456): waits until every selected token has completed or is NOT_ISSUED. -/
def execSignalNode (g : GraphId) (s : State) : Host.Outcome State Fault Refusal :=
  match s.nodeAt g.val 3 with
  | none => done s s
  | some i =>
    let f := fun o => s.nodeFld g.val i.node o 1
    let sel := [f 4, f 5, f 6, f 7]
    if sel.any (fun t => t != 15 && (i.token t).outstanding) then done s s
    else
      let flags := 4 * b2n (s.frameSkew g.val i sel) + 16 * b2n (f 1 == 0 && s.epochNew g.val)
      let body := s.patRecord g.val i (f 2) flags i.node (sel.flatMap (tokenRecord i)) (nget i.stamps (f 3))
      if f 1 = 1 then
        done s ({ s with fsu.motionIn := some body }.goNode g.val i (i.node + 1))
      else
        match s.patPush g.val body with
        | (2, s1) => done s (s1.graphFault g.val i.node)
        | (_, s1) => done s (s1.goNode g.val i (i.node + 1))

/-- END_NODE (R459): once every outstanding token has completed, the frames are released and the instance ends. -/
def execEndNode (g : GraphId) (s : State) : Host.Outcome State Fault Refusal :=
  match s.nodeAt g.val 0 with
  | none => done s s
  | some i =>
    if (List.range 15).any (fun t => (i.token t).outstanding) then done s s
    else
      let rel := if s.graphNodes g.val ≤ i.node || 64 ≤ i.node then 0 else s.nodeFld g.val i.node 1 1
      let s1 := if bit rel 0 then s.releaseWrite (s.graphTrig g.val false) ((i.trig.seqA + 1) % 65536) else s
      let s2 := if bit rel 1 && s1.graphTrig g.val true < 48 then
          s1.releaseWrite (s1.graphTrig g.val true) ((i.trig.seqB + 1) % 65536) else s1
      done s ((s2.bump Blk.pat 2).endInst g.val)

/-- INSTANCE_LIMIT (R460): in units of 100 µs. The spec gives no content to the LIMIT record's node index, token records and
stamp: they are free. -/
def execInstanceLimit (g : GraphId) (s : State) : Host.Outcome State Fault Refusal :=
  let x := s.graph g.val
  match x.inst with
  | none => done s s
  | some i =>
    if s.patLive ∧ x.st = .running ∧ i.startAt + 10000 * s.graphCfg g.val 0x16 2 ≤ s.tbNow then
      let free := fun (k n : Nat) => (List.range n).map (fun j => BitVec.ofNat 8 (Config.freeWord (s.free + k + j)).toNat)
      let s1 := { s.dropTokens g.val with free := s.free + 43 }
      let flags := 8 + 4 * b2n (Config.freeBool (s.free + 42)) + 16 * b2n (s.epochNew g.val)
      let body := s1.patRecord g.val i 0xFF flags (leNat (free 0 2)) (free 2 32) (leNat (free 34 8))
      match s1.patPush g.val body with
      | (2, s2) => done s ((s2.bump Blk.pat 5).graphFault g.val i.node)
      | (_, s2) => done s ((s2.bump Blk.pat 5).endInst g.val)
    else done s s

end Sys2Proof.Machine
end

