-- ==== Sys2Proof/Machine/Disp.lean ====
section
/-! DEFINITION. Sys2Proof/Machine/Disp.lean: the display output: timing sets, panel sequences, scanout, region updates
and the egress rings (R829 to R872). -/
namespace Sys2Proof.Machine
open Sys2Proof

/-! ## Timing sets (R831, R836, R837) -/

/-- The n-byte field at offset o of the accepted STORE of set t. -/
def State.setF (s : State) (t o : Nat) : Nat → Nat
  | 0 => 0
  | n + 1 => fld (s.reg Blk.disp (0x200 + 0x40 * t + (o - 0x12) / 4 * 4)) ((o - 0x12) % 4 * 8) 8 + 256 * State.setF s t (o + 1) n
def State.setHact (s : State) (t : Nat) : Nat := s.setF t 0x18 2
def State.setVact (s : State) (t : Nat) : Nat := s.setF t 0x20 2
/-- Command mode. -/
def State.setCmd (s : State) (t : Nat) : Bool := s.setF t 0x12 1 == 2
def State.hTotal (s : State) (t : Nat) : Nat := s.setF t 0x18 2 + s.setF t 0x1A 2 + s.setF t 0x1C 2 + s.setF t 0x1E 2
def State.vTotal (s : State) (t : Nat) : Nat := s.setF t 0x20 2 + s.setF t 0x22 2 + s.setF t 0x24 2 + s.setF t 0x26 2
/-- f_vco of R204 in units of 1/65 536 Hz. -/
def vcoOf (ni nf : Nat) : Nat := 38400000 * (ni * 65536 + nf)
/-- t_line in ps as a fraction: numerator and denominator. -/
def lineFrac (hTotal ni nf post : Nat) : Nat × Nat := (hTotal * post * 65536 * 10 ^ 12, vcoOf ni nf)
def State.setLine (s : State) (t : Nat) : Nat × Nat := lineFrac (s.hTotal t) (s.setF t 0x28 1) (s.setF t 0x2A 2) (s.setF t 0x2C 1)
/-- t_line in ps, rounded (DISP_TLINE). -/
def State.linePs (s : State) (t : Nat) : Nat := (2 * (s.setLine t).1 + (s.setLine t).2) / (2 * (s.setLine t).2)
/-- Duration of n lines in ps. -/
def State.linesPs (s : State) (t n : Nat) : Nat := n * (s.setLine t).1 / (s.setLine t).2
def State.framePs (s : State) (t : Nat) : Nat := s.linesPs t (s.vTotal t)
/-- T0 after the frame start: VSYNC and VBP lines. -/
def State.toActivePs (s : State) (t : Nat) : Nat := s.linesPs t (s.setF t 0x24 2 + s.setF t 0x26 2)
/-- The link check of R837. -/
def linkCheck (lanes rate hact : Nat) (line : Nat × Nat) : Bool :=
  decide (8 * (3 * hact + 70) * line.2 * 10 ^ 6 ≤ lanes * rate * line.1)
/-- TB_NOW in ps. -/
def State.nowPs (s : State) : Nat := s.clk.now * 10000
/-- An instant in ps as a value of TB, rounded. -/
def psTicks (p : Nat) : Nat := (p + 5000) / 10000

/-- A change of set needs a relock (R845). -/
def State.relockNeeded (s : State) (a b : Nat) : Bool :=
  s.setF a 0x28 1 != s.setF b 0x28 1 || s.setF a 0x2A 2 != s.setF b 0x2A 2 || s.setF a 0x2C 1 != s.setF b 0x2C 1 ||
  s.setF a 0x14 2 != s.setF b 0x14 2
/-- Video is scanned: ON with a video-mode set. -/
def State.dispVideo (s : State) : Bool :=
  s.disp.st == 2 && (match s.disp.active with | some k => !s.setCmd k | none => false)

/-- Frame starts that DISP publishes, in ps, with their sets: the frame in progress, and two more unless a relock is
ahead (R841, R846). -/
def State.frameStarts (s : State) : List (Nat × Nat) :=
  match s.disp.frameAt, s.disp.active with
  | some f, some k =>
    if !s.dispVideo then []
    else
      let e := f + s.framePs k
      match s.disp.staged with
      | some g => if s.relockNeeded k g || s.setCmd g then [(f, k)] else [(f, k), (e, g), (e + s.framePs g, g)]
      | none => [(f, k), (e, k), (e + s.framePs k, k)]
  | _, _ => []
/-- T0 of each, on TB. -/
def State.dispT0s (s : State) : List Nat := s.frameStarts.map (fun e => psTicks (e.1 + s.toActivePs e.2))

/-! ## Entries in Q96 (R850) -/

/-- An entry; it is discarded where Q96 has no credit. -/
def State.dispEntry (s : State) (kind slot status tag flags : Nat) : State :=
  if !s.qEn 96 || s.credits 96 = 0 then s.bump Blk.disp 8
  else s.devicePush 96 (entry64 (leBytes 1 kind ++ leBytes 1 slot ++ leBytes 2 status ++ leBytes 4 tag ++
    leBytes 8 s.tbNow ++ leBytes 4 s.disp.fcount ++ leBytes 2 flags))
def State.regionEntry (s : State) (slot status tag : Nat) (missed : Bool) : State :=
  (s.bump Blk.disp 6).dispEntry 0 slot status tag (b2n missed)
def State.timingEntry (s : State) (set status : Nat) (relocked : Bool) : State :=
  (s.bump Blk.disp 5).dispEntry 1 set status 0 (2 * b2n relocked)

/-! ## PLL_PIX and the start of a timing -/

/-- The Foreman moves PIX to XHF and writes the set's settings (R845). -/
def State.pixLeave (s : State) (t : Nat) : State :=
  let s1 := (s.seqMove 3 1).setReady 7 false
  (s1.setReg Blk.clk 0x108 (at_ (s.setF t 0x28 1) 16 7 ||| at_ (s.setF t 0x2A 2) 0 16)).setReg Blk.clk 0x10C
    (at_ (s.setF t 0x2C 1) 0 6)
/-- PLL_PIX is READY and PIX runs from it. -/
def State.pixReturn (s : State) : State := (s.setReady 7 true).seqMove 3 7

/-- Step 6 of R833: the committed set is started. -/
def State.startTiming (s : State) : State :=
  match (match s.disp.staged with | some k => some k | none => s.disp.active) with
  | none => s
  | some k =>
    let s1 := (s.pixLeave k).pixReturn
    let due := s.disp.staged
    let s2 := { s1 with disp := { s1.disp with active := some k, staged := none, frameAt := none, commitDue := due } }
    if s.setCmd k then
      match due with
      | some g => ({ s2 with disp.commitDue := none }).timingEntry g rDone false
      | none => s2
    else s2

/-! ## DISP_TIMING (R843, R844, R856) -/

/-- Fields of a STORE. -/
def State.storeFields (s : State) (m : Nat) : List (Nat × Nat × Bool) :=
  let q := fun o n => s.rq m o n
  let rng := fun v lo hi => decide (lo ≤ v ∧ v ≤ hi)
  let ni := q 0x28 1
  let nf := q 0x2A 2
  let post := q 0x2C 1
  let line := lineFrac (q 0x18 2 + q 0x1A 2 + q 0x1C 2 + q 0x1E 2) ni nf post
  let pix := ni < 128 && pixInRange ni nf post
  [(0x12, 1, q 0x12 1 < 3), (0x13, 1, rng (q 0x13 1) 1 4),
   (0x14, 2, rng (q 0x14 2) 80 2500 && (!pix || linkCheck (q 0x13 1) (q 0x14 2) (q 0x18 2) line)),
   (0x16, 1, q 0x16 1 < 2), (0x17, 1, q 0x17 1 < 4), (0x18, 2, rng (q 0x18 2) 16 2560), (0x1A, 2, rng (q 0x1A 2) 1 1023),
   (0x1C, 2, rng (q 0x1C 2) 1 1023), (0x1E, 2, rng (q 0x1E 2) 1 1023), (0x20, 2, rng (q 0x20 2) 16 1600),
   (0x22, 2, rng (q 0x22 2) 1 255), (0x24, 2, rng (q 0x24 2) 1 63), (0x26, 2, rng (q 0x26 2) 1 255),
   (0x28, 1, pix), (0x2A, 2, true), (0x2C, 1, post < 64), (0x30, 4, q 0x30 4 < 2 ^ 24)]
def State.storeSet (s : State) (m t : Nat) : State :=
  if s.disp.active = some t ∨ s.disp.staged = some t ∨ s.disp.relock = some t then s.refuse m rStateConflict 1
  else
    let s1 := (List.range 9).foldl (fun s i =>
      s.setReg Blk.disp (0x200 + 0x40 * t + 4 * i) (BitVec.ofNat 32 (s.rq m (0x12 + 4 * i) (min 4 (34 - 4 * i))))) s
    ({ s1 with disp.stored := s1.disp.stored ||| BitVec.ofNat 4 (2 ^ t) }).replyDone m

/-- COMMIT (R844, R862). -/
def State.commitSet (s : State) (m t : Nat) : State :=
  if !s.disp.stored.toNat.testBit t then s.refuse m rStateConflict 2
  else if s.disp.staged = some t ∨ (s.disp.staged = none ∧ s.disp.active = some t ∧ s.disp.relock = none) then
    s.refuse m rAlreadyDone 0
  else
    let s1 := match s.disp.staged with
      | some k => s.timingEntry k rSuperseded false
      | none => s
    ({ s1 with disp.staged := some t }).replyDone m

/-- A pin or none. -/
def gpioOk (v : Nat) : Bool := v < 24 || v == 0xFF
/-- PANEL_ON begins: step 1 of R833. -/
def State.panelOn (s : State) (m : Nat) : State :=
  let q := fun o n => s.rq m o n
  let owner := q 0x12 1
  if s.disp.st = 1 ∨ s.disp.st = 2 then s.refuse m rAlreadyDone 0
  else if s.disp.st ≠ 0 ∨ (s.disp.staged.isNone ∧ s.disp.active.isNone) then s.refuse m rStateConflict 2
  else if s.aon.pwr < 2 then s.refuse m rStateConflict 3
  else
    let s1 := s.queueEnable 96 owner
    ({ s1 with disp := { s1.disp with
        st := 1, owner := owner, pwrGpio := q 0x13 1, rstGpio := q 0x14 1, teGpio := q 0x15 1, tPwr := q 0x16 1
        tRst := q 0x17 1, initBase := q 0x18 4, initLen := q 0x1C 1, pwrHigh := true, rstHigh := false, lanes := 0
        step := 0, initIdx := 0, initBad := none, stepAt := s.clk.now, wait := q 0x16 1 } }).replyDone m
/-- Entries of held region updates and of a staged commit end with STATE_CONFLICT (R867). -/
def State.dropStaged (s : State) : State :=
  let s1 := match s.disp.staged with
    | some k => ({ s with disp.staged := none }).timingEntry k rStateConflict false
    | none => s
  let s2 := (List.range 16).foldl (fun s i =>
    let x := s.regionSlot i
    let end1 := fun (s : State) (u : Option Update) => match u with
      | some v => s.regionEntry i rStateConflict v.tag false
      | none => s
    end1 (end1 (s.setRegionSlot i { x with queued := none, pending := none }) x.queued) x.pending) s1
  { s2 with disp.order := [] }
/-- PANEL_OFF begins (R834, R867). -/
def State.panelOff (s : State) (m : Nat) : State :=
  if s.disp.st = 0 ∨ s.disp.st = 3 then s.refuse m rAlreadyDone 0
  else if s.disp.st ≠ 2 then s.refuse m rStateConflict 2
  else
    let s1 := s.dropStaged
    ({ s1 with disp := { s1.disp with st := 3, step := 0, stepAt := s.clk.now, wait := 0 } }).replyDone m

/-- DISP_TIMING (R843, R844, R856). -/
def execDispTiming (m : MbId) (s : State) : Host.Outcome State Fault Refusal :=
  let q := fun o n => s.rq m.val o n
  let act := q 0x10 1
  let t := q 0x11 1
  let head : List (Nat × Nat × Bool) := [(0x10, 1, act < 5), (0x11, 1, t < 4)]
  let owner := q 0x12 1
  let fields : List (Nat × Nat × Bool) := match act with
    | 0 => s.storeFields m.val
    | 2 => [(0x12, 1, s.ctxOpen owner || owner == 0xFF), (0x13, 1, gpioOk (q 0x13 1)), (0x14, 1, gpioOk (q 0x14 1)),
        (0x15, 1, gpioOk (q 0x15 1)), (0x16, 1, true), (0x17, 1, true),
        (0x18, 4, q 0x18 4 % 64 == 0 && ingotRange (q 0x18 4) (64 * q 0x1C 1)), (0x1C, 1, q 0x1C 1 ≤ 64)]
    | 4 => [(0x12, 1, q 0x12 1 < 3), (0x14, 2, true)]
    | _ => []
  let span := match act with | 0 => 36 | 1 => 2 | 2 => 13 | 4 => 6 | _ => 1
  done s (s.request m.val 0x0611 span (head ++ fields) (fun s =>
    match act with
    | 0 => s.storeSet m.val t
    | 1 => s.commitSet m.val t
    | 2 => s.panelOn m.val
    | 3 => s.panelOff m.val
    | _ => ({ s with disp.stagedSource := some (q 0x12 1, q 0x14 2) }).replyDone m.val))

/-! ## Panel sequences (R833 to R835) -/

def State.dcs (s : State) (l : List Byte) : State := { s with disp.sent := s.disp.sent ++ [l] }
/-- The next step, which waits w ms from now. -/
def State.dispNext (s : State) (step w : Nat) : State :=
  { s with disp.step := step, disp.stepAt := s.clk.now, disp.wait := w }
def State.dispWaited (s : State) : Bool := decide (s.disp.stepAt + s.disp.wait * tbMs ≤ s.clk.now)
/-- An entry of the init list keeps its rules (R835). -/
def initOk (d : List Byte) : Bool :=
  let kind := bytesAt d 0 1
  let len := bytesAt d 1 1
  (kind == 0x05 || kind == 0x15 || kind == 0x39) && 1 ≤ len && len ≤ 60 && bytesAt d 3 1 == 0 &&
  (kind != 0x05 || len == 1) && (kind != 0x15 || len == 2) && (d.drop (4 + len)).all (fun b => b == 0)

/-- PANEL_ON_STEP (R833, R835). -/
def execPanelOnStep (s : State) : Host.Outcome State Fault Refusal :=
  done s (if s.disp.st ≠ 1 ∨ !s.dispWaited ∨ s.frozen then s
    else match s.disp.step with
    | 0 => ({ s with disp.lanes := 1 }).dispNext 1 1
    | 1 => ({ s with disp.rstHigh := true }).dispNext 2 s.disp.tRst
    | 2 =>
      if s.disp.initIdx < s.disp.initLen then
        let (d, bad, s1) := s.demandRead Config.mForeman (s.disp.initBase + 64 * s.disp.initIdx) 64
        if bad || !initOk d then
          ({ s1 with disp.st := 3, disp.initBad := some s.disp.initIdx }).dispNext 0 0
        else
          ({ s1.dcs ((d.drop 4).take (bytesAt d 1 1)) with disp.initIdx := s.disp.initIdx + 1 }).dispNext 2 (bytesAt d 2 1)
      else (s.dcs [0x11]).dispNext 3 120
    | _ =>
      let s1 := ((s.dcs [0x29]).startTiming).dispNext 0 0
      ({ s1 with disp.st := 2 }).dispEntry 2 0 rDone 0 0)

/-- A region update is on the link. -/
def State.regionBusy (s : State) : Option Nat := lowest 16 (fun i => (s.regionSlot i).running.isSome)
/-- What PANEL_OFF waits for has ended: the video frame in progress, the running update. -/
def State.scanEnded (s : State) : Bool :=
  s.regionBusy.isNone &&
  (match s.disp.frameAt, s.disp.active with
   | some f, some k => decide (f + s.framePs k ≤ s.nowPs)
   | _, _ => true)
/-- PANEL_OFF_STEP (R834, R835). -/
def execPanelOffStep (s : State) : Host.Outcome State Fault Refusal :=
  done s (if s.disp.st ≠ 3 ∨ !s.dispWaited ∨ s.frozen then s
    else match s.disp.step with
    | 0 =>
      if !s.scanEnded then s
      else ((({ s with disp.lanes := 1, disp.frameAt := none, disp.relock := none }).dcs [0x28]).dcs [0x10]).dispNext 1 120
    | 1 => ({ s with disp.rstHigh := false }).dispNext 2 1
    | _ =>
      let s1 := { s with disp.pwrHigh := false, disp.lanes := 0, disp.st := 0, disp.initBad := none }
      match s.disp.initBad with
      | some i => s1.dispEntry 2 0 rBadArgument i 0
      | none => s1.dispEntry 2 0 rDone 0 0)

/-! ## Frames (R836, R839 to R846) -/

/-- Output size of the FSU. -/
def upNum (u : Nat) : Nat := if u = 1 then 3 else u
def upDen (u : Nat) : Nat := if u = 1 then 2 else 1
def State.fsuUp (s : State) : Nat := s.fsuCfg 0x14 1
def State.fsuW (s : State) : Nat := s.fsuCfg 0x18 2
def State.fsuH (s : State) : Nat := s.fsuCfg 0x1A 2
def State.fsuOutW (s : State) : Nat := s.fsuW * upNum s.fsuUp / upDen s.fsuUp
def State.fsuOutH (s : State) : Nat := s.fsuH * upNum s.fsuUp / upDen s.fsuUp
def State.fsuStride (s : State) : Nat := 64 * s.fsuCfg 0x28 2
def State.fsuBuf (s : State) (k : Nat) : Nat := s.fsuCfg 0x20 4 + s.fsuCfg 0x24 4 * (k % max 1 (s.fsuCfg 0x1F 1))

/-- A frame of set k starts at an instant in ps: the staged source is applied, the frame's source chosen. -/
def State.beginFrame (s : State) (k ps : Nat) (relocked : Bool) : State :=
  let s1 := match s.disp.stagedSource with
    | some (src, stride) => { s with disp.source := src, disp.stride64 := stride, disp.stagedSource := none }
    | none => s
  let flip := (s1.reg Blk.disp 0x16C).toNat / 64 * 64
  let scan : ScanSrc := if s1.disp.source = 1 then .plane flip (64 * s1.disp.stride64) else .fill
  let d : Disp := { s1.disp with
    active := some k, frameAt := some ps, fcount := (s1.disp.fcount + 1) % 2 ^ 32, scan := scan, underflowed := false
    line := 0, lanes := 2, commitDue := none }
  let s2 := ({ s1 with disp := d }).bump Blk.disp 2
  let s3 := match s.disp.commitDue with
    | some g => s2.timingEntry g rDone relocked
    | none => s2
  match s.disp.stagedSource with
  | some (src, _) => s3.dispEntry 3 src rDone 0 0
  | none => s3

/-- The staged set is applied: at once, or by a relock (R844, R845). `ps` is the vertical sync. -/
def State.applyStaged (s : State) (old k ps : Nat) : State :=
  let s1 := { s with disp.staged := none, disp.commitDue := some k }
  if s.relockNeeded old k then
    let s2 := s1.pixLeave k
    { s2 with disp := { s2.disp with
        relock := some k, relockOld := some old, relockAt := s.clk.now, frameAt := none, lanes := 1 } }
  else if s.setCmd k then
    ({ s1 with disp.active := some k, disp.frameAt := none, disp.commitDue := none, disp.lanes := 1 }).timingEntry k rDone false
  else s1.beginFrame k ps false

/-- FRAME_START (R836, R839, R844): the vertical sync. In command mode a staged set is applied while the link is idle. -/
def execFrameStart (s : State) : Host.Outcome State Fault Refusal :=
  done s (if s.disp.st ≠ 2 ∨ s.disp.relock.isSome ∨ s.frozen ∨ s.isHalted Blk.disp then s
    else match s.disp.active with
    | none => s
    | some k =>
      if s.setCmd k then
        match s.disp.staged with
        | some g => if s.regionBusy.isNone then s.applyStaged k g s.nowPs else s
        | none => s
      else
        let at0 := match s.disp.frameAt with | some f => f + s.framePs k | none => s.nowPs
        if s.nowPs < at0 then s
        else match s.disp.staged with
        | some g => if s.disp.frameAt.isNone then s.beginFrame k at0 false else s.applyStaged k g at0
        | none => s.beginFrame k at0 false)

/-- RELOCK_COMPLETE (R845): `locked` tells whether the PLLs are READY. -/
def execRelockComplete (locked : Bool) (s : State) : Host.Outcome State Fault Refusal :=
  done s (match s.disp.relock with
    | none => s
    | some k =>
      if s.frozen then s
      else if locked then
        let s1 := { s.pixReturn with disp.relock := none, disp.relockOld := none, disp.active := some k }
        if s.setCmd k then ({ s1 with disp.commitDue := none }).timingEntry k rDone true else s1.beginFrame k s.nowPs true
      else if s.nowPs < s.disp.relockAt * 10000 + 2 * s.framePs k then s
      else
        let s1 := { s with disp.relock := none, disp.relockOld := none, disp.commitDue := none }
        let s2 := match s.disp.relockOld with
          | some g =>
            let s2 := (s1.pixLeave g).pixReturn
            if s.setCmd g then s2 else s2.beginFrame g s.nowPs false
          | none => s1
        s2.timingEntry k rTimeout false)

/-- The decision of R840 at the first fetch of line 0. -/
def State.chooseFsu (s : State) (k t0 : Nat) : State :=
  let fits := s.fsuOutW == s.setHact k && s.fsuOutH == s.setVact k
  let own := match s.fsu.build with
    | some b => if b.t0 = t0 then some (s.fsuBuf b.k) else none
    | none => match s.fsu.lastOut with
      | some (_, t, a) => if t = t0 then some a else none
      | none => none
  match own with
  | some a =>
    if fits then { s with disp.scan := .plane a s.fsuStride } else { s.bump Blk.disp 4 with disp.scan := .fill }
  | none =>
    let s1 := s.bump Blk.disp 4
    match s.fsu.lastOut with
    | some (_, _, a) => if fits then { s1 with disp.scan := .plane a s.fsuStride } else { s1 with disp.scan := .fill }
    | none => { s1 with disp.scan := .fill }

/-- Reads bytes for DISP word by word: each word's bytes and whether it was poisoned; none from the first access that
fails its region or decode check. -/
def State.fetchWords (s : State) (m ctx : Nat) : Nat → Nat → Nat → Option (List (List Byte × Bool)) × State
  | 0, _, _ => (some [], s)
  | fuel + 1, a, len =>
    if len = 0 then (some [], s)
    else
      let n := min len (8 - a % 8)
      let (d, acc, s1) := s.readMem m .ordinary ctx a n
      if acc = .decode ∨ acc = .rights then (none, s1)
      else
        let (r, s2) := State.fetchWords s1 m ctx fuel (a + n) (len - n)
        (r.map (fun l => (d, acc == .poison) :: l), s2)
def State.fetchBytes (s : State) (m ctx a len : Nat) : Option (List (Byte × Bool)) × State :=
  let (r, s1) := s.fetchWords m ctx (len / 8 + 2) a len
  (r.map (fun l => l.flatMap (fun w => w.1.map (fun b => (b, w.2)))), s1)

def State.fillPixel (s : State) (k : Nat) : List Byte :=
  let v := s.setF k 0x30 4
  [BitVec.ofNat 8 (v / 65536), BitVec.ofNat 8 (v / 256), BitVec.ofNat 8 v]
/-- Pixels of a line from fetched bytes, FILL where a byte was poisoned or came too late; and how many are FILL. -/
def linePixels (fill : List Byte) (l : List (Byte × Bool)) (hact fetched : Nat) : List Byte × Nat :=
  let px := (List.range hact).map (fun x =>
    let p := (l.drop (3 * x)).take 3
    if fetched ≤ x || p.any (fun b => b.2) then none else some (p.map (fun b => b.1)))
  (px.flatMap (fun p => p.getD fill), (px.filter (fun p => p.isNone)).length)
/-- Class C for the owner of the display. -/
def State.dispFault (s : State) : State := if s.disp.owner < 32 then s.teardown s.disp.owner stWindow else s

/-- LINE_START (R838, R840, R842, R869): the next active line is scanned out; `fetched` pixels of it came in time. -/
def execLineStart (fetched : Nat) (s : State) : Host.Outcome State Fault Refusal :=
  done s (match s.disp.frameAt, s.disp.active with
    | some f, some k =>
      let y := s.disp.line
      if !s.dispVideo || s.setVact k ≤ y || s.nowPs < f + s.toActivePs k + s.linesPs k y || s.frozen || s.isHalted Blk.disp then s
      else
        let hact := s.setHact k
        let fill := s.fillPixel k
        let s0 := if y = 0 ∧ s.disp.source = 2 then s.chooseFsu k (psTicks (f + s.toActivePs k)) else s
        let blank := (List.replicate hact fill).flatten
        match s0.disp.scan with
        | .fill => { s0 with disp.line := y + 1, disp.out := blank }
        | .plane a stride =>
          match s0.fetchBytes Config.mDisp (s.disp.owner % 32) (a + y * stride) (3 * hact) with
          | (none, s1) => ({ s1 with disp.line := y + 1, disp.out := blank, disp.scan := .fill }).dispFault
          | (some l, s1) =>
            let (px, n) := linePixels fill l hact fetched
            let s2 := { s1 with disp.line := y + 1, disp.out := px }
            if n ≠ 0 ∧ !s2.disp.underflowed then
              { s2.bumpInfo Blk.disp 3 0x170 (at_ y 16 16 ||| at_ n 0 16) with disp.underflowed := true }
            else s2
    | _, _ => s)

/-- A write of DISP_FLIP (R839, R865). -/
def State.flipWrite (s : State) (v : Word) : State := s.setReg Blk.disp 0x16C (v &&& 0xFFFFFFC0)
/-- DISP_FLIP_WRITE (R839). -/
def execDispFlipWrite (v : Word) (s : State) : Host.Outcome State Fault Refusal := done s (s.flipWrite v)

/-! ## Region updates (R847 to R849, R857) -/

/-- DISP_REGION (R848, R857). -/
def execDispRegion (m : MbId) (s : State) : Host.Outcome State Fault Refusal :=
  let q := fun o n => s.rq m.val o n
  let i := q 0x10 1
  done s (s.request m.val 0x0612 20 [(0x10, 1, i < 16), (0x12, 2, true), (0x14, 2, true), (0x16, 2, 1 ≤ q 0x16 2),
      (0x18, 2, 1 ≤ q 0x18 2), (0x1A, 2, true),
      (0x1C, 4, q 0x1C 4 % 64 == 0 && ingotRange (q 0x1C 4) ((q 0x18 2 - 1) * 64 * q 0x1A 2 + 3 * q 0x16 2)), (0x20, 4, true)]
    (fun s =>
      match s.disp.active with
      | none => s.refuse m.val rStateConflict 1
      | some k =>
        let u : Update := { x := q 0x12 2, y := q 0x14 2, w := q 0x16 2, h := q 0x18 2, stride64 := q 0x1A 2, src := q 0x1C 4
                            tag := q 0x20 4 }
        let x := s.regionSlot i
        let answer := fun (s : State) (r : Nat) (old : Option Nat) =>
          s.replyDone m.val (leBytes 1 r ++ (match old with | some t => leBytes 3 0 ++ leBytes 4 t | none => []))
        if s.disp.st ≠ 2 ∨ !s.setCmd k ∨ s.disp.relock.isSome then s.refuse m.val rStateConflict 1
        else if s.setHact k < u.x + u.w then s.refuse m.val rBadArgument 0x12
        else if s.setVact k < u.y + u.h then s.refuse m.val rBadArgument 0x14
        else if x.running.isSome then
          match x.pending with
          | some v => answer ((s.setRegionSlot i { x with pending := some u }).regionEntry i rSuperseded v.tag false) 2 (some v.tag)
          | none => answer (s.setRegionSlot i { x with pending := some u }) 1 none
        else match x.queued with
        | some v => answer ((s.setRegionSlot i { x with queued := some u }).regionEntry i rSuperseded v.tag false) 2 (some v.tag)
        | none =>
          let s1 := s.setRegionSlot i { x with queued := some u }
          let s2 := if s.disp.order = [] ∧ s.regionBusy.isNone then { s1 with disp.readyAt := s.clk.now } else s1
          answer { s2 with disp.order := s.disp.order ++ [i] } 0 none))

/-- DCS address packets of a rectangle: the command, then first and last, each high byte first. -/
def addressPacket (cmd a n : Nat) : List Byte :=
  BitVec.ofNat 8 cmd :: ((leBytes 2 a).reverse ++ (leBytes 2 (a + n - 1)).reverse)
/-- The update at the head of the link starts: its commit point (R847). -/
def State.startUpdate (s : State) (missed : Bool) : State :=
  match s.disp.order with
  | [] => s
  | i :: rest =>
    let x := s.regionSlot i
    match x.queued with
    | none => { s with disp.order := rest }
    | some u =>
      let s1 := s.setRegionSlot i { x with queued := none, running := some { u with teMissed := missed } }
      { s1 with disp := { s1.disp with
          order := rest, lanes := 2
          sent := s1.disp.sent ++ [addressPacket 0x2A u.x u.w, addressPacket 0x2B u.y u.h] } }
/-- The link may start an update: ON in command mode, idle, one is queued. -/
def State.linkReady (s : State) : Bool :=
  s.disp.st == 2 && !s.dispVideo && s.disp.relock.isNone && s.regionBusy.isNone && s.disp.order != [] && !s.frozen &&
  !s.isHalted Blk.disp

/-- REGION_UPDATE_START (R849, R863, R864): `te` tells a rising edge of TE_GPIO. -/
def execRegionUpdateStart (te : Bool) (s : State) : Host.Outcome State Fault Refusal :=
  let edge := te && s.disp.teGpio != 0xFF
  let s1 := if edge && (s.regionBusy.isSome || s.linkReady) then { s with disp.teSince := true } else s
  done s (if s1.linkReady && (s1.disp.teGpio == 0xFF || s1.disp.teSince) then s1.startUpdate false else s1)

/-- TE_TIMEOUT (R849): ready for 100 ms without an edge. -/
def execTeTimeout (s : State) : Host.Outcome State Fault Refusal :=
  done s (if s.linkReady && s.disp.teGpio != 0xFF && !s.disp.teSince && decide (s.disp.readyAt + 100 * tbMs ≤ s.clk.now) then
      (s.startUpdate true).bump Blk.disp 7
    else s)

/-- Lines of an update as they are sent: none when a read fails its check. -/
def State.updateLines (s : State) (k : Nat) (u : Update) : Nat → Option (List (List Byte)) × State
  | 0 => (some [], s)
  | n + 1 =>
    let (r, s1) := State.updateLines s k u n
    match r with
    | none => (none, s1)
    | some ls =>
      match s1.fetchBytes Config.mDisp (s.disp.owner % 32) (u.src + n * 64 * u.stride64) (3 * u.w) with
      | (none, s2) => (none, s2)
      | (some l, s2) => (some (ls ++ [BitVec.ofNat 8 (if n = 0 then 0x2C else 0x3C) :: (linePixels (s.fillPixel k) l u.w u.w).1]), s2)

/-- REGION_UPDATE_END (R848, R869): the running update's lines have been sent. -/
def execRegionUpdateEnd (s : State) : Host.Outcome State Fault Refusal :=
  done s (match s.regionBusy, s.disp.active with
    | some i, some k =>
      let x := s.regionSlot i
      (match x.running with
       | none => s
       | some u =>
         if s.frozen || s.isHalted Blk.disp then s
         else
           let (r, s1) := s.updateLines k u u.h
           let order := if x.pending.isSome then s1.disp.order ++ [i] else s1.disp.order
           let s2 := s1.setRegionSlot i { queued := x.pending, running := none, pending := none }
           let d : Disp := { s2.disp with
             order := order, lanes := 1, sent := s2.disp.sent ++ r.getD [], readyAt := s.clk.now
             teSince := s2.disp.teSince && order != [] }
           let s3 := { s2 with disp := d }
           if r.isSome then s3.regionEntry i rDone u.tag u.teMissed
           else (s3.regionEntry i rStateConflict u.tag u.teMissed).dispFault)
    | _, _ => s)

/-! ## Egress rings (R851 to R855, R858) -/

/-- Line length and height of a source. -/
def State.egSource (s : State) (kind index : Nat) : Nat × Nat :=
  if kind = 0 then (3 * s.fsuOutW, s.fsuOutH)
  else if (s.slot index).configured then (s.slotLine index, s.slotCfg index 0x1A 2) else (0, 0)
def egListMask : Nat := 0x4000

/-- EGRESS_RING ACTION 0. -/
def State.egConfigure (s : State) (m : Nat) : State :=
  let q := fun o n => s.rq m o n
  let e := q 0x10 1
  let owner := q 0x12 1
  let nb := q 0x17 1
  let list := q 0x18 4
  let (w, h) := s.egSource (q 0x13 1) (q 0x14 1)
  let rng := fun v lo hi => decide (lo ≤ v ∧ v ≤ hi)
  let shared := (List.range 8).any (fun i => i != e && (s.egress i).st != 0 && s.egCfg i 0x16 1 == q 0x16 1 && s.egOwner i != owner)
  if (s.egress e).st = 2 then s.refuse m rStateConflict 1
  else match badField [(0x12, s.ctxOpen owner || owner == 0xFF), (0x13, q 0x13 1 < 2),
      (0x14, if q 0x13 1 = 1 then q 0x14 1 < 48 else true), (0x15, rng (q 0x15 1) 1 16),
      (0x16, rng (q 0x16 1) 97 99 && !shared), (0x17, rng nb 2 64), (0x18, list % 16 == 0 && ingotRange list (16 * nb)),
      (0x1C, rng (q 0x1C 4) 1 w), (0x20, rng (q 0x20 2) 1 h)] with
  | some o => s.refuse m rBadArgument o
  | none =>
    let (d, bad, s1) := s.demandRead Config.mForeman list (16 * nb)
    let ok := (List.range nb).all (fun i =>
      bytesAt d (16 * i) 8 % 64 == 0 && q 0x1C 4 * q 0x20 2 ≤ bytesAt d (16 * i + 8) 4 && bytesAt d (16 * i + 12) 4 == 0)
    if bad || !ok then s1.refuse m rBadArgument 0x18
    else
      let s2 := if (s1.egress e).st = 1 then s1.egressClear e else s1
      match s2.cover list (16 * nb) 1 (ownerId owner) egListMask 0 0 with
      | none => s2.refuse m rNoResource 0
      | some s3 =>
        let s4 := (List.range 8).foldl (fun s k =>
          s.setReg Blk.disp (0x1010 + 0x40 * e + 4 * k) (BitVec.ofNat 32 (s.rq m (0x12 + 4 * k) 4))) s3
        let s5 := if s4.qEn (q 0x16 1) then s4 else s4.queueEnable (q 0x16 1) owner
        (s5.setEgress e { st := 1 }).replyDone m

/-- EGRESS_RING (R858). -/
def execEgressRing (m : MbId) (s : State) : Host.Outcome State Fault Refusal :=
  let q := fun o n => s.rq m.val o n
  let e := q 0x10 1
  let act := q 0x11 1
  let rest : List (Nat × Nat × Bool) := if act = 0 then
      [(0x12, 1, true), (0x13, 1, true), (0x14, 1, true), (0x15, 1, true), (0x16, 1, true), (0x17, 1, true), (0x18, 4, true),
       (0x1C, 4, true), (0x20, 2, true)] else []
  done s (s.request m.val 0x0613 (if act = 0 then 18 else 2) ((0x10, 1, decide (e < 8)) :: (0x11, 1, decide (act < 4)) :: rest) (fun s =>
    let x := s.egress e
    match act with
    | 0 => s.egConfigure m.val
    | 1 =>
      if x.st = 2 then s.refuse m.val rAlreadyDone 0
      else if x.st = 0 then s.refuse m.val rStateConflict 1
      else if s.aon.pwr < 2 then s.refuse m.val rStateConflict 2
      else (s.setEgress e { x with st := 2, seen := 0, frames := [] }).replyDone m.val
    | 2 =>
      if x.st ≠ 2 then s.refuse m.val (if x.st = 1 then rAlreadyDone else rStateConflict) (if x.st = 1 then 0 else 1)
      else if x.stopping.isSome then s.refuse m.val rBusy 0
      else if x.copy.isSome then (s.setEgress e { x with stopping := some m.val, frames := [] }).await m.val
      else (s.setEgress e { x with st := 1, frames := [] }).replyDone m.val
    | _ =>
      if x.st = 0 then s.refuse m.val rAlreadyDone 0
      else if x.st = 2 then s.refuse m.val rStateConflict 1
      else (s.egressClear e).replyDone m.val))

/-- Buffers in use (R852). -/
def State.egInUse (s : State) (e : Nat) : Nat :=
  ((s.egress e).written + 65536 - fld (s.reg Blk.disp (0x1008 + 0x40 * e)) 0 16) % 65536
/-- A taken frame is dropped. -/
def State.egDrop (s : State) (e : Nat) : State :=
  let x := s.egress e
  (s.setEgress e { x with drops := (x.drops + 1) % 65536, droppedBefore := min 65535 (x.droppedBefore + 1) }).bump Blk.disp 10
/-- The link can take writes of PF0. -/
def State.hostLink (s : State) : Bool := s.bus.linkUp && tget s.bus.busMaster 0
/-- The ring's list fails: it stops, Class C of its owner (R869). -/
def State.egFail (s : State) (e st : Nat) : State :=
  let x := s.egress e
  let s1 := (s.setEgress e { x with st := 1, copy := none, frames := [], stopping := none }).bump Blk.disp 11
  let s2 := match x.stopping with | some m => s1.replyDone m | none => s1
  if s.egOwner e < 32 then s2.teardown (s.egOwner e) st else s2

/-- EGRESS_FRAME_TAKE (R851, R852, R855, R866): the oldest source frame of ring e. -/
def execEgressFrameTake (e : Fin 8) (s : State) : Host.Outcome State Fault Refusal :=
  let x := s.egress e.val
  done s (match x.frames with
    | [] => s
    | (seq, addr, stride, time) :: t =>
      if x.st ≠ 2 ∨ x.copy.isSome ∨ s.frozen ∨ s.isHalted Blk.disp then s
      else
        let s1 := s.setEgress e.val { x with frames := t, seen := x.seen + 1 }
        if x.seen % max 1 (s.egCfg e.val 0x15 1) ≠ 0 then s1
        else if s.egCfg e.val 0x17 1 ≤ s.egInUse e.val || !s.hostLink then s1.egDrop e.val
        else
          let b := x.written % max 1 (s.egCfg e.val 0x17 1)
          let (d, acc, s2) := s1.readMem Config.mEgress .ordinary (s.egOwner e.val % 32) (s.egCfg e.val 0x18 4 + 16 * b) 16
          if acc ≠ .ok then s2.egFail e.val (if acc = .poison then stEcc else stWindow)
          else
            let c : EgCopy := { seq := seq, addr := addr, stride := stride, time := time, buffer := b, host := bytesAt d 0 8 }
            s2.setEgress e.val { s2.egress e.val with copy := some c, incomplete := false })

/-- The lines of a copy, packed; a poisoned or unreadable byte is zero; and whether one was. -/
def State.egLines (s : State) (ctx a stride len : Nat) : Nat → List Byte × Bool × State
  | 0 => ([], false, s)
  | n + 1 =>
    let (l, bad, s1) := State.egLines s ctx a stride len n
    match s1.fetchBytes Config.mEgress ctx (a + n * stride) len with
    | (none, s2) => (l ++ List.replicate len 0, true, s2)
    | (some d, s2) => (l ++ d.map (fun b => if b.2 then 0 else b.1), bad || d.any (fun b => b.2), s2)

/-- EGRESS_COPY_END (R853 to R855): every write of the frame has been issued, or the link was lost during the copy, after
`issued` bytes. The entry waits for a credit of its queue. -/
def execEgressCopyEnd (e : Fin 8) (issued : Nat) (s : State) : Host.Outcome State Fault Refusal :=
  let x := s.egress e.val
  done s (match x.copy with
    | none => s
    | some c =>
      let q := s.egCfg e.val 0x16 1
      if s.frozen || s.isHalted Blk.disp || (s.qEn q && s.credits q == 0) then s
      else
        let len := s.egCfg e.val 0x1C 4
        let (d, bad, s1) := s.egLines (s.egOwner e.val % 32) c.addr c.stride len (s.egCfg e.val 0x20 2)
        let lost := x.incomplete || !s.hostLink
        let out := if lost then d.take issued else d
        let entry := leBytes 2 x.written ++ leBytes 1 e.val ++ leBytes 1 (if bad then 5 else 0) ++ leBytes 2 (b2n lost) ++
          leBytes 2 x.droppedBefore ++ leBytes 4 c.seq ++ leBytes 2 c.buffer ++ leBytes 2 0 ++ leBytes 8 c.time ++
          leBytes 8 s.tbNow ++ leBytes 4 out.length
        let s2 := s1.devicePush q (entry64 entry)
        let y : Egress := { x with
          written := (x.written + 1) % 65536, droppedBefore := 0, copy := none, incomplete := false
          hostOut := [(c.host, out)], stopping := none, st := if x.stopping.isSome then 1 else x.st }
        let s3 := (s2.setEgress e.val y).bump Blk.disp 9
        let s4 := if lost then s3.bump Blk.disp 11 else s3
        match x.stopping with
        | some m => s4.replyDone m
        | none => s4)

/-- A write of EGe_RETURN (R852, R866). -/
def State.egReturn (s : State) (e v : Nat) : State :=
  let o := 0x1008 + 0x40 * e
  let r := fld (s.reg Blk.disp o) 0 16
  if ((s.egress e).written + 65536 - r) % 65536 < (v + 65536 - r) % 65536 then s.bump Blk.disp 11
  else s.setReg Blk.disp o (at_ v 0 16)
/-- EG_RETURN_WRITE (R852, R866). -/
def execEgReturnWrite (e : Fin 8) (v : BitVec 16) (s : State) : Host.Outcome State Fault Refusal :=
  done s (s.egReturn e.val v.toNat)

end Sys2Proof.Machine
end

