-- ==== Sys2Proof/Machine/Sch.lean ====
section
/-! DEFINITION. Sys2Proof/Machine/Sch.lean: the context and flask commands, staging, admission, commit points, the
slice clock and teardown (R482 to R568). -/
namespace Sys2Proof.Machine
open Sys2Proof

/-! ## Staging (R491, R492, R544 to R547) -/

/-- A job from its descriptor (R532). -/
def parseJob (c : Nat) (d : List Byte) (epoch sub : Nat) : Job :=
  { ctx := c, flask := bytesAt d 1 1, jobId := bytesAt d 4 4, barrier := bit (bytesAt d 2 2) 0
    report := bit (bytesAt d 2 2) 1, budget := bytesAt d 8 4, opsBase := bytesAt d 0x10 8, nOps := bytesAt d 0x18 2
    nTensors := bytesAt d 0x1A 2, tensorBase := bytesAt d 0x20 8, scaleBase := bytesAt d 0x28 8
    reportBase := bytesAt d 0x30 8, userTag := bytesAt d 0x40 8
    args := (List.range 8).map (fun i => bytesAt d (0x80 + 8 * i) 8), epoch := epoch, sub := sub }

/-- The condition of R492's third case: c holds entries in the table and none is long enough. -/
def State.budgetMisfits (s : State) (c f budget : Nat) : Bool :=
  let mine := (s.slices f).filter (fun e => e.1 == c)
  mine != [] && mine.all (fun e => e.2 < budget + 8)

/-- Bytes that R532 requires to be zero. -/
def descZero (d : List Byte) : Bool :=
  let z := fun o n => ((d.drop o).take n).all (fun b => b == 0)
  z 0x0C 4 && z 0x1C 4 && z 0x3C 4 && z 0x48 0x38 && z 0xC0 0x40 &&
  (bytesAt d 0x1A 2 != 0 || bytesAt d 0x20 8 == 0) && (bit (bytesAt d 2 2) 1 || bytesAt d 0x30 8 == 0)

/-- The first check of R547 that a descriptor fails, by its CODE. -/
def State.stageCode (s : State) (c : Nat) (d : List Byte) : Option Nat :=
  let j := parseJob c d 0 0
  let adr := fun (a al : Nat) (w : Bool) => a % al == 0 && (a == 0 || s.inWindow c a 1 w)
  if bytesAt d 0 1 ≠ 3 then some 1
  else if !(j.flask < 8 && (s.flask j.flask).built) then some 2
  else if !(10 ≤ j.budget && j.budget ≤ 16777215) then some 3
  else if s.budgetMisfits c j.flask j.budget then some 4
  else if !(descZero d && bytesAt d 2 2 < 4) then some 5
  else if !(1 ≤ j.nOps && j.nOps ≤ 4096 && j.nTensors ≤ 1024) then some 6
  else if !(adr j.opsBase 64 false && adr j.tensorBase 64 false && adr j.scaleBase 64 false &&
      adr j.reportBase 16 true) then some 7
  else if !(bytesAt d 0x38 4 % 16 == 0 && (!j.report || 16 * j.nOps ≤ bytesAt d 0x38 4)) then some 11
  else none

/-- What stands at HEAD of a submission queue: a run of entries before one with FIRST, or a whole packet (R545). -/
def State.headRun (s : State) (q : Nat) : Nat := ((s.queue q).flags.takeWhile (fun e => !e.1)).length
def State.headPacket (s : State) (q : Nat) : Nat :=
  if s.headRun q = 0 ∧ (s.queue q).flags.any (fun e => e.2) then uptoLast (s.queue q).flags else 0

/-- A credit for the record of a job taken from Q(2c) is free beyond the notice reserve (R546). -/
def State.recordCredit (s : State) (c : Nat) : Bool := s.reserved c + 2 ≤ s.credits (qComp c)

/-- The Foreman removes n entries of Q(2c). -/
def State.takeEntries (s : State) (c n : Nat) : State :=
  let s1 := s.qRemove (2 * c) n
  let x := s1.ctx c
  s1.setCtx c { x with flushLeft := x.flushLeft - n }

/-- The Foreman takes what stands at HEAD of Q(2c), as a job to stage or to flush (R491, R545, R547, R558). -/
def State.drain (s : State) (c : Nat) (flush : Bool) : State :=
  let q := 2 * c
  let ep := (s.queue (qComp c)).epoch
  if !s.recordCredit c then s
  else if s.headRun q ≠ 0 then
    let s1 := s.takeEntries c (s.headRun q)
    let j : Job := { ctx := c, flask := 0xFF, jobId := 0xFFFFFFFF, epoch := ep }
    if flush then s1.completeStaged j stFlushed 0 0 else s1.completeStaged j stDescriptor 8 8
  else if s.headPacket q ≠ 0 then
    let n := s.headPacket q
    let (d0, p0, s0) := s.demandRead Config.mForeman (s.qSlot q (s.queue q).head) 64
    let rest := (List.range 3).foldl (fun (a : List Byte × Bool × State) i =>
      if n = 4 then
        let (d, p, t) := a.2.2.demandRead Config.mForeman (s.qSlot q ((s.queue q).head + i + 1)) 64
        (a.1 ++ d, a.2.1 || p, t)
      else a) (d0, p0, s0)
    let d := rest.1
    let s1 := rest.2.2.takeEntries c n
    let x := s1.ctx c
    let j := if n = 4 then parseJob c d ep x.subs
      else { ctx := c, flask := bytesAt d 1 1, jobId := bytesAt d 4 4, epoch := ep : Job }
    if rest.2.1 then (s1.completeStaged j stEcc 0 0).teardown c stEcc
    else if flush then s1.completeStaged j stFlushed 0 0
    else if n ≠ 4 then s1.completeStaged j stDescriptor 8 8
    else match s1.stageCode c d with
      | some code => s1.completeStaged j stDescriptor code 0
      | none => s1.setCtx c { x with staged := x.staged ++ [j], subs := x.subs + 1 }
  else s

/-! ## Closing a context (R285, R514, R565, R671) -/

/-- Queues that QUEUE_CONFIG gave to context c. -/
def State.givenQueues (s : State) (c : Nat) : List Nat :=
  ((List.range 20).map (fun i => 108 + i)).filter (fun q =>
    s.qEn q && s.qOwned q && s.qCtx q == c && (s.queue q).given.isSome)
/-- Disables a queue and releases the entries of its storage. -/
def State.dropQueue (s : State) (q : Nat) : State :=
  (s.uncoverQueue (s.qRing q) (Nat.log2 (s.qDepth q))).queueOff q

/-- Ends a CTX_CLOSE: windows, queues, region entries and the binding are released, then DONE (R285, R671). -/
def State.finishClose (s : State) (c m : Nat) : State :=
  let s1 := (s.givenQueues c).foldl (fun s q => s.dropQueue q) (s.clearWindows c)
  let s2 := (List.range 32).foldl (fun s e =>
    if s.entValid e && s.entKind e == 0 && s.entId e == c then s.clearEntry e else s) s1
  let s3 := (s2.queueOff (2 * c)).queueOff (qComp c)
  let s4 := (List.range 4).foldl (fun s i =>
    let x := s.mb (4 + i)
    if x.bound = some c then s.setMb (4 + i) { x with bound := none } else s) s3
  let s5 := { s4 with
    bus.pf1Ctx := tset s4.bus.pf1Ctx c false
    sch.resetDue := s4.sch.resetDue.filter (fun e => e.1 / 2 != c) }
  (s5.setCtx c { lastStatus := (s5.ctx c).lastStatus }).replyDone m

/-- Continues a CTX_CLOSE in progress: entries in Q(2c) complete as FLUSHED as credits allow; it ends when none is
left and every record is placed. -/
def State.closeStep (s : State) (c : Nat) : Nat → State
  | 0 => s
  | fuel + 1 =>
    match (s.ctx c).closing with
    | none => s
    | some m =>
      if s.headRun (2 * c) = 0 ∧ s.headPacket (2 * c) = 0 then
        if (s.ctx c).heldRecs = [] then s.finishClose c m else s
      else if s.recordCredit c then State.closeStep (s.drain c true) c fuel
      else s

/-! ## Slice clock (R489, R490, R493, R501, R510) -/

/-- LENGTH of entry e in TB ticks. -/
def State.entryLen (s : State) (f e : Nat) : Nat := (((s.slices f)[e]?).getD (0, 0)).2 * tbUs
def State.entryOwner (s : State) (f e : Nat) : Nat := (((s.slices f)[e]?).getD (0, 0)).1

/-- Begins entry e at an instant. -/
def State.beginEntry (s : State) (f e at0 : Nat) : State :=
  s.setFlask f { s.flask f with entry := e, entryFrom := at0, entryEnd := at0 + s.entryLen f e }

/-- Applies a slice table: entry 0 begins, TABLE_SEQ advances, jobs that fit no entry any more complete (R510). -/
def State.applyTable (s : State) (f : Nat) (t : List (Nat × Nat)) (slack : Nat) : State :=
  let s1 := (List.range 16).foldl (fun s e =>
    let w := match t[e]? with
      | some (o, l) => bitAt true 31 ||| at_ o 24 6 ||| at_ l 0 24
      | none => 0
    s.setReg Blk.sch (0x1040 + 0x100 * f + 4 * e) w) s
  let o := 0x1010 + 0x100 * f
  let s2 := s1.setReg Blk.sch o (BitVec.ofNat 32 ((fld (s1.reg Blk.sch o) 0 16 + 1) % 65536))
  let s3 := s2.setFlask f { s2.flask f with n := min 16 t.length, slack := slack, staged := none }
  let s4 := s3.beginEntry f 0 s3.clk.now
  (List.range 32).foldl (fun s c =>
    let x := s.ctx c
    let bad := x.staged.filter (fun j => j.flask == f && s.budgetMisfits c f j.budget)
    bad.foldl (fun s j => s.completeStaged j stDescriptor 4 0)
      (if bad = [] then s else s.setCtx c { x with staged := x.staged.filter (fun j => !bad.contains j) })) s4

/-- Stages a table; it is applied at once when the current table is empty or the device is outside Gale (R510). -/
def State.stageTable (s : State) (f : Nat) (t : List (Nat × Nat)) (slack : Nat) : State :=
  if (s.flask f).n = 0 || s.aon.pwr != 3 then s.applyTable f t slack
  else s.setFlask f { s.flask f with staged := some (t, slack) }

/-- Entries with owner 32 that a later FLASK_SLICES keeps. -/
def State.lentEntries (s : State) (f : Nat) : List (Nat × Nat) :=
  (match (s.flask f).staged with | some (t, _) => t | none => s.slices f).filter (fun e => e.1 == 32)

/-- Disables a regulator: its buckets show LEVEL = BURST and grant every access. -/
def State.regulatorOff (s : State) (r : Nat) : State :=
  (List.range 3).foldl (fun s k =>
    let o := 0x6000 + 0x40 * r + 0x10 * k
    let t := (s.setReg Blk.sch o 0).setReg Blk.sch (o + 4) 0
    { t with sch.used := nset t.sch.used (4 * r + k) 0, sch.held := tset t.sch.held (4 * r + k) false }) s

/-- The oldest staged job of context c for flask f. -/
def State.headJob (s : State) (c f : Nat) : Option Job := (s.ctx c).staged.find? (fun j => j.flask == f)
/-- Admission may take jobs of context c (R203, R514, R768). -/
def State.admits (s : State) (c : Nat) : Bool :=
  s.ctxOpen c && (s.ctx c).closing.isNone && !s.fmn.admitStopped &&
  !s.ckpt.hold
/-- No job is admitted to a flask that holds a halted crucible (R524). -/
def State.flaskHalted (s : State) (f : Nat) : Bool := (s.crucibles f).any (fun n => s.isHalted (Blk.cru0 + n))
/-- Every job submitted before j by its context has committed (R549). -/
def State.barrierOk (s : State) (j : Job) : Bool :=
  !(s.ctx j.ctx).staged.any (fun k => k.sub < j.sub) &&
  (s.ctxFlasks j.ctx).all (fun f => match (s.flask f).running with | some r => j.sub ≤ r.job.sub | none => true)
/-- Time left in the current entry, in TB ticks. -/
def State.entryLeft (s : State) (f : Nat) : Nat := (s.flask f).entryEnd - s.clk.now
/-- The job that the entry's owner offers: the oldest staged job, or the assist job of a lent flask. -/
def State.offered (s : State) (f : Nat) : Option Job :=
  let o := s.entryOwner f (s.flask f).entry
  if o < 32 then (if s.ctxOpen o then s.headJob o f else none) else (s.flask f).assist
/-- BUDGET + 8 µs is at most the time remaining (R493). -/
def State.fits (s : State) (f : Nat) (j : Job) : Bool := (j.budget + 8) * tbUs ≤ s.entryLeft f

/-- A lend whose entry is gone and whose job has ended is over: the area is released and a withdraw answered (R811). -/
def State.lendSettle (s : State) : State :=
  match s.fsu.lent with
  | none => s
  | some f =>
    let x := s.flask f
    let has := fun (l : List (Nat × Nat)) => l.any (fun e => e.1 == 32)
    if has (s.slices f) || (match x.staged with | some (t, _) => has t | none => false) ||
        (match x.running with | some r => r.job.ctx == 32 | none => false) then s
    else
      let s1 := (s.setFlask f { x with assist := none }).release s.fsu.assistBase s.fsu.assistSize 0x0801 0x0801
      let s2 := match s1.sch.withdrawMb with | some m => s1.replyDone m | none => s1
      { s2 with fsu.lent := none, fsu.lentBudget := 0, fsu.assistBase := 0, fsu.assistSize := 0, sch.withdrawMb := none }

/-! ## Context commands -/

/-- CTX_OPEN (R284, R312, R322). -/
def execCtxOpen (m : MbId) (s : State) : Host.Outcome State Fault Refusal :=
  let q := fun o n => s.rq m.val o n
  let base := q 0x18 8
  let sq := q 0x14 1
  let cq := q 0x15 1
  let cqRing := base + 4096 * cdiv (64 * 2 ^ sq + 1024) 4096
  let pf1 := q 0x11 1 == 1
  let mbx := q 0x12 1
  done s (s.request m.val 0x0201 0x10
    [(0x10, 1, q 0x10 1 < 32 || q 0x10 1 == 0xFF), (0x11, 1, q 0x11 1 < 2),
     (0x12, 1, mbx == 0 || (pf1 && 4 ≤ mbx && mbx ≤ 7)), (0x14, 1, 4 ≤ sq && sq ≤ 12), (0x15, 1, 4 ≤ cq && cq ≤ 12),
     (0x18, 8, base % 4096 == 0 && ingotRange cqRing (64 * 2 ^ cq))]
    (fun s =>
      let named := if q 0x10 1 = 0xFF then lowest 32 (fun c => (s.ctx c).st == .closed) else some (q 0x10 1)
      match named with
      | none => s.refuse m.val rNoResource 0
      | some c =>
        if (s.ctx c).st ≠ .closed then s.refuse m.val rStateConflict 0
        else if mbx ≠ 0 ∧ (s.mb mbx).bound.isSome then s.refuse m.val rNoResource 0
        else
          let user := if pf1 then QueueUser.pf1 else .pf0
          match s.coverAreas 0 c (queueAreas base sq true [user, .jobs] [.device] ++
              queueAreas cqRing cq false [] [user]) with
          | none => s.refuse m.val rNoResource 0
          | some s1 =>
            let s2 := s1.queueOn (2 * c) base sq (some c) 0 false
            let s3 := s2.queueOn (qComp c) cqRing cq (some c) (if pf1 then 0 else 33 + Config.cqVector c % 31) pf1
            let s4 := if mbx = 0 then s3 else s3.setMb mbx { s3.mb mbx with bound := some c }
            let s5 := { s4 with bus.pf1Ctx := tset s4.bus.pf1Ctx c pf1 }
            (s5.setCtx c { st := .opened, lastStatus := (s5.ctx c).lastStatus, pf1 := pf1, queueBase := base }).replyDone
              m.val (leBytes 1 c)))

/-- CTX_CLOSE (R285, R514). -/
def execCtxClose (m : MbId) (s : State) : Host.Outcome State Fault Refusal :=
  let c := s.rq m.val 0x10 1
  done s (s.request m.val 0x0202 1 [(0x10, 1, c < 32)] (fun s =>
    let x := s.ctx c
    if x.st = .closed then s.refuse m.val rAlreadyDone 0
    else if x.closing.isSome then s.refuse m.val rBusy 0
    else if s.ctxFlasks c ≠ [] || x.st = .teardown then s.refuse m.val rStateConflict 1
    else
      let s1 := x.staged.foldl (fun s j => s.completeStaged j stFlushed 0 0)
        (s.setCtx c { x with staged := [], closing := some m.val })
      (s1.await m.val).closeStep c ((s1.queue (2 * c)).occ + 1)))

/-- CTX_REOPEN (R285, R502, R514). -/
def execCtxReopen (m : MbId) (s : State) : Host.Outcome State Fault Refusal :=
  let c := s.rq m.val 0x10 1
  done s (s.request m.val 0x0203 1 [(0x10, 1, c < 32)] (fun s =>
    let x := s.ctx c
    if x.st = .faulted ∧ x.closing = none then
      (s.setCtx c { x with st := .opened, flushLeft := (s.queue (2 * c)).occ }).replyDone m.val
    else s.refuse m.val rStateConflict 2))

/-- A window overlaps a valid window of another context, one of the two granting WRITE (R487). -/
def State.windowClash (s : State) (c base len : Nat) (write : Bool) : Bool :=
  (List.range 32).any (fun d => d != c && (s.ctx d).st != .closed && (List.range 8).any (fun w =>
    s.winValid d w && (write || s.winWrite d w) && s.winLo d w < base + len && base < s.winLo d w + s.winLen d w))

/-- A range that R485 admits: the local hearths, the local ingots, the ingots of a peer in the system. -/
def State.windowRange (s : State) (base len : Nat) : Bool :=
  base < 2 ^ 40 &&
  (if chipOf base = s.bus.chipId then ingotRange (localOf base) len || hearthRange (localOf base) len
   else ingotRange (localOf base) len && chipOf base < s.spr.n && !tget s.spr.lost (chipOf base))

/-- CTX_WINDOW (R508). -/
def execCtxWindow (m : MbId) (s : State) : Host.Outcome State Fault Refusal :=
  let q := fun o n => s.rq m.val o n
  let c := q 0x0C 1
  let base := q 0x18 8
  let set := q 0x11 1 == 0
  done s (s.command m.val 0x0301 (0x14 ≤ s.rqLen m.val && s.rqLen m.val ≤ 240)
    ([(0x0C, decide (c < 32))] ++ s.fieldChecks m.val
      [(0x10, 1, q 0x10 1 < 8), (0x11, 1, q 0x11 1 < 2), (0x12, 1, q 0x12 1 < 4 && (!set || q 0x12 1 != 0)),
       (0x18, 8, !set || (base % 4096 == 0 && s.windowRange base (q 0x20 4 * 4096))),
       (0x20, 4, !set || (1 ≤ q 0x20 4 && q 0x20 4 ≤ 65536))])
    (fun s =>
      let w := q 0x10 1
      let o := winBase c w
      if (s.ctx c).st = .closed || (s.ctx c).st = .teardown then s.refuse m.val rStateConflict 1
      else if set && s.windowClash c base (q 0x20 4 * 4096) (bit (q 0x12 1) 1) then s.refuse m.val rStateConflict 2
      else if s.ctxFlasks c ≠ [] then s.refuse m.val rStateConflict 3
      else if set then
        (((s.setPair Blk.sch o base).setReg Blk.sch (o + 8) (BitVec.ofNat 32 (q 0x20 4))).setReg Blk.sch (o + 12)
          (bitAt true 31 ||| at_ (q 0x12 1 / 2) 1 1 ||| at_ (q 0x12 1) 0 1)).replyDone m.val
      else ((List.range 4).foldl (fun s i => s.setReg Blk.sch (o + 4 * i) 0) s).replyDone m.val))

/-! ## Flask commands -/

/-- FLASK_BUILD (R509). -/
def execFlaskBuild (m : MbId) (s : State) : Host.Outcome State Fault Refusal :=
  let q := fun o n => s.rq m.val o n
  let f := q 0x10 1
  let mask := q 0x18 8
  done s (s.request m.val 0x0302 0x10 [(0x10, 1, f < 8), (0x18, 8, mask != 0 && mask < 2 ^ 48)] (fun s =>
    if (s.flask f).built then s.refuse m.val rStateConflict 1
    else if (List.range 48).any (fun n => bit mask n && (s.flaskOf n).isSome) then s.refuse m.val rStateConflict 2
    else
      let s1 := (List.range 16).foldl (fun s e => s.setReg Blk.sch (0x1040 + 0x100 * f + 4 * e) 0) s
      ((s1.setFlask f { built := true, mask := mask }).regulatorOff f).replyDone m.val))

/-- FLASK_SLICES (R510, R520). -/
def execFlaskSlices (m : MbId) (s : State) : Host.Outcome State Fault Refusal :=
  let q := fun o n => s.rq m.val o n
  let f := q 0x10 1
  let n := q 0x11 1
  let entries := (List.range (min n 16)).map (fun i => (q (0x18 + 8 * i) 1, q (0x1C + 8 * i) 4))
  let fields := ([(0x10, 1, decide (f < 8)), (0x11, 1, decide (n ≤ 16)), (0x12, 1, decide (q 0x12 1 < 2))] :
      List (Nat × Nat × Bool)) ++
    (entries.zipIdx.flatMap (fun e =>
      [(0x18 + 8 * e.2, 1, e.1.1 < 32 && ((s.ctx e.1.1).st == .opened || (s.ctx e.1.1).st == .faulted)),
       (0x1C + 8 * e.2, 4, 50 ≤ e.1.2 && e.1.2 ≤ 16777215)]))
  let span := if n = 0 then 3 else 8 + 8 * min n 16
  done s (s.request m.val 0x0303 span fields (fun s =>
    if !(s.flask f).built then s.refuse m.val rStateConflict 1
    else (s.stageTable f ((entries ++ s.lentEntries f).take 16) (q 0x12 1)).replyDone m.val))

/-- FLASK_DISSOLVE (R511). -/
def execFlaskDissolve (m : MbId) (s : State) : Host.Outcome State Fault Refusal :=
  let f := s.rq m.val 0x10 1
  done s (s.request m.val 0x0304 1 [(0x10, 1, f < 8)] (fun s =>
    if !(s.flask f).built then s.refuse m.val rAlreadyDone 0
    else if (s.flask f).running.isSome || s.lentFlask f then s.refuse m.val rStateConflict 1
    else if (List.range 32).any (fun c => (s.headJob c f).isSome) then s.refuse m.val rStateConflict 2
    else
      let s1 := (List.range 16).foldl (fun s e => s.setReg Blk.sch (0x1040 + 0x100 * f + 4 * e) 0) s
      ((s1.setFlask f {}).regulatorOff f).replyDone m.val))

/-- RATE of an enabled bucket, 0 of a disabled one. -/
def State.bucketRate (s : State) (r k : Nat) : Nat :=
  let w := s.reg Blk.sch (0x6000 + 0x40 * r + 0x10 * k)
  if fld w 31 1 = 1 then fld w 0 20 else 0

/-- REGULATOR_SET (R507, R512). -/
def execRegulatorSet (m : MbId) (s : State) : Host.Outcome State Fault Refusal :=
  let q := fun o n => s.rq m.val o n
  let r := q 0x10 1
  let k := q 0x11 1
  done s (s.request m.val 0x0305 0x0C
    [(0x10, 1, r < 10), (0x11, 1, k < 3), (0x12, 1, q 0x12 1 < 2), (0x14, 4, q 0x14 4 ≤ 1048575),
     (0x18, 4, 1024 ≤ q 0x18 4 && q 0x18 4 ≤ 1048575)]
    (fun s =>
      let rate := fun i j => if i = r ∧ j = k then (if q 0x12 1 = 1 then q 0x14 4 else 0) else s.bucketRate i j
      let low := (List.range 10).foldl (fun n i => n + rate i 0 + rate i 1) 0
      let high := (List.range 10).foldl (fun n i => n + rate i 2) 0
      if 524288 < low || 9927 < high then s.refuse m.val rNoResource 0
      else
        let o := 0x6000 + 0x40 * r + 0x10 * k
        let s1 := (s.setReg Blk.sch o (at_ (q 0x12 1) 31 1 ||| at_ (q 0x14 4) 0 20)).setReg Blk.sch (o + 4)
          (at_ (q 0x18 4) 0 20)
        let s2 := { s1 with
          sch.used := nset s1.sch.used (4 * r + k) 0
          sch.held := tset s1.sch.held (4 * r + k) false }
        s2.replyDone m.val))

/-- JOB_IDs of the packets that stand in Q(2c). -/
def State.queuedIds (s : State) (c : Nat) : List Nat :=
  ((s.queue (2 * c)).flags.zipIdx.filter (fun e => e.1.1)).map (fun e => bytesAt (s.qEntry (2 * c) e.2) 4 4)

/-- ABORT_JOB (R498, R513, R517, R518, R550). -/
def execAbortJob (m : MbId) (s : State) : Host.Outcome State Fault Refusal :=
  let c := s.rq m.val 0x0C 1
  let id := s.rq m.val 0x10 4
  done s (s.command m.val 0x0306 (4 ≤ s.rqLen m.val && s.rqLen m.val ≤ 240)
    ([(0x0C, decide (c < 32))] ++ s.fieldChecks m.val [(0x10, 4, true)])
    (fun s =>
      let x := s.ctx c
      let runs := (s.ctxFlasks c).filter (fun f => match (s.flask f).running with | some r => r.job.jobId == id | none => false)
      let sub : Nat → Nat := fun f => match (s.flask f).running with | some r => r.job.sub | none => 0
      match runs.foldl (fun (b : Option Nat) f =>
          match b with | none => some f | some g => if sub f < sub g then some f else some g) none with
      | some f =>
        let y := s.flask f
        (s.setFlask f { y with running := y.running.map (fun r =>
          { r with abort := true, aborts := r.aborts ++ [m.val] }) }).await m.val
      | none =>
        match x.staged.find? (fun j => j.jobId == id) with
        | some j =>
          let s1 := s.setCtx c { x with staged := x.staged.erase j }
          ((s1.completeStaged j stAborted 0 0).bump Blk.sch 4).replyDone m.val
        | none =>
          if x.committed.contains id then s.refuse m.val rAlreadyDone 0
          else if (s.queuedIds c).contains id then s.refuse m.val rStateConflict 3
          else s.refuse m.val rBadArgument 0x10))

/-! ## Scheduler events -/

/-- JOB_STAGE (R491, R544 to R547, R558). -/
def execJobStage (c : CtxId) (s : State) : Host.Outcome State Fault Refusal :=
  let x := s.ctx c.val
  done s (if s.frozen then s
    else match x.st with
    | .closed => s
    | .opened =>
      if x.closing.isSome then s.closeStep c.val ((s.queue (2 * c.val)).occ + 1)
      else if x.flushLeft ≠ 0 then s.drain c.val true
      else if x.staged.length < 16 then s.drain c.val false
      else s
    | _ => (s.drain c.val true).closeStep c.val ((s.queue (2 * c.val)).occ + 1))

/-- JOB_ADMIT (R493, R519, R549). -/
def execJobAdmit (f : FlaskId) (s : State) : Host.Outcome State Fault Refusal :=
  let x := s.flask f.val
  done s (
    if s.frozen || s.aon.pwr != 3 || !x.built || x.n == 0 || x.running.isSome || s.flaskHalted f.val then s
    else match s.offered f.val with
    | none => s
    | some j =>
      if !s.fits f.val j then s
      else if j.ctx < 32 then
        if s.admits j.ctx && (!j.barrier || s.barrierOk j) then
          let c := s.ctx j.ctx
          (s.setCtx j.ctx { c with staged := c.staged.erase j }).setFlask f.val { x with running := some { job := j } }
        else s
      else if s.fmn.admitStopped || s.ckpt.hold then s
      else s.setFlask f.val { x with running := some { job := j }, assist := none })

/-- JOB_START (R494). -/
def execJobStart (f : FlaskId) (s : State) : Host.Outcome State Fault Refusal :=
  let x := s.flask f.val
  done s (match x.running with
    | some r =>
      if r.started || s.frozen then s
      else s.setFlask f.val { x with running := some { r with started := true, tbStart := s.clk.now } }
    | none => s)

/-- A message of the job on flask f is in flight on a Sprue port (R61). -/
def State.jobInFlight (s : State) (f : Nat) : Bool :=
  (List.range 2).any (fun p => (Tab.get (fun _ => ({} : Port)) s.spr.ports p).inflight.any (fun i => i.flask == some f))
/-- Every operation of the job has ended, and every write of it is visible or reported lost. -/
def State.finished (s : State) (r : Running) : Bool :=
  r.started && !s.jobInFlight r.job.flask && (r.ended.isSome || (r.opsDone == r.job.nOps && r.wait.isNone))

/-- JOB_COMMIT (R497, R516, R518, R564). -/
def execJobCommit (f : FlaskId) (s : State) : Host.Outcome State Fault Refusal :=
  done s (match (s.flask f.val).running with
    | some r =>
      if s.frozen || !s.finished r then s
      else match r.ended with
        | some (st, code, tensor, op) => (s.commitJob f.val st code tensor op).lendSettle
        | none => (s.commitJob f.val stOk 0 0 0).lendSettle
    | none => s)

/-- BUDGET_KILL (R496, R516, R517). -/
def execBudgetKill (f : FlaskId) (s : State) : Host.Outcome State Fault Refusal :=
  done s (match (s.flask f.val).running with
    | some r =>
      if s.frozen || !r.started || s.finished r || s.clk.now < r.tbStart + r.job.budget * tbUs then s
      else ((s.bump Blk.sch 3).jobFault f.val stBudget 0 0xFFF r.opsDone).lendSettle
    | none => s)

/-- TEARDOWN_COMPLETE (R500 step 4, R521, R555). -/
def execTeardownComplete (c : CtxId) (s : State) : Host.Outcome State Fault Refusal :=
  let x := s.ctx c.val
  done s (if x.st = .teardown ∧ x.zeroLeft = [] ∧ !s.frozen then
      let s1 := (s.setCtx c.val { x with st := .faulted }).bumpInfo Blk.sch 5 0x130 (s.teardownInfo c.val)
      s1.notice c.val (recordBytes 2 x.lastStatus 0 0 c.val 0xFF (recDetail 0 0xFFF 0) s1.tbNow 0 0 0 0 0 0 0 0)
    else s)

/-- ABORT_STOP (R498): the flask stops at its next tile boundary and the job commits as ABORTED. -/
def execAbortStop (f : FlaskId) (s : State) : Host.Outcome State Fault Refusal :=
  done s (match (s.flask f.val).running with
    | some r =>
      if r.abort && !s.frozen then
        (((s.bump Blk.sch 4).stopEvents f.val).commitJob f.val stAborted 0 0xFFF r.opsDone).lendSettle
      else s
    | none => s)

/-- SLICE_ENTRY_END (R490, R493, R501, R510). -/
def execSliceEntryEnd (f : FlaskId) (s : State) : Host.Outcome State Fault Refusal :=
  let x := s.flask f.val
  let past := decide (x.entryEnd ≤ s.clk.now)
  let idle := x.running.isNone && (match s.offered f.val with | some j => !s.fits f.val j | none => true)
  done s (
    if s.aon.pwr != 3 || !x.built || x.n == 0 || !(past || (x.slack == 1 && idle)) then s
    else match x.staged with
    | some (t, k) => (s.applyTable f.val t k).lendSettle
    | none => s.beginEntry f.val ((x.entry + 1) % x.n) (if past then x.entryEnd else s.clk.now))

/-- NOTICE_PLACE (R556, R562). -/
def execNoticePlace (c : CtxId) (s : State) : Host.Outcome State Fault Refusal :=
  let x := s.ctx c.val
  done s (if s.frozen || s.epochDue c.val then s
    else match x.heldRecs with
    | (ep, body) :: t =>
      if 1 ≤ s.credits (qComp c.val) then
        ((s.setCtx c.val { x with heldRecs := t }).placeNow c.val ep body).closeStep c.val 1
      else s
    | [] =>
      match x.notices with
      | body :: t => if s.noticeCredit c.val then (s.setCtx c.val { x with notices := t }).placeNotice c.val body else s
      | [] => s)

end Sys2Proof.Machine
end

