-- ==== Sys2Proof/Machine/Que.lean ====
section
/-! DEFINITION. Sys2Proof/Machine/Que.lean: pushes, pops, credits and resets of the hardware queues, and
QUEUE_CONFIG (R310 to R338). -/
namespace Sys2Proof.Machine
open Sys2Proof

/-! ## Push (R315, R317, R332, R334) -/

/-- Outcome of the last PUSH in QUE_Qn_RESULT. -/
def State.pushResult (s : State) (q n : Nat) (viol : Bool) : State :=
  let x := s.queue q
  s.setQueue q { x with pushed := n, viol := viol, push := none }

/-- A push takes effect: the landing slots are copied into the ring. A pointer mismatch resets the queue and discards
the push; a landing read that fails discards it whole, an uncorrectable one as a Class C fault of the owner. -/
def State.pushEffect (s : State) (q : Nat) (mismatch : Bool) : State :=
  match (s.queue q).push with
  | none => s
  | some p =>
    if mismatch then s.queueReset q true
    else
      let (d, acc, s1) := s.readMem Config.mQue .ordinary 0 (s.qLanding q) (64 * p.count)
      match acc with
      | .ok =>
        let bodies := (List.range p.count).map (fun i => (d.drop (64 * i)).take 64)
        ((s1.pushResult q p.count false).enqueue q (framed p.first p.last bodies)).qNotify q
      | .poison =>
        let s2 := s1.pushResult q 0 false
        if s.qOwned q then s2.teardown (s.qCtx q) stEcc else s2
      | _ => s1.pushResult q 0 false

/-- A write of PUSH: a credit violation, or a push that waits to take effect. -/
def State.pushWrite (s : State) (q master count : Nat) (first last : Bool) : State :=
  if !s.qEn q || s.frozen then s
  else
    let s := s.pushEffect q false
    if count = 0 || 16 < count || s.credits q < count then
      let info := at_ master 24 8 ||| at_ q 16 7 ||| at_ (s.credits q) 0 13
      let s1 := (s.bumpInfo Blk.que 2 0x108 info).pushResult q 0 true
      if s.qOwned q then s1.teardown (s.qCtx q) stCredit else s1
    else
      let x := s.queue q
      s.setQueue q { x with push := some { count := count, first := first, last := last, master := master } }

/-- QUEUE_PUSH (R315, R317). -/
def execQueuePush (q : QueueId) (master : MasterId) (count : Fin 32) (first last : Bool) (s : State) :
    Host.Outcome State Fault Refusal :=
  done s (s.pushWrite q.val master.toNat count.val first last)

/-- PUSH_TAKES_EFFECT (R315, R324, R334). -/
def execPushTakesEffect (q : QueueId) (mismatch : Bool) (s : State) : Host.Outcome State Fault Refusal :=
  done s (if s.frozen then s else s.pushEffect q.val mismatch)

/-! ## Pop, drop and arm (R319 to R321) -/

/-- ARM of a POP write: notification is armed, and the message is sent at once where the condition holds. -/
def State.armQueue (s : State) (q : Nat) (arm : Bool) : State :=
  if arm then
    let x := s.queue q
    (s.setQueue q { x with armed := true }).qNotify q
  else s

/-- POP with OP 1: removes min(count, OCCUPANCY) entries; a mismatch resets the queue and the pop returns EMPTY. -/
def State.popWrite (s : State) (q count : Nat) (arm mismatch : Bool) : State :=
  if !s.qEn q then s
  else if mismatch then
    let s1 := s.queueReset q true
    let x := s1.queue q
    (s1.setQueue q { x with removed := 0 }).armQueue q arm
  else
    let n := min count (s.queue q).occ
    let s1 := s.qRemove q n
    let x := s1.queue q
    (s1.setQueue q { x with removed := n }).armQueue q arm

/-- POP with OP 2: discards up to and including the first entry with LAST, or everything present and what arrives up
to the next LAST. -/
def State.dropWrite (s : State) (q : Nat) (arm mismatch : Bool) : State :=
  if !s.qEn q then s
  else if mismatch then (s.queueReset q true).armQueue q arm
  else
    let x := s.queue q
    let n := uptoLast x.flags
    let s1 := s.qRemove q n
    let y := s1.queue q
    (s1.setQueue q { y with dropping := y.dropping || !x.flags.any (fun e => e.2) }).armQueue q arm

/-- QUEUE_POP (R319, R324). -/
def execQueuePop (q : QueueId) (count : Fin 8192) (arm mismatch : Bool) (s : State) :
    Host.Outcome State Fault Refusal :=
  done s (s.popWrite q.val count.val arm mismatch)

/-- DROP_PACKET (R320, R331). -/
def execDropPacket (q : QueueId) (arm mismatch : Bool) (s : State) : Host.Outcome State Fault Refusal :=
  done s (s.dropWrite q.val arm mismatch)

/-- QUEUE_ARM (R321): POP with OP 3. -/
def execQueueArm (q : QueueId) (s : State) : Host.Outcome State Fault Refusal :=
  done s (if s.qEn q.val then s.armQueue q.val true else s)

/-- CREDIT_RETURN (R319): one FAB cycle later the credits are back. -/
def execCreditReturn (q : QueueId) (s : State) : Host.Outcome State Fault Refusal :=
  let x := s.queue q.val
  done s (s.setQueue q.val { x with freed := 0 })

/-! ## Reset (R325, R327) -/

/-- A write of QUE_RESET_CMD with GO. -/
def State.queueResetWrite (s : State) (q : Nat) : State :=
  (s.setReg Blk.que 0x128 (BitVec.ofNat 32 (q % 128))).queueReset (q % 128) false

/-- QUEUE_RESET_CMD (R325, R326, R332). -/
def execQueueResetCmd (q : QueueId) (s : State) : Host.Outcome State Fault Refusal :=
  done s (s.queueResetWrite q.val)

/-- Records held behind a KIND 1 record are placed, each with a credit. -/
def State.placeHeld (s : State) (c : Nat) : List (Option Nat × List Byte) → State
  | [] => s
  | (ep, body) :: t =>
    if s.credits (qComp c) = 0 then s
    else
      let x := s.ctx c
      State.placeHeld ((s.setCtx c { x with heldRecs := t }).placeNow c ep body) c t

/-- QUEUE_RESET_RECORD (R327, R542, R562). -/
def execQueueResetRecord (c : CtxId) (s : State) : Host.Outcome State Fault Refusal :=
  done s (if s.frozen then s
    else match s.sch.resetDue.find? (fun e => e.1 / 2 == c.val) with
    | none => s
    | some (q, n) =>
      let s1 := { s with sch.resetDue := s.sch.resetDue.erase (q, n) }
      let last := match (s.ctx c.val).lastJob with | some j => j | none => 0xFFFFFFFF
      let body := recordBytes 1 stQueueReset 0 last c.val 0xFF (recDetail 0 0xFFF 0) s.tbNow 0 0
        ((s.queue q).epoch + 65536 * (q % 2)) (min n 0xFFFFFFFF) 0 0 0 0
      if q % 2 = 1 then
        let s2 := s1.placeNotice c.val body
        (s2.placeHeld c.val (s2.ctx c.val).heldRecs).closeStep c.val 1
      else s1.notice c.val body)

/-! ## QUEUE_CONFIG (R323) -/

/-- QUEUE_CONFIG (R323). -/
def execQueueConfig (m : MbId) (s : State) : Host.Outcome State Fault Refusal :=
  let f := fun o n => s.rq m.val o n
  let q := f 0x10 1
  let owner := f 0x12 1
  let fw := owner == 0xFF
  let pf1 := !fw && (s.ctx owner).pf1
  let set := f 0x11 1 == 0
  let cons := f 0x14 1
  let dl := f 0x13 1
  let base := f 0x18 8
  let vec := f 0x15 1
  done s (s.request m.val 0x0310 (if set then 0x10 else 2)
    ([(0x10, 1, decide (108 ≤ q ∧ q ≤ 127)), (0x11, 1, decide (f 0x11 1 < 2))] ++
     (if set then
        [(0x12, 1, fw || s.ctxOpen owner), (0x13, 1, 4 ≤ dl && dl ≤ 12), (0x14, 1, cons < 3),
         (0x15, 1, if cons = 0 && !fw && !pf1 then 33 ≤ vec && vec ≤ 63 else vec == 0),
         (0x18, 8, base % 4096 == 0 && ingotRange base (64 * 2 ^ dl + 1024))]
      else [(0x12, 0x0E, true)]))
    (fun s =>
      if set then
        if s.qEn q then s.refuse m.val rStateConflict 1
        else
          let user := if pf1 then QueueUser.pf1 else .pf0
          let cu := if cons = 2 then QueueUser.fsu else if fw then .device else if cons = 1 then .jobs else user
          let prod := if fw then [QueueUser.device] else [user, .jobs]
          match s.coverAreas (ownerKind owner) (ownerId owner) (queueAreas base dl true prod [cu]) with
          | none => s.refuse m.val rNoResource 0
          | some s1 =>
            let host := cons = 0 && !fw
            let s2 := (s1.queueReset q false).queueOn q base dl (if fw then none else some owner)
              (if host && !pf1 then vec else 0) (host && pf1)
            let x := s2.queue q
            (s2.setQueue q { x with given := some cons }).replyDone m.val
      else if !s.qEn q then s.refuse m.val rAlreadyDone 0
      else if (List.range 4).any (fun k => (s.fbc k).configured && s.fbcTxq k == q) ||
          (s.fsu.st != 0 && s.fsuCfg 0x15 1 == 0 && s.fsuCfg 0x16 1 == q) then s.refuse m.val rStateConflict 2
      else (s.dropQueue q).replyDone m.val))

end Sys2Proof.Machine
end

