-- ==== Sys2Proof/Machine/OpRun.lean ====
section
/-! DEFINITION. Sys2Proof/Machine/OpRun.lean: how an operation of a job runs: its descriptor is read and checked, its
results are quantised with DRIFT and RECAST (R581, R625 to R642), counted and reported (R552, R630), and the ways in which
it does not complete (R548, R614). -/
namespace Sys2Proof.Machine
open Sys2Proof

/-! ## Results -/

/-- What an invocation yields for OUT, in linear order. -/
inductive OutVal where
  /-- values, encoded under step 4 of R578 -/
  | vals (v : Array Fl)
  /-- values of some elements; the others stay as they are -/
  | part (v : Array (Option Fl))
  /-- integers of an I32 output; whether they count as encoded elements (R630) -/
  | ints (v : Array Int) (counted : Bool)
  /-- codes moved unchanged; none leaves the element as it is -/
  | codes (v : Array (Option Nat))

/-- What one invocation computes: OUT, clips that are no encoding's (R592, R595), and writes to other tensors of the
operation: those that it performs after OUT. -/
structure Invocation where
  out : OutVal
  clip : Nat := 0
  after : List (Tensor × Array Nat) := []

/-- The counts and marks of a completed operation. -/
structure OpRes where
  clip : Nat := 0
  elems : Nat := 0
  /-- A redirection made by RECAST (R551). -/
  recast : Option (Nat × Nat) := none
  /-- 0 no change of SHIFT, 1 DRIFT_GROW, 2 DRIFT_SHRINK (R633). -/
  drift : Nat := 0
deriving DecidableEq, Repr

/-- How a pass over an operation ends: it completes, or it waits. -/
inductive OpOut where
  | fin (r : OpRes)
  | wait
deriving DecidableEq, Repr

/-! ## The scale table (R623, R632 to R635, R642) -/

/-- An entry of the scale table. -/
structure ScaleEntry where
  d : List Byte
deriving DecidableEq, Repr

def ScaleEntry.shift (e : ScaleEntry) : Int := sgn 8 (bytesAt e.d 0 1)
def ScaleEntry.tHi (e : ScaleEntry) : Nat := bytesAt e.d 2 2
def ScaleEntry.tLo (e : ScaleEntry) : Nat := bytesAt e.d 4 2
def ScaleEntry.nShrink (e : ScaleEntry) : Nat := bytesAt e.d 6 1
def ScaleEntry.lowRun (e : ScaleEntry) : Nat := bytesAt e.d 7 1
def ScaleEntry.tRecast (e : ScaleEntry) : Nat := bytesAt e.d 8 2
def ScaleEntry.shiftMin (e : ScaleEntry) : Int := sgn 8 (bytesAt e.d 0xA 1)
def ScaleEntry.shiftMax (e : ScaleEntry) : Int := sgn 8 (bytesAt e.d 0xB 1)
/-- The check of R649 when a DRIFT operation starts. -/
def ScaleEntry.ok (e : ScaleEntry) : Bool :=
  e.tLo ≤ e.tHi && e.nShrink != 0 && e.shiftMin ≤ 0 && 0 ≤ e.shiftMax && e.shiftMin ≤ e.shift && e.shift ≤ e.shiftMax

/-- C exceeds T, and C lies below T, of E elements (R631). -/
def exceeds (c t e : Nat) : Bool := decide (t * e < c * 65536)
def liesBelow (c t e : Nat) : Bool := decide (c * 65536 < t * e)

/-- The update of R633: the entry afterwards, and the change of SHIFT for the report (R552). -/
def ScaleEntry.judge (x : ScaleEntry) (c e : Nat) : ScaleEntry × Nat :=
  let put := fun (shift : Int) (flags lowRun : Nat) =>
    let inv := (bytesAt x.d 0xC 4 + 1) % 2 ^ 32
    ({ d := leBytes 1 ((shift % 256).toNat) ++ leBytes 1 flags ++ (x.d.drop 2).take 5 ++ leBytes 1 lowRun ++
         (x.d.drop 8).take 4 ++ leBytes 4 inv } : ScaleEntry)
  if exceeds c x.tHi e then
    let n := min x.shiftMax (x.shift + 1)
    (put n 1 0, if n = x.shift then 0 else 1)
  else if liesBelow c x.tLo e then
    let low := (x.lowRun + 1) % 256
    if x.nShrink ≤ low then
      let n := max x.shiftMin (x.shift - 1)
      (put n 2 0, if n = x.shift then 0 else 2)
    else (put x.shift 0 low, 0)
  else (put x.shift 0 0, 0)

/-- Address of the entry that an operation names. -/
def entryAddr (u : JobUser) (o : OpD) : Nat := u.job.scaleBase + 16 * o.entry
/-- One window grants both rights on it (R642). -/
def State.bothRights (s : State) (j : Job) (a len : Nat) : Bool :=
  if j.ctx < 32 then
    (List.range 8).any (fun w => s.winRead j.ctx w && s.winWrite j.ctx w && s.winLo j.ctx w ≤ a &&
      a + len ≤ s.winLo j.ctx w + s.winLen j.ctx w)
  else s.assistAllows j.jobId a len

/-- Formats to which DRIFT and RECAST apply: Q and FP8 (R581). -/
def quantised (fmt : Nat) : Bool := fmt == 0 || fmt == 1 || fmt == 2 || fmt == 8 || fmt == 9 || fmt == 3 || fmt == 4

/-- Reads the entry where DRIFT or RECAST needs it (R632, R635), with the checks of R581 and R649. -/
def readEntry (u : JobUser) (o : OpD) (fmt : Nat) : JM (Option ScaleEntry) := do
  need10 (!o.drift || (o.entry != 0xFFFF && u.job.scaleBase != 0))
  if quantised fmt && (o.drift || o.recast) && o.entry ≠ 0xFFFF then
    let s ← get
    let a := entryAddr u o
    if !s.bothRights u.job a 16 then jmFail (.window a (s.jobAllows u.job a 16 false))
    else
      let d ← jread u a 16
      let e : ScaleEntry := { d := d }
      need10 (!o.drift || e.ok)
      pure (some e)
  else pure none

/-! ## Encoding OUT -/

/-- Encodes one value for element k of a tensor (step 4 of R578); `shift` is the SHIFT of DRIFT (R632). -/
def encodeAt (t : Tensor) (sc : Scales) (shift : Option Int) (k : Nat) (y : Fl) : Nat × Bool :=
  if t.fmt = 7 then (encode32 y, false)
  else
    let s0 := sc.val (unlin t.dims k)
    let s1 := match shift with | some n => rnd (xmul s0 (.fin false 1 n)) | none => s0
    fmtEncode t.fmt (fdivide y s1)
/-- Codes of an invocation's OUT in a tensor: new codes, elements encoded, elements clipped. -/
def encodeOut (t : Tensor) (sc : Scales) (shift : Option Int) : OutVal → Array (Option Nat) × Nat × Nat
  | .vals v =>
    let l := v.mapIdx (fun k y => encodeAt t sc shift k y)
    (l.map (fun e => some e.1), v.size, (l.filter (fun e => e.2)).size)
  | .part v =>
    let l := v.mapIdx (fun k y => y.map (encodeAt t sc shift k))
    (l.map (fun e => e.map (fun c => c.1)), (l.filter (fun e => e.isSome)).size,
      (l.filter (fun e => match e with | some c => c.2 | none => false)).size)
  | .ints v counted =>
    let lo : Int := -(2 ^ 31)
    let hi : Int := 2 ^ 31 - 1
    (v.map (fun k => some ((max lo (min hi k) % 2 ^ 32).toNat)), if counted then v.size else 0,
      (v.filter (fun k => decide (k < lo ∨ hi < k))).size)
  | .codes v => (v, 0, 0)

/-- The widening map of R636: the format of WIDE. -/
def widerFormat (fmt : Nat) : Option Nat :=
  match fmt with
  | 0 => some 1
  | 1 => some 2
  | 8 => some 9
  | 9 => some 5
  | 3 => some 5
  | 4 => some 5
  | _ => none

/-- The WIDE tensor of a RECAST operation, with the checks of R636, R639 and R695. -/
def getWide (u : JobUser) (t : Tensor) (ins : List Tensor) : JM (Option Tensor) := do
  let s ← get
  need10 (!ins.any (fun x => s.overlaps u t x))
  match widerFormat t.fmt with
  | none => if t.wide = 0xFFFF then pure none else badTensor t.wide
  | some f =>
    if t.wide = 0xFFFF then pure none
    else
      let w ← readTensor u t.wide
      if w.fmt ≠ f || w.layout ≠ t.layout || w.rank ≠ t.rank || w.dims ≠ t.dims || w.compress ≠ 0 then badTensor t.wide
      else
        need10 (!s.overlaps u w t && !ins.any (fun x => s.overlaps u w x))
        pure (some w)

/-- OUT of an operation other than COPY is not compressed (R695). -/
def plainOut (t : Tensor) : JM Unit := if t.compress = 1 then badTensor t.ix else pure ()

/-- The same place and form, element by element (R575). -/
def sameForm (a b : Tensor) : Bool :=
  a.addr == b.addr && a.space == b.space && a.layout == b.layout && a.fmt == b.fmt && a.dims == b.dims &&
  a.strides == b.strides && a.split == b.split && a.compress == b.compress
/-- The aliasing rule of R575; `inPlace` for the operations that may name an input as OUT. -/
def aliasOk (u : JobUser) (t : Tensor) (ins : List Tensor) (inPlace : Bool) : JM Unit := do
  let s ← get
  need10 (!ins.any (fun x => s.overlaps u t x && !(inPlace && sameForm t x)))

/-- Runs an operation's invocations: the first into OUT, under RECAST a second into WIDE from the same inputs, and the
update of the scale entry as the last step (R633 to R640). Every read comes before every write. -/
def quantRun (u : JobUser) (o : OpD) (t : Tensor) (ins : List Tensor) (compute : JM Invocation) (h : Nat := 0) : JM OpRes := do
  let entry ← readEntry u o t.fmt
  let active := quantised t.fmt
  let wide ← if o.recast then getWide u t ins else pure none
  let sc ← readScales u t h 0
  let first ← compute
  let shift := if o.drift && active then entry.map (fun e => e.shift) else none
  let (codes, e1, k1) := encodeOut t sc shift first.out
  let c1 := k1 + first.clip
  let limit := match entry with | some e => e.tRecast | none => 0x100
  let rerun := o.recast && active && e1 != 0 && exceeds c1 limit e1
  if rerun && wide.isNone then jmFail (.stop stRecast 0 t.ix)
  else
    let second ← match rerun, wide with
      | true, some w => do
        let wsc ← readScales u w h 0
        let inv ← compute
        pure (some (w, inv, encodeOut w wsc none inv.out))
      | _, _ => pure none
    writePlain u t (fun k => (codes.getD k none))
    let last ← match second with
      | some (w, inv, (wc, e2, k2)) => do
        writePlain u w (fun k => (wc.getD k none))
        if exceeds (k2 + inv.clip) limit e2 then jmFail (.stop stRecast 0 t.ix)
        pure ({ clip := k2 + inv.clip, elems := e2, recast := some (t.ix, w.ix) } : OpRes)
      | none => pure { clip := c1, elems := e1 }
    let inv := match second with | some (_, i, _) => i | none => first
    let _ ← inv.after.mapM (fun e => writePlain u e.1 (fun k => some (e.2.getD k 0)))
    match entry with
    | some e =>
      if o.drift && e1 ≠ 0 then
        let (n, d) := e.judge c1 e1
        jwrite u (entryAddr u o) n.d
        pure { last with drift := d }
      else pure last
    | none => pure last

/-- An operation that moves codes: QUANT has no effect (R641). -/
def moveRun (u : JobUser) (t : Tensor) (compute : JM Invocation) : JM OpRes := do
  let inv ← compute
  let (codes, e, k) := encodeOut t { mode := 0, h := 0, r := 0, dims := t.dims, vals := #[] } none inv.out
  writePlain u t (fun i => (codes.getD i none))
  pure { clip := inv.clip + k, elems := e }

/-! ## Running -/

/-- The report entry of a completed operation (R552). -/
def report (u : JobUser) (r : OpRes) : JM Unit := do
  if u.job.report then
    jwrite u (u.job.reportBase + 16 * u.op)
      (leBytes 2 u.op ++ leBytes 2 (b2n r.recast.isSome + 2 * b2n (r.drift == 1) + 4 * b2n (r.drift == 2)) ++
       leBytes 4 (min r.clip 0xFFFFFFFF) ++ leBytes 8 r.elems)
  else pure ()

/-- The job on flask f whose next operation can run: started, not ended, nothing of it in flight to a peer (R573). -/
def State.opReady (s : State) (f : Nat) : Option Running :=
  match (s.flask f).running with
  | some r =>
    if r.started && r.ended.isNone && decide (r.opsDone < r.job.nOps) && !s.frozen && !s.jobInFlight f then some r else none
  | none => none

/-- The operation's accesses have used an enabled regulator: LEVEL of its buckets is any that R505 allows, and where the
job stalled any count has been added to STALL. -/
def State.touchRegulator (s : State) (r stall : Nat) : State :=
  (List.range 3).foldl (fun s k =>
    let o := 0x6000 + 0x40 * r + 0x10 * k
    if fld (s.reg Blk.sch o) 31 1 = 0 then s
    else
      let room := (fld (s.reg Blk.sch (o + 4)) 0 20 + 512) * 256
      let (v, s1) := s.takeFree 64
      let s2 := { s1 with sch.used := nset s1.sch.used (4 * r + k) (v % (room + 1)) }
      if stall = 0 then s2
      else
        let (w, s3) := s2.takeFree 32
        s3.setReg Blk.sch (o + 0xC) (BitVec.ofNat 32 w)) s
/-- Cycle and tile counts of the flask's crucibles: the manual gives no number of tiles and no duration (R531). -/
def State.touchCrucibles (s : State) (f : Nat) : State :=
  (s.crucibles f).foldl (fun s n =>
    let (v, s1) := s.takeFree 64
    let (w, s2) := s1.takeFree 64
    (s2.setPair (Blk.cru0 + n) 0x104 v).setPair (Blk.cru0 + n) 0x10C w) s

/-- Ends the job by an operation's failed check: the context stays OPEN (R548). -/
def State.endJob (s : State) (f st code tensor op : Nat) : State :=
  match (s.flask f).running with
  | some r => s.setFlask f { s.flask f with running := some { r with ended := some (st, code, tensor, op), wait := none } }
  | none => s

/-- What an operation that cannot go on brings (R548, R614, R649). -/
def State.opBad (s : State) (u : JobUser) : Bad → State
  | .window a w => s.winViol u.f u.cru a w u.op
  | .rights => s.jobFault u.f stWindow 0 0xFFF u.op
  | .poison => s.jobFault u.f stEcc 0 0xFFF u.op
  | .peer => s.jobFault u.f stPeer 0 0xFFF u.op
  | .stop st code t =>
    if st = stFlux || st = stRecast || st = stCredit then s.jobFault u.f st code t u.op else s.endJob u.f st code t u.op

/-- The operation completes: counts, redirection, the next operation (R551, R553). -/
def State.opDone (s : State) (f stall : Nat) (x : OpRes) : State :=
  match (s.flask f).running with
  | some r =>
    let s1 := s.setFlask f { s.flask f with running := some { r with
        opsDone := r.opsDone + 1, clip := r.clip + x.clip, elems := r.elems + x.elems
        recastOps := r.recastOps + b2n x.recast.isSome, driftOps := r.driftOps + b2n (x.drift != 0)
        stall := r.stall + stall
        wide := (match x.recast with | some e => [e] | none => []) ++ r.wide
        wait := none, fetched := [], fetchedBad := false } }
    (s1.touchRegulator f stall).touchCrucibles f
  | none => s

/-- An operation waits: bytes fetched for this look are dropped. -/
def State.opWaits (s : State) (f : Nat) : State :=
  match (s.flask f).running with
  | some r => s.setFlask f { s.flask f with running := some { r with fetched := [], fetchedBad := false } }
  | none => s

/-- Sets what the running operation waits for. -/
def setWait (u : JobUser) (w : OpWait) : JM OpOut := do
  let s ← get
  match (s.flask u.f).running with
  | some r =>
    if r.wait.isNone then set (s.setFlask u.f { s.flask u.f with running := some { r with wait := some (w, s.clk.now) } })
  | none => pure ()
  pure .wait

/-- The next operation's descriptor (R533, R569); an opcode that R571 does not list breaks the layout. -/
def fetchOp (u : JobUser) : JM OpD := do
  let d ← jread u (u.job.opsBase + 64 * u.op) 64
  let o : OpD := { d := d }
  need10 (opcodes.contains o.opcode)
  pure o

/-- Who runs the next operation of a job; the crucible that issues an access is a free choice among the flask's. -/
def State.opUser (s : State) (f : Nat) (r : Running) : JobUser :=
  let l := s.crucibles f
  { f := f, job := r.job, op := r.opsDone, cru := (l[(Config.freeWord s.free).toNat % max 1 l.length]?).getD 0
    fetched := r.fetched }

/-- One pass over the next operation, where its opcode is k. -/
def opPass (u : JobUser) (k : Nat) (body : JobUser → OpD → JM OpOut) : JM (Option OpOut) := do
  let o ← fetchOp u
  if o.opcode ≠ k then pure none
  else
    let x ← body u o
    match x with
    | .fin r => report u r
    | .wait => pure ()
    pure (some x)

/-- The command of an operation: flask f runs its next operation when that has opcode k. -/
def State.runOp (s : State) (f k stall : Nat) (body : JobUser → OpD → JM OpOut) : State :=
  match s.opReady f with
  | none => s
  | some r =>
    let u := s.opUser f r
    let s0 := { s with free := s.free + 1 }
    if r.fetchedBad then s0.opBad u .poison
    else match ((opPass u k body).run.run s0 : Except Halt (Option OpOut) × State) with
      | (.ok none, _) => s
      | (.ok (some (.fin x)), s1) => { s1 with free := s1.free + 2 ^ 80 }.opDone f stall x
      | (.ok (some .wait), s1) => s1.opWaits f
      | (.error (.need a n), _) => s.issueRemote u.cru .ordinary (some f) false false a n []
      | (.error (.bad b), s1) => s1.opBad u b

/-- An operation that only computes. -/
def opFin (x : JM OpRes) : JM OpOut := do
  let r ← x
  pure (.fin r)

/-- Reads an input: its codes and scales. -/
def readIn (u : JobUser) (t : Tensor) (h r : Nat) : JM In := do
  let sc ← readScales u t h r
  let c ← readCodes u t
  pure { t := t, codes := c, sc := sc }

/-- Formats that an operation lists, with SCALE_MODE 3 only on array operands (R621). -/
def fmtOk (t : Tensor) (ok : Nat → Bool) (mode3 : Bool := false) : JM Unit :=
  if ok t.fmt && (mode3 || t.scaleMode != 3) then pure () else badFormat t.ix
/-- Groups of R572. -/
def inQ (f : Nat) : Bool := f == 0 || f == 1 || f == 2 || f == 8 || f == 9
def inF (f : Nat) : Bool := f == 3 || f == 4 || f == 5 || f == 6
def inV (f : Nat) : Bool := inF f || f == 7
def inQV (f : Nat) : Bool := inQ f || inV f
def isI32 (f : Nat) : Bool := f == 10
def isF32 (f : Nat) : Bool := f == 7
def isI8 (f : Nat) : Bool := f == 1
def anyFmt (f : Nat) : Bool := f ≤ 10

end Sys2Proof.Machine
end

