-- ==== Sys2Proof/Machine/Arr.lean ====
section
/-! DEFINITION. Sys2Proof/Machine/Arr.lean: the operations of the tensor array (R577, R578, R582 to R586). -/
namespace Sys2Proof.Machine
open Sys2Proof

/-! ## Dot products -/

/-- One factor of a product: its c of R576 and the number of its group scale; an element outside the image is 0 and has
none. -/
structure Factor where
  c : Fl
  g : Option Nat
/-- The factor at an index of an input. -/
def In.factor (x : In) : Option (List Nat) → Factor
  | none => { c := Fl.zero, g := none }
  | some i => { c := codeC x.t.fmt (x.codeI i), g := if x.sc.mode = 3 then some (x.sc.at i) else none }
/-- The group scale of a chunk: none where its elements lie in different groups, for which the manual gives no scale. -/
def chunkScale (x : In) (l : List (Option Nat)) : Option Fl :=
  match l.filterMap id with
  | [] => some (fint 1)
  | g :: t => if t.all (fun k => k == g) then some (x.sc.vals.getD g (fint 1)) else none
/-- Exact sum of products of a chunk. -/
def chunkSum (l : List (Factor × Factor)) : Fl := foldFl xadd (l.map (fun p => xmul p.1.c p.2.c))
/-- Runs of up to 32 consecutive indices of the innermost reduced dimension. -/
def chunks32 {α : Type} (l : List α) : List (List α) :=
  (List.range (cdiv l.length 32)).map (fun i => (l.drop (32 * i)).take 32)

/-- A free binary32 value. -/
def freeFl (k : Nat) : Fl := decode32 ((Config.freeWord k).toNat % 2 ^ 32)

/-- The two operands of an array operation. -/
structure Pair where
  a : In
  b : In
def Pair.intPath (p : Pair) : Bool := inQ p.a.t.fmt && inQ p.b.t.fmt
def Pair.exp (p : Pair) : Int := fmtExp p.a.t.fmt + fmtExp p.b.t.fmt
def Pair.grouped (p : Pair) : Bool := p.a.sc.mode == 3 || p.b.sc.mode == 3
/-- The integer path without group scales takes one exact sum. -/
def Pair.exact (p : Pair) : Bool := p.intPath && !p.grouped

/-- The reduced value a of R577; `fr` numbers a free value. -/
def Pair.reduce (p : Pair) (fr : Nat) (l : List (List (Factor × Factor))) : Fl :=
  if p.exact then rnd (foldFl xadd (l.map chunkSum))
  else
    foldFl fadd (l.zipIdx.map (fun e =>
      match chunkScale p.a (e.1.map (fun q => q.1.g)), chunkScale p.b (e.1.map (fun q => q.2.g)) with
      | some x, some y => rnd (xmul (xmul (chunkSum e.1) (.fin false 1 p.exp)) (xmul x y))
      | _, _ => freeFl (fr + e.2)))
/-- Σ p_g of an I32 output. -/
def Pair.exactSum (l : List (List (Factor × Factor))) : Int :=
  l.foldl (fun v c => c.foldl (fun v q => v + (xmul q.1.c q.2.c).rat.floor) v) 0

/-- The scale of an operand in m of R578, for output channel ch: none where the operand holds no scale for it. -/
def channelScale (x : In) (ch : Option Nat) : Option Fl :=
  match x.sc.mode with
  | 1 => x.sc.vals[0]?
  | 2 => ch.bind (fun c => x.sc.vals[c]?)
  | _ => some (fint 1)
/-- m of R578; none where no scale is given. -/
def Pair.scale (p : Pair) (ch : Option Nat) : Option Fl :=
  match channelScale p.a ch, channelScale p.b ch with
  | some x, some y => some (xmul (xmul x y) (if p.exact then .fin false 1 p.exp else fint 1))
  | _, _ => none

/-- r of R578 from a. -/
def Pair.result (p : Pair) (fr : Nat) (ch : Option Nat) (bias a : Fl) : Fl :=
  match p.scale ch with
  | some m => rnd (xadd (xmul a m) bias)
  | none => freeFl fr

/-- What an array operation yields: for each output index its chunks, its output channel. -/
def arrayOut (p : Pair) (o : OpD) (t : Tensor) (bias : Option In) (fr : Nat) (channel : List Nat → Nat)
    (terms : List Nat → List (List (Factor × Factor))) : OutVal :=
  if t.fmt = 10 then .ints ((Array.range t.count).map (fun k => Pair.exactSum (terms (unlin t.dims k)))) false
  else .vals ((Array.range t.count).map (fun k =>
    let i := unlin t.dims k
    let ch := channel i
    let f := fr + 2 ^ 20 * k
    let b := match bias with | some x => x.val [ch, 0, 0, 0, 0] | none => Fl.zero
    actF o.act o.alpha (Config.freeBool f) (p.result f (some ch) b (p.reduce (f + 1) (terms i)))))

/-! ## Checks -/

/-- The operand pairs of R572. -/
def pairOk (a b : Nat) : Bool :=
  (a == 0 && b == 0) || (a == 1 && b == 1) || (a == 8 && b == 1) || (a == 1 && b == 8) || (a == 9 && b == 1) ||
  (a == 1 && b == 9) || (a == 2 && b == 2) || ((a == 3 || a == 4) && (b == 3 || b == 4)) || (a == 5 && b == 5) ||
  (a == 6 && b == 6)
/-- Formats of an array operation's output (R572), ACT 0 with I32 (R578). -/
def arrayFormats (o : OpD) (a b out : Tensor) : JM Unit := do
  if !pairOk a.fmt b.fmt then badFormat b.ix
  else if !(inQ out.fmt || inV out.fmt || (out.fmt = 10 && inQ a.fmt && inQ b.fmt)) || out.scaleMode = 3 then badFormat out.ix
  else need10 (out.fmt ≠ 10 || o.act = 0)
/-- The bias: binary32 of (n), or none. -/
def biasOk (b : Option Tensor) (n : Nat) : JM Unit :=
  match b with
  | none => pure ()
  | some t => do
    fmtOk t isF32
    need10 (t.dims == [n, 1, 1, 1, 1])
def readBias (u : JobUser) : Option Tensor → JM (Option In)
  | none => pure none
  | some t => do
    let x ← readIn u t 0 0
    pure (some x)

/-- PARAMS of a convolution (R582). -/
structure ConvP where
  sx : Nat
  sy : Nat
  dx : Nat
  dy : Nat
  pl : Nat
  pr : Nat
  pt : Nat
  pb : Nat
  groups : Nat
def convP (o : OpD) : ConvP :=
  { sx := o.p 0x18 1, sy := o.p 0x19 1, dx := o.p 0x1A 1, dy := o.p 0x1B 1, pl := o.p 0x1C 1, pr := o.p 0x1D 1
    pt := o.p 0x1E 1, pb := o.p 0x1F 1, groups := o.p 0x20 2 }
def ConvP.ok (c : ConvP) : Bool :=
  let s := fun (n : Nat) => 1 ≤ n && n ≤ 8
  s c.sx && s c.sy && s c.dx && s c.dy && c.pl < 16 && c.pr < 16 && c.pt < 16 && c.pb < 16 && c.groups != 0
/-- Wo of R582: none where the kernel does not fit the padded image. -/
def convLen (w lo hi d k s : Nat) : Option Nat :=
  if d * (k - 1) + 1 ≤ w + lo + hi then some ((w + lo + hi - d * (k - 1) - 1) / s + 1) else none
/-- The shapes of a convolution: forward input, weights, forward output. -/
def convShapes (c : ConvP) (x w y : Tensor) : Bool :=
  let cin := x.dim 0
  let cout := w.dim 3
  cin % c.groups == 0 && cout % c.groups == 0 && w.dim 0 == cin / c.groups && w.dim 1 ≤ 15 && w.dim 2 ≤ 15 && w.dim 4 == 1 &&
  x.dim 4 == 1 && y.dim 4 == 1 && y.dim 0 == cout && y.dim 3 == x.dim 3 &&
  convLen (x.dim 1) c.pl c.pr c.dx (w.dim 1) c.sx == some (y.dim 1) &&
  convLen (x.dim 2) c.pt c.pb c.dy (w.dim 2) c.sy == some (y.dim 2)

/-- An index of the image, none outside it. -/
def inImage (p lo n : Nat) : Option Nat := if lo ≤ p ∧ p - lo < n then some (p - lo) else none

/-! ## CONV (R582) -/

def convTerms (c : ConvP) (x w : In) (i : List Nat) : List (List (Factor × Factor)) :=
  let g := fun k => (i[k]?).getD 0
  let cg := x.t.dim 0 / c.groups
  let q := g 0 * c.groups / w.t.dim 3
  (List.range (w.t.dim 2)).flatMap (fun ky => (List.range (w.t.dim 1)).flatMap (fun kx =>
    let px := inImage (g 1 * c.sx + kx * c.dx) c.pl (x.t.dim 1)
    let py := inImage (g 2 * c.sy + ky * c.dy) c.pt (x.t.dim 2)
    chunks32 ((List.range cg).map (fun ci =>
      (x.factor (match px, py with | some a, some b => some [q * cg + ci, a, b, g 3, 0] | _, _ => none),
       w.factor (some [ci, kx, ky, g 0, 0]))))))

def convUsed : List (Nat × Nat) := [(0x18, 10)]

def bodyConv (u : JobUser) (o : OpD) : JM OpOut := opFin do
  let c := convP o
  need10 (o.layoutOk 1 convUsed && c.ok)
  let x ← getTensor u (o.inp 0)
  let w ← getTensor u (o.inp 1)
  let b ← getTensor? u (o.inp 2)
  let t ← getTensor u o.out
  plainOut t
  arrayFormats o x w t
  biasOk b (w.dim 3)
  need10 (convShapes c x w t)
  let ins := [x, w] ++ b.toList
  aliasOk u t ins false
  quantRun u o t ins (do
    let xi ← readIn u x 0 0
    let wi ← readIn u w 3 0
    let bi ← readBias u b
    let s ← get
    pure { out := arrayOut { a := xi, b := wi } o t bi s.free (fun i => (i[0]?).getD 0) (convTerms c xi wi) })

/-! ## CONV_TRANSPOSE (R583) -/

/-- The ox with ox · S + k · D − P = x, if there is one below n. -/
def backIndex (x lo kd s n : Nat) : Option Nat :=
  let v := x + lo
  if kd ≤ v ∧ (v - kd) % s = 0 ∧ (v - kd) / s < n then some ((v - kd) / s) else none

def convTransposeTerms (c : ConvP) (y w : In) (cin : Nat) (i : List Nat) : List (List (Factor × Factor)) :=
  let g := fun k => (i[k]?).getD 0
  let cg := cin / c.groups
  let q := g 0 / cg
  let og := w.t.dim 3 / c.groups
  (List.range (w.t.dim 2)).flatMap (fun ky => (List.range (w.t.dim 1)).flatMap (fun kx =>
    match backIndex (g 1) c.pl (kx * c.dx) c.sx (y.t.dim 1), backIndex (g 2) c.pt (ky * c.dy) c.sy (y.t.dim 2) with
    | some ox, some oy =>
      chunks32 ((List.range og).map (fun k =>
        (y.factor (some [q * og + k, ox, oy, g 3, 0]), w.factor (some [g 0 - q * cg, kx, ky, q * og + k, 0]))))
    | _, _ => []))

def bodyConvTranspose (u : JobUser) (o : OpD) : JM OpOut := opFin do
  let c := convP o
  need10 (o.layoutOk 1 convUsed && c.ok)
  let y ← getTensor u (o.inp 0)
  let w ← getTensor u (o.inp 1)
  let t ← getTensor u o.out
  plainOut t
  arrayFormats o y w t
  need10 (convShapes c t w y)
  aliasOk u t [y, w] false
  quantRun u o t [y, w] (do
    let yi ← readIn u y 0 0
    let wi ← readIn u w 3 3
    let s ← get
    pure { out := arrayOut { a := yi, b := wi } o t none s.free (fun i => (i[0]?).getD 0) (convTransposeTerms c yi wi (t.dim 0)) })

/-! ## CONV_BWD_WEIGHT (R584) -/

def bwdWeightTerms (c : ConvP) (x y : In) (cout : Nat) (i : List Nat) : List (List (Factor × Factor)) :=
  let g := fun k => (i[k]?).getD 0
  let cg := x.t.dim 0 / c.groups
  let q := g 3 * c.groups / cout
  (List.range (y.t.dim 3)).flatMap (fun n => (List.range (y.t.dim 2)).flatMap (fun oy =>
    chunks32 ((List.range (y.t.dim 1)).map (fun ox =>
      let px := inImage (ox * c.sx + g 1 * c.dx) c.pl (x.t.dim 1)
      let py := inImage (oy * c.sy + g 2 * c.dy) c.pt (x.t.dim 2)
      (x.factor (match px, py with | some a, some b => some [q * cg + g 0, a, b, n, 0] | _, _ => none),
       y.factor (some [g 3, ox, oy, n, 0]))))))

def bodyConvBwdWeight (u : JobUser) (o : OpD) : JM OpOut := opFin do
  let c := convP o
  need10 (o.layoutOk 1 convUsed && c.ok)
  let x ← getTensor u (o.inp 0)
  let y ← getTensor u (o.inp 1)
  let t ← getTensor u o.out
  plainOut t
  arrayFormats o x y t
  need10 (convShapes c x t y)
  aliasOk u t [x, y] false
  quantRun u o t [x, y] (do
    let xi ← readIn u x 0 1
    let yi ← readIn u y 0 1
    let s ← get
    pure { out := arrayOut { a := xi, b := yi } o t none s.free (fun i => (i[3]?).getD 0) (bwdWeightTerms c xi yi (t.dim 3)) }) 3

/-! ## MATMUL (R585) -/

def matmulTerms (ta tb : Bool) (a b : In) (k : Nat) (i : List Nat) : List (List (Factor × Factor)) :=
  let g := fun k => (i[k]?).getD 0
  let bt := fun (x : In) => if x.t.dim 2 = 1 then 0 else g 2
  chunks32 ((List.range k).map (fun r =>
    (a.factor (some (if ta then [g 1, r, bt a, 0, 0] else [r, g 1, bt a, 0, 0])),
     b.factor (some (if tb then [g 0, r, bt b, 0, 0] else [r, g 0, bt b, 0, 0])))))

def bodyMatmul (u : JobUser) (o : OpD) : JM OpOut := opFin do
  need10 (o.layoutOk 1 [(0x18, 2)] && o.p 0x18 1 < 2 && o.p 0x19 1 < 2)
  let ta := o.p 0x18 1 == 1
  let tb := o.p 0x19 1 == 1
  let a ← getTensor u (o.inp 0)
  let b ← getTensor u (o.inp 1)
  let bias ← getTensor? u (o.inp 2)
  let t ← getTensor u o.out
  plainOut t
  arrayFormats o a b t
  let k := a.dim (b2n ta)
  let m := a.dim (1 - b2n ta)
  let n := b.dim (1 - b2n tb)
  biasOk bias n
  let bt := max (a.dim 2) (b.dim 2)
  need10 (b.dim (b2n tb) == k && a.dims.drop 3 == [1, 1] && b.dims.drop 3 == [1, 1] && (a.dim 2 == 1 || a.dim 2 == bt) &&
    (b.dim 2 == 1 || b.dim 2 == bt) && t.dims == [n, m, bt, 1, 1])
  let ins := [a, b] ++ bias.toList
  aliasOk u t ins false
  quantRun u o t ins (do
    let ai ← readIn u a 0 (b2n ta)
    let bi ← readIn u b (1 - b2n tb) (b2n tb)
    let ci ← readBias u bias
    let s ← get
    pure { out := arrayOut { a := ai, b := bi } o t ci s.free (fun i => (i[0]?).getD 0) (matmulTerms ta tb ai bi k) })

/-! ## SOFTMAX and ATTENTION (R586, R591) -/

/-- The largest of a list; a NaN in it makes it NaN. -/
def flMax (l : List Fl) : Fl := l.foldl (fun m x => if m.isNan || x.isNan then .nan else if flt m x then x else m) (.inf true)
/-- The SOFTMAX of R591. -/
def softmaxRow (l : List Fl) : List Fl :=
  if l.all (fun x => decide (x = .inf true)) then l.map (fun _ => Fl.zero)
  else
    let m := flMax l
    let e := l.map (fun x => expF (fsub x m))
    let t := foldFl fadd e
    e.map (fun x => fdivide x t)

/-- Codes of the probabilities: INT8 at 2^−7 for V in Q, else V's format. -/
def probIn (v : Tensor) (l : List Fl) : In :=
  let n := l.length
  let t : Tensor := { v with fmt := if inQ v.fmt then 1 else v.fmt, dims := [n, 1, 1, 1, 1], scaleMode := 0, compress := 0 }
  { t := t
    codes := (l.map (fun p => (fmtEncode t.fmt (if inQ v.fmt then rnd (xmul p (.fin false 1 7)) else p)).1)).toArray
    sc := { mode := if inQ v.fmt then 1 else 0, h := 0, r := 0, dims := t.dims, vals := #[.fin false 1 (-7)] } }

/-- Scores of query i of head h; `masked` tells the masked pairs. -/
def attnScores (q k : In) (scale : Fl) (fr : Nat) (d lk i h : Nat) (masked : Nat → Bool) : List Fl :=
  let p : Pair := { a := q, b := k }
  (List.range lk).map (fun j =>
    if masked j then .inf true
    else
      let a := p.reduce (fr + 256 * j) (chunks32 ((List.range d).map (fun x => (q.factor (some [x, i, h, 0, 0]), k.factor (some [x, j, h, 0, 0])))))
      match p.scale none with
      | some m => rnd (xmul (xmul a m) scale)
      | none => freeFl (fr + 256 * j + 255))

/-- What ATTENTION yields for OUT (R586): probabilities per query and head, then their products with V; `fr` numbers the free
values, lq, lk and d are the lengths of R586. -/
def attentionOut (o : OpD) (t : Tensor) (qi ki vi : In) (mi : Option In) (fr d lq lk hd : Nat) : OutVal :=
  let causal := o.p 0x1C 1 == 1
  let rows := (Array.range (lq * hd)).map (fun r =>
    let i := r % lq
    let h := r / lq
    let masked := fun j => (match mi with | some x => x.codeI [j, i, 0, 0, 0] != 0 | none => false)
    let all := (List.range lk).all masked
    (all, probIn vi.t (softmaxRow (attnScores qi ki (o.f32 0x18) (fr + 2 ^ 32 * r) d lk i h
      (fun j => masked j || (causal && decide (i < j)))))))
  let cell := fun (n : Nat) =>
    let g := unlin t.dims n
    let x := (g[0]?).getD 0
    let h := (g[2]?).getD 0
    match rows[h * lq + (g[1]?).getD 0]? with
    | some (all, pr) =>
      let p : Pair := { a := pr, b := vi }
      (all, p, chunks32 ((List.range lk).map (fun j => (pr.factor (some [j, 0, 0, 0, 0]), vi.factor (some [x, j, h, 0, 0])))), x)
    | none => (true, { a := vi, b := vi }, [], x)
  if t.fmt = 10 then
    .ints ((Array.range t.count).map (fun n =>
      let (all, _, l, _) := cell n
      if all then 0 else Pair.exactSum l)) false
  else .vals ((Array.range t.count).map (fun n =>
    let (all, p, l, x) := cell n
    let f := fr + 2 ^ 60 + 2 ^ 20 * n
    if all then Fl.zero
    else actF o.act o.alpha (Config.freeBool f) (p.result f (some x) Fl.zero (p.reduce (f + 1) l))))

def bodyAttention (u : JobUser) (o : OpD) : JM OpOut := opFin do
  need10 (o.layoutOk 1 [(0x18, 5)] && o.p 0x1C 1 < 2)
  let q ← getTensor u (o.inp 0)
  let k ← getTensor u (o.inp 1)
  let v ← getTensor u (o.inp 2)
  let mask ← getTensor? u (o.inp 3)
  let t ← getTensor u o.out
  plainOut t
  if !pairOk q.fmt k.fmt then badFormat k.ix
  arrayFormats o { v with fmt := if inQ v.fmt then 1 else v.fmt } v t
  match mask with
  | some x => fmtOk x isI8
  | none => pure ()
  let d := q.dim 0
  let lq := q.dim 1
  let lk := k.dim 1
  let hd := q.dim 2
  need10 (d ≤ 256 && lk ≤ 4096 && q.dims == [d, lq, hd, 1, 1] && k.dims == [d, lk, hd, 1, 1] && v.dims == [d, lk, hd, 1, 1] &&
    t.dims == [d, lq, hd, 1, 1] && (match mask with | some x => x.dims == [lk, lq, 1, 1, 1] | none => true))
  let ins := [q, k, v] ++ mask.toList
  aliasOk u t ins false
  quantRun u o t ins (do
    let qi ← readIn u q 0 0
    let ki ← readIn u k 0 0
    let vi ← readIn u v 0 1
    let mi ← readBias u mask
    let s ← get
    pure { out := attentionOut o t qi ki vi mi s.free d lq lk hd })

end Sys2Proof.Machine
end

