-- ==== Sys2Proof/Machine/Vec.lean ====
section
/-! DEFINITION. Sys2Proof/Machine/Vec.lean: the operations of the vector unit that compute (R579, R587 to R593, R596 to
R600): every step in binary32, in the order written. -/
namespace Sys2Proof.Machine
open Sys2Proof

/-! ## Shared -/

def ix (i : List Nat) (k : Nat) : Nat := (i[k]?).getD 0
/-- An array over OUT's elements from their indices. -/
def perOut (t : Tensor) (f : List Nat → Nat → Fl) : OutVal := .vals ((Array.range t.count).map (fun k => f (unlin t.dims k) k))
/-- The two are zeros of different sign: which of them a largest or smallest is, the manual does not say. -/
def zeroClash (a b : Fl) : Bool := a.isZero && b.isZero && a.neg? != b.neg?
/-- MAX and MIN of R589; z is the free sign of a zero. -/
def fmax (z : Bool) (a b : Fl) : Fl := if a.isNan || b.isNan then .nan else if zeroClash a b then Fl.zero z else if flt a b then b else a
def fmin (z : Bool) (a b : Fl) : Fl := if a.isNan || b.isNan then .nan else if zeroClash a b then Fl.zero z else if flt b a then b else a
/-- The indices with dimension d replaced by each of n values. -/
def along (i : List Nat) (d n : Nat) : List (List Nat) := (List.range n).map (fun k => i.set d k)

/-- One input and OUT of the same dimensions, with formats of groups Q and V. -/
def unaryPre (u : JobUser) (o : OpD) (ok : Nat → Bool) : JM (Tensor × Tensor) := do
  let x ← getTensor u (o.inp 0)
  let t ← getTensor u o.out
  plainOut t
  fmtOk x ok
  fmtOk t ok
  pure (x, t)

/-! ## ELTWISE, ACT, ACT_BWD (R580, R589) -/

def eltwiseOp (v : Nat) (z : Bool) (a b : Fl) : Fl :=
  match v with
  | 0 => fadd a b
  | 1 => fsub a b
  | 2 => fmul a b
  | 3 => fmax z a b
  | 4 => fmin z a b
  | _ => fdivide a b

/-- The index of a broadcast input. -/
def castIx (x : Tensor) (i : List Nat) : List Nat := i.zipIdx.map (fun e => if x.dim e.2 = 1 then 0 else e.1)
def castOk (x t : Tensor) : Bool := (List.range 5).all (fun d => x.dim d == 1 || x.dim d == t.dim d)

def bodyEltwise (u : JobUser) (o : OpD) : JM OpOut := opFin do
  need10 (o.layoutOk 6 [])
  let (a, t) ← unaryPre u o inQV
  let b ← getTensor u (o.inp 1)
  fmtOk b inQV
  need10 (castOk a t && castOk b t)
  aliasOk u t [a, b] true
  quantRun u o t [a, b] (do
    let ai ← readIn u a 0 0
    let bi ← readIn u b 0 0
    let s ← get
    pure { out := perOut t (fun i k =>
      actF o.act o.alpha (Config.freeBool (s.free + 2 * k))
        (eltwiseOp o.variant (Config.freeBool (s.free + 2 * k + 1)) (ai.val (castIx a i)) (bi.val (castIx b i)))) })

def bodyAct (u : JobUser) (o : OpD) : JM OpOut := opFin do
  need10 (o.layoutOk 1 [])
  let (x, t) ← unaryPre u o inQV
  need10 (x.dims == t.dims)
  aliasOk u t [x] true
  quantRun u o t [x] (do
    let xi ← readIn u x 0 0
    let s ← get
    pure { out := perOut t (fun i k => actF o.act o.alpha (Config.freeBool (s.free + k)) (xi.val i)) })

def bodyActBwd (u : JobUser) (o : OpD) : JM OpOut := opFin do
  need10 (o.layoutOk 1 [])
  let (x, t) ← unaryPre u o inV
  let g ← getTensor u (o.inp 1)
  fmtOk g inV
  need10 (x.dims == t.dims && g.dims == t.dims)
  aliasOk u t [x, g] false
  quantRun u o t [x, g] (do
    let xi ← readIn u x 0 0
    let gi ← readIn u g 0 0
    let s ← get
    pure { out := perOut t (fun i k => fmul (gi.val i) (actD o.act o.alpha (Config.freeBool (s.free + k)) (xi.val i))) })

/-! ## POOL (R587) -/

/-- In-image indices of a window. -/
def poolWindow (c : ConvP) (kw kh : Nat) (x : Tensor) (i : List Nat) : List (List Nat) :=
  (List.range kh).flatMap (fun ky => (List.range kw).filterMap (fun kx =>
    match inImage (ix i 1 * c.sx + kx) c.pl (x.dim 1), inImage (ix i 2 * c.sy + ky) c.pt (x.dim 2) with
    | some a, some b => some [ix i 0, a, b, ix i 3, 0]
    | _, _ => none))
/-- The largest of a window; with a NaN in it, or with none in it, the manual gives no value. -/
def poolMax (fr : Nat) (l : List Fl) : Fl :=
  if l = [] || l.any (fun x => x.isNan) then freeFl fr
  else l.foldl (fmax (Config.freeBool fr)) (.inf true)
def average (fr : Nat) (l : List Fl) : Fl := if l = [] then freeFl fr else fdivide (foldFl fadd l) (fint l.length)

def bodyPool (u : JobUser) (o : OpD) : JM OpOut := opFin do
  let whole := o.variant == 2
  let c := { convP o with dx := 1, dy := 1, groups := 1 }
  let kw := o.p 0x1A 1
  let kh := o.p 0x1B 1
  need10 (o.layoutOk 3 (if whole then [] else [(0x18, 8)]) && (whole || (c.ok && 1 ≤ kw && kw ≤ 15 && 1 ≤ kh && kh ≤ 15)))
  let (x, t) ← unaryPre u o inQV
  need10 (x.dim 4 == 1 && t.dim 4 == 1 && t.dim 0 == x.dim 0 && t.dim 3 == x.dim 3 &&
    (if whole then t.dim 1 == 1 && t.dim 2 == 1
     else convLen (x.dim 1) c.pl c.pr 1 kw c.sx == some (t.dim 1) && convLen (x.dim 2) c.pt c.pb 1 kh c.sy == some (t.dim 2)))
  aliasOk u t [x] false
  quantRun u o t [x] (do
    let xi ← readIn u x 0 0
    let s ← get
    pure { out := perOut t (fun i k =>
      let win := if whole then
          (List.range (x.dim 2)).flatMap (fun y => (List.range (x.dim 1)).map (fun a => [ix i 0, a, y, ix i 3, 0]))
        else poolWindow c kw kh x i
      let l := win.map xi.val
      if o.variant = 0 then poolMax (s.free + k) l else average (s.free + k) l) })

/-! ## RESIZE (R588) -/

/-- floor of a finite binary32 value. -/
def flFloor (x : Fl) : Int := x.rat.floor
/-- BILINEAR along one axis: input size w, output size wo, output place x; the input's values by place. -/
def bilinear (w wo x : Nat) (p : Nat → Fl) : Fl :=
  let sx := fsub (fmul (fadd (fint x) (rne32 (1 / 2))) (rne32 ((w : Rat) / (wo : Rat)))) (rne32 (1 / 2))
  let i := flFloor sx
  let f := fsub sx (fint i)
  let at_ := fun (k : Int) => p (min (w - 1) k.toNat)
  fadd (fmul (fsub (fint 1) f) (at_ i)) (fmul f (at_ (i + 1)))

def bodyResize (u : JobUser) (o : OpD) : JM OpOut := opFin do
  need10 (o.layoutOk 2 [])
  let (x, t) ← unaryPre u o inQV
  need10 (x.dim 4 == 1 && t.dim 4 == 1 && t.dim 0 == x.dim 0 && t.dim 3 == x.dim 3)
  aliasOk u t [x] false
  quantRun u o t [x] (do
    let xi ← readIn u x 0 0
    let w := x.dim 1
    let h := x.dim 2
    pure { out := perOut t (fun i _ =>
      if o.variant = 0 then xi.val [ix i 0, ix i 1 * w / t.dim 1, ix i 2 * h / t.dim 2, ix i 3, 0]
      else bilinear h (t.dim 2) (ix i 2) (fun y => bilinear w (t.dim 1) (ix i 1) (fun a => xi.val [ix i 0, a, y, ix i 3, 0]))) })

/-! ## NORM (R590) -/

def normRow (variant : Nat) (eps : Fl) (l gamma beta : List Fl) : List Fl :=
  let n := fint l.length
  let at_ := fun (g : List Fl) (d : Fl) (k : Nat) => (g[k]?).getD d
  if variant = 0 then
    let mu := fdivide (foldFl fadd l) n
    let var := fdivide (foldFl fadd (l.map (fun x => fmul (fsub x mu) (fsub x mu)))) n
    let r := rsqrtF (fadd var eps)
    l.zipIdx.map (fun e => fadd (fmul (fmul (fsub e.1 mu) r) (at_ gamma (fint 1) e.2)) (at_ beta Fl.zero e.2))
  else
    let r := rsqrtF (fadd (fdivide (foldFl fadd (l.map (fun x => fmul x x))) n) eps)
    l.zipIdx.map (fun e => fadd (fmul (fmul e.1 r) (at_ gamma (fint 1) e.2)) (at_ beta Fl.zero e.2))

/-- Applies a function to every row along dimension 0. -/
def perRow (t : Tensor) (f : List Nat → List Fl) : Array Fl :=
  ((List.range (t.count / t.dim 0)).flatMap (fun r => f (unlin t.dims (r * t.dim 0)))).toArray
def rowOf (x : In) (i : List Nat) : List Fl := (along i 0 (x.t.dim 0)).map x.val
def vecOf (x : Option In) : List Fl :=
  match x with
  | some y => (List.range (y.t.dim 0)).map (fun k => y.val [k, 0, 0, 0, 0])
  | none => []

def bodyNorm (u : JobUser) (o : OpD) : JM OpOut := opFin do
  need10 (o.layoutOk 2 [(0x18, 4)])
  let (x, t) ← unaryPre u o inQV
  let g ← getTensor? u (o.inp 1)
  let b ← getTensor? u (o.inp 2)
  biasOk g (x.dim 0)
  biasOk b (x.dim 0)
  need10 (x.dims == t.dims)
  let ins := [x] ++ g.toList ++ b.toList
  aliasOk u t ins false
  quantRun u o t ins (do
    let xi ← readIn u x 0 0
    let gi ← readBias u g
    let bi ← readBias u b
    pure { out := .vals (perRow t (fun i => normRow o.variant (o.f32 0x18) (rowOf xi i) (vecOf gi) (vecOf bi))) })

/-! ## SOFTMAX and SOFTMAX_XENT (R591, R592) -/

def bodySoftmax (u : JobUser) (o : OpD) : JM OpOut := opFin do
  need10 (o.layoutOk 1 [])
  let (x, t) ← unaryPre u o inQV
  need10 (x.dims == t.dims)
  aliasOk u t [x] false
  quantRun u o t [x] (do
    let xi ← readIn u x 0 0
    pure { out := .vals (perRow t (fun i => softmaxRow (rowOf xi i))) })

/-- The gradient of SOFTMAX_XENT, the labels out of range and the loss (R592). -/
def xentOut (xi li : In) (c nb : Nat) : Array Fl × Nat × Fl :=
  let inv := fdivide (fint 1) (fint nb)
  let rows := (List.range nb).map (fun j => (li.intK j, softmaxRow (rowOf xi [0, j, 0, 0, 0])))
  let good := fun (y : Int) => decide (0 ≤ y ∧ y < (c : Int))
  let grad := rows.flatMap (fun r => r.2.zipIdx.map (fun e =>
    if good r.1 then fmul (fsub e.1 (fint (b2n ((e.2 : Int) == r.1)))) inv else Fl.zero))
  let logs := (rows.filter (fun r => good r.1)).map (fun r => lnF ((r.2[r.1.toNat]?).getD Fl.zero))
  (grad.toArray, (rows.filter (fun r => !good r.1)).length, fmul (foldFl fadd logs).negate inv)

def bodySoftmaxXent (u : JobUser) (o : OpD) : JM OpOut := opFin do
  need10 (o.layoutOk 1 [])
  let (x, t) ← unaryPre u o inV
  let l ← getTensor u (o.inp 1)
  let loss ← getTensor u (o.inp 2)
  plainOut loss
  fmtOk l isI32
  fmtOk loss isF32
  let c := x.dim 0
  let nb := x.dim 1
  need10 (x.dims == [c, nb, 1, 1, 1] && t.dims == x.dims && l.dims == [nb, 1, 1, 1, 1] && loss.dims == [1, 1, 1, 1, 1])
  aliasOk u t [x, l] false
  aliasOk u loss [x, l] false
  quantRun u o t [x, l] (do
    let xi ← readIn u x 0 0
    let li ← readIn u l 0 0
    let (grad, bad, v) := xentOut xi li c nb
    pure { out := .vals grad, clip := bad, after := [(loss, #[encode32 v])] })

/-! ## REDUCE (R593) -/

/-- Indices of the elements that an output element reduces, in ascending linear index. -/
def reduceSet (x : Tensor) (mask : Nat) (i : List Nat) : List (List Nat) :=
  let ds := x.dims.zipIdx.map (fun e => if mask.testBit e.2 then e.1 else 1)
  (List.range (ds.foldl (fun n d => n * d) 1)).map (fun k =>
    (unlin ds k).zipIdx.map (fun e => if mask.testBit e.2 then e.1 else ix i e.2))
/-- a ranks above b, a NaN above every number. -/
def ranksAbove (a b : Fl) : Bool := if a.isNan then !b.isNan else if b.isNan then false else flt b a
/-- Place of the largest, the lowest on ties. -/
def argMax (l : List Fl) : Nat :=
  match l with
  | [] => 0
  | h :: t => (t.zipIdx.foldl (fun (b : Nat × Fl) e => if ranksAbove e.1 b.2 then (e.2 + 1, e.1) else b) (0, h)).1
def reduceOne (variant : Nat) (z : Bool) (l : List Fl) : Fl :=
  match variant with
  | 0 => foldFl fadd l
  | 1 => fdivide (foldFl fadd l) (fint l.length)
  | 2 => l.foldl (fmax z) (.inf true)
  | _ =>
    let nums := l.filter (fun x => !x.isNan)
    if nums = [] then .nan else nums.foldl (fmin z) (.inf false)

def bodyReduce (u : JobUser) (o : OpD) : JM OpOut := opFin do
  let mask := o.p 0x18 1
  let argm := o.variant == 4
  need10 (o.layoutOk 5 [(0x18, 1)] && mask < 32 && (!argm || [1, 2, 4, 8, 16].contains mask))
  let x ← getTensor u (o.inp 0)
  let t ← getTensor u o.out
  plainOut t
  fmtOk x inQV
  fmtOk t (if argm then isI32 else inQV)
  need10 (t.dims == x.dims.zipIdx.map (fun e => if mask.testBit e.2 then 1 else e.1))
  aliasOk u t [x] false
  quantRun u o t [x] (do
    let xi ← readIn u x 0 0
    let s ← get
    let rows := fun (i : List Nat) => (reduceSet x mask i).map xi.val
    pure { out := if argm then .ints ((Array.range t.count).map (fun k => (argMax (rows (unlin t.dims k)) : Int))) true
           else perOut t (fun i k => reduceOne o.variant (Config.freeBool (s.free + k)) (rows i)) })

/-! ## TOPK (R596) -/

/-- Puts an element in its place: descending value, a NaN below every number, ties by lower index. -/
def topPut (e : Fl × Nat) : List (Fl × Nat) → List (Fl × Nat)
  | [] => [e]
  | h :: t =>
    let above := if e.1.isNan then false else h.1.isNan || flt h.1 e.1
    if above then e :: h :: t else h :: topPut e t
def topK (k : Nat) (l : List Fl) : List (Fl × Nat) := (l.zipIdx.foldl (fun acc e => topPut e acc) []).take k

def bodyTopk (u : JobUser) (o : OpD) : JM OpOut := opFin do
  let k := o.p 0x18 2
  need10 (o.layoutOk 1 [(0x18, 2)] && 1 ≤ k && k ≤ 256)
  let (x, t) ← unaryPre u o inV
  let n ← getTensor u (o.inp 1)
  plainOut n
  fmtOk n isI32
  need10 (k ≤ x.dim 0 && t.dims == x.dims.set 0 k && n.dims == t.dims)
  aliasOk u t [x] false
  aliasOk u n [x] false
  quantRun u o t [x] (do
    let xi ← readIn u x 0 0
    let rows := (List.range (x.count / x.dim 0)).map (fun r => topK k (rowOf xi (unlin x.dims (r * x.dim 0))))
    let all := rows.flatten
    pure { out := .vals (all.map (fun e => e.1)).toArray, after := [(n, (all.map (fun e => e.2)).toArray)] })

/-! ## BOX_SUPPRESS (R597) -/

/-- IoU of two boxes. -/
def boxIou (a b : List Fl) : Fl :=
  let g := fun (l : List Fl) (k : Nat) => (l[k]?).getD Fl.zero
  let side := fun (p q : Nat) =>
    fmax false Fl.zero (fsub (fmin false (g a q) (g b q)) (fmax false (g a p) (g b p)))
  let i := fmul (side 0 2) (side 1 3)
  let area := fun (l : List Fl) => fmul (fsub (g l 2) (g l 0)) (fsub (g l 3) (g l 1))
  let d := fsub (fadd (area a) (area b)) i
  if d.isZero then Fl.zero else fdivide i d
/-- Keeps boxes in order. -/
def keepBoxes (iouThr : Fl) (most : Nat) : List (List Fl × Nat) → List (List Fl × Nat) → List Nat
  | kept, [] => kept.map (fun e => e.2)
  | kept, b :: t =>
    if most ≤ kept.length then kept.map (fun e => e.2)
    else if kept.any (fun k => flt iouThr (boxIou k.1 b.1)) then keepBoxes iouThr most kept t
    else keepBoxes iouThr most (kept ++ [b]) t

/-- What BOX_SUPPRESS yields (R597): the kept boxes in order, then −1; where a NaN leaves the order open, so is the result. -/
def boxOut (o : OpD) (bi ci : In) (nb most fr : Nat) : Array Int :=
  let scores := (List.range nb).map (fun k => ci.val [k, 0, 0, 0, 0])
  let thr := o.f32 0x1C
  if thr.isNan || scores.any (fun x => x.isNan) then (Array.range most).map (fun k => sgn 32 (Config.freeWord (fr + k)).toNat)
  else
    let live := scores.zipIdx.filter (fun e => flt thr e.1)
    let sorted := live.foldl (fun acc e => topPut e acc) []
    let kept := keepBoxes (o.f32 0x18) most [] (sorted.map (fun e => (rowOf bi [0, e.2, 0, 0, 0], e.2)))
    (Array.range most).map (fun k => match (kept[k]? : Option Nat) with | some n => Int.ofNat n | none => (-1 : Int))

def bodyBoxSuppress (u : JobUser) (o : OpD) : JM OpOut := opFin do
  let most := o.p 0x20 2
  need10 (o.layoutOk 1 [(0x18, 8), (0x20, 2)] && 1 ≤ most && most ≤ 4096)
  let b ← getTensor u (o.inp 0)
  let c ← getTensor u (o.inp 1)
  let t ← getTensor u o.out
  plainOut t
  fmtOk b isF32
  fmtOk c isF32
  fmtOk t isI32
  let nb := b.dim 1
  need10 (nb ≤ 4096 && b.dims == [4, nb, 1, 1, 1] && c.dims == [nb, 1, 1, 1, 1] && t.dims == [most, 1, 1, 1, 1])
  aliasOk u t [b, c] false
  quantRun u o t [b, c] (do
    let bi ← readIn u b 0 0
    let ci ← readIn u c 0 0
    let s ← get
    pure { out := .ints (boxOut o bi ci nb most s.free) true })

/-! ## CONVERT (R598) -/

def bodyConvert (u : JobUser) (o : OpD) : JM OpOut := opFin do
  need10 (o.layoutOk 1 [])
  let (x, t) ← unaryPre u o anyFmt
  need10 (x.dims == t.dims)
  aliasOk u t [x] true
  quantRun u o t [x] (do
    let xi ← readIn u x 0 0
    pure { out := perOut t (fun i _ => xi.val i) })

/-! ## OPT_SGD and OPT_ADAM (R599, R600) -/

/-- A step of OPT_SGD (R599): new weights and velocities. -/
def sgdStep (o : OpD) (t : Tensor) (wi gi : In) (vi : Option In) : Array (Fl × Fl) :=
  (Array.range t.count).map (fun k =>
    let i := unlin t.dims k
    let w := wi.val i
    let g1 := fadd (gi.val i) (fmul (o.f32 0x20) w)
    let v1 := match vi with | some x => fadd (fmul (o.f32 0x1C) (x.val i)) g1 | none => g1
    (fsub w (fmul (o.f32 0x18) v1), v1))

def bodyOptSgd (u : JobUser) (o : OpD) : JM OpOut := opFin do
  need10 (o.layoutOk 1 [(0x18, 12)])
  let g ← getTensor u (o.inp 0)
  let v ← getTensor? u (o.inp 1)
  let t ← getTensor u o.out
  plainOut t
  fmtOk t inQV
  fmtOk g isF32
  match v with
  | some x => do
    fmtOk x isF32
    plainOut x
  | none => pure ()
  let ins := [g] ++ v.toList
  need10 (ins.all (fun x => x.dims == t.dims))
  aliasOk u t ins true
  quantRun u o t ins (do
    let wi ← readIn u t 0 0
    let gi ← readIn u g 0 0
    let vi ← readBias u v
    let step := sgdStep o t wi gi vi
    pure { out := .vals (step.map (fun e => e.1))
           after := match v with | some x => [(x, step.map (fun e => encode32 e.2))] | none => [] })

/-- A step of OPT_ADAM (R600): new weights and moments. -/
def adamStep (o : OpD) (t : Tensor) (wi gi mi vi : In) : Array (Fl × Fl × Fl) :=
  let p := fun k => o.f32 (0x18 + 4 * k)
  (Array.range t.count).map (fun k =>
    let i := unlin t.dims k
    let w := wi.val i
    let g := gi.val i
    let m1 := fadd (fmul (p 1) (mi.val i)) (fmul (fsub (fint 1) (p 1)) g)
    let v1 := fadd (fmul (p 2) (vi.val i)) (fmul (fsub (fint 1) (p 2)) (fmul g g))
    let d := fdivide (fmul m1 (p 5)) (fadd (fsqrt (fmul v1 (p 6))) (p 3))
    (fsub w (fmul (p 0) (fadd d (fmul (p 4) w))), m1, v1))

def bodyOptAdam (u : JobUser) (o : OpD) : JM OpOut := opFin do
  need10 (o.layoutOk 1 [(0x18, 28)])
  let g ← getTensor u (o.inp 0)
  let m ← getTensor u (o.inp 1)
  let v ← getTensor u (o.inp 2)
  let t ← getTensor u o.out
  plainOut t
  plainOut m
  plainOut v
  fmtOk t inQV
  fmtOk g isF32
  fmtOk m isF32
  fmtOk v isF32
  let ins := [g, m, v]
  need10 (ins.all (fun x => x.dims == t.dims))
  aliasOk u t ins true
  quantRun u o t ins (do
    let wi ← readIn u t 0 0
    let gi ← readIn u g 0 0
    let mi ← readIn u m 0 0
    let vi ← readIn u v 0 0
    let step := adamStep o t wi gi mi vi
    pure { out := .vals (step.map (fun e => e.1))
           after := [(m, step.map (fun e => encode32 e.2.1)), (v, step.map (fun e => encode32 e.2.2))] })

end Sys2Proof.Machine
end

