-- ==== Sys2Proof/Machine/Opm.lean ====
section
/-! DEFINITION. Sys2Proof/Machine/Opm.lean: the operations that move codes and those that synchronise (R594, R595, R601 to
R607), and the meaning of every operation's command. -/
namespace Sys2Proof.Machine
open Sys2Proof

/-! ## TRANSPOSE, CONCAT, PAD (R594) -/

/-- One input and OUT of one format. -/
def movePre (u : JobUser) (o : OpD) : JM (Tensor × Tensor) := do
  let x ← getTensor u (o.inp 0)
  let t ← getTensor u o.out
  fmtOk x anyFmt
  if t.fmt ≠ x.fmt then badFormat t.ix
  fmtOk t anyFmt
  pure (x, t)
/-- OUT's codes from their indices. -/
def moved (t : Tensor) (f : List Nat → Option Nat) : Invocation :=
  { out := .codes ((Array.range t.count).map (fun k => f (unlin t.dims k))) }

def bodyTranspose (u : JobUser) (o : OpD) : JM OpOut := opFin do
  let perm := (List.range 5).map (fun d => o.p (0x18 + d) 1)
  need10 (o.layoutOk 1 [(0x18, 5)] && (List.range 5).all (fun d => perm.contains d))
  let (x, t) ← movePre u o
  plainOut t
  need10 (t.dims == perm.map x.dim)
  aliasOk u t [x] false
  moveRun u t (do
    let xi ← readIn u x 0 0
    pure (moved t (fun i => some (xi.codeI ((List.range 5).map (fun d => ix i (perm.findIdx (fun p => p == d))))))))

/-- The input that holds place p along the joined dimension, and the place in it. -/
def concatAt : List In → Nat → Nat → Option (In × Nat)
  | [], _, _ => none
  | x :: t, dim, p => if p < x.t.dim dim then some (x, p) else concatAt t dim (p - x.t.dim dim)

def bodyConcat (u : JobUser) (o : OpD) : JM OpOut := opFin do
  let dim := o.p 0x18 1
  need10 (o.layoutOk 1 [(0x18, 1)] && dim < 5)
  let l ← ((List.range 4).filter (fun k => o.inp k ≠ 0xFFFF)).mapM (fun k => getTensor u (o.inp k))
  let t ← getTensor u o.out
  plainOut t
  fmtOk t anyFmt
  let _ ← l.mapM (fun x => if x.fmt ≠ t.fmt then badFormat x.ix else fmtOk x anyFmt)
  need10 (l != [] && l.all (fun x => x.dims.set dim 0 == t.dims.set dim 0) && l.foldl (fun n x => n + x.dim dim) 0 == t.dim dim)
  aliasOk u t l false
  moveRun u t (do
    let xs ← l.mapM (fun x => readIn u x 0 0)
    pure (moved t (fun i => (concatAt xs dim (ix i dim)).map (fun e => e.1.codeI (i.set dim e.2)))))

/-- Elements of PAD before and after the input along a dimension. -/
def padBefore (o : OpD) (d : Nat) : Nat := if d < 4 then o.p (0x18 + 2 * d) 1 else 0
def padAfter (o : OpD) (d : Nat) : Nat := if d < 4 then o.p (0x19 + 2 * d) 1 else 0
/-- The input in its place, VALUE around it. -/
def padded (o : OpD) (xi : In) (t : Tensor) (v : Nat) : Invocation :=
  moved t (fun i =>
    let inside := (List.range 5).all (fun d => padBefore o d ≤ ix i d && ix i d - padBefore o d < xi.t.dim d)
    some (if inside then xi.codeI ((List.range 5).map (fun d => ix i d - padBefore o d)) else v % 2 ^ t.bits))

def bodyPad (u : JobUser) (o : OpD) : JM OpOut := opFin do
  need10 (o.layoutOk 1 [(0x18, 9), (0x28, 8)])
  let v ← o.value u 0x20 0x28
  let (x, t) ← movePre u o
  plainOut t
  need10 (t.dims == (List.range 5).map (fun d => padBefore o d + x.dim d + padAfter o d))
  aliasOk u t [x] false
  moveRun u t (do
    let xi ← readIn u x 0 0
    pure (padded o xi t v))

/-! ## GATHER, SCATTER (R595, R610) -/

def bodyGather (u : JobUser) (o : OpD) : JM OpOut := opFin do
  let dim := o.p 0x18 1
  need10 (o.layoutOk 1 [(0x18, 1)] && dim < 5)
  let (x, t) ← movePre u o
  plainOut t
  let n ← getTensor u (o.inp 1)
  fmtOk n isI32
  let l := n.dim 0
  need10 (n.dims == [l, 1, 1, 1, 1] && t.dims == x.dims.set dim l)
  aliasOk u t [x, n] false
  moveRun u t (do
    let xi ← readIn u x 0 0
    let ni ← readIn u n 0 0
    let good := fun (k : Nat) => decide (0 ≤ ni.intK k ∧ ni.intK k < (x.dim dim : Int))
    let bad := ((List.range l).filter (fun k => !good k)).length
    let m := moved t (fun i =>
      let k := ix i dim
      some (if good k then xi.codeI (i.set dim (ni.intK k).toNat) else 0))
    pure { m with clip := bad * (t.count / l) })

/-- The slices of SCATTER whose index n lies in OUT, with it. -/
def slices (ni : In) (l n : Nat) : List (Nat × Nat) :=
  (List.range l).filterMap (fun k => if 0 ≤ ni.intK k ∧ ni.intK k < (n : Int) then some (k, (ni.intK k).toNat) else none)
/-- ADD: every slice is added in ascending order (R595, R610). -/
def scatterAdd (t : Tensor) (xi ti : In) (sl : List (Nat × Nat)) (dim l : Nat) : Invocation :=
  { out := .part ((Array.range t.count).map (fun k =>
      let i := unlin t.dims k
      let mine := sl.filter (fun e => e.2 == ix i dim)
      if mine = [] then none else some (mine.foldl (fun v e => fadd v (xi.val (i.set dim e.1))) (ti.val i))))
    clip := (l - sl.length) * (xi.t.count / l) }
/-- SET: the last slice of an index stays. -/
def scatterSet (t : Tensor) (xi : In) (sl : List (Nat × Nat)) (dim l : Nat) : Invocation :=
  { moved t (fun i => (sl.reverse.find? (fun e => e.2 == ix i dim)).map (fun e => xi.codeI (i.set dim e.1))) with
    clip := (l - sl.length) * (xi.t.count / l) }

def bodyScatter (u : JobUser) (o : OpD) : JM OpOut := opFin do
  let dim := o.p 0x18 1
  need10 (o.layoutOk 2 [(0x18, 1)] && dim < 5)
  let add := o.variant == 1
  let x ← getTensor u (o.inp 0)
  let n ← getTensor u (o.inp 1)
  let t ← getTensor u o.out
  plainOut t
  fmtOk x (if add then inV else anyFmt)
  if !add && t.fmt ≠ x.fmt then badFormat t.ix
  fmtOk t (if add then inV else anyFmt)
  fmtOk n isI32
  let l := n.dim 0
  need10 (n.dims == [l, 1, 1, 1, 1] && x.dims == t.dims.set dim l)
  aliasOk u t [x, n] true
  if add then
    quantRun u o t [x, n] (do
      let ti ← readIn u t 0 0
      let xi ← readIn u x 0 0
      let ni ← readIn u n 0 0
      let sl := slices ni l (t.dim dim)
      pure (scatterAdd t xi ti sl dim l))
  else
    moveRun u t (do
      let xi ← readIn u x 0 0
      let ni ← readIn u n 0 0
      let sl := slices ni l (t.dim dim)
      pure (scatterSet t xi sl dim l))

/-! ## FILL (R601) -/

def bodyFill (u : JobUser) (o : OpD) : JM OpOut := opFin do
  need10 (o.layoutOk 2 [(0x18, 1), (0x20, 8)])
  let v ← o.value u 0x18 0x20
  let t ← getTensor u o.out
  plainOut t
  fmtOk t anyFmt
  if o.variant = 0 then
    quantRun u o t [] (pure { out := .vals (Array.replicate t.count (decode32 (v % 2 ^ 32))) })
  else moveRun u t (pure (moved t (fun _ => some (v % 2 ^ t.bits))))

/-! ## COPY (R594, R696 to R701, R713) -/

/-- The encode that a COPY asks for: its table slots, and its choice of R701. -/
def State.encodeOf (s : State) (u : JobUser) (x t : Tensor) (base : Option Tensor) : Encode :=
  let reason := s.bypassReason u x t base
  { flask := u.f, bypass := reason
    slots := if reason = 0 then ((List.range (seqEpochs (contentLen t t.dims))).map (fun e => (t.tableId + e) % 64)).dedup else [] }
/-- An encoder is idle and no encode listed holds a slot of e. -/
def slotsFree (l : List Encode) (e : Encode) : Bool := l.all (fun x => e.slots.all (fun k => !x.slots.contains k))
/-- The BYPASS event of a COPY (R701). -/
def State.bypassEvent (s : State) (u : JobUser) (reason : Nat) : State :=
  if reason = 0 then s
  else s.bumpInfo Blk.flx 6 0x13C (at_ (if u.job.ctx < 32 then u.job.ctx else 0) 16 5 ||| at_ reason 0 2)

def bodyCopy (u : JobUser) (o : OpD) : JM OpOut := do
  need10 (o.layoutOk 1 [])
  let (x, t) ← movePre u o
  need10 (x.dims == t.dims)
  aliasOk u t [x] false
  if t.compress = 0 then
    opFin (moveRun u t (do
      let xi ← readIn u x 0 0
      pure (moved t (fun i => some (xi.codeI i)))))
  else
    let base ← baseOf u t
    let s ← get
    let w : JobUser := { u with cru := Config.mFlux }
    match s.flx.encoders.find? (fun e => e.flask == u.f) with
    | some e => do
      jwriteAs Config.mFlux u t.addr (leBytes 4 0)
      let c ← readCodes w x
      let len := contentLen t t.dims
      let bb ← match base with
        | some b => jreadAll w b.addr len
        | none => pure (List.replicate len 0)
      writeSequence u t (e.bypass != 0) (t.content (fun k => some (c.getD k 0))) bb.toArray
      let s1 ← get
      set (s1.freeEncoders u.f)
      pure (.fin {})
    | none =>
      if s.flx.waiting.any (fun e => e.flask == u.f) then pure .wait
      else
        let e := s.encodeOf u x t base
        let s1 := s.bypassEvent u e.bypass
        if s.flx.encoders.length < 4 && slotsFree s.flx.encoders e && slotsFree s.flx.waiting e then do
          set { s1 with flx.encoders := s1.flx.encoders ++ [e] }
          jwriteAs Config.mFlux u t.addr (leBytes 4 0)
          setWait u .encoder
        else do
          set { s1 with flx.waiting := s1.flx.waiting ++ [e] }
          setWait u .encoder

/-- The first waiting encode that an idle encoder and its free slots can serve, and those before it. -/
def grantable (held : List Encode) : List Encode → List Encode → Option (Encode × List Encode)
  | _, [] => none
  | before, e :: t =>
    if held.length < 4 && slotsFree held e && slotsFree before e then some (e, before ++ t) else grantable held (before ++ [e]) t

/-- ENCODER_GRANT (R696, R715): a waiting COPY is granted an encoder and its slots. -/
def execEncoderGrant (s : State) : Host.Outcome State Fault Refusal :=
  done s (if s.frozen then s
    else match grantable s.flx.encoders [] s.flx.waiting with
    | some (e, rest) => { s with flx.encoders := s.flx.encoders ++ [e], flx.waiting := rest }
    | none => s)

/-! ## WAIT, FENCE, SIGNAL (R602 to R604, R607, R612) -/

/-- The flask's lowest-numbered crucible performs the operation (R607). -/
def State.lowestUser (s : State) (u : JobUser) : JobUser := { u with cru := ((s.crucibles u.f).head?).getD 0 }

/-- COND of R604. -/
def condHolds (cond v w : Nat) : Bool :=
  match cond with
  | 0 => v == w
  | 1 => v != w
  | 2 => decide (w ≤ v)
  | _ => decide (sgn 64 w ≤ sgn 64 v)

/-- When the wait of the operation in progress began. -/
def State.waitFrom (s : State) (f : Nat) (w : OpWait) : Option Nat :=
  match (s.flask f).running with
  | some r => (match r.wait with | some (x, t) => if x = w then some t else none | none => none)
  | none => none

/-- WAIT: one look at the word. `late` ends the wait by TIMEOUT; a condition that comes to hold in the same µs counts. -/
def bodyWait (late : Bool) (u0 : JobUser) (o : OpD) : JM OpOut := do
  let s ← get
  let u := s.lowestUser u0
  need10 (o.layoutOk 1 [(0x18, 2), (0x1C, 20)] && o.p 0x18 1 < 4 && o.p 0x20 8 % 8 == 0 && o.p 0x20 8 < 2 ^ 40)
  let v ← o.value u 0x19 0x28
  let limit := o.p 0x1C 4 * tbUs
  let due := match s.waitFrom u.f .poll with
    | some t0 => limit != 0 && decide (t0 + limit ≤ s.clk.now)
    | none => false
  if late && !due then pure .wait
  else
    let d ← jread u (o.p 0x20 8) 8
    let holds := condHolds (o.p 0x18 1) (leNat d) v
    let inTime := match s.waitFrom u.f .poll with
      | some t0 => limit == 0 || decide (s.clk.now < t0 + limit + tbUs)
      | none => true
    if holds && inTime then pure (.fin { elems := 1 })
    else if late then pure (.fin { elems := 0 })
    else setWait u .poll

/-- FENCE: every earlier write of the job is visible or acknowledged, since nothing of it is in flight (R573); it
completes with FENCE_COMPLETE. -/
def bodyFence (complete : Bool) (u : JobUser) (o : OpD) : JM OpOut := do
  need10 (o.layoutOk 1 [(0x18, 1)] && o.p 0x18 1 < 2)
  let s ← get
  if complete then
    if (s.waitFrom u.f .fence).isSome then pure (.fin {}) else pure .wait
  else setWait u .fence

def bodySignal (u0 : JobUser) (o : OpD) : JM OpOut := do
  let s ← get
  let u := s.lowestUser u0
  need10 (o.layoutOk 1 [(0x18, 2), (0x20, 16)] && o.p 0x18 1 < 2 && o.p 0x20 8 % 8 == 0 && o.p 0x20 8 < 2 ^ 40)
  let v ← o.value u 0x19 0x28
  jwrite u (o.p 0x20 8) (leBytes 8 v)
  pure (.fin {})

/-! ## QPUSH, QPOP (R605, R606, R611) -/

/-- A queue whose CFG names the job's context as owner. -/
def State.ownedBy (s : State) (q c : Nat) : Bool := s.qOwned q && s.qCtx q == c
/-- An INT8 tensor of n bytes. -/
def bytesTensor (t : Tensor) (n : Nat) : JM Unit := do
  fmtOk t isI8
  need10 (t.count == n)

def bodyQpush (u0 : JobUser) (o : OpD) : JM OpOut := do
  let s ← get
  let u := s.lowestUser u0
  let q := o.p 0x18 1
  let n := o.p 0x19 1
  let c := u.job.ctx
  need10 (o.layoutOk 1 [(0x18, 3)] && 1 ≤ n && n ≤ 16 && o.p 0x1A 1 < 8 && c < 32 &&
    (q == 2 * c || (108 ≤ q && q < 128 && s.ownedBy q c)))
  let x ← getTensor u (o.inp 0)
  bytesTensor x (64 * n)
  let codes ← readCodes u x
  let s ← get
  let s := s.pushEffect q false
  if s.credits q < n then
    if bit (o.p 0x1A 1) 2 then setWait u .credit
    else do
      let info := at_ u.cru 24 8 ||| at_ q 16 7 ||| at_ (s.credits q) 0 13
      set ((s.bumpInfo Blk.que 2 0x108 info).pushResult q 0 true)
      jmFail (.stop stCredit 0 0xFFF)
  else
    let bodies := (List.range n).map (fun i => (List.range 64).map (fun j => BitVec.ofNat 8 (codes.getD (64 * i + j) 0)))
    set ((if s.qEn q then (s.pushResult q n false).enqueue q (framed (bit (o.p 0x1A 1) 0) (bit (o.p 0x1A 1) 1) bodies) else s).qNotify q)
    pure (.fin {})

/-- QPOP: `late` ends its wait by TIMEOUT with nothing popped. -/
def bodyQpop (late : Bool) (u0 : JobUser) (o : OpD) : JM OpOut := do
  let s ← get
  let u := s.lowestUser u0
  let q := o.p 0x18 1
  let n := o.p 0x19 1
  let c := u.job.ctx
  need10 (o.layoutOk 1 [(0x18, 3), (0x1C, 4)] && 1 ≤ n && n ≤ 16 && o.p 0x1A 1 < 2 && c < 32 && 64 ≤ q && q < 128 && s.ownedBy q c)
  let t ← getTensor u o.out
  plainOut t
  bytesTensor t (64 * (n + 1))
  let limit := o.p 0x1C 4 * tbUs
  let due := match s.waitFrom u.f .pop with
    | some t0 => limit != 0 && decide (t0 + limit ≤ s.clk.now)
    | none => false
  let occ := (s.queue q).occ
  if late && !(due && occ == 0) then pure .wait
  else if !late && occ = 0 && bit (o.p 0x1A 1) 0 then setWait u .pop
  else
    let k := min n occ
    let bodies ← (List.range k).mapM (fun i =>
      jread u (s.bus.chipId * 2 ^ 38 + s.qSlot q ((s.queue q).head + i)) 64)
    let s ← get
    let x := s.queue q
    let fl := (List.range 16).map (fun i =>
      if i < k then (match x.flags[i]? with | some e => b2n e.1 + 2 * b2n e.2 | none => 0) else 0)
    let status := leBytes 2 k ++ leBytes 2 x.epoch ++ fl.flatMap (leBytes 1) ++ List.replicate 44 0
    let s1 := s.qRemove q k
    let y := s1.queue q
    set (s1.setQueue q { y with removed := k })
    let all := (bodies.flatten ++ List.replicate (64 * (n - k)) 0 ++ status).toArray
    writePlain u t (fun i => some (all.getD i 0).toNat)
    pure (.fin {})

/-! ## The commands -/

/-- CONV (R582): flask f runs its next operation; `stall` is the time its regulator held it. -/
def execConv (f : FlaskId) (stall : Nat) (s : State) : Host.Outcome State Fault Refusal :=
  done s (s.runOp f.val 0x01 stall bodyConv)
/-- CONV_TRANSPOSE (R583). -/
def execConvTranspose (f : FlaskId) (stall : Nat) (s : State) : Host.Outcome State Fault Refusal :=
  done s (s.runOp f.val 0x02 stall bodyConvTranspose)
/-- CONV_BWD_WEIGHT (R584). -/
def execConvBwdWeight (f : FlaskId) (stall : Nat) (s : State) : Host.Outcome State Fault Refusal :=
  done s (s.runOp f.val 0x03 stall bodyConvBwdWeight)
/-- MATMUL (R585). -/
def execMatmul (f : FlaskId) (stall : Nat) (s : State) : Host.Outcome State Fault Refusal :=
  done s (s.runOp f.val 0x10 stall bodyMatmul)
/-- ATTENTION (R586). -/
def execAttention (f : FlaskId) (stall : Nat) (s : State) : Host.Outcome State Fault Refusal :=
  done s (s.runOp f.val 0x11 stall bodyAttention)
/-- POOL (R587). -/
def execPool (f : FlaskId) (stall : Nat) (s : State) : Host.Outcome State Fault Refusal :=
  done s (s.runOp f.val 0x20 stall bodyPool)
/-- RESIZE (R588). -/
def execResize (f : FlaskId) (stall : Nat) (s : State) : Host.Outcome State Fault Refusal :=
  done s (s.runOp f.val 0x21 stall bodyResize)
/-- ELTWISE (R589). -/
def execEltwise (f : FlaskId) (stall : Nat) (s : State) : Host.Outcome State Fault Refusal :=
  done s (s.runOp f.val 0x30 stall bodyEltwise)
/-- ACT (R580). -/
def execAct (f : FlaskId) (stall : Nat) (s : State) : Host.Outcome State Fault Refusal :=
  done s (s.runOp f.val 0x31 stall bodyAct)
/-- ACT_BWD (R580). -/
def execActBwd (f : FlaskId) (stall : Nat) (s : State) : Host.Outcome State Fault Refusal :=
  done s (s.runOp f.val 0x32 stall bodyActBwd)
/-- NORM (R590). -/
def execNorm (f : FlaskId) (stall : Nat) (s : State) : Host.Outcome State Fault Refusal :=
  done s (s.runOp f.val 0x40 stall bodyNorm)
/-- SOFTMAX (R591). -/
def execSoftmax (f : FlaskId) (stall : Nat) (s : State) : Host.Outcome State Fault Refusal :=
  done s (s.runOp f.val 0x42 stall bodySoftmax)
/-- SOFTMAX_XENT (R592). -/
def execSoftmaxXent (f : FlaskId) (stall : Nat) (s : State) : Host.Outcome State Fault Refusal :=
  done s (s.runOp f.val 0x43 stall bodySoftmaxXent)
/-- REDUCE (R593). -/
def execReduce (f : FlaskId) (stall : Nat) (s : State) : Host.Outcome State Fault Refusal :=
  done s (s.runOp f.val 0x50 stall bodyReduce)
/-- TRANSPOSE (R594). -/
def execTranspose (f : FlaskId) (stall : Nat) (s : State) : Host.Outcome State Fault Refusal :=
  done s (s.runOp f.val 0x60 stall bodyTranspose)
/-- CONCAT (R594). -/
def execConcat (f : FlaskId) (stall : Nat) (s : State) : Host.Outcome State Fault Refusal :=
  done s (s.runOp f.val 0x61 stall bodyConcat)
/-- PAD (R594). -/
def execPad (f : FlaskId) (stall : Nat) (s : State) : Host.Outcome State Fault Refusal :=
  done s (s.runOp f.val 0x62 stall bodyPad)
/-- GATHER (R595). -/
def execGather (f : FlaskId) (stall : Nat) (s : State) : Host.Outcome State Fault Refusal :=
  done s (s.runOp f.val 0x70 stall bodyGather)
/-- SCATTER (R595, R610). -/
def execScatter (f : FlaskId) (stall : Nat) (s : State) : Host.Outcome State Fault Refusal :=
  done s (s.runOp f.val 0x71 stall bodyScatter)
/-- TOPK (R596). -/
def execTopk (f : FlaskId) (stall : Nat) (s : State) : Host.Outcome State Fault Refusal :=
  done s (s.runOp f.val 0x80 stall bodyTopk)
/-- BOX_SUPPRESS (R597). -/
def execBoxSuppress (f : FlaskId) (stall : Nat) (s : State) : Host.Outcome State Fault Refusal :=
  done s (s.runOp f.val 0x81 stall bodyBoxSuppress)
/-- CONVERT (R598). -/
def execConvert (f : FlaskId) (stall : Nat) (s : State) : Host.Outcome State Fault Refusal :=
  done s (s.runOp f.val 0x90 stall bodyConvert)
/-- OPT_SGD (R599). -/
def execOptSgd (f : FlaskId) (stall : Nat) (s : State) : Host.Outcome State Fault Refusal :=
  done s (s.runOp f.val 0xA0 stall bodyOptSgd)
/-- OPT_ADAM (R600). -/
def execOptAdam (f : FlaskId) (stall : Nat) (s : State) : Host.Outcome State Fault Refusal :=
  done s (s.runOp f.val 0xA1 stall bodyOptAdam)
/-- COPY (R594, R696): to a compressed tensor it first takes an encoder, then encodes. -/
def execCopy (f : FlaskId) (stall : Nat) (s : State) : Host.Outcome State Fault Refusal :=
  done s (s.runOp f.val 0xB0 stall bodyCopy)
/-- FILL (R601). -/
def execFill (f : FlaskId) (stall : Nat) (s : State) : Host.Outcome State Fault Refusal :=
  done s (s.runOp f.val 0xB1 stall bodyFill)
/-- QPUSH (R605). -/
def execQpush (f : FlaskId) (stall : Nat) (s : State) : Host.Outcome State Fault Refusal :=
  done s (s.runOp f.val 0xC0 stall bodyQpush)
/-- QPOP (R606). -/
def execQpop (f : FlaskId) (stall : Nat) (s : State) : Host.Outcome State Fault Refusal :=
  done s (s.runOp f.val 0xC1 stall (bodyQpop false))
/-- QPOP_TIMEOUT (R606): the wait of a QPOP ends by TIMEOUT. -/
def execQpopTimeout (f : FlaskId) (stall : Nat) (s : State) : Host.Outcome State Fault Refusal :=
  done s (s.runOp f.val 0xC1 stall (bodyQpop true))
/-- WAIT (R604): one look at the word; the operation ends when the condition holds. -/
def execWait (f : FlaskId) (stall : Nat) (s : State) : Host.Outcome State Fault Refusal :=
  done s (s.runOp f.val 0xC2 stall (bodyWait false))
/-- WAIT_OP_TIMEOUT (R604, R612): the wait of a WAIT ends by TIMEOUT. -/
def execWaitOpTimeout (f : FlaskId) (stall : Nat) (s : State) : Host.Outcome State Fault Refusal :=
  done s (s.runOp f.val 0xC2 stall (bodyWait true))
/-- FENCE (R602). -/
def execFence (f : FlaskId) (stall : Nat) (s : State) : Host.Outcome State Fault Refusal :=
  done s (s.runOp f.val 0xC3 stall (bodyFence false))
/-- FENCE_COMPLETE (R62, R602). -/
def execFenceComplete (f : FlaskId) (stall : Nat) (s : State) : Host.Outcome State Fault Refusal :=
  done s (s.runOp f.val 0xC3 stall (bodyFence true))
/-- SIGNAL (R603). -/
def execSignal (f : FlaskId) (stall : Nat) (s : State) : Host.Outcome State Fault Refusal :=
  done s (s.runOp f.val 0xC4 stall bodySignal)

end Sys2Proof.Machine
end

