-- ==== Sys2Proof/Machine/Fsu.lean ====
section
/-! DEFINITION. Sys2Proof/Machine/Fsu.lean: the Frame Synthesis Unit: mould images, the assist flask, builds, the warp, the
deadline monitor and the reports (R783 to R828). -/
namespace Sys2Proof.Machine
open Sys2Proof

/-! ## Mould images (R806 to R808) -/

/-- Address in `Mem.bytes` of bank b of mould core c. -/
def bankAddr (c b : Nat) : Nat := mouldBase + c * 0x80000 + b * 0x40000
/-- An image that occupies both banks (R808). -/
def wideImage (h : List Byte) : Bool := 262144 < bytesAt h 8 4
def bankLen (h : List Byte) : Nat := if wideImage h then 0x80000 else 0x40000
/-- Header of the image in a bank, and of the active one. -/
def Fsu.head (f : Fsu) (b : Nat) : List Byte := if b = 0 then f.headA else f.headB
def State.activeHead (s : State) : Option (List Byte) := s.fsu.active.map s.fsu.head
/-- Source pixels of a tile (R784). -/
def tileW (up : Nat) : Nat := 96 * upDen up / upNum up
def tileH (up : Nat) : Nat := 48 * upDen up / upNum up

/-- Fields of R806, by offset. -/
def headerFields (h : List Byte) : List (Nat × Bool) :=
  let g := fun o n => bytesAt h o n
  let len := g 8 4
  let rng := fun v lo hi => decide (lo ≤ v ∧ v ≤ hi)
  [(0x00, g 0 4 == 0x444C4F4D), (0x04, g 4 2 == 1), (0x06, rng (g 6 1) 1 3), (0x07, rng (g 7 1) 0 16),
   (0x08, rng len 4096 524288 && len % 64 == 0), (0x0C, rng (g 0xC 4) 1 1000000), (0x18, rng (g 0x18 2) 1 256),
   (0x1A, rng (g 0x1A 2) 2 256), (0x1C, g 0x1C 4 % 64 == 0 && g 0x1C 4 + 64 * g 0x18 2 ≤ len),
   (0x20, g 0x20 4 % 64 == 0 && g 0x20 4 + 64 * g 0x1A 2 ≤ len), (0x26, g 0x26 2 == 0),
   (0x28, g 0x28 4 + g 0x2C 4 ≤ len), (0x2C, (g 0x2C 4 == 0 && g 0x28 4 == 0) || (g 0x28 4 != 0 && rng (g 0x2C 4) 512 65536)),
   (0x30, g 0x30 8 == 0)]

/-- Who runs an image's program on core c. -/
def mouldUser (c b : Nat) (h : List Byte) (trial : Bool) : JobUser :=
  { f := 8, op := 0, cru := Config.mFsu, mould := some (bankAddr c b, bankLen h), trial := trial
    job := { ctx := 33, flask := 8, opsBase := bytesAt h 0x1C 4, nOps := bytesAt h 0x18 2, nTensors := bytesAt h 0x1A 2
             tensorBase := bytesAt h 0x20 4 } }

/-- Operations that a mould program may hold (R807). -/
def mouldBodies : List (Nat × (JobUser → OpD → JM OpOut)) :=
  [(0x01, bodyConv), (0x02, bodyConvTranspose), (0x30, bodyEltwise), (0x31, bodyAct), (0x21, bodyResize), (0x61, bodyConcat),
   (0x62, bodyPad), (0x90, bodyConvert), (0xB0, bodyCopy)]
/-- Array pairs that it may use. -/
def mouldPair (a b : Nat) : Bool := (a == 1 && b == 1) || (a == 8 && b == 1) || (a == 1 && b == 8) || (a == 0 && b == 0)
def mouldOp (u : JobUser) : JM OpD := do
  let d ← jread u (u.job.opsBase + 64 * u.op) 64
  pure { d := d }
/-- One operation of a program. -/
def mouldStep (u : JobUser) : JM Unit := do
  let o ← mouldOp u
  match mouldBodies.find? (fun e => e.1 == o.opcode) with
  | some (_, body) =>
    let _ ← body u o
    pure ()
  | none => badOp
/-- The whole program. -/
def mouldProgram (u : JobUser) : JM Unit := (List.range u.job.nOps).forM (fun i => mouldStep { u with op := i })

/-- What R807 asks of the operations and tensors. -/
def mouldRules (u : JobUser) (h : List Byte) : JM Unit := do
  let up := bytesAt h 6 1
  let halo := bytesAt h 7 1
  let ts ← (List.range u.job.nTensors).mapM (fun i => readTensor u i)
  need10 (ts.all (fun t => t.space == 0 && t.compress == 0))
  let x ← readTensor u 0
  let y ← readTensor u 1
  need10 (x.fmt == 1 && x.dims == [4, tileW up + 2 * halo, tileH up + 2 * halo, 1, 1] && y.fmt == 1 &&
    y.dims == [3, 96, 48, 1, 1] && y.scaleMode == 0)
  (List.range u.job.nOps).forM (fun i => do
    let o ← mouldOp { u with op := i }
    if o.opcode = 1 ∨ o.opcode = 2 then
      let a ← readTensor u (o.inp 0)
      let b ← readTensor u (o.inp 1)
      need10 (mouldPair a.fmt b.fmt)
    else pure ())
/-- The program keeps R807: its rules hold and every operation of a trial run passes its checks. -/
def State.mouldSound (s : State) (h img : List Byte) : Bool :=
  let t := s.store (bankAddr 0 0) img
  let u := mouldUser 0 0 h true
  match ((mouldRules u h *> mouldProgram u).run.run t : Except Halt Unit × State) with
  | (.ok _, _) => true
  | _ => false

/-! ## MOULD_LOAD (R809, R820) -/

/-- The bank that a load writes. -/
def State.loadBank (s : State) (bank : Nat) (wide : Bool) : Nat :=
  if wide then 0 else if bank = 0 then (match s.fsu.active with | some 0 => 1 | _ => 0) else bank - 1
/-- STATE_CONFLICT 3. -/
def State.loadClash (s : State) (bank : Nat) (wide : Bool) : Bool :=
  let b := s.loadBank bank wide
  (wide && s.fsu.st == 2) || (!wide && s.fsu.wide && s.fsu.active.isSome) || (bank != 0 && s.fsu.active == some b)
/-- State codes of the banks. -/
def State.setBank (s : State) (b v : Nat) (wide : Bool) : State :=
  { s with
    fsu.bankA := if b = 0 || wide then v else s.fsu.bankA
    fsu.bankB := if b = 1 || wide then v else s.fsu.bankB
    fsu.ready := s.fsu.ready.filter (fun r => r != b && !wide) }
/-- A load that fails leaves its bank INVALID. -/
def State.loadFails (s : State) (m b : Nat) (wide : Bool) (code detail : Nat) : State :=
  ({ s.setBank b 0 wide with fsu.load := none }).refuse m code detail

/-- Steps 1 and 2: the header, the CRCs, R807 and the cycle count. -/
def State.mouldCheck (s : State) (m : Nat) : State :=
  let src := s.rq m 0x10 8
  let bank := s.rq m 0x18 1
  let (h, p, s1) := s.demandRead Config.mForeman src 64
  let wide := wideImage h
  let b := s1.loadBank bank wide
  let clash := s1.loadClash bank wide
  -- the active bank stays as it is
  let fails := fun (s : State) (code detail : Nat) => if s.fsu.active == some b then s.refuse m code detail else s.loadFails m b wide code detail
  match (if p then some 0x10 else if ingotRange src (bytesAt h 8 4) then badField (headerFields h) else
      match badField (headerFields h) with | some o => some o | none => some 0x10) with
  | some o => fails s1 rBadArgument o
  | none =>
    let (img, q, s2) := s1.demandRead Config.mForeman src (bytesAt h 8 4)
    if q || crc32c (h.take 0x3C) != bytesAt h 0x3C 4 || crc32c (img.drop 64) != bytesAt h 0x38 4 || !s2.mouldSound h img then
      fails s2 rStateConflict 1
    else if bytesAt h 0xC 4 < Config.mouldCycles img then fails s2 rStateConflict 2
    else if clash then fails s2 rStateConflict 3
    else if s2.fsu.st ≠ 0 ∧ s2.fsuUp ≠ bytesAt h 6 1 then fails s2 rStateConflict 4
    else
      let s3 := s2.setBank b 2 wide
      let s4 := if wide then { s3 with fsu.active := none } else s3
      ({ s4 with fsu.load := some (m, b, wide) }).await m

/-- Copies an image into one core's bank and reads it back: true when its BODY_CRC holds. -/
def State.mouldCopy (s : State) (c b : Nat) (img : List Byte) : Bool × State :=
  let (_, s1) := s.demandWrite Config.mFsu (bankAddr c b) img
  let (d, p, s2) := s1.demandRead Config.mFsu (bankAddr c b) img.length
  (!p && crc32c (d.drop 64) == bytesAt d 0x38 4, s2)

/-- Steps 3 to 5: the copies, their read-back, VALID. -/
def State.mouldFinish (s : State) (m b : Nat) (wide : Bool) : State :=
  let src := s.rq m 0x10 8
  let (h, _, s1) := s.demandRead Config.mForeman src 64
  let (img, p, s2) := s1.demandRead Config.mForeman src (min 524288 (bytesAt h 8 4))
  let (ok, s3) := (List.range 8).foldl (fun (a : Bool × State) c =>
    let (g, t) := a.2.mouldCopy c b img
    (a.1 && g, t)) (!p, s2)
  if !ok || wideImage h != wide then s3.loadFails m b wide rStateConflict 5
  else
    let s4 := s3.setBank b 1 wide
    let s5 := { s4 with
      fsu.load := none
      fsu.ready := some b
      fsu.headA := if b = 0 then h else s4.fsu.headA
      fsu.headB := if b = 1 then h else s4.fsu.headB }
    s5.replyDone m (leBytes 8 (bytesAt h 0x10 8) ++ leBytes 4 (Config.mouldCycles img))

/-- MOULD_LOAD (R809): the checks at its first execution, the copies at its second. -/
def execMouldLoad (m : MbId) (s : State) : Host.Outcome State Fault Refusal :=
  done s (match s.fsu.load with
    | some (k, b, wide) => if k = m.val ∧ !s.frozen then s.mouldFinish m.val b wide else s
    | none =>
      if (s.mb m.val).waiting && s.rqOpcode m.val == 0x0601 && (s.mb m.val).st == .working then
        s.refuse m.val rStateConflict 5
      else s.request m.val 0x0601 9 [(0x10, 8, s.rq m.val 0x10 8 % 4096 == 0 && ingotRange (s.rq m.val 0x10 8) 64),
        (0x18, 1, s.rq m.val 0x18 1 < 3)] (fun s => s.mouldCheck m.val))

/-! ## FSU_CONFIG (R815) -/

/-- Fields of ACTION 0. -/
def State.fsuFields (s : State) (m : Nat) : List (Nat × Nat × Bool) :=
  let q := fun o n => s.rq m o n
  let rng := fun v lo hi => decide (lo ≤ v ∧ v ≤ hi)
  let up := q 0x14 1
  let ow := q 0x18 2 * upNum up / upDen up
  let oh := q 0x1A 2 * upNum up / upDen up
  [(0x11, 1, s.ctxOpen (q 0x11 1) || q 0x11 1 == 0xFF), (0x12, 1, q 0x12 1 < 2), (0x13, 1, q 0x13 1 < 4), (0x14, 1, rng up 1 3),
   (0x15, 1, q 0x15 1 < 2), (0x16, 1, if q 0x15 1 = 0 then rng (q 0x16 1) 108 127 else decide (q 0x16 1 < 48)),
   (0x17, 1, q 0x17 1 < 3), (0x18, 2, q 0x18 2 != 0 && q 0x18 2 % max 1 (tileW up) == 0 && ow ≤ 2560),
   (0x1A, 2, q 0x1A 2 != 0 && q 0x1A 2 % max 1 (tileH up) == 0 && oh ≤ 1600), (0x1C, 1, q 0x1C 1 < 3),
   (0x1D, 1, q 0x1D 1 == 4 || q 0x1D 1 == 8 || q 0x1D 1 == 16), (0x1E, 1, q 0x1E 1 < 2), (0x1F, 1, rng (q 0x1F 1) 2 4),
   (0x20, 4, q 0x20 4 % 4096 == 0 && ingotRange (q 0x20 4) (q 0x1F 1 * q 0x24 4)),
   (0x24, 4, q 0x24 4 % 4096 == 0 && 64 * q 0x28 2 * oh ≤ q 0x24 4), (0x28, 2, 3 * ow ≤ 64 * q 0x28 2), (0x2A, 2, true),
   (0x2C, 2, rng (q 0x2C 2) 5 1000), (0x2E, 2, rng (q 0x2E 2) 50 16000),
   (0x30, 4, q 0x1E 1 == 0 || (rng (q 0x30 4) 4000 1000000 && q 0x2E 2 < q 0x30 4)), (0x34, 2, 1 ≤ q 0x34 2)]

/-- ACTION 0. -/
def State.fsuConfigure (s : State) (m : Nat) : State :=
  let q := fun o n => s.rq m o n
  let owner := q 0x11 1
  let rq := q 0x16 1
  if s.fsu.st ≠ 0 ∧ s.fsu.st ≠ 1 then s.refuse m rStateConflict 1
  else if s.aon.pwr < 2 then s.refuse m rStateConflict 2
  else if (match s.activeHead with | some h => bytesAt h 6 1 != q 0x14 1 | none => false) then s.refuse m rStateConflict 3
  else if q 0x15 1 = 0 ∧ !(s.qEn rq && (s.queue rq).given == some 2 && s.qOwned rq == (owner != 0xFF) &&
      (owner == 0xFF || s.qCtx rq == owner)) then s.refuse m rStateConflict 4
  else
    let s1 := if s.fsu.st = 1 then s.fsuClear else s
    match s1.cover (q 0x20 4) (q 0x1F 1 * q 0x24 4) 2 0 0x5800 0x0800 0 with
    | none => s1.refuse m rNoResource 0
    | some s2 =>
      let s3 := (List.range 10).foldl (fun s k => s.setReg Blk.fsu (0x200 + 4 * k) (BitVec.ofNat 32 (s.rq m (0x10 + 4 * k) 4))) s2
      ({ s3.queueEnable 92 owner with fsu.st := 1 }).replyDone m

/-- Pushes an entry to Q92; it is discarded where there is no credit. A write that its check refuses faults the FSU (R824). -/
def State.fsuFault (s : State) (kind : Nat) : State :=
  let s1 := s.bumpInfo Blk.fsu 8 0x168 (at_ kind 24 8)
  let s2 := match s1.fsu.stopMb with | some m => s1.replyDone m | none => s1
  let s3 := { s2 with fsu.st := 3, fsu.build := none, fsu.stopping := false, fsu.stopMb := none }
  if s.fsuOwner < 32 then s3.teardown s.fsuOwner stWindow else s3
def State.fsuPush (s : State) (body : List Byte) : State :=
  if !s.qEn 92 || s.credits 92 = 0 then s.bump Blk.fsu 9
  else if s.ringOk 92 1 then s.devicePush 92 (entry64 body)
  else (s.fabErr 2 Config.mQue .ordinary (s.fsuOwner % 32) true (s.fullAddr (s.qSlot 92 (s.queue 92).tail))).fsuFault 2

/-- A report (R814). -/
def fsuReport (status flags k rseq rseq1 j mm rel t0 now tiles pred late holes buf : Nat) : List Byte :=
  leBytes 2 status ++ leBytes 2 flags ++ leBytes 4 k ++ leBytes 2 rseq ++ leBytes 2 rseq1 ++ leBytes 1 j ++ leBytes 1 mm ++
  leBytes 2 rel ++ leBytes 8 t0 ++ leBytes 8 now ++ leBytes 4 tiles ++ leBytes 4 pred ++ leBytes 4 late ++ leBytes 4 holes ++
  leBytes 4 buf

/-- The FSU enters STOPPED: every held frame is released in a final report (R815). -/
def State.fsuStopped (s : State) : State :=
  let f := s.fsu
  let held := f.n.toList ++ f.later
  let rel := match held.getLast? with | some x => x.rseq | none => 0xFFFF
  let own := match f.n with | some x => x.rseq | none => 0xFFFF
  let s1 := s.fsuPush (fsuReport 0 0 f.k own 0xFFFF f.j (s.fsuCfg 0x13 1) rel f.t0 s.tbNow 0 0 0 0 (s.fsuBuf f.k))
  if s1.fsu.st ≠ s.fsu.st then s1
  else
    let s2 := match f.stopMb with | some m => s1.replyDone m | none => s1
    { s2 with fsu.st := 1, fsu.n := none, fsu.later := [], fsu.j := 0, fsu.build := none, fsu.stopping := false, fsu.stopMb := none }

/-- FSU_CONFIG (R815). -/
def execFsuConfig (m : MbId) (s : State) : Host.Outcome State Fault Refusal :=
  let act := s.rq m.val 0x10 1
  let rest : List (Nat × Nat × Bool) := if act = 0 then s.fsuFields m.val else []
  done s (s.request m.val 0x0602 (if act = 0 then 0x26 else 1) ((0x10, 1, decide (act < 4)) :: rest) (fun s =>
    let f := s.fsu
    match act with
    | 0 => s.fsuConfigure m.val
    | 1 =>
      if f.st = 2 then s.refuse m.val rAlreadyDone 0
      else if f.st ≠ 1 then s.refuse m.val rStateConflict 1
      else if s.aon.pwr < 2 then s.refuse m.val rStateConflict 2
      else if (match s.activeHead with | some h => bytesAt h 6 1 != s.fsuUp | none => false) then s.refuse m.val rStateConflict 3
      else
        let t0 := if s.fsuCfg 0x1E 1 = 0 then s.clk.now + s.fsuCfg 0x2E 2 * tbUs - 1 else s.clk.now
        let g : Fsu := { f with st := 2, k := 0, n := none, later := [], j := 0, build := none, t0 := t0, lastOut := none }
        ({ s with fsu := g }).replyDone m.val
    | 2 =>
      if f.st = 1 then s.refuse m.val rAlreadyDone 0
      else if f.st ≠ 2 then s.refuse m.val rStateConflict 1
      else if f.stopping then s.refuse m.val rBusy 0
      else if f.build.isSome then ({ s with fsu.stopping := true, fsu.stopMb := some m.val }).await m.val
      else ({ s with fsu.stopping := true, fsu.stopMb := some m.val }).fsuStopped
    | _ =>
      if f.st = 0 then s.refuse m.val rAlreadyDone 0
      else if f.st = 2 then s.refuse m.val rStateConflict 1
      else s.fsuClear.replyDone m.val))

/-! ## FSU_ASSIST (R811) -/

/-- The table that the flask is going to have, and its SLACK. -/
def State.nextTable (s : State) (f : Nat) : List (Nat × Nat) × Nat :=
  match (s.flask f).staged with | some t => t | none => (s.slices f, (s.flask f).slack)
/-- The active image has an assist section. -/
def State.assistImage (s : State) : Bool := match s.activeHead with | some h => bytesAt h 0x2C 4 != 0 | none => false

/-- FSU_ASSIST (R811, R812, R822). -/
def execFsuAssist (m : MbId) (s : State) : Host.Outcome State Fault Refusal :=
  let q := fun o n => s.rq m.val o n
  let f := q 0x10 1
  let lend := q 0x11 1 == 0
  let rng := fun v lo hi => decide (lo ≤ v ∧ v ≤ hi)
  let rest : List (Nat × Nat × Bool) := if lend then
      [(0x14, 4, rng (q 0x14 4) 50 16777215), (0x18, 4, rng (q 0x18 4) 10 16777215),
       (0x20, 8, q 0x20 8 % 4096 == 0 && ingotRange (q 0x20 8) (q 0x28 4)), (0x28, 4, q 0x28 4 != 0 && q 0x28 4 % 4096 == 0)]
    else [(0x14, 4, true), (0x18, 4, true), (0x20, 8, true), (0x28, 4, true)]
  done s (s.request m.val 0x0603 (if lend then 0x1C else 2) ((0x10, 1, decide (f < 8)) :: (0x11, 1, decide (q 0x11 1 < 2)) :: rest)
    (fun s =>
      if lend then
        if !(s.flask f).built then s.refuse m.val rStateConflict 1
        else if s.fsu.lent = some f then s.refuse m.val rAlreadyDone 0
        else if s.fsu.lent.isSome then s.refuse m.val rStateConflict 2
        else if !s.assistImage then s.refuse m.val rStateConflict 3
        else
          let (t, k) := s.nextTable f
          if 16 ≤ t.length then s.refuse m.val rNoResource 0
          else match s.cover (q 0x20 8) (q 0x28 4) 2 0 0x0801 0x0801 0 with
            | none => s.refuse m.val rNoResource 0
            | some s1 =>
              let s2 := { s1 with
                fsu.lent := some f, fsu.lentBudget := q 0x18 4, fsu.assistBase := q 0x20 8, fsu.assistSize := q 0x28 4 }
              (s2.stageTable f (t ++ [(32, q 0x14 4)]) k).replyDone m.val
      else
        match s.fsu.lent with
        | none => s.refuse m.val rAlreadyDone 0
        | some g =>
          if !(s.flask f).built then s.refuse m.val rStateConflict 1
          else if g ≠ f then s.refuse m.val rStateConflict 2
          else if s.sch.withdrawMb.isSome then s.refuse m.val rBusy 0
          else
            let (t, k) := s.nextTable f
            let s1 := ({ s with sch.withdrawMb := some m.val }).await m.val
            let s2 := s1.setFlask f { s1.flask f with assist := none }
            (s2.stageTable f (t.filter (fun e => e.1 != 32)) k).lendSettle))

/-! ## Source frames (R787 to R793, R796) -/

def pixelBytes (fmt : Nat) : Nat := if fmt = 0 then 4 else 3
/-- Row stride of the motion field, and its length. -/
def State.motionStride (s : State) : Nat := cdiv (cdiv s.fsuW (s.fsuCfg 0x1D 1) * 8) 64 * 64
def State.motionLen (s : State) : Nat := s.motionStride * cdiv s.fsuH (s.fsuCfg 0x1D 1)
/-- Row stride of the depth plane: packed, or that of R431. -/
def State.depthStride (s : State) : Nat := if s.fsuCfg 0x17 1 = 2 then cdiv (2 * s.fsuW) 64 * 64 else 2 * s.fsuW

/-- The first check of R790 that a render entry fails. -/
def State.entryReason (s : State) (d : List Byte) (first last : Bool) : Option Nat :=
  let g := fun o n => bytesAt d o n
  let px := pixelBytes (g 2 1)
  let colorLen := 64 * g 0x14 2 * (s.fsuH - 1) + px * s.fsuW
  let planes := [(g 0x10 4, colorLen)] ++ (if g 0x18 4 = 0 then [] else [(g 0x18 4, s.motionLen)]) ++
    (if g 0x1C 4 = 0 then [] else [(g 0x1C 4, s.depthStride * s.fsuH)])
  if !(first && last) then some 1
  else if !(g 2 1 < 2 && g 3 1 < 2 && g 4 4 == 0 && g 0x16 2 == 0 && (d.drop 0x20).all (fun b => b == 0)) then some 2
  else if !(g 0x10 4 % 64 == 0 && g 0x18 4 % 64 == 0 && g 0x1C 4 % 64 == 0 && px * s.fsuW ≤ 64 * g 0x14 2 &&
      (s.fsuCfg 0x17 1 == 1 || (g 0x18 4 == 0 && g 0x1C 4 == 0))) then some 3
  else if !planes.all (fun p => ingotRange p.1 p.2) then some 4
  else if !planes.all (fun p => s.rightsOk Config.mFsu .ordinary false p.1 p.2) then some 5
  else none

/-- A frame's motion and depth: those of its entry, or of the motion input (R792). -/
def State.withMotion (s : State) (x : SrcFrame) : SrcFrame :=
  match s.fsuCfg 0x17 1 with
  | 1 => { x with hasMotion := x.motion != 0 }
  | 2 =>
    match s.fsu.motionIn with
    | some r =>
      if bytesAt r 6 2 = x.rseq then
        { x with
          hasMotion := true, motionOk := bytesAt r 0x18 1 / 16 == 0, motion := bytesAt r 0x1C 4
          depth := if bytesAt r 0x20 1 / 16 = 0 then bytesAt r 0x24 4 else 0 }
      else x
    | none => x
  | _ => x

/-- The FSU copies the assist section, sets what R812 names and stages the copy as a job of owner 32. -/
def State.stageAssist (s : State) (x : SrcFrame) : SrcFrame × State :=
  let failed := { x with assist := 3 }
  match s.fsu.lent, s.fsu.active with
  | some f, some b =>
    let h := s.fsu.head b
    let len := bytesAt h 0x2C 4
    let y := s.flask f
    if len = 0 then (x, s)
    else if y.assist.isSome || (match y.running with | some r => r.job.ctx == 32 | none => false) || s.fsu.assistSize < len then
      (failed, s)
    else
      let a := bankAddr 0 b + bytesAt h 0x28 4
      let (d, p, s1) := s.demandRead Config.mFsu a len
      if p then (failed, s1.mouldError a)
      else
        let up := s.bus.chipId * 2 ^ 38
        let arg := fun (l : List Byte) (i v : Nat) => patch l (0x80 + 8 * i) 8 v
        let d1 := arg (arg (arg (arg (patch (patch d 1 1 f) 8 4 s.fsu.lentBudget) 0 (up + x.color)) 1 (up + x.motion)) 2
          (up + x.depth)) 3 x.rseq
        let (acc, s2) := s1.writeMem Config.mFsu .ordinary 0 s.fsu.assistBase d1
        let j := { parseJob 32 d1 0 0 with jobId := x.rseq }
        if acc ≠ .ok ∨ !(bytesAt d1 0 1 == 3 && 1 ≤ j.nOps && j.nOps ≤ 4096 && j.nTensors ≤ 1024) then (failed, s2)
        else ({ x with assist := 1 }, s2.setFlask f { s2.flask f with assist := some j })
  | _, _ => (x, s)

/-- Pops the render queue's entries that are in effect, at most `room` good ones; each good one is a source frame. -/
def State.popEntries (s : State) : Nat → Nat → List SrcFrame × State
  | 0, _ => ([], s)
  | _, 0 => ([], s)
  | fuel + 1, room + 1 =>
    let q := s.fsuCfg 0x16 1
    match (s.queue q).flags with
    | [] => ([], s)
    | (first, last) :: _ =>
      let (d0, acc, s1) := s.readMem Config.mFsu .ordinary (s.fsuOwner % 32) (s.qSlot q (s.queue q).head) 64
      let d := if acc = .ok then d0 else List.replicate 64 0
      let s2 := s1.qRemove q 1
      match s2.entryReason d first last with
      | some r =>
        State.popEntries (s2.bumpInfo Blk.fsu 10 0x16C (at_ (bytesAt d 0 2) 16 16 ||| at_ r 0 4)) fuel (room + 1)
      | none =>
        let g := fun o n => bytesAt d o n
        let x : SrcFrame := {
          rseq := g 0 2, format := g 2 1, cut := g 3 1 == 1, tbRender := g 8 8, color := g 0x10 4, stride64 := g 0x14 2
          motion := g 0x18 4, depth := g 0x1C 4 }
        let (l, s3) := State.popEntries s2 fuel room
        (s2.withMotion x :: l, s3)

/-- The latest closed frame of the named slot, where it is newer than the newest held (R791). -/
def State.slotFrame (s : State) : List SrcFrame × State :=
  let i := s.fsuCfg 0x16 1
  let w := s.slotWritten i
  let seq := (w + 65535) % 65536
  let newest := match s.fsu.later.getLast? with | some x => some x | none => s.fsu.n
  let fresh := match newest with | some x => x.rseq != seq | none => w != 0
  if !(s.slot i).configured || !fresh || 2 ≤ s.fsu.later.length then ([], s)
  else
    let (d, acc, s1) := s.readMem Config.mFsu .ordinary (s.fsuOwner % 32) (s.slotHdr i seq) 64
    let x : SrcFrame := {
      rseq := seq, format := 1, tbRender := if acc = .ok then bytesAt d 0x10 8 else 0, color := s.slotBuf i seq
      stride64 := s.slotCfg i 0x1E 2 }
    ([s1.withMotion x], s1)
/-- The frames that the FSU takes at B(k). -/
def State.takeFrames (s : State) : List SrcFrame × State :=
  if s.fsuCfg 0x15 1 = 1 then s.slotFrame
  else
    let occ := (s.queue (s.fsuCfg 0x16 1)).occ
    s.popEntries occ (if s.fsuCfg 0x12 1 = 0 then occ else 2 - s.fsu.later.length)

/-- R793, at the build that first needs the motion. -/
def State.motionStale (s : State) (x : SrcFrame) : Bool :=
  match x.stale with
  | some b => b
  | none =>
    !x.hasMotion || x.cut || (s.fsuCfg 0x17 1 == 2 && !x.motionOk) ||
    decide (s.fsuCfg 0x34 2 * 10000 + x.tbRender < s.tbNow)

/-! ## BUILD_START (R794, R795, R818, R820, R823) -/

/-- T0 of the next output and t_line in ps, with the set of the frame that DISP scans (R794). -/
def State.nextT0 (s : State) : Option (Nat × Nat × Option Nat) :=
  if s.fsuCfg 0x1E 1 = 1 then some (s.fsu.t0 + s.fsuCfg 0x30 4 * tbUs, 0, none)
  else ((s.frameStarts.map (fun e => (psTicks (e.1 + s.toActivePs e.2), s.linePs e.2, some e.2))).find? (fun e => s.fsu.t0 < e.1))

/-- The image marked VALID becomes active. -/
def State.switchBank (s : State) : State :=
  match s.fsu.ready with
  | some b => { s with fsu.active := some b, fsu.ready := none, fsu.wide := wideImage (s.fsu.head b) }
  | none => s

/-- The choice of R795: n, the held frames after it, j, HELD, and the frames released, oldest first; none until a first
source frame is taken. -/
def chooseFrames (interp : Bool) (mm : Nat) (n : Option SrcFrame) (j : Nat) (later taken : List SrcFrame) :
    Option (SrcFrame × List SrcFrame × Nat × Bool × List SrcFrame) :=
  if !interp then
    match taken.getLast? with
    | some x => some (x, [], 0, false, n.toList ++ taken.dropLast)
    | none =>
      match n with
      | none => none
      | some x => if j < mm then some (x, [], j + 1, false, []) else some (x, [], mm, true, [])
  else
    let all := later ++ taken
    match n, all with
    | some x, _ :: _ :: _ =>
      if j < mm then some (x, all, j + 1, false, [])
      else some (all.head?.getD x, all.tail, 0, false, [x])
    | none, a :: b :: t => some (a, b :: t, 0, false, [])
    | some x, _ => if j < mm ∧ all ≠ [] then some (x, all, j + 1, false, []) else some (x, all, mm, true, [])
    | none, _ => none

/-- Stages assist work for each frame taken. -/
def State.stageAll (s : State) : List SrcFrame → List SrcFrame × State
  | [] => ([], s)
  | x :: t =>
    let (y, s1) := s.stageAssist x
    let (l, s2) := State.stageAll s1 t
    (y :: l, s2)

/-- The build of output k. -/
def State.startOutput (s : State) (t0 tline : Nat) (set : Option Nat) : State :=
  let interp := s.fsuCfg 0x12 1 == 1
  let mm := s.fsuCfg 0x13 1
  let s0 := { s.switchBank with fsu.t0 := t0 }
  let (found, s1) := s0.takeFrames
  -- in EXTRAP older entries are skipped, not taken
  let skip := if interp then 0 else found.length - 1
  let (staged, s2) := s1.stageAll (found.drop skip)
  let taken := found.take skip ++ staged
  match chooseFrames interp mm s2.fsu.n s2.fsu.j s2.fsu.later taken with
  | none => { s2 with fsu.later := if interp then s2.fsu.later ++ taken else [] }
  | some (n, later, j, held, gone) =>
    let generated := 1 ≤ j
    let n1 := if interp && generated then later.head? else none
    let bad1 := match n1 with | some x => s2.motionStale x | none => false
    let asExtrap := interp && generated && bad1
    let useN := generated && (!interp || asExtrap)
    let staleN := useN && s2.motionStale n
    let mark := fun (x : SrcFrame) (used : Bool) => if used then { x with stale := some (s2.motionStale x) } else x
    let n' := mark n useN
    let later' := match later with | x :: t => mark x n1.isSome :: t | [] => []
    let off := match set with
      | some k => s2.setHact k != s2.fsuOutW || s2.setVact k != s2.fsuOutH
      | none => false
    let late := s2.assistImage && n.assist != 2
    let tiles := if off then 0 else (s2.fsuW / tileW s2.fsuUp) * (s2.fsuH / tileH s2.fsuUp)
    let b : Build := {
      k := s2.fsu.k, n := n', n1 := if asExtrap then none else later'.head?.filter (fun _ => n1.isSome), j := j
      generated := generated, held := held, stale := staleN, asExtrap := asExtrap, assistLate := late, warpLate := off
      mouldOff := s2.fsu.active.isNone, noTiles := off, t0 := t0, tline := tline, begun := s2.clk.now, tiles := tiles
      rel := gone.getLast?.map (fun x => x.rseq) }
    let s3 := { s2 with fsu.n := some n', fsu.later := later', fsu.j := j, fsu.build := some b }
    let ev := fun (s : State) (on : Bool) (src : Nat) => if on then s.bump Blk.fsu src else s
    ev (ev (ev (ev s3 held 4) staleN 5) off 6) late 7

/-- BUILD_START (R794 to R796): once the build ahead has been reported, at B(k). -/
def execBuildStart (s : State) : Host.Outcome State Fault Refusal :=
  done s (if s.fsu.st ≠ 2 ∨ s.fsu.stopping ∨ s.fsu.build.isSome ∨ s.frozen ∨ s.isHalted Blk.fsu ∨ s.aon.pwr < 2 then s
    else match s.nextT0 with
    | none => s
    | some (t0, tline, set) => if s.clk.now + s.fsuCfg 0x2E 2 * tbUs < t0 then s else s.startOutput t0 tline set)

/-! ## Warp (R797 to R799) -/

/-- The state, whether a word was poisoned, whether an access failed its check. -/
abbrev WM := StateM (State × Bool × Bool)
/-- A warper read, word by word: a poisoned or refused word's bytes are zero (R790, R825). -/
def fsuRead (a n : Nat) : WM (List Byte) := do
  let l ← (splitAccess 8 (n + 1) (a / 8 * 8) (a % 8 + n)).mapM (fun e => do
    let (s, ecc, win) ← get
    let (d, acc, s1) := s.readMem Config.mFsu .ordinary (s.fsuOwner % 32) (max a e.1) (min (e.1 + e.2) (a + n) - max a e.1)
    set ((s1, ecc || acc == .poison, win || acc == .rights || acc == .decode) : State × Bool × Bool)
    pure (if acc = .ok then d else List.replicate d.length 0))
  pure l.flatten
/-- The channels of a pixel. -/
def framePixel (x : SrcFrame) (px py : Nat) : WM (List Int) := do
  let d ← fsuRead (x.color + 64 * x.stride64 * py + pixelBytes x.format * px) 3
  pure (d.map (fun b => (b.toNat : Int)))
/-- Z at a pixel (R788); none without a depth test. -/
def frameZ (x : SrcFrame) (px py : Nat) : WM (Option Int) := do
  let (s, _, _) ← get
  let kind := s.fsuCfg 0x1C 1
  if kind = 0 || x.depth = 0 then pure none
  else
    let d ← fsuRead (x.depth + s.depthStride * py + 2 * px) 2
    let v := leNat d
    if kind = 1 then pure (some (if v = 0 then 0xFFFF else (v : Int)))
    else pure (some (if bit v 15 then 0xFFFF else 8191 - ((v % 8192 : Nat) : Int)))
/-- The vector of a source pixel in 1/16 pixel; none where its element is a hole. -/
def frameMotion (x : SrcFrame) (px py : Nat) : WM (Option (Int × Int)) := do
  let (s, _, _) ← get
  let g := s.fsuCfg 0x1D 1
  let d ← fsuRead (x.motion + s.motionStride * (py / g) + 8 * (px / g)) 8
  if bytesAt d 6 1 % 4 ≠ 0 then pure none else pure (some (sgn 16 (bytesAt d 0 2), sgn 16 (bytesAt d 2 2)))
/-- d(j) of R797. -/
def scaled (mm : Nat) (j : Int) (v : Int) : Int := fdiv (2 * j * v + ((mm : Int) + 1)) (2 * ((mm : Int) + 1))
/-- A sample of R798 at (sx, sy) in 1/16 pixel, against the depth of pixel p in frame n. -/
def frameSample (x : SrcFrame) (zn : Option Int) (sx sy : Int) : WM (Option (List Int)) := do
  let (s, _, _) ← get
  let xi := fdiv sx 16
  let yi := fdiv sy 16
  if xi < 0 ∨ yi < 0 ∨ (s.fsuW : Int) ≤ xi + 1 ∨ (s.fsuH : Int) ≤ yi + 1 then pure none
  else
    let fx := sx - 16 * xi
    let fy := sy - 16 * yi
    let zf ← match zn with
      | none => pure none
      | some _ => frameZ x (fdiv (sx + 8) 16).toNat (fdiv (sy + 8) 16).toNat
    let far := match zn, zf with
      | some a, some b => decide ((s.fsuCfg 0x2A 2 : Int) < (b - a).natAbs)
      | _, _ => false
    if far then pure none
    else
      let u := xi.toNat
      let v := yi.toNat
      let a ← framePixel x u v
      let b ← framePixel x (u + 1) v
      let c ← framePixel x u (v + 1)
      let d ← framePixel x (u + 1) (v + 1)
      let at_ : List Int → Nat → Int := fun l i => (l[i]?).getD 0
      pure (some ((List.range 3).map (fun i =>
        fdiv ((16 - fx) * (16 - fy) * at_ a i + fx * (16 - fy) * at_ b i + (16 - fx) * fy * at_ c i + fx * fy * at_ d i + 128) 256)))

/-- The warped pixel W(p), and whether p is a hole (R795, R799). -/
def warpPixel (b : Build) (px py : Nat) : WM (List Int × Bool) := do
  let (s, _, _) ← get
  let mm := s.fsuCfg 0x13 1
  if !b.generated then
    let v ← framePixel b.n px py
    pure (v, false)
  else
    let src := b.n1.getD b.n
    let vec ← if b.stale then pure (some ((0 : Int), (0 : Int))) else frameMotion src px py
    let fill : WM (List Int × Bool) := do
      let v ← framePixel (if 2 * b.j ≤ mm + 1 then b.n else src) px py
      pure (v, true)
    match vec with
    | none => fill
    | some (vx, vy) =>
      let zn ← frameZ b.n px py
      let x16 : Int := 16 * px
      let y16 : Int := 16 * py
      let j : Int := b.j
      let k : Int := (mm : Int) + 1 - j
      let a ← frameSample b.n zn (x16 - scaled mm j vx) (y16 - scaled mm j vy)
      match b.n1 with
      | none =>
        match a with
        | some v => pure (v, false)
        | none => fill
      | some n1 =>
        let c ← frameSample n1 zn (x16 + scaled mm k vx) (y16 + scaled mm k vy)
        match a, c with
        | some u, some v => pure ((u.zip v).map (fun e => fdiv (k * e.1 + j * e.2 + fdiv ((mm : Int) + 1) 2) ((mm : Int) + 1)), false)
        | some u, none => pure (u, false)
        | none, some v => pure (v, false)
        | none, none => fill

/-- A rectangle of warped pixels of the source frame. -/
structure WarpRect where
  x0 : Nat
  y0 : Nat
  w : Nat
  h : Nat
  px : Array (List Int × Bool)
/-- The pixel at a place, clamped into the rectangle. -/
def WarpRect.at (r : WarpRect) (x y : Int) : List Int × Bool :=
  let cl := fun (v : Int) (lo n : Nat) => (max 0 (min ((n : Int) - 1) (v - lo))).toNat
  r.px.getD (cl y r.y0 r.h * r.w + cl x r.x0 r.w) ([], false)
/-- Tiles in a row. -/
def State.tilesAcross (s : State) : Nat := max 1 (s.fsuW / max 1 (tileW s.fsuUp))
/-- The warped pixels of tile i with a margin, within the source frame. -/
def warpTile (b : Build) (i margin : Nat) : WM WarpRect := do
  let (s, _, _) ← get
  let tw := tileW s.fsuUp
  let th := tileH s.fsuUp
  let x := i % s.tilesAcross * tw
  let y := i / s.tilesAcross * th
  let x0 := x - margin
  let y0 := y - margin
  let w := min s.fsuW (x + tw + margin) - x0
  let h := min s.fsuH (y + th + margin) - y0
  let px ← (List.range (w * h)).mapM (fun k => warpPixel b (x0 + k % w) (y0 + k / w))
  pure { x0 := x0, y0 := y0, w := w, h := h, px := px.toArray }

/-! ## Upscale and blend (R800, R801) -/

/-- One pixel of the upscaled tile. -/
def upPixel (up : Nat) (r : WarpRect) (x y : Nat) : List Byte :=
  let a : Int := upNum up
  let b : Int := upDen up
  let split := fun (v : Nat) =>
    let t : Int := (2 * v + 1) * b - a
    let i := fdiv t (2 * a)
    (i, t - 2 * a * i)
  let (i, f) := split x
  let (j, g) := split y
  let at_ := fun (dx dy : Int) (c : Nat) => ((r.at (i + dx) (j + dy)).1[c]?).getD 0
  (List.range 3).map (fun c => BitVec.ofNat 8 (fdiv
    ((2 * a - f) * (2 * a - g) * at_ 0 0 c + f * (2 * a - g) * at_ 1 0 c + (2 * a - f) * g * at_ 0 1 c + f * g * at_ 1 1 c + 2 * a * a)
    (4 * a * a)).toNat)
/-- Warp-only content of tile i, line by line. -/
def State.upTile (s : State) (r : WarpRect) (i : Nat) : List Byte :=
  let x0 := i % s.tilesAcross * 96
  let y0 := i / s.tilesAcross * 48
  (List.range (48 * 96)).flatMap (fun k => upPixel s.fsuUp r (x0 + k % 96) (y0 + k / 96))
/-- Writes a tile's content to the output buffer, line by line; how it ended. -/
def State.writeTile (s : State) (b : Build) (i : Nat) (u : List Byte) : Access × State :=
  let base := s.fsuBuf b.k + i / s.tilesAcross * 48 * s.fsuStride + i % s.tilesAcross * 288
  (List.range 48).foldl (fun (a : Access × State) y =>
    if a.1 ≠ .ok then a
    else a.2.writeMem Config.mFsu .ordinary (a.2.fsuOwner % 32) (base + y * s.fsuStride) ((u.drop (288 * y)).take 288)) (.ok, s)
/-- A blended channel; a product that is no number leaves the value open. -/
def blendByte (scale : Fl) (open_ : Nat) (u : Byte) (res : Int) : Byte :=
  match fmul scale (fint res) with
  | .nan => BitVec.ofNat 8 open_
  | .inf neg => if neg then 0 else 255
  | .fin neg m e =>
    let n : Nat := if 0 ≤ e then m * 2 ^ e.toNat else evenDiv m (2 ^ (-e).toNat)
    let v : Int := (u.toNat : Int) + (if neg then -(n : Int) else (n : Int))
    BitVec.ofNat 8 (max 0 (min 255 v)).toNat

/-! ## Deadline monitor (R802 to R805) -/

/-- Deadline of a tile row in ps. -/
def State.deadline (s : State) (b : Build) (row : Nat) : Int :=
  ((b.t0 * 10000 + 48 * row * b.tline : Nat) : Int) - ((s.fsuCfg 0x2C 2 * 1000000 : Nat) : Int)
/-- When tile row `row` has been warped at two pixels per MED cycle of 1.25 ns, and a stall in ns. -/
def State.rowReady (s : State) (b : Build) (row stall : Nat) : Nat :=
  b.begun * 10000 + (row + 1) * 48 * s.fsuOutW * 625 + stall * 1000
def noTile : Nat → Option CoreTile := fun _ => none
/-- The build in progress, while the FSU works. -/
def State.building (s : State) : Option Build :=
  if s.fsu.st ≠ 2 ∨ s.frozen ∨ s.isHalted Blk.fsu ∨ s.aon.pwr < 2 then none else s.fsu.build
def State.setBuild (s : State) (b : Build) : State := { s with fsu.build := some b }
/-- A write of the output ring failed (R824). -/
def State.outFault (s : State) (acc : Access) : State := s.fsuFault (if acc = .decode then 0 else 2)
/-- A tile falls back. -/
def State.fallback (s : State) (b : Build) (late : Bool) : State :=
  (s.setBuild { b with pred := b.pred + b2n (!late), late := b.late + b2n late }).addPair Blk.fsu 0x150 1

/-- The warper writes the next tile's warp-only content once its row is ready. -/
def State.warpNext (s : State) (b : Build) (stall : Nat) : State :=
  let i := b.warped
  let across := s.tilesAcross
  if b.tiles ≤ i || s.nowPs < s.rowReady b (i / across) stall then s
  else
    let (r, s1, ecc, win) := (warpTile b i 1).run (s, b.ecc, b.win)
    let tw := tileW s.fsuUp
    let th := tileH s.fsuUp
    let holes := ((List.range (tw * th)).filter (fun k =>
      (r.at ((i % across * tw + k % tw : Nat) : Int) ((i / across * th + k / tw : Nat) : Int)).2)).length
    let (acc, s2) := s1.writeTile b i (s1.upTile r i)
    if acc = .decode ∨ acc = .rights then s2.outFault acc
    else
      let last := (i + 1) % across == 0
      let late := last && decide (s.deadline b (i / across) < (s.rowReady b (i / across) stall : Int))
      let s3 := s2.setBuild { b with warped := i + 1, holes := b.holes + holes, ecc := ecc, win := win, warpLate := b.warpLate || late }
      if late then s3.bump Blk.fsu 6 else s3

/-- Input of the mould program: W − 128 of the channels, 127 or 0 for a hole or none (R807). -/
def mouldInput (r : WarpRect) (x0 y0 : Int) (i : List Nat) : Nat :=
  let g := fun (k : Nat) => (i[k]?).getD 0
  let p := r.at (x0 + g 1) (y0 + g 2)
  if g 0 = 3 then (if p.2 then 127 else 0) else (((p.1[g 0]?).getD 0 + 128) % 256).toNat
/-- Dispatches tile i to core c: its input goes to the core's bank. -/
def State.dispatchTile (s : State) (b : Build) (bank : Nat) (c i : Nat) : State :=
  let h := s.fsu.head bank
  let halo := bytesAt h 7 1
  let (r, s1, ecc, win) := (warpTile b i (max 1 halo)).run (s, b.ecc, b.win)
  let x0 : Int := ((i % s.tilesAcross * tileW s.fsuUp : Nat) : Int) - (halo : Int)
  let y0 : Int := ((i / s.tilesAcross * tileH s.fsuUp : Nat) : Int) - (halo : Int)
  let u := mouldUser c bank h false
  let put : JM Unit := do
    let t ← readTensor u 0
    writePlain u t (fun k => some (mouldInput r x0 y0 (unlin t.dims k)))
  let (_, s2) := (put.run.run s1 : Except Halt Unit × State)
  let tile : CoreTile := { tile := i, finishBy := s.nowPs / 1000 + bytesAt h 0xC 4, u := s1.upTile r i }
  s2.setBuild { b with next := i + 1, ecc := ecc, win := win, cores := Tab.set noTile b.cores c (some tile) }

/-- The monitor decides the next tile, where it has been warped and a core is idle. -/
def State.decideNext (s : State) : State :=
  match s.fsu.build with
  | none => s
  | some b =>
    match lowest 8 (fun c => (Tab.get noTile b.cores c).isNone) with
    | none => s
    | some c =>
      if b.warped ≤ b.next then s
      else
        let s1 := s.addPair Blk.fsu 0x148 1
        let off := { b with next := b.next + 1 }
        match s.fsu.active with
        | none => s1.fallback { off with mouldOff := true } false
        | some k =>
          let done_ : Int := (s.nowPs + bytesAt (s.fsu.head k) 0xC 4 * 1000 : Nat)
          if b.assistLate || s.deadline b (b.next / s.tilesAcross) < done_ then s1.fallback off false
          else s1.dispatchTile b k c b.next

/-- TILE_DECISION (R803, R804): one tile is warped and one decided; `stall` is the time in ns for which the media regulator
has held the FSU's accesses of this frame. -/
def execTileDecision (stall : Nat) (s : State) : Host.Outcome State Fault Refusal :=
  done s (match s.building with
    | none => s
    | some b => (s.warpNext b stall).decideNext)

/-- The first poisoned word of a mould core's bank. -/
def State.badMould (s : State) (base len : Nat) : Option Nat :=
  (s.mem.chk.find? (fun e => base ≤ 8 * e.1 && 8 * e.1 < base + len && eccDecode e.2 == .poisoned)).map (fun e => 8 * e.1)

/-- The residuals of the program on a core: none where a word of its SRAM is poisoned; free values where an operation does
not complete. -/
def State.runMould (s : State) (c bank : Nat) : Option (Array Int) × State :=
  let h := s.fsu.head bank
  let u := mouldUser c bank h false
  let whole : JM (Array Nat) := do
    mouldProgram u
    let t ← readTensor u 1
    readPlain u t
  match (whole.run.run s : Except Halt (Array Nat) × State) with
  | (.ok a, s1) => (some (a.map (fun v => sgn 8 v)), { s1 with free := s1.free + 2 ^ 80 })
  | (.error _, s1) =>
    match s1.badMould (bankAddr c bank) (bankLen h) with
    | some a => (none, s1.mouldError a)
    | none =>
      (some ((Array.range (3 * 96 * 48)).map (fun i => sgn 8 (Config.freeWord (s1.free + i)).toNat)),
        { s1 with free := s1.free + 3 * 96 * 48 })

/-- TILE_COMPLETE (R801, R803, R819): core c finishes its tile. -/
def execTileComplete (c : Fin 8) (s : State) : Host.Outcome State Fault Refusal :=
  done s (match s.building with
    | none => s
    | some b0 =>
      match Tab.get noTile b0.cores c.val with
      | none => s
      | some x =>
        let b := { b0 with cores := Tab.set noTile b0.cores c.val none }
        match s.fsu.active with
        | none => s.fallback b true
        | some k =>
          match s.runMould c.val k with
          | (none, s1) => s1.fallback { b with mouldOff := true } true
          | (some res, s1) =>
            if s.deadline b (x.tile / s.tilesAcross) < (s.nowPs : Int) then s1.fallback b true
            else
              let scale := fmtDecode 6 (bytesAt (s.fsu.head k) 0x24 2)
              let out := x.u.zipIdx.map (fun e =>
                blendByte scale ((Config.freeWord (s1.free + e.2)).toNat % 256) e.1 (res.getD e.2 0))
              let (acc, s2) := ({ s1 with free := s1.free + out.length }).writeTile b x.tile out
              if acc = .decode ∨ acc = .rights then s2.outFault acc else s2.setBuild b)

/-! ## Reports (R814) -/

/-- STATUS and FLAGS. -/
def Build.status (b : Build) : Nat := if b.ecc then stEcc else if b.win then stWindow else 0
def Build.flagBits (b : Build) : Nat :=
  b2n b.generated + 2 * b2n b.held + 4 * b2n b.stale + 8 * b2n b.asExtrap + 16 * b2n b.assistLate + 32 * b2n b.warpLate +
  64 * b2n b.mouldOff

/-- The egress rings that take the FSU's outputs see one more source frame (R851). -/
def State.egressOutput (s : State) (seq addr stride t0 : Nat) : State :=
  (List.range 8).foldl (fun s e =>
    let x := s.egress e
    if x.st == 2 && s.egCfg e 0x13 1 == 0 then s.setEgress e { x with frames := x.frames ++ [(seq, addr, stride, t0)] } else s) s

/-- The report of a finished build. -/
def State.reportBuild (s : State) (b : Build) : State :=
  let buf := s.fsuBuf b.k
  let r1 := match b.n1 with | some x => x.rseq | none => 0xFFFF
  let rel := b.rel.getD 0xFFFF
  let fb := b.pred + b.late
  let s1 := (s.bump Blk.fsu 2).setReg Blk.fsu 0x158 (at_ fb 16 16 ||| at_ b.tiles 0 16)
  let s2 := if fb = 0 then s1 else s1.bump Blk.fsu 3
  let out := if b.noTiles then s2.fsu.lastOut else some (b.k, b.t0, buf)
  let s3 := { s2 with fsu.build := none, fsu.k := (b.k + 1) % 2 ^ 32, fsu.lastOut := out }
  let room := s3.qEn 92 && s3.credits 92 != 0
  let s4 := s3.fsuPush (fsuReport b.status b.flagBits b.k b.n.rseq r1 b.j (s.fsuCfg 0x13 1) rel b.t0 s.tbNow b.tiles b.pred b.late
    b.holes buf)
  if s4.fsu.st ≠ 2 then s4
  else
    let s5 := if room then s4.egressOutput b.k buf s.fsuStride b.t0 else s4
    if s5.fsu.stopping then s5.fsuStopped else s5

/-- FRAME_REPORT (R805, R814, R815): every tile has been written or has fallen back. -/
def execFrameReport (s : State) : Host.Outcome State Fault Refusal :=
  done s (match s.building with
    | none => s
    | some b => if b.next < b.tiles || b.cores != [] then s else s.reportBuild b)

end Sys2Proof.Machine
end

