-- ==== Sys2Proof/Machine/Cancel.lean ====
section
/-! DEFINITION. Sys2Proof/Machine/Cancel.lean: CANCEL (R272, R273, R279, R301) and what it does to each long command before
its commit point. -/
namespace Sys2Proof.Machine
open Sys2Proof

/-- Stops a long command of mailbox t that has begun and has not reached its commit point, which answers SUPERSEDED; none
where it has no step left to stop at. -/
def State.stopLong (s : State) (t : Nat) : Option State :=
  match s.rqOpcode t with
  | 0x0601 =>
    (match s.fsu.load with
     | some (m, b, wide) => if m = t then some (s.loadFails t b wide rSuperseded 0) else none
     | none => none)
  | 0x0712 =>
    (match s.inp.sounding with
     | some x => if x.mb = t then some ({ s with inp.sounding := none }.refuse t rSuperseded 0) else none
     | none => none)
  | 0x0901 =>
    (match s.spr.train with
     | some (m, _) => if m = t then some (s.trainEnd (fun m s => s.refuse m rSuperseded 0)) else none
     | none => none)
  | 0x0A01 | 0x0A02 =>
    (match s.ckpt.job with
     | some j =>
       if j.mb = t then
         let s1 := if j.kind = 1 then { s with ckpt.target := none } else s
         some (s1.ckptFail j rSuperseded 0)
       else none
     | none => none)
  | 0x0B02 =>
    (match s.fmn.slotWrite with
     | some (m, _, _) =>
       if m = t then some ({ s with fmn.slotWrite := none, fmn.flashBusy := false }.refuse t rSuperseded 0) else none
     | none => none)
  | 0x0C02 => if s.sec.unlockMb = some t then some ({ s with sec.unlockMb := none }.refuse t rSuperseded 0) else none
  | _ => none

/-- Bytes of mailbox t's request: the copy while it is WORKING, the request area while it is POSTED. -/
def State.targetBytes (s : State) (t : Nat) : List Byte :=
  if (s.mb t).st = .posted then s.reqArea t else (s.mb t).copy

/-- The outcome of R272, R273 and R279 for a target mailbox and TAG. -/
def State.cancelMb (s : State) (m t tag : Nat) : State :=
  let x := s.mb t
  let l := s.targetBytes t
  if !((x.st = .working || x.st = .posted) && bytesAt l 4 4 == tag) then s.refuse m rBadArgument 0x14
  else if reqClass l ≠ some .long then s.refuse m rStateConflict 1
  else if x.st = .posted then (s.setMb t { x with cancelled := true }).replyDone m
  else if x.committed || x.out.isSome then s.refuse m rAlreadyDone 0
  else if x.ready then (s.refuse t rSuperseded 0).replyDone m
  else match s.stopLong t with
    | some s1 => s1.replyDone m
    | none => s.refuse m rAlreadyDone 0

/-- The mailbox may name the target (R279). -/
def mayCancel (m t : Nat) : Bool := !(4 ≤ m && m ≤ 9) || m == t

/-- CANCEL (R272, R273, R279, R301). -/
def execCancel (m : MbId) (s : State) : Host.Outcome State Fault Refusal :=
  let t := s.rq m.val 0x10 1
  let x := s.mb m.val
  done s (if x.st = .working ∧ x.ready ∧ x.out = none ∧ s.rqOpcode m.val = 0x0002 ∧ !mayCancel m.val t then
      s.refuse m.val rNotPermitted 0
    else s.command m.val 0x0002 (s.rqLen m.val == 8) (s.fieldChecks m.val [(0x10, 1, t < 12), (0x14, 4, true)])
      (fun s => s.cancelMb m.val t (s.rq m.val 0x14 4)))

end Sys2Proof.Machine
end

