-- ==== Sys2Proof/Machine/MemCmd.lean ====
section
/-! DEFINITION. Sys2Proof/Machine/MemCmd.lean: the region-table and scrubber commands, the scrubber, image reload and
error injection (R654 to R684). -/
namespace Sys2Proof.Machine
open Sys2Proof

/-- Two page ranges overlap. -/
def rangesMeet (a la b lb : Nat) : Bool := a < b + lb && b < a + la

/-- The range overlaps a MANAGED entry, or one of another owner (R669). -/
def State.regionClash (s : State) (c base pages : Nat) : Bool :=
  (List.range 32).any (fun e => s.entValid e && rangesMeet base (pages * 4096) (s.entBase e) (s.entPages e * 4096) &&
    (s.entManaged e || !(s.entKind e == 0 && s.entId e == c)))

/-- REGION_SET (R669). -/
def execRegionSet (m : MbId) (s : State) : Host.Outcome State Fault Refusal :=
  let q := fun o n => s.rq m.val o n
  let e := q 0x10 1
  let c := q 0x11 1
  let base := q 0x18 8
  let pages := q 0x20 4
  done s (s.request m.val 0x0401 0x14
    [(0x10, 1, e < 32 || e == 0xFF), (0x11, 1, s.ctxOpen c), (0x12, 1, q 0x12 1 &&& 0x8C == 0), (0x14, 2, true),
     (0x16, 2, true), (0x18, 8, base % 4096 == 0 && (ingotRange base (pages * 4096) || hearthRange base (pages * 4096))),
     (0x20, 4, 1 ≤ pages && pages ≤ 24576)]
    (fun s =>
      match (if e = 0xFF then s.freeEntry else some e) with
      | none => s.refuse m.val rNoResource 0
      | some n =>
        if s.entValid n then s.refuse m.val rStateConflict 1
        else if s.regionClash c base pages then s.refuse m.val rStateConflict 2
        else (s.setEntry n base pages 0 c (q 0x14 2) (q 0x16 2) (q 0x12 1) false).replyDone m.val (leBytes 1 n)))

/-- REGION_CLEAR (R670). -/
def execRegionClear (m : MbId) (s : State) : Host.Outcome State Fault Refusal :=
  let e := s.rq m.val 0x10 1
  done s (s.request m.val 0x0402 1 [(0x10, 1, e < 32)] (fun s =>
    if !s.entValid e then s.refuse m.val rAlreadyDone 0
    else if s.entManaged e then s.refuse m.val rStateConflict 1
    else if s.entKind e = 0 ∧ s.ctxFlasks (s.entId e) ≠ [] then s.refuse m.val rStateConflict 2
    else (s.clearEntry e).replyDone m.val))

/-- Lines of a main pass (R662). -/
abbrev scrubLines : Nat := 2695168
/-- INTERVAL of R663. -/
def scrubInterval (ds : Nat) : Nat := (if 10 ≤ ds ∧ ds ≤ 6000 then ds else 100) * 10 ^ 7 / (2 * scrubLines)

/-- SCRUB_CFG (R672). -/
def execScrubCfg (m : MbId) (s : State) : Host.Outcome State Fault Refusal :=
  let ds := s.rq m.val 0x10 2
  done s (s.request m.val 0x0403 2 [(0x10, 2, 10 ≤ ds && ds ≤ 6000)] (fun s =>
    let s1 := (s.setReg Blk.mem 0x140 (BitVec.ofNat 32 ds)).setReg Blk.mem 0x14C (BitVec.ofNat 32 (scrubInterval ds))
    s1.replyDone m.val (leBytes 4 (scrubInterval ds))))

/-! ## Scrubber (R662 to R667) -/

/-- Address of line n of the main sweep. -/
def lineAddr (n : Nat) : Nat :=
  if n < 1048576 then 64 * n
  else if n < 2621440 then 0x10000000 + 64 * (n - 1048576)
  else if n < 2686976 then mouldBase + 64 * (n - 2621440)
  else 0x30100000 + 64 * (n - 2686976)

/-- The memory at an address is powered in the present state (R126). -/
def State.memOn (s : State) (a : Nat) : Bool :=
  if inHearth a then s.aon.pwr == 3 else if inMould a then 2 ≤ s.aon.pwr else s.aon.pwr != 0

abbrev tcmBase : Nat := 0x30100000
def State.tcmRoEnd (s : State) : Nat := fld (s.reg Blk.mem 0x150) 12 8 * 4096

/-- The context that R667 finds for a governing entry of KIND 1 or 3: the owner of the queue area, stream slot, engine
profile or graph it covers; none for firmware. -/
def State.areaOwner (s : State) (a : Nat) : Option Nat :=
  let inside := fun b l => b ≤ a && a < b + l
  let ctx := fun (o : Nat) => if o < 32 then some o else none
  match (List.range 128).find? (fun q => s.qEn q && s.qOwned q && inside (s.qRing q) (64 * s.qDepth q + 1024)) with
  | some q => some (s.qCtx q)
  | none =>
    match (List.range 48).find? (fun i => (s.slot i).configured &&
        (inside (s.slotCfg i 0x20 4) (s.slotBufLen i) || inside (s.slotCfg i 0x28 4) (s.slotHdrLen i))) with
    | some i => ctx (s.slotOwner i)
    | none =>
      match ((List.range 6).flatMap (fun e => (List.range 8).map (fun p => (e, p)))).find? (fun x =>
          (s.prof x.1 x.2).st != 0 &&
          (inside (s.engCfg x.1 x.2 0x30 4) (s.engNout x.1 x.2 * s.engCfg x.1 x.2 0x34 4) ||
           inside (s.engCfg x.1 x.2 0x38 4) (64 * s.engNout x.1 x.2))) with
      | some x => ctx (s.engOwner x.1 x.2)
      | none => none

/-- The context whose WRITE window covers an uncovered hearth word. -/
def State.hearthOwner (s : State) (a : Nat) : Option Nat :=
  lowest 32 (fun c => s.inWindow c (a + s.bus.chipId * 2 ^ 38) 8 true)

/-- The reaction to a latent uncorrectable word (R667), already poisoned and counted. -/
def State.latent (s : State) (a : Nat) : State :=
  if inTcm a then
    let o := a - tcmBase
    let cfgB := fld (s.reg Blk.mem 0x154) 12 8 * 4096
    let cfgL := fld (s.reg Blk.mem 0x158) 12 8 * 4096
    if cfgB ≤ o ∧ o < cfgB + cfgL then s.graveFault 7 Blk.mem a
    else if o < s.tcmRoEnd then
      if s.rst.image.slot < 2 then
        { s with mem.reloads := if s.mem.reloads.any (fun r => r.1 == o / 4096) then s.mem.reloads
          else s.mem.reloads ++ [(o / 4096, s.clk.now)] }
      else s.classDFault 6
    else s.classDFault 5
  else if inMould a then s.mouldError a
  else
    let note := fun (c : Nat) => if (s.ctx c).st = .closed then s else s.contextNotice c stEcc 1 (a + s.bus.chipId * 2 ^ 38)
    let unowned := s.logRecord 3 1 Blk.mem 0xFF (a % 2 ^ 32) 0
    match s.governing a with
    | some e =>
      if s.entKind e = 0 then note (s.entId e)
      else if s.entKind e = 2 then s
      else match s.areaOwner a with | some c => note c | none => unowned
    | none =>
      if inHearth a then (match s.hearthOwner a with | some c => note c | none => unowned) else unowned

/-- The scrubber decodes one word (R664). -/
def State.scrubWord (s : State) (a : Nat) : State :=
  match eccDecode (s.chkAt a) with
  | .clean => s
  | .poisoned => s
  | .correctable pos => ((s.correct a pos).bankCount a false).bump Blk.mem 2
  | .uncorrectable => (((s.memErr 5 3 Config.mScrub a).bankCount a true).setChk a 0xFF).latent a
def State.scrubLine (s : State) (a : Nat) : State :=
  if s.memOn a then (List.range 8).foldl (fun s i => s.scrubWord (a + 8 * i)) s else s

/-- Ranges of the priority sweep: start and number of lines (R666). -/
def State.prioRanges (s : State) : List (Nat × Nat) :=
  (tcmBase + s.tcmRoEnd, (0x80000 - s.tcmRoEnd) / 64) ::
  (List.range 32).filterMap (fun e =>
    if s.entValid e && bit (s.entAttr e).toNat 6 then some (s.entBase e, s.entPages e * 64) else none)
/-- Line n of a list of ranges. -/
def rangeLine : List (Nat × Nat) → Nat → Option Nat
  | [], _ => none
  | (b, l) :: t, n => if n < l then some (b + 64 * n) else rangeLine t (n - l)

/-- SCRUB_STEP (R662 to R667): even steps take the main sweep's next line, odd ones the priority sweep's. -/
def execScrubStep (s : State) : Host.Outcome State Fault Refusal :=
  done s (
    if s.aon.pwr = 0 then s
    else if s.mem.scrubOdd then
      let start := s.mem.prioPos = 0
      let lines := if start then s.prioRanges else s.mem.prioLines
      let s1 := { s with mem.scrubOdd := false, mem.prioLines := lines }
      match rangeLine lines s1.mem.prioPos with
      | none => { s1 with mem.prioPos := 0, mem.prioLines := [] }
      | some a =>
        let next := s1.mem.prioPos + 1
        let more := (rangeLine lines next).isSome
        let s2 := s1.scrubLine a
        { s2 with
          mem.prioPos := if more then next else 0
          mem.prioLines := if more then lines else [] }
    else
      let n := s.mem.scrubPos
      let s1 := s.scrubLine (lineAddr n)
      let wrap := scrubLines ≤ n + 1
      let s2 := { s1 with mem.scrubOdd := true, mem.scrubPos := if wrap then 0 else n + 1 }
      if wrap then s2.setReg Blk.mem 0x148 (BitVec.ofNat 32 ((fld (s2.reg Blk.mem 0x148) 0 16 + 1) % 65536)) else s2)

/-- ERROR_INJECT_ARM (R683): a write of MEM_INJ_GO with ARM 1. -/
def execErrorInjectArm (s : State) : Host.Outcome State Fault Refusal :=
  done s { s with mem.injArmed := true }

end Sys2Proof.Machine
end

