-- ==== Sys2Proof/Machine/Views.lean ====
section
/-! DEFINITION. Sys2Proof/Machine/Views.lean: what each register reads (the Registers section of each chapter): the
status registers as views of the state, the others as they stand in the register store; and which bits of a register
the spec leaves open. -/
namespace Sys2Proof.Machine
open Sys2Proof

/-- Place of `off` in a row of `count` registers, `stride` apart from `base` on. -/
def place (base stride count off : Nat) : Option Nat :=
  if base ≤ off && (off - base) % stride == 0 && (off - base) / stride < count then some ((off - base) / stride) else none
/-- Offset within the item of a row of items. -/
def item (base stride count off : Nat) : Option (Nat × Nat) :=
  if base ≤ off && (off - base) / stride < count then some ((off - base) / stride, (off - base) % stride) else none

/-! ## Standard block, CHIP and PCIE -/

def State.viewStd (s : State) (b off : Nat) : Option Word :=
  match off with
  | 0x00 => some (at_ 1 8 8 ||| at_ b 0 8)
  | 0x08 => some (s.intStatus b)
  | 0x14 => some (BitVec.ofNat 32 (s.evBehind b))
  | 0x1C => some (at_ (Tab.get zero16 s.rf.snapSeq b).toNat 0 16)
  | _ => none

/-- CHIP_PART at stepping B0 (R123). -/
def chipPart : Word := 0x0960B000#32 ||| (if Config.grade = 1 then 1 else 0)
def State.viewChip (s : State) (off : Nat) : Option Word :=
  match off with
  | 0x100 => some chipPart
  | 0x210 => some (s.reg Blk.chip 0x210 ||| bitAt (s.pend Blk.chip 3) 8)
  | 0x214 => some (at_ s.bus.chipId 0 2)
  | _ => none

def State.viewPcie (s : State) (off : Nat) : Option Word :=
  match off with
  | 0x100 =>
    let u := s.bus.linkUp
    some (at_ s.bus.l1sub 10 2 ||| bitAt u 9 ||| (if u then at_ s.bus.linkWidth 6 3 ||| at_ s.bus.linkRate 3 3 else 0))
  | 0x11C => some (BitVec.ofNat 32 (mkBits 32 (fun c => tget s.bus.pf1Ctx c)))
  | _ => none

/-! ## AON, BARO, CLK, RST, TB -/

def State.viewAon (s : State) (off : Nat) : Option Word :=
  match off with
  | 0x100 => some (bitAt s.aon.moving.isSome 8 ||| at_ (s.aon.moving.getD s.aon.pwr) 4 2 ||| at_ s.aon.pwr 0 2)
  | 0x134 => some (at_ s.aon.wakeSrc.toNat 0 16)
  | 0x140 => some (bitAt s.aon.commit.isSome 3 ||| bitAt s.aon.wrapped 2 ||| bitAt s.aon.inaccurate 1 ||| bitAt s.aon.unset 0)
  | 0x300 => some s.graveWord
  | _ => none

def State.viewBaro (s : State) (off : Nat) : Option Word :=
  match off with
  | 0x104 => some (bitAt s.baro.tempCrit 4 ||| bitAt s.baro.tempWarn 3 ||| bitAt s.baro.boAon 2 ||| bitAt s.baro.boSram 1 |||
      bitAt s.baro.boCore 0)
  | 0x108 => some (at_ s.baro.loStatus.toNat 0 16)
  | 0x10C => some (at_ s.baro.hiStatus.toNat 0 16)
  | _ => none

def Phase.code : Phase → Nat
  | .idle => 0
  | .switching _ => 1
  | .hung => 2
/-- CLK_GATE_STATE of blocks lo to lo + n − 1. -/
def State.gateState (s : State) (lo n : Nat) : Word :=
  BitVec.ofNat 32 (mkBits n (fun i => gateable (lo + i) && !s.gated (lo + i)))
def State.viewClk (s : State) (off : Nat) : Option Word :=
  match off with
  | 0x100 => some (at_ s.clk.ready.toNat 0 9)
  | 0x16C => some (s.gateState 0 32)
  | 0x170 => some (s.gateState 48 32)
  | 0x174 => some (s.gateState 80 16)
  | _ =>
    match place 0x110 4 7 off with
    | some d => some (bitAt (4 ≤ d) 16 ||| at_ (s.domain d).phase.code 12 2 ||| at_ (s.domain d).active 8 4)
    | none =>
      match place 0x218 0x20 8 off with
      | some k => some (bitAt (s.meter k).valid 3 ||| bitAt ((s.meter k).stopped || (s.meterOn k && 12 ≤ s.meterTarget k)) 2 |||
          bitAt (s.meterFault k) 1 ||| bitAt (s.meter k).prewarn 0)
      | none => none

def State.viewRst (s : State) (off : Nat) : Option Word :=
  match off with
  | 0x104 => some (at_ s.rst.boot 0 2)
  | 0x108 => some (s.reg Blk.rst 0x10C)
  | _ => none

def State.viewTb (s : State) (off : Nat) : Option Word :=
  match off with
  | 0x100 => some (BitVec.ofNat 32 s.tbNow)
  | 0x104 => some (BitVec.ofNat 32 (s.tbNow / 2 ^ 32))
  | 0x108 => some (bitAt ((s.domain 2).active == 1) 4 ||| bitAt s.unsync 0)
  | _ => none

/-! ## FMN, QUE, SCH, CRU, MEM -/

def MbState.code : MbState → Nat
  | .idle => 0
  | .posted => 1
  | .working => 2
  | .responded => 3
def State.mbStateWord (s : State) (m : Nat) : Word :=
  let x := s.mb m
  bitAt (s.longRuns m) 16 ||| (match x.bound with | some c => bitAt true 13 ||| at_ c 8 5 | none => 0) ||| at_ x.st.code 0 2
def State.viewFmn (s : State) (off : Nat) : Option Word :=
  match off with
  | 0x108 => some (bitAt s.wdogOn 31 ||| bitAt s.fmn.wdogWarn 30 ||| at_ (if s.wdogOn then s.wdogLeft / tbMs else 0) 0 16)
  | _ => match place 0x1204 0x400 12 off with
    | some m => some (s.mbStateWord m)
    | none => none

/-- QUE_Qn_LEVEL, FLAGS and EPOCH, which a doorbell page shows too (R338). -/
def State.levelWord (s : State) (q : Nat) : Word := at_ (if s.qEn q then s.credits q else 0) 16 13 ||| at_ (s.queue q).occ 0 13
def State.flagsWord (s : State) (q : Nat) : Word :=
  let x := s.queue q
  let h := x.flags.headD (false, false)
  bitAt x.armed 4 ||| bitAt x.dropping 3 ||| bitAt h.2 2 ||| bitAt h.1 1
def State.epochWord (s : State) (q : Nat) : Word := at_ (s.queue q).epoch 0 16
def State.viewQue (s : State) (off : Nat) : Option Word :=
  match place 0x130 4 4 off with
  | some k => some (BitVec.ofNat 32 (mkBits 32 (fun i => s.qFmnBit (32 * k + i))))
  | none =>
    match item 0x1000 0x40 128 off with
    | some (q, 0x10) => some (s.levelWord q)
    | some (q, 0x14) => some (at_ (s.queue q).tail 16 12 ||| at_ (s.queue q).head 0 12)
    | some (q, 0x18) => some (s.flagsWord q)
    | some (q, 0x1C) => some (s.epochWord q)
    | some (q, 0x20) => some (at_ (s.queue q).removed 16 13 ||| bitAt (s.queue q).viol 8 ||| at_ (s.queue q).pushed 0 5)
    | _ => none

def CtxSt.code : CtxSt → Nat
  | .closed => 0
  | .opened => 1
  | .teardown => 2
  | .faulted => 3
/-- Flask on which context c has a job running. -/
def State.runFlask (s : State) (c : Nat) : Option Nat := (s.ctxFlasks c).head?
def State.flaskWord (s : State) (f : Nat) : Word :=
  let x := s.flask f
  bitAt x.built 31 ||| bitAt (s.lentFlask f) 30 ||| bitAt (x.slack == 1) 29 |||
  (match x.running with | some r => at_ r.job.ctx 16 5 ||| bitAt true 15 | none => 0) ||| at_ x.entry 8 4 ||| at_ x.n 0 5
def State.ctxWord (s : State) (c : Nat) : Word :=
  let x := s.ctx c
  at_ x.lastStatus 24 8 ||| (match s.runFlask c with | some f => bitAt true 15 ||| at_ f 12 3 | none => 0) |||
  at_ x.staged.length 4 5 ||| at_ x.st.code 0 2
/-- LEVEL of bucket k of regulator r in whole bytes, two's complement; with EN 0 it shows BURST (R505). -/
def State.levelOf (s : State) (r k : Nat) : Word :=
  let o := 0x6000 + 0x40 * r + 0x10 * k
  let burst := fld (s.reg Blk.sch (o + 4)) 0 20
  if fld (s.reg Blk.sch o) 31 1 = 0 then BitVec.ofNat 32 burst
  else BitVec.ofInt 32 (Int.fdiv ((burst * 256 : Nat) - (nget s.sch.used (4 * r + k) : Int)) 256)
def State.viewSch (s : State) (off : Nat) : Option Word :=
  match off with
  | 0x140 => some (BitVec.ofNat 32 (mkBits 32 (fun c => (s.ctx c).st == .opened)))
  | 0x144 => some (BitVec.ofNat 32 (mkBits 32 (fun c => (s.ctx c).st == .faulted)))
  | _ =>
    match item 0x1000 0x100 8 off with
    | some (f, 0x00) => some (s.flaskWord f)
    | some (f, 0x04) => some (BitVec.ofNat 32 (s.flask f).mask)
    | some (f, 0x08) => some (BitVec.ofNat 32 ((s.flask f).mask / 2 ^ 32))
    | some (f, 0x0C) => some (at_ (if (s.flask f).n = 0 then 0 else s.entryLeft f / tbUs) 0 24)
    | some _ => none
    | none =>
      match place 0x3000 0x10 32 off with
      | some c => some (s.ctxWord c)
      | none =>
        match item 0x6000 0x40 10 off with
        | some (r, 0x08) => some (s.levelOf r 0)
        | some (r, 0x18) => some (s.levelOf r 1)
        | some (r, 0x28) => some (s.levelOf r 2)
        | some (r, 0x30) => some (BitVec.ofNat 32 (mkBits 3 (fun k => tget s.sch.held (4 * r + k))))
        | _ => none

/-- CRUn_STATE: a halted crucible is HELD, one whose job is being ended STOPPING. -/
def State.cruWord (s : State) (n : Nat) : Word :=
  match s.flaskOf n with
  | none => if s.isHalted (Blk.cru0 + n) then 3 else 0
  | some f =>
    at_ f 8 3 ||| bitAt true 7 |||
    (match (s.flask f).running with
     | some r => at_ (if r.job.ctx < 32 then r.job.ctx else 0) 16 5 |||
        (if s.isHalted (Blk.cru0 + n) then 3 else if r.abort || r.ended.isSome then 2 else if r.started then 1 else 0)
     | none => if s.isHalted (Blk.cru0 + n) then 3 else 0)
def State.viewCru (s : State) (b off : Nat) : Option Word :=
  match off with
  | 0x100 => some (s.cruWord (b - 48))
  | _ => none

def State.viewMem (s : State) (off : Nat) : Option Word :=
  match off with
  | 0x144 => some (at_ s.mem.scrubPos 0 22)
  | _ => none

/-! ## FLX, SPR, ING -/

/-- FLX_ENC_STATE; which of the encoders are the busy ones is the device's own (`State.openBits`). -/
def State.viewFlx (s : State) (off : Nat) : Option Word :=
  match off with
  | 0x15C =>
    let n := s.flx.encoders.length
    some (at_ (s.flx.encoders.foldl (fun k e => k + e.slots.length) 0) 16 8 ||| (if 4 ≤ n then 15 else 0))
  | _ => none

def PortSt.code : PortSt → Nat
  | .off => 0
  | .detect => 1
  | .align => 2
  | .param => 3
  | .up => 4
  | .down => 5
def State.reachWord (s : State) : Word :=
  let n := s.chips
  let way := fun (d : Nat) => if d = s.bus.chipId then 0 else match s.mailRoute d with | some p => 1 + p | none => 3
  at_ s.spr.n 16 3 ||| at_ ((List.range 4).foldl (fun v d => v + way d * 4 ^ d) 0) 8 8 |||
  at_ (mkBits 4 (fun d => s.chipLost d)) 4 4 ||| at_ (mkBits 4 (fun d => decide (d < n) && s.reachable d)) 0 4
def State.viewSpr (s : State) (p off : Nat) : Option Word :=
  let x := s.port p
  match off with
  | 0x140 =>
    let on := x.st == .up
    some (at_ x.reason 20 4 ||| bitAt (s.bus.chipId != 0 && s.timePort == p) 19 ||| bitAt (x.sealedTx && x.sealedRx) 18 |||
      at_ x.peer 16 2 ||| (if on then at_ ((2 ^ x.width - 1) * 2 ^ x.lane0) 8 8 ||| at_ x.width 4 4 else 0) ||| at_ x.st.code 0 3)
  | 0x144 =>
    if s.bus.chipId != 0 && s.timePort == p then
      some (bitAt s.spr.thetaValid 31 ||| (BitVec.ofInt 32 s.spr.theta &&& 0x7FFFFFFF))
    else some 0
  | 0x158 => some s.reachWord
  | _ => none

def SlotSt.code : SlotSt → Nat
  | .stopped => 0
  | .armed => 1
  | .receiving => 2
def State.viewIng (s : State) (off : Nat) : Option Word :=
  match place 0x400 0x20 6 off with
  | some k =>
    let on := (List.range 48).find? (fun i => (s.slot i).configured && s.slotCfg i 0x11 1 == k)
    some (match on with | some i => at_ (s.slotCfg i 0x16 1) 0 2 | none => 0)
  | none =>
    match place 0x1000 0x80 48 off with
    | some i =>
      let x := s.slot i
      some (at_ x.reason 8 4 ||| bitAt x.stalled 4 ||| bitAt x.configured 2 ||| at_ x.st.code 0 2)
    | none => none

/-! ## Engines, PAT -/

def State.okWord (v : Option Nat) : Word := match v with | some r => bitAt true 16 ||| at_ r 0 16 | none => 0
def State.viewEng (s : State) (e off : Nat) : Option Word :=
  let act := fun (p : Nat) => match (s.engine e).run with | some r => r.prof == p | none => false
  match off with
  | 0x100 =>
    some (at_ (mkBits 8 (fun p => (s.prof e p).st == 3)) 24 8 ||| at_ (mkBits 8 (fun p => (s.prof e p).st == 2)) 16 8 |||
      at_ (mkBits 8 (fun p => (s.prof e p).pending)) 8 8 |||
      (match (s.engine e).run with | some r => bitAt true 3 ||| at_ r.prof 0 3 | none => 0))
  | _ =>
    match item 0x1000 0x100 8 off with
    | some (p, 0x00) =>
      let x := s.prof e p
      some (at_ x.runseq 16 16 ||| at_ x.lastStatus 8 8 ||| bitAt (act p) 3 ||| bitAt x.pending 2 ||| at_ x.st 0 2)
    | some (p, 0x04) => some (State.okWord (s.prof e p).lastOk)
    | some (p, 0x08) => some (State.okWord (s.prof e p).prevOk)
    | _ => if e = 2 ∧ off = 0x200 then some (bitAt (s.engine e).run.isSome 0) else none

def GraphSt.code : GraphSt → Nat
  | .unloaded => 0
  | .stopped => 1
  | .idle => 2
  | .running => 3
  | .faulted => 4
def State.viewPat (s : State) (off : Nat) : Option Word :=
  match off with
  | 0x100 => some (at_ (mkBits 16 (fun g => (s.graph g).st == .running)) 16 16 |||
      at_ (mkBits 16 (fun g => (s.graph g).st == .idle || (s.graph g).st == .running)) 0 16)
  | _ =>
    match item 0x1000 0x40 16 off with
    | some (g, 0x00) =>
      let x := s.graph g
      some (at_ x.fcount 16 16 ||| at_ (match x.inst with | some i => i.node | none => 0) 8 6 ||| bitAt x.pending.isSome 3 |||
        at_ x.st.code 0 3)
    | some (g, 0x04) =>
      (match (s.graph g).inst with
       | some i =>
         let tk := fun (t : Nat) => Tab.get (fun _ => ({} : Token)) i.tokens t
         some (at_ (mkBits 15 (fun t => !(tk t).outstanding && (tk t).outcome == 0)) 16 15 |||
           at_ (mkBits 15 (fun t => (tk t).outstanding)) 0 15)
       | none => some 0)
    | _ => none

/-! ## FSU, DISP -/

def State.viewFsu (s : State) (off : Nat) : Option Word :=
  let x := s.fsu
  match off with
  | 0x140 =>
    some (at_ (s.fsuCfg 0x13 1) 24 2 ||| at_ x.j 20 2 ||| at_ (x.lent.getD 0) 16 3 ||| bitAt x.lent.isSome 12 ||| bitAt x.wide 9 |||
      at_ (x.active.getD 0) 8 1 ||| at_ x.bankB 6 2 ||| at_ x.bankA 4 2 ||| at_ x.st 0 2)
  | 0x144 => some (BitVec.ofNat 32 x.k)
  | 0x160 => some (BitVec.ofNat 32 (match s.activeHead with | some h => bytesAt h 0x10 8 | none => 0))
  | 0x164 => some (BitVec.ofNat 32 ((match s.activeHead with | some h => bytesAt h 0x10 8 | none => 0) / 2 ^ 32))
  | _ => none

/-- T0 of the frame in progress, and of the next one where one is published. -/
def State.t0Now (s : State) : Nat := (s.dispT0s[0]?).getD 0
def State.t0Next (s : State) : Option Nat := s.dispT0s[1]?
def State.viewDisp (s : State) (off : Nat) : Option Word :=
  let x := s.disp
  match off with
  | 0x150 =>
    some (bitAt s.dispVideo 12 ||| at_ x.source 10 2 ||| bitAt x.relock.isSome 9 ||| bitAt x.staged.isSome 8 |||
      at_ (x.staged.getD 0) 6 2 ||| at_ (x.active.getD 0) 4 2 ||| at_ x.st 0 2)
  | 0x154 => some (BitVec.ofNat 32 x.fcount)
  | 0x158 => some (BitVec.ofNat 32 s.t0Now)
  | 0x15C => some (BitVec.ofNat 32 (s.t0Now / 2 ^ 32))
  | 0x160 => some (BitVec.ofNat 32 (s.t0Next.getD 0))
  | 0x164 => some (BitVec.ofNat 32 (s.t0Next.getD 0 / 2 ^ 32))
  | 0x168 => some (BitVec.ofNat 32 (match x.active with | some k => s.linePs k | none => 0))
  | _ =>
    match place 0x180 4 16 off with
    | some i =>
      let u := s.regionSlot i
      some (if u.running.isSome then (if u.pending.isSome then 3 else 2) else if u.queued.isSome then 1 else 0)
    | none =>
      match item 0x1000 0x40 8 off with
      | some (e, 0x00) => some (at_ (s.egress e).st 0 2)
      | some (e, 0x04) => some (at_ (s.egress e).written 0 16)
      | some (e, 0x0C) => some (at_ (s.egress e).drops 0 16)
      | _ => none

/-! ## FBC, INP, QCH, SEC, IOX -/

def FbcState.code : FbcState → Nat
  | .off => 0
  | .integrating => 1
  | .running => 2
  | .busOff => 3
  | .recovering => 4
def State.viewFbc (s : State) (k off : Nat) : Option Word :=
  let f := s.fbc k
  match off with
  | 0x160 => some (bitAt f.pex 11 ||| bitAt f.configured 10 ||| bitAt f.restricted 9 ||| bitAt f.passive 8 |||
      at_ (s.fbcMode k) 4 3 ||| at_ f.st.code 0 3)
  | 0x164 => some (bitAt (127 < f.recCnt) 31 ||| at_ f.recCnt 16 8 ||| at_ f.tecCnt 0 9)
  | 0x170 => some (at_ f.recov 0 8)
  | 0x174 =>
    let lo := 16 + s.fbcTxf k
    let free := if f.configured then (List.range (128 - lo)).countP (fun i => (Tab.get (fun _ => none) f.rx (lo + i)).isNone) else 0
    some (at_ f.txReq.toNat 16 8 ||| at_ f.fifo.length 8 7 ||| at_ free 0 7)
  | 0x178 => some (at_ f.rxSeq 0 16)
  | 0x188 => some (at_ f.txAborted.toNat 8 8 ||| at_ f.txDone.toNat 0 8)
  | _ => none

def State.viewInp (s : State) (off : Nat) : Option Word :=
  match off with
  | 0x140 => some (at_ s.inp.regEpoch 16 16 ||| at_ ((List.range 256).countP (fun a => (s.node a).st == 3)) 8 8 |||
      at_ (mkBits 4 (fun k => s.runsInp k)) 0 4)
  | _ =>
    match item 0x1000 0x10 256 off with
    | some (a, o) => if o % 4 = 0 then some (s.nodeWord a (o / 4) (a < 4 && s.reachable a)) else none
    | none => none

def QchState.code : QchState → Nat
  | .disarmed => 0
  | .armed => 1
  | .tripped => 2
  | .grave => 3
def State.viewQch (s : State) (off : Nat) : Option Word :=
  match off with
  | 0x100 => some (at_ s.qch.tripCause 8 4 ||| bitAt s.qch.selftestOk 4 ||| bitAt s.qConfigured 3 ||| bitAt s.pairRun 2 |||
      at_ s.qch.st.code 0 2)
  | 0x104 => some (BitVec.ofNat 32 s.causes)
  | 0x114 => some (at_ s.dR 16 16 ||| at_ s.dF 0 16)
  | 0x118 => some (at_ s.vR 16 16 ||| at_ s.vF 0 16)
  | 0x11C =>
    let on := s.qch.st == .armed
    some (bitAt on 5 ||| bitAt on 4 ||| bitAt (s.qn != s.qch.qnRbBad) 3 ||| bitAt (s.qp != s.qch.qpRbBad) 2 ||| bitAt s.qn 1 |||
      bitAt s.qp 0)
  | 0x124 => some (at_ (nget s.qch.stopSeq 1) 16 16 ||| at_ (nget s.qch.stopSeq 0) 0 16)
  | 0x128 => some (at_ (nget s.qch.stopSeq 3) 16 16 ||| at_ (nget s.qch.stopSeq 2) 0 16)
  | _ =>
    match item 0x200 8 16 off with
    | some (i, 0) =>
      let x := s.sector i
      some (at_ x.dist 16 16 ||| bitAt (bit s.revMask i) 4 ||| bitAt (bit s.fwdMask i) 3 ||| bitAt x.stale 2 ||| at_ x.kind 0 2)
    | some (i, 4) =>
      let x := s.sector i
      some (at_ (if x.kind = 0 then 0 else min 65535 ((s.clk.now - x.pubAt) / tbMs)) 0 16)
    | _ => none

/-- Firmware key slot i is active (R1033). -/
def State.keyActive (s : State) (i : Nat) : Bool := (s.fwKeyHash i).toNat != 0 && !s.sec.otp.revoke.toNat.testBit i
def State.viewSec (s : State) (off : Nat) : Option Word :=
  match off with
  | 0x140 => some (bitAt s.sec.trngOk 12 ||| bitAt s.sec.lockout 11 ||| bitAt s.keysDisabled 10 ||| bitAt s.sec.otp.kp.isSome 9 |||
      bitAt s.sec.keysetDebug 8 ||| at_ s.sec.debug 4 2 ||| at_ s.sec.lifecycle 0 2)
  | 0x144 => some (at_ s.sec.otp.rollback 8 6 ||| at_ s.sec.otp.revoke.toNat 4 4 ||| at_ (mkBits 4 s.keyActive) 0 4)
  | 0x148 => some (BitVec.ofNat 32 s.sec.otp.deviceId.toNat)
  | 0x14C => some (BitVec.ofNat 32 (s.sec.otp.deviceId.toNat / 2 ^ 32))
  | _ => none

/-- GPIOn belongs to DISP (R1068). -/
def State.gpioDisp (s : State) (n : Nat) : Bool :=
  s.disp.st != 0 && (s.disp.pwrGpio == n || s.disp.rstGpio == n || s.disp.teGpio == n)
/-- Boundary cell i while EXTEST drives the balls (R1073). -/
def State.cell (s : State) (i : Nat) : Bool := s.jtag.boundary.toNat.testBit i
/-- First boundary cell of ball i, and the ball of GPIOn. -/
def ballCell (i : Nat) : Nat := 3 * i
def gpioBall (n : Nat) : Nat := 54 + n
/-- The level that the part drives at GPIOn; none while GPIOn is an input (R1067, R1068, R1073). -/
def State.gpioDrive (s : State) (n : Nat) : Option Bool :=
  if s.jtag.drives then
    (if s.cell (ballCell (gpioBall n) + 2) then some (s.cell (ballCell (gpioBall n) + 1)) else none)
  else if s.disp.st != 0 && s.disp.pwrGpio == n then some s.disp.pwrHigh
  else if s.disp.st != 0 && s.disp.rstGpio == n then some s.disp.rstHigh
  else if s.disp.st != 0 && s.disp.teGpio == n then none
  else if (s.reg Blk.iox 0x408).toNat.testBit n then some ((s.reg Blk.iox 0x404).toNat.testBit n)
  else none
/-- Level at a driven GPIOn; that of an input is the outside's (`State.openBits`). -/
def State.gpioLevel (s : State) (n : Nat) : Bool := (s.gpioDrive n).getD false
def State.viewIox (s : State) (off : Nat) : Option Word :=
  match off with
  | 0x400 => some (BitVec.ofNat 32 (mkBits 24 s.gpioLevel))
  | 0x414 => some (BitVec.ofNat 32 (mkBits 24 s.gpioDisp))
  | _ => none

/-! ## Every register -/

/-- The view a block's chapter gives of a status register; none for a register that stands in the store. -/
def State.viewBlk (s : State) (b off : Nat) : Option Word :=
  match b with
  | 0 => s.viewChip off
  | 1 => s.viewAon off
  | 2 => s.viewBaro off
  | 3 => s.viewClk off
  | 4 => s.viewRst off
  | 5 => s.viewFmn off
  | 6 => s.viewQue off
  | 7 => s.viewSch off
  | 8 => s.viewMem off
  | 9 => s.viewFlx off
  | 10 | 11 => s.viewSpr (b - 10) off
  | 12 => s.viewIng off
  | 13 | 14 | 15 | 16 | 17 | 18 => s.viewEng (b - 13) off
  | 19 => s.viewPat off
  | 20 => s.viewFsu off
  | 21 => s.viewDisp off
  | 22 | 23 | 24 | 25 => s.viewFbc (b - 22) off
  | 26 => s.viewInp off
  | 27 => s.viewQch off
  | 28 => s.viewSec off
  | 29 => s.viewPcie off
  | 31 => s.viewIox off
  | 32 => s.viewTb off
  | _ => if 48 ≤ b then s.viewCru b off else none

/-- The live value of a register, the bits left open apart; an offset with no register reads zero (R85). -/
def State.live (s : State) (b off : Nat) : Word :=
  match regRow b off with
  | none => 0
  | some (r, i) =>
    match (if off < 0x100 then s.viewStd b off else s.viewBlk b off) with
    | some v => v
    | none =>
      match r.kind with
      | .evc j => at_ (s.evc b (j + i)).toNat 0 16
      | .ack j => at_ (s.ackOf b (j + i)).toNat 0 16
      | .cmd => 0
      | _ => s.reg b off

/-- Bits of a register that the spec leaves open in this state: the levels of GPIOs that are inputs, what SGM is producing within a run, lanes in HS, which
encoders are busy, the T0 of a frame that is not published. -/
def State.openBits (s : State) (b off : Nat) : Word :=
  if b = Blk.sgm ∧ off = 0x200 then (if (s.engine 2).run.isSome then 0xFFFF0310 else 0)
  else if b = Blk.ing then (match place 0x400 0x20 6 off with | some _ => 0x1F0 | none => 0)
  else if b = Blk.flx ∧ off = 0x15C then
    (if s.flx.encoders = [] ∨ 4 ≤ s.flx.encoders.length then 0 else 15)
  else if b = Blk.iox ∧ off = 0x400 then BitVec.ofNat 32 (mkBits 24 (fun n => (s.gpioDrive n).isNone))
  else if b = Blk.disp ∧ (off = 0x160 ∨ off = 0x164) then
    (if s.disp.frameAt.isSome ∧ s.t0Next.isNone then 0xFFFFFFFF else 0)
  else 0

/-- The value a read of a register finds. -/
def State.liveRead (s : State) (b off : Nat) : Word × State :=
  let m := s.openBits b off
  if m = 0 then (s.live b off, s)
  else
    let (v, s1) := s.takeFree 32
    ((s.live b off &&& ~~~m) ||| (BitVec.ofNat 32 v &&& m), s1)

end Sys2Proof.Machine
end

