-- ==== Sys2Proof/Machine/Regs.lean ====
section
/-! DEFINITION. Sys2Proof/Machine/Regs.lean: register accesses: the checks of R83, what a read returns and what a write
does, LO/HI pairs, SNAPSHOT, acknowledgement and MSI-X, hidden parity, halted blocks (R81 to R124, R1015, R1016). -/
namespace Sys2Proof.Machine
open Sys2Proof

/-! ## Classes and guard levels (R38 to R40, R82) -/

/-- The access class of a master: its own of R38, or for the Sprue ports the class carried, never Secure (R40). -/
def masterClass (m : Nat) (carried : AccessClass) : AccessClass :=
  if m = 0x30 ∨ m = 0x31 ∨ m = 0x41 then .secure
  else if m = 0x32 then .privileged
  else if m = 0x34 ∨ m = 0x35 then (match carried with | .ordinary => .ordinary | _ => .privileged)
  else .ordinary

/-- Whether a guard level admits a class. -/
def Guard.admits (g : Guard) (cls : AccessClass) : Bool :=
  match g, cls with
  | .anyClass, _ => true
  | .guarded, .ordinary => false
  | .guarded, _ => true
  | .secureOnly, .secure => true
  | .secureOnly, _ => false

/-- MASTER and WRITE of a captured access. -/
def accessInfo (m : Nat) (write : Bool) : Word := at_ m 24 8 ||| bitAt write 23

/-- A size violation: counted in CHIP, captured while none is pending (R83, R124). -/
def State.sizeErr (s : State) (m : Nat) (write : Bool) (a : Nat) : State :=
  s.bumpInfo Blk.chip 2 0x10C (accessInfo m write ||| at_ a 0 23)
/-- An access to a gated block (R191). -/
def State.gatedErr (s : State) (m : Nat) (write : Bool) (b : Blk) : State :=
  s.bumpInfo Blk.clk 4 0x14C (accessInfo m write ||| at_ b 0 8)
/-- A guard violation (R83, R122). -/
def State.guardErr (s : State) (m : Nat) (write : Bool) (b off : Nat) : State :=
  s.bumpInfo b 0 0x28 (accessInfo m write ||| at_ off 0 16)

/-! ## Hidden parity (R100 to R102) -/

/-- The parity state of a register. -/
def State.parityOf (s : State) (b off : Nat) : Nat := nget s.rf.parityBad (regKey b off)
def State.setParity (s : State) (b off v : Nat) : State := { s with rf.parityBad := nset s.rf.parityBad (regKey b off) v }

/-- Bits of a register that carry parity: its RW and ACK fields. INT_ENABLE of a crucible frame is RSV (R106). -/
def parityMask (b off : Nat) : Word :=
  if 48 ≤ b ∧ off = 0xC then 0
  else match regRow b off with
    | some (r, _) => r.wmask
    | none => 0

/-- CAUSE of R1005 for the blocks whose mismatch is Class G. -/
def graveParity (b : Blk) : Option Nat :=
  if b = Blk.qch then some 1 else if b = Blk.aon then some 2 else if b = Blk.sec then some 3 else none

/-- A check of a register finds its mismatch: the event once, the capture, and the reaction of R116 for the blocks that
do not halt alone. -/
def State.parityFound (s : State) (b off : Nat) (byScan : Bool) : State :=
  let v := s.parityOf b off
  if v % 4 = 1 then
    let info := bitAt byScan 16 ||| at_ off 0 16
    let s1 := (s.setParity b off (v + 1)).bumpInfo b 1 0x34 info
    match graveParity b with
    | some c => s1.graveFault c b info.toNat
    | none => if haltGroup b then s1 else s1.classDFault (parityDetail b)
  else s

/-- A bit of a register's RW or ACK field is inverted in its storage. -/
def State.flipReg (s : State) (b off i : Nat) : State :=
  if (parityMask b off).toNat.testBit i then
    match regRow b off with
    | none => s
    | some (r, j) =>
      let s1 := match r.kind with
        | .ack src => s.setAck b (src + j) (s.ackOf b (src + j) ^^^ BitVec.ofNat 16 (2 ^ i))
        | _ => s.setReg b off (s.reg b off ^^^ BitVec.ofNat 32 (2 ^ i))
      let v := s.parityOf b off
      let mask := v / 4 ^^^ 2 ^ i
      s1.setParity b off (if mask = 0 then 0 else 4 * mask + max 1 (v % 4))
  else s

/-- CFG_PARITY_SCAN (R101, R102, R113, R116): the scan reaches the register at `off` of block b; a bit inverted in its
storage since the last check may be given, and `seen` tells whether the scan meets it now. AON is clocked in Calm too. -/
def execCfgParityScan (b : Fin 96) (off : BitVec 16) (flip : Option (Fin 32)) (seen : Bool) (s : State) :
    Host.Outcome State Fault Refusal :=
  let o := off.toNat
  let s1 := match flip with
    | some i => s.flipReg b.val o i.val
    | none => s
  done s (if seen && (b.val == 1 || !s1.gated b.val) then s1.parityFound b.val o true else s1)

/-! ## Snapshots (R97, R98) -/

/-- Offsets of a row's registers. -/
def RegRow.offs (r : RegRow) : List Nat := (List.range (if r.stride = 0 then 1 else r.count)).map (fun i => r.off + r.stride * i)
/-- Offsets of a block's snapshot set. -/
def snapSet (b : Blk) : List Nat := ((regRowsStd ++ blkRows b).filter (fun r => r.snap)).flatMap RegRow.offs

/-- A write of SNAPSHOT.TAKE (R97): the held copies, then SNAPSHOT_SEQ. -/
def State.takeSnapshot (s : State) (b : Blk) : State :=
  let s1 := (snapSet b).foldl (fun s o =>
    let (v, s1) := s.liveRead b o
    { s1 with rf.held := Tab.set (fun _ => (0 : Word)) s1.rf.held (regKey b o) v }) s
  { s1 with rf.snapSeq := Tab.set zero16 s1.rf.snapSeq b (Tab.get zero16 s1.rf.snapSeq b + 1) }

/-! ## Reads -/

def shadowKey (m b off : Nat) : Nat := m * 2 ^ 24 + regKey b off
def zeroWord : Nat → Word := fun _ => 0

/-- What a read of a live register returns, its parity checked (R87, R94, R101). -/
def State.regRead (s : State) (m b off : Nat) : Word × State :=
  match regRow b off with
  | none => (0, s)
  | some (r, _) =>
    let s := s.parityFound b off false
    match r.kind with
    | .lo | .rwlo =>
      let (v, s1) := s.liveRead b off
      let (h, s2) := s1.liveRead b (off + 4)
      (v, { s2 with rf.rdShadow := Tab.set zeroWord s2.rf.rdShadow (shadowKey m b off) h })
    | .hi | .rwhi => (Tab.get zeroWord s.rf.rdShadow (shadowKey m b (off - 4)), s)
    | _ => s.liveRead b off

/-! ## Writes -/

/-- Stores the RW fields of a write (R86). -/
def State.putReg (s : State) (b off : Nat) (mask v : Word) : State := s.setReg b off ((s.reg b off &&& ~~~mask) ||| (v &&& mask))

/-- The mailbox and word of an offset of a request area. -/
def reqPlace (off : Nat) : Option Nat := (item 0x1000 0x400 12 off).bind (fun e => if e.2 < 0x100 then some e.1 else none)

/-- The effect of a write of a register with RW fields. -/
def State.rwEffect (s : State) (b off : Nat) (mask v : Word) : State :=
  let plain := s.putReg b off mask v
  if off = 0xC then (if 48 ≤ b then s else plain.msixAgain b)
  else if off < 0x100 then plain
  else match b with
  | 2 =>
    (match place 0x180 4 16 off with
     | some k => s.baroThrWrite k v
     | none =>
       if off = 0x100 then
         -- a channel enabled now has not been sampled since (VALID of BARO_RESk)
         let new := v &&& ~~~(s.reg b 0x100)
         (List.range 16).foldl (fun (s : State) (k : Nat) =>
           if new.toNat.testBit k then s.setFld Blk.baro (0x140 + 4 * k) 15 1 0 else s) plain
       else plain)
  | 3 =>
    (match item 0x200 0x20 8 off with
     | some (k, o) => s.meterWrite k (o / 4) v
     | none =>
       match off with
       | 0x104 => s.cruPointWrite (fld v 0 2)
       | 0x108 => s.pixWrite false v
       | 0x10C => s.pixWrite true v
       | 0x160 => s.gateWrite 0 v
       | 0x164 => s.gateWrite 1 v
       | 0x168 => s.gateWrite 2 v
       | _ => plain)
  | 5 =>
    (match reqPlace off with
     | some k => if (s.mb k).st = .idle then plain else s
     | none =>
       if off = 0x100 then
         -- EN stays 1 (R296); the period runs from its rise
         let s1 := s.putReg b off mask (v ||| (s.reg b off &&& 0x80000000))
         if s1.wdogOn && !s.wdogOn then { s1 with fmn.wdogFrom := s.clk.now } else s1
       else plain)
  | 6 => if off = 0x128 ∧ fld v 8 1 = 1 then s.queueResetWrite (fld v 0 7) else plain
  | 8 => if off = 0x140 then plain.setReg b 0x14C (BitVec.ofNat 32 (scrubInterval (fld v 0 16))) else plain
  | 12 => (match place 0x1008 0x80 48 off with | some i => s.releaseWrite i (fld v 0 16) | none => plain)
  | 21 =>
    if off = 0x16C then s.flipWrite v
    else (match place 0x1008 0x40 8 off with | some e => s.egReturn e (fld v 0 16) | none => plain)
  | _ => plain

/-- The effect of a write of a register whose only writable fields are CMD. A pointer mismatch is met only in the queue
commands' own rows. -/
def State.cmdEffect (s : State) (m b off : Nat) (v : Word) : State :=
  if off = 0x18 then (if fld v 0 1 = 1 then s.takeSnapshot b else s)
  else match b with
  | 1 =>
    (match off with
     | 0x104 => s.powerRequest (fld v 0 3)
     | 0x144 => if fld v 0 1 = 1 then { s with aon.capDue := true } else s
     | 0x16C => if fld v 0 1 = 1 then s.calCommit else s
     | _ => s)
  | 3 =>
    (match place 0x110 4 7 off with
     | some d => s.clockSwitch d (fld v 0 4)
     | none => if off = 0x158 then s.domainResetWrite (fld v 0 3) else s)
  | 4 =>
    if off = 0x110 then (if fld v 0 1 = 1 then s.pushGo else s)
    else if off = 0x114 then s.blkResetWrite (fld v 0 8) else s
  | 5 =>
    if off = 0x104 then s.kick (fld v 0 8)
    else (match place 0x1200 0x400 12 off with
      | some k => if fld v 0 1 = 1 ∧ k ≠ 8 ∧ k ≠ 9 then s.ring k else s
      | none => s)
  | 6 =>
    (match item 0x1000 0x40 128 off with
     | some (q, 0x08) => s.pushWrite q m (fld v 0 5) (fld v 8 1 == 1) (fld v 9 1 == 1)
     | some (q, 0x0C) =>
       let arm := fld v 18 1 == 1
       (match fld v 16 2 with
        | 1 => s.popWrite q (fld v 0 13) arm false
        | 2 => s.dropWrite q arm false
        | 3 => if s.qEn q then s.armQueue q true else s
        | _ => s)
     | _ => s)
  | 8 => if off = 0x16C ∧ fld v 0 1 = 1 then { s with mem.injArmed := true } else s
  | 22 | 23 | 24 | 25 =>
    if off = 0x180 then s.txbRequest (b - 22) (BitVec.ofNat 8 v.toNat)
    else if off = 0x184 then s.txbAbort (b - 22) (BitVec.ofNat 8 v.toNat) else s
  | 27 => if off = 0x120 then s.qchCtl (fld v 0 2) else s
  | _ => s

/-- A write of the ACK field of source j (R91, R105, R263). -/
def State.ackEffect (s : State) (b j : Nat) (v : Count16) : State :=
  let s1 := if b = Blk.fmn ∧ 5 ≤ j then s.ackResponse (j - 5) v else s.setAck b j v
  s1.msixAgain b

/-- A write that leaves the register as written recomputes its parity (R100, R102). -/
def State.reparity (s : State) (b off : Nat) (mask v : Word) : State :=
  if s.reg b off &&& mask = v &&& mask then s.setParity b off 0 else s

/-- A write of the live register at `off` of block b by master m, past the checks of R83. -/
def State.regWrite (s : State) (m b off : Nat) (v : Word) : State :=
  match regRow b off with
  | none => s
  | some (r, i) =>
    match r.kind with
    | .ro | .lo | .hi | .evc _ => s
    | .ack j => (s.setParity b off 0).ackEffect b (j + i) (BitVec.ofNat 16 v.toNat)
    | .cmd => s.cmdEffect m b off v
    | .rwlo => { s with rf.wrShadow := Tab.set zeroWord s.rf.wrShadow (shadowKey m b off) v }
    | .rwhi =>
      -- the shadowed low half and the written high half, together (R95)
      let k := shadowKey m b (off - 4)
      let low := Tab.get zeroWord s.rf.wrShadow k
      let s1 := { s with rf.wrShadow := Tab.set zeroWord s.rf.wrShadow k 0 }
      ((((s1.putReg b (off - 4) 0xFFFFFFFF low).putReg b off r.wmask v).setParity b (off - 4) 0).setParity b off 0)
    | .rw => (s.rwEffect b off r.wmask v).reparity b off r.wmask v

/-! ## Accesses (R81, R83, R85, R98) -/

/-- Offset of the live register that an offset of a frame shows, in the live or the snapshot view. -/
def liveOff (off : Nat) : Nat := off % 0x8000

/-- Check 3 of R83 for a register of a frame, at its live or its held copy; an offset with no register, or with no held
copy, has no guard level. -/
def guardOf (b off : Nat) : Option Guard :=
  match regRow b (liveOff off) with
  | some (r, _) => if off < 0x8000 ∨ r.snap then some r.guard else none
  | none => none

/-- A register access: `w` is what a write carries, none for a read; a is the local address, in the register space. -/
def State.regAccess (s : State) (m : Nat) (cls : AccessClass) (a len : Nat) (w : Option Word) : Word × State :=
  let b := (a - 0x20000000) / 0x10000
  let off := a % 0x10000
  if len ≠ 4 ∨ a % 4 ≠ 0 then (0, s.sizeErr m w.isSome a)
  else if !isBlock b then (0, s)
  else if s.gated b then (0, s.gatedErr m w.isSome b)
  else match guardOf b off with
  | none => (0, s)
  | some g =>
    if !g.admits cls then (0, s.guardErr m w.isSome b off)
    else if 0x8000 ≤ off then
      (match w with
       | none => (Tab.get zeroWord s.rf.held (regKey b (liveOff off)), s)
       | some _ => (0, s))
    else match w with
    | none => s.regRead m b off
    | some v => (0, s.regWrite m b off v)

/-- The fabric carries accesses: FAB runs and no reset holds it. -/
def State.fabricRuns (s : State) : Bool :=
  s.aon.pwr != 0 && !(s.rst.porn || s.rst.warmn || s.aon.porHeld || s.baro.held)

/-- Where the bytes of a read go (the model's own). -/
def State.setReadData (s : State) (m : Nat) (l : List Byte) (poison : Bool) : State :=
  { s with bus.readData := Tab.set (fun _ => []) s.bus.readData m l, bus.readPoison := tset s.bus.readPoison m poison }

/-- A register access of four bytes at offset `off` of block b's frame. -/
def State.regAt (s : State) (m : Nat) (cls : AccessClass) (b off : Nat) (w : Option Word) : Word × State :=
  if s.fabricRuns then s.regAccess m (masterClass m cls) (0x20000000 + 0x10000 * b + off) 4 w else (0, s)

/-- REGISTER_WRITE (R83, R86). -/
def execRegisterWrite (m : MasterId) (cls : AccessClass) (b : Fin 256) (off : BitVec 16) (v : Word) (s : State) :
    Host.Outcome State Fault Refusal :=
  done s (s.regAt m.toNat cls b.val off.toNat (some v)).2

/-- Source j of a block has an ACK field. -/
def hasAck (b j : Nat) : Bool :=
  (regRowsStd ++ blkRows b).any (fun r =>
    match r.kind with | .ack k => decide (k ≤ j ∧ j < k + (if r.stride = 0 then 1 else r.count)) | _ => false)

/-- ACK_WRITE (R91, R105, R108): the ACK field of source j of block b. -/
def execAckWrite (b : Fin 96) (j : Fin 32) (v : Count16) (s : State) : Host.Outcome State Fault Refusal :=
  done s (if isBlock b.val && hasAck b.val j.val && !s.gated b.val then s.ackEffect b.val j.val v else s)

/-- INT_ENABLE_WRITE (R105, R106). -/
def execIntEnableWrite (b : Fin 96) (v : Word) (s : State) : Host.Outcome State Fault Refusal :=
  done s (if isBlock b.val && !s.gated b.val then s.regWrite Config.mForeman b.val 0xC v else s)

/-- LO_READ (R94, R96, R112): a read of the low register of the pair at `off`. -/
def execLoRead (m : MasterId) (cls : AccessClass) (b : Fin 256) (off : BitVec 15) (s : State) :
    Host.Outcome State Fault Refusal :=
  let (v, s1) := s.regAt m.toNat cls b.val off.toNat none
  done s (s1.setReadData m.toNat (leBytes 4 v.toNat) false)

/-- LO_WRITE (R95). -/
def execLoWrite (m : MasterId) (cls : AccessClass) (b : Fin 256) (off : BitVec 15) (v : Word) (s : State) :
    Host.Outcome State Fault Refusal :=
  done s (s.regAt m.toNat cls b.val off.toNat (some v)).2

/-- HI_WRITE (R95): `off` is the high register's. -/
def execHiWrite (m : MasterId) (cls : AccessClass) (b : Fin 256) (off : BitVec 15) (v : Word) (s : State) :
    Host.Outcome State Fault Refusal :=
  done s (s.regAt m.toNat cls b.val off.toNat (some v)).2

/-- SNAPSHOT_TAKE (R97, R110, R111). -/
def execSnapshotTake (b : Fin 96) (s : State) : Host.Outcome State Fault Refusal :=
  done s (if isBlock b.val && !s.gated b.val then s.takeSnapshot b.val else s)

/-! ## MSI-X (R49, R53, R54, R105) -/

def msixReset : Nat → MsixVec := fun _ => {}
def State.msixVec (s : State) (k : Nat) : MsixVec := Tab.get msixReset s.bus.msix k
def State.setMsixVec (s : State) (k : Nat) (x : MsixVec) : State := { s with bus.msix := Tab.set msixReset s.bus.msix k x }
/-- The function of a vector's key: PF0 below 64, PF1 from 64 on. -/
def msixFn (k : Nat) : Nat := if k < 64 then 0 else 1
/-- A vector can send: MSI-X is enabled and the vector is not masked. -/
def State.msixOpen (s : State) (k : Nat) : Bool :=
  tget s.bus.msixOn (msixFn k) && !(s.msixVec k).masked
/-- The link takes a message of the vector's function. -/
def State.msixLink (s : State) (k : Nat) : Bool :=
  s.bus.linkUp && tget s.bus.busMaster (msixFn k) && !s.frozen

/-- A message that is due is sent, or its pending bit is set while the vector is masked. -/
def State.sendMsix (s : State) (k : Nat) : State :=
  let x := s.msixVec k
  let due := tget s.rf.msixDue k || x.pbit
  if !due || !tget s.bus.msixOn (msixFn k) then s
  else if !s.msixOpen k then
    { s.setMsixVec k { x with pbit := true } with rf.msixDue := tset s.rf.msixDue k false }
  else if !s.msixLink k then s
  else
    { s.setMsixVec k { x with pbit := false } with
      rf.msixDue := tset s.rf.msixDue k false
      bus.msixSent := nset s.bus.msixSent k (nget s.bus.msixSent k + 1) }

/-- MSIX_MESSAGE (R105, R107): vector k of PF0, or 64 + v for vector v of PF1. -/
def execMsixMessage (k : Fin 96) (s : State) : Host.Outcome State Fault Refusal := done s (s.sendMsix k.val)

/-! ## Halted blocks (R116, R117, R1015, R1016, R1029) -/

/-- The block is marked halted, with the instant; the third halt within 10 s leaves it halted. -/
def State.markHalted (s : State) (b : Blk) : State :=
  let times := s.clk.now :: (Tab.get (fun _ => []) s.rf.haltTimes b).filter (fun t => s.clk.now < t + 10000 * tbMs)
  let left := decide (3 ≤ times.length)
  let bad := s.rf.parityBad.map (fun e => if e.1 / 0x10000 == b && e.2 % 4 == 2 then (e.1, e.2 + 1) else e)
  let s1 := { s with
    rf.parityBad := bad, rf.halted := tset s.rf.halted b true
    rf.haltTimes := Tab.set (fun _ => []) s.rf.haltTimes b (times.take 3)
    rf.leftHalted := tset s.rf.leftHalted b (left || tget s.rf.leftHalted b) }
  if left then s1.logRecord 3 4 b 0xFF (s.reg b 0x34).toNat 0 else s1

/-- What a halt does at once to the block's own work and outputs. -/
def State.haltEffects (s : State) (b : Blk) : State :=
  match b with
  | 9 =>
    -- every encode in progress ends its job with ABORTED
    (s.flx.encoders ++ s.flx.waiting).foldl (fun (s : State) (e : Encode) =>
      match (s.flask e.flask).running with
      | some r => (s.stopEvents e.flask).commitJob e.flask stAborted 0 0xFFF r.opsDone
      | none => s) s
  | 10 | 11 => if (s.port (b - 10)).st = .off ∨ (s.port (b - 10)).st = .down then s else s.portDown (b - 10) 5
  | 13 | 14 | 15 | 16 | 17 | 18 => s.engTokensLost (b - 13)
  | 21 => { s with disp.lanes := if s.disp.st = 0 then 0 else 1, disp.frameAt := none }
  | 22 | 23 | 24 | 25 =>
    let k := b - 22
    let s1 := match (s.fbc k).stopping with
      | some (m, _) => s.replyDone m
      | none => s
    if (s1.fbc k).st = .off then s1
    else
      let s2 := s1.fbcOff k
      s2.setFbc k { s2.fbc k with started := (s.fbc k).stopping.isNone }
  | _ => s

/-- BLOCK_HALT: the block halts on its CFG_PARITY cause and its dependent contexts are torn down. -/
def State.blockHalt (s : State) (b : Blk) : State :=
  if haltGroup b && s.rf.parityBad.any (fun e => e.1 / 0x10000 == b && e.2 % 4 == 2) && !s.frozen then
    let before := s.causes
    let deps := (List.range 32).filter (fun c => s.ctxOpen c && s.dependsOn c b)
    let s1 := (s.markHalted b).haltEffects b
    let s2 := deps.foldl (fun s c => s.teardownFree c) s1
    let s3 := { s2 with rf.haltCtxs := Tab.upd (fun _ => []) s2.rf.haltCtxs b (fun l => l ++ deps.filter (fun c => !l.contains c)) }
    s3.evalTrip before 0
  else s
def execBlockHalt (b : Fin 96) (s : State) : Host.Outcome State Fault Refusal := done s (s.blockHalt b.val)

/-- The firmware's copy of a block's RW registers: what was last written. -/
def State.healRegs (s : State) (b : Blk) : State :=
  s.rf.parityBad.foldl (fun (s : State) (e : Nat × Nat) =>
    let off := e.1 % 0x10000
    if e.1 / 0x10000 == b then
      match regRow b off with
      | some (r, _) =>
        (match r.kind with
         | .ack _ => s
         | _ => s.setReg b off (s.reg b off ^^^ BitVec.ofNat 32 (e.2 / 4)))
      | none => s
    else s) s

/-- DISP is reset and comes back with its timing sets, panel, owner and rings; its lanes stand at LP-11 and video
restarts with a frame start in the timing in force. -/
def State.dispRestart (s : State) : State :=
  let d := s.disp
  let live := (List.range 8).filter (fun e => (s.egress e).st != 0)
  let regs := s.copyRegs Blk.disp ((List.range 64).map (fun w => 0x200 + 4 * w) ++
    live.flatMap (fun e => (List.range 8).map (fun w => 0x1010 + 0x40 * e + 4 * w)))
  let qs := (blockQueues Blk.disp).map (fun q => (q, s.qcfg q, s.reg Blk.que (0x1004 + 0x40 * q)))
  let s1 := (s.blockReset Blk.disp).writeRegs Blk.disp regs
  let s2 := qs.foldl (fun s q => (s.setReg Blk.que (0x1000 + 0x40 * q.1) q.2.1).setReg Blk.que (0x1004 + 0x40 * q.1) q.2.2) s1
  { s2 with disp := { d with
      regions := [], order := [], frameAt := none, fcount := 0, line := 0, scan := .fill, underflowed := false
      lanes := if d.st = 0 then 0 else 1, egress := d.egress.map (fun e => (e.1, { st := e.2.st })) } }

/-- A field-bus controller is reset and configured again; one that was started integrates again (R1015 step 4). Its queues
stay with a surviving owner. -/
def State.fbcRestart (s : State) (k : Nat) : State :=
  let f := s.fbc k
  let regs := s.copyRegs (fbcBlk k) ((List.range 8).map (fun w => 0x200 + 4 * w))
  let qs := [64 + 2 * k, 65 + 2 * k].map (fun q => (q, s.qcfg q, s.reg Blk.que (0x1004 + 0x40 * q)))
  let s1 := s.blockReset (fbcBlk k)
  if f.configured then
    let s2 := s1.writeRegs (fbcBlk k) regs
    let s3 := if f.owned then
        qs.foldl (fun s q => (s.setReg Blk.que (0x1000 + 0x40 * q.1) q.2.1).setReg Blk.que (0x1004 + 0x40 * q.1) q.2.2) s2
      else s2
    s3.setFbc k { configured := true, owned := f.owned, filters := f.filters, st := if f.started then .integrating else .off }
  else s1

/-- Reset and configuration of a halted block from the firmware's copy (R1015 steps 3 and 4). -/
def State.reconfigure (s : State) (b : Blk) : State :=
  match b with
  | 10 | 11 =>
    let s1 := s.blockReset b
    if s.bus.chipId = 0 then s1 else s1.setPort (b - 10) { s1.port (b - 10) with listening := true }
  | 21 => s.dispRestart
  | 22 | 23 | 24 | 25 => s.fbcRestart (b - 22)
  | 31 =>
    let regs := s.copyRegs b [0x404, 0x408, 0x40C, 0x410]
    (s.blockReset b).writeRegs b regs
  | _ => s.blockRestart b

/-- BLOCK_RESUME (R1015): every context torn down for the block has reached FAULTED. -/
def execBlockResume (b : Fin 96) (s : State) : Host.Outcome State Fault Refusal :=
  let ctxs := Tab.get (fun _ => []) s.rf.haltCtxs b.val
  done s (if s.isHalted b.val && !s.leftHalted b.val && s.foremanRuns &&
      ctxs.all (fun c => (s.ctx c).st != .teardown) then
    let info := (s.reg b.val 0x34).toNat
    (((s.healRegs b.val).reconfigure b.val).bump Blk.rst 7).logRecord 3 3 b.val 0xFF info 0
  else s)

end Sys2Proof.Machine
end

