-- ==== Sys2Proof/Machine/Fabric.lean ====
section
/-! DEFINITION. Sys2Proof/Machine/Fabric.lean: accesses on the Runner fabric, the host's requests through the BARs, the
order in which writes, reads and doorbells take effect, and PF1's Function Level Reset (R38 to R78, R338). -/
namespace Sys2Proof.Machine
open Sys2Proof

/-! ## Posted writes (R55, R56, R65, R66, R68) -/

/-- Pieces of a write that lie in one aligned 8-byte word each. -/
def wordPieces (a : Nat) (l : List Byte) : Nat → List (Nat × List Byte)
  | 0 => []
  | fuel + 1 =>
    if l = [] then []
    else
      let n := 8 - a % 8
      (a, l.take n) :: wordPieces (a + n) (l.drop n) fuel
def pieces (a : Nat) (l : List Byte) : List (Nat × List Byte) := wordPieces a l (l.length / 8 + 2)

/-- A piece becomes visible to every master at once. -/
def State.makeVisible (s : State) (p : Posted) : State :=
  if s.unpowered p.addr then s
  else
    let (bad, s1) := s.demandWrite p.master p.addr p.bytes
    if bad then s1.fabErr 3 p.master p.cls 0 true (s1.fullAddr p.addr) else s1

/-- The posted pieces of which `f` holds become visible, oldest first. -/
def State.settle (s : State) (f : Posted → Bool) : State :=
  let go := s.bus.posted.filter f
  go.foldl (fun s p => s.makeVisible p) { s with bus.posted := s.bus.posted.filter (fun p => !f p) }

/-- Every earlier posted write of a master becomes visible. -/
def State.settleMaster (s : State) (m : Nat) : State := s.settle (fun p => p.master == m)
/-- A master's own earlier writes to the words that its access touches become visible (R55). -/
def State.settleOwn (s : State) (m a len : Nat) : State :=
  s.settle (fun p => p.master == m && decide (a / 8 ≤ p.addr / 8 ∧ p.addr / 8 ≤ (a + len - 1) / 8))

/-- One posted piece becomes visible: the oldest of its master to its word. Which one is a free choice. -/
def State.settleOne (s : State) : State :=
  if s.bus.posted = [] then s
  else
    let (i, s1) := s.takeFree 32
    let l := s1.bus.posted
    match l[i % l.length]? with
    | none => s1
    | some p =>
      match l.find? (fun q => q.master == p.master && q.addr / 8 == p.addr / 8) with
      | none => s1
      | some q => { s1 with bus.posted := l.erase q }.makeVisible q

/-! ## Regulators (R503 to R506) -/

/-- The regulator that charges a master's accesses. -/
def State.regulatorOf (s : State) (m : Nat) : Option Nat :=
  if m < 0x30 then s.flaskOf m
  else if 0x36 ≤ m ∧ m ≤ 0x3F then some 8
  else if m = 0x32 ∨ m = 0x33 ∨ m = 0x42 then some 9
  else none
/-- The bucket that an access is charged to: none for a crucible's path to its own hearth, and for what is no memory. -/
def State.bucketOf (s : State) (m a : Nat) (write : Bool) : Option Nat :=
  if chipOf a ≠ s.bus.chipId then some 2
  else if inHearth (localOf a) ∧ m < 0x30 ∧ hearthOf (localOf a) = m then none
  else if inIngot (localOf a) ∨ inHearth (localOf a) then some (if write then 1 else 0)
  else none

/-- An access of len bytes is charged to bucket k of regulator r: granted while LEVEL > 0, else the bucket holds it
back. -/
def State.charge (s : State) (r k len : Nat) : Bool × State :=
  let o := 0x6000 + 0x40 * r + 0x10 * k
  let key := 4 * r + k
  if fld (s.reg Blk.sch o) 31 1 = 0 then (true, s)
  else if nget s.sch.used key < fld (s.reg Blk.sch (o + 4)) 0 20 * 256 then
    (true, { s with sch.used := nset s.sch.used key (nget s.sch.used key + cdiv len 32 * 32 * 256)
                    sch.held := tset s.sch.held key false })
  else (false, { s with sch.held := tset s.sch.held key true })
/-- Whether an access is granted, and the state with what it was charged. -/
def State.grant (s : State) (m a len : Nat) (write : Bool) : Bool × State :=
  match s.regulatorOf m, s.bucketOf m a write with
  | some r, some k => s.charge r k len
  | _, _ => (true, s)

/-- A FAB cycle's refill of one bucket, times n cycles. -/
def State.refill (s : State) (r k n : Nat) : State :=
  let o := 0x6000 + 0x40 * r + 0x10 * k
  let key := 4 * r + k
  let left := nget s.sch.used key - n * fld (s.reg Blk.sch o) 0 20
  let s1 := { s with sch.used := nset s.sch.used key left }
  if left < fld (s.reg Blk.sch (o + 4)) 0 20 * 256 then { s1 with sch.held := tset s1.sch.held key false } else s1
/-- FAB cycles in a TB tick of 10 ns: 1.0 GHz, 200 MHz in Breeze (R506). -/
def State.fabPerTick (s : State) : Nat := if s.aon.pwr = 1 then 2 else 10
/-- The refill of every bucket in n FAB cycles. -/
def State.refillAll (s : State) (n : Nat) : State :=
  (List.range 10).foldl (fun s r => (List.range 3).foldl (fun s k => s.refill r k n) s) s

/-! ## Doorbells and register accesses in program order (R55, R58, R59, R69) -/

/-- PUSH and POP of a queue. -/
def isDoorbell (a : Nat) : Bool :=
  a / 0x10000 * 0x10000 == 0x20060000 &&
  (match item 0x1000 0x40 128 (a % 0x10000) with | some (_, o) => o == 8 || o == 0xC | none => false)

/-- A doorbell, or a register write that waited behind one, takes effect. PF1's doorbells come through their page. -/
def State.doorbellEffect (s : State) (d : Doorbell) : State :=
  if d.master = Config.mPf1 then
    if s.gated Blk.que then s.gatedErr d.master true Blk.que else s.cmdEffect d.master Blk.que (d.addr % 0x10000) d.value
  else (s.regAccess d.master d.cls d.addr 4 (some d.value)).2

/-- A write of the master to a peer has not been acknowledged or reported lost. -/
def State.awaitsAck (s : State) (m : Nat) : Bool := s.anyInflight (fun i => i.master == m && i.write && i.flask.isNone)

/-- The doorbells of a master take effect, after its earlier writes, unless one of these is still to be acknowledged by a
peer; then the register reads that waited behind them. -/
def State.doorbellsDone (s : State) (m : Nat) : State :=
  if s.awaitsAck m then s
  else
    let mine := s.bus.doorbells.filter (fun d => d.master == m)
    let rd := s.bus.reads.filter (fun r => r.master == m && r.bar == none)
    let s1 := { s.settleMaster m with
      bus.doorbells := s.bus.doorbells.filter (fun d => d.master != m)
      bus.reads := s.bus.reads.filter (fun r => !(r.master == m && r.bar == none)) }
    let s2 := mine.foldl (fun s d => s.doorbellEffect d) s1
    rd.foldl (fun s r =>
      let (v, s1) := s.regAccess m r.cls r.addr r.len none
      s1.setReadData m (leBytes r.len v.toNat) false) s2

/-- ORDERED_DOORBELL_EFFECT (R58, R59, R69). -/
def execOrderedDoorbellEffect (m : MasterId) (s : State) : Host.Outcome State Fault Refusal :=
  done s (if s.frozen || !s.bus.doorbells.any (fun d => d.master == m.toNat) then s else s.doorbellsDone m.toNat)

/-- A master has a doorbell, or something behind one, that waits. -/
def State.doorbellWaits (s : State) (m : Nat) : Bool := s.bus.doorbells.any (fun d => d.master == m)

/-- A register access of a master in its program order: doorbells that wait go first, and where they cannot yet, the
access waits behind them. -/
def State.regInOrder (s : State) (m : Nat) (cls : AccessClass) (a len : Nat) (w : Option Word) (ordered : Bool) : State :=
  let s1 := if s.doorbellWaits m then s.doorbellsDone m else s
  let wait := s1.doorbellWaits m || (ordered && isDoorbell a && len == 4)
  match w with
  | some v =>
    if wait && len == 4 && a % 4 == 0 then
      { s1 with bus.doorbells := s1.bus.doorbells ++ [{ master := m, cls := cls, addr := a, value := v }] }
    else (s1.regAccess m cls a len w).2
  | none =>
    if s1.doorbellWaits m then
      { s1 with bus.reads := s1.bus.reads ++ [{ master := m, cls := cls, bar := none, addr := a, len := len }] }
    else
      let (v, s2) := s1.regAccess m cls a len none
      s2.setReadData m (leBytes len v.toNat) false

/-! ## FABRIC_ACCESS (R38 to R48, R55, R72, R73) -/

/-- What an access to local memory meets beside the fabric's own reaction: the job of a crucible ends (R70, R660), the
Foreman's TCM is as R660 and R667 say. -/
def State.accessEnds (s : State) (m a : Nat) (flask : Option Nat) (acc : Access) : State :=
  match acc, flask with
  | .rights, some f => s.jobFault f stWindow 0 0xFFF (match (s.flask f).running with | some r => r.opsDone | none => 0)
  | .poison, some f => s.jobFault f stEcc 0 0xFFF (match (s.flask f).running with | some r => r.opsDone | none => 0)
  | .poison, none =>
    if m = Config.mForeman ∧ inTcm a then
      let o := a - tcmBase
      let cfgB := fld (s.reg Blk.mem 0x154) 12 8 * 4096
      let cfgL := fld (s.reg Blk.mem 0x158) 12 8 * 4096
      if cfgB ≤ o ∧ o < cfgB + cfgL then s.graveFault 7 Blk.mem a
      else if o < s.tcmRoEnd then s.classDFault (if s.rst.image.slot < 2 then 7 else 6)
      else s.classDFault 5
    else s
  | _, _ => s

/-- The context of a crucible's access. -/
def State.accessCtx (s : State) (flask : Option Nat) : Nat :=
  match flask with
  | some f => (match (s.flask f).running with | some r => if r.job.ctx < 32 then r.job.ctx else 0 | none => 0)
  | none => 0

/-- A write to local memory that passes its checks is posted; it becomes visible later (R55). -/
def State.localWrite (s : State) (m : Nat) (cls : AccessClass) (flask : Option Nat) (a : Nat) (l : List Byte) : State :=
  match s.memCheck m cls true a l.length with
  | some k =>
    (s.fabErr k m cls (s.accessCtx flask) true (s.fullAddr a)).accessEnds m a flask (if k = 0 then .decode else .rights)
  | none =>
    { s with bus.posted := s.bus.posted ++ (pieces a l).map (fun e => { master := m, cls := cls, addr := e.1, bytes := e.2 }) }

/-- A read of local memory returns the master's own latest earlier write to each word, or a later one (R55). -/
def State.localRead (s : State) (m : Nat) (cls : AccessClass) (flask : Option Nat) (a len : Nat) : State :=
  let (d, acc, s1) := (s.settleOwn m a len).readMem m cls (s.accessCtx flask) a len
  (s1.setReadData m d (acc == .poison)).accessEnds m a flask acc

/-- The bytes and the length that an access carries. -/
def opBytes : FabricOp → List Byte
  | .read _ => []
  | .write d => d
def opLen : FabricOp → Nat
  | .read n => n
  | .write d => d.length
def opIsWrite : FabricOp → Bool
  | .read _ => false
  | .write _ => true

/-- An access that the fabric refuses with a decode error: a read returns zero. -/
def State.decodeErr (s : State) (m : Nat) (cls : AccessClass) (ctx a : Nat) (x : FabricOp) : State :=
  let s1 := s.fabErr 0 m cls ctx (opIsWrite x) a
  if (opIsWrite x) then s1 else s1.setReadData m (List.replicate (opLen x) 0) false

/-- The port that a lost chip's accesses would prefer (R733). -/
def State.preferredPort (s : State) (d a : Nat) : Nat :=
  let f := s.hops d
  match s.chips with
  | 2 => if a.testBit 12 then 1 else 0
  | 4 => if f = 3 then 1 else 0
  | _ => if f = 1 then 0 else 1

/-- A remote access (R42, R47, R724, R736): to a chip absent from the system a decode error; over a Sprue port; to a lost
chip as R736 says. -/
def State.remoteAccess (s : State) (m : Nat) (cls : AccessClass) (flask : Option Nat) (a : Nat) (ordered : Bool)
    (x : FabricOp) : State :=
  let d := chipOf a
  if s.chips ≤ d then s.decodeErr m cls (s.accessCtx flask) a x
  else match s.route d a with
  | none =>
    (match flask with
     | some f => s.jobFault f stPeer 0 0xFFF (match (s.flask f).running with | some r => r.opsDone | none => 0)
     | none => (s.decodeErr m cls 0 a x).bump (Blk.spr0 + s.preferredPort d a) 7)
  | some _ =>
    let s1 := if (opIsWrite x) then s else s.setReadData m (List.replicate (opLen x) 0) false
    s1.issueRemote m cls flask (opIsWrite x) ordered a (opLen x) (opBytes x)

/-- An access past the window check and the regulator. -/
def State.routeAccess (s : State) (m : Nat) (cls : AccessClass) (flask : Option Nat) (a : Nat) (ordered : Bool)
    (x : FabricOp) : State :=
  let l := localOf a
  if chipOf a ≠ s.bus.chipId then s.remoteAccess m cls flask a ordered x
  else if inRegs l then
    s.regInOrder m cls l (opLen x) (if (opIsWrite x) then some (BitVec.ofNat 32 (leNat (opBytes x))) else none) ordered
  else match x with
  | .read n => s.localRead m cls flask l n
  | .write d => s.localWrite m cls flask l d

/-- A master's access. A crucible reaches the fabric only for the job that runs on its flask, and only inside that job's
windows (R41, R70). An access that its regulator holds back has no effect yet: its master makes it again. -/
def State.fabricAccess (s : State) (m : Nat) (carried : AccessClass) (a : Nat) (ordered : Bool) (x : FabricOp) : State :=
  let cls := masterClass m carried
  if !s.fabricRuns || 0x44 ≤ m || (opLen x) = 0 then s
  else
    let (ok, s1) := s.grant m a (opLen x) (opIsWrite x)
    if m < 0x30 then
      match s.flaskOf m with
      | none => s
      | some f =>
        match (s.flask f).running with
        | none => s
        | some r =>
          if !s.jobAllows r.job a (opLen x) (opIsWrite x) then s.winViol f m a (opIsWrite x) r.opsDone
          else if ok then s1.routeAccess m cls (some f) a ordered x else s1
    else if ok then s1.routeAccess m cls none a ordered x else s1

/-- FABRIC_ACCESS: `carried` is the class that a peer's access carries (R40). -/
def execFabricAccess (m : MasterId) (carried : AccessClass) (addr : BitVec 40) (ordered : Bool) (x : FabricOp) (s : State) :
    Host.Outcome State Fault Refusal :=
  done s (s.fabricAccess m.toNat carried addr.toNat ordered x)

/-! ## Doorbell pages of PF1 (R52, R258, R338) -/

/-- The PF1 mailbox bound to a context. -/
def State.boundMailbox (s : State) (c : Nat) : Option Nat :=
  [4, 5, 6, 7].find? (fun m => (s.mb m).bound == some c)

/-- A word that a read of page c returns at offset o, a multiple of 4 (R338). -/
def State.pageRead (s : State) (c o : Nat) : Word × Bool × State :=
  let q := 2 * c
  let r := q + 1
  if o < 0x400 then
    if s.qEn q then
      let (d, acc, s1) := (s.settleOwn Config.mPf1 (s.qLanding q + o) 4).readMem Config.mPf1 .ordinary 0 (s.qLanding q + o) 4
      (BitVec.ofNat 32 (leNat d), acc == .poison, s1)
    else (0, false, s)
  else if o = 0x404 then (s.levelWord q, false, s)
  else if o = 0x408 then (s.epochWord q, false, s)
  else if 0x600 ≤ o ∧ o < 0x640 then
    if s.qEn r && (s.queue r).occ != 0 then
      let (d, p, s1) := s.demandRead Config.mQue (s.qSlot r (s.queue r).head + (o - 0x600)) 4
      (BitVec.ofNat 32 (leNat d), p, if p then s1.fabErr 3 Config.mQue .ordinary c false (s1.fullAddr (s.qSlot r (s.queue r).head)) else s1)
    else (0, false, s)
  else if o = 0x644 then (s.levelWord r, false, s)
  else if o = 0x648 then (s.flagsWord r, false, s)
  else if o = 0x64C then (s.epochWord r, false, s)
  else if 0x800 ≤ o ∧ o < 0xA10 then
    (match s.boundMailbox c with
     | some k =>
       let (v, s1) := s.regRead Config.mPf1 Blk.fmn (mbBase k + (o - 0x800))
       (v, false, s1)
     | none => (0, false, s))
  else (0, false, s)

/-- A write of a word at offset o of page c (R338). PUSH and POP carry the ordered-write attribute (R59). -/
def State.pageWrite (s : State) (c o : Nat) (v : Word) : State :=
  let q := 2 * c
  let bell := fun (n off : Nat) =>
    { s with bus.doorbells := s.bus.doorbells ++
        [{ master := Config.mPf1, cls := .ordinary, addr := 0x20060000 + 0x1000 + 0x40 * n + off, value := v }] }
  if o < 0x400 then
    if s.qEn q then s.localWrite Config.mPf1 .ordinary none (s.qLanding q + o) (leBytes 4 v.toNat) else s
  else if o = 0x400 then bell q 8
  else if o = 0x640 then bell (q + 1) 0xC
  else if 0x800 ≤ o ∧ o < 0xA10 then
    (match s.boundMailbox c with
     | some k => (if s.doorbellWaits Config.mPf1 then s.doorbellsDone Config.mPf1 else s).regWrite Config.mPf1 Blk.fmn
         (mbBase k + (o - 0x800)) v
     | none => s)
  else s

/-- A failing size check of a page: the spec gives CHIP_SIZE_ERR_INFO no address for it. -/
def State.pageSizeErr (s : State) (write : Bool) : State :=
  let (a, s1) := s.takeFree 23
  s1.sizeErr Config.mPf1 write a
/-- An access to the page of a context that is not PF1's (R52). -/
def State.pageMiss (s : State) : State := s.bump Blk.pcie 4

/-! ## MSI-X tables (R49, R50) -/

/-- The bytes of a function's table and pending-bit array at an offset of its BAR. -/
def State.msixByte (s : State) (pf1 : Bool) (o : Nat) : Byte :=
  let n := if pf1 then 32 else 64
  let k0 := if pf1 then 64 else 0
  if o < 16 * n then
    let x := s.msixVec (k0 + o / 16)
    ((leBytes 8 x.addr.toNat ++ leBytes 4 x.data.toNat ++ leBytes 4 (b2n x.masked))[o % 16]?).getD 0
  else if 0x2000 ≤ o ∧ o < 0x2000 + n / 8 then
    BitVec.ofNat 8 (mkBits 8 (fun i => (s.msixVec (k0 + 8 * (o - 0x2000) + i)).pbit))
  else 0
/-- A byte written to the table; the pending-bit array is read only. -/
def State.msixPut (s : State) (pf1 : Bool) (o : Nat) (b : Byte) : State :=
  let n := if pf1 then 32 else 64
  if o < 16 * n then
    let k := (if pf1 then 64 else 0) + o / 16
    let x := s.msixVec k
    let i := o % 16
    let upd := fun (v : Nat) (j : Nat) => v - v / 256 ^ j % 256 * 256 ^ j + b.toNat * 256 ^ j
    if i < 8 then s.setMsixVec k { x with addr := BitVec.ofNat 64 (upd x.addr.toNat i) }
    else if i < 12 then s.setMsixVec k { x with data := BitVec.ofNat 32 (upd x.data.toNat (i - 8)) }
    else if i = 12 then s.setMsixVec k { x with masked := b.toNat.testBit 0 }
    else s
  else s

/-! ## BAR_ACCESS and NONPOSTED_READ_COMPLETE (R49 to R53, R58 to R60, R71, R84) -/

def barPf1 : Bar → Bool
  | .pf0Regs | .pf0Ingots | .pf0Msix => false
  | .pf1Pages | .pf1Msix => true
def barSize : Bar → Nat
  | .pf0Regs => 0x1000000
  | .pf0Ingots => 0x4000000
  | .pf0Msix => 0x4000
  | .pf1Pages => 0x20000
  | .pf1Msix => 0x4000
def barMaster (b : Bar) : Nat := if (barPf1 b) then Config.mPf1 else Config.mPf0

/-- A read through a BAR takes effect. -/
def State.barRead (s : State) (bar : Bar) (o len : Nat) : State :=
  let m := barMaster bar
  match bar with
  | .pf0Regs =>
    let (v, s1) := s.regAccess m .privileged (0x20000000 + o) len none
    s1.setReadData m (leBytes len v.toNat) false
  | .pf0Ingots => s.localRead m .privileged none o len
  | .pf0Msix | .pf1Msix => s.setReadData m ((List.range len).map (fun i => s.msixByte (barPf1 bar) (o + i))) false
  | .pf1Pages =>
    if !tget s.bus.pf1Ctx (o / 0x1000) then (s.pageMiss).setReadData m (List.replicate len 0) false
    else if len ≠ 4 ∨ o % 4 ≠ 0 then (s.pageSizeErr false).setReadData m (List.replicate len 0) false
    else
      let (v, p, s1) := s.pageRead (o / 0x1000) (o % 0x1000)
      s1.setReadData m (leBytes 4 v.toNat) p

/-- Every waiting read of a function completes, after every earlier posted write and doorbell of the function. -/
def State.completeReads (s : State) (m : Nat) : State :=
  let rd := s.bus.reads.filter (fun r => r.master == m)
  if rd = [] then s
  else
    let s1 := (s.settleMaster m).doorbellsDone m
    let s2 := { s1 with bus.reads := s1.bus.reads.filter (fun r => r.master != m) }
    rd.foldl (fun s r => match r.bar with | some b => s.barRead b r.addr r.len | none => s) s2

/-- NONPOSTED_READ_COMPLETE (R58, R71): of PF0, or of PF1. -/
def execNonpostedReadComplete (pf1 : Bool) (s : State) : Host.Outcome State Fault Refusal :=
  done s (if s.fabricRuns then s.completeReads (if pf1 then Config.mPf1 else Config.mPf0) else s)

/-- Runs of enabled bytes of a write, with their offsets. -/
def enabledRuns (o : Nat) : List (Option Byte) → List (Nat × List Byte)
  | [] => []
  | none :: t => enabledRuns (o + 1) t
  | some b :: t =>
    match enabledRuns (o + 1) t with
    | (a, l) :: r => if a = o + 1 then (o, b :: l) :: r else (o, [b]) :: (a, l) :: r
    | [] => [(o, [b])]

/-- The word of a write of one doubleword with every byte enabled; none otherwise. -/
def fullWord (d : List (Option Byte)) : Option Word :=
  if d.length = 4 ∧ d.all (fun b => b.isSome) then some (BitVec.ofNat 32 (leNat (d.filterMap id))) else none

/-- A write through a BAR. -/
def State.barWrite (s : State) (bar : Bar) (o : Nat) (d : List (Option Byte)) : State :=
  let m := barMaster bar
  match bar with
  | .pf0Regs =>
    (match fullWord d with
     | some v => s.regInOrder m .privileged (0x20000000 + o) 4 (some v) true
     | none => s.sizeErr m true (0x20000000 + o))
  | .pf0Ingots => (enabledRuns o d).foldl (fun s e => s.localWrite m .privileged none e.1 e.2) s
  | .pf0Msix | .pf1Msix =>
    (enabledRuns o d).foldl (fun s e => e.2.zipIdx.foldl (fun s b => s.msixPut (barPf1 bar) (e.1 + b.2) b.1) s) s
  | .pf1Pages =>
    if !tget s.bus.pf1Ctx (o / 0x1000) then s.pageMiss
    else match fullWord d with
    | some v => if o % 4 = 0 then s.pageWrite (o / 0x1000) (o % 0x1000) v else s.pageSizeErr true
    | none => s.pageSizeErr true

/-- The host reaches a BAR of a function: the link is up and the BARs are assigned (R76). -/
def State.barOpen (s : State) (bar : Bar) : Bool :=
  s.fabricRuns && s.bus.linkUp && !s.rst.perst && tget s.bus.barsAssigned (b2n (barPf1 bar))

/-- A host request through a BAR. A read waits for NONPOSTED_READ_COMPLETE; the function's next request finds it
complete. A request to ingots that regulator 9 holds back has no effect yet. -/
def State.barAccess (s : State) (bar : Bar) (o : Nat) (x : BarOp) : State :=
  let m := barMaster bar
  let len := match x with | .read n => n | .write d => d.length
  let write := match x with | .read _ => false | .write _ => true
  if !s.barOpen bar || len = 0 || (barSize bar) < o + len then s
  else
    let s0 := s.completeReads m
    let (ok, s1) := match bar with
      | .pf0Ingots => s0.grant m (s0.fullAddr o) len write
      | _ => (true, s0)
    if !ok then s1
    else match x with
    | .read n =>
      { s1 with bus.reads := s1.bus.reads ++ [{ master := m, cls := masterClass m .ordinary, bar := some bar, addr := o, len := n }] }
    | .write d => s1.barWrite bar o d

/-- BAR_ACCESS. -/
def execBarAccess (bar : Bar) (off : BitVec 26) (x : BarOp) (s : State) : Host.Outcome State Fault Refusal :=
  done s (s.barAccess bar off.toNat x)

/-! ## POISONED_INBOUND_WRITE (R72, R74) -/

/-- The 40-bit address that a BAR's offset reaches; the spec gives none for the tables and the doorbell pages. -/
def State.barAddr (s : State) (bar : Bar) (o : Nat) : Nat × State :=
  match bar with
  | .pf0Regs => (s.fullAddr (0x20000000 + o), s)
  | .pf0Ingots => (s.fullAddr o, s)
  | _ => s.takeFree 40

/-- POISONED_INBOUND_WRITE: the write is discarded, reported through AER and counted. -/
def execPoisonedInboundWrite (bar : Bar) (off : BitVec 26) (s : State) : Host.Outcome State Fault Refusal :=
  done s (if s.barOpen bar && off.toNat < (barSize bar) then
      let m := barMaster bar
      let (a, s1) := s.barAddr bar off.toNat
      let s2 := (s1.fabErr 4 m (masterClass m .ordinary) 0 true a).bump Blk.pcie 3
      { s2 with bus.aerUncorr := tset s2.bus.aerUncorr 0 true }
    else s)

/-! ## FUNCTION_LEVEL_RESET (R54, R275, R304) -/

/-- A mailbox loses its binding; a command in it runs to its end and its response is discarded. -/
def State.unbind (s : State) (m : Nat) : State :=
  let x := s.mb m
  let busy := x.st == .working || x.st == .posted
  s.setMb m { x with
    bound := none, discard := (x.discard || busy) && x.bound.isSome || x.discard
    st := if x.st == .responded && x.bound.isSome then .idle else x.st }

/-- FUNCTION_LEVEL_RESET of PF1. -/
def execFunctionLevelReset (s : State) : Host.Outcome State Fault Refusal :=
  let ctxs := (List.range 32).filter (fun c => tget s.bus.pf1Ctx c)
  let s1 := ctxs.foldl (fun s c => s.teardownFree c) s
  let s2 := [4, 5, 6, 7].foldl (fun s m => s.unbind m) s1
  done s { s2 with
    bus.pf1Ctx := []
    bus.msix := Tab.clear (fun k => decide (64 ≤ k)) s2.bus.msix
    bus.barsAssigned := tset s2.bus.barsAssigned 1 false
    bus.busMaster := tset s2.bus.busMaster 1 false
    bus.msixOn := tset s2.bus.msixOn 1 false
    bus.reads := s2.bus.reads.filter (fun r => r.master != Config.mPf1) }

end Sys2Proof.Machine
end

