-- ==== Sys2Proof/Machine/Jtag.lean ====
section
/-! DEFINITION. Sys2Proof/Machine/Jtag.lean: the test access port (R1036, R1037, R1072 to R1079). A command is one
scan: the instruction is selected, its data register is captured, shifted and updated. -/
namespace Sys2Proof.Machine
open Sys2Proof

/-- Selects an instruction, with what Capture-DR loads; any but EXTEST releases the balls. -/
def State.tapSelect (s : State) (ir dr : Nat) : State := { s with jtag := { s.jtag with ir := ir, dr := dr, drives := false } }

/-- BYPASS: a register of one bit that captures 0. An unlisted code, or an instruction that is not honoured, selects
it. -/
def State.tapBypass (s : State) : State := s.tapSelect 1 0

/-- IDCODE (R1072). -/
def execIdcode (s : State) : Host.Outcome State Fault Refusal := done s (s.tapSelect 0 0x10960573)
/-- BYPASS (R1036, R1072). -/
def execBypass (s : State) : Host.Outcome State Fault Refusal := done s s.tapBypass

/-- What cell i of the boundary register captures (R1073), given the levels at the balls: an input cell its ball's level,
the output and enable cells of QP and QN and of the GPIOs what the part drives; the others are free. -/
def State.captureCell (s : State) (levels : BitVec 78) (i : Nat) : Bool × State :=
  let ball := i / 3
  let drive := fun (v : Option Bool) => if i % 3 = 1 then v.getD false else v.isSome
  let own : Option (Option Bool) :=
    if ball = 15 then some (some s.qp) else if ball = 16 then some (some s.qn)
    else if 54 ≤ ball then some (s.gpioDrive (ball - 54)) else none
  match own with
  | some v => (if i % 3 = 0 then v.getD (levels.toNat.testBit ball) else drive v, s)
  | none => if i % 3 = 0 then (levels.toNat.testBit ball, s) else s.takeBool
/-- What the boundary register captures, cells 0 to n − 1. -/
def State.captureCells (s : State) (levels : BitVec 78) : Nat → Nat × State
  | 0 => (0, s)
  | n + 1 =>
    let (v, s1) := State.captureCells s levels n
    let (b, s2) := s1.captureCell levels n
    (v + (if b then 2 ^ n else 0), s2)

/-- A scan of the boundary register: captured, then loaded with what is shifted in. -/
def State.boundaryScan (s : State) (ir : Nat) (levels : BitVec 78) (shift : BitVec 234) : State :=
  let (v, s1) := s.captureCells levels 234
  let s2 := s1.tapSelect ir v
  { s2 with jtag.boundary := shift }

/-- SAMPLE_PRELOAD (R1073): honoured in every debug state. -/
def execSamplePreload (levels : BitVec 78) (shift : BitVec 234) (s : State) : Host.Outcome State Fault Refusal :=
  done s (s.boundaryScan 2 levels shift)

/-- EXTEST (R1036, R1073, R1079): honoured in the open state alone; the cells drive the balls, those of QP and QN
apart. -/
def execExtest (levels : BitVec 78) (shift : BitVec 234) (s : State) : Host.Outcome State Fault Refusal :=
  done s (if s.sec.debug = 2 then
      let s1 := s.boundaryScan 3 levels shift
      { s1 with jtag.drives := true }
    else s.tapBypass)

/-- MBOX (R1036, R1074, R1078): the result of the access before is captured, then the word of MB10 is read or written. -/
def execMbox (op : Fin 4) (word : Byte) (data : Word) (s : State) : Host.Outcome State Fault Refusal :=
  done s (if s.sec.debug = 0 then s.tapBypass
    else
      let s1 := s.tapSelect 4 s.jtag.mboxOut
      let off := mbBase 10 + 4 * word.toNat
      if 132 ≤ word.toNat || !s.fabricRuns then { s1 with jtag.mboxOut := 0 }
      else if op = 1 then
        let (v, s2) := s1.regRead Config.mForeman Blk.fmn off
        { s2 with jtag.mboxOut := 3 * 2 ^ 40 + word.toNat * 2 ^ 32 + v.toNat }
      else if op = 2 then { s1.regWrite Config.mForeman Blk.fmn off data with jtag.mboxOut := 0 }
      else { s1 with jtag.mboxOut := 0 })

/-- Whether OTP_PROG admits a write of a field (R1037): 1 DBG_KEY_HASH, 2 KP, 3 LIFECYCLE. -/
def State.otpAdmits (s : State) (field value : Nat) : Bool :=
  match field with
  | 1 => s.sec.debug == 2 && s.sec.lifecycle == 0 && s.sec.otp.dbgKeyHash.isNone
  | 2 => s.sec.debug == 2 && s.sec.lifecycle == 0 && s.sec.otp.kp.isNone
  | 3 =>
    let goal := value % 4
    (s.sec.otp.lifecycle == 0 && goal == 1 && s.sec.otp.kp.isSome) ||
      (s.sec.otp.lifecycle == 1 && goal == 2 && s.sec.debug == 1)
  | _ => false

/-- The field is written. -/
def State.otpWrite (s : State) (field value : Nat) : State :=
  match field with
  | 1 => { s with sec.otp.dbgKeyHash := some value }
  | 2 => { s with sec.otp.kp := some (value % 2 ^ 256) }
  | _ => { s with sec.otp.lifecycle := value % 4 }

/-- OTP_PROG (R1036, R1037, R1051, R1075, R1079). `ends` tells that the programming is not interrupted: one that is
leaves a LIFECYCLE bit read as set or as clear, and no other field changed. -/
def execOtpProg (field : Byte) (value : BitVec 384) (ends : Bool) (s : State) : Host.Outcome State Fault Refusal :=
  done s (if s.sec.debug = 0 then s.tapBypass
    else
      let s1 := s.tapSelect 5 s.jtag.otpResult
      if !s.otpAdmits field.toNat value.toNat then { s1 with jtag.otpResult := 3 }
      else if ends then { s1.otpWrite field.toNat value.toNat with jtag.otpResult := 2 }
      else
        let (b, s2) := s1.takeBool
        let s3 := if field = 3 ∧ b then s2.otpWrite 3 value.toNat else s2
        { s3 with jtag := {} })

end Sys2Proof.Machine
end

