-- ==== Sys2Proof/Machine/Dispatch.lean ====
section
/-! DEFINITION. Sys2Proof/Machine/Dispatch.lean: one arm per command, each a direct call of its meaning. -/
namespace Sys2Proof.Machine

def exec (i : Instr) (s : State) : Host.Outcome State Fault Refusal :=
  match i with
  | .fabricAccess m carried addr ordered x => Sys2Proof.Machine.execFabricAccess m carried addr ordered x s
  | .poisonedInboundWrite bar off => Sys2Proof.Machine.execPoisonedInboundWrite bar off s
  | .barAccess bar off x => Sys2Proof.Machine.execBarAccess bar off x s
  | .nonpostedReadComplete pf1 => Sys2Proof.Machine.execNonpostedReadComplete pf1 s
  | .orderedDoorbellEffect m => Sys2Proof.Machine.execOrderedDoorbellEffect m s
  | .registerWrite m cls b off v => Sys2Proof.Machine.execRegisterWrite m cls b off v s
  | .ackWrite b j v => Sys2Proof.Machine.execAckWrite b j v s
  | .intEnableWrite b v => Sys2Proof.Machine.execIntEnableWrite b v s
  | .msixMessage k => Sys2Proof.Machine.execMsixMessage k s
  | .loRead m cls b off => Sys2Proof.Machine.execLoRead m cls b off s
  | .loWrite m cls b off v => Sys2Proof.Machine.execLoWrite m cls b off v s
  | .hiWrite m cls b off v => Sys2Proof.Machine.execHiWrite m cls b off v s
  | .snapshotTake b => Sys2Proof.Machine.execSnapshotTake b s
  | .cfgParityScan b off flip seen => Sys2Proof.Machine.execCfgParityScan b off flip seen s
  | .blockHalt b => Sys2Proof.Machine.execBlockHalt b s
  | .blockResume b => Sys2Proof.Machine.execBlockResume b s
  | .powerRequest v => Sys2Proof.Machine.execPowerRequest v s
  | .wakeSourceAsserted level => Sys2Proof.Machine.execWakeSourceAsserted level s
  | .adcSample uv => Sys2Proof.Machine.execAdcSample uv s
  | .baroThrWrite k v => Sys2Proof.Machine.execBaroThrWrite k v s
  | .baroBoCoreWrite v => Sys2Proof.Machine.execBaroBoCoreWrite v s
  | .tempUpdate n temp => Sys2Proof.Machine.execTempUpdate n temp s
  | .coreBrownout core sram => Sys2Proof.Machine.execCoreBrownout core sram s
  | .aonBrownout low => Sys2Proof.Machine.execAonBrownout low s
  | .clockSwitchRequest d c => Sys2Proof.Machine.execClockSwitchRequest d c s
  | .checkedSwitchComplete d => Sys2Proof.Machine.execCheckedSwitchComplete d s
  | .sourceReadyChange c up => Sys2Proof.Machine.execSourceReadyChange c up s
  | .muxMoveComplete d => Sys2Proof.Machine.execMuxMoveComplete d s
  | .muxHang d => Sys2Proof.Machine.execMuxHang d s
  | .domainResetRequest v => Sys2Proof.Machine.execDomainResetRequest v s
  | .autoDomainReset med => Sys2Proof.Machine.execAutoDomainReset med s
  | .domainResetComplete med => Sys2Proof.Machine.execDomainResetComplete med s
  | .clkGateWrite r v => Sys2Proof.Machine.execClkGateWrite r v s
  | .gateClose b => Sys2Proof.Machine.execGateClose b s
  | .meterMeasurement k count => Sys2Proof.Machine.execMeterMeasurement k count s
  | .meterStopped k => Sys2Proof.Machine.execMeterStopped k s
  | .meterCfgWrite k r v => Sys2Proof.Machine.execMeterCfgWrite k r v s
  | .cruPointWrite v => Sys2Proof.Machine.execCruPointWrite v s
  | .pixPllWrite div v => Sys2Proof.Machine.execPixPllWrite div v s
  | .pornRelease boot chip => Sys2Proof.Machine.execPornRelease boot chip s
  | .perstnAssert pin => Sys2Proof.Machine.execPerstnAssert pin s
  | .blockReset index => Sys2Proof.Machine.execBlockReset index s
  | .bootRomStart otpOk => Sys2Proof.Machine.execBootRomStart otpOk s
  | .mbDoorbellRing m => Sys2Proof.Machine.execMbDoorbellRing m s
  | .mailboxCopy m => Sys2Proof.Machine.execMailboxCopy m s
  | .mailboxResponsePost m pct => Sys2Proof.Machine.execMailboxResponsePost m pct s
  | .mbRespAck m v => Sys2Proof.Machine.execMbRespAck m v s
  | .identify m => Sys2Proof.Machine.execIdentify m s
  | .cancel m => Sys2Proof.Machine.execCancel m s
  | .relay m => Sys2Proof.Machine.execRelay m s
  | .relayTimeout m => Sys2Proof.Machine.execRelayTimeout m s
  | .logRead m => Sys2Proof.Machine.execLogRead m s
  | .pwrRequest m => Sys2Proof.Machine.execPwrRequest m s
  | .dvfsPoint m accepted => Sys2Proof.Machine.execDvfsPoint m accepted s
  | .pmicWriteRetry accepted => Sys2Proof.Machine.execPmicWriteRetry accepted s
  | .ctxOpen m => Sys2Proof.Machine.execCtxOpen m s
  | .ctxClose m => Sys2Proof.Machine.execCtxClose m s
  | .ctxReopen m => Sys2Proof.Machine.execCtxReopen m s
  | .ctxWindow m => Sys2Proof.Machine.execCtxWindow m s
  | .flaskBuild m => Sys2Proof.Machine.execFlaskBuild m s
  | .flaskSlices m => Sys2Proof.Machine.execFlaskSlices m s
  | .flaskDissolve m => Sys2Proof.Machine.execFlaskDissolve m s
  | .regulatorSet m => Sys2Proof.Machine.execRegulatorSet m s
  | .abortJob m => Sys2Proof.Machine.execAbortJob m s
  | .queueConfig m => Sys2Proof.Machine.execQueueConfig m s
  | .regionSet m => Sys2Proof.Machine.execRegionSet m s
  | .regionClear m => Sys2Proof.Machine.execRegionClear m s
  | .scrubCfg m => Sys2Proof.Machine.execScrubCfg m s
  | .streamConfig m => Sys2Proof.Machine.execStreamConfig m s
  | .streamStart m => Sys2Proof.Machine.execStreamStart m s
  | .streamStop m => Sys2Proof.Machine.execStreamStop m s
  | .streamStopTimeout n => Sys2Proof.Machine.execStreamStopTimeout n s
  | .i3cXfer m out => Sys2Proof.Machine.execI3cXfer m out s
  | .engineCfg m => Sys2Proof.Machine.execEngineCfg m s
  | .graphLoad m => Sys2Proof.Machine.execGraphLoad m s
  | .graphStart m => Sys2Proof.Machine.execGraphStart m s
  | .graphStop m => Sys2Proof.Machine.execGraphStop m s
  | .graphStopTimeout g => Sys2Proof.Machine.execGraphStopTimeout g s
  | .mouldLoad m => Sys2Proof.Machine.execMouldLoad m s
  | .fsuConfig m => Sys2Proof.Machine.execFsuConfig m s
  | .fsuAssist m => Sys2Proof.Machine.execFsuAssist m s
  | .dispTiming m => Sys2Proof.Machine.execDispTiming m s
  | .dispRegion m => Sys2Proof.Machine.execDispRegion m s
  | .egressRing m => Sys2Proof.Machine.execEgressRing m s
  | .fbcConfig m => Sys2Proof.Machine.execFbcConfig m s
  | .fbcStart m => Sys2Proof.Machine.execFbcStart m s
  | .fbcStop m rxBusy => Sys2Proof.Machine.execFbcStop m rxBusy s
  | .fbcStopTimeout k => Sys2Proof.Machine.execFbcStopTimeout k s
  | .fbcRejoin m => Sys2Proof.Machine.execFbcRejoin m s
  | .inpRegistry m => Sys2Proof.Machine.execInpRegistry m s
  | .inpSounding m => Sys2Proof.Machine.execInpSounding m s
  | .edgeFloor m => Sys2Proof.Machine.execEdgeFloor m s
  | .qchEnvelope m => Sys2Proof.Machine.execQchEnvelope m s
  | .qchMasks m => Sys2Proof.Machine.execQchMasks m s
  | .qchArm m result => Sys2Proof.Machine.execQchArm m result s
  | .qchDisarm m => Sys2Proof.Machine.execQchDisarm m s
  | .qchResume m => Sys2Proof.Machine.execQchResume m s
  | .qchSelftest m result => Sys2Proof.Machine.execQchSelftest m result s
  | .sprueTrain m => Sys2Proof.Machine.execSprueTrain m s
  | .sprueSeal m check salt => Sys2Proof.Machine.execSprueSeal m check salt s
  | .ckptExport m flashOk => Sys2Proof.Machine.execCkptExport m flashOk s
  | .ckptImport m => Sys2Proof.Machine.execCkptImport m s
  | .manifestRead m => Sys2Proof.Machine.execManifestRead m s
  | .fwStage m => Sys2Proof.Machine.execFwStage m s
  | .fwWriteSlot m => Sys2Proof.Machine.execFwWriteSlot m s
  | .fwRestart m => Sys2Proof.Machine.execFwRestart m s
  | .fwCommitRollback m => Sys2Proof.Machine.execFwCommitRollback m s
  | .debugChallenge m => Sys2Proof.Machine.execDebugChallenge m s
  | .debugUnlock m => Sys2Proof.Machine.execDebugUnlock m s
  | .debugLock m => Sys2Proof.Machine.execDebugLock m s
  | .rngRead m => Sys2Proof.Machine.execRngRead m s
  | .wdogKick key => Sys2Proof.Machine.execWdogKick key s
  | .queuePush q master count first last => Sys2Proof.Machine.execQueuePush q master count first last s
  | .pushTakesEffect q mismatch => Sys2Proof.Machine.execPushTakesEffect q mismatch s
  | .queuePop q count arm mismatch => Sys2Proof.Machine.execQueuePop q count arm mismatch s
  | .dropPacket q arm mismatch => Sys2Proof.Machine.execDropPacket q arm mismatch s
  | .queueArm q => Sys2Proof.Machine.execQueueArm q s
  | .creditReturn q => Sys2Proof.Machine.execCreditReturn q s
  | .queueResetCmd q => Sys2Proof.Machine.execQueueResetCmd q s
  | .queueResetRecord c => Sys2Proof.Machine.execQueueResetRecord c s
  | .csiFrameStart port link vc num hdr off => Sys2Proof.Machine.execCsiFrameStart port link vc num hdr off s
  | .csiLongPacket port link vc dt payload hdr crcErr lost => Sys2Proof.Machine.execCsiLongPacket port link vc dt payload hdr crcErr lost s
  | .csiFrameEnd port link vc hdr off => Sys2Proof.Machine.execCsiFrameEnd port link vc hdr off s
  | .frameTimeout n => Sys2Proof.Machine.execFrameTimeout n s
  | .stallTimeout n => Sys2Proof.Machine.execStallTimeout n s
  | .ingReleaseWrite n v => Sys2Proof.Machine.execIngReleaseWrite n v s
  | .i3cIbiRequest ctrl hotJoin => Sys2Proof.Machine.execI3cIbiRequest ctrl hotJoin s
  | .triggerArrival e p => Sys2Proof.Machine.execTriggerArrival e p s
  | .runBegin e => Sys2Proof.Machine.execRunBegin e s
  | .runEnd e stall => Sys2Proof.Machine.execRunEnd e stall s
  | .runStop e lines stall => Sys2Proof.Machine.execRunStop e lines stall s
  | .runLimit e lines stall => Sys2Proof.Machine.execRunLimit e lines stall s
  | .graphTrigger g => Sys2Proof.Machine.execGraphTrigger g s
  | .runNode g => Sys2Proof.Machine.execRunNode g s
  | .waitNode g => Sys2Proof.Machine.execWaitNode g s
  | .waitNodeTimeout g => Sys2Proof.Machine.execWaitNodeTimeout g s
  | .signalNode g => Sys2Proof.Machine.execSignalNode g s
  | .branchNode g => Sys2Proof.Machine.execBranchNode g s
  | .timestampNode g => Sys2Proof.Machine.execTimestampNode g s
  | .endNode g => Sys2Proof.Machine.execEndNode g s
  | .instanceLimit g => Sys2Proof.Machine.execInstanceLimit g s
  | .jobStage c => Sys2Proof.Machine.execJobStage c s
  | .jobAdmit f => Sys2Proof.Machine.execJobAdmit f s
  | .jobStart f => Sys2Proof.Machine.execJobStart f s
  | .jobCommit f => Sys2Proof.Machine.execJobCommit f s
  | .budgetKill f => Sys2Proof.Machine.execBudgetKill f s
  | .teardownComplete c => Sys2Proof.Machine.execTeardownComplete c s
  | .abortStop f => Sys2Proof.Machine.execAbortStop f s
  | .sliceEntryEnd f => Sys2Proof.Machine.execSliceEntryEnd f s
  | .noticePlace c => Sys2Proof.Machine.execNoticePlace c s
  | .conv f stall => Sys2Proof.Machine.execConv f stall s
  | .convTranspose f stall => Sys2Proof.Machine.execConvTranspose f stall s
  | .convBwdWeight f stall => Sys2Proof.Machine.execConvBwdWeight f stall s
  | .matmul f stall => Sys2Proof.Machine.execMatmul f stall s
  | .attention f stall => Sys2Proof.Machine.execAttention f stall s
  | .pool f stall => Sys2Proof.Machine.execPool f stall s
  | .resize f stall => Sys2Proof.Machine.execResize f stall s
  | .eltwise f stall => Sys2Proof.Machine.execEltwise f stall s
  | .act f stall => Sys2Proof.Machine.execAct f stall s
  | .actBwd f stall => Sys2Proof.Machine.execActBwd f stall s
  | .norm f stall => Sys2Proof.Machine.execNorm f stall s
  | .softmax f stall => Sys2Proof.Machine.execSoftmax f stall s
  | .softmaxXent f stall => Sys2Proof.Machine.execSoftmaxXent f stall s
  | .reduce f stall => Sys2Proof.Machine.execReduce f stall s
  | .transpose f stall => Sys2Proof.Machine.execTranspose f stall s
  | .concat f stall => Sys2Proof.Machine.execConcat f stall s
  | .pad f stall => Sys2Proof.Machine.execPad f stall s
  | .gather f stall => Sys2Proof.Machine.execGather f stall s
  | .scatter f stall => Sys2Proof.Machine.execScatter f stall s
  | .topk f stall => Sys2Proof.Machine.execTopk f stall s
  | .boxSuppress f stall => Sys2Proof.Machine.execBoxSuppress f stall s
  | .convert f stall => Sys2Proof.Machine.execConvert f stall s
  | .optSgd f stall => Sys2Proof.Machine.execOptSgd f stall s
  | .optAdam f stall => Sys2Proof.Machine.execOptAdam f stall s
  | .copy f stall => Sys2Proof.Machine.execCopy f stall s
  | .fill f stall => Sys2Proof.Machine.execFill f stall s
  | .qpush f stall => Sys2Proof.Machine.execQpush f stall s
  | .qpop f stall => Sys2Proof.Machine.execQpop f stall s
  | .qpopTimeout f stall => Sys2Proof.Machine.execQpopTimeout f stall s
  | .wait f stall => Sys2Proof.Machine.execWait f stall s
  | .waitOpTimeout f stall => Sys2Proof.Machine.execWaitOpTimeout f stall s
  | .fence f stall => Sys2Proof.Machine.execFence f stall s
  | .fenceComplete f stall => Sys2Proof.Machine.execFenceComplete f stall s
  | .signal f stall => Sys2Proof.Machine.execSignal f stall s
  | .imageReload readOk => Sys2Proof.Machine.execImageReload readOk s
  | .sprueTrainStage p lanes peer n peerPort release => Sys2Proof.Machine.execSprueTrainStage p lanes peer n peerPort release s
  | .laneFailure p lane => Sys2Proof.Machine.execLaneFailure p lane s
  | .flitReceived p b => Sys2Proof.Machine.execFlitReceived p b s
  | .sealMark p salt => Sys2Proof.Machine.execSealMark p salt s
  | .replayTimer p => Sys2Proof.Machine.execReplayTimer p s
  | .readMessage p => Sys2Proof.Machine.execReadMessage p s
  | .writeMessage p => Sys2Proof.Machine.execWriteMessage p s
  | .readDataMessage p => Sys2Proof.Machine.execReadDataMessage p s
  | .writeAckMessage p => Sys2Proof.Machine.execWriteAckMessage p s
  | .mailboxMessage p => Sys2Proof.Machine.execMailboxMessage p s
  | .queueMessage p => Sys2Proof.Machine.execQueueMessage p s
  | .tsyncAnswer eighth => Sys2Proof.Machine.execTsyncAnswer eighth s
  | .tileDecision stall => Sys2Proof.Machine.execTileDecision stall s
  | .tileComplete c => Sys2Proof.Machine.execTileComplete c s
  | .lineStart fetched => Sys2Proof.Machine.execLineStart fetched s
  | .relockComplete locked => Sys2Proof.Machine.execRelockComplete locked s
  | .dispFlipWrite v => Sys2Proof.Machine.execDispFlipWrite v s
  | .regionUpdateStart te => Sys2Proof.Machine.execRegionUpdateStart te s
  | .egressFrameTake e => Sys2Proof.Machine.execEgressFrameTake e s
  | .egressCopyEnd e issued => Sys2Proof.Machine.execEgressCopyEnd e issued s
  | .egReturnWrite e v => Sys2Proof.Machine.execEgReturnWrite e v s
  | .fbcIntegration k => Sys2Proof.Machine.execFbcIntegration k s
  | .txqPop k => Sys2Proof.Machine.execTxqPop k s
  | .txArbitration k ramBad => Sys2Proof.Machine.execTxArbitration k ramBad s
  | .txConfirm k ago fine loop tdcv => Sys2Proof.Machine.execTxConfirm k ago fine loop tdcv s
  | .txAttemptFail k tdcv => Sys2Proof.Machine.execTxAttemptFail k tdcv s
  | .txbRequest k bits => Sys2Proof.Machine.execTxbRequest k bits s
  | .txbAbort k bits => Sys2Proof.Machine.execTxbAbort k bits s
  | .frameReceived k f ago fine => Sys2Proof.Machine.execFrameReceived k f ago fine s
  | .rxqDelivery k ramBad => Sys2Proof.Machine.execRxqDelivery k ramBad s
  | .busError k code dataPhase change => Sys2Proof.Machine.execBusError k code dataPhase change s
  | .recovered k n => Sys2Proof.Machine.execRecovered k n s
  | .protocolException k => Sys2Proof.Machine.execProtocolException k s
  | .pexResume k => Sys2Proof.Machine.execPexResume k s
  | .restrictionChange k => Sys2Proof.Machine.execRestrictionChange k s
  | .offerTimeout a => Sys2Proof.Machine.execOfferTimeout a s
  | .heartbeatLoss a => Sys2Proof.Machine.execHeartbeatLoss a s
  | .lingerExpiry a => Sys2Proof.Machine.execLingerExpiry a s
  | .chipHeartbeatSend k => Sys2Proof.Machine.execChipHeartbeatSend k s
  | .timeSyncSend k => Sys2Proof.Machine.execTimeSyncSend k s
  | .timeFollowSend k => Sys2Proof.Machine.execTimeFollowSend k s
  | .cliffPinChange j high => Sys2Proof.Machine.execCliffPinChange j high s
  | .odomSnoop k f => Sys2Proof.Machine.execOdomSnoop k f s
  | .cliffSnoop k f => Sys2Proof.Machine.execCliffSnoop k f s
  | .sectorStale n => Sys2Proof.Machine.execSectorStale n s
  | .odomTimeout n => Sys2Proof.Machine.execOdomTimeout n s
  | .cliffMatcherTimeout n => Sys2Proof.Machine.execCliffMatcherTimeout n s
  | .readbackMismatch qpRb qnRb => Sys2Proof.Machine.execReadbackMismatch qpRb qnRb s
  | .trngRestart passes => Sys2Proof.Machine.execTrngRestart passes s
  | .samplePreload levels shift => Sys2Proof.Machine.execSamplePreload levels shift s
  | .extest levels shift => Sys2Proof.Machine.execExtest levels shift s
  | .mbox op word data => Sys2Proof.Machine.execMbox op word data s
  | .otpProg field value ends => Sys2Proof.Machine.execOtpProg field value ends s
  | .aonPowerOnResetEnd boot chip belowUs => Sys2Proof.Machine.execAonPowerOnResetEnd boot chip belowUs s
  | .pcieLinkUp width rate => Sys2Proof.Machine.execPcieLinkUp width rate s
  | .configurationRequest pf1 what => Sys2Proof.Machine.execConfigurationRequest pf1 what s
  | .waitTimeReached g => Sys2Proof.Machine.execWaitTimeReached g s
  | .stoppedTargetEdge k => Sys2Proof.Machine.execStoppedTargetEdge k s
  | .aerCorrectableError kind => Sys2Proof.Machine.execAerCorrectableError kind s
  | .functionLevelReset => Sys2Proof.Machine.execFunctionLevelReset s
  | .powerTransitionComplete => Sys2Proof.Machine.execPowerTransitionComplete s
  | .calmEntryCommit => Sys2Proof.Machine.execCalmEntryCommit s
  | .calendarTick => Sys2Proof.Machine.execCalendarTick s
  | .calCapture => Sys2Proof.Machine.execCalCapture s
  | .calCaptureCopy => Sys2Proof.Machine.execCalCaptureCopy s
  | .calCommit => Sys2Proof.Machine.execCalCommit s
  | .calCommitApply => Sys2Proof.Machine.execCalCommitApply s
  | .aonPowerOnReset => Sys2Proof.Machine.execAonPowerOnReset s
  | .brownoutRelease => Sys2Proof.Machine.execBrownoutRelease s
  | .xlfStop => Sys2Proof.Machine.execXlfStop s
  | .pornAssert => Sys2Proof.Machine.execPornAssert s
  | .warmnAssert => Sys2Proof.Machine.execWarmnAssert s
  | .classDReset => Sys2Proof.Machine.execClassDReset s
  | .perstnDeassert => Sys2Proof.Machine.execPerstnDeassert s
  | .trstnAssert => Sys2Proof.Machine.execTrstnAssert s
  | .bootClocks => Sys2Proof.Machine.execBootClocks s
  | .flashSlotCheck => Sys2Proof.Machine.execFlashSlotCheck s
  | .payloadHashCheck => Sys2Proof.Machine.execPayloadHashCheck s
  | .bootPushGo => Sys2Proof.Machine.execBootPushGo s
  | .pushVerifyEnd => Sys2Proof.Machine.execPushVerifyEnd s
  | .fwInitHandoff => Sys2Proof.Machine.execFwInitHandoff s
  | .firmwareRunning => Sys2Proof.Machine.execFirmwareRunning s
  | .linkTrainingStart => Sys2Proof.Machine.execLinkTrainingStart s
  | .deferredCalmRequest => Sys2Proof.Machine.execDeferredCalmRequest s
  | .dvfsJobWaitTimeout => Sys2Proof.Machine.execDvfsJobWaitTimeout s
  | .sprueTrainTimeout => Sys2Proof.Machine.execSprueTrainTimeout s
  | .ckptHoldTimeout => Sys2Proof.Machine.execCkptHoldTimeout s
  | .challengeExpiry => Sys2Proof.Machine.execChallengeExpiry s
  | .wdogWarn => Sys2Proof.Machine.execWdogWarn s
  | .watchdogExpiry => Sys2Proof.Machine.execWatchdogExpiry s
  | .encoderGrant => Sys2Proof.Machine.execEncoderGrant s
  | .scrubStep => Sys2Proof.Machine.execScrubStep s
  | .errorInjectArm => Sys2Proof.Machine.execErrorInjectArm s
  | .linkTimeout => Sys2Proof.Machine.execLinkTimeout s
  | .lostAccessEnd => Sys2Proof.Machine.execLostAccessEnd s
  | .tsyncRequest => Sys2Proof.Machine.execTsyncRequest s
  | .tsyncTimeout => Sys2Proof.Machine.execTsyncTimeout s
  | .buildStart => Sys2Proof.Machine.execBuildStart s
  | .frameReport => Sys2Proof.Machine.execFrameReport s
  | .panelOnStep => Sys2Proof.Machine.execPanelOnStep s
  | .panelOffStep => Sys2Proof.Machine.execPanelOffStep s
  | .frameStart => Sys2Proof.Machine.execFrameStart s
  | .regionUpdateEnd => Sys2Proof.Machine.execRegionUpdateEnd s
  | .teTimeout => Sys2Proof.Machine.execTeTimeout s
  | .announceReceived => Sys2Proof.Machine.execAnnounceReceived s
  | .capsReceived => Sys2Proof.Machine.execCapsReceived s
  | .heartbeatReceived => Sys2Proof.Machine.execHeartbeatReceived s
  | .soundingExchange => Sys2Proof.Machine.execSoundingExchange s
  | .echoReceived => Sys2Proof.Machine.execEchoReceived s
  | .echoInfoReceived => Sys2Proof.Machine.execEchoInfoReceived s
  | .loadReceived => Sys2Proof.Machine.execLoadReceived s
  | .inpRouteReturn => Sys2Proof.Machine.execInpRouteReturn s
  | .qchResumeWrite => Sys2Proof.Machine.execQchResumeWrite s
  | .qchTripWrite => Sys2Proof.Machine.execQchTripWrite s
  | .stopFrameRepeat => Sys2Proof.Machine.execStopFrameRepeat s
  | .clearFrameSend => Sys2Proof.Machine.execClearFrameSend s
  | .readbackMatch => Sys2Proof.Machine.execReadbackMatch s
  | .diverseMismatch => Sys2Proof.Machine.execDiverseMismatch s
  | .logRecordWrite => Sys2Proof.Machine.execLogRecordWrite s
  | .trngHealthFail => Sys2Proof.Machine.execTrngHealthFail s
  | .drbgReseed => Sys2Proof.Machine.execDrbgReseed s
  | .idcode => Sys2Proof.Machine.execIdcode s
  | .bypass => Sys2Proof.Machine.execBypass s

end Sys2Proof.Machine
end

