-- ==== Sys2Proof/Machine/Tick.lean ====
section
/-! DEFINITION. Sys2Proof/Machine/Tick.lean: what an idle step does. With no command waiting, one tick of TB_NOW
(10 ns, R205) passes. -/
namespace Sys2Proof.Machine
open Sys2Proof

/-- The time base counts: TB is clocked in the power state and no reset of the whole device is held (R205, R217). -/
def State.tbCounts (s : State) : Bool := s.tbRuns && !s.rst.porn && !s.aon.porHeld

/-- The credits of entries removed in earlier steps come back (R314, R319). -/
def State.creditsBack (s : State) : State :=
  (s.queues.filter (fun e => e.2.freed != 0)).foldl (fun s e => s.setQueue e.1 { s.queue e.1 with freed := 0 }) s

/-- TB_NOW advances by one tick, corrected by what the chip-to-chip time holds back or gains (R205, R742). -/
def State.timePasses (s : State) : State :=
  let (n, s1) := s.tbAdvance
  { s1 with clk.now := (s1.clk.now + n) % 2 ^ 64 }

/-- One tick: time passes, one posted piece becomes visible, credits come back and the regulators refill. -/
def State.idle (s : State) : State :=
  if s.tbCounts then
    let s1 := s.timePasses.settleOne.creditsBack
    s1.refillAll s1.fabPerTick
  else s

end Sys2Proof.Machine
end

