-- ==== Sys2Proof/WellFormed.lean ====
section
/-! DEFINITION. Sys2Proof/WellFormed.lean: which commands can come from outside at all. The operands that a type does
not already bound are checked here; every command that fails no check is well formed. -/
namespace Sys2Proof

/-- Data bytes that a DLC stands for (R882): 0 to 8, then 12, 16, 20, 24, 32, 48 and 64 of an FD frame. -/
def dlcBytes (fdf : Bool) (dlc : Nat) : Nat :=
  if dlc ≤ 8 then dlc else if fdf then ([12, 16, 20, 24, 32, 48, 64][dlc - 9]?).getD 64 else 8

/-- A frame that the bus can carry (R873, R882): a 4-bit DLC; as many data bytes as it stands for, none in a remote
frame; no remote, and only then rate-switched or error-passive marked, frame in the FD format; an 11-bit identifier
without IDE; no bit above RTR. -/
def CanFrame.wf (f : CanFrame) : Bool :=
  decide (f.dlc < 16) &&
  decide (f.data.length = if f.idw.toNat.testBit 30 then 0 else dlcBytes f.fdf f.dlc) &&
  !(f.fdf && f.idw.toNat.testBit 30) && (f.fdf || !(f.brs || f.esi)) &&
  decide (f.idw.toNat < 2 ^ 31) && (f.idw.toNat.testBit 29 || decide (f.idw.toNat % 2 ^ 29 < 2 ^ 11))

/-- An access of at least one byte. -/
def FabricOp.wf : FabricOp → Bool
  | .read len => decide (0 < len)
  | .write data => !data.isEmpty

/-- A request of at least one byte. -/
def BarOp.wf : BarOp → Bool
  | .read len => decide (0 < len)
  | .write data => !data.isEmpty

/-- Well-formed commands. -/
def Instr.wf : Instr → Bool
  | .fabricAccess _ _ _ _ x => x.wf
  | .barAccess _ _ x => x.wf
  | .frameReceived _ f _ _ => f.wf
  | .odomSnoop _ f => f.wf
  | .cliffSnoop _ f => f.wf
  -- a flit is 256 bytes (R721)
  | .flitReceived _ b => decide (b.length = 256)
  -- the word count of a CSI-2 long packet has 16 bits (R348)
  | .csiLongPacket _ _ _ _ payload _ _ _ => decide (payload.length < 2 ^ 16)
  | _ => true

end Sys2Proof
end

