-- ==== Sys2Proof/Safety.lean ====
section
/-! DEFINITION. Sys2Proof/Safety.lean: the terms claims are stated in. -/
namespace Sys2Proof.Machine
open Sys2Proof

/-- The command answers a next state of which P holds. -/
def Yields (i : Instr) (s : State) (P : State → Prop) : Prop := ∃ t, exec i s = .next t ∧ P t

/-- The addressed memories are in their canonical form: addresses strictly rising, no byte listed that equals what an
unlisted address reads as; and so are the syndromes of their words. -/
def Memory.wf (m : Mem) : Bool := Tab.wf zeroByte m.bytes && Tab.wf zeroByte m.chk

/-- Quench is not ARMED while a trip cause of R978 is present. -/
def State.quenchClear (s : State) : Prop := s.qch.st = .armed → s.causes = 0

/-! ## Frames -/

/-- The groups of the machine's state. -/
inductive StatePart where
  | pending | bus | aon | baro | clk | rst | fmn | qch | fbcs | queues | mem | ing | eng | pat | sch | flx | spr | ckpt | fsu
  | disp | inp | sec | jtag | pins
  /-- The stored registers of a register frame, and its event counters with their acknowledgements. -/
  | regs (b : Blk)
  /-- Halted blocks and parity mismatches. -/
  | halts
  /-- The held copies and the halves of 64-bit accesses. -/
  | copies
deriving DecidableEq, Repr

/-- The part is the same in both states. -/
def StatePart.same (s t : State) : StatePart → Prop
  | .pending => t.pending = s.pending
  | .bus => t.bus = s.bus
  | .aon => t.aon = s.aon
  | .baro => t.baro = s.baro
  | .clk => t.clk = s.clk
  | .rst => t.rst = s.rst
  | .fmn => t.fmn = s.fmn
  | .qch => t.qch = s.qch
  | .fbcs => t.fbcs = s.fbcs
  | .queues => t.queues = s.queues
  | .mem => t.mem = s.mem
  | .ing => t.ing = s.ing
  | .eng => t.eng = s.eng
  | .pat => t.pat = s.pat
  | .sch => t.sch = s.sch
  | .flx => t.flx = s.flx
  | .spr => t.spr = s.spr
  | .ckpt => t.ckpt = s.ckpt
  | .fsu => t.fsu = s.fsu
  | .disp => t.disp = s.disp
  | .inp => t.inp = s.inp
  | .sec => t.sec = s.sec
  | .jtag => t.jtag = s.jtag
  | .pins => t.pins = s.pins
  | .regs b => (∀ o, o < 0x10000 → t.reg b o = s.reg b o) ∧ (∀ j, j < 32 → t.evc b j = s.evc b j ∧ t.ackOf b j = s.ackOf b j)
  | .halts => t.rf.halted = s.rf.halted ∧ t.rf.leftHalted = s.rf.leftHalted ∧ t.rf.parityBad = s.rf.parityBad ∧
      t.rf.haltCtxs = s.rf.haltCtxs
  | .copies => t.rf.held = s.rf.held ∧ t.rf.rdShadow = s.rf.rdShadow ∧ t.rf.wrShadow = s.rf.wrShadow

/-- What the trip of Quench that the end of a step may bring can change (R979, R982): Quench, and the controllers' dedicated
buffers with their requests. -/
def tripParts : List StatePart := [.qch, .fbcs, .regs 27, .regs 22, .regs 23, .regs 24, .regs 25]

/-- Beside a trip, the step from s to t changes no part of the state but those listed. -/
def Frame (l : List StatePart) (s t : State) : Prop := ∀ p, p ∉ l → p ∉ tripParts → p.same s t

/-! ## Mailbox commands -/

/-- Mailbox m's request is the command with this opcode, it is that command's turn to begin, and its LENGTH and fields are
accepted (R265 to R271, R1016). -/
def State.accepts (s : State) (m opcode : Nat) (lenOk : Bool) (checks : List (Nat × Bool)) : Prop :=
  (s.mb m).st = .working ∧ (s.mb m).ready = true ∧ (s.mb m).out = none ∧ s.rqOpcode m = opcode ∧ s.inTurn m = true ∧
    badField (s.headerChecks m lenOk ++ checks) = none ∧ s.longFull m = false ∧ s.configuresHalted m = false

/-- The same, for a command whose payload holds these fields in at least span bytes. -/
def State.asks (s : State) (m opcode span : Nat) (fields : List (Nat × Nat × Bool)) : Prop :=
  s.accepts m opcode (span ≤ s.rqLen m && s.rqLen m ≤ 240) (s.fieldChecks m fields)

/-- Mailbox m holds this final response. -/
def State.answers (t : State) (m : Nat) (r : Resp) : Prop := (t.mb m).out = some r
/-- Mailbox m's command is refused with this code and DETAIL. -/
def State.refuses (t : State) (m code detail : Nat) : Prop := ∃ r, (t.mb m).out = some r ∧ r.code = code ∧ r.detail = detail
/-- Mailbox m's command is DONE with this payload. -/
def State.doneWith (t : State) (m : Nat) (p : List Byte) : Prop := t.answers m { code := rDone, payload := p, progress := 100 }

/-! ## Messages of the Sprue link -/

/-- The port on which a response of this device leaves at once: UP, nothing waiting, a replay place and credits free. -/
def State.clearTo (s : State) (m : Msg) (q : Nat) : Prop :=
  s.route m.src m.addr = some q ∧ (s.port q).st = .up ∧ (s.port q).txWait = [] ∧ (s.port q).held.length < 64 ∧
    ∀ v, v < 4 → nget (s.port q).spent v + 17 ≤ vcCredits v

/-! ## Writes of the device's own masters -/

/-- A write of n bytes at a by an Ordinary master meets clean, powered memory that it may write. -/
def State.writable (s : State) (m a n : Nat) : Prop :=
  s.memCheck m .ordinary true a n = none ∧ s.unpowered a = false ∧ (∀ w, s.chkAt w = 0) ∧ s.mem.injArmed = false

/-- A read of n bytes at a by an Ordinary master meets clean, powered memory that it may read. -/
def State.readable (s : State) (m a n : Nat) : Prop :=
  s.memCheck m .ordinary false a n = none ∧ s.unpowered a = false ∧ (∀ w, s.chkAt w = 0)

/-- Slot i has received every line of its open frame f whole, and its header can be written. -/
def State.fullFrame (s : State) (i : Nat) (f : OpenFrame) : Prop :=
  (s.slot i).frame = some f ∧ (s.slot i).stopping = none ∧ (∀ k, k < s.slotHeight i → nget f.got k = s.slotLine i + 1) ∧
    s.slotWritten i < 65536 ∧ s.writable Config.mIngest (s.slotHdr i (s.slotWritten i)) 64

/-! ## Operations of jobs -/

/-- The state in which the pass over an operation begins: one free value has chosen the crucible that issues. -/
def State.opStart (s : State) : State := { s with free := s.free + 1 }

/-- A read-only part of an operation of job r on flask f answers v: its accesses are permitted and its checks hold. -/
def State.opGives {α : Type} (s : State) (x : JM α) (v : α) : Prop :=
  (x.run.run s.opStart : Except Halt α × State) = (.ok v, s.opStart)

/-- Flask f's job r runs next the operation of descriptor o, of opcode k, with no report entry and no DRIFT or RECAST. -/
def State.nextOp (s : State) (f : Nat) (r : Running) (o : OpD) (k : Nat) : Prop :=
  s.opReady f = some r ∧ r.fetchedBad = false ∧ r.job.report = false ∧ o.opcode = k ∧ o.quant = 0 ∧
    s.opGives (jread (s.opUser f r) (r.job.opsBase + 64 * r.opsDone) 64) o.d

/-- The index names this tensor, of a FORMAT that the operation takes. -/
def State.names (s : State) (f : Nat) (r : Running) (ix : Nat) (t : Tensor) (ok : Nat → Bool) : Prop :=
  s.opGives (getTensor (s.opUser f r) ix) t ∧ ok t.fmt = true ∧ t.scaleMode ≠ 3
/-- The index names the operation's output: a tensor that is not compressed. -/
def State.namesOut (s : State) (f : Nat) (r : Running) (ix : Nat) (t : Tensor) (ok : Nat → Bool) : Prop :=
  s.names f r ix t ok ∧ t.compress ≠ 1
/-- The tensor's content reads as x. -/
def State.reads (s : State) (f : Nat) (r : Running) (t : Tensor) (h g : Nat) (x : In) : Prop :=
  s.opGives (readIn (s.opUser f r) t h g) x
/-- OUT overlaps no input in a way that R575 forbids. -/
def State.apart (s : State) (f : Nat) (r : Running) (t : Tensor) (ins : List Tensor) (inPlace : Bool) : Prop :=
  s.opGives (aliasOk (s.opUser f r) t ins inPlace) ()

/-- The counts of the job after an operation. -/
def Running.counted (r : Running) (clip elems stall : Nat) : Running :=
  { r with
    opsDone := r.opsDone + 1, clip := r.clip + clip, elems := r.elems + elems, stall := r.stall + stall, wait := none
    fetched := [], fetchedBad := false }

/-- The writes of codes, and of those after them, are permitted and lead to the state w; the job goes on. -/
def State.writes (s : State) (f : Nat) (r : Running) (t : Tensor) (codes : Array (Option Nat)) (after : List (Tensor × Array Nat))
    (w : State) : Prop :=
  (((do
    writePlain (s.opUser f r) t (fun k => codes.getD k none)
    let _ ← after.mapM (fun e => writePlain (s.opUser f r) e.1 (fun k => some (e.2.getD k 0)))
    pure ()) : JM Unit).run.run s.opStart : Except Halt Unit × State) = (.ok (), w) ∧ (w.flask f).running = some r

/-- The command completes the operation: memory is that of w, and the job goes on with these counts. -/
def State.completes (s : State) (i : Instr) (f : Nat) (r : Running) (w : State) (clip elems stall : Nat) : Prop :=
  Yields i s (fun t => t.mem = w.mem ∧ (t.flask f).running = some (r.counted clip elems stall) ∧
    (∀ g, g ≠ f → t.flask g = w.flask g))

/-- Where the writes are permitted, the command writes these codes to OUT unchanged (R579). -/
def State.moves (s : State) (i : Instr) (f : Nat) (r : Running) (t : Tensor) (codes : Array (Option Nat)) (clip stall : Nat) : Prop :=
  ∀ w, s.writes f r t codes [] w → s.completes i f r w clip 0 stall

/-- Where the writes are permitted, the command encodes these results into OUT, whose scales are sc, and then makes the other
writes; it counts the elements encoded and the clips (R578, R630). -/
def State.computes (s : State) (i : Instr) (f : Nat) (r : Running) (t : Tensor) (h : Nat) (out : OutVal) (clip : Nat)
    (after : List (Tensor × Array Nat)) (stall : Nat) : Prop :=
  ∀ sc w, s.opGives (readScales (s.opUser f r) t h 0) sc → s.writes f r t (encodeOut t sc none out).1 after w →
    s.completes i f r w ((encodeOut t sc none out).2.2 + clip) (encodeOut t sc none out).2.1 stall

/-- The commands of the operation catalogue, the opcode whose operation each runs, and that operation. -/
def opCommands : List ((FlaskId → Nat → Instr) × Nat × (JobUser → OpD → JM OpOut)) :=
  [(.conv, 0x01, bodyConv), (.convTranspose, 0x02, bodyConvTranspose), (.convBwdWeight, 0x03, bodyConvBwdWeight),
   (.matmul, 0x10, bodyMatmul), (.attention, 0x11, bodyAttention), (.pool, 0x20, bodyPool), (.resize, 0x21, bodyResize),
   (.eltwise, 0x30, bodyEltwise), (.act, 0x31, bodyAct), (.actBwd, 0x32, bodyActBwd), (.norm, 0x40, bodyNorm),
   (.softmax, 0x42, bodySoftmax)] ++
  [(.softmaxXent, 0x43, bodySoftmaxXent), (.reduce, 0x50, bodyReduce), (.transpose, 0x60, bodyTranspose),
   (.concat, 0x61, bodyConcat), (.pad, 0x62, bodyPad), (.gather, 0x70, bodyGather), (.scatter, 0x71, bodyScatter),
   (.topk, 0x80, bodyTopk), (.boxSuppress, 0x81, bodyBoxSuppress), (.convert, 0x90, bodyConvert), (.optSgd, 0xA0, bodyOptSgd),
   (.optAdam, 0xA1, bodyOptAdam)] ++
  [(.copy, 0xB0, bodyCopy), (.fill, 0xB1, bodyFill), (.qpush, 0xC0, bodyQpush), (.qpop, 0xC1, bodyQpop false),
   (.qpopTimeout, 0xC1, bodyQpop true), (.wait, 0xC2, bodyWait false), (.waitOpTimeout, 0xC2, bodyWait true),
   (.fence, 0xC3, bodyFence false), (.fenceComplete, 0xC3, bodyFence true), (.signal, 0xC4, bodySignal)]

end Sys2Proof.Machine
end

