-- ==== Sys2Proof/Certificates/Slice0/Obligations.lean ====
section
/-! DEFINITION. Sys2Proof/Certificates/Slice0/Obligations.lean: the statements for the provers. -/
section
open Sys2Proof Sys2Proof.Machine

/-- With a command at the front of the queue, a step is exec of it on the state with the queue's rest. -/
def Obligations.StepRunsFrontCommand : Prop :=
  ∀ (c : Instr) (rest : List Instr) (s : State), s.pending = c :: rest → step s = exec c { s with pending := rest }

/-- Every command answers a next state, whatever its operands and the state. With no command waiting a step is one tick: with TB
running and no correction of the time base pending, TB_NOW advances by 1 modulo 2^64 and the queue stays empty (the model's
choice, log entry 2). -/
def Obligations.StepsAnswer : Prop :=
  (∀ (c : Instr) (s : State), ∃ t, exec c s = .next t) ∧
  (∀ s : State, s.pending = [] → s.tbCounts = true → s.spr.hold = 0 → s.spr.slew = 0 → s.spr.eighths = 0 →
    ∃ t, step s = .next t ∧ t.clk.now = (s.clk.now + 1) % 2 ^ 64 ∧ t.pending = [] ∧ t.aon = s.aon ∧ t.fmn = s.fmn)

/-- The values that the spec gives for reset: power state Breeze, AON, CRU, FAB, MED and the others on their reset sources, no
mailbox, queue, context or flask in use, the calendar at 2000-01-01 and UNSET, memory in canonical form. The invariant holds at
reset. -/
def Obligations.ResetState : Prop :=
  (State.reset.aon.pwr = 1 ∧ State.reset.aon.cal = {} ∧ State.reset.aon.unset = true ∧ State.reset.aon.grave = none ∧
  (∀ d, d < 7 → (State.reset.domain d).active = (if d = 0 then 2 else if d ≤ 3 then 1 else 3) ∧
    (State.reset.domain d).phase = .idle) ∧
  State.reset.qch.st = .disarmed ∧ State.reset.qch.selftestOk = false ∧ (∀ i, (State.reset.sector i).stale = true) ∧
  (∀ m, (State.reset.mb m).st = .idle) ∧ (∀ k, (State.reset.fbc k).st = .off) ∧ State.reset.pending = [] ∧
  (∀ b j, State.reset.evc b j = 0 ∧ State.reset.ackOf b j = 0) ∧ Memory.wf State.reset.mem = true ∧
  (∀ a, State.reset.mbyte a = 0)) ∧
  (State.reset.quenchClear)

/-- Quench is not ARMED while a trip cause of R978 is present. -/
def Obligations.ArmedMeansNoCause : Prop :=
  ∀ s t : State, s.quenchClear → step s = .next t → t.quenchClear

/-- After every command the pair shows RUN only with Quench ARMED, no trip cause present and the grave latch clear. -/
def Obligations.PairRunsOnlyWhenSafe : Prop :=
  ∀ (c : Instr) (s t : State), exec c s = .next t → t.pairRun = true →
    t.qch.st = .armed ∧ t.causes = 0 ∧ t.aon.grave = none ∧ t.aon.pwr ≠ 0

/-- R105: after every command, each block whose INT_STATUS AND INT_ENABLE has a bit that was 0 before has a message due. -/
def Obligations.RisingCauseMakesMessageDue : Prop :=
  ∀ (c : Instr) (s t : State) (b : Nat), exec c s = .next t → b < 33 →
    t.msixCause b &&& ~~~s.msixCause b ≠ 0 → tget t.rf.msixDue b = true

/-- POWER_REQUEST: a request that meets every condition of R130 starts the transition, the power state unchanged; one that does not
leaves state and transition as they were and AON_PWR_REFUSE_EVC advances (R130, R131). A request that R130 refuses because one
is in progress, because the state is the present one, or because its code is not listed. -/
def Obligations.PowerRequests : Prop :=
  ((∀ (v : Word) (s : State), s.pwrReason (fld v 0 3) = none →
    Yields (.powerRequest v) s (fun t => t.aon.moving = some (fld v 0 3 - 1) ∧ t.aon.pwr = s.aon.pwr ∧ t.mem = s.mem)) ∧
  (∀ (v : Word) (s : State) (r : Nat), s.pwrReason (fld v 0 3) = some r →
    Yields (.powerRequest v) s (fun t => t.aon = s.aon ∧ t.evc Blk.aon 3 = s.evc Blk.aon 3 + 1 ∧ t.mem = s.mem ∧
      (s.pend Blk.aon 3 = false → t.reg Blk.aon 0x118 = (at_ r 8 4 ||| at_ (fld v 0 3) 0 3))))) ∧
  (∀ (v : Word) (s : State), (fld v 0 3 = 0 ∨ 4 < fld v 0 3 → s.pwrReason (fld v 0 3) = some 8) ∧
    (1 ≤ fld v 0 3 → fld v 0 3 ≤ 4 → s.aon.moving.isSome = true → s.pwrReason (fld v 0 3) = some 1) ∧
    (1 ≤ fld v 0 3 → fld v 0 3 ≤ 4 → s.aon.moving = none → fld v 0 3 - 1 = s.aon.pwr → s.pwrReason (fld v 0 3) = some 7))

/-- R142 and R146. A tick with no commit pending is the advance of R142: the subsecond by 1, with carry into the second, the minute,
the hour, the day, the month by its length, and the year. A commit for which a row of R146 holds is rejected whole: the calendar
and all else of the domain stay, AON_CAL_REJECT_EVC advances, and where its PEND was 0 AON_CAL_REJECT_INFO holds the lowest such
code. -/
def Obligations.CalendarRules : Prop :=
  let len := fun (y m : Nat) => if m = 2 then (if (y % 4 = 0 ∧ y % 100 ≠ 0) ∨ y % 400 = 0 then 29 else 28)
    else if m = 4 ∨ m = 6 ∨ m = 9 ∨ m = 11 then 30 else 31
  let bad := fun (c : Calendar) (busy : Bool) (r : Nat) => (r = 1 ∧ (c.year < 2000 ∨ 2399 < c.year)) ∨
    (r = 2 ∧ (c.month = 0 ∨ 13 ≤ c.month)) ∨ (r = 3 ∧ (c.day = 0 ∨ len c.year c.month < c.day)) ∨ (r = 4 ∧ 24 ≤ c.hour) ∨
    (r = 5 ∧ 60 ≤ c.minute) ∨ (r = 6 ∧ 60 ≤ c.second) ∨ (r = 7 ∧ busy = true)
  (∀ s : State, s.aon.commit = none → Yields .calendarTick s (fun t => t.aon.cal = (calAdvance s.aon.cal).1)) ∧
  (∀ c : Calendar, (c.sub < 32767 → (calAdvance c).1 = { c with sub := c.sub + 1 }) ∧
    (c.sub = 32767 → c.second < 59 → (calAdvance c).1 = { c with sub := 0, second := c.second + 1 }) ∧
    (c.sub = 32767 → c.second = 59 → c.minute < 59 → (calAdvance c).1 = { c with sub := 0, second := 0, minute := c.minute + 1 }) ∧
    (c.sub = 32767 → c.second = 59 → c.minute = 59 → c.hour < 23 →
      (calAdvance c).1 = { c with sub := 0, second := 0, minute := 0, hour := c.hour + 1 })) ∧
  (∀ y m d : Nat, (d < len y m → (calAdvance ⟨y, m, d, 23, 59, 59, 32767⟩).1 = ⟨y, m, d + 1, 0, 0, 0, 0⟩) ∧
    (len y m ≤ d → m < 12 → (calAdvance ⟨y, m, d, 23, 59, 59, 32767⟩).1 = ⟨y, m + 1, 1, 0, 0, 0, 0⟩) ∧
    (len y 12 ≤ d → y < 2399 → (calAdvance ⟨y, 12, d, 23, 59, 59, 32767⟩).1 = ⟨y + 1, 1, 1, 0, 0, 0, 0⟩)) ∧
  (∀ (s : State) (r : Nat), bad s.stagedCal s.aon.commit.isSome r → (∀ k, k < r → ¬bad s.stagedCal s.aon.commit.isSome k) →
    Yields .calCommit s (fun t => t.aon = s.aon ∧ t.evc Blk.aon 6 = s.evc Blk.aon 6 + 1 ∧
      (s.pend Blk.aon 6 = false → t.reg Blk.aon 0x180 = at_ r 0 4) ∧ t.mem = s.mem))

/-- CALM_ENTRY_COMMIT and POWER_TRANSITION_COMPLETE (R132, R133, R135): the commit with no enabled wake source asserted records
TB_NOW; with one asserted the entry is abandoned and counted as refused; a transition that completes shows its target and
AON_PWR_EVC advances. WAKE_SOURCE_ASSERTED in Calm: an enabled source newly asserted starts one Calm exit, counted once, with
the lowest source and the whole set in AON_WAKE_LAST (R129, R136, R154). -/
def Obligations.PowerTransitions : Prop :=
  ((∀ s : State, s.aon.moving = some 0 → s.aon.calmCommitted = false → s.aon.pwr ≠ 0 → s.aon.wakeSrc &&& s.wakeEn = 0 →
    Yields .calmEntryCommit s (fun t => t.aon.calmCommitted = true ∧ t.aon.tbAtCalm = s.clk.now ∧ t.aon.calmCount = 0 ∧
      t.aon.moving = some 0 ∧ t.mem = s.mem ∧ t.fmn = s.fmn)) ∧
  (∀ s : State, s.aon.moving = some 0 → s.aon.calmCommitted = false → s.aon.pwr ≠ 0 → s.aon.wakeSrc &&& s.wakeEn ≠ 0 →
    Yields .calmEntryCommit s (fun t => t.aon.moving = none ∧ t.aon.pwr = s.aon.pwr ∧
      t.evc Blk.aon 3 = s.evc Blk.aon 3 + 1 ∧ t.evc Blk.aon 4 = s.evc Blk.aon 4 ∧ t.mem = s.mem)) ∧
  (∀ (s : State) (p : Nat), s.aon.moving = some p → (p = 0 → s.aon.calmCommitted = true) →
    Yields .powerTransitionComplete s (fun t => t.aon.pwr = p ∧ t.evc Blk.aon 2 = s.evc Blk.aon 2 + 1 ∧
      t.aon.moving = (if p = 0 ∧ s.aon.exitDue = true then some 1 else none)))) ∧
  (∀ (l : BitVec 16) (s : State), s.aon.pwr = 0 → s.aon.moving = none → l &&& ~~~s.aon.wakeSrc &&& s.wakeEn ≠ 0 →
    Yields (.wakeSourceAsserted l) s (fun t => t.aon.moving = some 1 ∧ t.aon.pwr = 0 ∧ t.aon.wakeSrc = l ∧
      t.evc Blk.aon 4 = s.evc Blk.aon 4 + 1 ∧ t.reg Blk.aon 0x128 = wakeLast (l &&& ~~~s.aon.wakeSrc &&& s.wakeEn) ∧
      t.mem = s.mem ∧ t.fmn = s.fmn))

/-- The calendar: a tick advances it by R142 or applies the pending commit in place of that advance; a commit is accepted; a capture
copies it between ticks (R142 to R147). The Barometer: a sample's code and threshold status, a threshold write, a temperature,
brown-outs and their end (R163 to R168, R170). BARO_LO_STATUS and BARO_HI_STATUS change only after PERSIST + 1 consecutive
samples against them (R165). -/
def Obligations.AlwaysOnCommands : Prop :=
  ((∀ s : State, s.aon.commit = none → Yields .calendarTick s (fun t => t.aon.cal = (calAdvance s.aon.cal).1 ∧
    t.aon.unset = s.aon.unset ∧ (s.aon.wrapped = true → t.aon.wrapped = true) ∧ t.mem = s.mem)) ∧
  (∀ (s : State) (c : Calendar), s.aon.commit = some c → Yields .calendarTick s (fun t => t.aon.cal = c ∧
    t.aon.commit = none ∧ t.aon.unset = false ∧ t.aon.inaccurate = false ∧ t.aon.wrapped = false ∧
    t.evc Blk.aon 5 = s.evc Blk.aon 5 + 1 ∧ t.mem = s.mem)) ∧
  (∀ (s : State) (c : Calendar), s.aon.commit = some c → Yields .calCommitApply s (fun t => t.aon.cal = c ∧
    t.aon.commit = none ∧ t.aon.unset = false ∧ t.evc Blk.aon 5 = s.evc Blk.aon 5 + 1 ∧ t.mem = s.mem)) ∧
  (∀ s : State, calReason s.stagedCal s.aon.commit.isSome = none → Yields .calCommit s (fun t =>
    t.aon.commit = some s.stagedCal ∧ t.aon.cal = s.aon.cal ∧ t.mem = s.mem)) ∧
  (∀ s : State, s.aon.commit = none → s.aon.cal = ⟨2399, 12, 31, 23, 59, 59, 32767⟩ → Yields .calendarTick s (fun t =>
    t.aon.cal = ⟨2000, 1, 1, 0, 0, 0, 0⟩ ∧ t.aon.wrapped = true ∧ t.evc Blk.aon 7 = s.evc Blk.aon 7 + 1)) ∧
  (∀ s : State, Yields .calCapture s (fun t => t.aon = { s.aon with capDue := true } ∧ t.mem = s.mem ∧ t.fmn = s.fmn)) ∧
  (∀ s : State, s.aon.capDue = true → Yields .calCaptureCopy s (fun t => t.aon = { s.aon with capDue := false } ∧
    t.reg Blk.aon 0x14C = dateWord s.aon.cal ∧ t.reg Blk.aon 0x150 = timeWord s.aon.cal ∧
    t.reg Blk.aon 0x154 = BitVec.ofNat 32 s.aon.cal.sub ∧ t.mem = s.mem))) ∧
  ((∀ (uv k : Nat) (s : State), s.aon.pwr ≠ 0 → s.adcNext = some k → Yields (.adcSample uv) s (fun t =>
    t.reg Blk.baro (0x140 + 4 * k) = (0x8000#32 ||| BitVec.ofNat 32 (adcCode k uv)) ∧ t.baro.lastCh = some k ∧
    t.aon = s.aon ∧ t.mem = s.mem)) ∧
  (∀ (k : Fin 16) (v : Word) (s : State), Yields (.baroThrWrite k v) s (fun t =>
    t.reg Blk.baro (0x180 + 4 * k.val) = v &&& 0x0FFFFFFF ∧ nget t.baro.loRun k = 0 ∧ nget t.baro.hiRun k = 0 ∧
    t.baro.loStatus = s.baro.loStatus ∧ t.mem = s.mem)) ∧
  (∀ (v : Word) (s : State), Yields (.baroBoCoreWrite v) s (fun t => t.boThr = min 70 (fld v 0 8) ∧ t.baro = s.baro ∧
    t.mem = s.mem)) ∧
  (∀ (n : Fin 8) (x : BitVec 16) (s : State), Yields (.tempUpdate n x) s (fun t =>
    t.reg Blk.baro (0x1C0 + 4 * n.val) = (0x10000#32 ||| BitVec.ofNat 32 x.toNat) ∧
    ((s.tempCritLim : Int) * 16 ≤ sgn 16 x.toNat → t.baro.tempCrit = true ∧
      (s.baro.tempCrit = false → s.baro.held = false → t.rst.classD.isSome = true)) ∧ t.mem = s.mem)) ∧
  (∀ (core sram : Bool) (s : State), s.aon.pwr ≠ 0 → (core || sram) = true → s.baro.held = false → s.baro.boAon = false →
    Yields (.coreBrownout core sram) s (fun t => t.baro.held = true ∧ t.evc Blk.baro 2 = s.evc Blk.baro 2 + 1 ∧
      (s.rst.classD = none → t.rst.classD = some (if core then 1 else 2)) ∧ t.mem = s.mem)) ∧
  (∀ s : State, Yields .brownoutRelease s (fun t => t.baro = { s.baro with boCore := false, boSram := false, held := false } ∧
    t.rst = s.rst ∧ t.mem = s.mem)) ∧
  (∀ s : State, s.aon.porHeld = false → s.baro.boAon = false → Yields (.aonBrownout true) s (fun t =>
    t.baro.boAon = true ∧ t.aon.grave.isSome = true ∧ (s.aon.grave = none → t.aon.grave = some 4) ∧ t.qch.st = .grave ∧
    t.mem = s.mem)) ∧
  (∀ s : State, s.aon.porHeld = false → Yields (.aonBrownout false) s (fun t => t.baro.boAon = false ∧ t.aon = s.aon ∧
    t.mem = s.mem))) ∧
  (∀ (status below : Bool) (run persist : Nat),
    (below = status → thrStep status below run persist = (status, 0)) ∧
    (below ≠ status → run < persist → thrStep status below run persist = (status, run + 1)) ∧
    (below ≠ status → persist ≤ run → thrStep status below run persist = (below, 0)))

/-- CLOCK_SWITCH_REQUEST: a request that R179 admits starts the switch, or counts at once when the source is active; a refused one
changes no domain and is counted and captured with its reason (R179, R180). The completion of a switch or mux move makes its
source active, and CLK_SW counts it; TB_NOW is not stepped (R181, R183, R184). A mux whose old clock has stopped is HUNG; for
FAB that is a Class D fault with DETAIL 4 (R185, R186, R188). Domain resets of CRU and MED: a hung domain's reset starts by
request or by itself, DOMRST counting it; a request for a domain that is not hung is refused with reason 7; at its end the mux
stands on HFRC, IDLE (R188). -/
def Obligations.ClockSwitching : Prop :=
  ((∀ (d : Fin 7) (c : BitVec 4) (s : State), s.switchReason d.val c.toNat = none → (s.domain d.val).active ≠ c.toNat →
    Yields (.clockSwitchRequest d c) s (fun t => (t.domain d.val).phase = .switching c.toNat ∧
      (t.domain d.val).active = (s.domain d.val).active ∧ t.evc Blk.clk 2 = s.evc Blk.clk 2 ∧ t.clk.now = s.clk.now ∧
      (∀ e, e ≠ d.val → t.domain e = s.domain e) ∧ t.mem = s.mem ∧ t.aon = s.aon)) ∧
  (∀ (d : Fin 7) (c : BitVec 4) (s : State), s.switchReason d.val c.toNat = none → (s.domain d.val).active = c.toNat →
    Yields (.clockSwitchRequest d c) s (fun t => t.clk = s.clk ∧ t.evc Blk.clk 2 = s.evc Blk.clk 2 + 1 ∧ t.mem = s.mem)) ∧
  (∀ (d : Fin 7) (c : BitVec 4) (s : State) (r : Nat), s.switchReason d.val c.toNat = some r →
    Yields (.clockSwitchRequest d c) s (fun t => t.clk = s.clk ∧ t.evc Blk.clk 3 = s.evc Blk.clk 3 + 1 ∧
      (s.pend Blk.clk 3 = false → t.reg Blk.clk 0x140 = (at_ d.val 16 3 ||| at_ c.toNat 12 4 ||| at_ r 0 4)) ∧ t.mem = s.mem))) ∧
  ((∀ (d : Fin 4) (c : Nat) (s : State), (s.domain d.val).phase = .switching c →
    Yields (.checkedSwitchComplete d) s (fun t => (t.domain d.val).active = c ∧ (t.domain d.val).phase = .idle ∧
      t.evc Blk.clk 2 = s.evc Blk.clk 2 + 1 ∧ t.clk.now = s.clk.now ∧ t.clk.ready = s.clk.ready ∧ t.mem = s.mem)) ∧
  (∀ (d : Fin 3) (c : Nat) (s : State), (s.domain (4 + d.val)).phase = .switching c →
    Yields (.muxMoveComplete d) s (fun t => (t.domain (4 + d.val)).active = c ∧ (t.domain (4 + d.val)).phase = .idle ∧
      t.evc Blk.clk 2 = s.evc Blk.clk 2 + 1 ∧ t.clk.now = s.clk.now ∧ t.mem = s.mem))) ∧
  (∀ (d : Fin 3) (c : Nat) (s : State), (s.domain (4 + d.val)).phase = .switching c →
    Yields (.muxHang d) s (fun t => (t.domain (4 + d.val)).phase = .hung ∧ t.evc Blk.clk 5 = s.evc Blk.clk 5 + 1 ∧
      (d.val = 1 → s.rst.classD = none → t.rst.classD = some 4) ∧ (d.val ≠ 1 → t.rst = s.rst) ∧ t.mem = s.mem)) ∧
  ((∀ (v : Word) (s : State), (fld v 0 3 = 4 ∨ fld v 0 3 = 6) → (s.domain (fld v 0 3)).phase = .hung →
    (s.domain (fld v 0 3)).resetting = false → Yields (.domainResetRequest v) s (fun t =>
      (t.domain (fld v 0 3)).resetting = true ∧ t.evc Blk.rst 6 = s.evc Blk.rst 6 + 1)) ∧
  (∀ (v : Word) (s : State), (fld v 0 3 = 4 ∨ fld v 0 3 = 6) → (s.domain (fld v 0 3)).phase ≠ .hung →
    Yields (.domainResetRequest v) s (fun t => t.clk = s.clk ∧ t.evc Blk.clk 3 = s.evc Blk.clk 3 + 1 ∧ t.mem = s.mem)) ∧
  (∀ (med : Bool) (s : State), (s.domain (if med then 6 else 4)).phase = .hung →
    (s.domain (if med then 6 else 4)).resetting = false → Yields (.autoDomainReset med) s (fun t =>
      (t.domain (if med then 6 else 4)).resetting = true ∧ t.evc Blk.rst 6 = s.evc Blk.rst 6 + 1)) ∧
  (∀ (med : Bool) (s : State), (s.domain (if med then 6 else 4)).resetting = true →
    Yields (.domainResetComplete med) s (fun t => (t.domain (if med then 6 else 4)).active = 3 ∧
      (t.domain (if med then 6 else 4)).phase = .idle ∧ (t.domain (if med then 6 else 4)).resetting = false)))

/-- A source's READY changes: a fall abandons a checked switch to it, counted as refused; XLF_STOP also moves AON to LFRC; LFRC
stays ready (R174, R182, R200, R208). CLK_CRU_POINT and the PLL_PIX settings: taken while their PLL is not the active source,
otherwise refused with reason 4; settings outside R204 are refused with reason 6 (R202, R204). Gates: a 1 written opens the
gate; a gate requested closed closes once its block is idle (R189, R190). The clock meter: a measurement stores its count and
moves PREWARN and FAULT by the windows and the hysteresis; STOPPED, its end at the target's first edge, and a configuration
write, which discards the measurement (R192 to R194, R197). -/
def Obligations.ClockSources : Prop :=
  ((∀ (c : Fin 9) (s : State), c.val ≠ 2 → Yields (.sourceReadyChange c true) s (fun t => t.srcReady c.val = true ∧
    t.clk.domains = s.clk.domains ∧ t.mem = s.mem)) ∧
  (∀ (c : Fin 9) (s : State), c.val ≠ 2 → Yields (.sourceReadyChange c false) s (fun t => t.srcReady c.val = false ∧
    (∀ d, d < 4 → (t.domain d).phase ≠ .switching c.val) ∧ (∀ d, (t.domain d).active = (s.domain d).active) ∧ t.mem = s.mem)) ∧
  (∀ (up : Bool) (s : State), Yields (.sourceReadyChange 2 up) s (fun t => t.clk = s.clk)) ∧
  (∀ s : State, (s.domain 0).active = 0 → Yields .xlfStop s (fun t => t.srcReady 0 = false ∧
    (t.domain 0).phase = .switching 2 ∧ (t.domain 0).hw = true ∧ t.mem = s.mem))) ∧
  ((∀ (v : Word) (s : State), (s.domain 4).active ≠ 4 → Yields (.cruPointWrite v) s (fun t =>
    t.reg Blk.clk 0x104 = BitVec.ofNat 32 (fld v 0 2) ∧ t.srcReady 4 = false ∧ t.clk.domains = s.clk.domains ∧ t.mem = s.mem)) ∧
  (∀ (v : Word) (s : State), (s.domain 4).active = 4 → Yields (.cruPointWrite v) s (fun t =>
    t.clk = s.clk ∧ t.reg Blk.clk 0x104 = s.reg Blk.clk 0x104 ∧ t.evc Blk.clk 3 = s.evc Blk.clk 3 + 1 ∧ t.mem = s.mem)) ∧
  (∀ (v : Word) (s : State), (s.domain 3).active ≠ 7 →
    pixInRange (fld (v &&& 0x7fffff) 16 7) (fld (v &&& 0x7fffff) 0 16) (fld (s.reg Blk.clk 0x10C) 0 6) = true →
    Yields (.pixPllWrite false v) s (fun t => t.reg Blk.clk 0x108 = v &&& 0x7fffff ∧ t.clk = s.clk ∧ t.mem = s.mem)) ∧
  (∀ (v : Word) (s : State), (s.domain 3).active ≠ 7 →
    pixInRange (fld (s.reg Blk.clk 0x108) 16 7) (fld (s.reg Blk.clk 0x108) 0 16) (fld v 0 6) = true →
    Yields (.pixPllWrite true v) s (fun t => t.reg Blk.clk 0x10C = v &&& 0x3f ∧ t.clk = s.clk ∧ t.mem = s.mem)) ∧
  (∀ (v : Word) (s : State),
    pixInRange (fld (s.reg Blk.clk 0x108) 16 7) (fld (s.reg Blk.clk 0x108) 0 16) (fld v 0 6) = false →
    Yields (.pixPllWrite true v) s (fun t => t.reg Blk.clk 0x10C = s.reg Blk.clk 0x10C ∧ t.clk = s.clk ∧
      t.evc Blk.clk 3 = s.evc Blk.clk 3 + 1 ∧ t.mem = s.mem))) ∧
  ((∀ (r : Fin 3) (v : Word) (s : State), Yields (.clkGateWrite r v) s (fun t =>
    t.reg Blk.clk (0x160 + 4 * r.val) = v &&& (if r.val = 0 then 0xc03bee00 else if r.val = 1 then 0xffffffff else 0xffff) ∧
    (∀ b, t.gateBit b = true → tget t.clk.gateClosed b = false) ∧
    (∀ b, t.gateBit b = false → tget t.clk.gateClosed b = tget s.clk.gateClosed b) ∧ t.mem = s.mem)) ∧
  (∀ (b : Fin 96) (s : State), gateable b.val = true → s.gateBit b.val = false → s.blockIdle b.val = true →
    Yields (.gateClose b) s (fun t => t.gated b.val = true ∧ (∀ c, c ≠ b.val → tget t.clk.gateClosed c = tget s.clk.gateClosed c) ∧
      t.mem = s.mem ∧ t.aon = s.aon))) ∧
  ((∀ (k : Fin 8) (n : Nat) (s : State), s.meterOn k.val = true → n < 2 ^ 32 → Yields (.meterMeasurement k n) s (fun t =>
    let o := 0x200 + 0x20 * k.val
    let diff := (n - (s.reg Blk.clk (o + 4)).toNat) + ((s.reg Blk.clk (o + 4)).toNat - n)
    t.reg Blk.clk (o + 0x14) = BitVec.ofNat 32 n ∧ (t.meter k.val).valid = true ∧
    ((s.reg Blk.clk (o + 8)).toNat < diff → (t.meter k.val).prewarn = true) ∧
    ((s.reg Blk.clk (o + 12)).toNat < diff → (t.meter k.val).fault = true) ∧
    (diff + (s.reg Blk.clk (o + 16)).toNat ≤ (s.reg Blk.clk (o + 8)).toNat → (t.meter k.val).prewarn = false) ∧
    (diff + (s.reg Blk.clk (o + 16)).toNat ≤ (s.reg Blk.clk (o + 12)).toNat → (t.meter k.val).fault = false) ∧ t.mem = s.mem)) ∧
  (∀ (k : Fin 8) (s : State), s.meterOn k.val = true → (s.meter k.val).stopped = false → Yields (.meterStopped k) s (fun t =>
    t.meterFault k.val = true ∧ (t.meter k.val).stopped = true ∧
    ((s.meter k.val).fault = false → t.evc Blk.clk (6 + k.val) = s.evc Blk.clk (6 + k.val) + 1) ∧ t.mem = s.mem)) ∧
  (∀ (k : Fin 8) (s : State), s.meterTarget k.val < 12 → Yields (.stoppedTargetEdge k) s (fun t =>
    t.meter k.val = { s.meter k.val with stopped := false } ∧ t.clk.domains = s.clk.domains ∧ t.mem = s.mem)) ∧
  (∀ (k : Fin 8) (r : Fin 5) (v : Word) (s : State), Yields (.meterCfgWrite k r v) s (fun t =>
    t.reg Blk.clk (0x200 + 0x20 * k.val + 4 * r.val) = v &&& (if r.val = 0 then 0x9f10000f else 0xffffffff) ∧
    (t.meter k.val).valid = false ∧ t.mem = s.mem)))

/-- The resets and what they leave: RST_LAST records the cause, the scopes reach what R217 lists, and a reset that reaches Quench
leaves it DISARMED unless the grave latch is set (R215 to R217, R242, R251, R1000). -/
def Obligations.Resets : Prop :=
  (∀ s : State, Yields .pornAssert s (fun t => t.rst.porn = true ∧ t.rst.rom = .start ∧ t.clk.now = 0 ∧ t.aon.pwr = 1 ∧
    t.reg Blk.rst 0x100 = 1 ∧ t.aon.grave = s.aon.grave ∧ t.aon.cal = s.aon.cal ∧ t.mem = {} ∧ t.queues = [] ∧
    t.sec.otp = s.sec.otp ∧ t.qch.st = (if s.aon.grave.isSome then .grave else .disarmed))) ∧
  (∀ (b c : Fin 4) (s : State), s.rst.porn = true → Yields (.pornRelease b c) s (fun t => t.rst.porn = false ∧
    t.rst.boot = b.val ∧ t.bus.chipId = c.val ∧ t.aon = s.aon ∧ t.mem = s.mem)) ∧
  (∀ s : State, s.rst.porn = false → s.aon.porHeld = false → s.rst.wdogDue = false → s.rst.classD = none →
    s.rst.rom ≠ .halted → Yields .warmnAssert s (fun t =>
    fld (t.reg Blk.rst 0x100) 0 3 = 2 ∧ fld (t.reg Blk.rst 0x100) 16 4 = s.stage ∧ t.evc Blk.rst 2 = s.evc Blk.rst 2 + 1 ∧
    t.rst.rom = .start ∧ t.clk.now = s.clk.now ∧ t.aon.cal = s.aon.cal ∧ t.aon.grave = s.aon.grave ∧ t.aon.pwr = 1 ∧
    t.mem = {} ∧ t.queues = [] ∧ t.fmn = {} ∧ t.qch.st = (if s.aon.grave.isSome then .grave else .disarmed))) ∧
  (∀ (s : State) (d : Nat), s.rst.classD = some d → s.rst.wdogDue = false → s.rst.rom ≠ .halted →
    Yields .classDReset s (fun t => fld (t.reg Blk.rst 0x100) 0 3 = 4 ∧ fld (t.reg Blk.rst 0x100) 8 8 = d % 256 ∧
      t.evc Blk.rst 4 = s.evc Blk.rst 4 + 1 ∧ t.rst.classD = none ∧ t.rst.rom = .start ∧ t.mem = {} ∧ t.aon.cal = s.aon.cal ∧
      t.clk.now = s.clk.now)) ∧
  (∀ (pin : Bool) (s : State), Yields (.perstnAssert pin) s (fun t => t.evc Blk.rst 5 = s.evc Blk.rst 5 + 1 ∧
    t.bus.linkUp = false ∧ t.rst.perst = (pin || s.rst.perst) ∧ t.aon = s.aon ∧ t.rst.rom = s.rst.rom ∧
    t.clk = s.clk)) ∧
  (∀ s : State, Yields .perstnDeassert s (fun t => t.rst = { s.rst with perst := false } ∧
    t.aon = { s.aon with peWake := false } ∧ t.mem = s.mem ∧ t.bus = s.bus)) ∧
  (∀ (i : BitVec 8) (s : State), haltGroup i.toNat = true → Yields (.blockReset i) s (fun t =>
    t.evc Blk.rst 7 = s.evc Blk.rst 7 + 1 ∧ (∀ o, 0x100 ≤ o → o < 0x10000 → i.toNat ≠ 21 → i.toNat < 22 ∨ 25 < i.toNat →
      t.reg i.toNat o = regDefault (regKey i.toNat o)) ∧ t.aon = s.aon ∧ t.clk = s.clk)) ∧
  (∀ (i : BitVec 8) (s : State), haltGroup i.toNat = false → Yields (.blockReset i) s (fun t =>
    t.evc Blk.rst 9 = s.evc Blk.rst 9 + 1 ∧ t.aon = s.aon ∧ t.mem = s.mem ∧ t.queues = s.queues ∧ t.fmn = s.fmn)) ∧
  (∀ s : State, Yields .trstnAssert s (fun t => t.jtag = {} ∧ t.aon = s.aon ∧ t.mem = s.mem ∧ t.sec = s.sec)) ∧
  (∀ s : State, Yields .aonPowerOnReset s (fun t => t.aon.porHeld = true ∧ t.aon.cal = {} ∧ t.aon.unset = true ∧
    t.aon.grave = s.aon.grave ∧ t.clk.now = 0 ∧ t.mem = {} ∧ t.sec.otp = s.sec.otp)) ∧
  (∀ (b c : Fin 4) (us : Nat) (s : State), s.aon.porHeld = true → Yields (.aonPowerOnResetEnd b c us) s (fun t =>
    t.aon.porHeld = false ∧ t.rst.boot = b.val ∧ t.bus.chipId = c.val ∧ (us < 2000 → t.aon.grave = s.aon.grave) ∧
    (10000 ≤ us → t.aon.grave = none) ∧ (t.aon.grave = none → t.qch.st = .disarmed) ∧ (t.aon.grave ≠ none → t.qch.st = .grave)))

/-- The boot ROM's path to firmware: integrity and strap, clocks, slot checks, the payload's hash, the pushed image, the hand-off
and the start of the firmware (R224 to R238, R245, R249). The PCI Express link and its configuration: training, the link up, the
configuration requests, an AER report (R49, R74, R76, R239). -/
def Obligations.BootAndLink : Prop :=
  ((∀ s : State, s.rst.rom = .start → s.romRuns = true → s.rst.boot ≠ 3 → Yields (.bootRomStart true) s (fun t =>
    t.rst.rom = .clocks ∧ t.stage = 1 ∧ (∀ a, inTcm a = true → t.mbyte a = 0) ∧ t.clk = s.clk)) ∧
  (∀ s : State, s.rst.rom = .start → s.romRuns = true → Yields (.bootRomStart false) s (fun t =>
    t.rst.rom = .halted ∧ t.stage = 15 ∧ fld (t.reg Blk.rst 0x10C) 20 4 = 2)) ∧
  (∀ s : State, s.rst.rom = .clocks → s.srcReady 1 = true → s.srcReady 8 = true → s.romRuns = true →
    Yields .bootClocks s (fun t => (t.domain 1).active = 8 ∧ (t.domain 2).active = 8 ∧ (t.domain 5).active = 8 ∧
      (s.rst.boot = 1 → t.rst.rom = .waitPush ∧ t.rst.window = true ∧ t.stage = 3) ∧
      (s.rst.boot ≠ 1 → t.stage = 2) ∧ t.mem = s.mem)) ∧
  (∀ (s : State) (k : Nat) (r : Option Nat), s.rst.rom = .flashHeader k r → s.romRuns = true →
    s.headerReason (s.flashBytes (slotAddr k) 0x200) = none →
    Yields .flashSlotCheck s (fun t => t.rst.rom = .flashPayload k r ∧ t.aon = s.aon ∧ t.fmn = s.fmn)) ∧
  (∀ (s : State) (k n c : Nat), s.rst.rom = .flashHeader k (some n) → s.romRuns = true →
    s.headerReason (s.flashBytes (slotAddr k) 0x200) = some c →
    Yields .flashSlotCheck s (fun t => t.rst.rom = .flashHeader n none ∧ t.mem = s.mem)) ∧
  (∀ (s : State) (k : Nat) (r : Option Nat), s.rst.rom = .flashPayload k r → s.romRuns = true →
    sha384 (s.mbytes 0x30100000 (bytesAt (s.flashBytes (slotAddr k) 0x200) 8 4)) =
      payloadHash (s.flashBytes (slotAddr k) 0x200) →
    Yields .payloadHashCheck s (fun t => t.rst.rom = .accepted ∧
      t.rst.image = parseImage k (s.flashBytes (slotAddr k) 0x200) ∧ t.mem = s.mem)) ∧
  (∀ s : State, s.rst.rom = .waitPush → Yields .bootPushGo s (fun t => t.rst.rom = .pushVerify ∧ t.rst.window = false ∧
    t.stage = 4 ∧ t.mem = s.mem)) ∧
  (∀ s : State, s.rst.rom ≠ .waitPush → Yields .bootPushGo s (fun t => t.rst = s.rst ∧ t.evc Blk.rst 9 = s.evc Blk.rst 9 + 1 ∧
    t.mem = s.mem)) ∧
  (∀ s : State, s.rst.rom = .pushVerify → s.romRuns = true → s.headerReason (s.mbytes 0 0x200) = none →
    sha384 (s.mbytes 0x200 (bytesAt (s.mbytes 0 0x200) 8 4)) = payloadHash (s.mbytes 0 0x200) →
    Yields .pushVerifyEnd s (fun t => t.rst.rom = .accepted ∧ t.rst.image = parseImage 2 (s.mbytes 0 0x200) ∧
      t.aon = s.aon ∧ t.fmn = s.fmn)) ∧
  (∀ s : State, s.rst.rom = .accepted → s.romRuns = true → Yields .fwInitHandoff s (fun t => t.rst.rom = .firmware ∧
    t.stage = 5 ∧ t.wdogOn = true ∧ t.wdogPeriod = 8000 * tbMs ∧ t.fmn.wdogFrom = s.clk.now ∧ t.mem = s.mem)) ∧
  (∀ s : State, s.rst.rom = .firmware → s.stage = 5 → s.frozen = false → Yields .firmwareRunning s (fun t =>
    t.stage = 6 ∧ t.fmn.wdogFrom = s.clk.now ∧ t.inp.regEpoch ≠ 0 ∧ t.mem = s.mem ∧ t.rst.rom = .firmware))) ∧
  ((∀ s : State, s.rst.trainingDue = true → s.rst.perst = false → s.rst.porn = false → s.aon.porHeld = false →
    Yields .linkTrainingStart s (fun t => t.bus = { s.bus with training := true } ∧
      t.rst = { s.rst with trainingDue := false } ∧ t.mem = s.mem)) ∧
  (∀ (w r : Fin 5) (s : State), s.bus.training = true → (w = 1 ∨ w = 2 ∨ w = 4) → r ≠ 0 → Yields (.pcieLinkUp w r) s (fun t =>
    t.bus = { s.bus with training := false, linkUp := true, linkWidth := w.val, linkRate := r.val } ∧ t.mem = s.mem ∧
    t.rst = s.rst)) ∧
  (∀ (f : Bool) (s : State), s.bus.linkUp = true → Yields (.configurationRequest f .identity) s (fun t =>
    Tab.get (fun _ => []) t.bus.readData (Config.mPf0 + b2n f) =
      leBytes 2 0x1E5A ++ leBytes 2 (0x960 + b2n f) ++ leBytes 1 0xB0 ++ leBytes 3 0x120000 ∧ t.mem = s.mem)) ∧
  (∀ (f on : Bool) (s : State), s.bus.linkUp = true → Yields (.configurationRequest f (.assignBars on)) s (fun t =>
    t.bus = { s.bus with barsAssigned := tset s.bus.barsAssigned (b2n f) on } ∧ t.mem = s.mem)) ∧
  (∀ (f on : Bool) (s : State), s.bus.linkUp = true → Yields (.configurationRequest f (.busMaster on)) s (fun t =>
    t.bus = { s.bus with busMaster := tset s.bus.busMaster (b2n f) on } ∧ t.mem = s.mem)) ∧
  (∀ (f on : Bool) (s : State), s.bus.linkUp = true → Yields (.configurationRequest f (.msixEnable on)) s (fun t =>
    t.bus = { s.bus with msixOn := tset s.bus.msixOn (b2n f) on } ∧ t.mem = s.mem)) ∧
  (∀ (k : Fin 5) (s : State), Yields (.aerCorrectableError k) s (fun t =>
    t.bus = { s.bus with aerCorr := tset s.bus.aerCorr k.val true } ∧ t.mem = s.mem)))

/-- A register write with RW fields changes those alone, in the frames whose registers have no further effect (R86); a master of too
low a class changes nothing but the count of guard violations (R82, R83). -/
def Obligations.RegisterWriteFields : Prop :=
  (∀ (m : MasterId) (cls : AccessClass) (b : Fin 256) (off : BitVec 16) (v : Word) (s : State) (r : RegRow) (i : Nat),
    s.fabricRuns = true → off.toNat % 4 = 0 → off.toNat < 0x8000 → s.gated b.val = false →
    regRow b.val off.toNat = some (r, i) → r.kind = .rw → r.guard.admits (masterClass m.toNat cls) = true →
    b.val ∈ [0, 1, 7, 9, 10, 11, 13, 14, 15, 16, 17, 18, 19, 20, 26, 28, 31, 32] → off.toNat ≠ 0xC →
    Yields (.registerWrite m cls b off v) s (fun t =>
      t.reg b.val off.toNat = ((s.reg b.val off.toNat &&& ~~~r.wmask) ||| (v &&& r.wmask)) ∧
      (∀ o, o < 0x10000 → o ≠ off.toNat → t.reg b.val o = s.reg b.val o) ∧ Frame [.regs b.val, .halts] s t)) ∧
  (∀ (m : MasterId) (cls : AccessClass) (b : Fin 256) (off : BitVec 16) (v : Word) (s : State) (r : RegRow) (i : Nat),
    s.fabricRuns = true → off.toNat % 4 = 0 → off.toNat < 0x8000 → s.gated b.val = false →
    regRow b.val off.toNat = some (r, i) → r.guard.admits (masterClass m.toNat cls) = false →
    Yields (.registerWrite m cls b off v) s (fun t => t.evc b.val 0 = s.evc b.val 0 + 1 ∧ Frame [.regs b.val] s t ∧
      (¬(22 ≤ b.val ∧ b.val ≤ 27) → ∀ o, o < 0x10000 → o ≠ 0x28 → t.reg b.val o = s.reg b.val o)))

/-- ACK_WRITE and INT_ENABLE_WRITE: the field takes the value written, no other register of the frame changes, and a message is due
where (INT_STATUS AND INT_ENABLE) is left non-zero (R91, R105); a crucible's INT_ENABLE is RSV (R106). -/
def Obligations.AcknowledgeAndEnable : Prop :=
  (∀ (b : Fin 96) (j : Fin 32) (v : Count16) (s : State), isBlock b.val = true → hasAck b.val j.val = true →
    s.gated b.val = false → Yields (.ackWrite b j v) s (fun t => t.ackOf b.val j.val = v ∧
      (∀ i, i < 32 → i ≠ j.val → t.ackOf b.val i = s.ackOf b.val i) ∧
      (s.quenchClear → t.evc b.val j.val = s.evc b.val j.val ∧ t.pend b.val j.val = (s.evc b.val j.val != v)) ∧
      (s.quenchClear → b.val < 33 → t.msixCause b.val ≠ 0 → tget t.rf.msixDue b.val = true) ∧
      Frame (if b.val = 5 then [.regs 5, .fmn] else [.regs b.val]) s t)) ∧
  (∀ (b : Fin 96) (v : Word) (s : State), b.val < 33 → s.gated b.val = false → s.quenchClear →
    Yields (.intEnableWrite b v) s (fun t => t.reg b.val 0xC = v ∧
      (∀ o, o < 0x10000 → o ≠ 0xC → t.reg b.val o = s.reg b.val o) ∧
      (t.msixCause b.val ≠ 0 → tget t.rf.msixDue b.val = true) ∧ t.qch = s.qch ∧ t.fbcs = s.fbcs ∧
      Frame [.regs b.val, .halts] s t)) ∧
  (∀ (b : Fin 96) (v : Word) (s : State), 48 ≤ b.val → s.gated b.val = false →
    Yields (.intEnableWrite b v) s (fun t => Frame [.halts] s t))

/-- The checks of a register access in their order: size and alignment, clock gate, guard level; each failure counts once in its own
counter and the access has no other effect; an offset with no register reads zero and is not counted (R83, R85). -/
def Obligations.RegisterAccessChecks : Prop :=
  ∀ (s : State) (m : Nat) (cls : AccessClass) (b off len : Nat) (w : Option Word), b < 256 → off < 0x10000 →
    let r := s.regAccess m cls (0x20000000 + 0x10000 * b + off) len w
    (len ≠ 4 ∨ off % 4 ≠ 0 → r.1 = 0 ∧ r.2.evc Blk.chip 2 = s.evc Blk.chip 2 + 1 ∧ Frame [.regs Blk.chip] s r.2) ∧
    (len = 4 → off % 4 = 0 → isBlock b = false → r = (0, s)) ∧
    (len = 4 → off % 4 = 0 → isBlock b = true → s.gated b = true →
      r.1 = 0 ∧ r.2.evc Blk.clk 4 = s.evc Blk.clk 4 + 1 ∧ Frame [.regs Blk.clk] s r.2) ∧
    (len = 4 → off % 4 = 0 → isBlock b = true → s.gated b = false → guardOf b off = none → r = (0, s)) ∧
    (∀ g, len = 4 → off % 4 = 0 → isBlock b = true → s.gated b = false → guardOf b off = some g → g.admits cls = false →
      r.1 = 0 ∧ r.2 = s.guardErr m w.isSome b off) ∧
    (∀ g, len = 4 → off % 4 = 0 → isBlock b = true → s.gated b = false → guardOf b off = some g → g.admits cls = true →
      0x8000 ≤ off → r.2 = s ∧ (w = none → r.1 = Tab.get zeroWord s.rf.held (regKey b (off % 0x8000))))

/-- 64-bit values: a read of the low register returns bits 31:0 and keeps bits 63:32 in the master's read shadow; a write of the low
register waits in the master's write shadow, and the write of the high register applies both and leaves the shadow 0 (R94, R95).
SNAPSHOT_TAKE: SNAPSHOT_SEQ advances by 1, and every register of the set that has no open bits is held at its value (R97);
nothing but the held copies changes. -/
def Obligations.CopiesOfRegisters : Prop :=
  ((∀ (m : MasterId) (cls : AccessClass) (s : State), s.fabricRuns = true → s.gated Blk.tb = false →
    s.parityOf Blk.tb 0x100 = 0 → Yields (.loRead m cls 32 0x100#15) s (fun t =>
      Tab.get (fun _ => []) t.bus.readData m.toNat = leBytes 4 (s.clk.now % 2 ^ 32) ∧
      Tab.get zeroWord t.rf.rdShadow (shadowKey m.toNat Blk.tb 0x100) = BitVec.ofNat 32 (s.tbNow / 2 ^ 32) ∧
      Frame [.bus, .copies] s t)) ∧
  (∀ (m : MasterId) (cls : AccessClass) (v : Word) (s : State), s.fabricRuns = true → s.gated Blk.mem = false →
    masterClass m.toNat cls = .secure → Yields (.loWrite m cls 8 0x160#15 v) s (fun t =>
      Tab.get zeroWord t.rf.wrShadow (shadowKey m.toNat Blk.mem 0x160) = v ∧ Frame [.copies] s t)) ∧
  (∀ (m : MasterId) (cls : AccessClass) (v : Word) (s : State), s.fabricRuns = true → s.gated Blk.mem = false →
    masterClass m.toNat cls = .secure → Yields (.hiWrite m cls 8 0x164#15 v) s (fun t =>
      t.reg Blk.mem 0x160 = Tab.get zeroWord s.rf.wrShadow (shadowKey m.toNat Blk.mem 0x160) ∧
      (∀ r i, regRow Blk.mem 0x164 = some (r, i) →
        t.reg Blk.mem 0x164 = ((s.reg Blk.mem 0x164 &&& ~~~r.wmask) ||| (v &&& r.wmask))) ∧
      Tab.get zeroWord t.rf.wrShadow (shadowKey m.toNat Blk.mem 0x160) = 0 ∧ Frame [.regs 8, .copies, .halts] s t))) ∧
  (∀ (b : Fin 96) (s : State), isBlock b.val = true → s.gated b.val = false →
    Yields (.snapshotTake b) s (fun t =>
      Tab.get zero16 t.rf.snapSeq b.val = Tab.get zero16 s.rf.snapSeq b.val + 1 ∧
      (∀ o, o ∈ snapSet b.val → (∀ x, x ∈ snapSet b.val → s.openBits b.val x = 0) →
        Tab.get zeroWord t.rf.held (regKey b.val o) = s.live b.val o) ∧ Frame [.copies] s t))

/-- MSIX_MESSAGE: a due message of an open vector is sent over the link; that of a masked one leaves its pending bit set (R49,
R105). CFG_PARITY_SCAN: a mismatch that the scan meets is counted, and removed by a write of the register (R101, R102).
BLOCK_HALT and BLOCK_RESUME: a block of the halt group whose mismatch was found halts, and comes back once every context torn
down for it has left TEARDOWN, with the log record and the event of R1015. -/
def Obligations.MessagesAndParity : Prop :=
  ((∀ (k : Fin 96) (s : State), tget s.rf.msixDue k.val = true → s.msixOpen k.val = true → s.msixLink k.val = true →
    Yields (.msixMessage k) s (fun t => (s.quenchClear → tget t.rf.msixDue k.val = false) ∧
      nget t.bus.msixSent k.val = nget s.bus.msixSent k.val + 1 ∧ (t.msixVec k.val).pbit = false ∧ Frame [.bus] s t)) ∧
  (∀ (k : Fin 96) (s : State), tget s.rf.msixDue k.val = true → tget s.bus.msixOn (msixFn k.val) = true →
    (s.msixVec k.val).masked = true → Yields (.msixMessage k) s (fun t => (t.msixVec k.val).pbit = true ∧
      nget t.bus.msixSent k.val = nget s.bus.msixSent k.val ∧ Frame [.bus] s t)) ∧
  (∀ (b : Fin 96) (off : BitVec 16) (i : Fin 32) (s : State) (r : RegRow) (n : Nat), regRow b.val off.toNat = some (r, n) →
    r.kind = .rw → r.wmask.toNat.testBit i.val = true → (48 ≤ b.val → off.toNat ≠ 0xC) → s.parityOf b.val off.toNat = 0 →
    s.gated b.val = false → haltGroup b.val = true → ¬(22 ≤ b.val ∧ b.val ≤ 25) →
    Yields (.cfgParityScan b off (some i) true) s (fun t => t.parityCause b.val = true ∧
      t.evc b.val 1 = s.evc b.val 1 + 1 ∧ (off.toNat ≠ 0x34 → t.reg b.val off.toNat = s.reg b.val off.toNat ^^^ BitVec.ofNat 32 (2 ^ i.val)) ∧
      Frame [.regs b.val, .halts] s t))) ∧
  ((∀ (b : Fin 96) (s : State), haltGroup b.val = true → s.frozen = false → b.val ∉ [9, 10, 11] →
    s.rf.parityBad.any (fun e => e.1 / 0x10000 == b.val && e.2 % 4 == 2) = true →
    Yields (.blockHalt b) s (fun t => t.isHalted b.val = true ∧ t.parityCause b.val = true ∧ t.aon = s.aon ∧ t.clk = s.clk ∧
      t.rst = s.rst)) ∧
  (∀ (b : Fin 96) (s : State), 48 ≤ b.val → s.isHalted b.val = true → s.leftHalted b.val = false → s.foremanRuns = true →
    (∀ c, c ∈ Tab.get (fun _ => []) s.rf.haltCtxs b.val → (s.ctx c).st ≠ .teardown) →
    Yields (.blockResume b) s (fun t => t.isHalted b.val = false ∧ t.evc Blk.rst 7 = s.evc Blk.rst 7 + 1 ∧
      t.parityCause b.val = false ∧ t.queues = s.queues ∧ t.sch = s.sch ∧
      (∀ a, (a < 0x10000000 + (b.val - 48) * 0x200000 ∨ 0x10200000 + (b.val - 48) * 0x200000 ≤ a) → t.mbyte a = s.mbyte a))))

/-- An access to local memory: a write that passes its checks is posted and changes no memory yet, a read of clean words returns
them, and an access that the rights do not admit is counted as a fabric error, a read of it returning zeros (R41, R55, R72,
R657). -/
def Obligations.LocalAccesses : Prop :=
  (∀ (m : MasterId) (cls : AccessClass) (a : BitVec 40) (o : Bool) (d : List Byte) (s : State), s.fabricRuns = true →
    0x30 ≤ m.toNat → m.toNat < 0x44 → d ≠ [] → chipOf a.toNat = s.bus.chipId → inRegs (localOf a.toNat) = false →
    (s.grant m.toNat a.toNat d.length true).1 = true →
    s.memCheck m.toNat (masterClass m.toNat cls) true (localOf a.toNat) d.length = none →
    Yields (.fabricAccess m cls a o (.write d)) s (fun t =>
      t.bus.posted = s.bus.posted ++ (pieces (localOf a.toNat) d).map (fun e =>
        { master := m.toNat, cls := masterClass m.toNat cls, addr := e.1, bytes := e.2 }) ∧ Frame [.bus, .sch] s t)) ∧
  (∀ (m : MasterId) (cls : AccessClass) (a : BitVec 40) (o : Bool) (n : Nat) (s : State), s.fabricRuns = true →
    0x30 ≤ m.toNat → m.toNat < 0x44 → 0 < n → chipOf a.toNat = s.bus.chipId → inRegs (localOf a.toNat) = false →
    (s.grant m.toNat a.toNat n false).1 = true → (∀ p ∈ s.bus.posted, p.master ≠ m.toNat) →
    s.memCheck m.toNat (masterClass m.toNat cls) false (localOf a.toNat) n = none → s.unpowered (localOf a.toNat) = false →
    (∀ x, localOf a.toNat / 8 ≤ x / 8 → x / 8 ≤ (localOf a.toNat + n - 1) / 8 → s.chkAt x = 0) →
    Yields (.fabricAccess m cls a o (.read n)) s (fun t =>
      Tab.get (fun _ => []) t.bus.readData m.toNat = s.mbytes (localOf a.toNat) n ∧ Frame [.bus, .sch] s t)) ∧
  (∀ (m : MasterId) (cls : AccessClass) (a : BitVec 40) (o : Bool) (n : Nat) (s : State), s.fabricRuns = true →
    0x30 ≤ m.toNat → m.toNat < 0x44 → m.toNat ≠ 0x30 → 0 < n → chipOf a.toNat = s.bus.chipId →
    inRegs (localOf a.toNat) = false → (s.grant m.toNat a.toNat n false).1 = true → (∀ p ∈ s.bus.posted, p.master ≠ m.toNat) →
    s.memCheck m.toNat (masterClass m.toNat cls) false (localOf a.toNat) n = some 2 →
    Yields (.fabricAccess m cls a o (.read n)) s (fun t =>
      Tab.get (fun _ => []) t.bus.readData m.toNat = List.replicate n 0 ∧ t.evc Blk.chip 3 = s.evc Blk.chip 3 + 1 ∧
      Frame [.bus, .sch, .regs 0] s t))

/-- A master's read of what it wrote returns it: the write is posted, and a later read by the same master of the same bytes, in
words that are clean, returns the written bytes (R55). -/
def Obligations.MasterReadsOwnWrite : Prop :=
  ∀ (m : MasterId) (cls : AccessClass) (a : BitVec 40) (o o' : Bool) (d : List Byte) (s t : State), s.fabricRuns = true →
    (m.toNat = 0x30 ∨ m.toNat = 0x31 ∨ m.toNat = 0x41) → d ≠ [] → chipOf a.toNat = s.bus.chipId →
    s.bus.posted = [] → ingotRange (localOf a.toNat) d.length = true → s.aon.pwr ≠ 0 → s.mem.injArmed = false →
    (∀ x, localOf a.toNat / 8 ≤ x / 8 → x / 8 ≤ (localOf a.toNat + d.length - 1) / 8 → s.chkAt x = 0) →
    exec (.fabricAccess m cls a o (.write d)) s = .next t →
    Yields (.fabricAccess m cls a o' (.read d.length)) t (fun u =>
      Tab.get (fun _ => []) u.bus.readData m.toNat = d ∧
      ∀ x, (x < localOf a.toNat ∨ localOf a.toNat + d.length ≤ x) → u.mbyte x = s.mbyte x)

/-- Ordered doorbells and the host's reads: once they take effect none of the master's doorbells waits and every write that the
master posted before is visible; a read through a BAR waits for its completion (R58, R59, R71). A poisoned inbound write is
discarded, counted and reported through AER (R72, R74); a Function Level Reset of PF1 takes its contexts, bindings, vectors and
doorbell pages (R54, R275). -/
def Obligations.HostAccesses : Prop :=
  ((∀ (m : MasterId) (s : State), s.frozen = false → s.doorbellWaits m.toNat = true → s.awaitsAck m.toNat = false →
    Yields (.orderedDoorbellEffect m) s (fun t => t.doorbellWaits m.toNat = false ∧ (∀ p ∈ t.bus.posted, p.master ≠ m.toNat))) ∧
  (∀ (bar : Bar) (off : BitVec 26) (n : Nat) (s : State), s.barOpen bar = true → 0 < n → off.toNat + n ≤ barSize bar →
    bar ≠ .pf0Ingots → (∀ r ∈ s.bus.reads, r.master ≠ barMaster bar) →
    Yields (.barAccess bar off (.read n)) s (fun t => t.bus = { s.bus with reads := s.bus.reads ++
        [{ master := barMaster bar, cls := masterClass (barMaster bar) .ordinary, bar := some bar, addr := off.toNat, len := n }] } ∧
      Frame [.bus] s t)) ∧
  (∀ (b : Bool) (k : Fin 32) (x0 x1 x2 x3 : Byte) (s : State), s.barOpen (if b then .pf1Msix else .pf0Msix) = true →
    (∀ r ∈ s.bus.reads, r.master ≠ barMaster (if b then .pf1Msix else .pf0Msix)) →
    Yields (.barAccess (if b then .pf1Msix else .pf0Msix) (BitVec.ofNat 26 (16 * k.val + 8))
        (.write [some x0, some x1, some x2, some x3])) s (fun t =>
      t.msixVec ((if b then 64 else 0) + k.val) = { s.msixVec ((if b then 64 else 0) + k.val) with data := x3 ++ x2 ++ x1 ++ x0 } ∧
      Frame [.bus] s t)) ∧
  (∀ (b : Bool) (o n : Nat) (s : State), s.fabricRuns = true → s.bus.posted = [] → s.bus.doorbells = [] →
    s.bus.reads = [{ master := barMaster (if b then .pf1Msix else .pf0Msix), cls := .ordinary, bar := some (if b then .pf1Msix else .pf0Msix), addr := o, len := n }] →
    Yields (.nonpostedReadComplete b) s (fun t => t.bus.reads = [] ∧
      Tab.get (fun _ => []) t.bus.readData (if b then Config.mPf1 else Config.mPf0) =
        (List.range n).map (fun i => s.msixByte b (o + i)) ∧ Frame [.bus] s t))) ∧
  ((∀ (bar : Bar) (off : BitVec 26) (s : State), s.barOpen bar = true → off.toNat < barSize bar →
    Yields (.poisonedInboundWrite bar off) s (fun t => t.evc Blk.chip 3 = s.evc Blk.chip 3 + 1 ∧
      t.evc Blk.pcie 3 = s.evc Blk.pcie 3 + 1 ∧ tget t.bus.aerUncorr 0 = true ∧ Frame [.bus, .regs 0, .regs Blk.pcie] s t)) ∧
  (∀ s : State, Yields .functionLevelReset s (fun t => (∀ c, tget t.bus.pf1Ctx c = false) ∧
    (∀ k, 64 ≤ k → t.msixVec k = {}) ∧ (∀ m, 4 ≤ m → m ≤ 7 → (t.mb m).bound = none) ∧
    (∀ c, c < 32 → tget s.bus.pf1Ctx c = true → (t.ctx c).st ≠ .opened) ∧
    tget t.bus.msixOn 1 = false ∧ tget t.bus.busMaster 1 = false ∧ tget t.bus.barsAssigned 1 = false ∧
    tget t.bus.msixOn 0 = tget s.bus.msixOn 0 ∧ t.aon = s.aon ∧ t.clk = s.clk ∧ t.rst = s.rst)))

/-- A mailbox's way from IDLE to IDLE: the doorbell, the Foreman's copy, the response and its acknowledgement; a doorbell at any
other time is counted and changes nothing (R259 to R263, R268). A command that is not the one a mailbox waits for changes
nothing, and a field out of range is BAD_ARGUMENT with its offset, none of the command's effect taking place (R267, R268). -/
def Obligations.MailboxLifecycle : Prop :=
  ((∀ (m : MbId) (s : State), (s.mb m.val).st = .idle → Yields (.mbDoorbellRing m) s (fun t =>
    t.mb m.val = { s.mb m.val with st := .posted, ringAt := s.clk.now } ∧ (∀ k, k ≠ m.val → t.mb k = s.mb k) ∧ Frame [.fmn] s t)) ∧
  (∀ (m : MbId) (s : State), (s.mb m.val).st ≠ .idle → Yields (.mbDoorbellRing m) s (fun t =>
    t.evc Blk.fmn 2 = s.evc Blk.fmn 2 + 1 ∧ Frame [.regs 5] s t)) ∧
  (∀ (m : MbId) (s : State), (s.mb m.val).st = .posted → s.foremanRuns = true → (s.mb m.val).cancelled = false →
    ((opClass (bytesAt (s.reqArea m.val) 0 2)).isSome = true ∨ bytesAt (s.reqArea m.val) 0 2 = 3) →
    bytesAt (s.reqArea m.val) 0x0A 1 = 3 → s.permitted m.val (s.reqArea m.val) = true → Yields (.mailboxCopy m) s (fun t =>
    (t.mb m.val).st = .working ∧ (t.mb m.val).copy = s.reqArea m.val ∧ (t.mb m.val).ready = true ∧ (t.mb m.val).out = none ∧
    (∀ k, k ≠ m.val → t.mb k = s.mb k) ∧ Frame [.fmn] s t)) ∧
  (∀ (m : MbId) (s : State), (s.mb m.val).st = .posted → s.foremanRuns = true →
    bytesAt (s.reqArea m.val) 0x0A 1 ≠ 3 → Yields (.mailboxCopy m) s (fun t => t.refuses m.val rBadCommand 0 ∧
    (t.mb m.val).ready = false ∧ Frame [.fmn] s t)) ∧
  (∀ (m : MbId) (pct : Fin 100) (r : Resp) (s : State), (s.mb m.val).st = .working → s.foremanRuns = true →
    s.pend Blk.fmn (5 + m.val) = false → (s.mb m.val).out = some r → (s.mb m.val).discard = false → m.val ≠ 8 → m.val ≠ 9 →
    Yields (.mailboxResponsePost m pct) s (fun t => (t.mb m.val).st = .responded ∧ (t.mb m.val).out = none ∧
      t.evc Blk.fmn (5 + m.val) = s.evc Blk.fmn (5 + m.val) + 1 ∧
      (∀ w, w < 64 → t.reg Blk.fmn (mbBase m.val + 0x100 + 4 * w) =
        BitVec.ofNat 32 (bytesAt (responseBytes (s.rqOpcode m.val) (s.rqTag m.val) r) (4 * w) 4)) ∧
      (∀ k, k ≠ m.val → t.mb k = s.mb k) ∧ Frame [.fmn, .regs 5] s t)) ∧
  (∀ (m : MbId) (v : Count16) (s : State), Yields (.mbRespAck m v) s (fun t => t.ackOf Blk.fmn (5 + m.val) = v ∧
    ((s.mb m.val).st = .responded → v = s.evc Blk.fmn (5 + m.val) → (t.mb m.val).st = .idle) ∧
    (v ≠ s.evc Blk.fmn (5 + m.val) → t.fmn = s.fmn) ∧ Frame [.fmn, .regs 5] s t))) ∧
  ((∀ (s : State) (m op : Nat) (ok : Bool) (c : List (Nat × Bool)) (f : State → State), s.rqOpcode m ≠ op → s.command m op ok c f = s) ∧
  (∀ (s : State) (m op o : Nat) (ok : Bool) (c : List (Nat × Bool)) (f : State → State), (s.mb m).st = .working →
    (s.mb m).ready = true → (s.mb m).out = none → s.rqOpcode m = op → s.inTurn m = true →
    badField (s.headerChecks m ok ++ c) = some o →
      (s.command m op ok c f).refuses m rBadArgument o ∧ Frame [.fmn] s (s.command m op ok c f) ∧
      ∀ k, k ≠ m → (s.command m op ok c f).mb k = s.mb k) ∧
  (∀ (c : List (Nat × Bool)) (o : Nat), badField c = some o ↔ ∃ l r, c = l ++ (o, false) :: r ∧ ∀ e ∈ l, e.2 = true) ∧
  (∀ (s : State) (m : Nat) (fields : List (Nat × Nat × Bool)) (i : Nat), i < s.rqLen m → (∀ e ∈ fields, 0x10 + i < e.1 ∨ e.1 + e.2.1 ≤ 0x10 + i) →
    s.rq m (0x10 + i) 1 ≠ 0 → badField (s.fieldChecks m fields) ≠ none))

/-- R261, R281 and R293. A RING written outside IDLE has no effect but its count; LOG_READ answers with the length of the log and up
to 224 bytes from OFFSET; 0x6B written to the watchdog's key restarts the period, any other value counts and forces an expiry. -/
def Obligations.ForemanRules : Prop :=
  (∀ (m : MbId) (s : State), (s.mb m.val).st ≠ .idle → Yields (.mbDoorbellRing m) s (fun t =>
    t.evc Blk.fmn 2 = s.evc Blk.fmn 2 + 1 ∧ (∀ j, j ≠ 2 → j < 32 → t.evc Blk.fmn j = s.evc Blk.fmn j) ∧
    (∀ o, o < 0x10000 → t.reg Blk.fmn o = s.reg Blk.fmn o) ∧ Frame [.regs 5] s t)) ∧
  (∀ (m : MbId) (s : State), s.asks m.val 4 4 [(0x10, 4, true)] → Yields (.logRead m) s (fun t =>
    t.doneWith m.val (leBytes 4 s.logText.length ++ leBytes 4 0 ++ (s.logText.drop (s.rq m.val 0x10 4)).take 224) ∧
    Frame [.fmn] s t)) ∧
  (∀ s : State, Yields (.wdogKick 0x6B) s (fun t => t.fmn.wdogFrom = s.clk.now ∧ Frame [.fmn] s t)) ∧
  (∀ (k : Byte) (s : State), k ≠ 0x6B → Yields (.wdogKick k) s (fun t => t.evc Blk.fmn 4 = s.evc Blk.fmn 4 + 1 ∧
    t.wdogExpires = true ∧ t.fmn.wdogFrom = s.fmn.wdogFrom ∧ Frame [.fmn, .regs 5] s t))

/-- IDENTIFY and LOG_READ: the payload of R278; the record text from OFFSET, at most 224 bytes (R281). PWR_REQUEST: Calm is answered
at once and armed, any other target that R130 admits starts its transition, and a refusal carries its reason; the armed request
is written once PCI Express lets it (R282, R305, R1008). DVFS_POINT: a raise writes VSET and then moves the domain, with no job
running; one that cannot start stops admission and waits; the job wait's end answers BUSY; a write refused twice ends the step
with TIMEOUT and a log record (R203, R283, R1092, R1093). -/
def Obligations.ForemanCommands : Prop :=
  ((∀ (m : MbId) (s : State), s.accepts m.val 1 (s.rqLen m.val == 0) [] → Yields (.identify m) s (fun t =>
    (∃ p, t.doneWith m.val p ∧ p.length = 40 ∧ bytesAt p 0 2 = 0x0960 ∧ bytesAt p 2 2 = 0x00B0 ∧ bytesAt p 8 4 = 3 ∧
      bytesAt p 4 4 = s.rst.image.release % 2 ^ 32 ∧ bytesAt p 13 1 = s.bus.chipId % 256 ∧ bytesAt p 24 1 = m.val ∧
      bytesAt p 32 8 = s.tbNow) ∧ Frame [.fmn] s t)) ∧
  (∀ (m : MbId) (s : State), s.asks m.val 4 4 [(0x10, 4, true)] → Yields (.logRead m) s (fun t =>
    t.doneWith m.val (leBytes 4 s.logText.length ++ leBytes 4 0 ++ (s.logText.drop (s.rq m.val 0x10 4)).take 224) ∧
    Frame [.fmn] s t))) ∧
  ((∀ (m : MbId) (s : State), s.asks m.val 0x0101 1 [(0x10, 1, 1 ≤ s.rq m.val 0x10 1 && s.rq m.val 0x10 1 ≤ 4)] →
    s.fmn.pwrMb = none → s.powerBusy = false → s.aon.moving = none → s.aon.grave = none → s.rq m.val 0x10 1 = 1 →
    Yields (.pwrRequest m) s (fun t => t.doneWith m.val [1, 0] ∧ t.fmn.calmArmed = some s.clk.now ∧ Frame [.fmn] s t)) ∧
  (∀ (m : MbId) (s : State), s.asks m.val 0x0101 1 [(0x10, 1, 1 ≤ s.rq m.val 0x10 1 && s.rq m.val 0x10 1 ≤ 4)] →
    s.powerBusy = false → s.aon.moving = none → s.rq m.val 0x10 1 ≠ 1 → s.pwrReason (s.rq m.val 0x10 1) = none →
    Yields (.pwrRequest m) s (fun t => (t.mb m.val).waiting = true ∧ (t.mb m.val).out = none ∧ t.fmn.pwrMb = some m.val ∧
      t.aon.moving = some (s.rq m.val 0x10 1 - 1) ∧ t.aon.pwr = s.aon.pwr ∧ t.mem = s.mem)) ∧
  (∀ (m : MbId) (r : Nat) (s : State), s.asks m.val 0x0101 1 [(0x10, 1, 1 ≤ s.rq m.val 0x10 1 && s.rq m.val 0x10 1 ≤ 4)] →
    s.powerBusy = false → s.aon.moving = none → s.rq m.val 0x10 1 ≠ 1 → s.pwrReason (s.rq m.val 0x10 1) = some r →
    Yields (.pwrRequest m) s (fun t => t.refuses m.val rStateConflict r ∧ t.evc Blk.aon 3 = s.evc Blk.aon 3 + 1 ∧
      t.aon = s.aon ∧ Frame [.fmn, .regs 1] s t)) ∧
  (∀ (s : State) (n : Nat), s.fmn.calmArmed = some n → s.foremanRuns = true →
    (s.bus.l1sub = 3 ∨ s.rst.perst = true ∨ n + 2000 * tbMs ≤ s.clk.now) → s.pwrReason 1 = none →
    Yields .deferredCalmRequest s (fun t => t.fmn.calmArmed = none ∧ t.aon.moving = some 0 ∧ t.mem = s.mem))) ∧
  ((∀ (m : MbId) (s : State), s.fmn.dvfs = none → s.asks m.val 0x0102 1 [(0x10, 1, s.rq m.val 0x10 1 < 4)] → s.aon.pwr = 3 →
    s.powerBusy = false → s.point < s.rq m.val 0x10 1 → s.dvfsReady = true →
    Yields (.dvfsPoint m true) s (fun t => t.doneWith m.val [] ∧ t.fmn.dvfs = none ∧ t.fmn.admitStopped = false ∧
      t.pins.vset = 600 + 5 * pointVset (s.rq m.val 0x10 1) ∧ t.point = s.rq m.val 0x10 1 ∧
      t.reg Blk.baro 0x110 = BitVec.ofNat 32 (pointThr (s.rq m.val 0x10 1)) ∧ t.mem = s.mem ∧ t.aon = s.aon)) ∧
  (∀ (m : MbId) (a : Bool) (s : State), s.fmn.dvfs = none → s.asks m.val 0x0102 1 [(0x10, 1, s.rq m.val 0x10 1 < 4)] →
    s.aon.pwr = 3 → s.powerBusy = false → s.point ≠ s.rq m.val 0x10 1 → s.dvfsReady = false →
    Yields (.dvfsPoint m a) s (fun t => (t.mb m.val).waiting = true ∧ t.fmn.admitStopped = true ∧
      t.fmn.dvfs = some { mb := m.val, point := s.rq m.val 0x10 1, at0 := s.clk.now } ∧ Frame [.fmn] s t)) ∧
  (∀ (d : DvfsStep) (s : State), s.fmn.dvfs = some d → d.retry = false → s.dvfsReady = false → d.at0 + 5 * tbMs ≤ s.clk.now →
    Yields .dvfsJobWaitTimeout s (fun t => t.refuses d.mb rBusy 0 ∧ t.fmn.dvfs = none ∧ t.fmn.admitStopped = false ∧
      Frame [.fmn] s t)) ∧
  (∀ (d : DvfsStep) (s : State), s.fmn.dvfs = some d → d.retry = true →
    Yields (.pmicWriteRetry false) s (fun t => t.refuses d.mb rTimeout (if s.point < d.point then 1 else 2) ∧
      t.fmn.dvfs = none ∧ t.pins = s.pins ∧ Frame [.fmn] s t)) ∧
  (∀ (d : DvfsStep) (s : State), s.fmn.dvfs = some d → d.retry = true → d.point ≤ s.point →
    Yields (.pmicWriteRetry true) s (fun t => t.doneWith d.mb [] ∧ t.fmn.dvfs = none ∧
      t.pins.vset = 600 + 5 * pointVset d.point ∧ Frame [.fmn, .pins] s t)))

/-- Firmware update: FW_STAGE of an image that passes R228 and is newer, the steps of FW_WRITE_SLOT, FW_RESTART and
FW_COMMIT_ROLLBACK (R287 to R291, R1042). The watchdog: a kick with the key starts the period again, one with another value is
counted and forces an expiry; the warning comes at a quarter of the period; an expiry gives Quench its trip and then the
warm-scope reset with cause 3 (R293 to R297, R302, R1012). -/
def Obligations.FirmwareAndWatchdog : Prop :=
  ((∀ (m : MbId) (s : State) (h : List Byte) (u : State),
    s.asks m.val 0x0B01 8 [(0x10, 8, s.rq m.val 0x10 8 % 4096 == 0 && ingotRange (s.rq m.val 0x10 8) 0x200)] →
    s.stageReason (s.rq m.val 0x10 8) = (8, h, u) →
    (u.rst.image.slot < 2 → u.slotSeq u.rst.image.slot < (parseImage 3 h).seq) →
    Yields (.fwStage m) s (fun t => t.fmn.staged = some (s.rq m.val 0x10 8, h) ∧ (∃ p, t.doneWith m.val p ∧ p.take 1 = [8]) ∧
      t.aon = u.aon ∧ t.pins = u.pins ∧ t.sec = u.sec)) ∧
  (∀ (m : MbId) (s : State) (a : Nat) (h : List Byte), s.accepts m.val 0x0B02 (s.rqLen m.val == 0) [] → s.fmn.slotWrite = none →
    s.fmn.staged = some (a, h) → s.fmn.flashBusy = false → Yields (.fwWriteSlot m) s (fun t => (t.mb m.val).waiting = true ∧
      t.fmn.flashBusy = true ∧ t.fmn.slotWrite = some (m.val, s.targetSlot, 1) ∧ Frame [.fmn] s t)) ∧
  (∀ (m : MbId) (s : State) (a slot : Nat) (h : List Byte), s.fmn.slotWrite = some (m.val, slot, 4) → s.fmn.staged = some (a, h) →
    Yields (.fwWriteSlot m) s (fun t => t.fmn.slotWrite = none ∧ t.fmn.flashBusy = false ∧ t.fmn.staged = none ∧
      t.doneWith m.val (leBytes 1 slot ++ leBytes 3 0 ++ leBytes 4 (bytesAt h 0x1C 4)) ∧ Frame [.fmn, .pins] s t)) ∧
  (∀ (m : MbId) (s : State), s.accepts m.val 0x0B03 (s.rqLen m.val == 0) [] → s.qch.st ≠ .armed →
    (List.range 12).any s.longRuns = false → Yields (.fwRestart m) s (fun t => t.doneWith m.val [] ∧
      t.fmn.restartMb = some m.val ∧ t.rst = s.rst ∧ Frame [.fmn] s t)) ∧
  (∀ (m : MbId) (s : State), s.accepts m.val 0x0B03 (s.rqLen m.val == 0) [] → s.qch.st = .armed →
    Yields (.fwRestart m) s (fun t => t.refuses m.val rStateConflict 1 ∧ Frame [.fmn] s t)) ∧
  (∀ (m : MbId) (s : State), s.accepts m.val 0x0B04 (s.rqLen m.val == 0) [] → s.rst.image.slot ≠ 2 →
    s.sec.otp.rollback < s.rst.image.rollback → Yields (.fwCommitRollback m) s (fun t =>
      t.sec.otp.rollback = min 63 s.rst.image.rollback ∧ t.sec.otp.revoke = s.sec.otp.revoke ||| BitVec.ofNat 4 (2 ^ s.runningKey - 1) ∧
      t.doneWith m.val (leBytes 1 (min 63 s.rst.image.rollback)) ∧ t.sec.keysetDebug = s.sec.keysetDebug ∧ Frame [.fmn, .sec] s t))) ∧
  ((∀ s : State, Yields (.wdogKick 0x6B) s (fun t => t.fmn.wdogFrom = s.clk.now ∧ t.fmn.wdogWarn = false ∧
    t.fmn.mbs = s.fmn.mbs ∧ Frame [.fmn] s t)) ∧
  (∀ (k : Byte) (s : State), k ≠ 0x6B → Yields (.wdogKick k) s (fun t => t.fmn.wdogFrom = s.fmn.wdogFrom ∧ t.wdogExpires = true ∧
    t.evc Blk.fmn 4 = s.evc Blk.fmn 4 + 1 ∧ Frame [.fmn, .regs 5] s t)) ∧
  (∀ s : State, s.wdogOn = true → s.aon.pwr ≠ 0 → s.fmn.wdogWarn = false → 4 * s.wdogLeft ≤ s.wdogPeriod →
    Yields .wdogWarn s (fun t => t.fmn.wdogWarn = true ∧ t.evc Blk.fmn 3 = s.evc Blk.fmn 3 + 1 ∧
      t.fmn.wdogFrom = s.fmn.wdogFrom ∧ Frame [.fmn, .regs 5] s t)) ∧
  (∀ s : State, (s.wdogExpires = true ∨ s.rst.wdogDue = true) → s.rst.rom ≠ .halted → Yields .watchdogExpiry s (fun t =>
    fld (t.reg Blk.rst 0x100) 0 3 = 3 ∧ t.evc Blk.rst 3 = s.evc Blk.rst 3 + 1 ∧ t.rst.wdogDue = false ∧ t.rst.rom = .start ∧
    t.fmn = {} ∧ t.queues = [] ∧ t.mem = {} ∧ t.aon.grave = s.aon.grave ∧ t.aon.cal = s.aon.cal ∧ t.clk.now = s.clk.now ∧
    t.aon.pwr = 1)))

/-- QUEUE_PUSH: with enough credits the push waits to take effect; without, or with a COUNT outside 1 to 16, it is a credit
violation: nothing is pushed and CREDIT_VIOL counts (R315, R317). Pops, drops, arming and returned credits: OCCUPANCY falls by
the entries removed, CREDITS rise only when they are returned, and the other queues stay (R314, R319 to R321). -/
def Obligations.QueueTransfers : Prop :=
  ((∀ (q : QueueId) (m : MasterId) (n : Fin 32) (f l : Bool) (s : State), s.qEn q.val = true → s.frozen = false →
    (s.queue q.val).push = none → 1 ≤ n.val → n.val ≤ 16 → n.val ≤ s.credits q.val →
    Yields (.queuePush q m n f l) s (fun t =>
      t.queue q.val = { s.queue q.val with push := some { count := n.val, first := f, last := l, master := m.toNat } } ∧
      (∀ k, k ≠ q.val → t.queue k = s.queue k) ∧ Frame [.queues] s t)) ∧
  (∀ (q : QueueId) (m : MasterId) (n : Fin 32) (f l : Bool) (s : State), s.qEn q.val = true → s.frozen = false →
    (s.queue q.val).push = none → s.qOwned q.val = false → (n.val = 0 ∨ 16 < n.val ∨ s.credits q.val < n.val) →
    Yields (.queuePush q m n f l) s (fun t =>
      (t.queue q.val).occ = (s.queue q.val).occ ∧ (t.queue q.val).viol = true ∧ (t.queue q.val).pushed = 0 ∧
      t.evc Blk.que 2 = s.evc Blk.que 2 + 1 ∧ Frame [.queues, .regs 6] s t)) ∧
  (∀ (q : QueueId) (p : PushReq) (d : List Byte) (s : State), s.frozen = false → (s.queue q.val).push = some p →
    1 ≤ p.count → p.count ≤ 16 → p.count ≤ s.qDepth q.val → (s.queue q.val).dropping = false → d.length = 64 * p.count →
    s.readMem Config.mQue .ordinary 0 (s.qLanding q.val) (64 * p.count) = (d, .ok, s) →
    Yields (.pushTakesEffect q false) s (fun t =>
      (t.queue q.val).occ = (s.queue q.val).occ + p.count ∧ (t.queue q.val).head = (s.queue q.val).head ∧
      (t.queue q.val).flags = (s.queue q.val).flags ++ (List.range p.count).map (fun i =>
        (p.first && i == 0, p.last && i + 1 == p.count)) ∧ (t.queue q.val).pushed = p.count ∧ (t.queue q.val).push = none ∧
      (∀ i j, i < p.count → j < 64 → t.mbyte (s.qSlot q.val ((s.queue q.val).tail + i) + j) = (d[64 * i + j]?).getD 0) ∧
      (∀ a, (∀ i, i < p.count → a < s.qSlot q.val ((s.queue q.val).tail + i) ∨ s.qSlot q.val ((s.queue q.val).tail + i) + 64 ≤ a) →
        t.mbyte a = s.mbyte a) ∧ (∀ k, k ≠ q.val → t.queue k = s.queue k) ∧ Frame [.queues, .mem] s t))) ∧
  ((∀ (q : QueueId) (n : Fin 8192) (s : State), s.qEn q.val = true → Yields (.queuePop q n false false) s (fun t =>
    (t.queue q.val).occ = (s.queue q.val).occ - n.val ∧ (t.queue q.val).removed = min n.val (s.queue q.val).occ ∧
    (t.queue q.val).flags = (s.queue q.val).flags.drop (min n.val (s.queue q.val).occ) ∧
    ((s.queue q.val).occ + (s.queue q.val).freed ≤ s.qDepth q.val → t.credits q.val = s.credits q.val) ∧
    (∀ k, k ≠ q.val → t.queue k = s.queue k) ∧ Frame [.queues] s t)) ∧
  (∀ (q : QueueId) (s : State), s.qEn q.val = true → Yields (.dropPacket q false false) s (fun t =>
    (t.queue q.val).occ = (s.queue q.val).occ - uptoLast (s.queue q.val).flags ∧
    ((s.queue q.val).flags.any (fun e => e.2) = false → (t.queue q.val).dropping = true) ∧
    (∀ k, k ≠ q.val → t.queue k = s.queue k) ∧ Frame [.queues] s t)) ∧
  (∀ (q : QueueId) (s : State), s.qEn q.val = true → Yields (.queueArm q) s (fun t =>
    ((s.queue q.val).flags.any (fun e => e.2) = false → (t.queue q.val).armed = true) ∧
    ((s.queue q.val).flags.any (fun e => e.2) = true → s.qPf1 q.val = true →
      (t.queue q.val).armed = false ∧ tget t.rf.msixDue (64 + s.qCtx q.val) = true) ∧
    (t.queue q.val).occ = (s.queue q.val).occ ∧ (t.queue q.val).flags = (s.queue q.val).flags ∧ Frame [.queues] s t)) ∧
  (∀ (q : QueueId) (s : State), Yields (.creditReturn q) s (fun t => t.credits q.val = s.qDepth q.val - (s.queue q.val).occ ∧
    t.queue q.val = { s.queue q.val with freed := 0 } ∧ (∀ k, k ≠ q.val → t.queue k = s.queue k) ∧ Frame [.queues] s t)))

/-- What stands in a queue is what has been pushed and not removed: the entries' flags are as many as OCCUPANCY, and the queue's own
commands keep it so. A queue reset discards the contents and advances EPOCH; a pointer mismatch is one, counted as its own event
(R324, R325, R334); the reset's record is due to a context's queue (R327). -/
def Obligations.QueueCounts : Prop :=
  (∀ (c : Instr) (s t : State), (∃ q n a x, c = .queuePop q n a x) ∨ (∃ q a x, c = .dropPacket q a x) ∨ (∃ q, c = .queueArm q) ∨
      (∃ q, c = .creditReturn q) ∨ (∃ q, c = .queueResetCmd q) →
    (∀ q, (s.queue q).flags.length = (s.queue q).occ) → exec c s = .next t → ∀ q, (t.queue q).flags.length = (t.queue q).occ) ∧
  ((∀ (q : QueueId) (s : State), Yields (.queueResetCmd q) s (fun t => (t.queue q.val).occ = 0 ∧ (t.queue q.val).flags = [] ∧
    (t.queue q.val).epoch = ((s.queue q.val).epoch + 1) % 65536 ∧ (t.queue q.val).push = none ∧ t.credits q.val = t.qDepth q.val ∧
    t.qEn q.val = s.qEn q.val ∧ t.evc Blk.que 4 = s.evc Blk.que 4 + 1 ∧ (∀ k, k ≠ q.val → t.queue k = s.queue k) ∧
    (q.val < 64 → s.qEn q.val = true → t.sch.resetDue = s.sch.resetDue ++ [(q.val, (s.queue q.val).occ)]) ∧
    (64 ≤ q.val → t.sch = s.sch) ∧ Frame [.queues, .sch, .regs 6] s t)) ∧
  (∀ (q : QueueId) (n : Fin 8192) (s : State), s.qEn q.val = true → Yields (.queuePop q n false true) s (fun t =>
    (t.queue q.val).occ = 0 ∧ (t.queue q.val).removed = 0 ∧ (t.queue q.val).epoch = ((s.queue q.val).epoch + 1) % 65536 ∧
    t.evc Blk.que 3 = s.evc Blk.que 3 + 1 ∧ Frame [.queues, .sch, .regs 6] s t)) ∧
  (∀ (c : CtxId) (n : Nat) (s : State), s.frozen = false → s.sch.resetDue = [(2 * c.val, n)] → (s.ctx c.val).notices = [] →
    s.noticeCredit c.val = true → s.qEn (qComp c.val) = true → (s.queue (qComp c.val)).dropping = false →
    Yields (.queueResetRecord c) s (fun t => t.sch.resetDue = [] ∧
      (t.queue (qComp c.val)).occ = (s.queue (qComp c.val)).occ + 1 ∧ (t.ctx c.val).seq = ((s.ctx c.val).seq + 1) % 65536 ∧
      t.mbytes (s.qSlot (qComp c.val) (s.queue (qComp c.val)).tail) 2 = [1, BitVec.ofNat 8 stQueueReset] ∧
      Frame [.queues, .sch, .mem] s t)) ∧
  (∀ (m : MbId) (s : State), s.asks m.val 0x0310 2 [(0x10, 1, decide (108 ≤ s.rq m.val 0x10 1 ∧ s.rq m.val 0x10 1 ≤ 127)),
      (0x11, 1, decide (s.rq m.val 0x11 1 < 2)), (0x12, 0x0E, true)] → s.rq m.val 0x11 1 = 1 →
    s.qEn (s.rq m.val 0x10 1) = true → (∀ k, k < 4 → s.fbcTxq k ≠ s.rq m.val 0x10 1) → s.fsu.st = 0 →
    (∀ e, e < 32 → s.entProtected e = false) →
    Yields (.queueConfig m) s (fun t => t.doneWith m.val [] ∧ t.qEn (s.rq m.val 0x10 1) = false ∧
      (t.queue (s.rq m.val 0x10 1)).occ = 0 ∧ t.mem = s.mem ∧ t.sch = s.sch ∧ t.aon = s.aon)) ∧
  (∀ (m : MbId) (u : State) (s : State), s.asks m.val 0x0310 0x10
      [(0x10, 1, decide (108 ≤ s.rq m.val 0x10 1 ∧ s.rq m.val 0x10 1 ≤ 127)), (0x11, 1, decide (s.rq m.val 0x11 1 < 2)),
       (0x12, 1, true), (0x13, 1, 4 ≤ s.rq m.val 0x13 1 && s.rq m.val 0x13 1 ≤ 12), (0x14, 1, s.rq m.val 0x14 1 < 3),
       (0x15, 1, s.rq m.val 0x15 1 == 0),
       (0x18, 8, s.rq m.val 0x18 8 % 4096 == 0 && ingotRange (s.rq m.val 0x18 8) (64 * 2 ^ s.rq m.val 0x13 1 + 1024))] →
    s.rq m.val 0x11 1 = 0 → s.rq m.val 0x12 1 = 0xFF → s.qEn (s.rq m.val 0x10 1) = false →
    s.coverAreas (ownerKind 0xFF) (ownerId 0xFF) (queueAreas (s.rq m.val 0x18 8) (s.rq m.val 0x13 1) true [.device]
      [if s.rq m.val 0x14 1 = 2 then .fsu else .device]) = some u →
    Yields (.queueConfig m) s (fun t => t.doneWith m.val [] ∧ t.qEn (s.rq m.val 0x10 1) = true ∧
      t.qDepth (s.rq m.val 0x10 1) = 2 ^ s.rq m.val 0x13 1 ∧ t.qRing (s.rq m.val 0x10 1) = s.rq m.val 0x18 8 ∧
      t.credits (s.rq m.val 0x10 1) = 2 ^ s.rq m.val 0x13 1 ∧ t.qOwned (s.rq m.val 0x10 1) = false ∧ t.mem = s.mem)))

/-- CTX_OPEN, CTX_CLOSE, CTX_REOPEN and CTX_WINDOW: the state of the context, its queues and windows (R284, R285, R485, R508, R514).
FLASK_BUILD, FLASK_SLICES, FLASK_DISSOLVE and REGULATOR_SET (R487, R507, R509 to R512). -/
def Obligations.ContextsAndFlasks : Prop :=
  ((∀ (m : MbId) (u : State) (s : State), (
      let q := fun o n => s.rq m.val o n
      s.asks m.val 0x0201 0x10
        [(0x10, 1, q 0x10 1 < 32 || q 0x10 1 == 0xFF), (0x11, 1, q 0x11 1 < 2),
         (0x12, 1, q 0x12 1 == 0 || (q 0x11 1 == 1 && 4 ≤ q 0x12 1 && q 0x12 1 ≤ 7)), (0x14, 1, 4 ≤ q 0x14 1 && q 0x14 1 ≤ 12),
         (0x15, 1, 4 ≤ q 0x15 1 && q 0x15 1 ≤ 12),
         (0x18, 8, q 0x18 8 % 4096 == 0 &&
           ingotRange (q 0x18 8 + 4096 * cdiv (64 * 2 ^ q 0x14 1 + 1024) 4096) (64 * 2 ^ q 0x15 1))]) →
    s.rq m.val 0x10 1 < 32 → s.rq m.val 0x11 1 = 0 → s.rq m.val 0x12 1 = 0 → (s.ctx (s.rq m.val 0x10 1)).st = .closed →
    s.coverAreas 0 (s.rq m.val 0x10 1) (queueAreas (s.rq m.val 0x18 8) (s.rq m.val 0x14 1) true [.pf0, .jobs] [.device] ++
      queueAreas (s.rq m.val 0x18 8 + 4096 * cdiv (64 * 2 ^ s.rq m.val 0x14 1 + 1024) 4096) (s.rq m.val 0x15 1) false [] [.pf0]) = some u →
    Yields (.ctxOpen m) s (fun t => t.doneWith m.val (leBytes 1 (s.rq m.val 0x10 1)) ∧ (t.ctx (s.rq m.val 0x10 1)).st = .opened ∧
      (t.ctx (s.rq m.val 0x10 1)).lastStatus = (s.ctx (s.rq m.val 0x10 1)).lastStatus ∧ (t.ctx (s.rq m.val 0x10 1)).staged = [] ∧
      t.qEn (2 * s.rq m.val 0x10 1) = true ∧ t.qEn (2 * s.rq m.val 0x10 1 + 1) = true ∧
      t.qDepth (2 * s.rq m.val 0x10 1) = 2 ^ s.rq m.val 0x14 1 ∧ t.qDepth (2 * s.rq m.val 0x10 1 + 1) = 2 ^ s.rq m.val 0x15 1 ∧
      (∀ c, c ≠ s.rq m.val 0x10 1 → t.ctx c = s.ctx c) ∧ t.mem = s.mem ∧ t.aon = s.aon)) ∧
  (∀ (m : MbId) (s : State), s.asks m.val 0x0202 1 [(0x10, 1, s.rq m.val 0x10 1 < 32)] →
    (s.ctx (s.rq m.val 0x10 1)).st = .opened → (s.ctx (s.rq m.val 0x10 1)).closing = none → s.ctxFlasks (s.rq m.val 0x10 1) = [] →
    (s.ctx (s.rq m.val 0x10 1)).staged = [] → (s.ctx (s.rq m.val 0x10 1)).heldRecs = [] →
    (s.queue (2 * s.rq m.val 0x10 1)).flags = [] → (∀ e, e < 32 → s.entProtected e = false) →
    Yields (.ctxClose m) s (fun t => t.doneWith m.val [] ∧ (t.ctx (s.rq m.val 0x10 1)).st = .closed ∧
      t.qEn (2 * s.rq m.val 0x10 1) = false ∧ t.qEn (2 * s.rq m.val 0x10 1 + 1) = false ∧
      (∀ w, w < 8 → t.winValid (s.rq m.val 0x10 1) w = false) ∧ (∀ c, c ≠ s.rq m.val 0x10 1 → t.ctx c = s.ctx c) ∧
      t.mem = s.mem ∧ t.aon = s.aon)) ∧
  (∀ (m : MbId) (s : State), s.asks m.val 0x0203 1 [(0x10, 1, s.rq m.val 0x10 1 < 32)] →
    (s.ctx (s.rq m.val 0x10 1)).st = .faulted → (s.ctx (s.rq m.val 0x10 1)).closing = none →
    Yields (.ctxReopen m) s (fun t => t.doneWith m.val [] ∧ t.ctx (s.rq m.val 0x10 1) = { s.ctx (s.rq m.val 0x10 1) with
        st := .opened, flushLeft := (s.queue (2 * s.rq m.val 0x10 1)).occ } ∧
      (∀ c, c ≠ s.rq m.val 0x10 1 → t.ctx c = s.ctx c) ∧ Frame [.fmn, .sch] s t)) ∧
  (∀ (m : MbId) (s : State), (
      let q := fun o n => s.rq m.val o n
      s.accepts m.val 0x0301 (0x14 ≤ s.rqLen m.val && s.rqLen m.val ≤ 240)
        ([(0x0C, decide (q 0x0C 1 < 32))] ++ s.fieldChecks m.val
          [(0x10, 1, q 0x10 1 < 8), (0x11, 1, q 0x11 1 < 2), (0x12, 1, q 0x12 1 < 4 && (!(q 0x11 1 == 0) || q 0x12 1 != 0)),
           (0x18, 8, !(q 0x11 1 == 0) || (q 0x18 8 % 4096 == 0 && s.windowRange (q 0x18 8) (q 0x20 4 * 4096))),
           (0x20, 4, !(q 0x11 1 == 0) || (1 ≤ q 0x20 4 && q 0x20 4 ≤ 65536))])) →
    s.rq m.val 0x11 1 = 0 → (s.ctx (s.rq m.val 0x0C 1)).st = .opened →
    s.windowClash (s.rq m.val 0x0C 1) (s.rq m.val 0x18 8) (s.rq m.val 0x20 4 * 4096) (bit (s.rq m.val 0x12 1) 1) = false →
    s.ctxFlasks (s.rq m.val 0x0C 1) = [] → Yields (.ctxWindow m) s (fun t => t.doneWith m.val [] ∧
      t.winValid (s.rq m.val 0x0C 1) (s.rq m.val 0x10 1) = true ∧ t.winLo (s.rq m.val 0x0C 1) (s.rq m.val 0x10 1) = s.rq m.val 0x18 8 ∧
      t.winLen (s.rq m.val 0x0C 1) (s.rq m.val 0x10 1) = s.rq m.val 0x20 4 * 4096 ∧
      t.winWrite (s.rq m.val 0x0C 1) (s.rq m.val 0x10 1) = bit (s.rq m.val 0x12 1) 1 ∧
      t.winRead (s.rq m.val 0x0C 1) (s.rq m.val 0x10 1) = bit (s.rq m.val 0x12 1) 0 ∧ Frame [.fmn, .regs 7] s t)) ∧
  (∀ (m : MbId) (s : State), (
      let q := fun o n => s.rq m.val o n
      s.accepts m.val 0x0301 (0x14 ≤ s.rqLen m.val && s.rqLen m.val ≤ 240)
        ([(0x0C, decide (q 0x0C 1 < 32))] ++ s.fieldChecks m.val
          [(0x10, 1, q 0x10 1 < 8), (0x11, 1, q 0x11 1 < 2), (0x12, 1, q 0x12 1 < 4 && (!(q 0x11 1 == 0) || q 0x12 1 != 0)),
           (0x18, 8, !(q 0x11 1 == 0) || (q 0x18 8 % 4096 == 0 && s.windowRange (q 0x18 8) (q 0x20 4 * 4096))),
           (0x20, 4, !(q 0x11 1 == 0) || (1 ≤ q 0x20 4 && q 0x20 4 ≤ 65536))])) →
    s.rq m.val 0x11 1 = 1 → (s.ctx (s.rq m.val 0x0C 1)).st = .opened → s.ctxFlasks (s.rq m.val 0x0C 1) = [] →
    Yields (.ctxWindow m) s (fun t => t.doneWith m.val [] ∧
      t.winValid (s.rq m.val 0x0C 1) (s.rq m.val 0x10 1) = false ∧ Frame [.fmn, .regs 7] s t))) ∧
  ((∀ (m : MbId) (s : State), s.asks m.val 0x0302 0x10 [(0x10, 1, s.rq m.val 0x10 1 < 8),
      (0x18, 8, s.rq m.val 0x18 8 != 0 && s.rq m.val 0x18 8 < 2 ^ 48)] → (s.flask (s.rq m.val 0x10 1)).built = false →
    (∀ n, n < 48 → bit (s.rq m.val 0x18 8) n = true → s.flaskOf n = none) → Yields (.flaskBuild m) s (fun t =>
      t.doneWith m.val [] ∧ t.flask (s.rq m.val 0x10 1) = { built := true, mask := s.rq m.val 0x18 8 } ∧
      (∀ n, n < 48 → bit (s.rq m.val 0x18 8) n = true → t.flaskOf n = some (s.rq m.val 0x10 1)) ∧
      (∀ f, f ≠ s.rq m.val 0x10 1 → t.flask f = s.flask f) ∧ Frame [.fmn, .sch, .regs 7] s t)) ∧
  (∀ (m : MbId) (s : State), s.asks m.val 0x0303 3 [(0x10, 1, decide (s.rq m.val 0x10 1 < 8)),
      (0x11, 1, decide (s.rq m.val 0x11 1 ≤ 16)), (0x12, 1, decide (s.rq m.val 0x12 1 < 2))] → s.rq m.val 0x11 1 = 0 →
    (s.flask (s.rq m.val 0x10 1)).built = true → (s.flask (s.rq m.val 0x10 1)).n ≠ 0 → s.aon.pwr = 3 →
    Yields (.flaskSlices m) s (fun t => t.doneWith m.val [] ∧
      (t.flask (s.rq m.val 0x10 1)).staged = some ((s.lentEntries (s.rq m.val 0x10 1)).take 16, s.rq m.val 0x12 1) ∧
      (t.flask (s.rq m.val 0x10 1)).n = (s.flask (s.rq m.val 0x10 1)).n ∧ Frame [.fmn, .sch] s t)) ∧
  (∀ (m : MbId) (s : State), s.asks m.val 0x0304 1 [(0x10, 1, s.rq m.val 0x10 1 < 8)] →
    (s.flask (s.rq m.val 0x10 1)).built = true → (s.flask (s.rq m.val 0x10 1)).running = none →
    s.lentFlask (s.rq m.val 0x10 1) = false → (∀ c, c < 32 → s.headJob c (s.rq m.val 0x10 1) = none) →
    Yields (.flaskDissolve m) s (fun t => t.doneWith m.val [] ∧ t.flask (s.rq m.val 0x10 1) = {} ∧
      (∀ n, n < 48 → t.flaskOf n ≠ some (s.rq m.val 0x10 1)) ∧ Frame [.fmn, .sch, .regs 7] s t)) ∧
  (∀ (m : MbId) (s : State), s.asks m.val 0x0305 0x0C
      [(0x10, 1, s.rq m.val 0x10 1 < 10), (0x11, 1, s.rq m.val 0x11 1 < 3), (0x12, 1, s.rq m.val 0x12 1 < 2),
       (0x14, 4, s.rq m.val 0x14 4 ≤ 1048575), (0x18, 4, 1024 ≤ s.rq m.val 0x18 4 && s.rq m.val 0x18 4 ≤ 1048575)] →
    s.rq m.val 0x12 1 = 0 → (∀ r, r < 10 → ∀ k, k < 3 → s.bucketRate r k ≤ 300) → Yields (.regulatorSet m) s (fun t => t.doneWith m.val [] ∧
      t.bucketRate (s.rq m.val 0x10 1) (s.rq m.val 0x11 1) = 0 ∧ nget t.sch.used (4 * s.rq m.val 0x10 1 + s.rq m.val 0x11 1) = 0 ∧
      Frame [.fmn, .sch, .regs 7] s t)))

/-- Admission, start and commit of a job: the owner of the slice entry offers its oldest staged job, admitted when BUDGET and 8 µs
fit; its commit frees the flask and counts (R493, R494, R497, R518, R549). Kills, aborts and teardown: the end of BUDGET and an
abort end the job at once, a context whose job is killed is torn down, and a context whose teardown is complete is FAULTED with
its notice (R496, R498, R500, R521). -/
def Obligations.Jobs : Prop :=
  ((∀ (f : FlaskId) (j : Job) (s : State), s.frozen = false → s.aon.pwr = 3 → (s.flask f.val).built = true → (s.flask f.val).n ≠ 0 →
    (s.flask f.val).running = none → s.flaskHalted f.val = false → s.offered f.val = some j → s.fits f.val j = true →
    j.ctx < 32 → s.admits j.ctx = true → j.barrier = false → Yields (.jobAdmit f) s (fun t =>
      (t.flask f.val).running = some { job := j } ∧ (t.ctx j.ctx).staged = (s.ctx j.ctx).staged.erase j ∧
      (∀ g, g ≠ f.val → t.flask g = s.flask g) ∧ (∀ c, c ≠ j.ctx → t.ctx c = s.ctx c) ∧ Frame [.sch] s t)) ∧
  (∀ (f : FlaskId) (r : Running) (s : State), (s.flask f.val).running = some r → r.started = false → s.frozen = false →
    Yields (.jobStart f) s (fun t => (t.flask f.val).running = some { r with started := true, tbStart := s.clk.now } ∧
      (∀ g, g ≠ f.val → t.flask g = s.flask g) ∧ Frame [.sch] s t)) ∧
  (∀ (f : FlaskId) (r : Running) (s : State), (s.flask f.val).running = some r → r.job.ctx < 32 → s.frozen = false →
    s.finished r = true → r.ended = none → r.aborts = [] → s.epochDue r.job.ctx = false → s.credits (qComp r.job.ctx) ≠ 0 →
    s.qEn (qComp r.job.ctx) = true → (s.queue (qComp r.job.ctx)).dropping = false → (∀ c, c < 32 → (s.ctx c).zeroLeft = []) →
    s.fsu.lent = none → Yields (.jobCommit f) s (fun t => (t.flask f.val).running = none ∧ t.evc Blk.sch 2 = s.evc Blk.sch 2 + 1 ∧
      (t.queue (qComp r.job.ctx)).occ = (s.queue (qComp r.job.ctx)).occ + 1 ∧ (t.ctx r.job.ctx).lastJob = some (r.job.jobId % 2 ^ 32) ∧
      (t.ctx r.job.ctx).st = (s.ctx r.job.ctx).st ∧
      t.mbytes (s.qSlot (qComp r.job.ctx) (s.queue (qComp r.job.ctx)).tail) 2 = [0, 0])) ∧
  (∀ (c : CtxId) (s : State), s.frozen = false → (s.ctx c.val).st = .opened → (s.ctx c.val).closing = none →
    (s.ctx c.val).flushLeft = 0 → (s.ctx c.val).staged.length < 16 → s.recordCredit c.val = true → s.headRun (2 * c.val) ≠ 0 →
    s.qEn (qComp c.val) = true → s.epochDue c.val = false → (s.queue (qComp c.val)).dropping = false →
    Yields (.jobStage c) s (fun t => (t.queue (2 * c.val)).occ = (s.queue (2 * c.val)).occ - s.headRun (2 * c.val) ∧
      (t.queue (qComp c.val)).occ = (s.queue (qComp c.val)).occ + 1 ∧
      t.mbytes (s.qSlot (qComp c.val) (s.queue (qComp c.val)).tail) 2 = [0, BitVec.ofNat 8 stDescriptor]))) ∧
  ((∀ (m : MbId) (f : Nat) (r : Running) (s : State), s.accepts m.val 0x0306 (4 ≤ s.rqLen m.val && s.rqLen m.val ≤ 240)
      ([(0x0C, decide (s.rq m.val 0x0C 1 < 32))] ++ s.fieldChecks m.val [(0x10, 4, true)]) →
    s.ctxFlasks (s.rq m.val 0x0C 1) = [f] → (s.flask f).running = some r → r.job.jobId = s.rq m.val 0x10 4 →
    Yields (.abortJob m) s (fun t => (t.mb m.val).waiting = true ∧ (t.mb m.val).out = none ∧
      (t.flask f).running = some { r with abort := true, aborts := r.aborts ++ [m.val] } ∧ Frame [.fmn, .sch] s t)) ∧
  (∀ (f : FlaskId) (r : Running) (s : State), (s.flask f.val).running = some r → r.abort = true → s.frozen = false →
    Yields (.abortStop f) s (fun t => (t.flask f.val).running = none ∧ t.evc Blk.sch 4 = s.evc Blk.sch 4 + 1 ∧
      t.evc Blk.sch 2 = s.evc Blk.sch 2 + 1 ∧ t.aon = s.aon ∧ t.clk = s.clk)) ∧
  (∀ (f : FlaskId) (r : Running) (s : State), (s.flask f.val).running = some r → r.started = true → s.frozen = false →
    s.finished r = false → r.tbStart + r.job.budget * tbUs ≤ s.clk.now → r.job.ctx < 32 → (s.ctx r.job.ctx).st = .opened →
    Yields (.budgetKill f) s (fun t => (t.flask f.val).running = none ∧ t.evc Blk.sch 3 = s.evc Blk.sch 3 + 1 ∧
      (t.ctx r.job.ctx).st = .teardown ∧ (t.ctx r.job.ctx).lastStatus = stBudget ∧ t.aon = s.aon ∧ t.clk = s.clk)) ∧
  (∀ (c : CtxId) (s : State), (s.ctx c.val).st = .teardown → (s.ctx c.val).zeroLeft = [] → s.frozen = false →
    Yields (.teardownComplete c) s (fun t => (t.ctx c.val).st = .faulted ∧ t.evc Blk.sch 5 = s.evc Blk.sch 5 + 1 ∧
      (∀ k, k ≠ c.val → t.ctx k = s.ctx k) ∧ Frame [.sch, .regs 7, .queues, .mem] s t)) ∧
  (∀ (c : CtxId) (b : List Byte) (l : List (List Byte)) (s : State), s.frozen = false → s.epochDue c.val = false →
    (s.ctx c.val).heldRecs = [] → (s.ctx c.val).notices = b :: l → s.noticeCredit c.val = true → s.qEn (qComp c.val) = true →
    (s.queue (qComp c.val)).dropping = false → Yields (.noticePlace c) s (fun t => (t.ctx c.val).notices = l ∧
      (t.queue (qComp c.val)).occ = (s.queue (qComp c.val)).occ + 1 ∧ (t.ctx c.val).seq = ((s.ctx c.val).seq + 1) % 65536 ∧
      Frame [.sch, .queues, .mem] s t)) ∧
  (∀ (f : FlaskId) (s : State), s.aon.pwr = 3 → (s.flask f.val).built = true → (s.flask f.val).n ≠ 0 →
    (s.flask f.val).entryEnd ≤ s.clk.now → (s.flask f.val).staged = none → Yields (.sliceEntryEnd f) s (fun t =>
      (t.flask f.val).entry = ((s.flask f.val).entry + 1) % (s.flask f.val).n ∧
      (t.flask f.val).entryFrom = (s.flask f.val).entryEnd ∧ (t.flask f.val).running = (s.flask f.val).running ∧
      (∀ g, g ≠ f.val → t.flask g = s.flask g) ∧ Frame [.sch] s t)))

/-- R977: the braking distance in exact integer arithmetic, saturating at 65 535. -/
def Obligations.BrakingDistance : Prop :=
  ∀ (s : State) (v : Nat), 0 < s.qAMin →
    (s.brakeDist v : ℚ) = min 65535 ((s.qDMargin : ℚ) + ⌈((2 * s.qAMin * v * s.qTReact + 1000 * v ^ 2 : ℚ) / (2000 * s.qAMin))⌉)

/-- QCH_ENVELOPE and QCH_MASKS: accepted in DISARMED and TRIPPED, their payloads standing in QCH_CFG; refused with DETAIL 1 in ARMED
and GRAVE (R987). QCH_ARM, QCH_DISARM, QCH_RESUME and QCH_SELFTEST with their refusals (R986, R988 to R991). -/
def Obligations.QuenchCommands : Prop :=
  ((∀ (m : MbId) (s : State), s.accepts m.val 0x0802 (s.rqLen m.val == 8)
      [(0x11, 3 ≤ s.rq m.val 0x11 1 && s.rq m.val 0x11 1 ≤ 50), (0x12, 100 ≤ s.rq m.val 0x12 2), (0x16, s.rq m.val 0x16 2 ≤ 1000)] →
    (s.qch.st = .disarmed ∨ s.qch.st = .tripped) → Yields (.qchEnvelope m) s (fun t => t.doneWith m.val [] ∧ t.qch.envDone = true ∧
      t.qTReact = s.rq m.val 0x10 1 ∧ t.qOdomTimeout = s.rq m.val 0x11 1 ∧ t.qAMin = s.rq m.val 0x12 2 ∧
      t.qDMargin = s.rq m.val 0x14 2 ∧ t.qVIdle = s.rq m.val 0x16 2 ∧ t.qch.st = s.qch.st ∧ Frame [.fmn] s t)) ∧
  (∀ (m : MbId) (s : State), s.accepts m.val 0x0802 (s.rqLen m.val == 8)
      [(0x11, 3 ≤ s.rq m.val 0x11 1 && s.rq m.val 0x11 1 ≤ 50), (0x12, 100 ≤ s.rq m.val 0x12 2), (0x16, s.rq m.val 0x16 2 ≤ 1000)] →
    (s.qch.st = .armed ∨ s.qch.st = .grave) → s.quenchClear → Yields (.qchEnvelope m) s (fun t =>
      t.refuses m.val rStateConflict 1 ∧ t.qch = s.qch ∧ (∀ o, t.reg Blk.qch o = s.reg Blk.qch o) ∧ Frame [.fmn] s t)) ∧
  (∀ (m : MbId) (s : State), s.accepts m.val 0x0803 (s.rqLen m.val == 0x3C)
      (([(0x16, s.rq m.val 0x16 1 < 16), (0x1A, s.rq m.val 0x1A 2 == 0)] : List (Nat × Bool)) ++
        (List.range 16).map (fun i => (0x1C + i, s.rq m.val (0x1C + i) 1 != 0)) ++
        (List.range 8).map (fun i =>
          (0x2C + 4 * i, matcherOk (s.rq m.val (0x2C + 4 * i) 1) (s.rq m.val (0x2D + 4 * i) 1) (s.rq m.val (0x2E + 4 * i) 2)))) →
    (s.qch.st = .disarmed ∨ s.qch.st = .tripped) → Yields (.qchMasks m) s (fun t => t.doneWith m.val [] ∧ t.qch.masksDone = true ∧
      t.fwdMask = s.rq m.val 0x10 2 ∧ t.stopSegs = s.rq m.val 0x16 1 ∧ (∀ i, i < 16 → t.staleMs i = s.rq m.val (0x1C + i) 1) ∧
      (∀ i, i < 8 → t.matcherKind i = s.rq m.val (0x2C + 4 * i) 1 ∧ t.matcherId i = s.rq m.val (0x2E + 4 * i) 2 ∧
        (t.matcher i).seen = false) ∧ t.qch.st = s.qch.st ∧ Frame [.fmn] s t))) ∧
  ((∀ (m : MbId) (r : BitVec 6) (s : State), s.accepts m.val 0x0804 (s.rqLen m.val == 0) [] → s.qch.st = .disarmed → s.aon.pwr ≠ 0 →
    s.qConfigured = true → (∃ i, i < 8 ∧ s.matcherKind i = 2) → (s.qch.selftestOk = true ∨ r = 0x3F) → s.causes = 0 →
    Yields (.qchArm m r) s (fun t => t.doneWith m.val [] ∧ t.qch.st = .armed ∧ t.qch.tripCause = 0 ∧ t.qch.clearLeft = 2 ∧
      Frame [.fmn] s t)) ∧
  (∀ (m : MbId) (r : BitVec 6) (s : State), s.accepts m.val 0x0804 (s.rqLen m.val == 0) [] → s.qch.st = .disarmed → s.aon.pwr ≠ 0 →
    s.qConfigured = true → (∃ i, i < 8 ∧ s.matcherKind i = 2) → (s.qch.selftestOk = true ∨ r = 0x3F) → s.causes ≠ 0 →
    Yields (.qchArm m r) s (fun t => t.answers m.val { code := rStateConflict, detail := 1, payload := leBytes 4 s.causes } ∧
      t.qch.st = .disarmed ∧ Frame [.fmn] s t)) ∧
  (∀ (m : MbId) (s : State), s.accepts m.val 0x0805 (s.rqLen m.val == 0) [] → (s.qch.st = .armed ∨ s.qch.st = .tripped) →
    Yields (.qchDisarm m) s (fun t => t.doneWith m.val [] ∧ t.qch.st = .disarmed ∧ t.pairRun = false ∧ t.fbcs = s.fbcs ∧
      Frame [.fmn] s t)) ∧
  (∀ (m : MbId) (s : State), s.accepts m.val 0x0805 (s.rqLen m.val == 0) [] → s.qch.st = .grave →
    Yields (.qchDisarm m) s (fun t => t.refuses m.val rStateConflict 3 ∧ t.qch.st = .grave ∧ Frame [.fmn] s t)) ∧
  (∀ (m : MbId) (s : State), s.accepts m.val 0x0806 (s.rqLen m.val == 0) [] → s.qch.st = .tripped → s.causes = 0 →
    Yields (.qchResume m) s (fun t => t.doneWith m.val [] ∧ t.qch.st = .armed ∧ t.evc Blk.qch 3 = s.evc Blk.qch 3 + 1 ∧
      Frame [.fmn] s t)) ∧
  (∀ (m : MbId) (s : State), s.accepts m.val 0x0806 (s.rqLen m.val == 0) [] → s.qch.st = .tripped → s.causes ≠ 0 →
    Yields (.qchResume m) s (fun t => t.answers m.val { code := rStateConflict, detail := 1, payload := leBytes 4 s.causes } ∧
      t.qch.st = .tripped ∧ t.evc Blk.qch 8 = s.evc Blk.qch 8 + 1 ∧ Frame [.fmn] s t)) ∧
  (∀ (m : MbId) (r : BitVec 6) (s : State), s.accepts m.val 0x0807 (s.rqLen m.val == 0) [] → s.qch.st = .disarmed →
    (r = 0x3F → Yields (.qchSelftest m r) s (fun t => t.doneWith m.val [0x3F] ∧ t.qch = { s.qch with selftestOk := true } ∧
      Frame [.fmn] s t)) ∧
    (r ≠ 0x3F → Yields (.qchSelftest m r) s (fun t => t.answers m.val { code := rStateConflict, detail := 6, payload := [BitVec.ofNat 8 r.toNat] } ∧
      t.qch = s.qch ∧ Frame [.fmn] s t))))

/-- R979 and R980: a write of RESUME in TRIPPED with no cause present enters ARMED, any other is counted as refused; a write of TRIP
in ARMED trips Quench with cause 9; an enabled CLIFF pin at its trip level trips it with cause 1. -/
def Obligations.QuenchTripsAndResumes : Prop :=
  (∀ s : State, s.qch.st = .tripped → s.causes = 0 → Yields .qchResumeWrite s (fun t => t.qch.st = .armed ∧
    t.evc Blk.qch 3 = s.evc Blk.qch 3 + 1 ∧ t.evc Blk.qch 8 = s.evc Blk.qch 8 ∧ Frame [] s t)) ∧
  (∀ s : State, (s.qch.st ≠ .tripped ∨ s.causes ≠ 0) → s.quenchClear → Yields .qchResumeWrite s (fun t => t.qch = s.qch ∧
    t.evc Blk.qch 8 = s.evc Blk.qch 8 + 1 ∧ t.fbcs = s.fbcs ∧ Frame [] s t)) ∧
  (∀ s : State, s.qch.st = .armed → s.quenchClear → Yields .qchTripWrite s (fun t => t.qch.st = .tripped ∧ t.pairRun = false ∧
    t.qch.tripCause = 9 ∧ fld (t.reg Blk.qch 0x108) 0 4 = 9 ∧ t.reg Blk.qch 0x10C = BitVec.ofNat 32 s.tbNow ∧
    t.evc Blk.qch 2 = s.evc Blk.qch 2 + 1 ∧ Frame [] s t)) ∧
  (∀ s : State, s.qch.st ≠ .armed → Yields .qchTripWrite s (fun t => t.qch = s.qch ∧ t.fbcs = s.fbcs ∧ Frame [] s t)) ∧
  (∀ (j : Fin 8) (h : Bool) (s : State), Yields (.cliffPinChange j h) s (fun t =>
    t.qch.cliff.toNat.testBit j.val = (h == bit s.cliffPol j.val) ∧
    (∀ i, i < 8 → i ≠ j.val → t.qch.cliff.toNat.testBit i = s.qch.cliff.toNat.testBit i) ∧
    (s.qch.st = .armed → bit s.cliffEn j.val = true → h = bit s.cliffPol j.val → t.qch.st = .tripped ∧ t.qch.tripCause = 1 ∧
      t.evc Blk.qch 2 = s.evc Blk.qch 2 + 1) ∧ Frame [] s t))

/-- The snooped frames and their time-outs: a matched ODOM or CLIFF frame is held with its instant, a sector turns stale, a matcher
with no frame is timed out; where that makes a cause present in ARMED, Quench trips (R977, R978, R987). -/
def Obligations.QuenchInputs : Prop :=
  (∀ (k : SegId) (f : CanFrame) (i : Nat) (s : State), i < 8 → s.matches i k.val f = true → s.matcherKind i = 2 →
    bytesAt f.data 0 2 ≠ 0x8000 → Yields (.odomSnoop k f) s (fun t => t.matcher i = { s.matcher i with
      seen := true, speed := sgn 16 (bytesAt f.data 0 2), arrived := s.clk.now, timedOut := false } ∧
      (t.qch.st = .armed → t.causes = 0) ∧ t.qch.sectors = s.qch.sectors ∧ Frame [] s t)) ∧
  (∀ (k : SegId) (f : CanFrame) (i : Nat) (s : State), i < 8 → s.matches i k.val f = true → s.matcherKind i = 1 →
    Yields (.cliffSnoop k f) s (fun t => (t.matcher i).kind = bytesAt f.data 0 1 ∧ (t.matcher i).arrived = s.clk.now ∧
      (t.matcher i).timedOut = false ∧ (t.matcher i).hit = (bytesAt f.data 1 1 != 0 || bytesAt f.data 3 1 % 2 == 1) ∧
      (s.qch.st = .armed → (t.matcher i).hit = true → t.qch.st = .tripped) ∧ Frame [] s t)) ∧
  (∀ (i : SectorId) (s : State), (s.sector i.val).stale = false → s.staleMs i.val * tbMs ≤ s.clk.now - (s.sector i.val).pubAt →
    Yields (.sectorStale i) s (fun t => t.sector i.val = { s.sector i.val with stale := true } ∧
      t.evc Blk.qch 6 = s.evc Blk.qch 6 + 1 ∧ (t.qch.st = .armed → t.causes = 0) ∧ Frame [] s t)) ∧
  (∀ (i : Fin 8) (s : State), s.matcherKind i.val = 2 → s.qOdomTimeout * tbMs ≤ s.clk.now - (s.matcher i.val).arrived →
    Yields (.odomTimeout i) s (fun t => t.matcher i.val = { s.matcher i.val with timedOut := true } ∧
      (s.qch.st = .armed → t.qch.st = .tripped) ∧ Frame [] s t)) ∧
  (∀ (i : Fin 8) (s : State), s.matcherKind i.val = 1 → 60 * tbMs ≤ s.clk.now - (s.matcher i.val).arrived →
    Yields (.cliffMatcherTimeout i) s (fun t => t.matcher i.val = { s.matcher i.val with timedOut := true } ∧
      (s.qch.st = .armed → t.qch.st = .tripped) ∧ Frame [] s t))

/-- STOP and CLEAR rounds, and the readback: a round writes and requests buffer 0 on each STOP segment, STOP_SEQ advancing for a
STOP frame; a mismatch in RUN makes cause 10 present, one with QP high and QN low in SAFE is Class G (R981, R983 to R985). -/
def Obligations.QuenchFramesAndReadback : Prop :=
  (∀ (k : Nat) (s : State), s.qch.st = .tripped → 50 * tbMs ≤ s.clk.now - s.qch.roundAt → k < 4 →
    Yields .stopFrameRepeat s (fun t => t.qch.roundAt = s.tbNow ∧ t.qch.st = .tripped ∧
      (bit s.stopSegs k = true → s.fbcSends k = true → (t.fbc k).txReq.toNat.testBit 0 = true ∧
        nget t.qch.stopSeq k = (nget s.qch.stopSeq k + 1) % 65536 ∧ (t.msgBuf k 0).idw = 1 ∧
        (t.msgBuf k 0).data = leBytes 1 0x5A ++ leBytes 1 s.qch.tripCause ++ leBytes 2 (nget s.qch.stopSeq k) ++ leBytes 4 s.tripTb) ∧
      ((bit s.stopSegs k && s.fbcSends k) = false → t.fbc k = s.fbc k ∧ nget t.qch.stopSeq k = nget s.qch.stopSeq k) ∧ Frame [] s t)) ∧
  (∀ (k : Nat) (s : State), s.qch.st = .armed → s.quenchClear → 0 < s.qch.clearLeft → 10 * tbMs ≤ s.clk.now - s.qch.roundAt → k < 4 →
    Yields .clearFrameSend s (fun t => t.qch.roundAt = s.tbNow ∧ t.qch.st = .armed ∧ t.qch.clearLeft = s.qch.clearLeft - 1 ∧
      t.qch.stopSeq = s.qch.stopSeq ∧ (bit s.stopSegs k = true → s.fbcSends k = true → (t.fbc k).txReq.toNat.testBit 0 = true ∧
        (t.msgBuf k 0).idw = 1 ∧ (t.msgBuf k 0).data = leBytes 1 0xA5 ++ leBytes 1 0 ++ leBytes 2 (nget s.qch.stopSeq k) ++ leBytes 4 0) ∧
      Frame [] s t)) ∧
  (∀ (p n : Bool) (s : State), s.pairRun = true → s.quenchClear → Yields (.readbackMismatch p n) s (fun t => t.qch.st = .tripped ∧
    t.qch.tripCause = 10 ∧ t.qch.readback = true ∧ t.evc Blk.qch 5 = s.evc Blk.qch 5 + 1 ∧ Frame [] s t)) ∧
  (∀ s : State, s.pairRun = false → Yields (.readbackMismatch true false) s (fun t => t.qch.st = .grave ∧
    (s.aon.grave = none → t.aon.grave = some 6) ∧ (s.aon.grave ≠ none → t.aon.grave = s.aon.grave) ∧
    t.evc Blk.qch 5 = s.evc Blk.qch 5 + 1)) ∧
  (∀ s : State, s.pairRun = false → Yields .readbackMatch s (fun t => t.qch.readback = false ∧ (s.qch.st ≠ .armed → t.qch.st = s.qch.st) ∧
    Frame [] s t)) ∧
  (∀ s : State, Yields .diverseMismatch s (fun t => t.qch.st = .grave ∧ t.pairRun = false ∧ (s.aon.grave = none → t.aon.grave = some 5) ∧
    (s.aon.grave ≠ none → t.aon.grave = s.aon.grave) ∧ t.mem = s.mem ∧ t.clk = s.clk ∧ t.rst = s.rst))

/-- FBC_START, FBC_STOP, FBC_REJOIN and the stop's time-out (R902 to R904, R914). FBC_CONFIG of a firmware-owned controller in
classical mode: the queues are enabled empty with their depths, the filters are those of the records, the request stands in the
configuration registers, the controller stays OFF (R899, R901). -/
def Obligations.ControllerCommands : Prop :=
  ((∀ (m : MbId) (s : State), s.asks m.val 0x0702 1 [(0x10, 1, s.rq m.val 0x10 1 < 4)] → (s.fbc (s.rq m.val 0x10 1)).st = .off →
    (s.fbc (s.rq m.val 0x10 1)).configured = true → s.busOnPll = true → s.quenchClear → Yields (.fbcStart m) s (fun t =>
      t.doneWith m.val [] ∧ t.fbc (s.rq m.val 0x10 1) = { s.fbc (s.rq m.val 0x10 1) with st := .integrating, tecCnt := 0, recCnt := 0 } ∧
      (∀ k, k ≠ s.rq m.val 0x10 1 → t.fbc k = s.fbc k) ∧ t.qch = s.qch ∧ Frame [.fmn] s t)) ∧
  (∀ (m : MbId) (b : Bool) (s : State), s.asks m.val 0x0703 3
      [(0x10, 1, s.rq m.val 0x10 1 < 4), (0x11, 1, s.rq m.val 0x11 1 < 2), (0x12, 1, s.rq m.val 0x12 1 < 2)] →
    (s.fbc (s.rq m.val 0x10 1)).st ≠ .off → (s.fbc (s.rq m.val 0x10 1)).stopping = none → s.rq m.val 0x11 1 = 0 →
    ((s.fbc (s.rq m.val 0x10 1)).attempt ≠ none ∨ b = true) → s.quenchClear → Yields (.fbcStop m b) s (fun t =>
      (t.mb m.val).waiting = true ∧ (t.mb m.val).out = none ∧ (t.fbc (s.rq m.val 0x10 1)).st = (s.fbc (s.rq m.val 0x10 1)).st ∧
      (t.fbc (s.rq m.val 0x10 1)).stopping = some (m.val, s.rq m.val 0x12 1 == 1) ∧
      (t.fbc (s.rq m.val 0x10 1)).stopAt = s.clk.now ∧ Frame [.fmn] s t)) ∧
  (∀ (m : MbId) (b : Bool) (s : State), s.asks m.val 0x0703 3
      [(0x10, 1, s.rq m.val 0x10 1 < 4), (0x11, 1, s.rq m.val 0x11 1 < 2), (0x12, 1, s.rq m.val 0x12 1 < 2)] →
    (s.fbc (s.rq m.val 0x10 1)).st ≠ .off → (s.fbc (s.rq m.val 0x10 1)).stopping = none → s.rq m.val 0x11 1 = 1 →
    s.rq m.val 0x12 1 = 0 → s.quenchClear → Yields (.fbcStop m b) s (fun t => t.doneWith m.val [] ∧ (t.fbc (s.rq m.val 0x10 1)).st = .off ∧
      (t.fbc (s.rq m.val 0x10 1)).fifo = [] ∧ (t.fbc (s.rq m.val 0x10 1)).attempt = none ∧ t.aon = s.aon ∧ t.clk = s.clk)) ∧
  (∀ (k : SegId) (m : Nat) (s : State), (s.fbc k.val).stopping = some (m, false) → (s.fbc k.val).stopAt + 5 * tbMs ≤ s.clk.now →
    s.quenchClear → Yields (.fbcStopTimeout k) s (fun t => t.answers m { code := rDone, detail := 1, progress := 100 } ∧ (t.fbc k.val).st = .off ∧
      (t.fbc k.val).fifo = [] ∧ (t.fbc k.val).stopping = none)) ∧
  (∀ (m : MbId) (s : State), s.asks m.val 0x0704 1 [(0x10, 1, s.rq m.val 0x10 1 < 4)] → (s.fbc (s.rq m.val 0x10 1)).st = .busOff →
    s.quenchClear → Yields (.fbcRejoin m) s (fun t => t.doneWith m.val [] ∧
      t.fbc (s.rq m.val 0x10 1) = { s.fbc (s.rq m.val 0x10 1) with st := .recovering, recov := 0 } ∧ Frame [.fmn] s t))) ∧
  (∀ (m : MbId) (u : State) (s : State), (
      let q := fun o n => s.rq m.val o n
      let rng := fun v lo hi => decide (lo ≤ v ∧ v ≤ hi)
      let b2 := nextPage (q 0x28 4 + 64 * 2 ^ q 0x22 1)
      let b3 := nextPage (b2 + 64 * 2 ^ q 0x23 1)
      s.asks m.val 0x0701 0x20
        [(0x10, 1, q 0x10 1 < 4), (0x11, 1, q 0x11 1 == 0xFF), (0x12, 1, q 0x12 1 < 5), (0x13, 1, q 0x13 1 == 0),
         (0x14, 1, rng (q 0x14 1) 1 32 && rng (q 0x14 1 * (1 + q 0x16 2 + q 0x18 1)) 80 640),
         (0x15, 1, rng (q 0x15 1) 1 128 && q 0x15 1 ≤ q 0x18 1), (0x16, 2, rng (q 0x16 2) 2 256), (0x18, 1, rng (q 0x18 1) 1 128),
         (0x19, 1, true), (0x1A, 1, true), (0x1B, 1, true), (0x1C, 1, true), (0x1D, 1, true),
         (0x1E, 1, rng (q 0x1E 1) 1 64), (0x1F, 1, rng (q 0x1F 1) 108 127), (0x20, 1, q 0x20 1 == 0), (0x21, 1, q 0x21 1 == 0),
         (0x22, 1, rng (q 0x22 1) 4 12), (0x23, 1, rng (q 0x23 1) 4 12), (0x24, 1, rng (q 0x24 1) 4 12),
         (0x28, 4, q 0x28 4 % 4096 == 0 && ingotRange (q 0x28 4) (b3 + 64 * 2 ^ q 0x24 1 + 1024 - q 0x28 4)),
         (0x2C, 4, q 0x2C 4 % 16 == 0 && ingotRange (q 0x2C 4) 0)] ∧
      s.coverAreas 1 0 (queueAreas (q 0x28 4) (q 0x22 1) false [.device] [.device] ++
        queueAreas b2 (q 0x23 1) false [.device] [.device] ++ queueAreas b3 (q 0x24 1) true [.device] [.device]) = some u) →
    s.readMem Config.mForeman .secure 0 (s.rq m.val 0x2C 4) 0 = ([], .ok, s) →
    (s.fbc (s.rq m.val 0x10 1)).st = .off → (s.fbc (s.rq m.val 0x10 1)).configured = false → s.busOnPll = true →
    s.qEn (s.rq m.val 0x1F 1) = false → s.quenchClear → Yields (.fbcConfig m) s (fun t => t.doneWith m.val [] ∧
      (t.fbc (s.rq m.val 0x10 1)).configured = true ∧ (t.fbc (s.rq m.val 0x10 1)).owned = true ∧
      (t.fbc (s.rq m.val 0x10 1)).filters = [] ∧ (t.fbc (s.rq m.val 0x10 1)).st = .off ∧
      t.qEn (64 + 2 * s.rq m.val 0x10 1) = true ∧ t.qDepth (64 + 2 * s.rq m.val 0x10 1) = 2 ^ s.rq m.val 0x22 1 ∧
      t.qEn (65 + 2 * s.rq m.val 0x10 1) = true ∧ t.qDepth (65 + 2 * s.rq m.val 0x10 1) = 2 ^ s.rq m.val 0x23 1 ∧
      t.qEn (s.rq m.val 0x1F 1) = true ∧ t.qDepth (s.rq m.val 0x1F 1) = 2 ^ s.rq m.val 0x24 1 ∧
      (t.queue (s.rq m.val 0x1F 1)).occ = 0 ∧ t.mem = s.mem ∧ t.aon = s.aon))

/-- Transmission: requests and aborts of the dedicated buffers, the pop of a frame into the FIFO, arbitration by identifier, the end
of a dedicated attempt with and without an error (R881, R883 to R888). Reception and error confinement: a frame that a filter
sends to the receive queue takes a pool buffer and is delivered with a SEQ; bus errors, bus-off, recovery after 128 sequences,
protocol exception and restricted operation (R876, R880, R889 to R897). -/
def Obligations.BusFrames : Prop :=
  ((∀ (k : SegId) (b : BitVec 8) (s : State), s.quenchClear → Yields (.txbRequest k b) s (fun t =>
    t.fbc k.val = { s.fbc k.val with
      txReq := (s.fbc k.val).txReq ||| b, txDone := (s.fbc k.val).txDone &&& ~~~b
      txAborted := (s.fbc k.val).txAborted &&& ~~~b } ∧ (∀ j, j ≠ k.val → t.fbc j = s.fbc j) ∧ t.qch = s.qch ∧ Frame [] s t)) ∧
  (∀ (k : SegId) (b : BitVec 8) (s : State), s.quenchClear → (s.fbc k.val).attempt = none → Yields (.txbAbort k b) s (fun t =>
    (t.fbc k.val).txReq = (s.fbc k.val).txReq &&& ~~~b ∧
    (t.fbc k.val).txAborted = (s.fbc k.val).txAborted ||| ((s.fbc k.val).txReq &&& b) ∧
    (∀ j, j ≠ k.val → t.fbc j = s.fbc j) ∧ t.qch = s.qch ∧ Frame [] s t)) ∧
  (∀ (k : SegId) (s : State), s.quenchClear → s.fbcLive k.val = true → (s.fbc k.val).configured = true → (s.fbc k.val).owned = true →
    (s.fbc k.val).failed = false → s.qEn (s.fbcTxq k.val) = true → (s.fbc k.val).fifo.length + (s.fbc k.val).abortWait.length < s.credits (65 + 2 * k.val) →
    (s.queue (s.fbcTxq k.val)).flags.head? = some (true, true) → bytesAt (s.qEntry (s.fbcTxq k.val) 0) 7 1 = 0 →
    (s.fbc k.val).fifo.length < s.fbcTxf k.val → entryOk (s.qEntry (s.fbcTxq k.val) 0) 1 (s.fbcFlag k.val 0) = true →
    Yields (.txqPop k) s (fun t =>
      let l := s.qEntry (s.fbcTxq k.val) 0
      (t.fbc k.val).fifo = (s.fbc k.val).fifo ++
        [{ frame := entryFrame l, oneShot := bit (bytesAt l 4 1) 3, tag := BitVec.ofNat 32 (bytesAt l 8 4) }] ∧
      (t.queue (s.fbcTxq k.val)).occ = (s.queue (s.fbcTxq k.val)).occ - 1 ∧ t.qch = s.qch ∧ Frame [.queues] s t)) ∧
  (∀ (k : SegId) (src : TxSource) (x : CanFrame) (s : State), s.quenchClear → s.fbcLive k.val = true → s.fbcSends k.val = true →
    (s.fbc k.val).pex = false → (s.fbc k.val).attempt = none → (s.fbc k.val).stopping = none → bestOf (s.txOffers k.val) = some (src, x) →
    Yields (.txArbitration k false) s (fun t => (t.fbc k.val).attempt = some src ∧
      (t.fbc k.val).onBus = some { x with esi := x.fdf && (s.fbc k.val).passive } ∧
      (∀ e, e ∈ s.txOffers k.val → busKey x.idw ≤ busKey e.2.idw) ∧ t.qch = s.qch ∧ Frame [] s t)) ∧
  (∀ (k : SegId) (b : Fin 8) (x : CanFrame) (ago loop : Nat) (fine : Fin 40) (d : BitVec 7) (s : State), s.fbcLive k.val = true →
    (s.fbc k.val).st = .running → (s.fbc k.val).stopping = none → (s.fbc k.val).failed = false → (s.fbc k.val).attempt = some (.dedicated b.val) →
    (s.fbc k.val).onBus = some x → x.brs = false → b.val ≠ 0 → b.val ≠ 1 → b.val ≠ 6 → s.fbcMode k.val ≠ 3 → s.fbcMode k.val ≠ 4 →
    Yields (.txConfirm k ago fine loop d) s (fun t => (t.fbc k.val).attempt = none ∧ (t.fbc k.val).onBus = none ∧
      (t.fbc k.val).txDone.toNat.testBit b.val = true ∧ (t.fbc k.val).tecCnt = (s.fbc k.val).tecCnt - 1 ∧ Frame [] s t)) ∧
  (∀ (k : SegId) (b : Fin 8) (x : CanFrame) (d : BitVec 7) (s : State), s.quenchClear → s.fbcLive k.val = true →
    (s.fbc k.val).stopping = none → (s.fbc k.val).failed = false → (s.fbc k.val).attempt = some (.dedicated b.val) → (s.fbc k.val).onBus = some x →
    x.brs = false → s.fbcFlag k.val 3 = false → (s.fbc k.val).txAbortDue.toNat.testBit b.val = false →
    Yields (.txAttemptFail k d) s (fun t => (t.fbc k.val).attempt = none ∧ (t.fbc k.val).txReq = (s.fbc k.val).txReq ∧
      (t.fbc k.val).txDone = (s.fbc k.val).txDone ∧ t.qch = s.qch ∧ Frame [] s t))) ∧
  ((∀ (k : SegId) (f : CanFrame) (ago b : Nat) (fine : Fin 40) (e : Filter) (l : List Filter) (s : State), s.quenchClear → s.qch.st ≠ .armed →
    s.fbcLive k.val = true → (s.fbc k.val).st = .running → (s.fbc k.val).pex = false → s.fbcMode k.val = 0 → (f.fdf = true → s.fbcFlag k.val 0 = true) →
    (s.fbc k.val).stopping = none → (s.fbc k.val).recCnt ≤ 127 → (s.fbc k.val).filters = e :: l → e.hits f = true → e.dest = 1 →
    (s.fbc k.val).owned = true → s.freeBuf k.val (16 + s.fbcTxf k.val) 128 = some b →
    Yields (.frameReceived k f ago fine) s (fun t => (t.fbc k.val).rxOrder = (s.fbc k.val).rxOrder ++ [b] ∧
      Tab.get (fun _ => none) (t.fbc k.val).rx b = some { frame := f, filter := 0, ts := s.clk.now - ago, fine := fine.val } ∧
      (t.fbc k.val).recCnt = (s.fbc k.val).recCnt - 1 ∧ Frame [] s t)) ∧
  (∀ (k : SegId) (b : Nat) (r : List Nat) (x : RxBuf) (s : State), s.quenchClear → s.isHalted (fbcBlk k.val) = false → s.frozen = false →
    (s.fbc k.val).failed = false → (s.fbc k.val).owned = true → (s.fbc k.val).rxOrder = b :: r → Tab.get (fun _ => none) (s.fbc k.val).rx b = some x →
    x.frame.data.length ≤ 40 → 1 ≤ s.credits (64 + 2 * k.val) → s.qEn (64 + 2 * k.val) = true → s.ringOk (64 + 2 * k.val) 1 = true →
    (s.queue (64 + 2 * k.val)).dropping = false → Yields (.rxqDelivery k false) s (fun t =>
      (t.queue (64 + 2 * k.val)).occ = (s.queue (64 + 2 * k.val)).occ + 1 ∧ (t.fbc k.val).rxOrder = r ∧
      (t.fbc k.val).rxSeq = ((s.fbc k.val).rxSeq + 1) % 65536 ∧ Tab.get (fun _ => none) (t.fbc k.val).rx b = none ∧
      t.mbytes (s.qSlot (64 + 2 * k.val) (s.queue (64 + 2 * k.val)).tail) 4 = leBytes 4 x.frame.idw.toNat ∧
      t.evc (fbcBlk k.val) 2 = s.evc (fbcBlk k.val) 2 + 1 ∧ t.qch = s.qch ∧ Frame [.queues, .mem] s t)) ∧
  (∀ (k : SegId) (c : Fin 7) (d : Bool) (s : State), s.quenchClear → s.fbcLive k.val = true → (s.fbc k.val).st = .running →
    (s.fbc k.val).pex = false → c ≠ 0 → s.fbcMode k.val ≠ 1 → (s.fbc k.val).attempt ≠ none → 247 < (s.fbc k.val).tecCnt →
    s.fbcFlag k.val 2 = false → Yields (.busError k c d 3) s (fun t => (t.fbc k.val).st = .busOff ∧
      (t.fbc k.val).tecCnt = (s.fbc k.val).tecCnt + 8 ∧ t.evc (fbcBlk k.val) 5 = s.evc (fbcBlk k.val) 5 + 1 ∧
      t.evc (fbcBlk k.val) 7 = s.evc (fbcBlk k.val) 7 + 1 ∧ t.qch = s.qch ∧ Frame [] s t)) ∧
  (∀ (k : SegId) (c : Fin 7) (d : Bool) (s : State), s.quenchClear → s.fbcLive k.val = true → (s.fbc k.val).st = .running →
    (s.fbc k.val).pex = false → c ≠ 0 → s.fbcMode k.val ≠ 1 → (s.fbc k.val).attempt ≠ none →
    Yields (.busError k c d 1) s (fun t => (t.fbc k.val).st = (if 255 < (s.fbc k.val).tecCnt then (if s.fbcFlag k.val 2 then .recovering else .busOff) else .running) ∧
      (t.fbc k.val).recCnt = min 255 ((s.fbc k.val).recCnt + 1) ∧ (t.fbc k.val).tecCnt = (s.fbc k.val).tecCnt ∧ Frame [] s t)) ∧
  (∀ (k : SegId) (n : Fin 129) (s : State), s.quenchClear → s.fbcLive k.val = true → (s.fbc k.val).st = .recovering →
    Yields (.recovered k n) s (fun t => (128 ≤ (s.fbc k.val).recov + n.val → (t.fbc k.val).st = .running ∧ (t.fbc k.val).tecCnt = 0 ∧
        (t.fbc k.val).recCnt = 0 ∧ t.evc (fbcBlk k.val) 8 = s.evc (fbcBlk k.val) 8 + 1) ∧
      ((s.fbc k.val).recov + n.val < 128 → t.fbc k.val = { s.fbc k.val with recov := (s.fbc k.val).recov + n.val }) ∧ t.qch = s.qch ∧ Frame [] s t)) ∧
  (∀ (k : SegId) (s : State), s.quenchClear → s.fbcLive k.val = true → (s.fbc k.val).st = .integrating → Yields (.fbcIntegration k) s (fun t =>
    t.fbc k.val = { s.fbc k.val with st := .running } ∧ t.qch = s.qch ∧ Frame [] s t)) ∧
  (∀ (k : SegId) (s : State), s.quenchClear → s.fbcLive k.val = true → (s.fbc k.val).st = .running → (s.fbc k.val).pex = false →
    s.fbcFlag k.val 1 = true → Yields (.protocolException k) s (fun t => t.fbc k.val = { s.fbc k.val with pex := true } ∧
      t.evc (fbcBlk k.val) 9 = s.evc (fbcBlk k.val) 9 + 1 ∧ t.qch = s.qch ∧ Frame [] s t)) ∧
  (∀ (k : SegId) (s : State), s.quenchClear → s.fbcLive k.val = true → (s.fbc k.val).pex = true → (s.fbc k.val).stopping = none →
    Yields (.pexResume k) s (fun t => t.fbc k.val = { s.fbc k.val with pex := false } ∧ t.qch = s.qch ∧ Frame [] s t)) ∧
  (∀ (k : SegId) (s : State), s.quenchClear → s.fbcLive k.val = true → (s.fbc k.val).attempt = none → Yields (.restrictionChange k) s (fun t =>
    t.fbc k.val = { s.fbc k.val with restricted := s.targetFault 9 } ∧ t.qch = s.qch ∧ Frame [] s t)))

/-- REGION_SET, REGION_CLEAR and SCRUB_CFG (R663, R669, R670, R672). The scrubber and the injection: a step of clean lines only
moves on, one sweep and then the other; an armed injection inverts what it names at the next full write of its word (R662 to
R666, R683). -/
def Obligations.RegionsAndScrubber : Prop :=
  ((∀ (m : MbId) (s : State), (
      let q := fun o n => s.rq m.val o n
      s.asks m.val 0x0401 0x14
        [(0x10, 1, q 0x10 1 < 32 || q 0x10 1 == 0xFF), (0x11, 1, s.ctxOpen (q 0x11 1)), (0x12, 1, q 0x12 1 &&& 0x8C == 0),
         (0x14, 2, true), (0x16, 2, true),
         (0x18, 8, q 0x18 8 % 4096 == 0 && (ingotRange (q 0x18 8) (q 0x20 4 * 4096) || hearthRange (q 0x18 8) (q 0x20 4 * 4096))),
         (0x20, 4, 1 ≤ q 0x20 4 && q 0x20 4 ≤ 24576)]) →
    s.rq m.val 0x10 1 < 32 → s.entValid (s.rq m.val 0x10 1) = false →
    s.regionClash (s.rq m.val 0x11 1) (s.rq m.val 0x18 8) (s.rq m.val 0x20 4) = false → Yields (.regionSet m) s (fun t =>
      let e := s.rq m.val 0x10 1
      t.doneWith m.val (leBytes 1 e) ∧ t.entValid e = true ∧ t.entManaged e = false ∧ t.entBase e = s.rq m.val 0x18 8 ∧
      t.entPages e = s.rq m.val 0x20 4 ∧ t.entKind e = 0 ∧ t.entId e = s.rq m.val 0x11 1 ∧
      (∀ g, g < 16 → bit (t.entRights e).toNat g = bit (s.rq m.val 0x14 2) g ∧ bit (t.entRights e).toNat (16 + g) = bit (s.rq m.val 0x16 2) g) ∧
      (∀ i, i < 32 → i ≠ e → t.entOwner i = s.entOwner i ∧ t.entBase i = s.entBase i) ∧ Frame [.fmn, .regs 8] s t)) ∧
  (∀ (m : MbId) (s : State), s.asks m.val 0x0402 1 [(0x10, 1, s.rq m.val 0x10 1 < 32)] → s.entValid (s.rq m.val 0x10 1) = true →
    s.entManaged (s.rq m.val 0x10 1) = false → s.ctxFlasks (s.entId (s.rq m.val 0x10 1)) = [] → Yields (.regionClear m) s (fun t =>
      t.doneWith m.val [] ∧ t.entValid (s.rq m.val 0x10 1) = false ∧
      (s.entProtected (s.rq m.val 0x10 1) = false → t.mem = s.mem) ∧
      (∀ a, s.entProtected (s.rq m.val 0x10 1) = true → s.entCovers (s.rq m.val 0x10 1) a = true → t.mbyte a = 0) ∧
      Frame [.fmn, .mem, .regs 8] s t)) ∧
  (∀ (m : MbId) (s : State), s.asks m.val 0x0403 2 [(0x10, 2, 10 ≤ s.rq m.val 0x10 2 && s.rq m.val 0x10 2 ≤ 6000)] →
    Yields (.scrubCfg m) s (fun t => t.doneWith m.val (leBytes 4 (scrubInterval (s.rq m.val 0x10 2))) ∧
      t.reg Blk.mem 0x140 = BitVec.ofNat 32 (s.rq m.val 0x10 2) ∧
      t.reg Blk.mem 0x14C = BitVec.ofNat 32 (scrubInterval (s.rq m.val 0x10 2)) ∧ Frame [.fmn, .regs 8] s t))) ∧
  ((∀ s : State, s.aon.pwr ≠ 0 → s.mem.scrubOdd = false → s.mem.scrubPos < scrubLines → (∀ a, s.chkAt a = 0) → Yields .scrubStep s (fun t =>
    t.mem.scrubPos = (s.mem.scrubPos + 1) % scrubLines ∧ t.mem.scrubOdd = true ∧ t.mem.bytes = s.mem.bytes ∧ t.mem.chk = s.mem.chk ∧
    t.evc Blk.mem 2 = s.evc Blk.mem 2 ∧ Frame [.mem, .regs 8] s t)) ∧
  (∀ s : State, Yields .errorInjectArm s (fun t => t.mem = { s.mem with injArmed := true } ∧ Frame [.mem] s t)) ∧
  (∀ (s : State) (m a : Nat) (l : List Byte), s.mem.injArmed = true → a % 8 = 0 → l.length = 8 →
    (s.reg Blk.mem 0x160).toNat + (s.reg Blk.mem 0x164).toNat * 2 ^ 32 = a → fld (s.reg Blk.mem 0x168) 8 8 = 3 →
    fld (s.reg Blk.mem 0x168) 16 8 = 0xFF → fld (s.reg Blk.mem 0x168) 0 8 = 0 → inRom a = false →
    (s.demandWrite m a l).2.mem.injArmed = false ∧ (s.demandWrite m a l).2.mbyte a = (l[0]?).getD 0 ^^^ 8 ∧
    ((s.demandWrite m a l).2.demandRead m a 8).2.1 = false ∧ ((s.demandWrite m a l).2.demandRead m a 8).1 = l))

/-- A single inverted bit of a word is corrected by the next read and counted, two inverted bits are uncorrectable: the reader
receives a poisoned read and the word stays poisoned until it is written whole (R651, R659 to R661). -/
def Obligations.EccCorrectsOne : Prop :=
  (∀ (s : State) (m a i : Nat), a % 8 = 0 → i < 64 → inRom a = false → s.chkAt a = 0 →
    let u := (s.flipData a i).setChk a (flipChk i)
    (u.demandRead m a 8).1 = s.mbytes a 8 ∧ (u.demandRead m a 8).2.1 = false ∧
      (u.demandRead m a 8).2.2.evc Blk.mem 2 = s.evc Blk.mem 2 + 1 ∧ (u.demandRead m a 8).2.2.chkAt a = 0) ∧
  (∀ (s : State) (m a i j : Nat), a % 8 = 0 → i < 64 → j < 64 → i ≠ j → inRom a = false → s.chkAt a = 0 →
    let u := ((s.flipData a i).flipData a j).setChk a (flipChk i ^^^ flipChk j)
    (u.demandRead m a 8).2.1 = true ∧
      (posOfData i ^^^ posOfData j ≠ 127 → (u.demandRead m a 8).2.2.evc Blk.mem 3 = s.evc Blk.mem 3 + 1) ∧
      ((u.demandRead m a 8).2.2.demandRead m a 8).2.1 = true) ∧
  (∀ (s : State) (m a : Nat) (l : List Byte), a % 8 = 0 → l.length = 8 → s.mem.injArmed = false →
    (s.demandWrite m a l).1 = false ∧ ((s.demandWrite m a l).2.demandRead m a 8).1 = l ∧
      ((s.demandWrite m a l).2.demandRead m a 8).2.1 = false)

/-- The flash log takes the oldest held record with its sequence number and place (R1020, R1021); a page of the running image is
loaded again and checked (R668). CANCEL: a long command that has not begun is SUPERSEDED and CANCEL is DONE; one past its commit
point is left, with ALREADY_DONE; no outstanding command with the TAG is BAD_ARGUMENT; a PF1 mailbox cancels its own commands
alone (R272, R273, R279, R301). -/
def Obligations.FlashAndCancel : Prop :=
  ((∀ (r : List Byte) (l : List (List Byte)) (s : State), s.fmn.logHeld = r :: l → s.fmn.flashBusy = false → s.rst.rom = .firmware →
    s.aon.pwr ≠ 0 → s.frozen = false → Yields .logRecordWrite s (fun t => t.fmn.logHeld = l ∧ t.fmn.logLost = false ∧
      t.fmn.logSeq = (s.fmn.logSeq + 1) % 2 ^ 32 ∧ t.fmn.logPos = (s.fmn.logPos + 1) % 32768 ∧
      (∀ a, a < 0xF00000 → t.flashByte a = s.flashByte a) ∧ t.fmn.mbs = s.fmn.mbs ∧ Frame [.fmn, .pins] s t)) ∧
  (∀ (page at0 : Nat) (l : List (Nat × Nat)) (s : State), s.mem.reloads = (page, at0) :: l → s.clk.now ≤ at0 + 20 * tbMs →
    sha384 ((s.store (0x30100000 + 4096 * page) (s.flashBytes (slotAddr s.rst.image.slot + 0x200 + 4096 * page)
      (min 4096 (s.rst.image.len - 4096 * page)))).mbytes 0x30100000 s.rst.image.len) =
      payloadHash (s.flashBytes (slotAddr s.rst.image.slot) 0x200) →
    Yields (.imageReload true) s (fun t => t.mem.reloads = l ∧ t.evc Blk.mem 6 = s.evc Blk.mem 6 + 1 ∧ t.rst = s.rst ∧
      (∀ i, i < min 4096 (s.rst.image.len - 4096 * page) →
        t.mbyte (0x30100000 + 4096 * page + i) = s.flashByte (slotAddr s.rst.image.slot + 0x200 + 4096 * page + i)) ∧
      Frame [.mem, .fmn, .regs 8] s t)) ∧
  (∀ (page at0 : Nat) (l : List (Nat × Nat)) (s : State), s.mem.reloads = (page, at0) :: l → s.rst.classD = none →
    Yields (.imageReload false) s (fun t => t.rst.classD = some 7 ∧ t.frozen = true ∧ Frame [.rst, .aon] s t))) ∧
  ((∀ (m : MbId) (s : State), s.accepts m.val 0x0002 (s.rqLen m.val == 8)
      (s.fieldChecks m.val [(0x10, 1, s.rq m.val 0x10 1 < 12), (0x14, 4, true)]) → mayCancel m.val (s.rq m.val 0x10 1) = true →
    s.rq m.val 0x10 1 ≠ m.val → (s.mb (s.rq m.val 0x10 1)).st = .working → bytesAt (s.mb (s.rq m.val 0x10 1)).copy 4 4 = s.rq m.val 0x14 4 →
    reqClass (s.mb (s.rq m.val 0x10 1)).copy = some .long → (s.mb (s.rq m.val 0x10 1)).committed = false →
    (s.mb (s.rq m.val 0x10 1)).out = none → (s.mb (s.rq m.val 0x10 1)).ready = true → Yields (.cancel m) s (fun t =>
      t.doneWith m.val [] ∧ t.refuses (s.rq m.val 0x10 1) rSuperseded 0 ∧ (t.mb (s.rq m.val 0x10 1)).ready = false ∧ Frame [.fmn] s t)) ∧
  (∀ (m : MbId) (s : State), s.accepts m.val 0x0002 (s.rqLen m.val == 8)
      (s.fieldChecks m.val [(0x10, 1, s.rq m.val 0x10 1 < 12), (0x14, 4, true)]) → mayCancel m.val (s.rq m.val 0x10 1) = true →
    (s.mb (s.rq m.val 0x10 1)).st = .working → bytesAt (s.mb (s.rq m.val 0x10 1)).copy 4 4 = s.rq m.val 0x14 4 →
    reqClass (s.mb (s.rq m.val 0x10 1)).copy = some .long → (s.mb (s.rq m.val 0x10 1)).committed = true → Yields (.cancel m) s (fun t =>
      t.refuses m.val rAlreadyDone 0 ∧ Frame [.fmn] s t)) ∧
  (∀ (m : MbId) (s : State), s.accepts m.val 0x0002 (s.rqLen m.val == 8)
      (s.fieldChecks m.val [(0x10, 1, s.rq m.val 0x10 1 < 12), (0x14, 4, true)]) → mayCancel m.val (s.rq m.val 0x10 1) = true →
    ((s.mb (s.rq m.val 0x10 1)).st = .idle ∨ (s.mb (s.rq m.val 0x10 1)).st = .responded) → Yields (.cancel m) s (fun t =>
      t.refuses m.val rBadArgument 0x14 ∧ Frame [.fmn] s t)) ∧
  (∀ m t : Nat, mayCancel m t = false ↔ 4 ≤ m ∧ m ≤ 9 ∧ t ≠ m))

/-- Debug authentication: a challenge holds a nonce with TB_NOW; an unlock that satisfies the three conditions is accepted, and at
its commit point zeroes every PROTECTED region, switches the key set and reads DEBUG 1; a failure of one advances UNLOCK_FAIL
and the third sets LOCKOUT; DEBUG_LOCK returns to the locked state (R1039 to R1041). Entropy: a request of 1 to 224 bytes is
answered with that many while TRNG_OK is 1 and refused while it is 0; a health failure is counted, and the third within 1 s
clears TRNG_OK; passing the start-up tests again sets it; the DRBG is reseeded after 2^16 requests or 60 s, not while TRNG_OK is
0 (R1043 to R1045). -/
def Obligations.Security : Prop :=
  ((∀ (m : MbId) (s : State), s.accepts m.val 0x0C01 (s.rqLen m.val == 0) [] → s.sec.debug = 0 → s.sec.trngOk = true →
    Yields (.debugChallenge m) s (fun t => ∃ nonce : List Byte, nonce.length = 32 ∧
      t.doneWith m.val (nonce ++ leBytes 8 s.sec.otp.deviceId.toNat ++ leBytes 1 s.sec.lifecycle ++ leBytes 1 0) ∧
      t.sec.challenge = some (leNat nonce, s.clk.now) ∧ t.sec.debug = 0 ∧ Frame [.fmn, .sec] s t)) ∧
  (∀ (m : MbId) (s : State), s.accepts m.val 0x0C02 (s.rqLen m.val == 192) [] → s.sec.unlockMb ≠ some m.val → s.sec.debug = 0 →
    s.sec.lockout = false → s.qch.st ≠ .armed → s.unlockBusy m.val = false →
    s.unlockOk ((s.rqPayload m.val).take 96) ((s.rqPayload m.val).drop 96) = true → Yields (.debugUnlock m) s (fun t =>
      t.sec.unlockMb = some m.val ∧ t.sec.challenge = none ∧ t.sec.debug = 0 ∧ (t.mb m.val).waiting = true ∧ Frame [.fmn, .sec] s t)) ∧
  (∀ (m : MbId) (s : State), s.sec.unlockMb = some m.val → s.sec.lockMb = none → Yields (.debugUnlock m) s (fun t =>
      t.doneWith m.val [] ∧ t.sec.debug = 1 ∧ t.sec.keysetDebug = true ∧ t.evc Blk.sec 2 = s.evc Blk.sec 2 + 1 ∧
      (∀ e a, e < 32 → s.entValid e = true → s.entProtected e = true → s.entBase e ≤ a → a < s.entBase e + 4096 * s.entPages e →
        t.mbyte a = 0) ∧ Frame [.fmn, .sec, .mem, .regs 28] s t)) ∧
  (∀ (m : MbId) (s : State), s.accepts m.val 0x0C02 (s.rqLen m.val == 192) [] → s.sec.unlockMb ≠ some m.val → s.sec.debug = 0 →
    s.sec.lockout = false → s.qch.st ≠ .armed → s.unlockBusy m.val = false →
    s.unlockOk ((s.rqPayload m.val).take 96) ((s.rqPayload m.val).drop 96) = false → Yields (.debugUnlock m) s (fun t =>
      t.refuses m.val rNotPermitted 1 ∧ t.evc Blk.sec 3 = s.evc Blk.sec 3 + 1 ∧ t.sec.debug = 0 ∧
      t.sec.lockout = decide (3 ≤ s.sec.unlockFails + 1) ∧ Frame [.fmn, .sec, .regs 28] s t)) ∧
  (∀ (m : MbId) (s : State), s.accepts m.val 0x0C02 (s.rqLen m.val == 192) [] → s.sec.unlockMb ≠ some m.val → s.sec.debug = 0 →
    s.sec.lockout = false → s.qch.st = .armed → Yields (.debugUnlock m) s (fun t =>
      t.refuses m.val rStateConflict 1 ∧ t.sec.debug = 0 ∧ Frame [.fmn, .sec] s t)) ∧
  (∀ (m : MbId) (s : State), s.accepts m.val 0x0C03 (s.rqLen m.val == 0) [] → s.sec.lifecycle ≠ 0 → s.sec.unlockMb = none →
    s.sec.debug ≠ 0 → Yields (.debugLock m) s (fun t => t.doneWith m.val [] ∧ t.sec = { s.sec with debug := 0 } ∧ Frame [.fmn, .sec] s t)) ∧
  (∀ (n t0 : Nat) (s : State), s.sec.challenge = some (n, t0) → t0 + 6000000000 ≤ s.clk.now →
    Yields .challengeExpiry s (fun t => t.sec = { s.sec with challenge := none } ∧ Frame [.sec] s t))) ∧
  ((∀ (m : MbId) (s : State), s.asks m.val 0x0C04 1 [(0x10, 1, 1 ≤ s.rq m.val 0x10 1 && s.rq m.val 0x10 1 ≤ 224)] →
    s.sec.trngOk = true → Yields (.rngRead m) s (fun t => ∃ p : List Byte, p.length = s.rq m.val 0x10 1 ∧ t.doneWith m.val p ∧
      t.sec = { s.sec with drbgReqs := s.sec.drbgReqs + 1 } ∧ Frame [.fmn, .sec] s t)) ∧
  (∀ (m : MbId) (s : State), s.asks m.val 0x0C04 1 [(0x10, 1, 1 ≤ s.rq m.val 0x10 1 && s.rq m.val 0x10 1 ≤ 224)] →
    s.sec.trngOk = false → Yields (.rngRead m) s (fun t => t.refuses m.val rStateConflict 1 ∧ t.sec = s.sec ∧ Frame [.fmn] s t)) ∧
  (∀ s : State, Yields .trngHealthFail s (fun t => t.evc Blk.sec 4 = s.evc Blk.sec 4 + 1 ∧
      (s.sec.failAt = [] → t.sec.trngOk = s.sec.trngOk) ∧
      (∀ a b, s.sec.failAt = [a, b] → s.clk.now < a + 100000000 → s.clk.now < b + 100000000 → t.sec.trngOk = false) ∧
      (∀ a b, s.sec.failAt = [a, b] → b + 100000000 ≤ s.clk.now → t.sec.trngOk = s.sec.trngOk) ∧ Frame [.sec, .regs 28] s t)) ∧
  (∀ s : State, (∀ a ∈ s.sec.failAt, a + 100000000 ≤ s.clk.now) → Yields (.trngRestart true) s (fun t => t.sec.trngOk = true ∧
      Frame [.sec] s t) ∧ Yields (.trngRestart false) s (fun t => t.sec = s.sec ∧ Frame [] s t)) ∧
  (∀ s : State, s.sec.trngOk = true → (65536 ≤ s.sec.drbgReqs ∨ s.sec.reseedAt + 6000000000 ≤ s.clk.now) →
    Yields .drbgReseed s (fun t => t.sec = { s.sec with drbgReqs := 0, reseedAt := s.clk.now } ∧ Frame [.sec] s t)) ∧
  (∀ s : State, s.sec.trngOk = false → Yields .drbgReseed s (fun t => t.sec = s.sec ∧ Frame [] s t)))

/-- CKPT_EXPORT: a BUILD on good arguments is accepted and admits no job while it waits; with its entries stored it answers DONE
with MANIFEST_SEQ and IMAGE_LEN, MAGIC standing in the stage; the last part in flash writes the first 256 bytes and answers with
its slot; a wait of 5 ms with a job running ends BUSY and admission resumes (R766 to R770). CKPT_IMPORT: a request on good
arguments is accepted; its write pass begins when no job runs and answers DONE with MANIFEST_SEQ and the number of substituted
blocks, each uncompressed, unsealed entry's content standing at its destination (R771, R773). MANIFEST_READ: the 64 header
bytes, whether they are valid, and the slot, of the slot with the larger MANIFEST_SEQ or the other (R774). -/
def Obligations.Checkpoints : Prop :=
  ((∀ (m : MbId) (s : State), s.ckpt.job = none → (
      let act := s.rq m.val 0x10 1
      act = 0 ∧ s.asks m.val 0x0A01 40
        [(0x10, 1, act < 2), (0x11, 1, s.rq m.val 0x11 1 < 2), (0x12, 2, true), (0x18, 8, true), (0x20, 4, true),
          (0x24, 4, true), (0x28, 8, true), (0x30, 8, true), (0x38, 4, true)]) →
    1 ≤ s.rq m.val 0x12 2 → s.rq m.val 0x12 2 ≤ 256 → stageOk (s.rq m.val 0x18 8) (s.rq m.val 0x20 4) = true →
    s.rq m.val 0x18 8 % 4096 = 0 → ingotRange (s.rq m.val 0x18 8) 4096 = true → s.rq m.val 0x28 8 % 64 = 0 →
    ingotRange (s.rq m.val 0x28 8) (32 * s.rq m.val 0x12 2) = true → (∀ a, s.chkAt a = 0) →
    (∀ r ∈ chunksOf (s.rq m.val 0x12 2) 32 (s.mbytes (s.rq m.val 0x28 8) (32 * s.rq m.val 0x12 2)),
      requestOk (s.rq m.val 0x18 8) (s.rq m.val 0x20 4) r = true) →
    Yields (.ckptExport m true) s (fun t => (t.mb m.val).waiting = true ∧ t.ckpt.hold = bit (s.rq m.val 0x11 1) 0 ∧
      (∃ j, t.ckpt.job = some j ∧ j.mb = m.val ∧ j.kind = 0 ∧ j.step = 1 ∧ j.todo.length = s.rq m.val 0x12 2) ∧
      t.mem.bytes = s.mem.bytes ∧ Frame [.fmn, .ckpt, .mem, .regs 8] s t)) ∧
  (∀ (m : MbId) (ok : Bool) (j : CkptJob) (s : State), s.ckpt.job = some j → j.mb = m.val → j.kind = 0 → j.step = 2 → j.todo = [] →
    s.frozen = false → (∀ r ∈ j.recs, r.length = 64) → s.ckStage j % 4096 = 0 → s.ckStage j < 0x4000000 → s.mem.injArmed = false →
    (∀ a, s.chkAt a = 0) →
    Yields (.ckptExport m ok) s (fun t => t.doneWith m.val (leBytes 4 j.seq ++ leBytes 4 0 ++ leBytes 8 j.len) ∧ t.ckpt.job = none ∧
      t.ckpt.hold = false ∧ t.ckpt.lastSeq = j.seq ∧ t.mbytes (s.ckStage j) 4 = [0x43, 0x4B, 0x50, 0x54] ∧
      Frame [.fmn, .ckpt, .mem, .regs 8] s t)) ∧
  (∀ (m : MbId) (ok : Bool) (j : CkptJob) (k : Nat) (s : State), s.ckpt.job = some j → j.mb = m.val → j.kind = 1 → j.step = 3 →
    j.slot = some k → s.frozen = false → (∀ a, s.chkAt a = 0) → s.ckStage j % 8 = 0 →
    Yields (.ckptExport m ok) s (fun t => t.doneWith m.val (leBytes 1 k ++ leBytes 3 0 ++ leBytes 4 j.seq) ∧ t.ckpt.job = none ∧
      t.ckpt.target = none ∧ t.fmn.flashBusy = false ∧ t.mem.bytes = s.mem.bytes ∧
      (∀ i, i < 256 → t.flashByte (ckSlotAt k i) = s.flashByte (ckSlotAt k i) &&& s.mbyte (s.ckStage j + i)) ∧
      (∀ a, (a < ckSlotAt k 0 ∨ ckSlotAt k 256 ≤ a) → t.flashByte a = s.flashByte a) ∧
      Frame [.fmn, .ckpt, .mem, .pins, .regs 8] s t)) ∧
  (∀ (j : CkptJob) (t0 : Nat) (s : State), s.ckpt.job = some j → j.waitAt = some t0 → s.jobsRun = true → t0 + 500000 ≤ s.clk.now →
    Yields .ckptHoldTimeout s (fun t => t.refuses j.mb rBusy 0 ∧ t.ckpt.job = none ∧ t.ckpt.hold = false ∧
      Frame [.fmn, .ckpt] s t))) ∧
  ((∀ (m : MbId) (s : State), s.ckpt.job = none →
    s.asks m.val 0x0A02 20 [(0x10, 1, s.rq m.val 0x10 1 < 3), (0x11, 1, s.rq m.val 0x11 1 < 4),
        (0x18, 8, s.rq m.val 0x18 8 % 4096 == 0 && ingotRange (s.rq m.val 0x18 8) 4096),
        (0x20, 4, stageOk (s.rq m.val 0x18 8) (s.rq m.val 0x20 4))] → (s.rq m.val 0x10 1 < 2 → s.fmn.flashBusy = false) →
    Yields (.ckptImport m) s (fun t => (t.mb m.val).waiting = true ∧
      t.ckpt.job = some
        { mb := m.val, kind := 2, step := if s.rq m.val 0x10 1 < 2 then 1 else 2 } ∧
      (s.rq m.val 0x10 1 < 2 → t.fmn.flashBusy = true) ∧ Frame [.fmn, .ckpt] s t)) ∧
  (∀ (m : MbId) (j : CkptJob) (dst len off : Nat) (s : State), s.ckpt.job = some j → j.mb = m.val → j.kind = 2 → j.step = 3 →
    s.frozen = false → s.jobsRun = false → j.len = 1 → (∀ a, s.chkAt a = 0) → s.mem.injArmed = false → s.ckStage j % 4096 = 0 →
    bytesAt (s.mbytes (s.ckStage j + 64) 64) 0 8 = dst → bytesAt (s.mbytes (s.ckStage j + 64) 64) 8 8 = len →
    bytesAt (s.mbytes (s.ckStage j + 64) 64) 0x11 1 = 0 → bytesAt (s.mbytes (s.ckStage j + 64) 64) 0x20 8 = off →
    bytesAt (s.mbytes (s.ckStage j + 64) 64) 0x28 8 = len → dst % 64 = 0 → len % 8 = 0 → off % 8 = 0 → dst + len ≤ 0x4000000 →
    Yields (.ckptImport m) s (fun t => t.doneWith m.val (leBytes 4 j.seq ++ leBytes 4 0) ∧ t.ckpt.job = none ∧ t.ckpt.hold = false ∧
      t.mbytes dst len = s.mbytes (s.ckStage j + off) len ∧ (∀ a, (a < dst ∨ dst + len ≤ a) → t.mbyte a = s.mbyte a) ∧
      Frame [.fmn, .ckpt, .mem, .regs 8] s t)) ∧
  (∀ (m : MbId) (j : CkptJob) (s : State), s.ckpt.job = some j → j.mb = m.val → j.kind = 2 → j.step = 3 → s.jobsRun = true →
    Yields (.ckptImport m) s (fun t => t.ckpt = s.ckpt ∧ t.mem = s.mem ∧ t.fmn = s.fmn ∧ Frame [] s t))) ∧
  ((∀ (m : MbId) (source : Nat) (s : State), s.rq m.val 0x10 1 = source → source < 2 →
    s.asks m.val 0x0A03 1 [(0x10, 1, source < 3), (0x18, 8, true)] →
    Yields (.manifestRead m) s (fun t => ∃ slot, slot < 2 ∧ t.doneWith m.val (s.slotHead slot ++
        leBytes 1 (b2n (s.slotValid slot)) ++ leBytes 1 slot) ∧ s.ckSeq (1 - slot) ≤ (if source = 0 then s.ckSeq slot else s.ckSeq (1 - slot)) ∧
      (source = 1 → s.ckSeq slot ≤ s.ckSeq (1 - slot)) ∧ Frame [.fmn] s t)) ∧
  (∀ (m : MbId) (s : State), s.rq m.val 0x10 1 = 2 → s.rq m.val 0x18 8 % 4096 = 0 → ingotRange (s.rq m.val 0x18 8) 4096 = true →
    s.asks m.val 0x0A03 16 [(0x10, 1, true), (0x18, 8, true)] → (∀ a, s.chkAt a = 0) →
    Yields (.manifestRead m) s (fun t => ∃ v : Bool, t.doneWith m.val (s.mbytes (s.rq m.val 0x18 8) 64 ++ leBytes 1 (b2n v)) ∧
      t.mem.bytes = s.mem.bytes ∧ Frame [.fmn, .mem, .regs 8] s t)))

/-- SPRUE_TRAIN and training: chip 0 begins it, another chip is refused; a port passes OFF, DETECT, ALIGN and PARAM to UP with the
widest group that passes; parameters that do not agree take it DOWN; training ends TIMEOUT after 2 s without a chip (R726 to
R728, R743). A port in service: a failed lane narrows it, or takes it DOWN when no width is left; two microseconds without an
advance of ACK replay every held flit with its bytes, the fourth time without one takes it DOWN; 10 µs of silence take it DOWN
(R729 to R731). A flit received: a wrong CRC is counted and answered by a NAK; the expected flit is delivered once, its messages
behind those that wait; one out of sequence is answered by a NAK and delivers nothing; a protected flit whose tag fails takes
the port DOWN (R721, R722, R730, R739). -/
def Obligations.SprueLinks : Prop :=
  ((∀ (m : MbId) (s : State), s.asks m.val 0x0901 2 [(0x10, 1, s.rq m.val 0x10 1 < 3), (0x11, 1, 2 ≤ s.rq m.val 0x11 1 && s.rq m.val 0x11 1 ≤ 4)] →
    s.bus.chipId = 0 → 2 ≤ s.aon.pwr → s.spr.train = none →
    (∀ p, p < 2 → (s.rq m.val 0x10 1 = 2 ∨ s.rq m.val 0x10 1 = p) → (s.port p).st = .off ∨ (s.port p).st = .down) →
    Yields (.sprueTrain m) s (fun t => (t.mb m.val).waiting = true ∧ t.spr.train = some (m.val, s.rq m.val 0x10 1) ∧
      t.spr.n = s.rq m.val 0x11 1 ∧ t.spr.trainAt = s.clk.now ∧
      (∀ p, p < 2 → (s.rq m.val 0x10 1 = 2 ∨ s.rq m.val 0x10 1 = p) → (t.port p).st = .detect) ∧
      (∀ p, p < 2 → s.rq m.val 0x10 1 ≠ 2 → s.rq m.val 0x10 1 ≠ p → t.port p = s.port p) ∧ Frame [.fmn, .spr] s t)) ∧
  (∀ (m : MbId) (s : State), s.accepts m.val 0x0901 true [] → s.bus.chipId ≠ 0 → Yields (.sprueTrain m) s (fun t =>
      t.refuses m.val rNotPermitted 0 ∧ t.spr = s.spr ∧ Frame [.fmn] s t)) ∧
  (∀ (m port : Nat) (s : State), s.spr.train = some (m, port) → s.spr.trainAt + 200000000 ≤ s.clk.now → s.allReachable = false →
    Yields .sprueTrainTimeout s (fun t => t.refuses m rTimeout 0 ∧ t.spr = { s.spr with train := none } ∧ Frame [.fmn, .spr] s t)) ∧
  (∀ (p : PortId) (l : BitVec 8) (peer : Fin 4) (n : Fin 5) (pp : PortId) (r : Word) (s : State),
    (s.port p.val).st = .detect → 2 ≤ ((List.range 8).filter (fun i => l.toNat.testBit i)).length →
    Yields (.sprueTrainStage p l peer n pp r) s (fun t => (t.port p.val).st = .align ∧ Frame [.spr] s t)) ∧
  (∀ (p : PortId) (l : BitVec 8) (peer : Fin 4) (n : Fin 5) (pp : PortId) (r : Word) (g : Nat × Nat) (s : State),
    (s.port p.val).st = .param → (s.port p.val).narrowing = false → laneGroup l 8 = some g →
    s.paramMismatch p.val peer.val n.val pp.val r.toNat = 0 → s.spr.train = none →
    Yields (.sprueTrainStage p l peer n pp r) s (fun t => (t.port p.val).st = .up ∧ (t.port p.val).width = g.1 ∧
      (t.port p.val).lane0 = g.2 ∧ (t.port p.val).peer = peer.val ∧ (t.port p.val).held = [] ∧ (t.port p.val).sealedTx = false ∧
      (t.port p.val).sealedRx = false ∧ (s.spr.n = 0 → t.spr.n = n.val) ∧ Frame [.spr] s t)) ∧
  (∀ (p : PortId) (l : BitVec 8) (peer : Fin 4) (n : Fin 5) (pp : PortId) (r : Word) (g : Nat × Nat) (m port : Nat) (s : State),
    (s.port p.val).st = .param → (s.port p.val).narrowing = false → laneGroup l 8 = some g →
    s.paramMismatch p.val peer.val n.val pp.val r.toNat ≠ 0 → s.spr.train = some (m, port) →
    Yields (.sprueTrainStage p l peer n pp r) s (fun t => (t.port p.val).st = .down ∧ t.spr.train = none ∧
      t.refuses m rStateConflict (s.paramMismatch p.val peer.val n.val pp.val r.toNat) ∧ t.aon = s.aon ∧ t.clk = s.clk))) ∧
  ((∀ (p : PortId) (lane : Fin 8) (g : Nat × Nat) (s : State), (s.port p.val).st = .up → (s.port p.val).lane0 ≤ lane.val →
    lane.val < (s.port p.val).lane0 + (s.port p.val).width →
    laneGroup (~~~((s.port p.val).lanesBad ||| BitVec.ofNat 8 (2 ^ lane.val))) ((s.port p.val).width - 1) = some g →
    Yields (.laneFailure p lane) s (fun t => t.port p.val = { s.port p.val with
        st := .align, narrowing := true, lanesBad := (s.port p.val).lanesBad ||| BitVec.ofNat 8 (2 ^ lane.val) } ∧
      t.evc (Blk.spr0 + p.val) 4 = s.evc (Blk.spr0 + p.val) 4 + 1 ∧ Frame [.spr, .regs (Blk.spr0 + p.val)] s t)) ∧
  (∀ (p : PortId) (lane : Fin 8) (s : State), (s.port p.val).st = .up → (s.port p.val).lane0 ≤ lane.val →
    lane.val < (s.port p.val).lane0 + (s.port p.val).width →
    laneGroup (~~~((s.port p.val).lanesBad ||| BitVec.ofNat 8 (2 ^ lane.val))) ((s.port p.val).width - 1) = none →
    Yields (.laneFailure p lane) s (fun t => (t.port p.val).st = .down ∧ (t.port p.val).reason = 3 ∧ t.aon = s.aon ∧ t.clk = s.clk)) ∧
  (∀ (p : PortId) (s : State), (s.port p.val).st = .up → (s.port p.val).held ≠ [] → (s.port p.val).ackAt + 200 ≤ s.clk.now →
    (s.port p.val).resends < 3 → Yields (.replayTimer p) s (fun t =>
      (t.port p.val).sent = (s.port p.val).sent ++ (s.port p.val).held.map (fun f => f.bytes) ∧
      (t.port p.val).held = (s.port p.val).held ∧ (t.port p.val).resends = (s.port p.val).resends + 1 ∧ (t.port p.val).st = .up ∧
      t.evc (Blk.spr0 + p.val) 3 = s.evc (Blk.spr0 + p.val) 3 + 1 ∧ t.port (1 - p.val) = s.port (1 - p.val) ∧
      Frame [.spr, .regs (Blk.spr0 + p.val)] s t)) ∧
  (∀ (p : PortId) (s : State), (s.port p.val).st = .up → (s.port p.val).held ≠ [] → (s.port p.val).ackAt + 200 ≤ s.clk.now →
    3 ≤ (s.port p.val).resends → Yields (.replayTimer p) s (fun t => (t.port p.val).st = .down ∧ (t.port p.val).reason = 2 ∧
      (t.port p.val).held = [] ∧ t.aon = s.aon ∧ t.clk = s.clk)) ∧
  (∀ (p : PortId) (s : State), (s.port p.val).st = .up → (s.port p.val).goodAt + 1000 ≤ s.clk.now →
    Yields .linkTimeout s (fun t => (t.port p.val).st = .down ∧ (t.port p.val).reason = 1 ∧ t.aon = s.aon ∧ t.clk = s.clk)) ∧
  (∀ s : State, (s.port 0).lostDue = true → (s.port 1).lostDue = true → (∀ p, ∀ i ∈ (s.port p).inflight, i.flask = none ∧ i.write = true) →
    Yields .lostAccessEnd s (fun t => (t.port 0).inflight = [] ∧ (t.port 1).inflight = [] ∧ (t.port 0).lostDue = false ∧
      t.evc Blk.spr0 7 = s.evc Blk.spr0 7 + BitVec.ofNat 16 (s.port 0).inflight.length ∧ t.mem = s.mem ∧
      Frame [.spr, .bus, .regs 0, .regs 10, .regs 11] s t))) ∧
  ((∀ (p : PortId) (b : List Byte) (s : State), (s.port p.val).st = .up → b.length = 256 → bytesAt b 0xFC 4 ≠ crc32c (b.take 0xFC) →
    Yields (.flitReceived p b) s (fun t => t.evc (Blk.spr0 + p.val) 2 = s.evc (Blk.spr0 + p.val) 2 + 1 ∧
      (t.port p.val).sent.length = (s.port p.val).sent.length + 1 ∧ (t.port p.val).rxSeq = (s.port p.val).rxSeq ∧
      (t.port p.val).inbox = (s.port p.val).inbox ∧ (t.port p.val).held = (s.port p.val).held ∧
      Frame [.spr, .regs (Blk.spr0 + p.val)] s t)) ∧
  (∀ (p : PortId) (b : List Byte) (s : State), (s.port p.val).st = .up → b.length = 256 → bytesAt b 0xFC 4 = crc32c (b.take 0xFC) →
    bytesAt b 0 1 = 1 → bytesAt b 2 1 = (s.port p.val).rxSeq → (s.port p.val).sealedRx = false → Yields (.flitReceived p b) s (fun t =>
      (t.port p.val).inbox = (s.port p.val).inbox ++ parseMsgs 15 ((b.drop 8).take 240) ∧
      (t.port p.val).rxSeq = ((s.port p.val).rxSeq + 1) % 256 ∧ (t.port p.val).goodAt = s.clk.now ∧ (t.port p.val).st = .up ∧
      t.port (1 - p.val) = s.port (1 - p.val) ∧ Frame [.spr, .regs (Blk.spr0 + p.val)] s t)) ∧
  (∀ (p : PortId) (b : List Byte) (s : State), (s.port p.val).st = .up → b.length = 256 → bytesAt b 0xFC 4 = crc32c (b.take 0xFC) →
    (bytesAt b 0 1 = 1 ∨ bytesAt b 0 1 = 3 ∨ bytesAt b 0 1 = 4) → bytesAt b 2 1 ≠ (s.port p.val).rxSeq → Yields (.flitReceived p b) s (fun t =>
      (t.port p.val).inbox = (s.port p.val).inbox ∧ (t.port p.val).rxSeq = (s.port p.val).rxSeq ∧
      (t.port p.val).sent.length = (s.port p.val).sent.length + 1 ∧ Frame [.spr] s t)) ∧
  (∀ (p : PortId) (b : List Byte) (s : State), (s.port p.val).st = .up → b.length = 256 → bytesAt b 0xFC 4 = crc32c (b.take 0xFC) →
    (bytesAt b 0 1 = 1 ∨ bytesAt b 0 1 = 3 ∨ bytesAt b 0 1 = 4) → bytesAt b 2 1 = (s.port p.val).rxSeq → s.openFlit p.val b = none →
    Yields (.flitReceived p b) s (fun t => (t.port p.val).st = .down ∧ (t.port p.val).reason = 4 ∧
      (t.port p.val).inbox = (s.port p.val).inbox ∧ t.evc (Blk.spr0 + p.val) 6 = s.evc (Blk.spr0 + p.val) 6 + 1 ∧ t.aon = s.aon ∧ t.clk = s.clk)) ∧
  (∀ x f w o : BitVec 8, ∀ l : List Byte, (flitBytes [x, f, w, o, 0, 0, 0, 0] l).length = 256 ∧
    bytesAt (flitBytes [x, f, w, o, 0, 0, 0, 0] l) 0xFC 4 = crc32c ((flitBytes [x, f, w, o, 0, 0, 0, 0] l).take 0xFC)))

/-- Memory messages from a peer: a read answers with the bytes, a write stores its own and nothing else, each refused outside the
ingots; a response ends the access it answers (R47, R723, R733). Commands and entries from a peer: RELAY sends the inner request
and waits; the peer's request stands in MB8 or MB9 once both segments have come; the inner response is RELAY's payload; RELAY
times out; a queue entry enters its queue (R280, R735). -/
def Obligations.SpruePeers : Prop :=
  ((∀ (p : PortId) (m : Msg) (q : Nat) (s : State), s.firstMsg p.val [opRead] = some m → m.dst = s.bus.chipId → m.len < 256 →
    s.peerCheck p.val m false = 0 → (∀ a, s.chkAt a = 0) → s.clearTo m q → q < 2 → Yields (.readMessage p) s (fun t =>
      (∃ f, (t.port q).held = (s.port q).held ++ [f] ∧ f.msg = some
        { op := opReadData, len := m.len, data := s.mbytes (localOf m.addr) m.len, src := s.bus.chipId, dst := m.src, tag := m.tag
          master := m.master }) ∧ t.mem.bytes = s.mem.bytes ∧ Frame [.spr, .mem, .regs 8, .regs 10, .regs 11] s t)) ∧
  (∀ (p : PortId) (m : Msg) (q : Nat) (s : State), s.firstMsg p.val [opWrite] = some m → m.dst = s.bus.chipId → m.poison = false →
    m.data.length = m.len → s.peerCheck p.val m true = 0 → (∀ a, s.chkAt a = 0) → s.mem.injArmed = false → s.clearTo m q → q < 2 →
    Yields (.writeMessage p) s (fun t => t.mbytes (localOf m.addr) m.len = m.data ∧
      (∀ a, (a < localOf m.addr ∨ localOf m.addr + m.len ≤ a) → t.mbyte a = s.mbyte a) ∧
      (∃ f, (t.port q).held = (s.port q).held ++ [f] ∧ f.msg = some
        { op := opWriteAck, src := s.bus.chipId, dst := m.src, tag := m.tag, master := m.master }) ∧
      Frame [.spr, .mem, .regs 8, .regs 10, .regs 11] s t)) ∧
  (∀ (p : PortId) (m : Msg) (s : State), s.firstMsg p.val [opWrite] = some m → m.dst = s.bus.chipId →
    ingotRange (localOf m.addr) m.len = false → Yields (.writeMessage p) s (fun t => t.mem = s.mem ∧
      t.evc Blk.chip 3 = s.evc Blk.chip 3 + 1 ∧ Frame [.spr, .bus, .regs 0, .regs 10, .regs 11] s t)) ∧
  (∀ (p : PortId) (m : Msg) (i : InFlight) (s : State), s.firstMsg p.val [opReadData] = some m → m.dst = s.bus.chipId → m.status = 0 →
    s.inflightOf m false = some i → i.flask = none → m.data.length = i.len → Yields (.readDataMessage p) s (fun t =>
      Tab.get (fun _ => []) t.bus.readData i.master = patchBytes (Tab.get (fun _ => []) s.bus.readData i.master) i.off m.data ∧
      (∀ q, q < 2 → (t.port q).inflight = (s.port q).inflight.erase i) ∧ Frame [.spr, .bus] s t)) ∧
  (∀ (p : PortId) (m : Msg) (i : InFlight) (s : State), s.firstMsg p.val [opWriteAck] = some m → m.dst = s.bus.chipId → m.status = 0 →
    s.inflightOf m true = some i → i.flask = none → Yields (.writeAckMessage p) s (fun t =>
      (∀ q, q < 2 → (t.port q).inflight = (s.port q).inflight.erase i) ∧ Frame [.spr] s t))) ∧
  ((∀ (m : MbId) (s : State), s.accepts m.val 0x0003 (s.rqLen m.val == 20 + s.rq m.val 0x1C 2 && s.rqLen m.val ≤ 240)
      [(0x10, decide (s.rq m.val 0x10 1 < s.chips ∧ s.rq m.val 0x10 1 ≠ s.bus.chipId)), (0x11, s.rq m.val 0x11 3 == 0)] →
    Yields (.relay m) s (fun t => (t.mb m.val).waiting = true ∧ (t.mb m.val).committed = true ∧ (t.mb m.val).out = none ∧
      (∃ r, t.fmn.relays = s.fmn.relays ++ [r] ∧ r.mb = m.val ∧ r.chip = s.rq m.val 0x10 1 ∧ r.tag = s.spr.nextTag ∧ r.at0 = s.clk.now) ∧
      t.spr.nextTag = (s.spr.nextTag + 1) % 4096 ∧ Frame [.fmn, .spr, .regs 10, .regs 11] s t)) ∧
  (∀ (m : MbId) (r : Relay) (s : State), s.fmn.relays.find? (fun r => r.mb == m.val) = some r → r.at0 + r.bound + 200000 ≤ s.clk.now →
    Yields (.relayTimeout m) s (fun t => t.refuses m.val rTimeout 0 ∧ t.fmn.relays = s.fmn.relays.erase r ∧ Frame [.fmn] s t)) ∧
  (∀ (p : PortId) (m : Msg) (s : State), s.firstMsg p.val [opMailbox] = some m → m.dst = s.bus.chipId → m.status = 0 →
    (m.addr % 16 = 8 ∨ m.addr % 16 = 9) → m.addr / 256 % 2 = 0 → Yields (.mailboxMessage p) s (fun t =>
      Tab.get (fun _ => []) t.spr.segs p.val = m.data ∧ Frame [.spr] s t)) ∧
  (∀ (p : PortId) (m : Msg) (s : State), s.firstMsg p.val [opMailbox] = some m → m.dst = s.bus.chipId → m.status = 0 →
    (m.addr % 16 = 8 ∨ m.addr % 16 = 9) → m.addr / 256 % 2 = 1 → (s.mb (8 + p.val)).st = .idle →
    (Tab.get (fun _ => []) s.spr.segs p.val).length = 128 → m.data.length = 128 → Yields (.mailboxMessage p) s (fun t =>
      (t.mb (8 + p.val)).st = .posted ∧ t.reqArea (8 + p.val) = Tab.get (fun _ => []) s.spr.segs p.val ++ m.data ∧
      (t.mb (8 + p.val)).peer = m.src ∧ (t.mb (8 + p.val)).peerTag = m.tag ∧ Frame [.spr, .fmn, .regs 5] s t)) ∧
  (∀ (p : PortId) (m : Msg) (r : Relay) (d : List Byte) (s : State), s.firstMsg p.val [opMailbox] = some m → m.dst = s.bus.chipId →
    m.addr % 16 ≠ 8 → m.addr % 16 ≠ 9 → m.addr / 256 % 2 = 1 →
    s.fmn.relays.find? (fun r => r.chip == m.src && r.tag == m.tag) = some r → r.first = some d →
    bytesAt (d ++ m.data) 2 2 ≠ rInProgress → bytesAt (d ++ m.data) 8 2 ≤ 224 → Yields (.mailboxMessage p) s (fun t =>
      t.doneWith r.mb ((d ++ m.data).take (16 + bytesAt (d ++ m.data) 8 2)) ∧ (∀ k ∈ t.fmn.relays, k.mb ≠ r.mb) ∧
      Frame [.spr, .fmn] s t)) ∧
  (∀ (p : PortId) (m : Msg) (s : State), s.firstMsg p.val [opQueue] = some m → m.dst = s.bus.chipId → s.inpMessage m.src m.data = none →
    s.qEn (100 + m.src) = true → 0 < s.credits (100 + m.src) → (s.queue (100 + m.src)).dropping = false → m.data.length = 64 →
    Yields (.queueMessage p) s (fun t => (t.queue (100 + m.src)).occ = (s.queue (100 + m.src)).occ + 1 ∧
      t.mbytes (s.qSlot (100 + m.src) (s.queue (100 + m.src)).tail) 64 = m.data ∧
      (t.queue (100 + m.src)).flags = (s.queue (100 + m.src)).flags ++ [(bit m.status 1, bit m.status 0)] ∧
      (∀ k, k ≠ 100 + m.src → t.queue k = s.queue k) ∧ Frame [.spr, .queues, .mem] s t)) ∧
  (∀ (p : PortId) (m : Msg) (s : State), s.firstMsg p.val [opQueue] = some m → m.dst = s.bus.chipId → s.inpMessage m.src m.data = none →
    s.qEn (100 + m.src) = true → s.credits (100 + m.src) = 0 → Yields (.queueMessage p) s (fun t => t.spr = s.spr ∧
      t.queues = s.queues ∧ Frame [] s t)))

/-- SPRUE_SEAL: with equal KP check values the mark goes out and what the port sends is sealed from then on; the mark received seals
what it receives and ends the command; without KP it is NOT_PERMITTED (R740, R744, R1048). Time over the link: a request goes
out on the time port; the answer's offset is half of (T2 − T1) + (T3 − T4), rounded toward zero, and is slewed, or applied at
once the first time when above 1 µs; ten milliseconds without one make the offset stale (R741, R742). -/
def Obligations.SprueSealAndTime : Prop :=
  ((∀ (m : MbId) (c salt : Word) (kp : List Byte) (s : State),
    s.asks m.val 0x0902 2 [(0x10, 1, s.rq m.val 0x10 1 < 2), (0x11, 1, s.rq m.val 0x11 1 < 2)] → s.rq m.val 0x11 1 = 0 →
    s.keysDisabled = false → s.kpBytes = some kp → c.toNat = kpCheck kp → (s.port (s.rq m.val 0x10 1)).st = .up →
    (s.port (s.rq m.val 0x10 1)).sealMb = none → (s.port (s.rq m.val 0x10 1)).sealedTx = false →
    (s.port (s.rq m.val 0x10 1)).sealedRx = false → s.sec.trngOk = true → Yields (.sprueSeal m (some c) salt) s (fun t =>
      (t.mb m.val).waiting = true ∧ (t.port (s.rq m.val 0x10 1)).sealMb = some (m.val, true) ∧
      (t.port (s.rq m.val 0x10 1)).sealedTx = true ∧ (t.port (s.rq m.val 0x10 1)).sealTx = 0 ∧
      (t.port (s.rq m.val 0x10 1)).sealedRx = false ∧
      (t.port (s.rq m.val 0x10 1)).sent.length = (s.port (s.rq m.val 0x10 1)).sent.length + 1 ∧ Frame [.fmn, .spr, .sec] s t)) ∧
  (∀ (m : MbId) (c : Option Word) (salt : Word) (s : State),
    s.asks m.val 0x0902 2 [(0x10, 1, s.rq m.val 0x10 1 < 2), (0x11, 1, s.rq m.val 0x11 1 < 2)] → (s.keysDisabled = true ∨ s.kpBytes = none ∨ c = none) →
    Yields (.sprueSeal m c salt) s (fun t => t.refuses m.val rNotPermitted 0 ∧ t.spr = s.spr ∧ Frame [.fmn] s t)) ∧
  (∀ (p : PortId) (salt : Word) (m : Nat) (on : Bool) (s : State), (s.port p.val).markGot = true → (s.port p.val).sealMb = some (m, on) →
    Yields (.sealMark p salt) s (fun t => t.doneWith m [] ∧ t.port p.val = { s.port p.val with
        markGot := false, sealedRx := on, sealRx := 0, sealMb := none } ∧ Frame [.fmn, .spr] s t)) ∧
  (∀ (p : PortId) (salt : Word) (s : State), (s.port p.val).markGot = true → (s.port p.val).sealMb = none → (s.port p.val).st = .up →
    (s.port p.val).sealedRx = (s.port p.val).sealedTx → Yields (.sealMark p salt) s (fun t =>
      (t.port p.val).sealedRx = !(s.port p.val).sealedRx ∧ (t.port p.val).sealedTx = !(s.port p.val).sealedTx ∧
      (t.port p.val).sealRx = 0 ∧ (t.port p.val).markGot = false ∧ t.fmn = s.fmn ∧ Frame [.spr, .sec] s t))) ∧
  ((∀ s : State, s.bus.chipId ≠ 0 → s.portUp s.timePort = true → Yields .tsyncRequest s (fun t =>
    t.spr.tsyncT1 = some (8 * s.tbNow) ∧ (t.port s.timePort).sent.length = (s.port s.timePort).sent.length + 1 ∧
    t.clk = s.clk ∧ Frame [.spr] s t)) ∧
  (∀ (e : Fin 8) (t1 t2 t3 at0 : Nat) (s : State), (s.port s.timePort).tsyncIn = some (t2, t3, at0) → s.spr.tsyncT1 = some t1 →
    s.spr.thetaValid = true → Yields (.tsyncAnswer e) s (fun t => t.spr.theta = tsyncOffset t1 t2 t3 (8 * at0 + e.val) ∧
      t.spr.slew = tsyncOffset t1 t2 t3 (8 * at0 + e.val) ∧ t.spr.stale = false ∧ t.spr.tsyncT1 = none ∧ t.clk = s.clk ∧ Frame [.spr] s t)) ∧
  (∀ (e : Fin 8) (t1 t2 t3 at0 : Nat) (s : State), (s.port s.timePort).tsyncIn = some (t2, t3, at0) → s.spr.tsyncT1 = some t1 →
    s.spr.thetaValid = false → 800 < tsyncOffset t1 t2 t3 (8 * at0 + e.val) → Yields (.tsyncAnswer e) s (fun t =>
      t.spr.theta = tsyncOffset t1 t2 t3 (8 * at0 + e.val) ∧ t.spr.slew = 0 ∧
      t.clk.now = (s.clk.now + (tsyncOffset t1 t2 t3 (8 * at0 + e.val)).toNat / 8) % 2 ^ 64 ∧ Frame [.spr, .clk] s t)) ∧
  (∀ s : State, s.bus.chipId ≠ 0 → s.spr.answerAt + 1000000 ≤ s.clk.now → Yields .tsyncTimeout s (fun t =>
    t.spr = { s.spr with stale := true } ∧ t.unsync = true ∧ Frame [.spr] s t)) ∧
  (∀ t1 t2 t3 t4 : Nat, 2 * (tsyncOffset t1 t2 t3 t4).natAbs ≤ (((t2 : Int) - t1) + ((t3 : Int) - t4)).natAbs ∧
    (((t2 : Int) - t1) + ((t3 : Int) - t4)).natAbs ≤ 2 * (tsyncOffset t1 t2 t3 t4).natAbs + 1))

/-- A Frame Start opens a frame in the buffer that is free, or drops it and counts it; a line lands at its place in the buffer; a
Frame End or the time-out closes the frame with the next sequence number; a packet whose header is beyond correction is
discarded and counted (R343 to R353). STREAM_CONFIG, STREAM_START and STREAM_STOP, and I3C transfers (R354 to R359). -/
def Obligations.SensorIngest : Prop :=
  ((∀ (pt : Fin 6) (l : Fin 2) (vc : Fin 16) (n : BitVec 16) (off : Fin 21) (i : Nat) (s : State), s.ingLive = true → i < 48 →
    s.vcSlots pt.val l.val vc.val = [i] → (s.slot i).frame = none → s.slotInUse i < s.slotNbuf i → s.slotCfg i 0x2E 2 = 0 →
    Yields (.csiFrameStart pt l vc n 0 off) s (fun t => t.slot i = { s.slot i with
        st := .receiving, dropping := false, fsSeen := true, stalled := false
        frame := some { csiNum := n.toNat, tbFs := s.tbNow + off.val } } ∧
      t.lastFs i = (s.tbNow + off.val) % 2 ^ 64 ∧ (∀ k, k ≠ i → t.slot k = s.slot k) ∧ Frame [.ing, .regs 12] s t)) ∧
  (∀ (pt : Fin 6) (l : Fin 2) (vc : Fin 16) (n : BitVec 16) (off : Fin 21) (i : Nat) (s : State), s.ingLive = true → i < 48 →
    s.vcSlots pt.val l.val vc.val = [i] → (s.slot i).frame = none → s.slotNbuf i ≤ s.slotInUse i → s.slotCfg i 0x2E 2 = 0 →
    Yields (.csiFrameStart pt l vc n 0 off) s (fun t => (t.slot i).frame = none ∧ (t.slot i).dropping = true ∧
      t.evc Blk.ing 3 = s.evc Blk.ing 3 + 1 ∧ t.slotWritten i = s.slotWritten i ∧ Frame [.ing, .regs 12] s t)) ∧
  (∀ (pt : Fin 6) (l : Fin 2) (vc : Fin 16) (dt : BitVec 6) (d : List Byte) (crc : Bool) (i : Nat) (f : OpenFrame) (s : State),
    s.ingLive = true → dt ≠ 0x10 → dt ≠ 0x11 → (s.vcSlots pt.val l.val vc.val).find? (fun i => s.slotCfg i 0x14 1 == dt.toNat) = some i →
    (s.slot i).frame = some f → f.lines < s.slotHeight i → 0 < s.slotLine i →
    (storedLine (s.slotCfg i 0x14 1) (s.slotCfg i 0x15 1) d).length = s.slotLine i →
    s.writable Config.mIngest (s.slotBuf i (s.slotWritten i) + f.lines * s.slotCfg i 0x1E 2 * 64) (s.slotLine i) →
    Yields (.csiLongPacket pt l vc dt d 0 crc false) s (fun t =>
      t.mbytes (s.slotBuf i (s.slotWritten i) + f.lines * s.slotCfg i 0x1E 2 * 64) (s.slotLine i) =
        storedLine (s.slotCfg i 0x14 1) (s.slotCfg i 0x15 1) d ∧
      (∀ a, (a < s.slotBuf i (s.slotWritten i) + f.lines * s.slotCfg i 0x1E 2 * 64 ∨
        s.slotBuf i (s.slotWritten i) + f.lines * s.slotCfg i 0x1E 2 * 64 + s.slotLine i ≤ a) → t.mbyte a = s.mbyte a) ∧
      (t.slot i).frame = some { f with
        lines := f.lines + 1, crcLines := f.crcLines + b2n crc, bytes := f.bytes + s.slotLine i
        got := nset f.got f.lines (s.slotLine i + 1) } ∧ Frame [.ing, .mem] s t)) ∧
  (∀ (pt : Fin 6) (l : Fin 2) (vc : Fin 16) (dt : BitVec 6) (d : List Byte) (crc lost : Bool) (s : State), s.ingLive = true →
    Yields (.csiLongPacket pt l vc dt d 2 crc lost) s (fun t => t.evc Blk.ing 7 = s.evc Blk.ing 7 + 1 ∧
      t.reg Blk.ing (0x408 + 0x20 * pt.val) = BitVec.ofNat 32 ((fld (s.reg Blk.ing (0x408 + 0x20 * pt.val)) 0 16 + 1) % 65536) ∧
      Frame [.regs 12] s t)) ∧
  (∀ (pt : Fin 6) (l : Fin 2) (vc : Fin 16) (off : Fin 21) (i : Nat) (f : OpenFrame) (s : State), s.ingLive = true → i < 48 →
    s.vcSlots pt.val l.val vc.val = [i] → s.fullFrame i f → Yields (.csiFrameEnd pt l vc 0 off) s (fun t =>
      (t.slot i).frame = none ∧ (t.slot i).st = .armed ∧ t.slotWritten i = (s.slotWritten i + 1) % 65536 ∧
      t.evc Blk.ing 2 = s.evc Blk.ing 2 + 1 ∧ t.mbytes (s.slotHdr i (s.slotWritten i)) 2 = leBytes 2 (s.slotWritten i) ∧
      (∀ a, (a < s.slotHdr i (s.slotWritten i) ∨ s.slotHdr i (s.slotWritten i) + 64 ≤ a) → t.mbyte a = s.mbyte a) ∧
      Frame [.ing, .mem, .eng, .pat, .disp, .regs 12] s t)) ∧
  (∀ (i : SlotId) (f : OpenFrame) (s : State), s.ingLive = true → s.fullFrame i.val f → f.tbFs + s.slotCfg i.val 0x2C 2 * 10000 ≤ s.clk.now →
    Yields (.frameTimeout i) s (fun t => (t.slot i.val).frame = none ∧ t.slotWritten i.val = (s.slotWritten i.val + 1) % 65536 ∧
      t.evc Blk.ing 2 = s.evc Blk.ing 2 + 1 ∧ t.evc Blk.ing 4 = s.evc Blk.ing 4 + 1 ∧
      Frame [.ing, .mem, .eng, .pat, .disp, .regs 12] s t)) ∧
  (∀ (i : SlotId) (s : State), (s.slot i.val).running = true → (s.slot i.val).fsSeen = true → s.slotCfg i.val 0x30 2 ≠ 0 →
    s.lastFs i.val + s.slotCfg i.val 0x30 2 * 100000 ≤ s.clk.now → Yields (.stallTimeout i) s (fun t =>
      t.slot i.val = { s.slot i.val with stalled := true } ∧ Frame [.ing] s t)) ∧
  (∀ (i : SlotId) (v : BitVec 16) (s : State), Yields (.ingReleaseWrite i v) s (fun t =>
      ((v.toNat + 65536 - s.slotRelease i.val) % 65536 ≤ (s.slotWritten i.val + 65536 - s.slotRelease i.val) % 65536 →
        t.slotRelease i.val = v.toNat ∧ t.evc Blk.ing 8 = s.evc Blk.ing 8) ∧
      ((s.slotWritten i.val + 65536 - s.slotRelease i.val) % 65536 < (v.toNat + 65536 - s.slotRelease i.val) % 65536 →
        t.slotRelease i.val = s.slotRelease i.val ∧ t.evc Blk.ing 8 = s.evc Blk.ing 8 + 1) ∧ Frame [.regs 12] s t))) ∧
  ((∀ (m : MbId) (u : State) (s : State), (
      let q := fun o n => s.rq m.val o n
      let rng := fun v lo hi => decide (lo ≤ v ∧ v ≤ hi)
      let fm := dtFormats (q 0x14 1)
      let mult := match fm.find? (fun e => e.1 == q 0x15 1) with | some e => e.2 | none => 1
      s.asks m.val 0x0501 0x23
        [(0x10, 1, q 0x10 1 < 48), (0x11, 1, q 0x11 1 < 6), (0x12, 1, q 0x12 1 == 0 || (q 0x12 1 == 1 && q 0x16 1 == 3)),
         (0x13, 1, q 0x13 1 < 16), (0x14, 1, fm != []), (0x15, 1, fm.any (fun e => e.1 == q 0x15 1)), (0x16, 1, q 0x16 1 < 4),
         (0x17, 1, rng (q 0x17 1) 2 16), (0x18, 2, rng (q 0x18 2) 1 8192 && q 0x18 2 % mult == 0), (0x1A, 2, rng (q 0x1A 2) 1 8192),
         (0x1C, 2, rng (q 0x1C 2) 80 2500),
         (0x1E, 2, rng (q 0x1E 2) 1 512 && lineLen (q 0x14 1) (q 0x15 1) (q 0x18 2) ≤ q 0x1E 2 * 64),
         (0x20, 4, q 0x20 4 % 4096 == 0 && ingotRange (q 0x20 4) (q 0x17 1 * q 0x24 4) && !s.slotClash (q 0x10 1) (q 0x20 4) (q 0x17 1 * q 0x24 4)),
         (0x24, 4, q 0x24 4 % 4096 == 0 && q 0x1E 2 * 64 * q 0x1A 2 ≤ q 0x24 4),
         (0x28, 4, q 0x28 4 % 64 == 0 && ingotRange (q 0x28 4) (64 * q 0x17 1) && !s.slotClash (q 0x10 1) (q 0x28 4) (64 * q 0x17 1)),
         (0x2C, 2, 1 ≤ q 0x2C 2), (0x2E, 2, true), (0x30, 2, true), (0x32, 1, q 0x32 1 < 32 || q 0x32 1 == 0xFF)]) →
    (∀ k, k < 48 → (s.slot k).configured = false) → (s.slot (s.rq m.val 0x10 1)).st = .stopped →
    ((s.cover (s.rq m.val 0x20 4) (s.rq m.val 0x17 1 * s.rq m.val 0x24 4) (ownerKind (s.rq m.val 0x32 1)) (ownerId (s.rq m.val 0x32 1))
        readGroups ingWrites 0).bind (fun v => v.cover (s.rq m.val 0x28 4) (64 * s.rq m.val 0x17 1) (ownerKind (s.rq m.val 0x32 1))
        (ownerId (s.rq m.val 0x32 1)) readGroups ingWrites 0)) = some u →
    Yields (.streamConfig m) s (fun t => t.doneWith m.val [] ∧ (t.slot (s.rq m.val 0x10 1)).configured = true ∧
      (t.slot (s.rq m.val 0x10 1)).st = .stopped ∧
      (∀ k, k < 9 → t.reg Blk.ing (slotBase (s.rq m.val 0x10 1) + 0x24 + 4 * k) = BitVec.ofNat 32 (s.rq m.val (0x10 + 4 * k) 4)) ∧
      (∀ k, k ≠ s.rq m.val 0x10 1 → t.slot k = s.slot k) ∧ Frame [.fmn, .ing, .regs 8, .regs 12] s t)) ∧
  (∀ (m : MbId) (s : State), s.asks m.val 0x0502 1 [(0x10, 1, s.rq m.val 0x10 1 < 48)] → (s.slot (s.rq m.val 0x10 1)).running = false →
    (s.slot (s.rq m.val 0x10 1)).configured = true → 2 ≤ s.aon.pwr → Yields (.streamStart m) s (fun t =>
      t.doneWith m.val (leBytes 2 (s.slotWritten (s.rq m.val 0x10 1))) ∧ t.slot (s.rq m.val 0x10 1) = { s.slot (s.rq m.val 0x10 1) with
        st := .armed, fsSeen := false, stalled := false, dropping := false } ∧
      (∀ k, k ≠ s.rq m.val 0x10 1 → t.slot k = s.slot k) ∧ Frame [.fmn, .ing] s t)) ∧
  (∀ (m : MbId) (s : State), s.asks m.val 0x0503 2 [(0x10, 1, s.rq m.val 0x10 1 < 48), (0x11, 1, s.rq m.val 0x11 1 < 2), (0x12, 1, s.rq m.val 0x12 1 < 2)] →
    (s.slot (s.rq m.val 0x10 1)).running = true → (s.slot (s.rq m.val 0x10 1)).stopping = none → s.rq m.val 0x12 1 = 0 →
    (s.rq m.val 0x11 1 = 1 ∨ (s.slot (s.rq m.val 0x10 1)).frame = none) → Yields (.streamStop m) s (fun t =>
      t.doneWith m.val (leBytes 2 (s.slotWritten (s.rq m.val 0x10 1))) ∧ (t.slot (s.rq m.val 0x10 1)).st = .stopped ∧
      (t.slot (s.rq m.val 0x10 1)).frame = none ∧ (t.slot (s.rq m.val 0x10 1)).configured = (s.slot (s.rq m.val 0x10 1)).configured ∧
      t.slotWritten (s.rq m.val 0x10 1) = s.slotWritten (s.rq m.val 0x10 1) ∧ Frame [.fmn, .ing] s t)) ∧
  (∀ (m : MbId) (s : State), s.asks m.val 0x0503 2 [(0x10, 1, s.rq m.val 0x10 1 < 48), (0x11, 1, s.rq m.val 0x11 1 < 2), (0x12, 1, s.rq m.val 0x12 1 < 2)] →
    (s.slot (s.rq m.val 0x10 1)).running = true → (s.slot (s.rq m.val 0x10 1)).stopping = none → s.rq m.val 0x11 1 = 0 →
    (s.slot (s.rq m.val 0x10 1)).frame.isSome = true → Yields (.streamStop m) s (fun t =>
      (t.mb m.val).waiting = true ∧ (t.mb m.val).out = none ∧ t.slot (s.rq m.val 0x10 1) = { s.slot (s.rq m.val 0x10 1) with
        stopping := some (m.val, s.rq m.val 0x12 1 == 1), stopAt := s.clk.now } ∧ Frame [.fmn, .ing] s t)) ∧
  (∀ (i : SlotId) (k : Nat) (s : State), (s.slot i.val).stopping = some (k, false) → (s.slot i.val).stopAt + 900000 ≤ s.clk.now →
    Yields (.streamStopTimeout i) s (fun t => t.answers k
        { code := rDone, detail := 1, payload := leBytes 2 (s.slotWritten i.val), progress := 100 } ∧
      (t.slot i.val).st = .stopped ∧ (t.slot i.val).frame = none ∧ (t.slot i.val).stopping = none ∧ Frame [.fmn, .ing] s t)) ∧
  (∀ (m : MbId) (l : List Byte) (s : State), (
      let q := fun o n => s.rq m.val o n
      s.asks m.val 0x0504 (0x10 + q 0x14 2)
        [(0x10, 1, q 0x10 1 < 2), (0x11, 1, decide (1 ≤ q 0x11 1 ∧ q 0x11 1 ≤ 10)), (0x12, 1, q 0x12 1 < 128), (0x13, 1, true),
         (0x14, 2, q 0x14 2 ≤ 200), (0x16, 2, q 0x16 2 ≤ 200), (0x18, 1, q 0x18 1 < 2), (0x20, q 0x14 2, true)]) →
    s.rq m.val 0x11 1 = 2 → l.length ≤ s.rq m.val 0x16 2 → Yields (.i3cXfer m (.read l)) s (fun t =>
      t.doneWith m.val (leBytes 2 l.length ++ [0, 0, 0, 0, 0, 0] ++ l) ∧ Frame [.fmn] s t) ∧
    Yields (.i3cXfer m .addrNack) s (fun t => t.refuses m.val rStateConflict 1 ∧ Frame [.fmn] s t)) ∧
  (∀ (c : Fin 2) (h : Bool) (s : State), Yields (.i3cIbiRequest c h) s (fun t => t.ing = s.ing ∧ t.fmn = s.fmn ∧ Frame [] s t)))

/-- ENGINE_CFG and EDGE_FLOOR: an accepted configuration leaves the profile DISABLED with RUNSEQ 0 and its payload in the frame;
enable, disable and clear change its state as R383 says; EDGE_FLOOR writes the floor plane of later runs (R382, R383, R964).
Starts and runs: an arrival of a profile with one link makes its start pending, of one with both links waits for the other; the
oldest pending start begins with the next RUNSEQ; an OK run leaves its header and its output and counts; a stopped run and one
over its limit end ABORTED, one whose inputs disagree DESCRIPTOR_INVALID (R375 to R380, R404, R407, R410). -/
def Obligations.VisionEngines : Prop :=
  ((∀ (m : MbId) (e p : Nat) (u : State) (s : State), s.rq m.val 0x10 1 = e → s.rq m.val 0x11 1 = p → s.rq m.val 0x12 1 = 0 → e < 6 → e ≠ 2 →
    s.accepts m.val 0x0511 (s.rqLen m.val == 0x30 + engBlock e) (s.fieldChecks m.val (engConfigFields (s.rq m.val))) →
    s.rq m.val 0x14 1 = 0xFF → (s.prof e p).st = 0 →
    ((s.cover (s.rq m.val 0x30 4) (s.rq m.val 0x15 1 * s.rq m.val 0x34 4) (ownerKind 0xFF) (ownerId 0xFF) readGroups (engWrites e) 0).bind
      (fun v => v.cover (s.rq m.val 0x38 4) (64 * s.rq m.val 0x15 1) (ownerKind 0xFF) (ownerId 0xFF) readGroups (engWrites e) 0)) = some u →
    Yields (.engineCfg m) s (fun t => t.doneWith m.val [] ∧ t.prof e p = { st := 1 } ∧
      (∀ w, w < 60 → t.reg (engBlk e) (0x1010 + 0x100 * p + 4 * w) = BitVec.ofNat 32 (s.rq m.val (0x10 + 4 * w) 4)) ∧
      (∀ d k, (d ≠ e ∨ k ≠ p) → t.prof d k = s.prof d k) ∧ Frame [.fmn, .eng, .regs 8, .regs (engBlk e)] s t)) ∧
  (∀ (m : MbId) (e p a : Nat) (s : State), s.rq m.val 0x10 1 = e → s.rq m.val 0x11 1 = p → s.rq m.val 0x12 1 = a → a ≠ 0 →
    s.accepts m.val 0x0511 (3 ≤ s.rqLen m.val && s.rqLen m.val ≤ 240) [(0x10, e < 6), (0x11, p < 8), (0x12, a < 4)] →
    (a = 1 → (s.prof e p).st = 1 → 2 ≤ s.aon.pwr → Yields (.engineCfg m) s (fun t => t.doneWith m.val [] ∧
      t.prof e p = { s.prof e p with st := 2 } ∧ Frame [.fmn, .eng] s t)) ∧
    (a = 1 → (s.prof e p).st = 2 → Yields (.engineCfg m) s (fun t => t.refuses m.val rAlreadyDone 0 ∧ t.eng = s.eng ∧ Frame [.fmn] s t)) ∧
    (a = 2 → (s.prof e p).st = 2 → (s.prof e p).stopMb = none → s.profActive e p = false → (s.prof e p).pendingToken = none →
      Yields (.engineCfg m) s (fun t => t.doneWith m.val [] ∧ (t.prof e p).st = 1 ∧ (t.prof e p).pending = false ∧
        (t.prof e p).arrivals = [] ∧ (t.prof e p).runseq = (s.prof e p).runseq ∧ Frame [.fmn, .eng] s t)) ∧
    (a = 2 → (s.prof e p).st = 2 → (s.prof e p).stopMb = none → s.profActive e p = true → Yields (.engineCfg m) s (fun t =>
        (t.mb m.val).waiting = true ∧ (t.prof e p).stopMb = some m.val ∧ (t.prof e p).st = 2 ∧
        (∀ r, (t.engine e).run = some r → r.stop = true) ∧ Frame [.fmn, .eng] s t)) ∧
    (a = 3 → (s.prof e p).st = 2 → Yields (.engineCfg m) s (fun t => t.refuses m.val rStateConflict 1 ∧ t.eng = s.eng ∧ Frame [.fmn] s t))) ∧
  (∀ (m : MbId) (s : State), s.accepts m.val 0x0801 (s.rqLen m.val == 0x24) (s.fieldChecks m.val ([(0x10, 1, decide (s.rq m.val 0x10 1 < 8))] ++
      [0x14, 0x18, 0x1C, 0x20, 0x24, 0x28, 0x2C, 0x30].map (fun o =>
        (o, 4, if o = 0x20 then h0Ok (s.rq m.val o 4) else f32Ok (s.rq m.val) o)))) → (s.prof 5 (s.rq m.val 0x10 1)).st ≠ 0 →
    Yields (.edgeFloor m) s (fun t => t.doneWith m.val [] ∧
      (∀ i, i < 8 → t.reg Blk.edge (0x1064 + 0x100 * s.rq m.val 0x10 1 + 4 * i) = BitVec.ofNat 32 (s.rq m.val (0x14 + 4 * i) 4)) ∧
      t.eng = s.eng ∧ Frame [.fmn, .regs Blk.edge] s t))) ∧
  ((∀ (e : EngId) (p : ProfId) (b : Bool) (l : List Bool) (s : State), s.engLive e.val = true → s.chained e.val p.val = true →
    (s.prof e.val p.val).arrivals = b :: l → (s.prof e.val p.val).pending = false →
    ((s.engTrig e.val p.val false).1 = 0 ∨ (s.engTrig e.val p.val true).1 = 0) → Yields (.triggerArrival e p) s (fun t =>
      t.prof e.val p.val = { s.prof e.val p.val with arrivals := l, pending := true, pendingToken := none } ∧
      (t.engine e.val).order = (s.engine e.val).order ++ [p.val] ∧ (t.engine e.val).run = (s.engine e.val).run ∧ Frame [.eng] s t)) ∧
  (∀ (e : EngId) (p : ProfId) (b : Bool) (l : List Bool) (s : State), s.engLive e.val = true → s.chained e.val p.val = true →
    (s.prof e.val p.val).arrivals = b :: l → (s.engTrig e.val p.val false).1 ≠ 0 → (s.engTrig e.val p.val true).1 ≠ 0 →
    (s.prof e.val p.val).arrA = false → (s.prof e.val p.val).arrB = false → Yields (.triggerArrival e p) s (fun t =>
      t.prof e.val p.val = { s.prof e.val p.val with arrivals := l, arrA := !b, arrB := b } ∧
      (t.engine e.val).order = (s.engine e.val).order ∧ Frame [.eng] s t)) ∧
  (∀ (e : EngId) (p : Nat) (l : List Nat) (i j : RunInput) (s : State), s.engLive e.val = true → (s.engine e.val).run = none →
    (s.engine e.val).order = p :: l → s.resolve e.val p 0 = some i → s.resolve e.val p 1 = some j → Yields (.runBegin e) s (fun t =>
      (∃ r, (t.engine e.val).run = some r ∧ r.prof = p ∧ r.runseq = (s.prof e.val p).runseq ∧ r.tbStart = s.tbNow ∧
        r.skipped = (s.prof e.val p).skipped ∧ r.stop = false ∧ r.token = (s.prof e.val p).pendingToken) ∧
      (t.engine e.val).order = l ∧ (t.prof e.val p).pending = false ∧ (t.prof e.val p).skipped = 0 ∧
      (t.prof e.val p).runseq = ((s.prof e.val p).runseq + 1) % 65536 ∧ Frame [.eng] s t)) ∧
  (∀ (e : EngId) (p : Nat) (l : List Nat) (s : State), s.engLive e.val = true → (s.engine e.val).run = none →
    (s.engine e.val).order = p :: l → s.resolve e.val p 0 = none → (s.prof e.val p).pendingToken = none → Yields (.runBegin e) s (fun t =>
      (t.engine e.val).run = none ∧ (t.engine e.val).order = l ∧ (t.prof e.val p).skipped = (s.prof e.val p).skipped + 1 ∧
      t.evc (engBlk e.val) 3 = s.evc (engBlk e.val) 3 + 1 ∧ Frame [.eng, .regs (engBlk e.val)] s t)) ∧
  (∀ (e : EngId) (stall : Nat) (r : Run) (x : RunResult) (u v w : State) (s : State), s.engLive e.val = true → (s.engine e.val).run = some r →
    r.stop = false → r.badInput = false → r.token = none → e.val ≠ 5 → s.runCompute e.val r = (x, u) → x.acc = .ok →
    u.writeLines { e := e.val, ctx := ownerCtx r.owner } x.lines = (.ok, v) → v.engine e.val = s.engine e.val →
    (v.prof e.val r.prof).stopMb = none → (v.prof e.val r.prof).clearDue = false →
    v.writeMem (engMaster e.val) .ordinary (ownerCtx r.owner) r.hdrAddr (v.runHeader e.val r stOk x.flags stall x.spec) = (.ok, w) →
    Yields (.runEnd e stall) s (fun t => (t.engine e.val).run = none ∧ (t.prof e.val r.prof).lastOk = some r.runseq ∧
      (t.prof e.val r.prof).prevOk = (s.prof e.val r.prof).lastOk ∧ (t.prof e.val r.prof).lastStatus = 0 ∧
      (t.prof e.val r.prof).st = (s.prof e.val r.prof).st ∧ t.evc (engBlk e.val) 2 = w.evc (engBlk e.val) 2 + 1 ∧ t.mem = w.mem)) ∧
  (∀ (e : EngId) (stall : Nat) (r : Run) (s : State), s.engLive e.val = true → (s.engine e.val).run = some r →
    r.stop = false → r.badInput = true → r.token = none → (s.prof e.val r.prof).stopMb = none → (s.prof e.val r.prof).clearDue = false →
    s.writable (engMaster e.val) r.hdrAddr 64 → Yields (.runEnd e stall) s (fun t => (t.engine e.val).run = none ∧
      (t.prof e.val r.prof).lastStatus = stDescriptor ∧ (t.prof e.val r.prof).lastOk = (s.prof e.val r.prof).lastOk ∧
      t.mbytes r.hdrAddr 3 = leBytes 2 r.runseq ++ [BitVec.ofNat 8 stDescriptor] ∧
      (∀ a, (a < r.hdrAddr ∨ r.hdrAddr + 64 ≤ a) → t.mbyte a = s.mbyte a) ∧
      t.evc (engBlk e.val) 2 = s.evc (engBlk e.val) 2 + 1 ∧ t.evc (engBlk e.val) 4 = s.evc (engBlk e.val) 4 + 1 ∧
      Frame [.eng, .mem, .regs (engBlk e.val)] s t)) ∧
  (∀ (e : EngId) (stall : Nat) (r : Run) (s : State), s.engLive e.val = true → (s.engine e.val).run = some r →
    r.stop = true → r.token = none → (s.prof e.val r.prof).stopMb = none → (s.prof e.val r.prof).clearDue = false →
    s.writable (engMaster e.val) r.hdrAddr 64 → Yields (.runStop e 0 stall) s (fun t => (t.engine e.val).run = none ∧
      (t.prof e.val r.prof).lastStatus = stAborted ∧ (t.prof e.val r.prof).lastOk = (s.prof e.val r.prof).lastOk ∧
      t.mbytes r.hdrAddr 3 = leBytes 2 r.runseq ++ [BitVec.ofNat 8 stAborted] ∧
      (∀ a, (a < r.hdrAddr ∨ r.hdrAddr + 64 ≤ a) → t.mbyte a = s.mbyte a) ∧
      Frame [.eng, .mem, .regs (engBlk e.val)] s t)) ∧
  (∀ (e : EngId) (stall : Nat) (r : Run) (s : State), s.engLive e.val = true → (s.engine e.val).run = some r →
    r.stop = false → r.param 0x1C 2 * 1000 ≤ s.tbNow - r.tbStart → r.token = none → (s.prof e.val r.prof).stopMb = none →
    (s.prof e.val r.prof).clearDue = false → s.writable (engMaster e.val) r.hdrAddr 64 → Yields (.runLimit e 0 stall) s (fun t =>
      (t.engine e.val).run = none ∧ (t.prof e.val r.prof).lastStatus = stAborted ∧
      t.evc (engBlk e.val) 2 = s.evc (engBlk e.val) 2 + 1 ∧ Frame [.eng, .mem, .regs (engBlk e.val)] s t)))

/-- GRAPH_LOAD, GRAPH_START and GRAPH_STOP with its time-out (R444, R464 to R467). -/
def Obligations.GraphCommands : Prop :=
  (∀ (m : MbId) (g owner n src : Nat) (d : List Byte) (s : State), s.rq m.val 0x10 1 = g → s.rq m.val 0x11 1 = owner → s.rq m.val 0x12 1 = n →
    s.rq m.val 0x18 8 = src → s.asks m.val 0x0521 0x10
      [(0x10, 1, g < 16), (0x11, 1, owner == 0xFF || s.ctxOpen owner), (0x12, 1, 1 ≤ n && n ≤ 64), (0x13, 1, s.rq m.val 0x13 1 < 2),
       (0x14, 1, s.rq m.val 0x14 1 < 48), (0x15, 1, s.rq m.val 0x15 1 == 0xFF || (s.rq m.val 0x15 1 < 48 && s.rq m.val 0x15 1 != s.rq m.val 0x14 1)),
       (0x16, 2, 1 ≤ s.rq m.val 0x16 2), (0x18, 8, src % 16 == 0 && ingotRange src (16 * n))] →
    (s.graph g).st = .unloaded → s.readMem Config.mForeman .secure 0 src (16 * n) = (d, .ok, s) →
    (∀ i, i < n → s.nodeReason g owner n i (fun k => bytesAt d (16 * i + k) 1) = none) → Yields (.graphLoad m) s (fun t =>
      t.doneWith m.val [] ∧ (t.graph g).st = .stopped ∧
      (∀ w, w < 4 * n → t.reg Blk.pat (0x4000 + 0x400 * g + 4 * w) = BitVec.ofNat 32 (bytesAt d (4 * w) 4)) ∧
      t.qEn (76 + g) = true ∧ (t.queue (76 + g)).occ = 0 ∧ (∀ k, k ≠ g → t.graph k = s.graph k) ∧
      Frame [.fmn, .pat, .queues, .regs 6, .regs 19] s t)) ∧
  (∀ (m : MbId) (g : Nat) (s : State), s.rq m.val 0x10 1 = g → s.asks m.val 0x0522 2 [(0x10, 1, g < 16), (0x11, 1, s.rq m.val 0x11 1 < 2)] →
    2 ≤ s.aon.pwr → ((s.graph g).st = .stopped ∨ ((s.graph g).st = .faulted ∧ s.rq m.val 0x11 1 = 1)) → Yields (.graphStart m) s (fun t =>
      t.doneWith m.val [] ∧ t.graph g = { s.graph g with
        st := .idle, first := true, events := [], arrA := none, arrB := none, pending := none } ∧
      (∀ k, k ≠ g → t.graph k = s.graph k) ∧ Frame [.fmn, .pat] s t)) ∧
  (∀ (m : MbId) (g : Nat) (s : State), s.rq m.val 0x10 1 = g → s.asks m.val 0x0523 3 [(0x10, 1, g < 16), (0x11, 1, s.rq m.val 0x11 1 < 2), (0x12, 1, s.rq m.val 0x12 1 < 2)] →
    ((s.graph g).st = .idle ∨ ((s.graph g).st = .running ∧ s.rq m.val 0x11 1 = 1)) → (s.graph g).stopping = none → s.rq m.val 0x12 1 = 0 →
    Yields (.graphStop m) s (fun t => t.doneWith m.val [] ∧ (t.graph g).st = .stopped ∧ (t.graph g).inst = none ∧ (t.graph g).pending = none ∧
      (t.graph g).events = [] ∧ t.evc Blk.pat 2 = s.evc Blk.pat 2 ∧ t.queues = s.queues ∧ Frame [.fmn, .pat, .eng] s t)) ∧
  (∀ (m : MbId) (g : Nat) (s : State), s.rq m.val 0x10 1 = g → s.asks m.val 0x0523 3 [(0x10, 1, g < 16), (0x11, 1, s.rq m.val 0x11 1 < 2), (0x12, 1, s.rq m.val 0x12 1 < 2)] →
    (s.graph g).st = .running → (s.graph g).stopping = none → s.rq m.val 0x11 1 = 0 → Yields (.graphStop m) s (fun t =>
      (t.mb m.val).waiting = true ∧ (t.graph g).st = .running ∧ (t.graph g).inst = (s.graph g).inst ∧ (t.graph g).pending = none ∧
      (t.graph g).stopping = some (m.val, s.rq m.val 0x12 1 == 1) ∧ (t.graph g).stopAt = s.clk.now ∧ Frame [.fmn, .pat] s t)) ∧
  (∀ (g : GraphId) (k : Nat) (s : State), (s.graph g.val).stopping = some (k, false) → (s.graph g.val).stopAt + 900000 ≤ s.clk.now →
    Yields (.graphStopTimeout g) s (fun t => t.answers k { code := rDone, detail := 1, progress := 100 } ∧ (t.graph g.val).st = .stopped ∧
      (t.graph g.val).inst = none ∧ (t.graph g.val).stopping = none ∧ Frame [.fmn, .pat, .eng] s t))

/-- A trigger starts an instance of an idle graph with the frame's number, instant and the next FCOUNT; one that meets a running
instance is an overlap, or replaces the pending trigger (R447 to R449). The nodes: RUN makes a start and its token outstanding,
or NOT_STARTED; WAIT goes on with its tokens, at its time or at its time-out; BRANCH and TIMESTAMP; SIGNAL pushes the record of
the instance; END ends it and releases the frames; an instance over its limit ends with a LIMIT record (R450 to R461). -/
def Obligations.GraphInstances : Prop :=
  ((∀ (g : GraphId) (b : Bool) (n tb : Nat) (l : List (Bool × Nat × Nat)) (s : State), s.patLive = true → (s.graph g.val).events = (b, n, tb) :: l →
    (s.graph g.val).st = .idle → s.graphTrig g.val true = 0xFF → Yields (.graphTrigger g) s (fun t =>
      (t.graph g.val).st = .running ∧ (t.graph g.val).inst = some { trig := { seqA := n, tb := tb }, startAt := s.tbNow } ∧
      (t.graph g.val).events = l ∧
      (t.graph g.val).fcount = (if (s.graph g.val).first = true then 0 else ((s.graph g.val).fcount + 1) % 65536) ∧
      (t.graph g.val).first = false ∧ (∀ k, k ≠ g.val → t.graph k = s.graph k) ∧ Frame [.pat, .regs 19] s t)) ∧
  (∀ (g : GraphId) (b : Bool) (n tb : Nat) (l : List (Bool × Nat × Nat)) (s : State), s.patLive = true → (s.graph g.val).events = (b, n, tb) :: l →
    (s.graph g.val).st = .running → s.graphTrig g.val true = 0xFF → s.graphCfg g.val 0x13 1 = 1 → Yields (.graphTrigger g) s (fun t =>
      t.graph g.val = { s.graph g.val with events := l } ∧ t.evc Blk.pat 3 = s.evc Blk.pat 3 + 1 ∧ Frame [.pat, .regs 19] s t)) ∧
  (∀ (g : GraphId) (b : Bool) (n tb : Nat) (l : List (Bool × Nat × Nat)) (s : State), s.patLive = true → (s.graph g.val).events = (b, n, tb) :: l →
    (s.graph g.val).st = .running → s.graphTrig g.val true = 0xFF → s.graphCfg g.val 0x13 1 ≠ 1 → Yields (.graphTrigger g) s (fun t =>
      (t.graph g.val).pending = some { seqA := n, tb := tb } ∧ (t.graph g.val).inst = (s.graph g.val).inst ∧
      ((s.graph g.val).pending.isSome = true → t.evc Blk.pat 3 = s.evc Blk.pat 3 + 1) ∧
      ((s.graph g.val).pending = none → t.evc Blk.pat 3 = s.evc Blk.pat 3) ∧ Frame [.pat, .regs 19] s t)) ∧
  (∀ (g : GraphId) (n tb : Nat) (l : List (Bool × Nat × Nat)) (k u : Nat) (s : State), s.patLive = true →
    (s.graph g.val).events = (true, n, tb) :: l → (s.graph g.val).st = .idle → s.graphTrig g.val true ≠ 0xFF →
    (s.graph g.val).arrA = some (k, u) → (s.graph g.val).arrB = none → Yields (.graphTrigger g) s (fun t =>
      (t.graph g.val).inst = some { trig := { seqA := k, seqB := n, tb := max u tb }, startAt := s.tbNow } ∧
      (t.graph g.val).arrA = none ∧ (t.graph g.val).arrB = none ∧ Frame [.pat, .regs 19] s t))) ∧
  ((∀ (g : GraphId) (i : Inst) (e p k : Nat) (s : State), s.nodeAt g.val 1 = some i → s.nodeFld g.val i.node 1 1 = e →
    s.nodeFld g.val i.node 2 1 = p → s.nodeFld g.val i.node 3 1 = k → (i.token k).outstanding = false → (s.prof e p).st = 2 →
    s.engCfg e p 0x13 1 = 1 → (s.prof e p).pending = false → Yields (.runNode g) s (fun t =>
      (∃ j, (t.graph g.val).inst = some j ∧ j.node = i.node + 1 ∧ j.token k = { outstanding := true } ∧ ∀ h, h ≠ k → j.token h = i.token h) ∧
      (t.prof e p).pending = true ∧ (t.prof e p).pendingToken = some (g.val, k) ∧
      (t.engine e).order = (s.engine e).order ++ [p] ∧ Frame [.pat, .eng] s t)) ∧
  (∀ (g : GraphId) (i : Inst) (e p k : Nat) (s : State), s.nodeAt g.val 1 = some i → s.nodeFld g.val i.node 1 1 = e →
    s.nodeFld g.val i.node 2 1 = p → s.nodeFld g.val i.node 3 1 = k → (i.token k).outstanding = false → (s.prof e p).st ≠ 2 →
    Yields (.runNode g) s (fun t => (∃ j, (t.graph g.val).inst = some j ∧ j.node = i.node + 1 ∧ j.token k = { outcome := 3 }) ∧
      t.eng = s.eng ∧ Frame [.pat] s t)) ∧
  (∀ (g : GraphId) (i : Inst) (s : State), s.nodeAt g.val 2 = some i → s.nodeFld g.val i.node 1 1 = 0 → s.waitDone g.val i = true →
    Yields (.waitNode g) s (fun t => (t.graph g.val).inst = some { i with node := i.node + 1, waitFrom := none } ∧ Frame [.pat] s t)) ∧
  (∀ (g : GraphId) (i : Inst) (s : State), s.nodeAt g.val 2 = some i → s.nodeFld g.val i.node 1 1 = 0 → s.waitDone g.val i = false →
    i.waitFrom = none → Yields (.waitNode g) s (fun t => (t.graph g.val).inst = some { i with waitFrom := some s.tbNow } ∧ Frame [.pat] s t)) ∧
  (∀ (g : GraphId) (i : Inst) (t0 : Nat) (s : State), s.nodeAt g.val 2 = some i → s.nodeFld g.val i.node 1 1 = 1 → i.waitFrom = some t0 →
    i.trig.tb + 100 * s.nodeFld g.val i.node 4 4 ≤ s.tbNow → Yields (.waitTimeReached g) s (fun t =>
      (t.graph g.val).inst = some { i with node := i.node + 1, waitFrom := none } ∧ Frame [.pat] s t)) ∧
  (∀ (g : GraphId) (i : Inst) (t0 : Nat) (s : State), s.nodeAt g.val 2 = some i → s.nodeFld g.val i.node 1 1 = 0 → i.waitFrom = some t0 →
    s.nodeFld g.val i.node 8 2 ≠ 0 → t0 + 1000 * s.nodeFld g.val i.node 8 2 ≤ s.tbNow → s.waitDone g.val i = false →
    Yields (.waitNodeTimeout g) s (fun t =>
      (t.graph g.val).inst = some { i with node := i.node + 1, waitFrom := none, waitTimeout := true } ∧ Frame [.pat] s t)) ∧
  (∀ (g : GraphId) (i : Inst) (s : State), s.nodeAt g.val 4 = some i → s.nodeFld g.val i.node 1 1 = 0 → Yields (.branchNode g) s (fun t =>
      (t.graph g.val).inst = some { i with
        waitFrom := none
        node := if (s.graph g.val).fcount % s.nodeFld g.val i.node 2 1 = s.nodeFld g.val i.node 3 1 then s.nodeFld g.val i.node 4 1
          else i.node + 1 } ∧ Frame [.pat] s t)) ∧
  (∀ (g : GraphId) (i : Inst) (s : State), s.nodeAt g.val 5 = some i → Yields (.timestampNode g) s (fun t =>
      (∃ j, (t.graph g.val).inst = some j ∧ j.node = i.node + 1 ∧ nget j.stamps (s.nodeFld g.val i.node 1 1) = s.tbNow ∧
        ∀ h, h ≠ s.nodeFld g.val i.node 1 1 → nget j.stamps h = nget i.stamps h) ∧ Frame [.pat] s t)) ∧
  (∀ (g : GraphId) (i : Inst) (s : State), s.nodeAt g.val 3 = some i → s.nodeFld g.val i.node 1 1 = 0 → (∀ k, (i.token k).outstanding = false) →
    s.qEn (76 + g.val) = true → 0 < s.credits (76 + g.val) → s.ringOk (76 + g.val) 1 = true → (s.queue (76 + g.val)).dropping = false →
    Yields (.signalNode g) s (fun t => (t.queue (76 + g.val)).occ = (s.queue (76 + g.val)).occ + 1 ∧
      t.mbytes (s.qSlot (76 + g.val) (s.queue (76 + g.val)).tail) 4 =
        leBytes 2 (s.graph g.val).fcount ++ leBytes 1 g.val ++ leBytes 1 (s.nodeFld g.val i.node 2 1) ∧
      (t.graph g.val).inst = some { i with node := i.node + 1, waitFrom := none } ∧
      (t.graph g.val).epochSeen = (s.queue (76 + g.val)).epoch ∧ Frame [.pat, .queues, .mem] s t)) ∧
  (∀ (g : GraphId) (i : Inst) (s : State), s.nodeAt g.val 3 = some i → s.nodeFld g.val i.node 1 1 = 0 → (∀ k, (i.token k).outstanding = false) →
    s.qEn (76 + g.val) = true → s.credits (76 + g.val) = 0 → Yields (.signalNode g) s (fun t => t.evc Blk.pat 4 = s.evc Blk.pat 4 + 1 ∧
      (t.graph g.val).inst = some { i with node := i.node + 1, waitFrom := none } ∧ t.queues = s.queues ∧ t.mem = s.mem ∧
      Frame [.pat, .regs 19] s t)) ∧
  (∀ (g : GraphId) (i : Inst) (s : State), s.nodeAt g.val 0 = some i → s.graphNodes g.val ≤ i.node → (∀ k, (i.token k).outstanding = false) →
    (s.graph g.val).stopping = none → (s.graph g.val).pending = none → Yields (.endNode g) s (fun t => (t.graph g.val).st = .idle ∧
      (t.graph g.val).inst = none ∧ t.evc Blk.pat 2 = s.evc Blk.pat 2 + 1 ∧ Frame [.pat, .regs 19] s t)) ∧
  (∀ (g : GraphId) (i : Inst) (s : State), s.nodeAt g.val 0 = some i → s.graphNodes g.val ≤ i.node → (∀ k, (i.token k).outstanding = true → 15 ≤ k) →
    (s.graph g.val).stopping = none → ∀ u, (s.graph g.val).pending = some u → Yields (.endNode g) s (fun t => (t.graph g.val).st = .running ∧
      (t.graph g.val).inst = some { trig := u, late := true, startAt := s.tbNow } ∧ (t.graph g.val).pending = none ∧
      t.evc Blk.pat 2 = s.evc Blk.pat 2 + 1 ∧ Frame [.pat, .regs 19] s t)) ∧
  (∀ (g : GraphId) (i : Inst) (s : State), s.patLive = true → (s.graph g.val).st = .running → (s.graph g.val).inst = some i →
    i.startAt + 10000 * s.graphCfg g.val 0x16 2 ≤ s.tbNow → s.qEn (76 + g.val) = false → (s.graph g.val).stopping = none →
    (s.graph g.val).pending = none → Yields (.instanceLimit g) s (fun t => (t.graph g.val).st = .idle ∧ (t.graph g.val).inst = none ∧
      t.evc Blk.pat 5 = s.evc Blk.pat 5 + 1 ∧ t.evc Blk.pat 4 = s.evc Blk.pat 4 + 1 ∧ t.mem = s.mem ∧ Frame [.pat, .eng, .regs 19] s t)))

/-- Discovery and supervision on the lead: an ANNOUNCE takes an address and is answered by ASSIGN; CAPS of the offered node makes it
ACTIVE, one that does not fit is BAD_FRAME; an offer ends after 100 ms; a HEARTBEAT is recorded; a node that stays away is LOST
and a safety node's loss trips an ARMED Quench; a LOST address lingers; LOAD goes to Q72 (R928 to R931, R935, R945, R949).
Frames on a timer and the return of the route: the chip HEARTBEAT, TIME_SYNC and its TIME_FOLLOW are requested in their
dedicated buffers with their sequence numbers; a device whose route to chip 0 returns takes a new, non-zero REG_EPOCH (R936 to
R938, R950). -/
def Obligations.NodesOfTheBus : Prop :=
  ((∀ (x : InpFrame) (a : Nat) (s : State), s.inpHead 0x01 = some x → s.isLead = true → s.quenchClear → x.chip = s.bus.chipId → x.seg < 4 →
    s.chooseAddr (bytesAt x.frame.data 0 8) = some a → (s.node a).st < 2 → s.manages x.seg = true → (s.fbc x.seg).st ≠ .off →
    Yields .announceReceived s (fun t => (t.node a).st = 2 ∧ (t.node a).uid = bytesAt x.frame.data 0 8 ∧ (t.node a).seg = x.seg ∧
      (t.node a).host = x.chip ∧ (t.node a).offeredAt = s.clk.now ∧ (∀ k, k ≠ a → t.node k = s.node k) ∧
      t.inp.inbox = s.inp.inbox.tail ∧ (t.fbc x.seg).txReq.toNat.testBit 4 = true ∧
      fld (t.reg (fbcBlk x.seg) (0x1000 + 0x50 * 4)) 16 8 = 0x02 ∧ Frame [.inp] s t)) ∧
  (∀ (x : InpFrame) (s : State), s.inpHead 0x31 = some x → s.isLead = true → (s.node x.src).st = 2 →
    bytesAt x.frame.data 0 8 = (s.node x.src).uid → s.fromNode x = true → s.qEn 72 = false → Yields .capsReceived s (fun t =>
      t.node x.src = { s.node x.src with
        st := 3, cls := bytesAt x.frame.data 8 1, role := bytesAt x.frame.data 9 1, trxLoop := bytesAt x.frame.data 12 2
        turnRes := bytesAt x.frame.data 14 2, hbAt := s.clk.now } ∧
      t.evc Blk.inp 2 = s.evc Blk.inp 2 + 1 ∧ t.evc Blk.inp 8 = s.evc Blk.inp 8 + 1 ∧ t.inp.inbox = s.inp.inbox.tail ∧
      Frame [.inp, .regs 26] s t)) ∧
  (∀ (x : InpFrame) (s : State), s.inpHead 0x31 = some x → ((s.node x.src).st < 2 ∨ (s.node x.src).st = 4 ∨
      bytesAt x.frame.data 0 8 ≠ (s.node x.src).uid ∨ s.fromNode x = false) → Yields .capsReceived s (fun t =>
      t.inp.nodes = s.inp.nodes ∧ t.evc Blk.inp 7 = s.evc Blk.inp 7 + 1 ∧ Frame [.inp, .regs 26] s t)) ∧
  (∀ (a : BitVec 8) (s : State), s.frozen = false → (s.node a.toNat).st = 2 → (s.node a.toNat).offeredAt + 10000000 ≤ s.clk.now →
    (s.node a.toNat).prev < 2 → Yields (.offerTimeout a) s (fun t => t.node a.toNat = vacant (s.node a.toNat).binding ∧
      (∀ k, k ≠ a.toNat → t.node k = s.node k) ∧ Frame [.inp] s t)) ∧
  (∀ (x : InpFrame) (s : State), s.inpHead 0x10 = some x → s.isLead = true → (s.node x.src).st = 3 → s.fromNode x = true →
    Yields .heartbeatReceived s (fun t => t.node x.src = { s.node x.src with hbAt := s.clk.now } ∧ t.inp.inbox = s.inp.inbox.tail ∧
      Frame [.inp] s t)) ∧
  (∀ (x : InpFrame) (s : State), s.inpHead 0x10 = some x → ((s.node x.src).st = 0 ∨ (s.node x.src).st = 4) →
    Yields .heartbeatReceived s (fun t => t.inp.nodes = s.inp.nodes ∧ t.evc Blk.inp 7 = s.evc Blk.inp 7 + 1 ∧ Frame [.inp, .regs 26] s t)) ∧
  (∀ (a : BitVec 8) (s : State), s.frozen = false → s.isLead = true → (s.node a.toNat).st = 3 →
    (s.node a.toNat).hbAt + ((s.node a.toNat).hbPeriod * (s.node a.toNat).hbMiss + 1) * 100000 ≤ s.clk.now → s.qEn 72 = false →
    Yields (.heartbeatLoss a) s (fun t => (t.node a.toNat).st = 4 ∧ (t.node a.toNat).lostAt = s.clk.now ∧
      t.evc Blk.inp 3 = s.evc Blk.inp 3 + 1 ∧
      (1 ≤ (s.node a.toNat).role → (s.node a.toNat).role ≤ 3 → s.qch.st = .armed → t.qch.st = .tripped ∧ t.pairRun = false) ∧
      Frame [.inp, .regs 26] s t)) ∧
  (∀ (a : BitVec 8) (s : State), s.frozen = false → (s.node a.toNat).st = 4 →
    (s.node a.toNat).lostAt + s.inp.linger * 100000000 ≤ s.clk.now → Yields (.lingerExpiry a) s (fun t =>
      t.node a.toNat = vacant (s.node a.toNat).binding ∧ Frame [.inp] s t)) ∧
  (∀ (x : InpFrame) (s : State), s.inpHead 0x40 = some x → s.isLead = true → (s.node x.src).st = 3 → s.fromNode x = true → s.qEn 72 = true →
    0 < s.credits 72 → (s.queue 72).dropping = false → Yields .loadReceived s (fun t => (t.queue 72).occ = (s.queue 72).occ + 1 ∧
      t.mbytes (s.qSlot 72 (s.queue 72).tail) 2 = [6, BitVec.ofNat 8 x.src] ∧ t.inp.nodes = s.inp.nodes ∧
      Frame [.inp, .queues, .mem] s t))) ∧
  ((∀ (k : SegId) (s : State), s.quenchClear → s.bus.chipId < 4 → s.inpSends k.val = true → nget s.inp.hbNext k.val ≤ s.clk.now →
    Yields (.chipHeartbeatSend k) s (fun t => (t.fbc k.val).txReq = (s.fbc k.val).txReq ||| 8 ∧
      nget t.inp.hbSeq k.val = (nget s.inp.hbSeq k.val + 1) % 256 ∧ nget t.inp.hbNext k.val = s.clk.now + s.inp.leadHb * 100000 ∧
      fld (t.reg (fbcBlk k.val) (0x1000 + 0x50 * 3)) 16 8 = 0x10 ∧ Frame [.inp] s t)) ∧
  (∀ (k : SegId) (s : State), s.quenchClear → s.bus.chipId < 4 → s.inpSends k.val = true → nget s.inp.syncNext k.val ≤ s.clk.now →
    Yields (.timeSyncSend k) s (fun t => (t.fbc k.val).txReq = (s.fbc k.val).txReq ||| 2 ∧
      nget t.inp.syncSeq k.val = (nget s.inp.syncSeq k.val + 1) % 256 ∧
      nget t.inp.syncNext k.val = s.clk.now + s.inp.timePeriod * 100000 ∧
      fld (t.reg (fbcBlk k.val) (0x1000 + 0x50 * 1)) 16 8 = 0x20 ∧ Frame [.inp] s t)) ∧
  (∀ (k : SegId) (q ts fine : Nat) (s : State), s.quenchClear → s.bus.chipId < 4 → s.inpSends k.val = true →
    Tab.get (fun _ => none) s.inp.follow k.val = some (q, ts, fine) → Yields (.timeFollowSend k) s (fun t =>
      (t.fbc k.val).txReq = (s.fbc k.val).txReq ||| 4 ∧ Tab.get (fun _ => none) t.inp.follow k.val = none ∧
      fld (t.reg (fbcBlk k.val) (0x1000 + 0x50 * 2)) 16 8 = 0x21 ∧ Frame [.inp] s t)) ∧
  (∀ s : State, s.isLead = false → s.inp.cut = true → s.leadReach = true → s.frozen = false → Yields .inpRouteReturn s (fun t =>
      t.inp.cut = false ∧ t.inp.regEpoch ≠ s.inp.regEpoch ∧ t.inp.regEpoch ≠ 0 ∧ Frame [.inp] s t)))

/-- Sounding: INP_SOUNDING of an ACTIVE node of this device begins N exchanges; each sends ECHO_REQ with the next number; ECHO and
ECHO_INFO of that number complete one, and the last gives the cable's length, rounded to the nearest; an exchange that fails
twice ends TIMEOUT (R941, R944). INP_REGISTRY: POLICY sets the registry's defaults; BIND gives a FREE address to a UID and
refuses a channel bound elsewhere; UNBIND, READ and RELEASE (R929, R943). -/
def Obligations.SoundingAndRegistry : Prop :=
  ((∀ (m : MbId) (s : State), s.asks m.val 0x0712 4 [(0x10, 1, true), (0x12, 2, 16 ≤ s.rq m.val 0x12 2 && s.rq m.val 0x12 2 ≤ 256)] →
    (s.node (s.rq m.val 0x10 1)).st = 3 → (s.node (s.rq m.val 0x10 1)).host = s.bus.chipId → (s.node (s.rq m.val 0x10 1)).turnRes ≠ 0 →
    s.inp.sounding = none → Yields (.inpSounding m) s (fun t => (t.mb m.val).waiting = true ∧
      t.inp.sounding = some { mb := m.val, addr := s.rq m.val 0x10 1, n := s.rq m.val 0x12 2 } ∧ Frame [.fmn, .inp] s t)) ∧
  (∀ (x : Sounding) (s : State), s.inp.sounding = some x → x.out = false → x.k = 0 → s.isHalted Blk.inp = false → s.frozen = false →
    s.quenchClear → (s.node x.addr).seg < 4 → s.manages (s.node x.addr).seg = true → (s.fbc (s.node x.addr).seg).st ≠ .off → Yields .soundingExchange s (fun t =>
      t.inp.sounding = some { x with
        seq := (x.seq + 1) % 256, out := true, failed := false, ta := none, tb := 0, td := none, sentAt := s.clk.now } ∧
      (t.fbc (s.node x.addr).seg).txReq = (s.fbc (s.node x.addr).seg).txReq ||| 64 ∧ Frame [.inp] s t)) ∧
  (∀ (x : Sounding) (s : State), s.inp.sounding = some x → x.out = true → x.failed = true → x.sentAt + 1000000 ≤ s.clk.now →
    s.isHalted Blk.inp = false → s.frozen = false → Yields .soundingExchange s (fun t => t.refuses x.mb rTimeout 0 ∧
      t.inp.sounding = none ∧ Frame [.fmn, .inp] s t)) ∧
  (∀ (f : InpFrame) (x : Sounding) (s : State), s.inpHead 0x51 = some f → s.inp.sounding = some x → x.out = true → f.src = x.addr →
    bytesAt f.frame.data 0 1 = x.seq → s.fromNode f = true → Yields .echoReceived s (fun t =>
      t.inp.sounding = some { x with td := some (f.ts * 40 + f.fine) } ∧ t.inp.inbox = s.inp.inbox.tail ∧ Frame [.inp] s t)) ∧
  (∀ (f : InpFrame) (x : Sounding) (ta td : Nat) (s : State), s.inpHead 0x52 = some f → s.inp.sounding = some x → x.out = true → f.src = x.addr →
    bytesAt f.frame.data 0 1 = x.seq → s.fromNode f = true → x.ta = some ta → x.td = some td → x.k + 1 ≠ x.n →
    Yields .echoInfoReceived s (fun t => (∃ y, t.inp.sounding = some y ∧ y.k = x.k + 1 ∧ y.out = false ∧
      y.sumTrip = x.sumTrip + ((td : Int) - ta) ∧ y.sumLoop = x.sumLoop + ((x.tb : Int) - ta) ∧
      y.sumTurn = x.sumTurn + bytesAt f.frame.data 4 4) ∧ t.fmn = s.fmn ∧ Frame [.inp] s t)) ∧
  (∀ (f : InpFrame) (x : Sounding) (ta td : Nat) (s : State), s.inpHead 0x52 = some f → s.inp.sounding = some x → x.out = true → f.src = x.addr →
    bytesAt f.frame.data 0 1 = x.seq → s.fromNode f = true → x.ta = some ta → x.td = some td → x.k + 1 = x.n →
    (s.node x.addr).seg < 4 →
    Yields .echoInfoReceived s (fun t => t.inp.sounding = none ∧ (∃ p, t.doneWith x.mb p ∧ p.length = 16) ∧
      (t.node x.addr).cable = nearest (5 * ((x.sumTrip + ((td : Int) - ta)) - (x.sumLoop + ((x.tb : Int) - ta)) -
        (x.sumTurn + bytesAt f.frame.data 4 4) - x.n * (s.node x.addr).trxLoop)) (2 * x.n) ∧ Frame [.inp, .fmn] s t)) ∧
  (∀ a b : Int, 0 < b → 2 * a - b < 2 * b * nearest a b ∧ 2 * b * nearest a b ≤ 2 * a + b)) ∧
  ((∀ (m : MbId) (s : State), (
      let q := fun o n => s.rq m.val o n
      let rng := fun v lo hi => decide (lo ≤ v ∧ v ≤ hi)
      q 0x10 1 = 0 ∧ s.asks m.val 0x0711 0x0E [(0x10, 1, decide (q 0x10 1 < 5)), (0x11, 1, q 0x11 1 == 0xFF || s.ctxOpen (q 0x11 1)),
        (0x12, 1, 4 ≤ q 0x12 1), (0x13, 1, rng (q 0x13 1) 2 8), (0x14, 2, rng (q 0x14 2) 10 1000), (0x16, 1, rng (q 0x16 1) 10 100),
        (0x18, 2, q 0x18 2 ≤ 3600), (0x1A, 2, q 0x1A 2 == 0 || rng (q 0x1A 2) 10 6000), (0x1C, 2, rng (q 0x1C 2) 10 1000)]) →
    Yields (.inpRegistry m) s (fun t => t.doneWith m.val [] ∧ t.inp = { s.inp with
        owner := s.rq m.val 0x11 1, autoBase := s.rq m.val 0x12 1, hbMiss := s.rq m.val 0x13 1, hbPeriod := s.rq m.val 0x14 2
        leadHb := s.rq m.val 0x16 1, linger := s.rq m.val 0x18 2, loadPeriod := s.rq m.val 0x1A 2, timePeriod := s.rq m.val 0x1C 2 } ∧
      Frame [.fmn, .inp, .regs 6] s t)) ∧
  (∀ (m : MbId) (a : Nat) (s : State), (
      let q := fun o n => s.rq m.val o n
      let rng := fun v lo hi => decide (lo ≤ v ∧ v ≤ hi)
      q 0x10 1 = 1 ∧ q 0x11 1 = a ∧ s.asks m.val 0x0711 0x10 [(0x10, 1, decide (q 0x10 1 < 5)), (0x11, 1, 4 ≤ q 0x11 1),
        (0x12, 1, q 0x12 1 == 0xFF || rng (q 0x12 1) 8 0x1F), (0x13, 1, q 0x13 1 == 0 || rng (q 0x13 1) 2 8),
        (0x14, 2, q 0x14 2 == 0 || rng (q 0x14 2) 10 1000), (0x18, 8, true)]) → (s.node a).st = 0 →
    ((∀ i v, i < 256 → i ≠ a → (s.node i).binding = some v → v.uid ≠ s.rq m.val 0x18 8 ∧
        (s.rq m.val 0x12 1 ≠ 0xFF → v.safetyCh ≠ s.rq m.val 0x12 1)) →
      Yields (.inpRegistry m) s (fun t => t.doneWith m.val [] ∧ (t.node a).st = 1 ∧ (t.node a).uid = s.rq m.val 0x18 8 ∧
        (t.node a).binding = some
          { uid := s.rq m.val 0x18 8, safetyCh := s.rq m.val 0x12 1, hbMiss := s.rq m.val 0x13 1, hbPeriod := s.rq m.val 0x14 2 } ∧
        (∀ k, k ≠ a → t.node k = s.node k) ∧ Frame [.fmn, .inp] s t)) ∧
    (s.rq m.val 0x12 1 ≠ 0xFF → (∃ i v, i < 256 ∧ i ≠ a ∧ (s.node i).binding = some v ∧ v.safetyCh = s.rq m.val 0x12 1) →
      Yields (.inpRegistry m) s (fun t => t.refuses m.val rStateConflict 2 ∧ t.inp = s.inp ∧ Frame [.fmn] s t))) ∧
  (∀ (m : MbId) (s : State), s.rq m.val 0x10 1 = 2 → s.asks m.val 0x0711 2 [(0x10, 1, true), (0x11, 1, 4 ≤ s.rq m.val 0x11 1)] →
    (s.node (s.rq m.val 0x11 1)).st = 1 → (s.node (s.rq m.val 0x11 1)).binding.isSome = true → Yields (.inpRegistry m) s (fun t =>
      t.doneWith m.val [] ∧ t.node (s.rq m.val 0x11 1) = {} ∧ Frame [.fmn, .inp] s t)) ∧
  (∀ (m : MbId) (s : State), s.rq m.val 0x10 1 = 3 → s.asks m.val 0x0711 2 [(0x10, 1, true), (0x11, 1, true)] →
    Yields (.inpRegistry m) s (fun t => t.doneWith m.val (s.readNode (s.rq m.val 0x11 1)) ∧ t.inp = s.inp ∧ Frame [.fmn] s t)) ∧
  (∀ (m : MbId) (s : State), s.rq m.val 0x10 1 = 4 → s.asks m.val 0x0711 2 [(0x10, 1, true), (0x11, 1, 4 ≤ s.rq m.val 0x11 1)] →
    (s.node (s.rq m.val 0x11 1)).st = 3 → (s.node (s.rq m.val 0x11 1)).host = s.bus.chipId →
    (s.node (s.rq m.val 0x11 1)).seg < 4 → s.qEn 72 = false →
    Yields (.inpRegistry m) s (fun t => t.doneWith m.val [] ∧ t.node (s.rq m.val 0x11 1) = vacant (s.node (s.rq m.val 0x11 1)).binding ∧
      t.evc Blk.inp 8 = s.evc Blk.inp 8 + 1 ∧ Frame [.fmn, .inp, .regs 26] s t)))

/-- Timing sets and the panel: STORE keeps a set that is not in use, COMMIT stages a stored one; PANEL_ON and PANEL_OFF begin their
sequences, whose steps drive the lanes, the pins and the DCS commands after their waits (R833 to R835, R843, R844, R856). Video
frames: a frame starts one frame period after the one before and takes the staged set and source; a relock that is READY starts
the new set; a line shows the plane's bytes, FILL where they came too late, the first such of a frame captured; a write of
DISP_FLIP is kept in units of 64 bytes (R836 to R846). -/
def Obligations.DisplayFrames : Prop :=
  ((∀ (m : MbId) (t0 : Nat) (s : State), s.rq m.val 0x10 1 = 0 → s.rq m.val 0x11 1 = t0 → t0 < 4 →
    s.asks m.val 0x0611 36 ([(0x10, 1, true), (0x11, 1, t0 < 4)] ++ s.storeFields m.val) →
    s.disp.active ≠ some t0 → s.disp.staged ≠ some t0 → s.disp.relock ≠ some t0 → Yields (.dispTiming m) s (fun t =>
      t.doneWith m.val [] ∧ t.disp.stored.toNat.testBit t0 = true ∧ t.setHact t0 = s.rq m.val 0x18 2 ∧ t.setVact t0 = s.rq m.val 0x20 2 ∧
      t.setF t0 0x30 4 = s.rq m.val 0x30 4 ∧ t.disp.active = s.disp.active ∧ t.disp.staged = s.disp.staged ∧
      Frame [.fmn, .disp, .regs 21] s t)) ∧
  (∀ (m : MbId) (t0 : Nat) (s : State), s.rq m.val 0x10 1 = 1 → s.rq m.val 0x11 1 = t0 →
    s.asks m.val 0x0611 2 [(0x10, 1, true), (0x11, 1, t0 < 4)] → s.disp.stored.toNat.testBit t0 = true → s.disp.staged = none →
    s.disp.active ≠ some t0 → Yields (.dispTiming m) s (fun t => t.doneWith m.val [] ∧ t.disp = { s.disp with staged := some t0 } ∧
      Frame [.fmn, .disp] s t)) ∧
  (∀ (m : MbId) (s : State), (
      let q := fun o n => s.rq m.val o n
      q 0x10 1 = 2 ∧ s.asks m.val 0x0611 13 [(0x10, 1, true), (0x11, 1, q 0x11 1 < 4), (0x12, 1, s.ctxOpen (q 0x12 1) || q 0x12 1 == 0xFF),
        (0x13, 1, gpioOk (q 0x13 1)), (0x14, 1, gpioOk (q 0x14 1)), (0x15, 1, gpioOk (q 0x15 1)), (0x16, 1, true), (0x17, 1, true),
        (0x18, 4, q 0x18 4 % 64 == 0 && ingotRange (q 0x18 4) (64 * q 0x1C 1)), (0x1C, 1, q 0x1C 1 ≤ 64)]) →
    s.disp.st = 0 → (s.disp.staged ≠ none ∨ s.disp.active ≠ none) → 2 ≤ s.aon.pwr → Yields (.dispTiming m) s (fun t =>
      t.doneWith m.val [] ∧ t.disp.st = 1 ∧ t.disp.step = 0 ∧ t.disp.pwrHigh = true ∧ t.disp.rstHigh = false ∧ t.disp.lanes = 0 ∧
      t.disp.wait = s.rq m.val 0x16 1 ∧ t.disp.stepAt = s.clk.now ∧ t.qEn 96 = true ∧ Frame [.fmn, .disp, .queues, .regs 6] s t)) ∧
  (∀ (m : MbId) (s : State), s.rq m.val 0x10 1 = 3 → s.asks m.val 0x0611 1 [(0x10, 1, true), (0x11, 1, s.rq m.val 0x11 1 < 4)] →
    s.disp.st = 2 → s.disp.staged = none → (∀ i, (s.regionSlot i).queued = none ∧ (s.regionSlot i).pending = none) →
    Yields (.dispTiming m) s (fun t => t.doneWith m.val [] ∧ t.disp.st = 3 ∧ t.disp.step = 0 ∧ t.disp.order = [] ∧
      t.disp.frameAt = s.disp.frameAt ∧ Frame [.fmn, .disp] s t)) ∧
  (∀ s : State, s.disp.st = 1 → s.dispWaited = true → s.frozen = false →
    (s.disp.step = 0 → Yields .panelOnStep s (fun t => t.disp = { s.disp with lanes := 1, step := 1, stepAt := s.clk.now, wait := 1 } ∧
      Frame [.disp] s t)) ∧
    (s.disp.step = 1 → Yields .panelOnStep s (fun t => t.disp = { s.disp with
        rstHigh := true, step := 2, stepAt := s.clk.now, wait := s.disp.tRst } ∧ Frame [.disp] s t)) ∧
    (s.disp.step = 2 → s.disp.initLen ≤ s.disp.initIdx → Yields .panelOnStep s (fun t =>
      t.disp = { s.disp with sent := s.disp.sent ++ [[0x11]], step := 3, stepAt := s.clk.now, wait := 120 } ∧ Frame [.disp] s t)) ∧
    (∀ k, s.disp.step = 3 → s.disp.staged = some k → s.setCmd k = false → s.qEn 96 = false → Yields .panelOnStep s (fun t =>
      t.disp.st = 2 ∧ t.disp.sent = s.disp.sent ++ [[0x29]] ∧ t.disp.active = some k ∧ t.disp.staged = none ∧ t.disp.commitDue = some k ∧
      t.disp.frameAt = none ∧ (t.domain 3).active = 7 ∧ t.evc Blk.disp 8 = s.evc Blk.disp 8 + 1 ∧ Frame [.disp, .clk, .regs 3, .regs 21] s t))) ∧
  (∀ s : State, s.disp.st = 3 → s.dispWaited = true → s.frozen = false →
    (s.disp.step = 0 → s.scanEnded = true → Yields .panelOffStep s (fun t => t.disp = { s.disp with
        lanes := 1, frameAt := none, relock := none, sent := s.disp.sent ++ [[0x28], [0x10]], step := 1, stepAt := s.clk.now, wait := 120 } ∧
      Frame [.disp] s t)) ∧
    (s.disp.step = 0 → s.scanEnded = false → Yields .panelOffStep s (fun t => t.disp = s.disp ∧ Frame [] s t)) ∧
    (s.disp.step = 1 → Yields .panelOffStep s (fun t => t.disp = { s.disp with
        rstHigh := false, step := 2, stepAt := s.clk.now, wait := 1 } ∧ Frame [.disp] s t)) ∧
    (s.disp.step = 2 → s.qEn 96 = false → Yields .panelOffStep s (fun t => t.disp = { s.disp with
        pwrHigh := false, lanes := 0, st := 0, initBad := none } ∧ t.evc Blk.disp 8 = s.evc Blk.disp 8 + 1 ∧ Frame [.disp, .regs 21] s t)))) ∧
  ((∀ (k f : Nat) (s : State), s.disp.st = 2 → s.disp.relock = none → s.frozen = false → s.isHalted Blk.disp = false →
    s.disp.active = some k → s.setCmd k = false → s.disp.frameAt = some f → f + s.framePs k ≤ s.nowPs → s.disp.staged = none →
    s.disp.stagedSource = none → s.disp.commitDue = none → s.disp.source ≠ 1 → Yields .frameStart s (fun t => t.disp = { s.disp with
        frameAt := some (f + s.framePs k), fcount := (s.disp.fcount + 1) % 2 ^ 32, scan := .fill, underflowed := false, line := 0, lanes := 2 } ∧
      t.evc Blk.disp 2 = s.evc Blk.disp 2 + 1 ∧ Frame [.disp, .regs 21] s t)) ∧
  (∀ (k g f : Nat) (s : State), s.disp.st = 2 → s.disp.relock = none → s.frozen = false → s.isHalted Blk.disp = false →
    s.disp.active = some k → s.setCmd k = false → s.disp.frameAt = some f → f + s.framePs k ≤ s.nowPs → s.disp.staged = some g →
    s.relockNeeded k g = true → Yields .frameStart s (fun t => t.disp.relock = some g ∧ t.disp.relockOld = some k ∧ t.disp.staged = none ∧
      t.disp.commitDue = some g ∧ t.disp.frameAt = none ∧ t.disp.lanes = 1 ∧ t.disp.relockAt = s.clk.now ∧
      Frame [.disp, .clk, .regs 3] s t)) ∧
  (∀ (k : Nat) (s : State), s.disp.relock = some k → s.frozen = false → s.setCmd k = false → s.disp.stagedSource = none →
    s.disp.commitDue = some k → s.qEn 96 = false → Yields (.relockComplete true) s (fun t => t.disp.relock = none ∧ t.disp.active = some k ∧
      t.disp.frameAt = some s.nowPs ∧ t.disp.lanes = 2 ∧ t.disp.commitDue = none ∧ t.evc Blk.disp 2 = s.evc Blk.disp 2 + 1 ∧
      t.evc Blk.disp 5 = s.evc Blk.disp 5 + 1 ∧
      Frame [.disp, .clk, .regs 3, .regs 21] s t)) ∧
  (∀ (k : Nat) (s : State), s.disp.relock = some k → s.frozen = false → s.nowPs < s.disp.relockAt * 10000 + 2 * s.framePs k →
    Yields (.relockComplete false) s (fun t => t.disp = s.disp ∧ Frame [] s t)) ∧
  (∀ (n f k : Nat) (s : State), s.disp.frameAt = some f → s.disp.active = some k → s.dispVideo = true → s.disp.line < s.setVact k →
    f + s.toActivePs k + s.linesPs k s.disp.line ≤ s.nowPs → s.frozen = false → s.isHalted Blk.disp = false → s.disp.scan = .fill →
    s.disp.source ≠ 2 → Yields (.lineStart n) s (fun t => t.disp = { s.disp with
        line := s.disp.line + 1, out := (List.replicate (s.setHact k) (s.fillPixel k)).flatten } ∧ Frame [.disp] s t)) ∧
  (∀ (f k a stride : Nat) (l : List (Byte × Bool)) (s : State), s.disp.frameAt = some f → s.disp.active = some k → s.dispVideo = true →
    s.disp.line < s.setVact k → f + s.toActivePs k + s.linesPs k s.disp.line ≤ s.nowPs → s.frozen = false → s.isHalted Blk.disp = false →
    s.disp.scan = .plane a stride → s.disp.source ≠ 2 →
    s.fetchBytes Config.mDisp (s.disp.owner % 32) (a + s.disp.line * stride) (3 * s.setHact k) = (some l, s) →
    l.length = 3 * s.setHact k → (∀ x ∈ l, x.2 = false) → Yields (.lineStart (s.setHact k)) s (fun t => t.disp = { s.disp with
        line := s.disp.line + 1, out := l.map (fun x => x.1) } ∧ Frame [.disp] s t)) ∧
  (∀ (f k a stride : Nat) (l : List (Byte × Bool)) (s : State), s.disp.frameAt = some f → s.disp.active = some k → s.dispVideo = true →
    s.disp.line < s.setVact k → f + s.toActivePs k + s.linesPs k s.disp.line ≤ s.nowPs → s.frozen = false → s.isHalted Blk.disp = false →
    s.disp.scan = .plane a stride → s.disp.source ≠ 2 → 0 < s.setHact k → s.disp.underflowed = false →
    s.fetchBytes Config.mDisp (s.disp.owner % 32) (a + s.disp.line * stride) (3 * s.setHact k) = (some l, s) →
    Yields (.lineStart 0) s (fun t => t.disp = { s.disp with
        line := s.disp.line + 1, out := (List.replicate (s.setHact k) (s.fillPixel k)).flatten, underflowed := true } ∧
      t.evc Blk.disp 3 = s.evc Blk.disp 3 + 1 ∧
      (s.pend Blk.disp 3 = false → t.reg Blk.disp 0x170 = (at_ s.disp.line 16 16 ||| at_ (s.setHact k) 0 16)) ∧ Frame [.disp, .regs 21] s t)) ∧
  (∀ (v : Word) (s : State), Yields (.dispFlipWrite v) s (fun t => t.reg Blk.disp 0x16C = (v &&& 0xFFFFFFC0) ∧ t.disp = s.disp ∧
    Frame [.regs 21] s t)))

/-- Region updates: an update is queued, one that waits is superseded; the head of the link starts at once or at a TE edge, or after
100 ms without one; its end reports DONE (R847 to R849, R857, R863). Egress rings: start and stop; of the source frames every
DECIMATE-th is taken into the next buffer, or dropped and counted where none is free; the copy's end writes its entry and
advances WRITTEN; RETURN moves up to WRITTEN only (R851 to R855, R858, R866). -/
def Obligations.UpdatesAndEgress : Prop :=
  ((∀ (m : MbId) (i k : Nat) (s : State), (
      let q := fun o n => s.rq m.val o n
      q 0x10 1 = i ∧ s.asks m.val 0x0612 20 [(0x10, 1, i < 16), (0x12, 2, true), (0x14, 2, true), (0x16, 2, 1 ≤ q 0x16 2),
        (0x18, 2, 1 ≤ q 0x18 2), (0x1A, 2, true),
        (0x1C, 4, q 0x1C 4 % 64 == 0 && ingotRange (q 0x1C 4) ((q 0x18 2 - 1) * 64 * q 0x1A 2 + 3 * q 0x16 2)), (0x20, 4, true)]) →
    s.disp.active = some k → s.disp.st = 2 → s.setCmd k = true → s.disp.relock = none → s.rq m.val 0x12 2 + s.rq m.val 0x16 2 ≤ s.setHact k →
    s.rq m.val 0x14 2 + s.rq m.val 0x18 2 ≤ s.setVact k → (s.regionSlot i).running = none → (s.regionSlot i).queued = none →
    Yields (.dispRegion m) s (fun t => t.doneWith m.val [0] ∧ t.disp.order = s.disp.order ++ [i] ∧
      (∃ u, (t.regionSlot i).queued = some u ∧ u.tag = s.rq m.val 0x20 4 ∧ u.src = s.rq m.val 0x1C 4 ∧ u.x = s.rq m.val 0x12 2 ∧
        u.w = s.rq m.val 0x16 2) ∧ (∀ j, j ≠ i → t.regionSlot j = s.regionSlot j) ∧ Frame [.fmn, .disp] s t)) ∧
  (∀ (b : Bool) (i : Nat) (l : List Nat) (u : Update) (s : State), s.linkReady = true → s.disp.teGpio = 0xFF → s.disp.order = i :: l →
    (s.regionSlot i).queued = some u → Yields (.regionUpdateStart b) s (fun t => t.disp.order = l ∧
      (t.regionSlot i).running = some { u with teMissed := false } ∧ (t.regionSlot i).queued = none ∧
      t.disp.sent = s.disp.sent ++ [addressPacket 0x2A u.x u.w, addressPacket 0x2B u.y u.h] ∧ Frame [.disp] s t)) ∧
  (∀ s : State, s.linkReady = true → s.disp.teGpio ≠ 0xFF → s.disp.teSince = false → Yields (.regionUpdateStart false) s (fun t =>
    t.disp = s.disp ∧ Frame [] s t)) ∧
  (∀ (i : Nat) (l : List Nat) (u : Update) (s : State), s.linkReady = true → s.disp.teGpio ≠ 0xFF → s.disp.teSince = false →
    s.disp.readyAt + 10000000 ≤ s.clk.now → s.disp.order = i :: l → (s.regionSlot i).queued = some u → Yields .teTimeout s (fun t =>
      (t.regionSlot i).running = some { u with teMissed := true } ∧ t.evc Blk.disp 7 = s.evc Blk.disp 7 + 1 ∧ Frame [.disp, .regs 21] s t)) ∧
  (∀ (i k : Nat) (u : Update) (ls : List (List Byte)) (s : State), s.regionBusy = some i → s.disp.active = some k →
    (s.regionSlot i).running = some u → (s.regionSlot i).pending = none → s.frozen = false → s.isHalted Blk.disp = false →
    s.updateLines k u u.h = (some ls, s) → s.qEn 96 = false → Yields .regionUpdateEnd s (fun t => (t.regionSlot i).running = none ∧
      t.disp.sent = s.disp.sent ++ ls ∧ t.disp.order = s.disp.order ∧ t.disp.lanes = 1 ∧ t.evc Blk.disp 6 = s.evc Blk.disp 6 + 1 ∧
      Frame [.disp, .regs 21] s t))) ∧
  ((∀ (m : MbId) (e : Nat) (s : State), s.rq m.val 0x10 1 = e → s.rq m.val 0x11 1 = 1 → s.asks m.val 0x0613 2 [(0x10, 1, decide (e < 8)), (0x11, 1, true)] →
    (s.egress e).st = 1 → 2 ≤ s.aon.pwr → Yields (.egressRing m) s (fun t => t.doneWith m.val [] ∧
      t.egress e = { s.egress e with st := 2, seen := 0, frames := [] } ∧ (∀ k, k ≠ e → t.egress k = s.egress k) ∧ Frame [.fmn, .disp] s t)) ∧
  (∀ (m : MbId) (e : Nat) (s : State), s.rq m.val 0x10 1 = e → s.rq m.val 0x11 1 = 2 → s.asks m.val 0x0613 2 [(0x10, 1, decide (e < 8)), (0x11, 1, true)] →
    (s.egress e).st = 2 → (s.egress e).stopping = none → (s.egress e).copy = none → Yields (.egressRing m) s (fun t => t.doneWith m.val [] ∧
      t.egress e = { s.egress e with st := 1, frames := [] } ∧ Frame [.fmn, .disp] s t)) ∧
  (∀ (e : Fin 8) (n a st tm : Nat) (l : List (Nat × Nat × Nat × Nat)) (d : List Byte) (s : State), (s.egress e.val).frames = (n, a, st, tm) :: l →
    (s.egress e.val).st = 2 → (s.egress e.val).copy = none → s.frozen = false → s.isHalted Blk.disp = false →
    (s.egress e.val).seen % max 1 (s.egCfg e.val 0x15 1) = 0 → s.egInUse e.val < s.egCfg e.val 0x17 1 → s.hostLink = true →
    s.readable Config.mEgress (s.egCfg e.val 0x18 4 + 16 * ((s.egress e.val).written % max 1 (s.egCfg e.val 0x17 1))) 16 →
    d = s.mbytes (s.egCfg e.val 0x18 4 + 16 * ((s.egress e.val).written % max 1 (s.egCfg e.val 0x17 1))) 16 →
    Yields (.egressFrameTake e) s (fun t => (t.egress e.val).frames = l ∧ (t.egress e.val).seen = (s.egress e.val).seen + 1 ∧
      (t.egress e.val).copy = some
        { seq := n, addr := a, stride := st, time := tm, host := bytesAt d 0 8
          buffer := (s.egress e.val).written % max 1 (s.egCfg e.val 0x17 1) } ∧ Frame [.disp] s t)) ∧
  (∀ (e : Fin 8) (n a st tm : Nat) (l : List (Nat × Nat × Nat × Nat)) (s : State), (s.egress e.val).frames = (n, a, st, tm) :: l →
    (s.egress e.val).st = 2 → (s.egress e.val).copy = none → s.frozen = false → s.isHalted Blk.disp = false →
    (s.egress e.val).seen % max 1 (s.egCfg e.val 0x15 1) = 0 → s.egCfg e.val 0x17 1 ≤ s.egInUse e.val →
    Yields (.egressFrameTake e) s (fun t => (t.egress e.val).copy = none ∧ (t.egress e.val).drops = ((s.egress e.val).drops + 1) % 65536 ∧
      (t.egress e.val).written = (s.egress e.val).written ∧ t.evc Blk.disp 10 = s.evc Blk.disp 10 + 1 ∧ Frame [.disp, .regs 21] s t)) ∧
  (∀ (e : Fin 8) (n : Nat) (c : EgCopy) (d : List Byte) (s : State), (s.egress e.val).copy = some c → s.frozen = false →
    s.isHalted Blk.disp = false → s.qEn (s.egCfg e.val 0x16 1) = false → s.hostLink = true → (s.egress e.val).incomplete = false →
    (s.egress e.val).stopping = none →
    s.egLines (s.egOwner e.val % 32) c.addr c.stride (s.egCfg e.val 0x1C 4) (s.egCfg e.val 0x20 2) = (d, false, s) →
    Yields (.egressCopyEnd e n) s (fun t => (t.egress e.val).written = ((s.egress e.val).written + 1) % 65536 ∧
      (t.egress e.val).copy = none ∧ (t.egress e.val).hostOut = [(c.host, d)] ∧ (t.egress e.val).st = (s.egress e.val).st ∧
      t.evc Blk.disp 9 = s.evc Blk.disp 9 + 1 ∧ Frame [.disp, .regs 21] s t)) ∧
  (∀ (e : Fin 8) (v : BitVec 16) (s : State),
    (let r := fld (s.reg Blk.disp (0x1008 + 0x40 * e.val)) 0 16
     ((v.toNat + 65536 - r) % 65536 ≤ ((s.egress e.val).written + 65536 - r) % 65536 → Yields (.egReturnWrite e v) s (fun t =>
        fld (t.reg Blk.disp (0x1008 + 0x40 * e.val)) 0 16 = v.toNat ∧ t.disp = s.disp ∧ Frame [.regs 21] s t)) ∧
     (((s.egress e.val).written + 65536 - r) % 65536 < (v.toNat + 65536 - r) % 65536 → Yields (.egReturnWrite e v) s (fun t =>
        t.reg Blk.disp (0x1008 + 0x40 * e.val) = s.reg Blk.disp (0x1008 + 0x40 * e.val) ∧ t.evc Blk.disp 11 = s.evc Blk.disp 11 + 1 ∧
        Frame [.regs 21] s t)))))

/-- IDCODE captures the device's code; BYPASS and every instruction that the debug state does not honour select the one-bit
register; SAMPLE_PRELOAD and EXTEST capture and load the boundary register, EXTEST alone drives the balls; MBOX reads and writes
a word of MB10; OTP_PROG writes a field once, and turns away what R1037 does not admit (R1036, R1037, R1072 to R1079). -/
def Obligations.TestAccessPort : Prop :=
  (∀ s : State, Yields .idcode s (fun t => t.jtag.ir = 0 ∧ t.jtag.dr = 0x10960573 ∧ t.jtag.drives = false ∧ Frame [.jtag] s t)) ∧
  (∀ s : State, Yields .bypass s (fun t => t.jtag.ir = 1 ∧ t.jtag.dr = 0 ∧ t.jtag.drives = false ∧ Frame [.jtag] s t)) ∧
  (∀ (l : BitVec 78) (d : BitVec 234) (s : State), Yields (.samplePreload l d) s (fun t => t.jtag.boundary = d ∧ t.jtag.ir = 2 ∧
    t.jtag.drives = false ∧ (∀ i, i < 15 → t.jtag.dr.testBit (3 * i) = l.toNat.testBit i) ∧
    t.jtag.dr.testBit 46 = s.qp ∧ t.jtag.dr.testBit 49 = s.qn ∧ Frame [.jtag] s t)) ∧
  (∀ (l : BitVec 78) (d : BitVec 234) (s : State), (s.sec.debug = 2 → Yields (.extest l d) s (fun t => t.jtag.boundary = d ∧
      t.jtag.ir = 3 ∧ t.jtag.drives = true ∧ Frame [.jtag] s t)) ∧
    (s.sec.debug ≠ 2 → Yields (.extest l d) s (fun t => t.jtag.ir = 1 ∧ t.jtag.boundary = s.jtag.boundary ∧ t.jtag.drives = false ∧
      Frame [.jtag] s t))) ∧
  (∀ (w : Byte) (v : Word) (s : State), s.sec.debug ≠ 0 → s.fabricRuns = true → w.toNat < 132 → s.parityOf Blk.fmn (mbBase 10 + 4 * w.toNat) = 0 →
    Yields (.mbox 1 w v) s (fun t => t.jtag.ir = 4 ∧ t.jtag.dr = s.jtag.mboxOut ∧
      t.jtag.mboxOut = 3 * 2 ^ 40 + w.toNat * 2 ^ 32 + (s.regRead Config.mForeman Blk.fmn (mbBase 10 + 4 * w.toNat)).1.toNat ∧
      t.fmn = s.fmn)) ∧
  (∀ (op : Fin 4) (w : Byte) (v : Word) (s : State), s.sec.debug = 0 → Yields (.mbox op w v) s (fun t => t.jtag.ir = 1 ∧
      t.jtag.mboxOut = s.jtag.mboxOut ∧ Frame [.jtag] s t)) ∧
  (∀ (f : Byte) (v : BitVec 384) (s : State), s.sec.debug ≠ 0 → s.otpAdmits f.toNat v.toNat = false → Yields (.otpProg f v true) s (fun t =>
      t.jtag.otpResult = 3 ∧ t.sec = s.sec ∧ Frame [.jtag] s t)) ∧
  (∀ (v : BitVec 384) (s : State), s.sec.debug = 2 → s.sec.lifecycle = 0 → s.sec.otp.kp = none → Yields (.otpProg 2 v true) s (fun t =>
      t.jtag.otpResult = 2 ∧ t.sec.otp.kp = some (v.toNat % 2 ^ 256) ∧ t.sec.otp.lifecycle = s.sec.otp.lifecycle ∧
      t.sec.otp.dbgKeyHash = s.sec.otp.dbgKeyHash ∧ Frame [.jtag, .sec] s t))

/-- MOULD_LOAD, FSU_CONFIG and FSU_ASSIST: a checked image is copied into its bank of all eight cores and waits there for the next
build, or leaves the bank INVALID; configure, start, stop and clear move the unit as R815 says; a lend appends the entry with
owner 32 (R809, R811, R815, R820). Builds: B(k) lies BUILD_LEAD before T0(k), and until a first source frame is taken nothing is
built; a tile falls back where no image is active, and a core's result that comes too late is discarded; the report of a
finished build advances k. The phase never passes M and a held frame is shown at phase M (R794, R795, R803, R805, R810, R814). -/
def Obligations.FrameSynthesis : Prop :=
  ((∀ (m : MbId) (b : Nat) (wide : Bool) (s : State), s.fsu.load = some (m.val, b, wide) → b < 2 → s.frozen = false → Yields (.mouldLoad m) s (fun t =>
      t.fsu.load = none ∧ t.fsu.active = s.fsu.active ∧ t.fsu.st = s.fsu.st ∧
      let h := (s.demandRead Config.mForeman (s.rq m.val 0x10 8) 64).1
      let u := (s.demandRead Config.mForeman (s.rq m.val 0x10 8) 64).2.2
      let img := (u.demandRead Config.mForeman (s.rq m.val 0x10 8) (min 524288 (bytesAt h 8 4))).1
      ((t.doneWith m.val (leBytes 8 (bytesAt h 0x10 8) ++ leBytes 4 (Config.mouldCycles img)) ∧ t.fsu.ready = some b ∧
          (if b = 0 then t.fsu.bankA else t.fsu.bankB) = 1 ∧ t.fsu.head b = h) ∨
        (t.refuses m.val rStateConflict 5 ∧ (if b = 0 then t.fsu.bankA else t.fsu.bankB) = 0 ∧ t.fsu.ready ≠ some b)))) ∧
  (∀ (m k : MbId) (b : Nat) (wide : Bool) (s : State), s.fsu.load = some (k.val, b, wide) → k ≠ m → Yields (.mouldLoad m) s (fun t =>
      t.fsu = s.fsu ∧ Frame [] s t)) ∧
  (∀ (m : MbId) (u : State) (s : State), s.rq m.val 0x10 1 = 0 → s.asks m.val 0x0602 0x26 ((0x10, 1, true) :: s.fsuFields m.val) →
    s.fsu.st = 0 → 2 ≤ s.aon.pwr → s.fsu.active = none → s.rq m.val 0x15 1 = 1 →
    s.cover (s.rq m.val 0x20 4) (s.rq m.val 0x1F 1 * s.rq m.val 0x24 4) 2 0 0x5800 0x0800 0 = some u → Yields (.fsuConfig m) s (fun t =>
      t.doneWith m.val [] ∧ t.fsu = { s.fsu with st := 1 } ∧ t.qEn 92 = true ∧
      (∀ k, k < 10 → t.reg Blk.fsu (0x200 + 4 * k) = BitVec.ofNat 32 (s.rq m.val (0x10 + 4 * k) 4)) ∧
      Frame [.fmn, .fsu, .queues, .regs Blk.fsu, .regs Blk.que, .regs Blk.mem] s t)) ∧
  (∀ (m : MbId) (a : Nat) (s : State), s.rq m.val 0x10 1 = a → s.asks m.val 0x0602 1 [(0x10, 1, decide (a < 4))] →
    (a = 1 → s.fsu.st = 1 → 2 ≤ s.aon.pwr → s.fsu.active = none → Yields (.fsuConfig m) s (fun t => t.doneWith m.val [] ∧
      t.fsu.st = 2 ∧ t.fsu.k = 0 ∧ t.fsu.n = none ∧ t.fsu.later = [] ∧ t.fsu.build = none ∧ t.fsu.lastOut = none ∧ Frame [.fmn, .fsu] s t)) ∧
    (a = 1 → s.fsu.st = 1 → s.aon.pwr < 2 → Yields (.fsuConfig m) s (fun t => t.refuses m.val rStateConflict 2 ∧ t.fsu = s.fsu ∧
      Frame [.fmn] s t)) ∧
    (a = 2 → s.fsu.st = 2 → s.fsu.stopping = false → s.fsu.build.isSome = true → Yields (.fsuConfig m) s (fun t =>
      t.fsu = { s.fsu with stopping := true, stopMb := some m.val } ∧ (t.mb m.val).waiting = true ∧ Frame [.fmn, .fsu] s t)) ∧
    (a = 2 → s.fsu.st = 2 → s.fsu.stopping = false → s.fsu.build = none → s.qEn 92 = false → Yields (.fsuConfig m) s (fun t =>
      t.doneWith m.val [] ∧ t.fsu.st = 1 ∧ t.fsu.n = none ∧ t.fsu.later = [] ∧ t.fsu.stopping = false ∧
      t.evc Blk.fsu 9 = s.evc Blk.fsu 9 + 1 ∧ Frame [.fmn, .fsu, .regs Blk.fsu] s t)) ∧
    (a = 3 → s.fsu.st = 2 → Yields (.fsuConfig m) s (fun t => t.refuses m.val rStateConflict 1 ∧ t.fsu = s.fsu ∧ Frame [.fmn] s t)) ∧
    (a = 3 → s.fsu.st = 0 → Yields (.fsuConfig m) s (fun t => t.refuses m.val rAlreadyDone 0 ∧ t.fsu = s.fsu ∧ Frame [.fmn] s t))) ∧
  (∀ (m : MbId) (f : Nat) (u : State) (s : State), s.rq m.val 0x10 1 = f → s.rq m.val 0x11 1 = 0 → (
      let q := fun o n => s.rq m.val o n
      s.asks m.val 0x0603 0x1C [(0x10, 1, decide (f < 8)), (0x11, 1, true), (0x14, 4, decide (50 ≤ q 0x14 4 ∧ q 0x14 4 ≤ 16777215)),
        (0x18, 4, decide (10 ≤ q 0x18 4 ∧ q 0x18 4 ≤ 16777215)), (0x20, 8, q 0x20 8 % 4096 == 0 && ingotRange (q 0x20 8) (q 0x28 4)),
        (0x28, 4, q 0x28 4 != 0 && q 0x28 4 % 4096 == 0)]) →
    (s.flask f).built = true → s.fsu.lent = none → s.assistImage = true → (s.flask f).staged = none → (s.slices f).length < 16 →
    (s.flask f).n ≠ 0 → s.aon.pwr = 3 → s.cover (s.rq m.val 0x20 8) (s.rq m.val 0x28 4) 2 0 0x0801 0x0801 0 = some u →
    Yields (.fsuAssist m) s (fun t => t.doneWith m.val [] ∧ t.fsu = { s.fsu with
        lent := some f, lentBudget := s.rq m.val 0x18 4, assistBase := s.rq m.val 0x20 8, assistSize := s.rq m.val 0x28 4 } ∧
      (t.flask f).staged = some (s.slices f ++ [(32, s.rq m.val 0x14 4)], (s.flask f).slack) ∧
      (∀ g, g ≠ f → t.flask g = s.flask g) ∧ Frame [.fmn, .fsu, .sch, .regs Blk.mem] s t)) ∧
  (∀ (m : MbId) (s : State), s.rq m.val 0x11 1 = 1 → s.asks m.val 0x0603 2 [(0x10, 1, decide (s.rq m.val 0x10 1 < 8)), (0x11, 1, true),
      (0x14, 4, true), (0x18, 4, true), (0x20, 8, true), (0x28, 4, true)] → s.fsu.lent = none →
    Yields (.fsuAssist m) s (fun t => t.refuses m.val rAlreadyDone 0 ∧ t.fsu = s.fsu ∧ Frame [.fmn] s t))) ∧
  ((∀ (t0 tl : Nat) (set : Option Nat) (s : State), s.fsu.st = 2 → s.fsu.stopping = false → s.fsu.build = none → s.frozen = false →
    s.isHalted Blk.fsu = false → 2 ≤ s.aon.pwr → s.nextT0 = some (t0, tl, set) →
    (s.clk.now + s.fsuCfg 0x2E 2 * tbUs < t0 → Yields .buildStart s (fun t => t.fsu = s.fsu ∧ Frame [] s t)) ∧
    (t0 ≤ s.clk.now + s.fsuCfg 0x2E 2 * tbUs → s.fsuCfg 0x15 1 = 0 → (s.queue (s.fsuCfg 0x16 1)).occ = 0 → s.fsu.n = none →
      s.fsu.later = [] → Yields .buildStart s (fun t => t.fsu.build = none ∧ t.fsu.n = none ∧ t.fsu.t0 = t0 ∧ t.fsu.ready = none ∧
        (∀ b, s.fsu.ready = some b → t.fsu.active = some b) ∧ (s.fsu.ready = none → t.fsu.active = s.fsu.active) ∧ Frame [.fsu] s t)) ∧
    (∀ x, t0 ≤ s.clk.now + s.fsuCfg 0x2E 2 * tbUs → s.fsuCfg 0x15 1 = 0 → (s.queue (s.fsuCfg 0x16 1)).occ = 0 → s.fsu.n = some x →
      s.fsuCfg 0x12 1 = 0 → s.fsu.j = s.fsuCfg 0x13 1 → Yields .buildStart s (fun t =>
        (∃ b, t.fsu.build = some b ∧ b.k = s.fsu.k ∧ b.j = s.fsu.j ∧ b.held = true ∧ b.n.rseq = x.rseq ∧ b.t0 = t0 ∧ b.n1 = none ∧
          b.rel = none) ∧ t.evc Blk.fsu 4 = s.evc Blk.fsu 4 + 1 ∧ Frame [.fsu, .regs Blk.fsu] s t))) ∧
  (∀ (stall : Nat) (b : Build) (s : State), s.building = some b → b.cores = [] → b.next < b.warped → b.tiles ≤ b.warped →
    s.fsu.active = none → Yields (.tileDecision stall) s (fun t =>
      t.fsu = { s.fsu with build := some { b with next := b.next + 1, mouldOff := true, pred := b.pred + 1 } } ∧
      Frame [.fsu, .regs Blk.fsu] s t)) ∧
  (∀ (c : Fin 8) (b : Build) (x : CoreTile) (k : Nat) (a : Array Int) (u : State) (s : State), s.building = some b →
    Tab.get noTile b.cores c.val = some x → s.fsu.active = some k → s.runMould c.val k = (some a, u) → u.fsu = s.fsu →
    s.deadline b (x.tile / s.tilesAcross) < (s.nowPs : Int) → Yields (.tileComplete c) s (fun t =>
      (∃ y, t.fsu.build = some y ∧ y.late = b.late + 1 ∧ y.pred = b.pred ∧ Tab.get noTile y.cores c.val = none ∧ y.next = b.next) ∧
      t.mem = u.mem)) ∧
  (∀ (c : Fin 8) (b : Build) (s : State), s.building = some b → Tab.get noTile b.cores c.val = none → Yields (.tileComplete c) s (fun t =>
      t.fsu = s.fsu ∧ Frame [] s t)) ∧
  (∀ (b : Build) (s : State), s.building = some b → b.tiles ≤ b.next → b.cores = [] → b.noTiles = false → s.fsu.stopping = false →
    s.qEn 92 = false → Yields .frameReport s (fun t => t.fsu = { s.fsu with
        build := none, k := (b.k + 1) % 2 ^ 32, lastOut := some (b.k, b.t0, s.fsuBuf b.k) } ∧
      t.evc Blk.fsu 2 = s.evc Blk.fsu 2 + 1 ∧ t.evc Blk.fsu 9 = s.evc Blk.fsu 9 + 1 ∧
      (t.evc Blk.fsu 3 = if b.pred + b.late = 0 then s.evc Blk.fsu 3 else s.evc Blk.fsu 3 + 1) ∧ Frame [.fsu, .regs Blk.fsu] s t)) ∧
  (∀ (b : Build) (s : State), s.building = some b → (b.next < b.tiles ∨ b.cores ≠ []) → Yields .frameReport s (fun t =>
      t.fsu = s.fsu ∧ Frame [] s t)) ∧
  (∀ (interp : Bool) (mm j k : Nat) (n : Option SrcFrame) (x : SrcFrame) (later taken l gone : List SrcFrame) (held : Bool), j ≤ mm →
    (interp = true → later ≠ []) → chooseFrames interp mm n j later taken = some (x, l, k, held, gone) → k ≤ mm ∧ (held = true → k = mm ∧ j = mm ∧ n = some x ∧ gone = [])) ∧
  (∀ (mm j : Nat) (v : Int), (scaled mm (j : Int) v) * (2 * (mm + 1)) ≤ 2 * j * v + (mm + 1) ∧
    2 * j * v + (mm + 1) < (scaled mm (j : Int) v + 1) * (2 * (mm + 1))))

/-- Every operation command: one whose pass over the next operation ends completes it, with its counts; one whose opcode is not the
next operation's changes nothing; an operation that breaks its layout or its formats ends the job with its CODE and is not
counted (R548, R552, R553, R571). -/
def Obligations.OperationRuns : Prop :=
  ∀ e ∈ opCommands, ∀ (f : FlaskId) (stall : Nat) (r : Running) (w : State) (s : State), s.opReady f.val = some r → r.fetchedBad = false →
    (∀ x q, ((opPass (s.opUser f.val r) e.2.1 e.2.2).run.run s.opStart : Except Halt (Option OpOut) × State) = (.ok (some (.fin x)), w) →
      (w.flask f.val).running = some q → Yields (e.1 f stall) s (fun t => t.mem = w.mem ∧ (∃ y, (t.flask f.val).running = some y ∧
        y.opsDone = q.opsDone + 1 ∧ y.clip = q.clip + x.clip ∧ y.elems = q.elems + x.elems ∧ y.wait = none ∧ y.ended = q.ended ∧
        y.recastOps = (if x.recast = none then q.recastOps else q.recastOps + 1) ∧ y.job = q.job))) ∧
    ((((opPass (s.opUser f.val r) e.2.1 e.2.2).run.run s.opStart : Except Halt (Option OpOut) × State) = (.ok none, w)) →
      Yields (e.1 f stall) s (fun t => t.sch = s.sch ∧ Frame [] s t)) ∧
    (∀ c n q, ((opPass (s.opUser f.val r) e.2.1 e.2.2).run.run s.opStart : Except Halt (Option OpOut) × State) =
        (.error (.bad (.stop stDescriptor c n)), w) → (w.flask f.val).running = some q → Yields (e.1 f stall) s (fun t =>
      (t.flask f.val).running = some { q with ended := some (stDescriptor, c, n, r.opsDone), wait := none } ∧ t.mem = w.mem)) ∧
    (∀ c n q, ((opPass (s.opUser f.val r) e.2.1 e.2.2).run.run s.opStart : Except Halt (Option OpOut) × State) =
        (.error (.bad (.stop stFormat c n)), w) → (w.flask f.val).running = some q → Yields (e.1 f stall) s (fun t =>
      (t.flask f.val).running = some { q with ended := some (stFormat, c, n, r.opsDone), wait := none } ∧ t.mem = w.mem))

/-- CONV, CONV_TRANSPOSE, CONV_BWD_WEIGHT, MATMUL and ATTENTION: where their tensors meet the shapes, formats and rules of the
operation, each output element is the result of its reduction, encoded into OUT, and the operation completes (R577, R578, R582
to R586). ELTWISE, ACT, ACT_BWD, POOL, RESIZE, NORM, SOFTMAX and CONVERT: every output element is the vector unit's result of
the input's elements, encoded into OUT (R579, R580, R587 to R591, R598). -/
def Obligations.ArrayAndVectorOperations : Prop :=
  ((∀ (f : FlaskId) (stall : Nat) (r : Running) (o : OpD) (x w t : Tensor) (b : Option Tensor) (xi wi : In) (bi : Option In) (s : State),
    s.nextOp f.val r o 0x01 → o.layoutOk 1 convUsed = true → (convP o).ok = true → s.opGives (getTensor (s.opUser f.val r) (o.inp 0)) x →
    s.opGives (getTensor (s.opUser f.val r) (o.inp 1)) w → s.opGives (getTensor? (s.opUser f.val r) (o.inp 2)) b →
    s.opGives (getTensor (s.opUser f.val r) o.out) t → t.compress ≠ 1 → s.opGives (arrayFormats o x w t) () → s.opGives (biasOk b (w.dim 3)) () →
    convShapes (convP o) x w t = true → s.apart f.val r t ([x, w] ++ b.toList) false → s.reads f.val r x 0 0 xi → s.reads f.val r w 3 0 wi →
    s.opGives (readBias (s.opUser f.val r) b) bi →
    s.computes (.conv f stall) f.val r t 0 (arrayOut { a := xi, b := wi } o t bi (s.free + 1) (fun i => ix i 0) (convTerms (convP o) xi wi)) 0 [] stall) ∧
  (∀ (f : FlaskId) (stall : Nat) (r : Running) (o : OpD) (y w t : Tensor) (yi wi : In) (s : State),
    s.nextOp f.val r o 0x02 → o.layoutOk 1 convUsed = true → (convP o).ok = true → s.opGives (getTensor (s.opUser f.val r) (o.inp 0)) y →
    s.opGives (getTensor (s.opUser f.val r) (o.inp 1)) w → s.opGives (getTensor (s.opUser f.val r) o.out) t → t.compress ≠ 1 →
    s.opGives (arrayFormats o y w t) () → convShapes (convP o) t w y = true → s.apart f.val r t [y, w] false →
    s.reads f.val r y 0 0 yi → s.reads f.val r w 3 3 wi → s.computes (.convTranspose f stall) f.val r t 0
      (arrayOut { a := yi, b := wi } o t none (s.free + 1) (fun i => ix i 0) (convTransposeTerms (convP o) yi wi (t.dim 0))) 0 [] stall) ∧
  (∀ (f : FlaskId) (stall : Nat) (r : Running) (o : OpD) (x y t : Tensor) (xi yi : In) (s : State),
    s.nextOp f.val r o 0x03 → o.layoutOk 1 convUsed = true → (convP o).ok = true → s.opGives (getTensor (s.opUser f.val r) (o.inp 0)) x →
    s.opGives (getTensor (s.opUser f.val r) (o.inp 1)) y → s.opGives (getTensor (s.opUser f.val r) o.out) t → t.compress ≠ 1 →
    s.opGives (arrayFormats o x y t) () → convShapes (convP o) x t y = true → s.apart f.val r t [x, y] false →
    s.reads f.val r x 0 1 xi → s.reads f.val r y 0 1 yi → s.computes (.convBwdWeight f stall) f.val r t 3
      (arrayOut { a := xi, b := yi } o t none (s.free + 1) (fun i => ix i 3) (bwdWeightTerms (convP o) xi yi (t.dim 3))) 0 [] stall) ∧
  (∀ (f : FlaskId) (stall : Nat) (r : Running) (o : OpD) (ta tb : Bool) (a b t : Tensor) (c : Option Tensor) (ai bi : In) (ci : Option In) (s : State),
    s.nextOp f.val r o 0x10 → o.layoutOk 1 [(0x18, 2)] = true → o.p 0x18 1 = b2n ta → o.p 0x19 1 = b2n tb →
    s.opGives (getTensor (s.opUser f.val r) (o.inp 0)) a → s.opGives (getTensor (s.opUser f.val r) (o.inp 1)) b →
    s.opGives (getTensor? (s.opUser f.val r) (o.inp 2)) c → s.opGives (getTensor (s.opUser f.val r) o.out) t → t.compress ≠ 1 →
    s.opGives (arrayFormats o a b t) () → s.opGives (biasOk c (b.dim (1 - b2n tb))) () → b.dim (b2n tb) = a.dim (b2n ta) →
    a.dims.drop 3 = [1, 1] → b.dims.drop 3 = [1, 1] → (a.dim 2 = 1 ∨ a.dim 2 = max (a.dim 2) (b.dim 2)) →
    (b.dim 2 = 1 ∨ b.dim 2 = max (a.dim 2) (b.dim 2)) → t.dims = [b.dim (1 - b2n tb), a.dim (1 - b2n ta), max (a.dim 2) (b.dim 2), 1, 1] →
    s.apart f.val r t ([a, b] ++ c.toList) false → s.reads f.val r a 0 (b2n ta) ai → s.reads f.val r b (1 - b2n tb) (b2n tb) bi →
    s.opGives (readBias (s.opUser f.val r) c) ci → s.computes (.matmul f stall) f.val r t 0
      (arrayOut { a := ai, b := bi } o t ci (s.free + 1) (fun i => ix i 0) (matmulTerms ta tb ai bi (a.dim (b2n ta)))) 0 [] stall) ∧
  (∀ (f : FlaskId) (stall : Nat) (r : Running) (o : OpD) (q k v t : Tensor) (m : Option Tensor) (qi ki vi : In) (mi : Option In) (d lq lk hd : Nat)
    (s : State), s.nextOp f.val r o 0x11 → o.layoutOk 1 [(0x18, 5)] = true → o.p 0x1C 1 < 2 →
    s.opGives (getTensor (s.opUser f.val r) (o.inp 0)) q → s.opGives (getTensor (s.opUser f.val r) (o.inp 1)) k →
    s.opGives (getTensor (s.opUser f.val r) (o.inp 2)) v → s.opGives (getTensor? (s.opUser f.val r) (o.inp 3)) m →
    (∀ x, m = some x → x.fmt = 1 ∧ x.scaleMode ≠ 3 ∧ x.dims = [lk, lq, 1, 1, 1]) →
    s.opGives (getTensor (s.opUser f.val r) o.out) t → t.compress ≠ 1 → pairOk q.fmt k.fmt = true →
    s.opGives (arrayFormats o { v with fmt := if inQ v.fmt then 1 else v.fmt } v t) () → d ≤ 256 → lk ≤ 4096 → q.dims = [d, lq, hd, 1, 1] →
    k.dims = [d, lk, hd, 1, 1] → v.dims = [d, lk, hd, 1, 1] → t.dims = [d, lq, hd, 1, 1] → s.apart f.val r t ([q, k, v] ++ m.toList) false →
    s.reads f.val r q 0 0 qi → s.reads f.val r k 0 0 ki → s.reads f.val r v 0 1 vi → s.opGives (readBias (s.opUser f.val r) m) mi →
    s.computes (.attention f stall) f.val r t 0 (attentionOut o t qi ki vi mi (s.free + 1) d lq lk hd) 0 [] stall) ∧
  (∀ l : List Fl, (softmaxRow l).length = l.length ∧ ((∀ x ∈ l, x = .inf true) → ∀ y ∈ softmaxRow l, y = Fl.zero))) ∧
  ((∀ (f : FlaskId) (stall : Nat) (r : Running) (o : OpD) (a b t : Tensor) (ai bi : In) (s : State),
    s.nextOp f.val r o 0x30 → o.layoutOk 6 [] = true → s.names f.val r (o.inp 0) a inQV → s.names f.val r (o.inp 1) b inQV →
    s.namesOut f.val r o.out t inQV → castOk a t = true → castOk b t = true → s.apart f.val r t [a, b] true →
    s.reads f.val r a 0 0 ai → s.reads f.val r b 0 0 bi → s.computes (.eltwise f stall) f.val r t 0 (perOut t (fun i k =>
      actF o.act o.alpha (Config.freeBool (s.free + 1 + 2 * k)) (eltwiseOp o.variant (Config.freeBool (s.free + 1 + 2 * k + 1))
        (ai.val (castIx a i)) (bi.val (castIx b i))))) 0 [] stall) ∧
  (∀ (f : FlaskId) (stall : Nat) (r : Running) (o : OpD) (x t : Tensor) (xi : In) (s : State),
    s.namesOut f.val r o.out t inQV → x.dims = t.dims → s.reads f.val r x 0 0 xi → s.names f.val r (o.inp 0) x inQV →
    (s.nextOp f.val r o 0x31 → o.layoutOk 1 [] = true → s.apart f.val r t [x] true → s.computes (.act f stall) f.val r t 0
      (perOut t (fun i k => actF o.act o.alpha (Config.freeBool (s.free + 1 + k)) (xi.val i))) 0 [] stall) ∧
    (s.nextOp f.val r o 0x42 → o.layoutOk 1 [] = true → s.apart f.val r t [x] false → s.computes (.softmax f stall) f.val r t 0
      (.vals (perRow t (fun i => softmaxRow (rowOf xi i)))) 0 [] stall) ∧
    (∀ (g b : Option Tensor) (gi bi : Option In), s.nextOp f.val r o 0x40 → o.layoutOk 2 [(0x18, 4)] = true →
      s.opGives (getTensor? (s.opUser f.val r) (o.inp 1)) g → s.opGives (getTensor? (s.opUser f.val r) (o.inp 2)) b →
      s.opGives (biasOk g (x.dim 0)) () → s.opGives (biasOk b (x.dim 0)) () → s.apart f.val r t ([x] ++ g.toList ++ b.toList) false →
      s.opGives (readBias (s.opUser f.val r) g) gi → s.opGives (readBias (s.opUser f.val r) b) bi → s.computes (.norm f stall) f.val r t 0
        (.vals (perRow t (fun i => normRow o.variant (o.f32 0x18) (rowOf xi i) (vecOf gi) (vecOf bi)))) 0 [] stall)) ∧
  (∀ (f : FlaskId) (stall : Nat) (r : Running) (o : OpD) (x t : Tensor) (xi : In) (s : State), s.nextOp f.val r o 0x90 →
    o.layoutOk 1 [] = true → s.names f.val r (o.inp 0) x anyFmt → s.namesOut f.val r o.out t anyFmt → x.dims = t.dims →
    s.apart f.val r t [x] true → s.reads f.val r x 0 0 xi →
    s.computes (.convert f stall) f.val r t 0 (perOut t (fun i _ => xi.val i)) 0 [] stall) ∧
  (∀ (f : FlaskId) (stall : Nat) (r : Running) (o : OpD) (x g t : Tensor) (xi gi : In) (s : State), s.nextOp f.val r o 0x32 →
    o.layoutOk 1 [] = true → s.names f.val r (o.inp 0) x inV → s.names f.val r (o.inp 1) g inV → s.namesOut f.val r o.out t inV →
    x.dims = t.dims → g.dims = t.dims → s.apart f.val r t [x, g] false → s.reads f.val r x 0 0 xi → s.reads f.val r g 0 0 gi →
    s.computes (.actBwd f stall) f.val r t 0 (perOut t (fun i k =>
      fmul (gi.val i) (actD o.act o.alpha (Config.freeBool (s.free + 1 + k)) (xi.val i)))) 0 [] stall) ∧
  (∀ (f : FlaskId) (stall : Nat) (r : Running) (o : OpD) (x t : Tensor) (xi : In) (s : State),
    s.names f.val r (o.inp 0) x inQV → s.namesOut f.val r o.out t inQV → x.dim 4 = 1 → t.dim 4 = 1 → t.dim 0 = x.dim 0 → t.dim 3 = x.dim 3 →
    s.apart f.val r t [x] false → s.reads f.val r x 0 0 xi →
    (s.nextOp f.val r o 0x20 → o.variant = 2 → o.layoutOk 3 [] = true → t.dim 1 = 1 → t.dim 2 = 1 → s.computes (.pool f stall) f.val r t 0
      (perOut t (fun i k => average (s.free + 1 + k) (((List.range (x.dim 2)).flatMap (fun y => (List.range (x.dim 1)).map (fun a =>
        [ix i 0, a, y, ix i 3, 0]))).map xi.val))) 0 [] stall) ∧
    (∀ c, s.nextOp f.val r o 0x20 → o.variant < 2 → o.layoutOk 3 [(0x18, 8)] = true → c = { convP o with dx := 1, dy := 1, groups := 1 } →
      c.ok = true → 1 ≤ o.p 0x1A 1 → o.p 0x1A 1 ≤ 15 → 1 ≤ o.p 0x1B 1 → o.p 0x1B 1 ≤ 15 →
      convLen (x.dim 1) c.pl c.pr 1 (o.p 0x1A 1) c.sx = some (t.dim 1) → convLen (x.dim 2) c.pt c.pb 1 (o.p 0x1B 1) c.sy = some (t.dim 2) →
      s.computes (.pool f stall) f.val r t 0 (perOut t (fun i k => if o.variant = 0
        then poolMax (s.free + 1 + k) ((poolWindow c (o.p 0x1A 1) (o.p 0x1B 1) x i).map xi.val)
        else average (s.free + 1 + k) ((poolWindow c (o.p 0x1A 1) (o.p 0x1B 1) x i).map xi.val))) 0 [] stall) ∧
    (s.nextOp f.val r o 0x21 → o.variant = 0 → o.layoutOk 2 [] = true → s.computes (.resize f stall) f.val r t 0 (perOut t (fun i _ =>
      xi.val [ix i 0, ix i 1 * x.dim 1 / t.dim 1, ix i 2 * x.dim 2 / t.dim 2, ix i 3, 0])) 0 [] stall) ∧
    (s.nextOp f.val r o 0x21 → o.variant = 1 → o.layoutOk 2 [] = true → s.computes (.resize f stall) f.val r t 0 (perOut t (fun i _ =>
      bilinear (x.dim 2) (t.dim 2) (ix i 2) (fun y => bilinear (x.dim 1) (t.dim 1) (ix i 1) (fun a => xi.val [ix i 0, a, y, ix i 3, 0]))))
      0 [] stall)))

/-- SOFTMAX_XENT, REDUCE, TOPK, BOX_SUPPRESS, OPT_SGD and OPT_ADAM (R592, R593, R596, R597, R599, R600). TRANSPOSE, CONCAT, PAD,
GATHER, SCATTER, FILL and COPY move codes unchanged and count no element (R579, R594, R595, R601). -/
def Obligations.LearningAndMoves : Prop :=
  ((∀ (f : FlaskId) (stall : Nat) (r : Running) (o : OpD) (x l loss t : Tensor) (xi li : In) (c nb : Nat) (s : State), s.nextOp f.val r o 0x43 →
    o.layoutOk 1 [] = true → s.names f.val r (o.inp 0) x inV → s.names f.val r (o.inp 1) l isI32 → s.namesOut f.val r (o.inp 2) loss isF32 →
    s.namesOut f.val r o.out t inV → x.dims = [c, nb, 1, 1, 1] → t.dims = x.dims → l.dims = [nb, 1, 1, 1, 1] → loss.dims = [1, 1, 1, 1, 1] →
    s.apart f.val r t [x, l] false → s.apart f.val r loss [x, l] false → s.reads f.val r x 0 0 xi → s.reads f.val r l 0 0 li →
    s.computes (.softmaxXent f stall) f.val r t 0 (.vals (xentOut xi li c nb).1) (xentOut xi li c nb).2.1
      [(loss, #[encode32 (xentOut xi li c nb).2.2])] stall) ∧
  (∀ (f : FlaskId) (stall : Nat) (r : Running) (o : OpD) (x t : Tensor) (xi : In) (s : State), s.nextOp f.val r o 0x50 →
    o.layoutOk 5 [(0x18, 1)] = true → o.p 0x18 1 < 32 → s.names f.val r (o.inp 0) x inQV →
    t.dims = x.dims.zipIdx.map (fun e => if (o.p 0x18 1).testBit e.2 then 1 else e.1) → s.apart f.val r t [x] false → s.reads f.val r x 0 0 xi →
    (o.variant < 4 → s.namesOut f.val r o.out t inQV → s.computes (.reduce f stall) f.val r t 0 (perOut t (fun i k =>
      reduceOne o.variant (Config.freeBool (s.free + 1 + k)) ((reduceSet x (o.p 0x18 1) i).map xi.val))) 0 [] stall) ∧
    (o.variant = 4 → (∃ d, d < 5 ∧ o.p 0x18 1 = 2 ^ d) → s.namesOut f.val r o.out t isI32 → s.computes (.reduce f stall) f.val r t 0
      (.ints ((Array.range t.count).map (fun k => (argMax ((reduceSet x (o.p 0x18 1) (unlin t.dims k)).map xi.val) : Int))) true) 0 [] stall)) ∧
  (∀ (f : FlaskId) (stall : Nat) (r : Running) (o : OpD) (x n t : Tensor) (xi : In) (rows : List (Fl × Nat)) (s : State), s.nextOp f.val r o 0x80 →
    o.layoutOk 1 [(0x18, 2)] = true → 1 ≤ o.p 0x18 2 → o.p 0x18 2 ≤ 256 → s.names f.val r (o.inp 0) x inV → s.namesOut f.val r o.out t inV →
    s.namesOut f.val r (o.inp 1) n isI32 → o.p 0x18 2 ≤ x.dim 0 → t.dims = x.dims.set 0 (o.p 0x18 2) → n.dims = t.dims →
    s.apart f.val r t [x] false → s.apart f.val r n [x] false → s.reads f.val r x 0 0 xi →
    rows = (List.range (x.count / x.dim 0)).flatMap (fun k => topK (o.p 0x18 2) (rowOf xi (unlin x.dims (k * x.dim 0)))) →
    s.computes (.topk f stall) f.val r t 0 (.vals (rows.map (fun e => e.1)).toArray) 0 [(n, (rows.map (fun e => e.2)).toArray)] stall) ∧
  (∀ (f : FlaskId) (stall : Nat) (r : Running) (o : OpD) (b c t : Tensor) (bi ci : In) (nb : Nat) (s : State), s.nextOp f.val r o 0x81 →
    o.layoutOk 1 [(0x18, 8), (0x20, 2)] = true → 1 ≤ o.p 0x20 2 → o.p 0x20 2 ≤ 4096 → s.names f.val r (o.inp 0) b isF32 →
    s.names f.val r (o.inp 1) c isF32 → s.namesOut f.val r o.out t isI32 → nb ≤ 4096 → b.dims = [4, nb, 1, 1, 1] → c.dims = [nb, 1, 1, 1, 1] →
    t.dims = [o.p 0x20 2, 1, 1, 1, 1] → s.apart f.val r t [b, c] false → s.reads f.val r b 0 0 bi → s.reads f.val r c 0 0 ci →
    s.computes (.boxSuppress f stall) f.val r t 0 (.ints (boxOut o bi ci nb (o.p 0x20 2) (s.free + 1)) true) 0 [] stall ∧
    ((∀ k, k < nb → flt (o.f32 0x1C) (ci.val [k, 0, 0, 0, 0]) = false ∧ (ci.val [k, 0, 0, 0, 0]).isNan = false) → (o.f32 0x1C).isNan = false →
      ∀ k, k < o.p 0x20 2 → (boxOut o bi ci nb (o.p 0x20 2) (s.free + 1))[k]? = some (-1))) ∧
  (∀ (f : FlaskId) (stall : Nat) (r : Running) (o : OpD) (g t : Tensor) (v : Option Tensor) (gi wi : In) (vi : Option In) (s : State),
    s.nextOp f.val r o 0xA0 → o.layoutOk 1 [(0x18, 12)] = true → s.names f.val r (o.inp 0) g isF32 →
    s.opGives (getTensor? (s.opUser f.val r) (o.inp 1)) v → s.namesOut f.val r o.out t inQV → g.dims = t.dims →
    (∀ x, v = some x → x.fmt = 7 ∧ x.scaleMode ≠ 3 ∧ x.compress ≠ 1 ∧ x.dims = t.dims) → s.apart f.val r t ([g] ++ v.toList) true →
    s.reads f.val r g 0 0 gi → s.opGives (readBias (s.opUser f.val r) v) vi → s.reads f.val r t 0 0 wi →
    s.computes (.optSgd f stall) f.val r t 0 (.vals ((sgdStep o t wi gi vi).map (fun e => e.1))) 0
      (match v with | some x => [(x, (sgdStep o t wi gi vi).map (fun e => encode32 e.2))] | none => []) stall) ∧
  (∀ (f : FlaskId) (stall : Nat) (r : Running) (o : OpD) (g m v t : Tensor) (gi mi vi wi : In) (s : State), s.nextOp f.val r o 0xA1 →
    o.layoutOk 1 [(0x18, 28)] = true → s.names f.val r (o.inp 0) g isF32 → s.namesOut f.val r (o.inp 1) m isF32 →
    s.namesOut f.val r (o.inp 2) v isF32 → s.namesOut f.val r o.out t inQV → g.dims = t.dims → m.dims = t.dims → v.dims = t.dims →
    s.apart f.val r t [g, m, v] true → s.reads f.val r g 0 0 gi → s.reads f.val r m 0 0 mi → s.reads f.val r v 0 0 vi → s.reads f.val r t 0 0 wi →
    s.computes (.optAdam f stall) f.val r t 0 (.vals ((adamStep o t wi gi mi vi).map (fun e => e.1))) 0
      [(m, (adamStep o t wi gi mi vi).map (fun e => encode32 e.2.1)), (v, (adamStep o t wi gi mi vi).map (fun e => encode32 e.2.2))] stall) ∧
  (∀ (o : OpD) (t : Tensor) (wi gi : In) (k : Nat), k < t.count → (sgdStep o t wi gi none)[k]?.map (fun e => e.1) =
    some (fsub (wi.val (unlin t.dims k)) (fmul (o.f32 0x18) (fadd (gi.val (unlin t.dims k)) (fmul (o.f32 0x20) (wi.val (unlin t.dims k)))))))) ∧
  ((∀ (f : FlaskId) (stall : Nat) (r : Running) (o : OpD) (x t : Tensor) (xi : In) (s : State), s.names f.val r (o.inp 0) x anyFmt →
    s.namesOut f.val r o.out t anyFmt → t.fmt = x.fmt → s.apart f.val r t [x] false → s.reads f.val r x 0 0 xi →
    (∀ perm, s.nextOp f.val r o 0x60 → o.layoutOk 1 [(0x18, 5)] = true → perm = (List.range 5).map (fun d => o.p (0x18 + d) 1) →
      (∀ d, d < 5 → d ∈ perm) → t.dims = perm.map x.dim → s.moves (.transpose f stall) f.val r t ((Array.range t.count).map (fun k =>
        some (xi.codeI ((List.range 5).map (fun d => ix (unlin t.dims k) (perm.findIdx (fun p => p == d))))))) 0 stall) ∧
    (∀ v, s.nextOp f.val r o 0x62 → o.layoutOk 1 [(0x18, 9), (0x28, 8)] = true → s.opGives (o.value (s.opUser f.val r) 0x20 0x28) v →
      t.dims = [o.p 0x18 1 + x.dim 0 + o.p 0x19 1, o.p 0x1A 1 + x.dim 1 + o.p 0x1B 1, o.p 0x1C 1 + x.dim 2 + o.p 0x1D 1,
        o.p 0x1E 1 + x.dim 3 + o.p 0x1F 1, x.dim 4] → s.moves (.pad f stall) f.val r t ((Array.range t.count).map (fun k =>
      if (∀ d, d < 5 → padBefore o d ≤ ix (unlin t.dims k) d ∧ ix (unlin t.dims k) d - padBefore o d < xi.t.dim d)
        then some (xi.codeI ((List.range 5).map (fun d => ix (unlin t.dims k) d - padBefore o d)))
        else some (v % 2 ^ t.bits))) 0 stall) ∧
    (s.nextOp f.val r o 0xB0 → o.layoutOk 1 [] = true → t.compress = 0 → x.dims = t.dims → s.moves (.copy f stall) f.val r t
      ((Array.range t.count).map (fun k => some (xi.codeI (unlin t.dims k)))) 0 stall)) ∧
  (∀ (f : FlaskId) (stall : Nat) (r : Running) (o : OpD) (x y t : Tensor) (xi yi : In) (d : Nat) (s : State), s.nextOp f.val r o 0x61 →
    o.layoutOk 1 [(0x18, 1)] = true → o.p 0x18 1 = d → d < 5 → s.names f.val r (o.inp 0) x anyFmt → s.names f.val r (o.inp 1) y anyFmt →
    o.inp 0 ≠ 0xFFFF → o.inp 1 ≠ 0xFFFF → o.inp 2 = 0xFFFF → o.inp 3 = 0xFFFF → s.namesOut f.val r o.out t anyFmt → x.fmt = t.fmt → y.fmt = t.fmt →
    x.dims.set d 0 = t.dims.set d 0 → y.dims.set d 0 = t.dims.set d 0 → x.dim d + y.dim d = t.dim d → s.apart f.val r t [x, y] false →
    s.reads f.val r x 0 0 xi → s.reads f.val r y 0 0 yi → s.moves (.concat f stall) f.val r t ((Array.range t.count).map (fun k =>
      (concatAt [xi, yi] d (ix (unlin t.dims k) d)).map (fun e => e.1.codeI ((unlin t.dims k).set d e.2)))) 0 stall) ∧
  (∀ (f : FlaskId) (stall : Nat) (r : Running) (o : OpD) (x n t : Tensor) (xi ni : In) (d l : Nat) (s : State), o.p 0x18 1 = d → d < 5 →
    s.names f.val r (o.inp 0) x anyFmt → s.names f.val r (o.inp 1) n isI32 → s.namesOut f.val r o.out t anyFmt → t.fmt = x.fmt →
    n.dims = [l, 1, 1, 1, 1] → s.reads f.val r x 0 0 xi → s.reads f.val r n 0 0 ni →
    (s.nextOp f.val r o 0x70 → o.layoutOk 1 [(0x18, 1)] = true → t.dims = x.dims.set d l → s.apart f.val r t [x, n] false →
      s.moves (.gather f stall) f.val r t ((Array.range t.count).map (fun k =>
        some (if 0 ≤ ni.intK (ix (unlin t.dims k) d) ∧ ni.intK (ix (unlin t.dims k) d) < (x.dim d : Int)
          then xi.codeI ((unlin t.dims k).set d (ni.intK (ix (unlin t.dims k) d)).toNat) else 0)))
        (((List.range l).filter (fun k => !decide (0 ≤ ni.intK k ∧ ni.intK k < (x.dim d : Int)))).length * (t.count / l)) stall) ∧
    (s.nextOp f.val r o 0x71 → o.variant = 0 → o.layoutOk 2 [(0x18, 1)] = true → x.dims = t.dims.set d l → s.apart f.val r t [x, n] true →
      s.moves (.scatter f stall) f.val r t ((Array.range t.count).map (fun k =>
        ((slices ni l (t.dim d)).reverse.find? (fun e => e.2 == ix (unlin t.dims k) d)).map (fun e => xi.codeI ((unlin t.dims k).set d e.1))))
        ((l - (slices ni l (t.dim d)).length) * (xi.t.count / l)) stall)) ∧
  (∀ (f : FlaskId) (stall : Nat) (r : Running) (o : OpD) (x n t : Tensor) (xi ni ti : In) (d l : Nat) (s : State), s.nextOp f.val r o 0x71 →
    o.variant = 1 → o.layoutOk 2 [(0x18, 1)] = true → o.p 0x18 1 = d → d < 5 → s.names f.val r (o.inp 0) x inV →
    s.names f.val r (o.inp 1) n isI32 → s.namesOut f.val r o.out t inV → n.dims = [l, 1, 1, 1, 1] → x.dims = t.dims.set d l →
    s.apart f.val r t [x, n] true → s.reads f.val r x 0 0 xi → s.reads f.val r n 0 0 ni → s.reads f.val r t 0 0 ti →
    s.computes (.scatter f stall) f.val r t 0 (scatterAdd t xi ti (slices ni l (t.dim d)) d l).out
      ((l - (slices ni l (t.dim d)).length) * (xi.t.count / l)) [] stall) ∧
  (∀ (f : FlaskId) (stall : Nat) (r : Running) (o : OpD) (t : Tensor) (v : Nat) (s : State), s.nextOp f.val r o 0xB1 →
    o.layoutOk 2 [(0x18, 1), (0x20, 8)] = true → s.opGives (o.value (s.opUser f.val r) 0x18 0x20) v → s.namesOut f.val r o.out t anyFmt →
    (o.variant = 1 → s.moves (.fill f stall) f.val r t ((Array.range t.count).map (fun _ => some (v % 2 ^ t.bits))) 0 stall) ∧
    (o.variant = 0 → s.computes (.fill f stall) f.val r t 0
      (.vals (Array.replicate t.count (decode32 (v % 2 ^ 32)))) 0 [] stall)))

/-- FENCE, SIGNAL, WAIT, QPUSH and QPOP with their second commands, and ENCODER_GRANT: an operation that must wait begins its wait
and keeps its place; FENCE completes by FENCE_COMPLETE; WAIT ends when its condition holds, with one element, or by its TIMEOUT,
with none; QPUSH enters its entries; QPOP of an empty queue stores zeros (R602 to R607, R612, R696, R715). -/
def Obligations.SynchronisingOperations : Prop :=
  (∀ (f : FlaskId) (stall : Nat) (r : Running) (o : OpD) (s : State), s.nextOp f.val r o 0xC3 → o.layoutOk 1 [(0x18, 1)] = true → o.p 0x18 1 < 2 →
    (r.wait = none → Yields (.fence f stall) s (fun t => (t.flask f.val).running =
      some { r with wait := some (.fence, s.clk.now), fetched := [] } ∧ t.mem = s.mem ∧ Frame [.sch] s t)) ∧
    (∀ t0, r.wait = some (.fence, t0) → s.completes (.fenceComplete f stall) f.val r s 0 0 stall) ∧
    (r.wait = none → Yields (.fenceComplete f stall) s (fun t => (t.flask f.val).running = some { r with fetched := [] } ∧
      Frame [.sch] s t))) ∧
  (∀ (f : FlaskId) (stall : Nat) (r : Running) (o : OpD) (v : Nat) (w : State) (s : State), s.nextOp f.val r o 0xC4 →
    o.layoutOk 1 [(0x18, 2), (0x20, 16)] = true → o.p 0x18 1 < 2 → o.p 0x20 8 % 8 = 0 → o.p 0x20 8 < 2 ^ 40 →
    s.opGives (o.value (s.lowestUser (s.opUser f.val r)) 0x19 0x28) v →
    ((jwrite (s.lowestUser (s.opUser f.val r)) (o.p 0x20 8) (leBytes 8 v)).run.run s.opStart : Except Halt Unit × State) = (.ok (), w) →
    (w.flask f.val).running = some r → s.completes (.signal f stall) f.val r w 0 0 stall) ∧
  (∀ (f : FlaskId) (stall : Nat) (r : Running) (o : OpD) (v : Nat) (d : List Byte) (s : State), s.nextOp f.val r o 0xC2 →
    o.layoutOk 1 [(0x18, 2), (0x1C, 20)] = true → o.p 0x18 1 < 4 → o.p 0x20 8 % 8 = 0 → o.p 0x20 8 < 2 ^ 40 →
    s.opGives (o.value (s.lowestUser (s.opUser f.val r)) 0x19 0x28) v → s.opGives (jread (s.lowestUser (s.opUser f.val r)) (o.p 0x20 8) 8) d →
    (r.wait = none → condHolds (o.p 0x18 1) (leNat d) v = true → s.completes (.wait f stall) f.val r s 0 1 stall) ∧
    (r.wait = none → condHolds (o.p 0x18 1) (leNat d) v = false → Yields (.wait f stall) s (fun t => (t.flask f.val).running =
      some { r with wait := some (.poll, s.clk.now), fetched := [] } ∧ t.mem = s.mem ∧ Frame [.sch] s t)) ∧
    (∀ t0, r.wait = some (.poll, t0) → o.p 0x1C 4 ≠ 0 → t0 + o.p 0x1C 4 * tbUs ≤ s.clk.now → condHolds (o.p 0x18 1) (leNat d) v = false →
      s.completes (.waitOpTimeout f stall) f.val r s 0 0 stall) ∧
    (∀ t0, r.wait = some (.poll, t0) → o.p 0x1C 4 = 0 → Yields (.waitOpTimeout f stall) s (fun t =>
      (t.flask f.val).running = some { r with fetched := [] } ∧ Frame [.sch] s t))) ∧
  (∀ (f : FlaskId) (stall : Nat) (r : Running) (o : OpD) (q n : Nat) (x : Tensor) (codes : Array Nat) (s : State), s.nextOp f.val r o 0xC0 →
    o.p 0x18 1 = q → o.p 0x19 1 = n → o.layoutOk 1 [(0x18, 3)] = true → 1 ≤ n → n ≤ 16 → o.p 0x1A 1 < 8 → r.job.ctx < 32 →
    (q = 2 * r.job.ctx ∨ (108 ≤ q ∧ q < 128 ∧ s.ownedBy q r.job.ctx = true)) →
    s.opGives (getTensor (s.lowestUser (s.opUser f.val r)) (o.inp 0)) x → x.fmt = 1 → x.scaleMode ≠ 3 → x.count = 64 * n →
    s.opGives (readCodes (s.lowestUser (s.opUser f.val r)) x) codes → s.qEn q = true → (s.queue q).push = none → (s.queue q).dropping = false →
    (n ≤ s.credits q → Yields (.qpush f stall) s (fun t => (t.queue q).occ = (s.queue q).occ + n ∧ (t.queue q).pushed = n ∧
      (∃ y, (t.flask f.val).running = some y ∧ y.opsDone = r.opsDone + 1 ∧ y.elems = r.elems) ∧ (∀ p, p ≠ q → t.queue p = s.queue p))) ∧
    (s.credits q < n → bit (o.p 0x1A 1) 2 = true → r.wait = none → Yields (.qpush f stall) s (fun t =>
      (t.flask f.val).running = some { r with wait := some (.credit, s.clk.now), fetched := [] } ∧ t.mem = s.mem ∧ Frame [.sch] s t))) ∧
  (∀ (f : FlaskId) (stall : Nat) (r : Running) (o : OpD) (q n : Nat) (y : Tensor) (s : State), s.nextOp f.val r o 0xC1 → o.p 0x18 1 = q →
    o.p 0x19 1 = n → o.layoutOk 1 [(0x18, 3), (0x1C, 4)] = true → 1 ≤ n → n ≤ 16 → o.p 0x1A 1 < 2 → r.job.ctx < 32 → 64 ≤ q → q < 128 →
    s.ownedBy q r.job.ctx = true → s.opGives (getTensor (s.lowestUser (s.opUser f.val r)) o.out) y → y.fmt = 1 → y.scaleMode ≠ 3 →
    y.compress ≠ 1 → y.count = 64 * (n + 1) → (s.queue q).occ = 0 →
    (bit (o.p 0x1A 1) 0 = true → r.wait = none → Yields (.qpop f stall) s (fun t =>
      (t.flask f.val).running = some { r with wait := some (.pop, s.clk.now), fetched := [] } ∧ t.mem = s.mem ∧ Frame [.sch] s t)) ∧
    (∀ w : State, ((writePlain (s.lowestUser (s.opUser f.val r)) y (fun i => some ((List.replicate (64 * n) (0 : Byte) ++ (leBytes 2 0 ++
        leBytes 2 (s.queue q).epoch ++ List.replicate 60 (0 : Byte))).toArray.getD i 0).toNat)).run.run ((s.opStart.qRemove q 0).setQueue q {
          (s.opStart.qRemove q 0).queue q with removed := 0 }) : Except Halt Unit × State) = (.ok (), w) → (w.flask f.val).running = some r →
      (bit (o.p 0x1A 1) 0 = false → s.completes (.qpop f stall) f.val r w 0 0 stall) ∧
      (∀ t0, r.wait = some (.pop, t0) → o.p 0x1C 4 ≠ 0 → t0 + o.p 0x1C 4 * tbUs ≤ s.clk.now →
        s.completes (.qpopTimeout f stall) f.val r w 0 0 stall))) ∧
  (∀ (f : FlaskId) (stall : Nat) (r : Running) (o : OpD) (x t : Tensor) (s : State), s.nextOp f.val r o 0xB0 → o.layoutOk 1 [] = true →
    s.names f.val r (o.inp 0) x anyFmt → s.names f.val r o.out t anyFmt → t.compress = 1 → t.base = 0xFFFF → t.fmt = x.fmt → x.dims = t.dims →
    s.apart f.val r t [x] false → (∀ e, e ∈ s.flx.encoders ∨ e ∈ s.flx.waiting → e.flask ≠ f.val) → 4 ≤ s.flx.encoders.length → r.wait = none →
    Yields (.copy f stall) s (fun u => u.flx = { s.flx with waiting := s.flx.waiting ++ [s.encodeOf (s.opUser f.val r) x t none] } ∧
      (u.flask f.val).running = some { r with wait := some (.encoder, s.clk.now), fetched := [] } ∧ u.mem = s.mem ∧
      Frame [.sch, .flx, .regs Blk.flx] s u)) ∧
  (∀ (e : Encode) (rest : List Encode) (s : State), s.frozen = false → grantable s.flx.encoders [] s.flx.waiting = some (e, rest) →
    Yields .encoderGrant s (fun t => t.flx = { s.flx with encoders := s.flx.encoders ++ [e], waiting := rest } ∧
      s.flx.encoders.length < 4 ∧ (∀ g, g ∈ s.flx.encoders → slotsFree [g] e = true) ∧ Frame [.flx] s t))

/-- The number formats: every code that an encoder gives fits the format; an exact value of an integer format that is encoded comes
back; a NaN encodes as 0 with a clip in the integer and bell formats; an update of a scale entry keeps SHIFT between its bounds
and moves it by at most one (R615, R625 to R628, R633). -/
def Obligations.FormatsAndScales : Prop :=
  (∀ (fmt : Nat) (v : Fl), fmt ≤ 9 → (fmtEncode fmt v).1 < 2 ^ fmtBits fmt) ∧
  (∀ fmt, fmt = 0 ∨ fmt = 1 ∨ fmt = 2 ∨ fmt = 8 ∨ fmt = 9 → fmtEncode fmt .nan = (0, true)) ∧
  (∀ (c : Nat), c < 16 → fmtEncode 0 (fmtDecode 0 c) = (c, false)) ∧
  (∀ (c : Nat), c < 256 → fmtEncode 1 (fmtDecode 1 c) = (c, false)) ∧
  (∀ (c : Nat), c < 65536 → fmtEncode 2 (fmtDecode 2 c) = (c, false)) ∧
  (∀ (c : Nat), c < 16 → c ≠ 8 → fmtEncode 8 (fmtDecode 8 c) = (c, false)) ∧
  (∀ (c : Nat), c < 64 → c ≠ 32 → fmtEncode 9 (fmtDecode 9 c) = (c, false)) ∧
  (∀ (x : ScaleEntry) (c e : Nat), x.ok = true → x.d.length = 16 →
    (x.judge c e).1.shiftMin = x.shiftMin ∧ (x.judge c e).1.shiftMax = x.shiftMax ∧ (x.judge c e).1.d.length = 16 ∧
    x.shiftMin ≤ (x.judge c e).1.shift ∧ (x.judge c e).1.shift ≤ x.shiftMax ∧
    ((x.judge c e).2 = 0 → (x.judge c e).1.shift = x.shift) ∧ ((x.judge c e).2 = 1 → (x.judge c e).1.shift = x.shift + 1) ∧
    ((x.judge c e).2 = 2 → (x.judge c e).1.shift = x.shift - 1) ∧ (exceeds c x.tHi e = true → (x.judge c e).1.lowRun = 0) ∧
    bytesAt (x.judge c e).1.d 0xC 4 = (bytesAt x.d 0xC 4 + 1) % 2 ^ 32)

end
end

