-- ==== Sys2Proof/Laws/Tab.lean ====
section
/-! SUPPORT. Sys2Proof/Laws/Tab.lean: reading and writing sparse tables, and the canonical form that every operation on a
table keeps. -/
namespace Sys2Proof.Machine

variable {α : Type}

theorem Tab.get_nil (d : Nat → α) (k : Nat) : Tab.get d [] k = d k := rfl

theorem Tab.get_ins (d : Nat → α) (t : Tab α) (k j : Nat) (v : α) :
    Tab.get d (Tab.ins k v t) j = if j = k then v else Tab.get d t j := by
  induction t with
  | nil => simp [Tab.ins, Tab.get, eq_comm]
  | cons e t ih =>
    obtain ⟨i, w⟩ := e
    unfold Tab.ins
    split
    · simp [Tab.get, eq_comm]
    · split
      · next h =>
        subst h
        simp only [Tab.get]
        by_cases hj : i = j
        · simp [hj]
        · rw [if_neg hj, if_neg hj, if_neg (Ne.symm hj)]
      · next h1 h => simp only [Tab.get, ih]; split <;> simp_all

theorem Tab.get_del (d : Nat → α) (t : Tab α) (k j : Nat) :
    Tab.get d (Tab.del k t) j = if j = k then d k else Tab.get d t j := by
  induction t with
  | nil => simp only [Tab.del, Tab.get]; split <;> simp_all
  | cons e t ih =>
    obtain ⟨i, w⟩ := e
    simp only [Tab.del]
    split
    · next h =>
      subst h
      simp only [ih, Tab.get]
      by_cases hj : i = j
      · simp [hj]
      · rw [if_neg hj, if_neg (Ne.symm hj)]
    · next h => simp only [Tab.get, ih]; split <;> simp_all

theorem Tab.set_eq [DecidableEq α] (d : Nat → α) (t : Tab α) (k : Nat) (v : α) :
    Tab.set d t k v = if v = d k then Tab.del k t else Tab.ins k v t := by
  cases t <;> rfl

/-- What a table reads after a write: the value at the key written, everywhere else what it read before. -/
theorem Tab.get_set [DecidableEq α] (d : Nat → α) (t : Tab α) (k j : Nat) (v : α) :
    Tab.get d (Tab.set d t k v) j = if j = k then v else Tab.get d t j := by
  rw [Tab.set_eq]
  split
  · next h => rw [Tab.get_del, h]
  · rw [Tab.get_ins]

@[simp] theorem Tab.get_set_self [DecidableEq α] (d : Nat → α) (t : Tab α) (k : Nat) (v : α) :
    Tab.get d (Tab.set d t k v) k = v := by simp [Tab.get_set]

theorem Tab.get_set_ne [DecidableEq α] (d : Nat → α) (t : Tab α) {k j : Nat} (v : α) (h : j ≠ k) :
    Tab.get d (Tab.set d t k v) j = Tab.get d t j := by simp [Tab.get_set, h]

/-- After a clear, the keys cleared read as their default and the others as before. -/
theorem Tab.get_clear (d : Nat → α) (p : Nat → Bool) (t : Tab α) (j : Nat) :
    Tab.get d (Tab.clear p t) j = if p j then d j else Tab.get d t j := by
  induction t with
  | nil => simp [Tab.clear, Tab.get]
  | cons e t ih =>
    obtain ⟨i, w⟩ := e
    unfold Tab.clear at ih ⊢
    rw [List.filter_cons]
    by_cases h : p i = true
    · rw [if_neg (by simp [h]), ih, Tab.get]
      by_cases hj : i = j
      · subst hj; simp [h]
      · simp [hj]
    · rw [if_pos (by simp [h]), Tab.get, Tab.get, ih]
      by_cases hj : i = j
      · subst hj; simp [h]
      · simp [hj]

/-! ## The canonical form -/

theorem Tab.risingFrom_some (t : Tab α) (lo : Nat) :
    Tab.risingFrom (some lo) t = true ↔ (∀ e ∈ t, lo < e.1) ∧ t.Pairwise (fun a b => a.1 < b.1) := by
  induction t generalizing lo with
  | nil => simp [Tab.risingFrom]
  | cons e t ih =>
    obtain ⟨j, v⟩ := e
    simp only [Tab.risingFrom, Bool.and_eq_true, decide_eq_true_eq, ih, List.mem_cons, forall_eq_or_imp, List.pairwise_cons]
    constructor
    · rintro ⟨h, h1, h2⟩; exact ⟨⟨h, fun e he => lt_trans h (h1 e he)⟩, h1, h2⟩
    · rintro ⟨⟨h, _⟩, h1, h2⟩; exact ⟨h, h1, h2⟩

theorem Tab.risingFrom_none (t : Tab α) :
    Tab.risingFrom none t = true ↔ t.Pairwise (fun a b => a.1 < b.1) := by
  cases t with
  | nil => simp [Tab.risingFrom]
  | cons e t => obtain ⟨j, v⟩ := e; simp [Tab.risingFrom, Tab.risingFrom_some]

/-- The canonical form, said as a property of the list. -/
theorem Tab.wf_iff [DecidableEq α] (d : Nat → α) (t : Tab α) :
    Tab.wf d t = true ↔ t.Pairwise (fun a b => a.1 < b.1) ∧ ∀ e ∈ t, e.2 ≠ d e.1 := by
  simp [Tab.wf, Tab.risingFrom_none, List.all_eq_true]

theorem Tab.mem_ins {t : Tab α} {k : Nat} {v : α} {e : Nat × α} (h : e ∈ Tab.ins k v t) : e = (k, v) ∨ e ∈ t := by
  induction t with
  | nil => simpa [Tab.ins] using h
  | cons x t ih =>
    obtain ⟨i, w⟩ := x
    simp only [Tab.ins] at h
    split at h
    · simpa using h
    · split at h <;> simp only [List.mem_cons] at h ⊢
      · tauto
      · rcases h with h | h
        · tauto
        · have := ih h; tauto

theorem Tab.ins_pairwise {t : Tab α} (k : Nat) (v : α) (h : t.Pairwise (fun a b => a.1 < b.1)) :
    (Tab.ins k v t).Pairwise (fun a b => a.1 < b.1) := by
  induction t with
  | nil => simp [Tab.ins]
  | cons x t ih =>
    obtain ⟨i, w⟩ := x
    rw [List.pairwise_cons] at h
    simp only [Tab.ins]
    split
    · next hk =>
      refine List.pairwise_cons.2 ⟨?_, List.pairwise_cons.2 h⟩
      intro e he
      rcases List.mem_cons.1 he with rfl | he
      · exact hk
      · exact lt_trans hk (h.1 e he)
    · split
      · next hk => subst hk; exact List.pairwise_cons.2 h
      · next h1 h2 =>
        refine List.pairwise_cons.2 ⟨fun e he => ?_, ih h.2⟩
        rcases Tab.mem_ins he with rfl | he
        · exact lt_of_le_of_ne (Nat.le_of_not_lt h1) h2
        · exact h.1 e he

theorem Tab.del_sublist (k : Nat) (t : Tab α) : (Tab.del k t).Sublist t := by
  induction t with
  | nil => simp [Tab.del]
  | cons x t ih =>
    obtain ⟨i, w⟩ := x
    simp only [Tab.del]
    split
    · exact ih.cons _
    · exact ih.cons_cons _

/-- A part of a table in canonical form is in canonical form. -/
theorem Tab.wf_sublist [DecidableEq α] {d : Nat → α} {t u : Tab α} (h : u.Sublist t) (w : Tab.wf d t = true) :
    Tab.wf d u = true := by
  rw [Tab.wf_iff] at w ⊢
  exact ⟨w.1.sublist h, fun e he => w.2 e (h.subset he)⟩

theorem Tab.wf_set [DecidableEq α] {d : Nat → α} {t : Tab α} (k : Nat) (v : α) (w : Tab.wf d t = true) :
    Tab.wf d (Tab.set d t k v) = true := by
  rw [Tab.set_eq]
  split
  · exact Tab.wf_sublist (Tab.del_sublist k t) w
  · next h =>
    rw [Tab.wf_iff] at w ⊢
    refine ⟨Tab.ins_pairwise k v w.1, fun e he => ?_⟩
    rcases Tab.mem_ins he with rfl | he
    · exact h
    · exact w.2 e he

theorem Tab.wf_clear [DecidableEq α] {d : Nat → α} {t : Tab α} (p : Nat → Bool) (w : Tab.wf d t = true) :
    Tab.wf d (Tab.clear p t) = true := Tab.wf_sublist List.filter_sublist w

theorem Tab.mem_listed [DecidableEq α] {d : Nat → α} {l : List α} {a : Nat} {e : Nat × α} (h : e ∈ Tab.listed d a l) :
    a ≤ e.1 ∧ e.1 < a + l.length ∧ e.2 ≠ d e.1 := by
  induction l generalizing a with
  | nil => simp [Tab.listed] at h
  | cons v l ih =>
    simp only [Tab.listed] at h
    split at h
    · have := ih h; simp only [List.length_cons]; exact ⟨by omega, by omega, this.2.2⟩
    · next hv =>
      rcases List.mem_cons.1 h with rfl | h
      · simp [hv]
      · have := ih h; simp only [List.length_cons]; exact ⟨by omega, by omega, this.2.2⟩

theorem Tab.listed_pairwise [DecidableEq α] (d : Nat → α) (l : List α) (a : Nat) :
    (Tab.listed d a l).Pairwise (fun x y => x.1 < y.1) := by
  induction l generalizing a with
  | nil => simp [Tab.listed]
  | cons v l ih =>
    simp only [Tab.listed]
    split
    · exact ih _
    · refine List.pairwise_cons.2 ⟨fun e he => ?_, ih _⟩
      have := (Tab.mem_listed he).1
      simp only; omega

theorem Tab.le_of_mem_dropWhile {t : Tab α} {n : Nat} {e : Nat × α} (w : t.Pairwise (fun a b => a.1 < b.1))
    (h : e ∈ t.dropWhile (fun x => decide (x.1 < n))) : n ≤ e.1 := by
  induction t with
  | nil => simp at h
  | cons x t ih =>
    rw [List.pairwise_cons] at w
    rw [List.dropWhile_cons] at h
    split at h
    · exact ih w.2 h
    · next hx =>
      simp only [decide_eq_true_eq, Nat.not_lt] at hx
      rcases List.mem_cons.1 h with rfl | h
      · exact hx
      · exact le_trans hx (le_of_lt (w.1 e h))

theorem Tab.lt_of_mem_takeWhile {t : Tab α} {n : Nat} {e : Nat × α}
    (h : e ∈ t.takeWhile (fun x => decide (x.1 < n))) : e.1 < n := by
  have := List.mem_takeWhile_imp h; simpa using this

theorem Tab.wf_put [DecidableEq α] {d : Nat → α} {t : Tab α} (a : Nat) (l : List α) (w : Tab.wf d t = true) :
    Tab.wf d (Tab.put d t a l) = true := by
  rw [Tab.wf_iff] at w ⊢
  unfold Tab.put
  refine ⟨?_, fun e he => ?_⟩
  · rw [List.pairwise_append, List.pairwise_append]
    refine ⟨⟨w.1.sublist (List.takeWhile_sublist _), Tab.listed_pairwise d l a, fun x hx y hy => ?_⟩,
      w.1.sublist (List.dropWhile_sublist _), fun x hx y hy => ?_⟩
    · have := Tab.lt_of_mem_takeWhile hx; have := (Tab.mem_listed hy).1; omega
    · have hy' := Tab.le_of_mem_dropWhile w.1 hy
      rcases List.mem_append.1 hx with hx | hx
      · have := Tab.lt_of_mem_takeWhile hx; omega
      · have := (Tab.mem_listed hx).2.1; omega
  · simp only [List.mem_append] at he
    rcases he with (he | he) | he
    · exact w.2 e ((List.takeWhile_sublist _).subset he)
    · exact (Tab.mem_listed he).2.2
    · exact w.2 e ((List.dropWhile_sublist _).subset he)

/-! ## Ranges -/

theorem Tab.fill_length (d : Nat → α) (n a : Nat) (t : Tab α) : (Tab.fill d n a t).length = n := by
  induction n generalizing a t with
  | zero => simp [Tab.fill]
  | succ n ih =>
    cases t with
    | nil => simp [Tab.fill, ih]
    | cons e t => obtain ⟨j, v⟩ := e; simp only [Tab.fill]; split <;> simp [ih]

@[simp] theorem Tab.slice_length (d : Nat → α) (t : Tab α) (a n : Nat) : (Tab.slice d t a n).length = n :=
  Tab.fill_length d n a _

end Sys2Proof.Machine
end

