-- ==== Sys2Proof/Laws/State.lean ====
section
/-! SUPPORT. Sys2Proof/Laws/State.lean: what each update of State changes and what it leaves: one lemma per field and
update; what an accessor reads after an update. -/
namespace Sys2Proof.Machine
open Sys2Proof

/-! ## What an accessor reads after its update -/

theorem State.reg_setReg (s : State) (b o b' o' : Nat) (v : Word) :
    (s.setReg b o v).reg b' o' = if regKey b' o' = regKey b o then v else s.reg b' o' := by
  simp [State.reg, State.setReg, Tab.get_set]
@[simp] theorem State.reg_setReg_self (s : State) (b o : Nat) (v : Word) : (s.setReg b o v).reg b o = v := by
  simp [State.reg_setReg]
theorem State.reg_setReg_ne (s : State) {b o b' o' : Nat} (v : Word) (h : regKey b' o' ≠ regKey b o) :
    (s.setReg b o v).reg b' o' = s.reg b' o' := by simp [State.reg_setReg, h]

theorem State.evc_bumpBy (s : State) (b j b' j' k : Nat) :
    (s.bumpBy b j k).evc b' j' = if evKey b' j' = evKey b j then s.evc b j + BitVec.ofNat 16 k else s.evc b' j' := by
  simp [State.evc, State.bumpBy, Tab.get_set]
@[simp] theorem State.evc_bump_self (s : State) (b j : Nat) : (s.bump b j).evc b j = s.evc b j + 1 := by
  simp [State.bump, State.evc_bumpBy]
@[simp] theorem State.ackOf_bump (s : State) (b j b' j' : Nat) : (s.bump b j).ackOf b' j' = s.ackOf b' j' := rfl
@[simp] theorem State.reg_bump (s : State) (b j b' o : Nat) : (s.bump b j).reg b' o = s.reg b' o := rfl
@[simp] theorem State.reg_bumpBy (s : State) (b j k b' o : Nat) : (s.bumpBy b j k).reg b' o = s.reg b' o := rfl
@[simp] theorem State.evc_setReg (s : State) (b o b' j : Nat) (v : Word) : (s.setReg b o v).evc b' j = s.evc b' j := rfl
@[simp] theorem State.ackOf_setReg (s : State) (b o b' j : Nat) (v : Word) : (s.setReg b o v).ackOf b' j = s.ackOf b' j := rfl

@[simp] theorem State.mb_setMb_self (s : State) (m : Nat) (x : Mailbox) : (s.setMb m x).mb m = x := by
  simp [State.mb, State.setMb]
theorem State.mb_setMb_ne (s : State) {m k : Nat} (x : Mailbox) (h : k ≠ m) : (s.setMb m x).mb k = s.mb k := by
  simp [State.mb, State.setMb, Tab.get_set, h]
@[simp] theorem State.fbc_setFbc_self (s : State) (k : Nat) (x : Fbc) : (s.setFbc k x).fbc k = x := by
  simp [State.fbc, State.setFbc]
theorem State.fbc_setFbc_ne (s : State) {k j : Nat} (x : Fbc) (h : j ≠ k) : (s.setFbc k x).fbc j = s.fbc j := by
  simp [State.fbc, State.setFbc, Tab.get_set, h]
@[simp] theorem State.domain_setDomain_self (s : State) (d : Nat) (x : Domain) : (s.setDomain d x).domain d = x := by
  simp [State.domain, State.setDomain]
theorem State.domain_setDomain_ne (s : State) {d e : Nat} (x : Domain) (h : e ≠ d) : (s.setDomain d x).domain e = s.domain e := by
  simp [State.domain, State.setDomain, Tab.get_set, h]
@[simp] theorem State.sector_setSector_self (s : State) (i : Nat) (x : Sector) : (s.setSector i x).sector i = x := by
  simp [State.sector, State.setSector]
@[simp] theorem State.matcher_setMatcher_self (s : State) (i : Nat) (x : Matcher) : (s.setMatcher i x).matcher i = x := by
  simp [State.matcher, State.setMatcher]
@[simp] theorem State.chkAt_setChk_self (s : State) (a : Nat) (c : Byte) : (s.setChk a c).chkAt a = c := by
  simp [State.chkAt, State.setChk]
@[simp] theorem State.mbyte_setChk (s : State) (a b : Nat) (c : Byte) : (s.setChk a c).mbyte b = s.mbyte b := rfl

theorem tget_tset (t : Tab Bool) (k j : Nat) (v : Bool) : tget (tset t k v) j = if j = k then v else tget t j := by
  simp [tget, tset, Tab.get_set]
theorem nget_nset (t : Tab Nat) (k v j : Nat) : nget (nset t k v) j = if j = k then v else nget t j := by
  simp [nget, nset, Tab.get_set]

/-- A mailbox whose command has been answered holds the response. -/
@[simp] theorem State.mb_reply_self (s : State) (m : Nat) (r : Resp) :
    (s.reply m r).mb m = { s.mb m with out := some r, ready := false, waiting := false, committed := true } := by
  simp [State.reply]

/-- Register keys of frames are apart: one block and offset to each key. -/
theorem regKey_inj {b o b' o' : Nat} (h : o < 0x10000) (h' : o' < 0x10000) :
    regKey b o = regKey b' o' ↔ b = b' ∧ o = o' := by
  unfold regKey; omega

/-! ## The fields an update leaves -/

@[simp] theorem State.setReg_pending (s : State) (b : Blk) (o : Nat) (v : Word) : (s.setReg b o v).pending = s.pending := rfl
@[simp] theorem State.setReg_free (s : State) (b : Blk) (o : Nat) (v : Word) : (s.setReg b o v).free = s.free := rfl
@[simp] theorem State.setReg_bus (s : State) (b : Blk) (o : Nat) (v : Word) : (s.setReg b o v).bus = s.bus := rfl
@[simp] theorem State.setReg_aon (s : State) (b : Blk) (o : Nat) (v : Word) : (s.setReg b o v).aon = s.aon := rfl
@[simp] theorem State.setReg_baro (s : State) (b : Blk) (o : Nat) (v : Word) : (s.setReg b o v).baro = s.baro := rfl
@[simp] theorem State.setReg_clk (s : State) (b : Blk) (o : Nat) (v : Word) : (s.setReg b o v).clk = s.clk := rfl
@[simp] theorem State.setReg_rst (s : State) (b : Blk) (o : Nat) (v : Word) : (s.setReg b o v).rst = s.rst := rfl
@[simp] theorem State.setReg_fmn (s : State) (b : Blk) (o : Nat) (v : Word) : (s.setReg b o v).fmn = s.fmn := rfl
@[simp] theorem State.setReg_qch (s : State) (b : Blk) (o : Nat) (v : Word) : (s.setReg b o v).qch = s.qch := rfl
@[simp] theorem State.setReg_fbcs (s : State) (b : Blk) (o : Nat) (v : Word) : (s.setReg b o v).fbcs = s.fbcs := rfl
@[simp] theorem State.setReg_queues (s : State) (b : Blk) (o : Nat) (v : Word) : (s.setReg b o v).queues = s.queues := rfl
@[simp] theorem State.setReg_mem (s : State) (b : Blk) (o : Nat) (v : Word) : (s.setReg b o v).mem = s.mem := rfl
@[simp] theorem State.setReg_ing (s : State) (b : Blk) (o : Nat) (v : Word) : (s.setReg b o v).ing = s.ing := rfl
@[simp] theorem State.setReg_eng (s : State) (b : Blk) (o : Nat) (v : Word) : (s.setReg b o v).eng = s.eng := rfl
@[simp] theorem State.setReg_pat (s : State) (b : Blk) (o : Nat) (v : Word) : (s.setReg b o v).pat = s.pat := rfl
@[simp] theorem State.setReg_sch (s : State) (b : Blk) (o : Nat) (v : Word) : (s.setReg b o v).sch = s.sch := rfl
@[simp] theorem State.setReg_flx (s : State) (b : Blk) (o : Nat) (v : Word) : (s.setReg b o v).flx = s.flx := rfl
@[simp] theorem State.setReg_spr (s : State) (b : Blk) (o : Nat) (v : Word) : (s.setReg b o v).spr = s.spr := rfl
@[simp] theorem State.setReg_ckpt (s : State) (b : Blk) (o : Nat) (v : Word) : (s.setReg b o v).ckpt = s.ckpt := rfl
@[simp] theorem State.setReg_fsu (s : State) (b : Blk) (o : Nat) (v : Word) : (s.setReg b o v).fsu = s.fsu := rfl
@[simp] theorem State.setReg_disp (s : State) (b : Blk) (o : Nat) (v : Word) : (s.setReg b o v).disp = s.disp := rfl
@[simp] theorem State.setReg_inp (s : State) (b : Blk) (o : Nat) (v : Word) : (s.setReg b o v).inp = s.inp := rfl
@[simp] theorem State.setReg_sec (s : State) (b : Blk) (o : Nat) (v : Word) : (s.setReg b o v).sec = s.sec := rfl
@[simp] theorem State.setReg_jtag (s : State) (b : Blk) (o : Nat) (v : Word) : (s.setReg b o v).jtag = s.jtag := rfl
@[simp] theorem State.setReg_pins (s : State) (b : Blk) (o : Nat) (v : Word) : (s.setReg b o v).pins = s.pins := rfl
@[simp] theorem State.setPair_pending (s : State) (b : Blk) (o v : Nat) : (s.setPair b o v).pending = s.pending := rfl
@[simp] theorem State.setPair_free (s : State) (b : Blk) (o v : Nat) : (s.setPair b o v).free = s.free := rfl
@[simp] theorem State.setPair_bus (s : State) (b : Blk) (o v : Nat) : (s.setPair b o v).bus = s.bus := rfl
@[simp] theorem State.setPair_aon (s : State) (b : Blk) (o v : Nat) : (s.setPair b o v).aon = s.aon := rfl
@[simp] theorem State.setPair_baro (s : State) (b : Blk) (o v : Nat) : (s.setPair b o v).baro = s.baro := rfl
@[simp] theorem State.setPair_clk (s : State) (b : Blk) (o v : Nat) : (s.setPair b o v).clk = s.clk := rfl
@[simp] theorem State.setPair_rst (s : State) (b : Blk) (o v : Nat) : (s.setPair b o v).rst = s.rst := rfl
@[simp] theorem State.setPair_fmn (s : State) (b : Blk) (o v : Nat) : (s.setPair b o v).fmn = s.fmn := rfl
@[simp] theorem State.setPair_qch (s : State) (b : Blk) (o v : Nat) : (s.setPair b o v).qch = s.qch := rfl
@[simp] theorem State.setPair_fbcs (s : State) (b : Blk) (o v : Nat) : (s.setPair b o v).fbcs = s.fbcs := rfl
@[simp] theorem State.setPair_queues (s : State) (b : Blk) (o v : Nat) : (s.setPair b o v).queues = s.queues := rfl
@[simp] theorem State.setPair_mem (s : State) (b : Blk) (o v : Nat) : (s.setPair b o v).mem = s.mem := rfl
@[simp] theorem State.setPair_ing (s : State) (b : Blk) (o v : Nat) : (s.setPair b o v).ing = s.ing := rfl
@[simp] theorem State.setPair_eng (s : State) (b : Blk) (o v : Nat) : (s.setPair b o v).eng = s.eng := rfl
@[simp] theorem State.setPair_pat (s : State) (b : Blk) (o v : Nat) : (s.setPair b o v).pat = s.pat := rfl
@[simp] theorem State.setPair_sch (s : State) (b : Blk) (o v : Nat) : (s.setPair b o v).sch = s.sch := rfl
@[simp] theorem State.setPair_flx (s : State) (b : Blk) (o v : Nat) : (s.setPair b o v).flx = s.flx := rfl
@[simp] theorem State.setPair_spr (s : State) (b : Blk) (o v : Nat) : (s.setPair b o v).spr = s.spr := rfl
@[simp] theorem State.setPair_ckpt (s : State) (b : Blk) (o v : Nat) : (s.setPair b o v).ckpt = s.ckpt := rfl
@[simp] theorem State.setPair_fsu (s : State) (b : Blk) (o v : Nat) : (s.setPair b o v).fsu = s.fsu := rfl
@[simp] theorem State.setPair_disp (s : State) (b : Blk) (o v : Nat) : (s.setPair b o v).disp = s.disp := rfl
@[simp] theorem State.setPair_inp (s : State) (b : Blk) (o v : Nat) : (s.setPair b o v).inp = s.inp := rfl
@[simp] theorem State.setPair_sec (s : State) (b : Blk) (o v : Nat) : (s.setPair b o v).sec = s.sec := rfl
@[simp] theorem State.setPair_jtag (s : State) (b : Blk) (o v : Nat) : (s.setPair b o v).jtag = s.jtag := rfl
@[simp] theorem State.setPair_pins (s : State) (b : Blk) (o v : Nat) : (s.setPair b o v).pins = s.pins := rfl
@[simp] theorem State.setFld_pending (s : State) (b : Blk) (o l n v : Nat) : (s.setFld b o l n v).pending = s.pending := rfl
@[simp] theorem State.setFld_free (s : State) (b : Blk) (o l n v : Nat) : (s.setFld b o l n v).free = s.free := rfl
@[simp] theorem State.setFld_bus (s : State) (b : Blk) (o l n v : Nat) : (s.setFld b o l n v).bus = s.bus := rfl
@[simp] theorem State.setFld_aon (s : State) (b : Blk) (o l n v : Nat) : (s.setFld b o l n v).aon = s.aon := rfl
@[simp] theorem State.setFld_baro (s : State) (b : Blk) (o l n v : Nat) : (s.setFld b o l n v).baro = s.baro := rfl
@[simp] theorem State.setFld_clk (s : State) (b : Blk) (o l n v : Nat) : (s.setFld b o l n v).clk = s.clk := rfl
@[simp] theorem State.setFld_rst (s : State) (b : Blk) (o l n v : Nat) : (s.setFld b o l n v).rst = s.rst := rfl
@[simp] theorem State.setFld_fmn (s : State) (b : Blk) (o l n v : Nat) : (s.setFld b o l n v).fmn = s.fmn := rfl
@[simp] theorem State.setFld_qch (s : State) (b : Blk) (o l n v : Nat) : (s.setFld b o l n v).qch = s.qch := rfl
@[simp] theorem State.setFld_fbcs (s : State) (b : Blk) (o l n v : Nat) : (s.setFld b o l n v).fbcs = s.fbcs := rfl
@[simp] theorem State.setFld_queues (s : State) (b : Blk) (o l n v : Nat) : (s.setFld b o l n v).queues = s.queues := rfl
@[simp] theorem State.setFld_mem (s : State) (b : Blk) (o l n v : Nat) : (s.setFld b o l n v).mem = s.mem := rfl
@[simp] theorem State.setFld_ing (s : State) (b : Blk) (o l n v : Nat) : (s.setFld b o l n v).ing = s.ing := rfl
@[simp] theorem State.setFld_eng (s : State) (b : Blk) (o l n v : Nat) : (s.setFld b o l n v).eng = s.eng := rfl
@[simp] theorem State.setFld_pat (s : State) (b : Blk) (o l n v : Nat) : (s.setFld b o l n v).pat = s.pat := rfl
@[simp] theorem State.setFld_sch (s : State) (b : Blk) (o l n v : Nat) : (s.setFld b o l n v).sch = s.sch := rfl
@[simp] theorem State.setFld_flx (s : State) (b : Blk) (o l n v : Nat) : (s.setFld b o l n v).flx = s.flx := rfl
@[simp] theorem State.setFld_spr (s : State) (b : Blk) (o l n v : Nat) : (s.setFld b o l n v).spr = s.spr := rfl
@[simp] theorem State.setFld_ckpt (s : State) (b : Blk) (o l n v : Nat) : (s.setFld b o l n v).ckpt = s.ckpt := rfl
@[simp] theorem State.setFld_fsu (s : State) (b : Blk) (o l n v : Nat) : (s.setFld b o l n v).fsu = s.fsu := rfl
@[simp] theorem State.setFld_disp (s : State) (b : Blk) (o l n v : Nat) : (s.setFld b o l n v).disp = s.disp := rfl
@[simp] theorem State.setFld_inp (s : State) (b : Blk) (o l n v : Nat) : (s.setFld b o l n v).inp = s.inp := rfl
@[simp] theorem State.setFld_sec (s : State) (b : Blk) (o l n v : Nat) : (s.setFld b o l n v).sec = s.sec := rfl
@[simp] theorem State.setFld_jtag (s : State) (b : Blk) (o l n v : Nat) : (s.setFld b o l n v).jtag = s.jtag := rfl
@[simp] theorem State.setFld_pins (s : State) (b : Blk) (o l n v : Nat) : (s.setFld b o l n v).pins = s.pins := rfl
@[simp] theorem State.bumpBy_pending (s : State) (b : Blk) (j k : Nat) : (s.bumpBy b j k).pending = s.pending := rfl
@[simp] theorem State.bumpBy_free (s : State) (b : Blk) (j k : Nat) : (s.bumpBy b j k).free = s.free := rfl
@[simp] theorem State.bumpBy_bus (s : State) (b : Blk) (j k : Nat) : (s.bumpBy b j k).bus = s.bus := rfl
@[simp] theorem State.bumpBy_aon (s : State) (b : Blk) (j k : Nat) : (s.bumpBy b j k).aon = s.aon := rfl
@[simp] theorem State.bumpBy_baro (s : State) (b : Blk) (j k : Nat) : (s.bumpBy b j k).baro = s.baro := rfl
@[simp] theorem State.bumpBy_clk (s : State) (b : Blk) (j k : Nat) : (s.bumpBy b j k).clk = s.clk := rfl
@[simp] theorem State.bumpBy_rst (s : State) (b : Blk) (j k : Nat) : (s.bumpBy b j k).rst = s.rst := rfl
@[simp] theorem State.bumpBy_fmn (s : State) (b : Blk) (j k : Nat) : (s.bumpBy b j k).fmn = s.fmn := rfl
@[simp] theorem State.bumpBy_qch (s : State) (b : Blk) (j k : Nat) : (s.bumpBy b j k).qch = s.qch := rfl
@[simp] theorem State.bumpBy_fbcs (s : State) (b : Blk) (j k : Nat) : (s.bumpBy b j k).fbcs = s.fbcs := rfl
@[simp] theorem State.bumpBy_queues (s : State) (b : Blk) (j k : Nat) : (s.bumpBy b j k).queues = s.queues := rfl
@[simp] theorem State.bumpBy_mem (s : State) (b : Blk) (j k : Nat) : (s.bumpBy b j k).mem = s.mem := rfl
@[simp] theorem State.bumpBy_ing (s : State) (b : Blk) (j k : Nat) : (s.bumpBy b j k).ing = s.ing := rfl
@[simp] theorem State.bumpBy_eng (s : State) (b : Blk) (j k : Nat) : (s.bumpBy b j k).eng = s.eng := rfl
@[simp] theorem State.bumpBy_pat (s : State) (b : Blk) (j k : Nat) : (s.bumpBy b j k).pat = s.pat := rfl
@[simp] theorem State.bumpBy_sch (s : State) (b : Blk) (j k : Nat) : (s.bumpBy b j k).sch = s.sch := rfl
@[simp] theorem State.bumpBy_flx (s : State) (b : Blk) (j k : Nat) : (s.bumpBy b j k).flx = s.flx := rfl
@[simp] theorem State.bumpBy_spr (s : State) (b : Blk) (j k : Nat) : (s.bumpBy b j k).spr = s.spr := rfl
@[simp] theorem State.bumpBy_ckpt (s : State) (b : Blk) (j k : Nat) : (s.bumpBy b j k).ckpt = s.ckpt := rfl
@[simp] theorem State.bumpBy_fsu (s : State) (b : Blk) (j k : Nat) : (s.bumpBy b j k).fsu = s.fsu := rfl
@[simp] theorem State.bumpBy_disp (s : State) (b : Blk) (j k : Nat) : (s.bumpBy b j k).disp = s.disp := rfl
@[simp] theorem State.bumpBy_inp (s : State) (b : Blk) (j k : Nat) : (s.bumpBy b j k).inp = s.inp := rfl
@[simp] theorem State.bumpBy_sec (s : State) (b : Blk) (j k : Nat) : (s.bumpBy b j k).sec = s.sec := rfl
@[simp] theorem State.bumpBy_jtag (s : State) (b : Blk) (j k : Nat) : (s.bumpBy b j k).jtag = s.jtag := rfl
@[simp] theorem State.bumpBy_pins (s : State) (b : Blk) (j k : Nat) : (s.bumpBy b j k).pins = s.pins := rfl
@[simp] theorem State.bump_pending (s : State) (b : Blk) (j : Nat) : (s.bump b j).pending = s.pending := rfl
@[simp] theorem State.bump_free (s : State) (b : Blk) (j : Nat) : (s.bump b j).free = s.free := rfl
@[simp] theorem State.bump_bus (s : State) (b : Blk) (j : Nat) : (s.bump b j).bus = s.bus := rfl
@[simp] theorem State.bump_aon (s : State) (b : Blk) (j : Nat) : (s.bump b j).aon = s.aon := rfl
@[simp] theorem State.bump_baro (s : State) (b : Blk) (j : Nat) : (s.bump b j).baro = s.baro := rfl
@[simp] theorem State.bump_clk (s : State) (b : Blk) (j : Nat) : (s.bump b j).clk = s.clk := rfl
@[simp] theorem State.bump_rst (s : State) (b : Blk) (j : Nat) : (s.bump b j).rst = s.rst := rfl
@[simp] theorem State.bump_fmn (s : State) (b : Blk) (j : Nat) : (s.bump b j).fmn = s.fmn := rfl
@[simp] theorem State.bump_qch (s : State) (b : Blk) (j : Nat) : (s.bump b j).qch = s.qch := rfl
@[simp] theorem State.bump_fbcs (s : State) (b : Blk) (j : Nat) : (s.bump b j).fbcs = s.fbcs := rfl
@[simp] theorem State.bump_queues (s : State) (b : Blk) (j : Nat) : (s.bump b j).queues = s.queues := rfl
@[simp] theorem State.bump_mem (s : State) (b : Blk) (j : Nat) : (s.bump b j).mem = s.mem := rfl
@[simp] theorem State.bump_ing (s : State) (b : Blk) (j : Nat) : (s.bump b j).ing = s.ing := rfl
@[simp] theorem State.bump_eng (s : State) (b : Blk) (j : Nat) : (s.bump b j).eng = s.eng := rfl
@[simp] theorem State.bump_pat (s : State) (b : Blk) (j : Nat) : (s.bump b j).pat = s.pat := rfl
@[simp] theorem State.bump_sch (s : State) (b : Blk) (j : Nat) : (s.bump b j).sch = s.sch := rfl
@[simp] theorem State.bump_flx (s : State) (b : Blk) (j : Nat) : (s.bump b j).flx = s.flx := rfl
@[simp] theorem State.bump_spr (s : State) (b : Blk) (j : Nat) : (s.bump b j).spr = s.spr := rfl
@[simp] theorem State.bump_ckpt (s : State) (b : Blk) (j : Nat) : (s.bump b j).ckpt = s.ckpt := rfl
@[simp] theorem State.bump_fsu (s : State) (b : Blk) (j : Nat) : (s.bump b j).fsu = s.fsu := rfl
@[simp] theorem State.bump_disp (s : State) (b : Blk) (j : Nat) : (s.bump b j).disp = s.disp := rfl
@[simp] theorem State.bump_inp (s : State) (b : Blk) (j : Nat) : (s.bump b j).inp = s.inp := rfl
@[simp] theorem State.bump_sec (s : State) (b : Blk) (j : Nat) : (s.bump b j).sec = s.sec := rfl
@[simp] theorem State.bump_jtag (s : State) (b : Blk) (j : Nat) : (s.bump b j).jtag = s.jtag := rfl
@[simp] theorem State.bump_pins (s : State) (b : Blk) (j : Nat) : (s.bump b j).pins = s.pins := rfl
@[simp] theorem State.setAck_pending (s : State) (b : Blk) (j : Nat) (v : Count16) : (s.setAck b j v).pending = s.pending := rfl
@[simp] theorem State.setAck_free (s : State) (b : Blk) (j : Nat) (v : Count16) : (s.setAck b j v).free = s.free := rfl
@[simp] theorem State.setAck_bus (s : State) (b : Blk) (j : Nat) (v : Count16) : (s.setAck b j v).bus = s.bus := rfl
@[simp] theorem State.setAck_aon (s : State) (b : Blk) (j : Nat) (v : Count16) : (s.setAck b j v).aon = s.aon := rfl
@[simp] theorem State.setAck_baro (s : State) (b : Blk) (j : Nat) (v : Count16) : (s.setAck b j v).baro = s.baro := rfl
@[simp] theorem State.setAck_clk (s : State) (b : Blk) (j : Nat) (v : Count16) : (s.setAck b j v).clk = s.clk := rfl
@[simp] theorem State.setAck_rst (s : State) (b : Blk) (j : Nat) (v : Count16) : (s.setAck b j v).rst = s.rst := rfl
@[simp] theorem State.setAck_fmn (s : State) (b : Blk) (j : Nat) (v : Count16) : (s.setAck b j v).fmn = s.fmn := rfl
@[simp] theorem State.setAck_qch (s : State) (b : Blk) (j : Nat) (v : Count16) : (s.setAck b j v).qch = s.qch := rfl
@[simp] theorem State.setAck_fbcs (s : State) (b : Blk) (j : Nat) (v : Count16) : (s.setAck b j v).fbcs = s.fbcs := rfl
@[simp] theorem State.setAck_queues (s : State) (b : Blk) (j : Nat) (v : Count16) : (s.setAck b j v).queues = s.queues := rfl
@[simp] theorem State.setAck_mem (s : State) (b : Blk) (j : Nat) (v : Count16) : (s.setAck b j v).mem = s.mem := rfl
@[simp] theorem State.setAck_ing (s : State) (b : Blk) (j : Nat) (v : Count16) : (s.setAck b j v).ing = s.ing := rfl
@[simp] theorem State.setAck_eng (s : State) (b : Blk) (j : Nat) (v : Count16) : (s.setAck b j v).eng = s.eng := rfl
@[simp] theorem State.setAck_pat (s : State) (b : Blk) (j : Nat) (v : Count16) : (s.setAck b j v).pat = s.pat := rfl
@[simp] theorem State.setAck_sch (s : State) (b : Blk) (j : Nat) (v : Count16) : (s.setAck b j v).sch = s.sch := rfl
@[simp] theorem State.setAck_flx (s : State) (b : Blk) (j : Nat) (v : Count16) : (s.setAck b j v).flx = s.flx := rfl
@[simp] theorem State.setAck_spr (s : State) (b : Blk) (j : Nat) (v : Count16) : (s.setAck b j v).spr = s.spr := rfl
@[simp] theorem State.setAck_ckpt (s : State) (b : Blk) (j : Nat) (v : Count16) : (s.setAck b j v).ckpt = s.ckpt := rfl
@[simp] theorem State.setAck_fsu (s : State) (b : Blk) (j : Nat) (v : Count16) : (s.setAck b j v).fsu = s.fsu := rfl
@[simp] theorem State.setAck_disp (s : State) (b : Blk) (j : Nat) (v : Count16) : (s.setAck b j v).disp = s.disp := rfl
@[simp] theorem State.setAck_inp (s : State) (b : Blk) (j : Nat) (v : Count16) : (s.setAck b j v).inp = s.inp := rfl
@[simp] theorem State.setAck_sec (s : State) (b : Blk) (j : Nat) (v : Count16) : (s.setAck b j v).sec = s.sec := rfl
@[simp] theorem State.setAck_jtag (s : State) (b : Blk) (j : Nat) (v : Count16) : (s.setAck b j v).jtag = s.jtag := rfl
@[simp] theorem State.setAck_pins (s : State) (b : Blk) (j : Nat) (v : Count16) : (s.setAck b j v).pins = s.pins := rfl
@[simp] theorem State.setFbc_pending (s : State) (k : Nat) (x : Fbc) : (s.setFbc k x).pending = s.pending := rfl
@[simp] theorem State.setFbc_free (s : State) (k : Nat) (x : Fbc) : (s.setFbc k x).free = s.free := rfl
@[simp] theorem State.setFbc_rf (s : State) (k : Nat) (x : Fbc) : (s.setFbc k x).rf = s.rf := rfl
@[simp] theorem State.setFbc_bus (s : State) (k : Nat) (x : Fbc) : (s.setFbc k x).bus = s.bus := rfl
@[simp] theorem State.setFbc_aon (s : State) (k : Nat) (x : Fbc) : (s.setFbc k x).aon = s.aon := rfl
@[simp] theorem State.setFbc_baro (s : State) (k : Nat) (x : Fbc) : (s.setFbc k x).baro = s.baro := rfl
@[simp] theorem State.setFbc_clk (s : State) (k : Nat) (x : Fbc) : (s.setFbc k x).clk = s.clk := rfl
@[simp] theorem State.setFbc_rst (s : State) (k : Nat) (x : Fbc) : (s.setFbc k x).rst = s.rst := rfl
@[simp] theorem State.setFbc_fmn (s : State) (k : Nat) (x : Fbc) : (s.setFbc k x).fmn = s.fmn := rfl
@[simp] theorem State.setFbc_qch (s : State) (k : Nat) (x : Fbc) : (s.setFbc k x).qch = s.qch := rfl
@[simp] theorem State.setFbc_queues (s : State) (k : Nat) (x : Fbc) : (s.setFbc k x).queues = s.queues := rfl
@[simp] theorem State.setFbc_mem (s : State) (k : Nat) (x : Fbc) : (s.setFbc k x).mem = s.mem := rfl
@[simp] theorem State.setFbc_ing (s : State) (k : Nat) (x : Fbc) : (s.setFbc k x).ing = s.ing := rfl
@[simp] theorem State.setFbc_eng (s : State) (k : Nat) (x : Fbc) : (s.setFbc k x).eng = s.eng := rfl
@[simp] theorem State.setFbc_pat (s : State) (k : Nat) (x : Fbc) : (s.setFbc k x).pat = s.pat := rfl
@[simp] theorem State.setFbc_sch (s : State) (k : Nat) (x : Fbc) : (s.setFbc k x).sch = s.sch := rfl
@[simp] theorem State.setFbc_flx (s : State) (k : Nat) (x : Fbc) : (s.setFbc k x).flx = s.flx := rfl
@[simp] theorem State.setFbc_spr (s : State) (k : Nat) (x : Fbc) : (s.setFbc k x).spr = s.spr := rfl
@[simp] theorem State.setFbc_ckpt (s : State) (k : Nat) (x : Fbc) : (s.setFbc k x).ckpt = s.ckpt := rfl
@[simp] theorem State.setFbc_fsu (s : State) (k : Nat) (x : Fbc) : (s.setFbc k x).fsu = s.fsu := rfl
@[simp] theorem State.setFbc_disp (s : State) (k : Nat) (x : Fbc) : (s.setFbc k x).disp = s.disp := rfl
@[simp] theorem State.setFbc_inp (s : State) (k : Nat) (x : Fbc) : (s.setFbc k x).inp = s.inp := rfl
@[simp] theorem State.setFbc_sec (s : State) (k : Nat) (x : Fbc) : (s.setFbc k x).sec = s.sec := rfl
@[simp] theorem State.setFbc_jtag (s : State) (k : Nat) (x : Fbc) : (s.setFbc k x).jtag = s.jtag := rfl
@[simp] theorem State.setFbc_pins (s : State) (k : Nat) (x : Fbc) : (s.setFbc k x).pins = s.pins := rfl
@[simp] theorem State.setMb_pending (s : State) (m : Nat) (x : Mailbox) : (s.setMb m x).pending = s.pending := rfl
@[simp] theorem State.setMb_free (s : State) (m : Nat) (x : Mailbox) : (s.setMb m x).free = s.free := rfl
@[simp] theorem State.setMb_rf (s : State) (m : Nat) (x : Mailbox) : (s.setMb m x).rf = s.rf := rfl
@[simp] theorem State.setMb_bus (s : State) (m : Nat) (x : Mailbox) : (s.setMb m x).bus = s.bus := rfl
@[simp] theorem State.setMb_aon (s : State) (m : Nat) (x : Mailbox) : (s.setMb m x).aon = s.aon := rfl
@[simp] theorem State.setMb_baro (s : State) (m : Nat) (x : Mailbox) : (s.setMb m x).baro = s.baro := rfl
@[simp] theorem State.setMb_clk (s : State) (m : Nat) (x : Mailbox) : (s.setMb m x).clk = s.clk := rfl
@[simp] theorem State.setMb_rst (s : State) (m : Nat) (x : Mailbox) : (s.setMb m x).rst = s.rst := rfl
@[simp] theorem State.setMb_qch (s : State) (m : Nat) (x : Mailbox) : (s.setMb m x).qch = s.qch := rfl
@[simp] theorem State.setMb_fbcs (s : State) (m : Nat) (x : Mailbox) : (s.setMb m x).fbcs = s.fbcs := rfl
@[simp] theorem State.setMb_queues (s : State) (m : Nat) (x : Mailbox) : (s.setMb m x).queues = s.queues := rfl
@[simp] theorem State.setMb_mem (s : State) (m : Nat) (x : Mailbox) : (s.setMb m x).mem = s.mem := rfl
@[simp] theorem State.setMb_ing (s : State) (m : Nat) (x : Mailbox) : (s.setMb m x).ing = s.ing := rfl
@[simp] theorem State.setMb_eng (s : State) (m : Nat) (x : Mailbox) : (s.setMb m x).eng = s.eng := rfl
@[simp] theorem State.setMb_pat (s : State) (m : Nat) (x : Mailbox) : (s.setMb m x).pat = s.pat := rfl
@[simp] theorem State.setMb_sch (s : State) (m : Nat) (x : Mailbox) : (s.setMb m x).sch = s.sch := rfl
@[simp] theorem State.setMb_flx (s : State) (m : Nat) (x : Mailbox) : (s.setMb m x).flx = s.flx := rfl
@[simp] theorem State.setMb_spr (s : State) (m : Nat) (x : Mailbox) : (s.setMb m x).spr = s.spr := rfl
@[simp] theorem State.setMb_ckpt (s : State) (m : Nat) (x : Mailbox) : (s.setMb m x).ckpt = s.ckpt := rfl
@[simp] theorem State.setMb_fsu (s : State) (m : Nat) (x : Mailbox) : (s.setMb m x).fsu = s.fsu := rfl
@[simp] theorem State.setMb_disp (s : State) (m : Nat) (x : Mailbox) : (s.setMb m x).disp = s.disp := rfl
@[simp] theorem State.setMb_inp (s : State) (m : Nat) (x : Mailbox) : (s.setMb m x).inp = s.inp := rfl
@[simp] theorem State.setMb_sec (s : State) (m : Nat) (x : Mailbox) : (s.setMb m x).sec = s.sec := rfl
@[simp] theorem State.setMb_jtag (s : State) (m : Nat) (x : Mailbox) : (s.setMb m x).jtag = s.jtag := rfl
@[simp] theorem State.setMb_pins (s : State) (m : Nat) (x : Mailbox) : (s.setMb m x).pins = s.pins := rfl
@[simp] theorem State.setDomain_pending (s : State) (d : Nat) (x : Domain) : (s.setDomain d x).pending = s.pending := rfl
@[simp] theorem State.setDomain_free (s : State) (d : Nat) (x : Domain) : (s.setDomain d x).free = s.free := rfl
@[simp] theorem State.setDomain_rf (s : State) (d : Nat) (x : Domain) : (s.setDomain d x).rf = s.rf := rfl
@[simp] theorem State.setDomain_bus (s : State) (d : Nat) (x : Domain) : (s.setDomain d x).bus = s.bus := rfl
@[simp] theorem State.setDomain_aon (s : State) (d : Nat) (x : Domain) : (s.setDomain d x).aon = s.aon := rfl
@[simp] theorem State.setDomain_baro (s : State) (d : Nat) (x : Domain) : (s.setDomain d x).baro = s.baro := rfl
@[simp] theorem State.setDomain_rst (s : State) (d : Nat) (x : Domain) : (s.setDomain d x).rst = s.rst := rfl
@[simp] theorem State.setDomain_fmn (s : State) (d : Nat) (x : Domain) : (s.setDomain d x).fmn = s.fmn := rfl
@[simp] theorem State.setDomain_qch (s : State) (d : Nat) (x : Domain) : (s.setDomain d x).qch = s.qch := rfl
@[simp] theorem State.setDomain_fbcs (s : State) (d : Nat) (x : Domain) : (s.setDomain d x).fbcs = s.fbcs := rfl
@[simp] theorem State.setDomain_queues (s : State) (d : Nat) (x : Domain) : (s.setDomain d x).queues = s.queues := rfl
@[simp] theorem State.setDomain_mem (s : State) (d : Nat) (x : Domain) : (s.setDomain d x).mem = s.mem := rfl
@[simp] theorem State.setDomain_ing (s : State) (d : Nat) (x : Domain) : (s.setDomain d x).ing = s.ing := rfl
@[simp] theorem State.setDomain_eng (s : State) (d : Nat) (x : Domain) : (s.setDomain d x).eng = s.eng := rfl
@[simp] theorem State.setDomain_pat (s : State) (d : Nat) (x : Domain) : (s.setDomain d x).pat = s.pat := rfl
@[simp] theorem State.setDomain_sch (s : State) (d : Nat) (x : Domain) : (s.setDomain d x).sch = s.sch := rfl
@[simp] theorem State.setDomain_flx (s : State) (d : Nat) (x : Domain) : (s.setDomain d x).flx = s.flx := rfl
@[simp] theorem State.setDomain_spr (s : State) (d : Nat) (x : Domain) : (s.setDomain d x).spr = s.spr := rfl
@[simp] theorem State.setDomain_ckpt (s : State) (d : Nat) (x : Domain) : (s.setDomain d x).ckpt = s.ckpt := rfl
@[simp] theorem State.setDomain_fsu (s : State) (d : Nat) (x : Domain) : (s.setDomain d x).fsu = s.fsu := rfl
@[simp] theorem State.setDomain_disp (s : State) (d : Nat) (x : Domain) : (s.setDomain d x).disp = s.disp := rfl
@[simp] theorem State.setDomain_inp (s : State) (d : Nat) (x : Domain) : (s.setDomain d x).inp = s.inp := rfl
@[simp] theorem State.setDomain_sec (s : State) (d : Nat) (x : Domain) : (s.setDomain d x).sec = s.sec := rfl
@[simp] theorem State.setDomain_jtag (s : State) (d : Nat) (x : Domain) : (s.setDomain d x).jtag = s.jtag := rfl
@[simp] theorem State.setDomain_pins (s : State) (d : Nat) (x : Domain) : (s.setDomain d x).pins = s.pins := rfl
@[simp] theorem State.setSector_pending (s : State) (i : Nat) (x : Sector) : (s.setSector i x).pending = s.pending := rfl
@[simp] theorem State.setSector_free (s : State) (i : Nat) (x : Sector) : (s.setSector i x).free = s.free := rfl
@[simp] theorem State.setSector_rf (s : State) (i : Nat) (x : Sector) : (s.setSector i x).rf = s.rf := rfl
@[simp] theorem State.setSector_bus (s : State) (i : Nat) (x : Sector) : (s.setSector i x).bus = s.bus := rfl
@[simp] theorem State.setSector_aon (s : State) (i : Nat) (x : Sector) : (s.setSector i x).aon = s.aon := rfl
@[simp] theorem State.setSector_baro (s : State) (i : Nat) (x : Sector) : (s.setSector i x).baro = s.baro := rfl
@[simp] theorem State.setSector_clk (s : State) (i : Nat) (x : Sector) : (s.setSector i x).clk = s.clk := rfl
@[simp] theorem State.setSector_rst (s : State) (i : Nat) (x : Sector) : (s.setSector i x).rst = s.rst := rfl
@[simp] theorem State.setSector_fmn (s : State) (i : Nat) (x : Sector) : (s.setSector i x).fmn = s.fmn := rfl
@[simp] theorem State.setSector_fbcs (s : State) (i : Nat) (x : Sector) : (s.setSector i x).fbcs = s.fbcs := rfl
@[simp] theorem State.setSector_queues (s : State) (i : Nat) (x : Sector) : (s.setSector i x).queues = s.queues := rfl
@[simp] theorem State.setSector_mem (s : State) (i : Nat) (x : Sector) : (s.setSector i x).mem = s.mem := rfl
@[simp] theorem State.setSector_ing (s : State) (i : Nat) (x : Sector) : (s.setSector i x).ing = s.ing := rfl
@[simp] theorem State.setSector_eng (s : State) (i : Nat) (x : Sector) : (s.setSector i x).eng = s.eng := rfl
@[simp] theorem State.setSector_pat (s : State) (i : Nat) (x : Sector) : (s.setSector i x).pat = s.pat := rfl
@[simp] theorem State.setSector_sch (s : State) (i : Nat) (x : Sector) : (s.setSector i x).sch = s.sch := rfl
@[simp] theorem State.setSector_flx (s : State) (i : Nat) (x : Sector) : (s.setSector i x).flx = s.flx := rfl
@[simp] theorem State.setSector_spr (s : State) (i : Nat) (x : Sector) : (s.setSector i x).spr = s.spr := rfl
@[simp] theorem State.setSector_ckpt (s : State) (i : Nat) (x : Sector) : (s.setSector i x).ckpt = s.ckpt := rfl
@[simp] theorem State.setSector_fsu (s : State) (i : Nat) (x : Sector) : (s.setSector i x).fsu = s.fsu := rfl
@[simp] theorem State.setSector_disp (s : State) (i : Nat) (x : Sector) : (s.setSector i x).disp = s.disp := rfl
@[simp] theorem State.setSector_inp (s : State) (i : Nat) (x : Sector) : (s.setSector i x).inp = s.inp := rfl
@[simp] theorem State.setSector_sec (s : State) (i : Nat) (x : Sector) : (s.setSector i x).sec = s.sec := rfl
@[simp] theorem State.setSector_jtag (s : State) (i : Nat) (x : Sector) : (s.setSector i x).jtag = s.jtag := rfl
@[simp] theorem State.setSector_pins (s : State) (i : Nat) (x : Sector) : (s.setSector i x).pins = s.pins := rfl
@[simp] theorem State.setMatcher_pending (s : State) (i : Nat) (x : Matcher) : (s.setMatcher i x).pending = s.pending := rfl
@[simp] theorem State.setMatcher_free (s : State) (i : Nat) (x : Matcher) : (s.setMatcher i x).free = s.free := rfl
@[simp] theorem State.setMatcher_rf (s : State) (i : Nat) (x : Matcher) : (s.setMatcher i x).rf = s.rf := rfl
@[simp] theorem State.setMatcher_bus (s : State) (i : Nat) (x : Matcher) : (s.setMatcher i x).bus = s.bus := rfl
@[simp] theorem State.setMatcher_aon (s : State) (i : Nat) (x : Matcher) : (s.setMatcher i x).aon = s.aon := rfl
@[simp] theorem State.setMatcher_baro (s : State) (i : Nat) (x : Matcher) : (s.setMatcher i x).baro = s.baro := rfl
@[simp] theorem State.setMatcher_clk (s : State) (i : Nat) (x : Matcher) : (s.setMatcher i x).clk = s.clk := rfl
@[simp] theorem State.setMatcher_rst (s : State) (i : Nat) (x : Matcher) : (s.setMatcher i x).rst = s.rst := rfl
@[simp] theorem State.setMatcher_fmn (s : State) (i : Nat) (x : Matcher) : (s.setMatcher i x).fmn = s.fmn := rfl
@[simp] theorem State.setMatcher_fbcs (s : State) (i : Nat) (x : Matcher) : (s.setMatcher i x).fbcs = s.fbcs := rfl
@[simp] theorem State.setMatcher_queues (s : State) (i : Nat) (x : Matcher) : (s.setMatcher i x).queues = s.queues := rfl
@[simp] theorem State.setMatcher_mem (s : State) (i : Nat) (x : Matcher) : (s.setMatcher i x).mem = s.mem := rfl
@[simp] theorem State.setMatcher_ing (s : State) (i : Nat) (x : Matcher) : (s.setMatcher i x).ing = s.ing := rfl
@[simp] theorem State.setMatcher_eng (s : State) (i : Nat) (x : Matcher) : (s.setMatcher i x).eng = s.eng := rfl
@[simp] theorem State.setMatcher_pat (s : State) (i : Nat) (x : Matcher) : (s.setMatcher i x).pat = s.pat := rfl
@[simp] theorem State.setMatcher_sch (s : State) (i : Nat) (x : Matcher) : (s.setMatcher i x).sch = s.sch := rfl
@[simp] theorem State.setMatcher_flx (s : State) (i : Nat) (x : Matcher) : (s.setMatcher i x).flx = s.flx := rfl
@[simp] theorem State.setMatcher_spr (s : State) (i : Nat) (x : Matcher) : (s.setMatcher i x).spr = s.spr := rfl
@[simp] theorem State.setMatcher_ckpt (s : State) (i : Nat) (x : Matcher) : (s.setMatcher i x).ckpt = s.ckpt := rfl
@[simp] theorem State.setMatcher_fsu (s : State) (i : Nat) (x : Matcher) : (s.setMatcher i x).fsu = s.fsu := rfl
@[simp] theorem State.setMatcher_disp (s : State) (i : Nat) (x : Matcher) : (s.setMatcher i x).disp = s.disp := rfl
@[simp] theorem State.setMatcher_inp (s : State) (i : Nat) (x : Matcher) : (s.setMatcher i x).inp = s.inp := rfl
@[simp] theorem State.setMatcher_sec (s : State) (i : Nat) (x : Matcher) : (s.setMatcher i x).sec = s.sec := rfl
@[simp] theorem State.setMatcher_jtag (s : State) (i : Nat) (x : Matcher) : (s.setMatcher i x).jtag = s.jtag := rfl
@[simp] theorem State.setMatcher_pins (s : State) (i : Nat) (x : Matcher) : (s.setMatcher i x).pins = s.pins := rfl
@[simp] theorem State.setChk_pending (s : State) (a : Nat) (c : Byte) : (s.setChk a c).pending = s.pending := rfl
@[simp] theorem State.setChk_free (s : State) (a : Nat) (c : Byte) : (s.setChk a c).free = s.free := rfl
@[simp] theorem State.setChk_rf (s : State) (a : Nat) (c : Byte) : (s.setChk a c).rf = s.rf := rfl
@[simp] theorem State.setChk_bus (s : State) (a : Nat) (c : Byte) : (s.setChk a c).bus = s.bus := rfl
@[simp] theorem State.setChk_aon (s : State) (a : Nat) (c : Byte) : (s.setChk a c).aon = s.aon := rfl
@[simp] theorem State.setChk_baro (s : State) (a : Nat) (c : Byte) : (s.setChk a c).baro = s.baro := rfl
@[simp] theorem State.setChk_clk (s : State) (a : Nat) (c : Byte) : (s.setChk a c).clk = s.clk := rfl
@[simp] theorem State.setChk_rst (s : State) (a : Nat) (c : Byte) : (s.setChk a c).rst = s.rst := rfl
@[simp] theorem State.setChk_fmn (s : State) (a : Nat) (c : Byte) : (s.setChk a c).fmn = s.fmn := rfl
@[simp] theorem State.setChk_qch (s : State) (a : Nat) (c : Byte) : (s.setChk a c).qch = s.qch := rfl
@[simp] theorem State.setChk_fbcs (s : State) (a : Nat) (c : Byte) : (s.setChk a c).fbcs = s.fbcs := rfl
@[simp] theorem State.setChk_queues (s : State) (a : Nat) (c : Byte) : (s.setChk a c).queues = s.queues := rfl
@[simp] theorem State.setChk_ing (s : State) (a : Nat) (c : Byte) : (s.setChk a c).ing = s.ing := rfl
@[simp] theorem State.setChk_eng (s : State) (a : Nat) (c : Byte) : (s.setChk a c).eng = s.eng := rfl
@[simp] theorem State.setChk_pat (s : State) (a : Nat) (c : Byte) : (s.setChk a c).pat = s.pat := rfl
@[simp] theorem State.setChk_sch (s : State) (a : Nat) (c : Byte) : (s.setChk a c).sch = s.sch := rfl
@[simp] theorem State.setChk_flx (s : State) (a : Nat) (c : Byte) : (s.setChk a c).flx = s.flx := rfl
@[simp] theorem State.setChk_spr (s : State) (a : Nat) (c : Byte) : (s.setChk a c).spr = s.spr := rfl
@[simp] theorem State.setChk_ckpt (s : State) (a : Nat) (c : Byte) : (s.setChk a c).ckpt = s.ckpt := rfl
@[simp] theorem State.setChk_fsu (s : State) (a : Nat) (c : Byte) : (s.setChk a c).fsu = s.fsu := rfl
@[simp] theorem State.setChk_disp (s : State) (a : Nat) (c : Byte) : (s.setChk a c).disp = s.disp := rfl
@[simp] theorem State.setChk_inp (s : State) (a : Nat) (c : Byte) : (s.setChk a c).inp = s.inp := rfl
@[simp] theorem State.setChk_sec (s : State) (a : Nat) (c : Byte) : (s.setChk a c).sec = s.sec := rfl
@[simp] theorem State.setChk_jtag (s : State) (a : Nat) (c : Byte) : (s.setChk a c).jtag = s.jtag := rfl
@[simp] theorem State.setChk_pins (s : State) (a : Nat) (c : Byte) : (s.setChk a c).pins = s.pins := rfl
@[simp] theorem State.store_pending (s : State) (a : Nat) (l : List Byte) : (s.store a l).pending = s.pending := rfl
@[simp] theorem State.store_free (s : State) (a : Nat) (l : List Byte) : (s.store a l).free = s.free := rfl
@[simp] theorem State.store_rf (s : State) (a : Nat) (l : List Byte) : (s.store a l).rf = s.rf := rfl
@[simp] theorem State.store_bus (s : State) (a : Nat) (l : List Byte) : (s.store a l).bus = s.bus := rfl
@[simp] theorem State.store_aon (s : State) (a : Nat) (l : List Byte) : (s.store a l).aon = s.aon := rfl
@[simp] theorem State.store_baro (s : State) (a : Nat) (l : List Byte) : (s.store a l).baro = s.baro := rfl
@[simp] theorem State.store_clk (s : State) (a : Nat) (l : List Byte) : (s.store a l).clk = s.clk := rfl
@[simp] theorem State.store_rst (s : State) (a : Nat) (l : List Byte) : (s.store a l).rst = s.rst := rfl
@[simp] theorem State.store_fmn (s : State) (a : Nat) (l : List Byte) : (s.store a l).fmn = s.fmn := rfl
@[simp] theorem State.store_qch (s : State) (a : Nat) (l : List Byte) : (s.store a l).qch = s.qch := rfl
@[simp] theorem State.store_fbcs (s : State) (a : Nat) (l : List Byte) : (s.store a l).fbcs = s.fbcs := rfl
@[simp] theorem State.store_queues (s : State) (a : Nat) (l : List Byte) : (s.store a l).queues = s.queues := rfl
@[simp] theorem State.store_ing (s : State) (a : Nat) (l : List Byte) : (s.store a l).ing = s.ing := rfl
@[simp] theorem State.store_eng (s : State) (a : Nat) (l : List Byte) : (s.store a l).eng = s.eng := rfl
@[simp] theorem State.store_pat (s : State) (a : Nat) (l : List Byte) : (s.store a l).pat = s.pat := rfl
@[simp] theorem State.store_sch (s : State) (a : Nat) (l : List Byte) : (s.store a l).sch = s.sch := rfl
@[simp] theorem State.store_flx (s : State) (a : Nat) (l : List Byte) : (s.store a l).flx = s.flx := rfl
@[simp] theorem State.store_spr (s : State) (a : Nat) (l : List Byte) : (s.store a l).spr = s.spr := rfl
@[simp] theorem State.store_ckpt (s : State) (a : Nat) (l : List Byte) : (s.store a l).ckpt = s.ckpt := rfl
@[simp] theorem State.store_fsu (s : State) (a : Nat) (l : List Byte) : (s.store a l).fsu = s.fsu := rfl
@[simp] theorem State.store_disp (s : State) (a : Nat) (l : List Byte) : (s.store a l).disp = s.disp := rfl
@[simp] theorem State.store_inp (s : State) (a : Nat) (l : List Byte) : (s.store a l).inp = s.inp := rfl
@[simp] theorem State.store_sec (s : State) (a : Nat) (l : List Byte) : (s.store a l).sec = s.sec := rfl
@[simp] theorem State.store_jtag (s : State) (a : Nat) (l : List Byte) : (s.store a l).jtag = s.jtag := rfl
@[simp] theorem State.store_pins (s : State) (a : Nat) (l : List Byte) : (s.store a l).pins = s.pins := rfl
@[simp] theorem State.zeroRange_pending (s : State) (a n : Nat) : (s.zeroRange a n).pending = s.pending := rfl
@[simp] theorem State.zeroRange_free (s : State) (a n : Nat) : (s.zeroRange a n).free = s.free := rfl
@[simp] theorem State.zeroRange_rf (s : State) (a n : Nat) : (s.zeroRange a n).rf = s.rf := rfl
@[simp] theorem State.zeroRange_bus (s : State) (a n : Nat) : (s.zeroRange a n).bus = s.bus := rfl
@[simp] theorem State.zeroRange_aon (s : State) (a n : Nat) : (s.zeroRange a n).aon = s.aon := rfl
@[simp] theorem State.zeroRange_baro (s : State) (a n : Nat) : (s.zeroRange a n).baro = s.baro := rfl
@[simp] theorem State.zeroRange_clk (s : State) (a n : Nat) : (s.zeroRange a n).clk = s.clk := rfl
@[simp] theorem State.zeroRange_rst (s : State) (a n : Nat) : (s.zeroRange a n).rst = s.rst := rfl
@[simp] theorem State.zeroRange_fmn (s : State) (a n : Nat) : (s.zeroRange a n).fmn = s.fmn := rfl
@[simp] theorem State.zeroRange_qch (s : State) (a n : Nat) : (s.zeroRange a n).qch = s.qch := rfl
@[simp] theorem State.zeroRange_fbcs (s : State) (a n : Nat) : (s.zeroRange a n).fbcs = s.fbcs := rfl
@[simp] theorem State.zeroRange_queues (s : State) (a n : Nat) : (s.zeroRange a n).queues = s.queues := rfl
@[simp] theorem State.zeroRange_ing (s : State) (a n : Nat) : (s.zeroRange a n).ing = s.ing := rfl
@[simp] theorem State.zeroRange_eng (s : State) (a n : Nat) : (s.zeroRange a n).eng = s.eng := rfl
@[simp] theorem State.zeroRange_pat (s : State) (a n : Nat) : (s.zeroRange a n).pat = s.pat := rfl
@[simp] theorem State.zeroRange_sch (s : State) (a n : Nat) : (s.zeroRange a n).sch = s.sch := rfl
@[simp] theorem State.zeroRange_flx (s : State) (a n : Nat) : (s.zeroRange a n).flx = s.flx := rfl
@[simp] theorem State.zeroRange_spr (s : State) (a n : Nat) : (s.zeroRange a n).spr = s.spr := rfl
@[simp] theorem State.zeroRange_ckpt (s : State) (a n : Nat) : (s.zeroRange a n).ckpt = s.ckpt := rfl
@[simp] theorem State.zeroRange_fsu (s : State) (a n : Nat) : (s.zeroRange a n).fsu = s.fsu := rfl
@[simp] theorem State.zeroRange_disp (s : State) (a n : Nat) : (s.zeroRange a n).disp = s.disp := rfl
@[simp] theorem State.zeroRange_inp (s : State) (a n : Nat) : (s.zeroRange a n).inp = s.inp := rfl
@[simp] theorem State.zeroRange_sec (s : State) (a n : Nat) : (s.zeroRange a n).sec = s.sec := rfl
@[simp] theorem State.zeroRange_jtag (s : State) (a n : Nat) : (s.zeroRange a n).jtag = s.jtag := rfl
@[simp] theorem State.zeroRange_pins (s : State) (a n : Nat) : (s.zeroRange a n).pins = s.pins := rfl
@[simp] theorem State.reply_pending (s : State) (m : Nat) (r : Resp) : (s.reply m r).pending = s.pending := State.setMb_pending _ _ _
@[simp] theorem State.reply_free (s : State) (m : Nat) (r : Resp) : (s.reply m r).free = s.free := State.setMb_free _ _ _
@[simp] theorem State.reply_rf (s : State) (m : Nat) (r : Resp) : (s.reply m r).rf = s.rf := State.setMb_rf _ _ _
@[simp] theorem State.reply_bus (s : State) (m : Nat) (r : Resp) : (s.reply m r).bus = s.bus := State.setMb_bus _ _ _
@[simp] theorem State.reply_aon (s : State) (m : Nat) (r : Resp) : (s.reply m r).aon = s.aon := State.setMb_aon _ _ _
@[simp] theorem State.reply_baro (s : State) (m : Nat) (r : Resp) : (s.reply m r).baro = s.baro := State.setMb_baro _ _ _
@[simp] theorem State.reply_clk (s : State) (m : Nat) (r : Resp) : (s.reply m r).clk = s.clk := State.setMb_clk _ _ _
@[simp] theorem State.reply_rst (s : State) (m : Nat) (r : Resp) : (s.reply m r).rst = s.rst := State.setMb_rst _ _ _
@[simp] theorem State.reply_qch (s : State) (m : Nat) (r : Resp) : (s.reply m r).qch = s.qch := State.setMb_qch _ _ _
@[simp] theorem State.reply_fbcs (s : State) (m : Nat) (r : Resp) : (s.reply m r).fbcs = s.fbcs := State.setMb_fbcs _ _ _
@[simp] theorem State.reply_queues (s : State) (m : Nat) (r : Resp) : (s.reply m r).queues = s.queues := State.setMb_queues _ _ _
@[simp] theorem State.reply_mem (s : State) (m : Nat) (r : Resp) : (s.reply m r).mem = s.mem := State.setMb_mem _ _ _
@[simp] theorem State.reply_ing (s : State) (m : Nat) (r : Resp) : (s.reply m r).ing = s.ing := State.setMb_ing _ _ _
@[simp] theorem State.reply_eng (s : State) (m : Nat) (r : Resp) : (s.reply m r).eng = s.eng := State.setMb_eng _ _ _
@[simp] theorem State.reply_pat (s : State) (m : Nat) (r : Resp) : (s.reply m r).pat = s.pat := State.setMb_pat _ _ _
@[simp] theorem State.reply_sch (s : State) (m : Nat) (r : Resp) : (s.reply m r).sch = s.sch := State.setMb_sch _ _ _
@[simp] theorem State.reply_flx (s : State) (m : Nat) (r : Resp) : (s.reply m r).flx = s.flx := State.setMb_flx _ _ _
@[simp] theorem State.reply_spr (s : State) (m : Nat) (r : Resp) : (s.reply m r).spr = s.spr := State.setMb_spr _ _ _
@[simp] theorem State.reply_ckpt (s : State) (m : Nat) (r : Resp) : (s.reply m r).ckpt = s.ckpt := State.setMb_ckpt _ _ _
@[simp] theorem State.reply_fsu (s : State) (m : Nat) (r : Resp) : (s.reply m r).fsu = s.fsu := State.setMb_fsu _ _ _
@[simp] theorem State.reply_disp (s : State) (m : Nat) (r : Resp) : (s.reply m r).disp = s.disp := State.setMb_disp _ _ _
@[simp] theorem State.reply_inp (s : State) (m : Nat) (r : Resp) : (s.reply m r).inp = s.inp := State.setMb_inp _ _ _
@[simp] theorem State.reply_sec (s : State) (m : Nat) (r : Resp) : (s.reply m r).sec = s.sec := State.setMb_sec _ _ _
@[simp] theorem State.reply_jtag (s : State) (m : Nat) (r : Resp) : (s.reply m r).jtag = s.jtag := State.setMb_jtag _ _ _
@[simp] theorem State.reply_pins (s : State) (m : Nat) (r : Resp) : (s.reply m r).pins = s.pins := State.setMb_pins _ _ _
@[simp] theorem State.await_pending (s : State) (m : Nat) : (s.await m).pending = s.pending := State.setMb_pending _ _ _
@[simp] theorem State.await_free (s : State) (m : Nat) : (s.await m).free = s.free := State.setMb_free _ _ _
@[simp] theorem State.await_rf (s : State) (m : Nat) : (s.await m).rf = s.rf := State.setMb_rf _ _ _
@[simp] theorem State.await_bus (s : State) (m : Nat) : (s.await m).bus = s.bus := State.setMb_bus _ _ _
@[simp] theorem State.await_aon (s : State) (m : Nat) : (s.await m).aon = s.aon := State.setMb_aon _ _ _
@[simp] theorem State.await_baro (s : State) (m : Nat) : (s.await m).baro = s.baro := State.setMb_baro _ _ _
@[simp] theorem State.await_clk (s : State) (m : Nat) : (s.await m).clk = s.clk := State.setMb_clk _ _ _
@[simp] theorem State.await_rst (s : State) (m : Nat) : (s.await m).rst = s.rst := State.setMb_rst _ _ _
@[simp] theorem State.await_qch (s : State) (m : Nat) : (s.await m).qch = s.qch := State.setMb_qch _ _ _
@[simp] theorem State.await_fbcs (s : State) (m : Nat) : (s.await m).fbcs = s.fbcs := State.setMb_fbcs _ _ _
@[simp] theorem State.await_queues (s : State) (m : Nat) : (s.await m).queues = s.queues := State.setMb_queues _ _ _
@[simp] theorem State.await_mem (s : State) (m : Nat) : (s.await m).mem = s.mem := State.setMb_mem _ _ _
@[simp] theorem State.await_ing (s : State) (m : Nat) : (s.await m).ing = s.ing := State.setMb_ing _ _ _
@[simp] theorem State.await_eng (s : State) (m : Nat) : (s.await m).eng = s.eng := State.setMb_eng _ _ _
@[simp] theorem State.await_pat (s : State) (m : Nat) : (s.await m).pat = s.pat := State.setMb_pat _ _ _
@[simp] theorem State.await_sch (s : State) (m : Nat) : (s.await m).sch = s.sch := State.setMb_sch _ _ _
@[simp] theorem State.await_flx (s : State) (m : Nat) : (s.await m).flx = s.flx := State.setMb_flx _ _ _
@[simp] theorem State.await_spr (s : State) (m : Nat) : (s.await m).spr = s.spr := State.setMb_spr _ _ _
@[simp] theorem State.await_ckpt (s : State) (m : Nat) : (s.await m).ckpt = s.ckpt := State.setMb_ckpt _ _ _
@[simp] theorem State.await_fsu (s : State) (m : Nat) : (s.await m).fsu = s.fsu := State.setMb_fsu _ _ _
@[simp] theorem State.await_disp (s : State) (m : Nat) : (s.await m).disp = s.disp := State.setMb_disp _ _ _
@[simp] theorem State.await_inp (s : State) (m : Nat) : (s.await m).inp = s.inp := State.setMb_inp _ _ _
@[simp] theorem State.await_sec (s : State) (m : Nat) : (s.await m).sec = s.sec := State.setMb_sec _ _ _
@[simp] theorem State.await_jtag (s : State) (m : Nat) : (s.await m).jtag = s.jtag := State.setMb_jtag _ _ _
@[simp] theorem State.await_pins (s : State) (m : Nat) : (s.await m).pins = s.pins := State.setMb_pins _ _ _

/-! ## What a unit's accessor reads after its update -/

theorem State.queue_setQueue (s : State) (q j : Nat) (x : Queue) : (s.setQueue q x).queue j = if j = q then x else s.queue j := by
  simp [State.queue, State.setQueue, Tab.get_set]
@[simp] theorem State.queue_setQueue_self (s : State) (q : Nat) (x : Queue) : (s.setQueue q x).queue q = x := by
  simp [State.queue_setQueue]
theorem State.ctx_setCtx (s : State) (c j : Nat) (x : Ctx) : (s.setCtx c x).ctx j = if j = c then x else s.ctx j := by
  simp [State.ctx, State.setCtx, Tab.get_set]
@[simp] theorem State.ctx_setCtx_self (s : State) (c : Nat) (x : Ctx) : (s.setCtx c x).ctx c = x := by
  simp [State.ctx_setCtx]
theorem State.flask_setFlask (s : State) (k j : Nat) (x : Flask) : (s.setFlask k x).flask j = if j = k then x else s.flask j := by
  simp [State.flask, State.setFlask, Tab.get_set]
@[simp] theorem State.flask_setFlask_self (s : State) (k : Nat) (x : Flask) : (s.setFlask k x).flask k = x := by
  simp [State.flask_setFlask]
theorem State.port_setPort (s : State) (p j : Nat) (x : Port) : (s.setPort p x).port j = if j = p then x else s.port j := by
  simp [State.port, State.setPort, Tab.get_set]
@[simp] theorem State.port_setPort_self (s : State) (p : Nat) (x : Port) : (s.setPort p x).port p = x := by
  simp [State.port_setPort]
theorem State.slot_setSlot (s : State) (i j : Nat) (x : IngSlot) : (s.setSlot i x).slot j = if j = i then x else s.slot j := by
  simp [State.slot, State.setSlot, Tab.get_set]
@[simp] theorem State.slot_setSlot_self (s : State) (i : Nat) (x : IngSlot) : (s.setSlot i x).slot i = x := by
  simp [State.slot_setSlot]
theorem State.engine_setEngine (s : State) (e j : Nat) (x : Engine) : (s.setEngine e x).engine j = if j = e then x else s.engine j := by
  simp [State.engine, State.setEngine, Tab.get_set]
@[simp] theorem State.engine_setEngine_self (s : State) (e : Nat) (x : Engine) : (s.setEngine e x).engine e = x := by
  simp [State.engine_setEngine]
theorem State.graph_setGraph (s : State) (g j : Nat) (x : Graph) : (s.setGraph g x).graph j = if j = g then x else s.graph j := by
  simp [State.graph, State.setGraph, Tab.get_set]
@[simp] theorem State.graph_setGraph_self (s : State) (g : Nat) (x : Graph) : (s.setGraph g x).graph g = x := by
  simp [State.graph_setGraph]
theorem State.egress_setEgress (s : State) (e j : Nat) (x : Egress) : (s.setEgress e x).egress j = if j = e then x else s.egress j := by
  simp [State.egress, State.setEgress, Tab.get_set]
@[simp] theorem State.egress_setEgress_self (s : State) (e : Nat) (x : Egress) : (s.setEgress e x).egress e = x := by
  simp [State.egress_setEgress]
theorem State.regionSlot_setRegionSlot (s : State) (i j : Nat) (x : RegionSlot) : (s.setRegionSlot i x).regionSlot j = if j = i then x else s.regionSlot j := by
  simp [State.regionSlot, State.setRegionSlot, Tab.get_set]
@[simp] theorem State.regionSlot_setRegionSlot_self (s : State) (i : Nat) (x : RegionSlot) : (s.setRegionSlot i x).regionSlot i = x := by
  simp [State.regionSlot_setRegionSlot]
theorem State.node_setNode (s : State) (a j : Nat) (x : Node) : (s.setNode a x).node j = if j = a then x else s.node j := by
  simp [State.node, State.setNode, Tab.get_set]
@[simp] theorem State.node_setNode_self (s : State) (a : Nat) (x : Node) : (s.setNode a x).node a = x := by
  simp [State.node_setNode]
theorem State.meter_setMeter (s : State) (k j : Nat) (x : Meter) : (s.setMeter k x).meter j = if j = k then x else s.meter j := by
  simp [State.meter, State.setMeter, Tab.get_set]
@[simp] theorem State.meter_setMeter_self (s : State) (k : Nat) (x : Meter) : (s.setMeter k x).meter k = x := by
  simp [State.meter_setMeter]
theorem State.msixVec_setMsixVec (s : State) (k j : Nat) (x : MsixVec) : (s.setMsixVec k x).msixVec j = if j = k then x else s.msixVec j := by
  simp [State.msixVec, State.setMsixVec, Tab.get_set]
@[simp] theorem State.msixVec_setMsixVec_self (s : State) (k : Nat) (x : MsixVec) : (s.setMsixVec k x).msixVec k = x := by
  simp [State.msixVec_setMsixVec]
theorem State.prof_setProf (s : State) (e p j : Nat) (x : Profile) :
    (s.setProf e p x).prof e j = if j = p then x else s.prof e j := by
  simp [State.prof, State.setProf, Tab.get_set]
@[simp] theorem State.setInst_inst (s : State) (g : Nat) (i : Inst) : ((s.setInst g i).graph g).inst = some i := by
  simp [State.setInst]
@[simp] theorem State.building_setBuild (s : State) (b : Build) : (s.setBuild b).fsu.build = some b := rfl

/-! ## The fields a unit's update leaves -/

@[simp] theorem State.setQueue_pending (s : State) (q : Nat) (x : Queue) : (s.setQueue q x).pending = s.pending := rfl
@[simp] theorem State.setQueue_free (s : State) (q : Nat) (x : Queue) : (s.setQueue q x).free = s.free := rfl
@[simp] theorem State.setQueue_rf (s : State) (q : Nat) (x : Queue) : (s.setQueue q x).rf = s.rf := rfl
@[simp] theorem State.setQueue_bus (s : State) (q : Nat) (x : Queue) : (s.setQueue q x).bus = s.bus := rfl
@[simp] theorem State.setQueue_aon (s : State) (q : Nat) (x : Queue) : (s.setQueue q x).aon = s.aon := rfl
@[simp] theorem State.setQueue_baro (s : State) (q : Nat) (x : Queue) : (s.setQueue q x).baro = s.baro := rfl
@[simp] theorem State.setQueue_clk (s : State) (q : Nat) (x : Queue) : (s.setQueue q x).clk = s.clk := rfl
@[simp] theorem State.setQueue_rst (s : State) (q : Nat) (x : Queue) : (s.setQueue q x).rst = s.rst := rfl
@[simp] theorem State.setQueue_fmn (s : State) (q : Nat) (x : Queue) : (s.setQueue q x).fmn = s.fmn := rfl
@[simp] theorem State.setQueue_qch (s : State) (q : Nat) (x : Queue) : (s.setQueue q x).qch = s.qch := rfl
@[simp] theorem State.setQueue_fbcs (s : State) (q : Nat) (x : Queue) : (s.setQueue q x).fbcs = s.fbcs := rfl
@[simp] theorem State.setQueue_mem (s : State) (q : Nat) (x : Queue) : (s.setQueue q x).mem = s.mem := rfl
@[simp] theorem State.setQueue_ing (s : State) (q : Nat) (x : Queue) : (s.setQueue q x).ing = s.ing := rfl
@[simp] theorem State.setQueue_eng (s : State) (q : Nat) (x : Queue) : (s.setQueue q x).eng = s.eng := rfl
@[simp] theorem State.setQueue_pat (s : State) (q : Nat) (x : Queue) : (s.setQueue q x).pat = s.pat := rfl
@[simp] theorem State.setQueue_sch (s : State) (q : Nat) (x : Queue) : (s.setQueue q x).sch = s.sch := rfl
@[simp] theorem State.setQueue_flx (s : State) (q : Nat) (x : Queue) : (s.setQueue q x).flx = s.flx := rfl
@[simp] theorem State.setQueue_spr (s : State) (q : Nat) (x : Queue) : (s.setQueue q x).spr = s.spr := rfl
@[simp] theorem State.setQueue_ckpt (s : State) (q : Nat) (x : Queue) : (s.setQueue q x).ckpt = s.ckpt := rfl
@[simp] theorem State.setQueue_fsu (s : State) (q : Nat) (x : Queue) : (s.setQueue q x).fsu = s.fsu := rfl
@[simp] theorem State.setQueue_disp (s : State) (q : Nat) (x : Queue) : (s.setQueue q x).disp = s.disp := rfl
@[simp] theorem State.setQueue_inp (s : State) (q : Nat) (x : Queue) : (s.setQueue q x).inp = s.inp := rfl
@[simp] theorem State.setQueue_sec (s : State) (q : Nat) (x : Queue) : (s.setQueue q x).sec = s.sec := rfl
@[simp] theorem State.setQueue_jtag (s : State) (q : Nat) (x : Queue) : (s.setQueue q x).jtag = s.jtag := rfl
@[simp] theorem State.setQueue_pins (s : State) (q : Nat) (x : Queue) : (s.setQueue q x).pins = s.pins := rfl
@[simp] theorem State.setCtx_pending (s : State) (c : Nat) (x : Ctx) : (s.setCtx c x).pending = s.pending := rfl
@[simp] theorem State.setCtx_free (s : State) (c : Nat) (x : Ctx) : (s.setCtx c x).free = s.free := rfl
@[simp] theorem State.setCtx_rf (s : State) (c : Nat) (x : Ctx) : (s.setCtx c x).rf = s.rf := rfl
@[simp] theorem State.setCtx_bus (s : State) (c : Nat) (x : Ctx) : (s.setCtx c x).bus = s.bus := rfl
@[simp] theorem State.setCtx_aon (s : State) (c : Nat) (x : Ctx) : (s.setCtx c x).aon = s.aon := rfl
@[simp] theorem State.setCtx_baro (s : State) (c : Nat) (x : Ctx) : (s.setCtx c x).baro = s.baro := rfl
@[simp] theorem State.setCtx_clk (s : State) (c : Nat) (x : Ctx) : (s.setCtx c x).clk = s.clk := rfl
@[simp] theorem State.setCtx_rst (s : State) (c : Nat) (x : Ctx) : (s.setCtx c x).rst = s.rst := rfl
@[simp] theorem State.setCtx_fmn (s : State) (c : Nat) (x : Ctx) : (s.setCtx c x).fmn = s.fmn := rfl
@[simp] theorem State.setCtx_qch (s : State) (c : Nat) (x : Ctx) : (s.setCtx c x).qch = s.qch := rfl
@[simp] theorem State.setCtx_fbcs (s : State) (c : Nat) (x : Ctx) : (s.setCtx c x).fbcs = s.fbcs := rfl
@[simp] theorem State.setCtx_queues (s : State) (c : Nat) (x : Ctx) : (s.setCtx c x).queues = s.queues := rfl
@[simp] theorem State.setCtx_mem (s : State) (c : Nat) (x : Ctx) : (s.setCtx c x).mem = s.mem := rfl
@[simp] theorem State.setCtx_ing (s : State) (c : Nat) (x : Ctx) : (s.setCtx c x).ing = s.ing := rfl
@[simp] theorem State.setCtx_eng (s : State) (c : Nat) (x : Ctx) : (s.setCtx c x).eng = s.eng := rfl
@[simp] theorem State.setCtx_pat (s : State) (c : Nat) (x : Ctx) : (s.setCtx c x).pat = s.pat := rfl
@[simp] theorem State.setCtx_flx (s : State) (c : Nat) (x : Ctx) : (s.setCtx c x).flx = s.flx := rfl
@[simp] theorem State.setCtx_spr (s : State) (c : Nat) (x : Ctx) : (s.setCtx c x).spr = s.spr := rfl
@[simp] theorem State.setCtx_ckpt (s : State) (c : Nat) (x : Ctx) : (s.setCtx c x).ckpt = s.ckpt := rfl
@[simp] theorem State.setCtx_fsu (s : State) (c : Nat) (x : Ctx) : (s.setCtx c x).fsu = s.fsu := rfl
@[simp] theorem State.setCtx_disp (s : State) (c : Nat) (x : Ctx) : (s.setCtx c x).disp = s.disp := rfl
@[simp] theorem State.setCtx_inp (s : State) (c : Nat) (x : Ctx) : (s.setCtx c x).inp = s.inp := rfl
@[simp] theorem State.setCtx_sec (s : State) (c : Nat) (x : Ctx) : (s.setCtx c x).sec = s.sec := rfl
@[simp] theorem State.setCtx_jtag (s : State) (c : Nat) (x : Ctx) : (s.setCtx c x).jtag = s.jtag := rfl
@[simp] theorem State.setCtx_pins (s : State) (c : Nat) (x : Ctx) : (s.setCtx c x).pins = s.pins := rfl
@[simp] theorem State.setFlask_pending (s : State) (k : Nat) (x : Flask) : (s.setFlask k x).pending = s.pending := rfl
@[simp] theorem State.setFlask_free (s : State) (k : Nat) (x : Flask) : (s.setFlask k x).free = s.free := rfl
@[simp] theorem State.setFlask_rf (s : State) (k : Nat) (x : Flask) : (s.setFlask k x).rf = s.rf := rfl
@[simp] theorem State.setFlask_bus (s : State) (k : Nat) (x : Flask) : (s.setFlask k x).bus = s.bus := rfl
@[simp] theorem State.setFlask_aon (s : State) (k : Nat) (x : Flask) : (s.setFlask k x).aon = s.aon := rfl
@[simp] theorem State.setFlask_baro (s : State) (k : Nat) (x : Flask) : (s.setFlask k x).baro = s.baro := rfl
@[simp] theorem State.setFlask_clk (s : State) (k : Nat) (x : Flask) : (s.setFlask k x).clk = s.clk := rfl
@[simp] theorem State.setFlask_rst (s : State) (k : Nat) (x : Flask) : (s.setFlask k x).rst = s.rst := rfl
@[simp] theorem State.setFlask_fmn (s : State) (k : Nat) (x : Flask) : (s.setFlask k x).fmn = s.fmn := rfl
@[simp] theorem State.setFlask_qch (s : State) (k : Nat) (x : Flask) : (s.setFlask k x).qch = s.qch := rfl
@[simp] theorem State.setFlask_fbcs (s : State) (k : Nat) (x : Flask) : (s.setFlask k x).fbcs = s.fbcs := rfl
@[simp] theorem State.setFlask_queues (s : State) (k : Nat) (x : Flask) : (s.setFlask k x).queues = s.queues := rfl
@[simp] theorem State.setFlask_mem (s : State) (k : Nat) (x : Flask) : (s.setFlask k x).mem = s.mem := rfl
@[simp] theorem State.setFlask_ing (s : State) (k : Nat) (x : Flask) : (s.setFlask k x).ing = s.ing := rfl
@[simp] theorem State.setFlask_eng (s : State) (k : Nat) (x : Flask) : (s.setFlask k x).eng = s.eng := rfl
@[simp] theorem State.setFlask_pat (s : State) (k : Nat) (x : Flask) : (s.setFlask k x).pat = s.pat := rfl
@[simp] theorem State.setFlask_flx (s : State) (k : Nat) (x : Flask) : (s.setFlask k x).flx = s.flx := rfl
@[simp] theorem State.setFlask_spr (s : State) (k : Nat) (x : Flask) : (s.setFlask k x).spr = s.spr := rfl
@[simp] theorem State.setFlask_ckpt (s : State) (k : Nat) (x : Flask) : (s.setFlask k x).ckpt = s.ckpt := rfl
@[simp] theorem State.setFlask_fsu (s : State) (k : Nat) (x : Flask) : (s.setFlask k x).fsu = s.fsu := rfl
@[simp] theorem State.setFlask_disp (s : State) (k : Nat) (x : Flask) : (s.setFlask k x).disp = s.disp := rfl
@[simp] theorem State.setFlask_inp (s : State) (k : Nat) (x : Flask) : (s.setFlask k x).inp = s.inp := rfl
@[simp] theorem State.setFlask_sec (s : State) (k : Nat) (x : Flask) : (s.setFlask k x).sec = s.sec := rfl
@[simp] theorem State.setFlask_jtag (s : State) (k : Nat) (x : Flask) : (s.setFlask k x).jtag = s.jtag := rfl
@[simp] theorem State.setFlask_pins (s : State) (k : Nat) (x : Flask) : (s.setFlask k x).pins = s.pins := rfl
@[simp] theorem State.setPort_pending (s : State) (p : Nat) (x : Port) : (s.setPort p x).pending = s.pending := rfl
@[simp] theorem State.setPort_free (s : State) (p : Nat) (x : Port) : (s.setPort p x).free = s.free := rfl
@[simp] theorem State.setPort_rf (s : State) (p : Nat) (x : Port) : (s.setPort p x).rf = s.rf := rfl
@[simp] theorem State.setPort_bus (s : State) (p : Nat) (x : Port) : (s.setPort p x).bus = s.bus := rfl
@[simp] theorem State.setPort_aon (s : State) (p : Nat) (x : Port) : (s.setPort p x).aon = s.aon := rfl
@[simp] theorem State.setPort_baro (s : State) (p : Nat) (x : Port) : (s.setPort p x).baro = s.baro := rfl
@[simp] theorem State.setPort_clk (s : State) (p : Nat) (x : Port) : (s.setPort p x).clk = s.clk := rfl
@[simp] theorem State.setPort_rst (s : State) (p : Nat) (x : Port) : (s.setPort p x).rst = s.rst := rfl
@[simp] theorem State.setPort_fmn (s : State) (p : Nat) (x : Port) : (s.setPort p x).fmn = s.fmn := rfl
@[simp] theorem State.setPort_qch (s : State) (p : Nat) (x : Port) : (s.setPort p x).qch = s.qch := rfl
@[simp] theorem State.setPort_fbcs (s : State) (p : Nat) (x : Port) : (s.setPort p x).fbcs = s.fbcs := rfl
@[simp] theorem State.setPort_queues (s : State) (p : Nat) (x : Port) : (s.setPort p x).queues = s.queues := rfl
@[simp] theorem State.setPort_mem (s : State) (p : Nat) (x : Port) : (s.setPort p x).mem = s.mem := rfl
@[simp] theorem State.setPort_ing (s : State) (p : Nat) (x : Port) : (s.setPort p x).ing = s.ing := rfl
@[simp] theorem State.setPort_eng (s : State) (p : Nat) (x : Port) : (s.setPort p x).eng = s.eng := rfl
@[simp] theorem State.setPort_pat (s : State) (p : Nat) (x : Port) : (s.setPort p x).pat = s.pat := rfl
@[simp] theorem State.setPort_sch (s : State) (p : Nat) (x : Port) : (s.setPort p x).sch = s.sch := rfl
@[simp] theorem State.setPort_flx (s : State) (p : Nat) (x : Port) : (s.setPort p x).flx = s.flx := rfl
@[simp] theorem State.setPort_ckpt (s : State) (p : Nat) (x : Port) : (s.setPort p x).ckpt = s.ckpt := rfl
@[simp] theorem State.setPort_fsu (s : State) (p : Nat) (x : Port) : (s.setPort p x).fsu = s.fsu := rfl
@[simp] theorem State.setPort_disp (s : State) (p : Nat) (x : Port) : (s.setPort p x).disp = s.disp := rfl
@[simp] theorem State.setPort_inp (s : State) (p : Nat) (x : Port) : (s.setPort p x).inp = s.inp := rfl
@[simp] theorem State.setPort_sec (s : State) (p : Nat) (x : Port) : (s.setPort p x).sec = s.sec := rfl
@[simp] theorem State.setPort_jtag (s : State) (p : Nat) (x : Port) : (s.setPort p x).jtag = s.jtag := rfl
@[simp] theorem State.setPort_pins (s : State) (p : Nat) (x : Port) : (s.setPort p x).pins = s.pins := rfl
@[simp] theorem State.setSlot_pending (s : State) (i : Nat) (x : IngSlot) : (s.setSlot i x).pending = s.pending := rfl
@[simp] theorem State.setSlot_free (s : State) (i : Nat) (x : IngSlot) : (s.setSlot i x).free = s.free := rfl
@[simp] theorem State.setSlot_rf (s : State) (i : Nat) (x : IngSlot) : (s.setSlot i x).rf = s.rf := rfl
@[simp] theorem State.setSlot_bus (s : State) (i : Nat) (x : IngSlot) : (s.setSlot i x).bus = s.bus := rfl
@[simp] theorem State.setSlot_aon (s : State) (i : Nat) (x : IngSlot) : (s.setSlot i x).aon = s.aon := rfl
@[simp] theorem State.setSlot_baro (s : State) (i : Nat) (x : IngSlot) : (s.setSlot i x).baro = s.baro := rfl
@[simp] theorem State.setSlot_clk (s : State) (i : Nat) (x : IngSlot) : (s.setSlot i x).clk = s.clk := rfl
@[simp] theorem State.setSlot_rst (s : State) (i : Nat) (x : IngSlot) : (s.setSlot i x).rst = s.rst := rfl
@[simp] theorem State.setSlot_fmn (s : State) (i : Nat) (x : IngSlot) : (s.setSlot i x).fmn = s.fmn := rfl
@[simp] theorem State.setSlot_qch (s : State) (i : Nat) (x : IngSlot) : (s.setSlot i x).qch = s.qch := rfl
@[simp] theorem State.setSlot_fbcs (s : State) (i : Nat) (x : IngSlot) : (s.setSlot i x).fbcs = s.fbcs := rfl
@[simp] theorem State.setSlot_queues (s : State) (i : Nat) (x : IngSlot) : (s.setSlot i x).queues = s.queues := rfl
@[simp] theorem State.setSlot_mem (s : State) (i : Nat) (x : IngSlot) : (s.setSlot i x).mem = s.mem := rfl
@[simp] theorem State.setSlot_eng (s : State) (i : Nat) (x : IngSlot) : (s.setSlot i x).eng = s.eng := rfl
@[simp] theorem State.setSlot_pat (s : State) (i : Nat) (x : IngSlot) : (s.setSlot i x).pat = s.pat := rfl
@[simp] theorem State.setSlot_sch (s : State) (i : Nat) (x : IngSlot) : (s.setSlot i x).sch = s.sch := rfl
@[simp] theorem State.setSlot_flx (s : State) (i : Nat) (x : IngSlot) : (s.setSlot i x).flx = s.flx := rfl
@[simp] theorem State.setSlot_spr (s : State) (i : Nat) (x : IngSlot) : (s.setSlot i x).spr = s.spr := rfl
@[simp] theorem State.setSlot_ckpt (s : State) (i : Nat) (x : IngSlot) : (s.setSlot i x).ckpt = s.ckpt := rfl
@[simp] theorem State.setSlot_fsu (s : State) (i : Nat) (x : IngSlot) : (s.setSlot i x).fsu = s.fsu := rfl
@[simp] theorem State.setSlot_disp (s : State) (i : Nat) (x : IngSlot) : (s.setSlot i x).disp = s.disp := rfl
@[simp] theorem State.setSlot_inp (s : State) (i : Nat) (x : IngSlot) : (s.setSlot i x).inp = s.inp := rfl
@[simp] theorem State.setSlot_sec (s : State) (i : Nat) (x : IngSlot) : (s.setSlot i x).sec = s.sec := rfl
@[simp] theorem State.setSlot_jtag (s : State) (i : Nat) (x : IngSlot) : (s.setSlot i x).jtag = s.jtag := rfl
@[simp] theorem State.setSlot_pins (s : State) (i : Nat) (x : IngSlot) : (s.setSlot i x).pins = s.pins := rfl
@[simp] theorem State.setEngine_pending (s : State) (e : Nat) (x : Engine) : (s.setEngine e x).pending = s.pending := rfl
@[simp] theorem State.setEngine_free (s : State) (e : Nat) (x : Engine) : (s.setEngine e x).free = s.free := rfl
@[simp] theorem State.setEngine_rf (s : State) (e : Nat) (x : Engine) : (s.setEngine e x).rf = s.rf := rfl
@[simp] theorem State.setEngine_bus (s : State) (e : Nat) (x : Engine) : (s.setEngine e x).bus = s.bus := rfl
@[simp] theorem State.setEngine_aon (s : State) (e : Nat) (x : Engine) : (s.setEngine e x).aon = s.aon := rfl
@[simp] theorem State.setEngine_baro (s : State) (e : Nat) (x : Engine) : (s.setEngine e x).baro = s.baro := rfl
@[simp] theorem State.setEngine_clk (s : State) (e : Nat) (x : Engine) : (s.setEngine e x).clk = s.clk := rfl
@[simp] theorem State.setEngine_rst (s : State) (e : Nat) (x : Engine) : (s.setEngine e x).rst = s.rst := rfl
@[simp] theorem State.setEngine_fmn (s : State) (e : Nat) (x : Engine) : (s.setEngine e x).fmn = s.fmn := rfl
@[simp] theorem State.setEngine_qch (s : State) (e : Nat) (x : Engine) : (s.setEngine e x).qch = s.qch := rfl
@[simp] theorem State.setEngine_fbcs (s : State) (e : Nat) (x : Engine) : (s.setEngine e x).fbcs = s.fbcs := rfl
@[simp] theorem State.setEngine_queues (s : State) (e : Nat) (x : Engine) : (s.setEngine e x).queues = s.queues := rfl
@[simp] theorem State.setEngine_mem (s : State) (e : Nat) (x : Engine) : (s.setEngine e x).mem = s.mem := rfl
@[simp] theorem State.setEngine_ing (s : State) (e : Nat) (x : Engine) : (s.setEngine e x).ing = s.ing := rfl
@[simp] theorem State.setEngine_pat (s : State) (e : Nat) (x : Engine) : (s.setEngine e x).pat = s.pat := rfl
@[simp] theorem State.setEngine_sch (s : State) (e : Nat) (x : Engine) : (s.setEngine e x).sch = s.sch := rfl
@[simp] theorem State.setEngine_flx (s : State) (e : Nat) (x : Engine) : (s.setEngine e x).flx = s.flx := rfl
@[simp] theorem State.setEngine_spr (s : State) (e : Nat) (x : Engine) : (s.setEngine e x).spr = s.spr := rfl
@[simp] theorem State.setEngine_ckpt (s : State) (e : Nat) (x : Engine) : (s.setEngine e x).ckpt = s.ckpt := rfl
@[simp] theorem State.setEngine_fsu (s : State) (e : Nat) (x : Engine) : (s.setEngine e x).fsu = s.fsu := rfl
@[simp] theorem State.setEngine_disp (s : State) (e : Nat) (x : Engine) : (s.setEngine e x).disp = s.disp := rfl
@[simp] theorem State.setEngine_inp (s : State) (e : Nat) (x : Engine) : (s.setEngine e x).inp = s.inp := rfl
@[simp] theorem State.setEngine_sec (s : State) (e : Nat) (x : Engine) : (s.setEngine e x).sec = s.sec := rfl
@[simp] theorem State.setEngine_jtag (s : State) (e : Nat) (x : Engine) : (s.setEngine e x).jtag = s.jtag := rfl
@[simp] theorem State.setEngine_pins (s : State) (e : Nat) (x : Engine) : (s.setEngine e x).pins = s.pins := rfl
@[simp] theorem State.setProf_pending (s : State) (e p : Nat) (x : Profile) : (s.setProf e p x).pending = s.pending := rfl
@[simp] theorem State.setProf_free (s : State) (e p : Nat) (x : Profile) : (s.setProf e p x).free = s.free := rfl
@[simp] theorem State.setProf_rf (s : State) (e p : Nat) (x : Profile) : (s.setProf e p x).rf = s.rf := rfl
@[simp] theorem State.setProf_bus (s : State) (e p : Nat) (x : Profile) : (s.setProf e p x).bus = s.bus := rfl
@[simp] theorem State.setProf_aon (s : State) (e p : Nat) (x : Profile) : (s.setProf e p x).aon = s.aon := rfl
@[simp] theorem State.setProf_baro (s : State) (e p : Nat) (x : Profile) : (s.setProf e p x).baro = s.baro := rfl
@[simp] theorem State.setProf_clk (s : State) (e p : Nat) (x : Profile) : (s.setProf e p x).clk = s.clk := rfl
@[simp] theorem State.setProf_rst (s : State) (e p : Nat) (x : Profile) : (s.setProf e p x).rst = s.rst := rfl
@[simp] theorem State.setProf_fmn (s : State) (e p : Nat) (x : Profile) : (s.setProf e p x).fmn = s.fmn := rfl
@[simp] theorem State.setProf_qch (s : State) (e p : Nat) (x : Profile) : (s.setProf e p x).qch = s.qch := rfl
@[simp] theorem State.setProf_fbcs (s : State) (e p : Nat) (x : Profile) : (s.setProf e p x).fbcs = s.fbcs := rfl
@[simp] theorem State.setProf_queues (s : State) (e p : Nat) (x : Profile) : (s.setProf e p x).queues = s.queues := rfl
@[simp] theorem State.setProf_mem (s : State) (e p : Nat) (x : Profile) : (s.setProf e p x).mem = s.mem := rfl
@[simp] theorem State.setProf_ing (s : State) (e p : Nat) (x : Profile) : (s.setProf e p x).ing = s.ing := rfl
@[simp] theorem State.setProf_pat (s : State) (e p : Nat) (x : Profile) : (s.setProf e p x).pat = s.pat := rfl
@[simp] theorem State.setProf_sch (s : State) (e p : Nat) (x : Profile) : (s.setProf e p x).sch = s.sch := rfl
@[simp] theorem State.setProf_flx (s : State) (e p : Nat) (x : Profile) : (s.setProf e p x).flx = s.flx := rfl
@[simp] theorem State.setProf_spr (s : State) (e p : Nat) (x : Profile) : (s.setProf e p x).spr = s.spr := rfl
@[simp] theorem State.setProf_ckpt (s : State) (e p : Nat) (x : Profile) : (s.setProf e p x).ckpt = s.ckpt := rfl
@[simp] theorem State.setProf_fsu (s : State) (e p : Nat) (x : Profile) : (s.setProf e p x).fsu = s.fsu := rfl
@[simp] theorem State.setProf_disp (s : State) (e p : Nat) (x : Profile) : (s.setProf e p x).disp = s.disp := rfl
@[simp] theorem State.setProf_inp (s : State) (e p : Nat) (x : Profile) : (s.setProf e p x).inp = s.inp := rfl
@[simp] theorem State.setProf_sec (s : State) (e p : Nat) (x : Profile) : (s.setProf e p x).sec = s.sec := rfl
@[simp] theorem State.setProf_jtag (s : State) (e p : Nat) (x : Profile) : (s.setProf e p x).jtag = s.jtag := rfl
@[simp] theorem State.setProf_pins (s : State) (e p : Nat) (x : Profile) : (s.setProf e p x).pins = s.pins := rfl
@[simp] theorem State.setGraph_pending (s : State) (g : Nat) (x : Graph) : (s.setGraph g x).pending = s.pending := rfl
@[simp] theorem State.setGraph_free (s : State) (g : Nat) (x : Graph) : (s.setGraph g x).free = s.free := rfl
@[simp] theorem State.setGraph_rf (s : State) (g : Nat) (x : Graph) : (s.setGraph g x).rf = s.rf := rfl
@[simp] theorem State.setGraph_bus (s : State) (g : Nat) (x : Graph) : (s.setGraph g x).bus = s.bus := rfl
@[simp] theorem State.setGraph_aon (s : State) (g : Nat) (x : Graph) : (s.setGraph g x).aon = s.aon := rfl
@[simp] theorem State.setGraph_baro (s : State) (g : Nat) (x : Graph) : (s.setGraph g x).baro = s.baro := rfl
@[simp] theorem State.setGraph_clk (s : State) (g : Nat) (x : Graph) : (s.setGraph g x).clk = s.clk := rfl
@[simp] theorem State.setGraph_rst (s : State) (g : Nat) (x : Graph) : (s.setGraph g x).rst = s.rst := rfl
@[simp] theorem State.setGraph_fmn (s : State) (g : Nat) (x : Graph) : (s.setGraph g x).fmn = s.fmn := rfl
@[simp] theorem State.setGraph_qch (s : State) (g : Nat) (x : Graph) : (s.setGraph g x).qch = s.qch := rfl
@[simp] theorem State.setGraph_fbcs (s : State) (g : Nat) (x : Graph) : (s.setGraph g x).fbcs = s.fbcs := rfl
@[simp] theorem State.setGraph_queues (s : State) (g : Nat) (x : Graph) : (s.setGraph g x).queues = s.queues := rfl
@[simp] theorem State.setGraph_mem (s : State) (g : Nat) (x : Graph) : (s.setGraph g x).mem = s.mem := rfl
@[simp] theorem State.setGraph_ing (s : State) (g : Nat) (x : Graph) : (s.setGraph g x).ing = s.ing := rfl
@[simp] theorem State.setGraph_eng (s : State) (g : Nat) (x : Graph) : (s.setGraph g x).eng = s.eng := rfl
@[simp] theorem State.setGraph_sch (s : State) (g : Nat) (x : Graph) : (s.setGraph g x).sch = s.sch := rfl
@[simp] theorem State.setGraph_flx (s : State) (g : Nat) (x : Graph) : (s.setGraph g x).flx = s.flx := rfl
@[simp] theorem State.setGraph_spr (s : State) (g : Nat) (x : Graph) : (s.setGraph g x).spr = s.spr := rfl
@[simp] theorem State.setGraph_ckpt (s : State) (g : Nat) (x : Graph) : (s.setGraph g x).ckpt = s.ckpt := rfl
@[simp] theorem State.setGraph_fsu (s : State) (g : Nat) (x : Graph) : (s.setGraph g x).fsu = s.fsu := rfl
@[simp] theorem State.setGraph_disp (s : State) (g : Nat) (x : Graph) : (s.setGraph g x).disp = s.disp := rfl
@[simp] theorem State.setGraph_inp (s : State) (g : Nat) (x : Graph) : (s.setGraph g x).inp = s.inp := rfl
@[simp] theorem State.setGraph_sec (s : State) (g : Nat) (x : Graph) : (s.setGraph g x).sec = s.sec := rfl
@[simp] theorem State.setGraph_jtag (s : State) (g : Nat) (x : Graph) : (s.setGraph g x).jtag = s.jtag := rfl
@[simp] theorem State.setGraph_pins (s : State) (g : Nat) (x : Graph) : (s.setGraph g x).pins = s.pins := rfl
@[simp] theorem State.setInst_pending (s : State) (g : Nat) (i : Inst) : (s.setInst g i).pending = s.pending := rfl
@[simp] theorem State.setInst_free (s : State) (g : Nat) (i : Inst) : (s.setInst g i).free = s.free := rfl
@[simp] theorem State.setInst_rf (s : State) (g : Nat) (i : Inst) : (s.setInst g i).rf = s.rf := rfl
@[simp] theorem State.setInst_bus (s : State) (g : Nat) (i : Inst) : (s.setInst g i).bus = s.bus := rfl
@[simp] theorem State.setInst_aon (s : State) (g : Nat) (i : Inst) : (s.setInst g i).aon = s.aon := rfl
@[simp] theorem State.setInst_baro (s : State) (g : Nat) (i : Inst) : (s.setInst g i).baro = s.baro := rfl
@[simp] theorem State.setInst_clk (s : State) (g : Nat) (i : Inst) : (s.setInst g i).clk = s.clk := rfl
@[simp] theorem State.setInst_rst (s : State) (g : Nat) (i : Inst) : (s.setInst g i).rst = s.rst := rfl
@[simp] theorem State.setInst_fmn (s : State) (g : Nat) (i : Inst) : (s.setInst g i).fmn = s.fmn := rfl
@[simp] theorem State.setInst_qch (s : State) (g : Nat) (i : Inst) : (s.setInst g i).qch = s.qch := rfl
@[simp] theorem State.setInst_fbcs (s : State) (g : Nat) (i : Inst) : (s.setInst g i).fbcs = s.fbcs := rfl
@[simp] theorem State.setInst_queues (s : State) (g : Nat) (i : Inst) : (s.setInst g i).queues = s.queues := rfl
@[simp] theorem State.setInst_mem (s : State) (g : Nat) (i : Inst) : (s.setInst g i).mem = s.mem := rfl
@[simp] theorem State.setInst_ing (s : State) (g : Nat) (i : Inst) : (s.setInst g i).ing = s.ing := rfl
@[simp] theorem State.setInst_eng (s : State) (g : Nat) (i : Inst) : (s.setInst g i).eng = s.eng := rfl
@[simp] theorem State.setInst_sch (s : State) (g : Nat) (i : Inst) : (s.setInst g i).sch = s.sch := rfl
@[simp] theorem State.setInst_flx (s : State) (g : Nat) (i : Inst) : (s.setInst g i).flx = s.flx := rfl
@[simp] theorem State.setInst_spr (s : State) (g : Nat) (i : Inst) : (s.setInst g i).spr = s.spr := rfl
@[simp] theorem State.setInst_ckpt (s : State) (g : Nat) (i : Inst) : (s.setInst g i).ckpt = s.ckpt := rfl
@[simp] theorem State.setInst_fsu (s : State) (g : Nat) (i : Inst) : (s.setInst g i).fsu = s.fsu := rfl
@[simp] theorem State.setInst_disp (s : State) (g : Nat) (i : Inst) : (s.setInst g i).disp = s.disp := rfl
@[simp] theorem State.setInst_inp (s : State) (g : Nat) (i : Inst) : (s.setInst g i).inp = s.inp := rfl
@[simp] theorem State.setInst_sec (s : State) (g : Nat) (i : Inst) : (s.setInst g i).sec = s.sec := rfl
@[simp] theorem State.setInst_jtag (s : State) (g : Nat) (i : Inst) : (s.setInst g i).jtag = s.jtag := rfl
@[simp] theorem State.setInst_pins (s : State) (g : Nat) (i : Inst) : (s.setInst g i).pins = s.pins := rfl
@[simp] theorem State.setEgress_pending (s : State) (e : Nat) (x : Egress) : (s.setEgress e x).pending = s.pending := rfl
@[simp] theorem State.setEgress_free (s : State) (e : Nat) (x : Egress) : (s.setEgress e x).free = s.free := rfl
@[simp] theorem State.setEgress_rf (s : State) (e : Nat) (x : Egress) : (s.setEgress e x).rf = s.rf := rfl
@[simp] theorem State.setEgress_bus (s : State) (e : Nat) (x : Egress) : (s.setEgress e x).bus = s.bus := rfl
@[simp] theorem State.setEgress_aon (s : State) (e : Nat) (x : Egress) : (s.setEgress e x).aon = s.aon := rfl
@[simp] theorem State.setEgress_baro (s : State) (e : Nat) (x : Egress) : (s.setEgress e x).baro = s.baro := rfl
@[simp] theorem State.setEgress_clk (s : State) (e : Nat) (x : Egress) : (s.setEgress e x).clk = s.clk := rfl
@[simp] theorem State.setEgress_rst (s : State) (e : Nat) (x : Egress) : (s.setEgress e x).rst = s.rst := rfl
@[simp] theorem State.setEgress_fmn (s : State) (e : Nat) (x : Egress) : (s.setEgress e x).fmn = s.fmn := rfl
@[simp] theorem State.setEgress_qch (s : State) (e : Nat) (x : Egress) : (s.setEgress e x).qch = s.qch := rfl
@[simp] theorem State.setEgress_fbcs (s : State) (e : Nat) (x : Egress) : (s.setEgress e x).fbcs = s.fbcs := rfl
@[simp] theorem State.setEgress_queues (s : State) (e : Nat) (x : Egress) : (s.setEgress e x).queues = s.queues := rfl
@[simp] theorem State.setEgress_mem (s : State) (e : Nat) (x : Egress) : (s.setEgress e x).mem = s.mem := rfl
@[simp] theorem State.setEgress_ing (s : State) (e : Nat) (x : Egress) : (s.setEgress e x).ing = s.ing := rfl
@[simp] theorem State.setEgress_eng (s : State) (e : Nat) (x : Egress) : (s.setEgress e x).eng = s.eng := rfl
@[simp] theorem State.setEgress_pat (s : State) (e : Nat) (x : Egress) : (s.setEgress e x).pat = s.pat := rfl
@[simp] theorem State.setEgress_sch (s : State) (e : Nat) (x : Egress) : (s.setEgress e x).sch = s.sch := rfl
@[simp] theorem State.setEgress_flx (s : State) (e : Nat) (x : Egress) : (s.setEgress e x).flx = s.flx := rfl
@[simp] theorem State.setEgress_spr (s : State) (e : Nat) (x : Egress) : (s.setEgress e x).spr = s.spr := rfl
@[simp] theorem State.setEgress_ckpt (s : State) (e : Nat) (x : Egress) : (s.setEgress e x).ckpt = s.ckpt := rfl
@[simp] theorem State.setEgress_fsu (s : State) (e : Nat) (x : Egress) : (s.setEgress e x).fsu = s.fsu := rfl
@[simp] theorem State.setEgress_inp (s : State) (e : Nat) (x : Egress) : (s.setEgress e x).inp = s.inp := rfl
@[simp] theorem State.setEgress_sec (s : State) (e : Nat) (x : Egress) : (s.setEgress e x).sec = s.sec := rfl
@[simp] theorem State.setEgress_jtag (s : State) (e : Nat) (x : Egress) : (s.setEgress e x).jtag = s.jtag := rfl
@[simp] theorem State.setEgress_pins (s : State) (e : Nat) (x : Egress) : (s.setEgress e x).pins = s.pins := rfl
@[simp] theorem State.setRegionSlot_pending (s : State) (i : Nat) (x : RegionSlot) : (s.setRegionSlot i x).pending = s.pending := rfl
@[simp] theorem State.setRegionSlot_free (s : State) (i : Nat) (x : RegionSlot) : (s.setRegionSlot i x).free = s.free := rfl
@[simp] theorem State.setRegionSlot_rf (s : State) (i : Nat) (x : RegionSlot) : (s.setRegionSlot i x).rf = s.rf := rfl
@[simp] theorem State.setRegionSlot_bus (s : State) (i : Nat) (x : RegionSlot) : (s.setRegionSlot i x).bus = s.bus := rfl
@[simp] theorem State.setRegionSlot_aon (s : State) (i : Nat) (x : RegionSlot) : (s.setRegionSlot i x).aon = s.aon := rfl
@[simp] theorem State.setRegionSlot_baro (s : State) (i : Nat) (x : RegionSlot) : (s.setRegionSlot i x).baro = s.baro := rfl
@[simp] theorem State.setRegionSlot_clk (s : State) (i : Nat) (x : RegionSlot) : (s.setRegionSlot i x).clk = s.clk := rfl
@[simp] theorem State.setRegionSlot_rst (s : State) (i : Nat) (x : RegionSlot) : (s.setRegionSlot i x).rst = s.rst := rfl
@[simp] theorem State.setRegionSlot_fmn (s : State) (i : Nat) (x : RegionSlot) : (s.setRegionSlot i x).fmn = s.fmn := rfl
@[simp] theorem State.setRegionSlot_qch (s : State) (i : Nat) (x : RegionSlot) : (s.setRegionSlot i x).qch = s.qch := rfl
@[simp] theorem State.setRegionSlot_fbcs (s : State) (i : Nat) (x : RegionSlot) : (s.setRegionSlot i x).fbcs = s.fbcs := rfl
@[simp] theorem State.setRegionSlot_queues (s : State) (i : Nat) (x : RegionSlot) : (s.setRegionSlot i x).queues = s.queues := rfl
@[simp] theorem State.setRegionSlot_mem (s : State) (i : Nat) (x : RegionSlot) : (s.setRegionSlot i x).mem = s.mem := rfl
@[simp] theorem State.setRegionSlot_ing (s : State) (i : Nat) (x : RegionSlot) : (s.setRegionSlot i x).ing = s.ing := rfl
@[simp] theorem State.setRegionSlot_eng (s : State) (i : Nat) (x : RegionSlot) : (s.setRegionSlot i x).eng = s.eng := rfl
@[simp] theorem State.setRegionSlot_pat (s : State) (i : Nat) (x : RegionSlot) : (s.setRegionSlot i x).pat = s.pat := rfl
@[simp] theorem State.setRegionSlot_sch (s : State) (i : Nat) (x : RegionSlot) : (s.setRegionSlot i x).sch = s.sch := rfl
@[simp] theorem State.setRegionSlot_flx (s : State) (i : Nat) (x : RegionSlot) : (s.setRegionSlot i x).flx = s.flx := rfl
@[simp] theorem State.setRegionSlot_spr (s : State) (i : Nat) (x : RegionSlot) : (s.setRegionSlot i x).spr = s.spr := rfl
@[simp] theorem State.setRegionSlot_ckpt (s : State) (i : Nat) (x : RegionSlot) : (s.setRegionSlot i x).ckpt = s.ckpt := rfl
@[simp] theorem State.setRegionSlot_fsu (s : State) (i : Nat) (x : RegionSlot) : (s.setRegionSlot i x).fsu = s.fsu := rfl
@[simp] theorem State.setRegionSlot_inp (s : State) (i : Nat) (x : RegionSlot) : (s.setRegionSlot i x).inp = s.inp := rfl
@[simp] theorem State.setRegionSlot_sec (s : State) (i : Nat) (x : RegionSlot) : (s.setRegionSlot i x).sec = s.sec := rfl
@[simp] theorem State.setRegionSlot_jtag (s : State) (i : Nat) (x : RegionSlot) : (s.setRegionSlot i x).jtag = s.jtag := rfl
@[simp] theorem State.setRegionSlot_pins (s : State) (i : Nat) (x : RegionSlot) : (s.setRegionSlot i x).pins = s.pins := rfl
@[simp] theorem State.setNode_pending (s : State) (a : Nat) (x : Node) : (s.setNode a x).pending = s.pending := rfl
@[simp] theorem State.setNode_free (s : State) (a : Nat) (x : Node) : (s.setNode a x).free = s.free := rfl
@[simp] theorem State.setNode_rf (s : State) (a : Nat) (x : Node) : (s.setNode a x).rf = s.rf := rfl
@[simp] theorem State.setNode_bus (s : State) (a : Nat) (x : Node) : (s.setNode a x).bus = s.bus := rfl
@[simp] theorem State.setNode_aon (s : State) (a : Nat) (x : Node) : (s.setNode a x).aon = s.aon := rfl
@[simp] theorem State.setNode_baro (s : State) (a : Nat) (x : Node) : (s.setNode a x).baro = s.baro := rfl
@[simp] theorem State.setNode_clk (s : State) (a : Nat) (x : Node) : (s.setNode a x).clk = s.clk := rfl
@[simp] theorem State.setNode_rst (s : State) (a : Nat) (x : Node) : (s.setNode a x).rst = s.rst := rfl
@[simp] theorem State.setNode_fmn (s : State) (a : Nat) (x : Node) : (s.setNode a x).fmn = s.fmn := rfl
@[simp] theorem State.setNode_qch (s : State) (a : Nat) (x : Node) : (s.setNode a x).qch = s.qch := rfl
@[simp] theorem State.setNode_fbcs (s : State) (a : Nat) (x : Node) : (s.setNode a x).fbcs = s.fbcs := rfl
@[simp] theorem State.setNode_queues (s : State) (a : Nat) (x : Node) : (s.setNode a x).queues = s.queues := rfl
@[simp] theorem State.setNode_mem (s : State) (a : Nat) (x : Node) : (s.setNode a x).mem = s.mem := rfl
@[simp] theorem State.setNode_ing (s : State) (a : Nat) (x : Node) : (s.setNode a x).ing = s.ing := rfl
@[simp] theorem State.setNode_eng (s : State) (a : Nat) (x : Node) : (s.setNode a x).eng = s.eng := rfl
@[simp] theorem State.setNode_pat (s : State) (a : Nat) (x : Node) : (s.setNode a x).pat = s.pat := rfl
@[simp] theorem State.setNode_sch (s : State) (a : Nat) (x : Node) : (s.setNode a x).sch = s.sch := rfl
@[simp] theorem State.setNode_flx (s : State) (a : Nat) (x : Node) : (s.setNode a x).flx = s.flx := rfl
@[simp] theorem State.setNode_spr (s : State) (a : Nat) (x : Node) : (s.setNode a x).spr = s.spr := rfl
@[simp] theorem State.setNode_ckpt (s : State) (a : Nat) (x : Node) : (s.setNode a x).ckpt = s.ckpt := rfl
@[simp] theorem State.setNode_fsu (s : State) (a : Nat) (x : Node) : (s.setNode a x).fsu = s.fsu := rfl
@[simp] theorem State.setNode_disp (s : State) (a : Nat) (x : Node) : (s.setNode a x).disp = s.disp := rfl
@[simp] theorem State.setNode_sec (s : State) (a : Nat) (x : Node) : (s.setNode a x).sec = s.sec := rfl
@[simp] theorem State.setNode_jtag (s : State) (a : Nat) (x : Node) : (s.setNode a x).jtag = s.jtag := rfl
@[simp] theorem State.setNode_pins (s : State) (a : Nat) (x : Node) : (s.setNode a x).pins = s.pins := rfl
@[simp] theorem State.setBuild_pending (s : State) (b : Build) : (s.setBuild b).pending = s.pending := rfl
@[simp] theorem State.setBuild_free (s : State) (b : Build) : (s.setBuild b).free = s.free := rfl
@[simp] theorem State.setBuild_rf (s : State) (b : Build) : (s.setBuild b).rf = s.rf := rfl
@[simp] theorem State.setBuild_bus (s : State) (b : Build) : (s.setBuild b).bus = s.bus := rfl
@[simp] theorem State.setBuild_aon (s : State) (b : Build) : (s.setBuild b).aon = s.aon := rfl
@[simp] theorem State.setBuild_baro (s : State) (b : Build) : (s.setBuild b).baro = s.baro := rfl
@[simp] theorem State.setBuild_clk (s : State) (b : Build) : (s.setBuild b).clk = s.clk := rfl
@[simp] theorem State.setBuild_rst (s : State) (b : Build) : (s.setBuild b).rst = s.rst := rfl
@[simp] theorem State.setBuild_fmn (s : State) (b : Build) : (s.setBuild b).fmn = s.fmn := rfl
@[simp] theorem State.setBuild_qch (s : State) (b : Build) : (s.setBuild b).qch = s.qch := rfl
@[simp] theorem State.setBuild_fbcs (s : State) (b : Build) : (s.setBuild b).fbcs = s.fbcs := rfl
@[simp] theorem State.setBuild_queues (s : State) (b : Build) : (s.setBuild b).queues = s.queues := rfl
@[simp] theorem State.setBuild_mem (s : State) (b : Build) : (s.setBuild b).mem = s.mem := rfl
@[simp] theorem State.setBuild_ing (s : State) (b : Build) : (s.setBuild b).ing = s.ing := rfl
@[simp] theorem State.setBuild_eng (s : State) (b : Build) : (s.setBuild b).eng = s.eng := rfl
@[simp] theorem State.setBuild_pat (s : State) (b : Build) : (s.setBuild b).pat = s.pat := rfl
@[simp] theorem State.setBuild_sch (s : State) (b : Build) : (s.setBuild b).sch = s.sch := rfl
@[simp] theorem State.setBuild_flx (s : State) (b : Build) : (s.setBuild b).flx = s.flx := rfl
@[simp] theorem State.setBuild_spr (s : State) (b : Build) : (s.setBuild b).spr = s.spr := rfl
@[simp] theorem State.setBuild_ckpt (s : State) (b : Build) : (s.setBuild b).ckpt = s.ckpt := rfl
@[simp] theorem State.setBuild_disp (s : State) (b : Build) : (s.setBuild b).disp = s.disp := rfl
@[simp] theorem State.setBuild_inp (s : State) (b : Build) : (s.setBuild b).inp = s.inp := rfl
@[simp] theorem State.setBuild_sec (s : State) (b : Build) : (s.setBuild b).sec = s.sec := rfl
@[simp] theorem State.setBuild_jtag (s : State) (b : Build) : (s.setBuild b).jtag = s.jtag := rfl
@[simp] theorem State.setBuild_pins (s : State) (b : Build) : (s.setBuild b).pins = s.pins := rfl
@[simp] theorem State.setBank_pending (s : State) (b v : Nat) (wide : Bool) : (s.setBank b v wide).pending = s.pending := rfl
@[simp] theorem State.setBank_free (s : State) (b v : Nat) (wide : Bool) : (s.setBank b v wide).free = s.free := rfl
@[simp] theorem State.setBank_rf (s : State) (b v : Nat) (wide : Bool) : (s.setBank b v wide).rf = s.rf := rfl
@[simp] theorem State.setBank_bus (s : State) (b v : Nat) (wide : Bool) : (s.setBank b v wide).bus = s.bus := rfl
@[simp] theorem State.setBank_aon (s : State) (b v : Nat) (wide : Bool) : (s.setBank b v wide).aon = s.aon := rfl
@[simp] theorem State.setBank_baro (s : State) (b v : Nat) (wide : Bool) : (s.setBank b v wide).baro = s.baro := rfl
@[simp] theorem State.setBank_clk (s : State) (b v : Nat) (wide : Bool) : (s.setBank b v wide).clk = s.clk := rfl
@[simp] theorem State.setBank_rst (s : State) (b v : Nat) (wide : Bool) : (s.setBank b v wide).rst = s.rst := rfl
@[simp] theorem State.setBank_fmn (s : State) (b v : Nat) (wide : Bool) : (s.setBank b v wide).fmn = s.fmn := rfl
@[simp] theorem State.setBank_qch (s : State) (b v : Nat) (wide : Bool) : (s.setBank b v wide).qch = s.qch := rfl
@[simp] theorem State.setBank_fbcs (s : State) (b v : Nat) (wide : Bool) : (s.setBank b v wide).fbcs = s.fbcs := rfl
@[simp] theorem State.setBank_queues (s : State) (b v : Nat) (wide : Bool) : (s.setBank b v wide).queues = s.queues := rfl
@[simp] theorem State.setBank_mem (s : State) (b v : Nat) (wide : Bool) : (s.setBank b v wide).mem = s.mem := rfl
@[simp] theorem State.setBank_ing (s : State) (b v : Nat) (wide : Bool) : (s.setBank b v wide).ing = s.ing := rfl
@[simp] theorem State.setBank_eng (s : State) (b v : Nat) (wide : Bool) : (s.setBank b v wide).eng = s.eng := rfl
@[simp] theorem State.setBank_pat (s : State) (b v : Nat) (wide : Bool) : (s.setBank b v wide).pat = s.pat := rfl
@[simp] theorem State.setBank_sch (s : State) (b v : Nat) (wide : Bool) : (s.setBank b v wide).sch = s.sch := rfl
@[simp] theorem State.setBank_flx (s : State) (b v : Nat) (wide : Bool) : (s.setBank b v wide).flx = s.flx := rfl
@[simp] theorem State.setBank_spr (s : State) (b v : Nat) (wide : Bool) : (s.setBank b v wide).spr = s.spr := rfl
@[simp] theorem State.setBank_ckpt (s : State) (b v : Nat) (wide : Bool) : (s.setBank b v wide).ckpt = s.ckpt := rfl
@[simp] theorem State.setBank_disp (s : State) (b v : Nat) (wide : Bool) : (s.setBank b v wide).disp = s.disp := rfl
@[simp] theorem State.setBank_inp (s : State) (b v : Nat) (wide : Bool) : (s.setBank b v wide).inp = s.inp := rfl
@[simp] theorem State.setBank_sec (s : State) (b v : Nat) (wide : Bool) : (s.setBank b v wide).sec = s.sec := rfl
@[simp] theorem State.setBank_jtag (s : State) (b v : Nat) (wide : Bool) : (s.setBank b v wide).jtag = s.jtag := rfl
@[simp] theorem State.setBank_pins (s : State) (b v : Nat) (wide : Bool) : (s.setBank b v wide).pins = s.pins := rfl
@[simp] theorem State.setMeter_pending (s : State) (k : Nat) (x : Meter) : (s.setMeter k x).pending = s.pending := rfl
@[simp] theorem State.setMeter_free (s : State) (k : Nat) (x : Meter) : (s.setMeter k x).free = s.free := rfl
@[simp] theorem State.setMeter_rf (s : State) (k : Nat) (x : Meter) : (s.setMeter k x).rf = s.rf := rfl
@[simp] theorem State.setMeter_bus (s : State) (k : Nat) (x : Meter) : (s.setMeter k x).bus = s.bus := rfl
@[simp] theorem State.setMeter_aon (s : State) (k : Nat) (x : Meter) : (s.setMeter k x).aon = s.aon := rfl
@[simp] theorem State.setMeter_baro (s : State) (k : Nat) (x : Meter) : (s.setMeter k x).baro = s.baro := rfl
@[simp] theorem State.setMeter_rst (s : State) (k : Nat) (x : Meter) : (s.setMeter k x).rst = s.rst := rfl
@[simp] theorem State.setMeter_fmn (s : State) (k : Nat) (x : Meter) : (s.setMeter k x).fmn = s.fmn := rfl
@[simp] theorem State.setMeter_qch (s : State) (k : Nat) (x : Meter) : (s.setMeter k x).qch = s.qch := rfl
@[simp] theorem State.setMeter_fbcs (s : State) (k : Nat) (x : Meter) : (s.setMeter k x).fbcs = s.fbcs := rfl
@[simp] theorem State.setMeter_queues (s : State) (k : Nat) (x : Meter) : (s.setMeter k x).queues = s.queues := rfl
@[simp] theorem State.setMeter_mem (s : State) (k : Nat) (x : Meter) : (s.setMeter k x).mem = s.mem := rfl
@[simp] theorem State.setMeter_ing (s : State) (k : Nat) (x : Meter) : (s.setMeter k x).ing = s.ing := rfl
@[simp] theorem State.setMeter_eng (s : State) (k : Nat) (x : Meter) : (s.setMeter k x).eng = s.eng := rfl
@[simp] theorem State.setMeter_pat (s : State) (k : Nat) (x : Meter) : (s.setMeter k x).pat = s.pat := rfl
@[simp] theorem State.setMeter_sch (s : State) (k : Nat) (x : Meter) : (s.setMeter k x).sch = s.sch := rfl
@[simp] theorem State.setMeter_flx (s : State) (k : Nat) (x : Meter) : (s.setMeter k x).flx = s.flx := rfl
@[simp] theorem State.setMeter_spr (s : State) (k : Nat) (x : Meter) : (s.setMeter k x).spr = s.spr := rfl
@[simp] theorem State.setMeter_ckpt (s : State) (k : Nat) (x : Meter) : (s.setMeter k x).ckpt = s.ckpt := rfl
@[simp] theorem State.setMeter_fsu (s : State) (k : Nat) (x : Meter) : (s.setMeter k x).fsu = s.fsu := rfl
@[simp] theorem State.setMeter_disp (s : State) (k : Nat) (x : Meter) : (s.setMeter k x).disp = s.disp := rfl
@[simp] theorem State.setMeter_inp (s : State) (k : Nat) (x : Meter) : (s.setMeter k x).inp = s.inp := rfl
@[simp] theorem State.setMeter_sec (s : State) (k : Nat) (x : Meter) : (s.setMeter k x).sec = s.sec := rfl
@[simp] theorem State.setMeter_jtag (s : State) (k : Nat) (x : Meter) : (s.setMeter k x).jtag = s.jtag := rfl
@[simp] theorem State.setMeter_pins (s : State) (k : Nat) (x : Meter) : (s.setMeter k x).pins = s.pins := rfl
@[simp] theorem State.setReady_pending (s : State) (c : Nat) (b : Bool) : (s.setReady c b).pending = s.pending := rfl
@[simp] theorem State.setReady_free (s : State) (c : Nat) (b : Bool) : (s.setReady c b).free = s.free := rfl
@[simp] theorem State.setReady_rf (s : State) (c : Nat) (b : Bool) : (s.setReady c b).rf = s.rf := rfl
@[simp] theorem State.setReady_bus (s : State) (c : Nat) (b : Bool) : (s.setReady c b).bus = s.bus := rfl
@[simp] theorem State.setReady_aon (s : State) (c : Nat) (b : Bool) : (s.setReady c b).aon = s.aon := rfl
@[simp] theorem State.setReady_baro (s : State) (c : Nat) (b : Bool) : (s.setReady c b).baro = s.baro := rfl
@[simp] theorem State.setReady_rst (s : State) (c : Nat) (b : Bool) : (s.setReady c b).rst = s.rst := rfl
@[simp] theorem State.setReady_fmn (s : State) (c : Nat) (b : Bool) : (s.setReady c b).fmn = s.fmn := rfl
@[simp] theorem State.setReady_qch (s : State) (c : Nat) (b : Bool) : (s.setReady c b).qch = s.qch := rfl
@[simp] theorem State.setReady_fbcs (s : State) (c : Nat) (b : Bool) : (s.setReady c b).fbcs = s.fbcs := rfl
@[simp] theorem State.setReady_queues (s : State) (c : Nat) (b : Bool) : (s.setReady c b).queues = s.queues := rfl
@[simp] theorem State.setReady_mem (s : State) (c : Nat) (b : Bool) : (s.setReady c b).mem = s.mem := rfl
@[simp] theorem State.setReady_ing (s : State) (c : Nat) (b : Bool) : (s.setReady c b).ing = s.ing := rfl
@[simp] theorem State.setReady_eng (s : State) (c : Nat) (b : Bool) : (s.setReady c b).eng = s.eng := rfl
@[simp] theorem State.setReady_pat (s : State) (c : Nat) (b : Bool) : (s.setReady c b).pat = s.pat := rfl
@[simp] theorem State.setReady_sch (s : State) (c : Nat) (b : Bool) : (s.setReady c b).sch = s.sch := rfl
@[simp] theorem State.setReady_flx (s : State) (c : Nat) (b : Bool) : (s.setReady c b).flx = s.flx := rfl
@[simp] theorem State.setReady_spr (s : State) (c : Nat) (b : Bool) : (s.setReady c b).spr = s.spr := rfl
@[simp] theorem State.setReady_ckpt (s : State) (c : Nat) (b : Bool) : (s.setReady c b).ckpt = s.ckpt := rfl
@[simp] theorem State.setReady_fsu (s : State) (c : Nat) (b : Bool) : (s.setReady c b).fsu = s.fsu := rfl
@[simp] theorem State.setReady_disp (s : State) (c : Nat) (b : Bool) : (s.setReady c b).disp = s.disp := rfl
@[simp] theorem State.setReady_inp (s : State) (c : Nat) (b : Bool) : (s.setReady c b).inp = s.inp := rfl
@[simp] theorem State.setReady_sec (s : State) (c : Nat) (b : Bool) : (s.setReady c b).sec = s.sec := rfl
@[simp] theorem State.setReady_jtag (s : State) (c : Nat) (b : Bool) : (s.setReady c b).jtag = s.jtag := rfl
@[simp] theorem State.setReady_pins (s : State) (c : Nat) (b : Bool) : (s.setReady c b).pins = s.pins := rfl
@[simp] theorem State.setMsixVec_pending (s : State) (k : Nat) (x : MsixVec) : (s.setMsixVec k x).pending = s.pending := rfl
@[simp] theorem State.setMsixVec_free (s : State) (k : Nat) (x : MsixVec) : (s.setMsixVec k x).free = s.free := rfl
@[simp] theorem State.setMsixVec_rf (s : State) (k : Nat) (x : MsixVec) : (s.setMsixVec k x).rf = s.rf := rfl
@[simp] theorem State.setMsixVec_aon (s : State) (k : Nat) (x : MsixVec) : (s.setMsixVec k x).aon = s.aon := rfl
@[simp] theorem State.setMsixVec_baro (s : State) (k : Nat) (x : MsixVec) : (s.setMsixVec k x).baro = s.baro := rfl
@[simp] theorem State.setMsixVec_clk (s : State) (k : Nat) (x : MsixVec) : (s.setMsixVec k x).clk = s.clk := rfl
@[simp] theorem State.setMsixVec_rst (s : State) (k : Nat) (x : MsixVec) : (s.setMsixVec k x).rst = s.rst := rfl
@[simp] theorem State.setMsixVec_fmn (s : State) (k : Nat) (x : MsixVec) : (s.setMsixVec k x).fmn = s.fmn := rfl
@[simp] theorem State.setMsixVec_qch (s : State) (k : Nat) (x : MsixVec) : (s.setMsixVec k x).qch = s.qch := rfl
@[simp] theorem State.setMsixVec_fbcs (s : State) (k : Nat) (x : MsixVec) : (s.setMsixVec k x).fbcs = s.fbcs := rfl
@[simp] theorem State.setMsixVec_queues (s : State) (k : Nat) (x : MsixVec) : (s.setMsixVec k x).queues = s.queues := rfl
@[simp] theorem State.setMsixVec_mem (s : State) (k : Nat) (x : MsixVec) : (s.setMsixVec k x).mem = s.mem := rfl
@[simp] theorem State.setMsixVec_ing (s : State) (k : Nat) (x : MsixVec) : (s.setMsixVec k x).ing = s.ing := rfl
@[simp] theorem State.setMsixVec_eng (s : State) (k : Nat) (x : MsixVec) : (s.setMsixVec k x).eng = s.eng := rfl
@[simp] theorem State.setMsixVec_pat (s : State) (k : Nat) (x : MsixVec) : (s.setMsixVec k x).pat = s.pat := rfl
@[simp] theorem State.setMsixVec_sch (s : State) (k : Nat) (x : MsixVec) : (s.setMsixVec k x).sch = s.sch := rfl
@[simp] theorem State.setMsixVec_flx (s : State) (k : Nat) (x : MsixVec) : (s.setMsixVec k x).flx = s.flx := rfl
@[simp] theorem State.setMsixVec_spr (s : State) (k : Nat) (x : MsixVec) : (s.setMsixVec k x).spr = s.spr := rfl
@[simp] theorem State.setMsixVec_ckpt (s : State) (k : Nat) (x : MsixVec) : (s.setMsixVec k x).ckpt = s.ckpt := rfl
@[simp] theorem State.setMsixVec_fsu (s : State) (k : Nat) (x : MsixVec) : (s.setMsixVec k x).fsu = s.fsu := rfl
@[simp] theorem State.setMsixVec_disp (s : State) (k : Nat) (x : MsixVec) : (s.setMsixVec k x).disp = s.disp := rfl
@[simp] theorem State.setMsixVec_inp (s : State) (k : Nat) (x : MsixVec) : (s.setMsixVec k x).inp = s.inp := rfl
@[simp] theorem State.setMsixVec_sec (s : State) (k : Nat) (x : MsixVec) : (s.setMsixVec k x).sec = s.sec := rfl
@[simp] theorem State.setMsixVec_jtag (s : State) (k : Nat) (x : MsixVec) : (s.setMsixVec k x).jtag = s.jtag := rfl
@[simp] theorem State.setMsixVec_pins (s : State) (k : Nat) (x : MsixVec) : (s.setMsixVec k x).pins = s.pins := rfl
@[simp] theorem State.setReadData_pending (s : State) (m : Nat) (l : List Byte) (poison : Bool) : (s.setReadData m l poison).pending = s.pending := rfl
@[simp] theorem State.setReadData_free (s : State) (m : Nat) (l : List Byte) (poison : Bool) : (s.setReadData m l poison).free = s.free := rfl
@[simp] theorem State.setReadData_rf (s : State) (m : Nat) (l : List Byte) (poison : Bool) : (s.setReadData m l poison).rf = s.rf := rfl
@[simp] theorem State.setReadData_aon (s : State) (m : Nat) (l : List Byte) (poison : Bool) : (s.setReadData m l poison).aon = s.aon := rfl
@[simp] theorem State.setReadData_baro (s : State) (m : Nat) (l : List Byte) (poison : Bool) : (s.setReadData m l poison).baro = s.baro := rfl
@[simp] theorem State.setReadData_clk (s : State) (m : Nat) (l : List Byte) (poison : Bool) : (s.setReadData m l poison).clk = s.clk := rfl
@[simp] theorem State.setReadData_rst (s : State) (m : Nat) (l : List Byte) (poison : Bool) : (s.setReadData m l poison).rst = s.rst := rfl
@[simp] theorem State.setReadData_fmn (s : State) (m : Nat) (l : List Byte) (poison : Bool) : (s.setReadData m l poison).fmn = s.fmn := rfl
@[simp] theorem State.setReadData_qch (s : State) (m : Nat) (l : List Byte) (poison : Bool) : (s.setReadData m l poison).qch = s.qch := rfl
@[simp] theorem State.setReadData_fbcs (s : State) (m : Nat) (l : List Byte) (poison : Bool) : (s.setReadData m l poison).fbcs = s.fbcs := rfl
@[simp] theorem State.setReadData_queues (s : State) (m : Nat) (l : List Byte) (poison : Bool) : (s.setReadData m l poison).queues = s.queues := rfl
@[simp] theorem State.setReadData_mem (s : State) (m : Nat) (l : List Byte) (poison : Bool) : (s.setReadData m l poison).mem = s.mem := rfl
@[simp] theorem State.setReadData_ing (s : State) (m : Nat) (l : List Byte) (poison : Bool) : (s.setReadData m l poison).ing = s.ing := rfl
@[simp] theorem State.setReadData_eng (s : State) (m : Nat) (l : List Byte) (poison : Bool) : (s.setReadData m l poison).eng = s.eng := rfl
@[simp] theorem State.setReadData_pat (s : State) (m : Nat) (l : List Byte) (poison : Bool) : (s.setReadData m l poison).pat = s.pat := rfl
@[simp] theorem State.setReadData_sch (s : State) (m : Nat) (l : List Byte) (poison : Bool) : (s.setReadData m l poison).sch = s.sch := rfl
@[simp] theorem State.setReadData_flx (s : State) (m : Nat) (l : List Byte) (poison : Bool) : (s.setReadData m l poison).flx = s.flx := rfl
@[simp] theorem State.setReadData_spr (s : State) (m : Nat) (l : List Byte) (poison : Bool) : (s.setReadData m l poison).spr = s.spr := rfl
@[simp] theorem State.setReadData_ckpt (s : State) (m : Nat) (l : List Byte) (poison : Bool) : (s.setReadData m l poison).ckpt = s.ckpt := rfl
@[simp] theorem State.setReadData_fsu (s : State) (m : Nat) (l : List Byte) (poison : Bool) : (s.setReadData m l poison).fsu = s.fsu := rfl
@[simp] theorem State.setReadData_disp (s : State) (m : Nat) (l : List Byte) (poison : Bool) : (s.setReadData m l poison).disp = s.disp := rfl
@[simp] theorem State.setReadData_inp (s : State) (m : Nat) (l : List Byte) (poison : Bool) : (s.setReadData m l poison).inp = s.inp := rfl
@[simp] theorem State.setReadData_sec (s : State) (m : Nat) (l : List Byte) (poison : Bool) : (s.setReadData m l poison).sec = s.sec := rfl
@[simp] theorem State.setReadData_jtag (s : State) (m : Nat) (l : List Byte) (poison : Bool) : (s.setReadData m l poison).jtag = s.jtag := rfl
@[simp] theorem State.setReadData_pins (s : State) (m : Nat) (l : List Byte) (poison : Bool) : (s.setReadData m l poison).pins = s.pins := rfl
@[simp] theorem State.setParity_pending (s : State) (b off v : Nat) : (s.setParity b off v).pending = s.pending := rfl
@[simp] theorem State.setParity_free (s : State) (b off v : Nat) : (s.setParity b off v).free = s.free := rfl
@[simp] theorem State.setParity_bus (s : State) (b off v : Nat) : (s.setParity b off v).bus = s.bus := rfl
@[simp] theorem State.setParity_aon (s : State) (b off v : Nat) : (s.setParity b off v).aon = s.aon := rfl
@[simp] theorem State.setParity_baro (s : State) (b off v : Nat) : (s.setParity b off v).baro = s.baro := rfl
@[simp] theorem State.setParity_clk (s : State) (b off v : Nat) : (s.setParity b off v).clk = s.clk := rfl
@[simp] theorem State.setParity_rst (s : State) (b off v : Nat) : (s.setParity b off v).rst = s.rst := rfl
@[simp] theorem State.setParity_fmn (s : State) (b off v : Nat) : (s.setParity b off v).fmn = s.fmn := rfl
@[simp] theorem State.setParity_qch (s : State) (b off v : Nat) : (s.setParity b off v).qch = s.qch := rfl
@[simp] theorem State.setParity_fbcs (s : State) (b off v : Nat) : (s.setParity b off v).fbcs = s.fbcs := rfl
@[simp] theorem State.setParity_queues (s : State) (b off v : Nat) : (s.setParity b off v).queues = s.queues := rfl
@[simp] theorem State.setParity_mem (s : State) (b off v : Nat) : (s.setParity b off v).mem = s.mem := rfl
@[simp] theorem State.setParity_ing (s : State) (b off v : Nat) : (s.setParity b off v).ing = s.ing := rfl
@[simp] theorem State.setParity_eng (s : State) (b off v : Nat) : (s.setParity b off v).eng = s.eng := rfl
@[simp] theorem State.setParity_pat (s : State) (b off v : Nat) : (s.setParity b off v).pat = s.pat := rfl
@[simp] theorem State.setParity_sch (s : State) (b off v : Nat) : (s.setParity b off v).sch = s.sch := rfl
@[simp] theorem State.setParity_flx (s : State) (b off v : Nat) : (s.setParity b off v).flx = s.flx := rfl
@[simp] theorem State.setParity_spr (s : State) (b off v : Nat) : (s.setParity b off v).spr = s.spr := rfl
@[simp] theorem State.setParity_ckpt (s : State) (b off v : Nat) : (s.setParity b off v).ckpt = s.ckpt := rfl
@[simp] theorem State.setParity_fsu (s : State) (b off v : Nat) : (s.setParity b off v).fsu = s.fsu := rfl
@[simp] theorem State.setParity_disp (s : State) (b off v : Nat) : (s.setParity b off v).disp = s.disp := rfl
@[simp] theorem State.setParity_inp (s : State) (b off v : Nat) : (s.setParity b off v).inp = s.inp := rfl
@[simp] theorem State.setParity_sec (s : State) (b off v : Nat) : (s.setParity b off v).sec = s.sec := rfl
@[simp] theorem State.setParity_jtag (s : State) (b off v : Nat) : (s.setParity b off v).jtag = s.jtag := rfl
@[simp] theorem State.setParity_pins (s : State) (b off v : Nat) : (s.setParity b off v).pins = s.pins := rfl
@[simp] theorem State.setVset_pending (s : State) (p : Nat) : (s.setVset p).pending = s.pending := rfl
@[simp] theorem State.setVset_free (s : State) (p : Nat) : (s.setVset p).free = s.free := rfl
@[simp] theorem State.setVset_rf (s : State) (p : Nat) : (s.setVset p).rf = s.rf := rfl
@[simp] theorem State.setVset_bus (s : State) (p : Nat) : (s.setVset p).bus = s.bus := rfl
@[simp] theorem State.setVset_aon (s : State) (p : Nat) : (s.setVset p).aon = s.aon := rfl
@[simp] theorem State.setVset_baro (s : State) (p : Nat) : (s.setVset p).baro = s.baro := rfl
@[simp] theorem State.setVset_clk (s : State) (p : Nat) : (s.setVset p).clk = s.clk := rfl
@[simp] theorem State.setVset_rst (s : State) (p : Nat) : (s.setVset p).rst = s.rst := rfl
@[simp] theorem State.setVset_fmn (s : State) (p : Nat) : (s.setVset p).fmn = s.fmn := rfl
@[simp] theorem State.setVset_qch (s : State) (p : Nat) : (s.setVset p).qch = s.qch := rfl
@[simp] theorem State.setVset_fbcs (s : State) (p : Nat) : (s.setVset p).fbcs = s.fbcs := rfl
@[simp] theorem State.setVset_queues (s : State) (p : Nat) : (s.setVset p).queues = s.queues := rfl
@[simp] theorem State.setVset_mem (s : State) (p : Nat) : (s.setVset p).mem = s.mem := rfl
@[simp] theorem State.setVset_ing (s : State) (p : Nat) : (s.setVset p).ing = s.ing := rfl
@[simp] theorem State.setVset_eng (s : State) (p : Nat) : (s.setVset p).eng = s.eng := rfl
@[simp] theorem State.setVset_pat (s : State) (p : Nat) : (s.setVset p).pat = s.pat := rfl
@[simp] theorem State.setVset_sch (s : State) (p : Nat) : (s.setVset p).sch = s.sch := rfl
@[simp] theorem State.setVset_flx (s : State) (p : Nat) : (s.setVset p).flx = s.flx := rfl
@[simp] theorem State.setVset_spr (s : State) (p : Nat) : (s.setVset p).spr = s.spr := rfl
@[simp] theorem State.setVset_ckpt (s : State) (p : Nat) : (s.setVset p).ckpt = s.ckpt := rfl
@[simp] theorem State.setVset_fsu (s : State) (p : Nat) : (s.setVset p).fsu = s.fsu := rfl
@[simp] theorem State.setVset_disp (s : State) (p : Nat) : (s.setVset p).disp = s.disp := rfl
@[simp] theorem State.setVset_inp (s : State) (p : Nat) : (s.setVset p).inp = s.inp := rfl
@[simp] theorem State.setVset_sec (s : State) (p : Nat) : (s.setVset p).sec = s.sec := rfl
@[simp] theorem State.setVset_jtag (s : State) (p : Nat) : (s.setVset p).jtag = s.jtag := rfl

end Sys2Proof.Machine
end

