-- ==== Sys2Proof/Laws/Finish.lean ====
section
/-! SUPPORT. Sys2Proof/Laws/Finish.lean: how every step ends: the trip of Quench, which leaves it not ARMED wherever a
cause is present, and the MSI-X messages made due. -/
namespace Sys2Proof.Machine
open Sys2Proof

/-! ## The trip of Quench -/

/-- What a trip and its round of frames may change: the register store, event counters, the controllers' dedicated
requests, and Quench itself. -/
def TripFrame (s t : State) : Prop :=
  t = { s with rf := { s.rf with store := t.rf.store, evc := t.rf.evc }, fbcs := t.fbcs, qch := t.qch }

theorem TripFrame.refl (s : State) : TripFrame s s := rfl
theorem TripFrame.trans {s t u : State} (h : TripFrame s t) (k : TripFrame t u) : TripFrame s u := by
  unfold TripFrame at *; rw [k, h]
theorem TripFrame.foldl {α : Type} {f : State → α → State} (h : ∀ s a, TripFrame s (f s a)) (l : List α) (s : State) :
    TripFrame s (l.foldl f s) := by
  induction l generalizing s with
  | nil => exact TripFrame.refl s
  | cons a l ih => exact (h s a).trans (ih _)
theorem TripFrame.setReg (s : State) (b o : Nat) (v : Word) : TripFrame s (s.setReg b o v) := rfl
theorem TripFrame.setPair (s : State) (b o v : Nat) : TripFrame s (s.setPair b o v) := rfl
theorem TripFrame.bump (s : State) (b j : Nat) : TripFrame s (s.bump b j) := rfl
theorem TripFrame.setFbc (s : State) (k : Nat) (x : Fbc) : TripFrame s (s.setFbc k x) := rfl
theorem TripFrame.setQch (s : State) (q : Qch) : TripFrame s { s with qch := q } := rfl
theorem TripFrame.setMsgBuf (s : State) (k b : Nat) (f : CanFrame) (ts : Nat) : TripFrame s (s.setMsgBuf k b f ts) := by
  unfold State.setMsgBuf
  extract_lets o flags s1 s2 s3
  have h1 : TripFrame s s1 := TripFrame.setReg s _ _ _
  have h2 : TripFrame s1 s2 := TripFrame.setReg s1 _ _ _
  have h3 : TripFrame s2 s3 := TripFrame.setPair s2 _ _ _
  exact h1.trans (h2.trans (h3.trans (TripFrame.foldl (fun s _ => TripFrame.setReg s _ _ _) _ _)))
theorem TripFrame.sendSafety (s : State) (k cmd cause tbn : Nat) : TripFrame s (s.sendSafety k cmd cause tbn) := by
  unfold State.sendSafety
  extract_lets s1 f s2
  have h1 : TripFrame s s1 := TripFrame.setMsgBuf s _ _ _ _
  have h2 : TripFrame s1 s2 := TripFrame.setFbc s1 _ _
  split
  · exact h1.trans (h2.trans (TripFrame.setQch s2 _))
  · exact h1.trans h2
theorem TripFrame.safetyRound (s : State) (cmd cause tbn : Nat) : TripFrame s (s.safetyRound cmd cause tbn) := by
  unfold State.safetyRound
  extract_lets s1
  have h1 : TripFrame s s1 := TripFrame.foldl (fun s k => by
    split
    · exact TripFrame.sendSafety s k cmd cause tbn
    · exact TripFrame.refl s) _ s
  exact h1.trans (TripFrame.setQch s1 _)
theorem TripFrame.trip (s : State) (present : Nat) : TripFrame s (s.trip present) := by
  unfold State.trip
  dsimp only
  exact ((((TripFrame.setReg s _ _ _).trans (TripFrame.setPair _ _ _ _)).trans (TripFrame.bump _ _ _)).trans
    (TripFrame.setQch _ _)).trans (TripFrame.safetyRound _ _ _ _)
theorem TripFrame.tripDue (s : State) : TripFrame s s.tripDue := by
  unfold State.tripDue; split
  · exact TripFrame.trip s _
  · exact TripFrame.refl s

/-- A round of STOP or CLEAR frames leaves the state of Quench. -/
theorem State.writes_qch (b : Blk) (f : Nat → Nat × Word) (l : List Nat) (s : State) :
    (l.foldl (fun s w => s.setReg b (f w).1 (f w).2) s).qch = s.qch := by
  induction l generalizing s with
  | nil => rfl
  | cons a l ih => exact (ih _).trans (State.setReg_qch s _ _ _)
theorem State.setMsgBuf_qch (s : State) (k b : Nat) (f : CanFrame) (ts : Nat) : (s.setMsgBuf k b f ts).qch = s.qch := by
  unfold State.setMsgBuf
  extract_lets o flags s1 s2 s3
  refine (State.writes_qch (fbcBlk k) (fun w => (o + 0x10 + 4 * w, BitVec.ofNat 32 (bytesAt f.data (4 * w) 4))) _ s3).trans ?_
  exact ((State.setPair_qch s2 _ _ _).trans (State.setReg_qch s1 _ _ _)).trans (State.setReg_qch s _ _ _)
theorem State.sendSafety_st (s : State) (k cmd cause tbn : Nat) : (s.sendSafety k cmd cause tbn).qch.st = s.qch.st := by
  unfold State.sendSafety
  extract_lets s1 f s2
  have h : s2.qch = s.qch := (State.setFbc_qch s1 _ _).trans (State.setMsgBuf_qch s _ _ _ _)
  split
  · exact (rfl : _ = s2.qch.st).trans (congrArg Qch.st h)
  · exact congrArg Qch.st h
theorem State.safetyRound_st (s : State) (cmd cause tbn : Nat) : (s.safetyRound cmd cause tbn).qch.st = s.qch.st := by
  unfold State.safetyRound
  extract_lets s1
  show s1.qch.st = s.qch.st
  have h : ∀ (l : List Nat) (s : State), (l.foldl (fun s k =>
      if bit s.stopSegs k && s.fbcSends k then s.sendSafety k cmd cause tbn else s) s).qch.st = s.qch.st := by
    intro l
    induction l with
    | nil => intro s; rfl
    | cons a l ih =>
      intro s
      refine (ih _).trans ?_
      dsimp only
      split
      · exact State.sendSafety_st s a cmd cause tbn
      · rfl
  exact h _ s
/-- A trip leaves Quench TRIPPED. -/
theorem State.trip_st (s : State) (present : Nat) : (s.trip present).qch.st = .tripped := by
  unfold State.trip
  dsimp only
  exact State.safetyRound_st _ _ _ _

/-- With no cause present while ARMED nothing more happens. -/
theorem State.tripDue_quiet {s : State} (h : s.qch.st = .armed → s.causes = 0) : s.tripDue = s := by
  unfold State.tripDue
  by_cases ha : s.qch.st = .armed
  · simp [ha, h ha]
  · simp [ha]

/-- The causes depend on Quench's own state, its configuration registers and whether INP is halted. -/
theorem State.causes_congr {s t : State} (hq : t.qch = s.qch) (hr : ∀ o, t.reg Blk.qch o = s.reg Blk.qch o)
    (hh : t.isHalted Blk.inp = s.isHalted Blk.inp) : t.causes = s.causes := by
  have e1 : ∀ o, t.qMask o = s.qMask o := fun o => by simp only [State.qMask, hr]
  have e2 : ∀ o, t.qEnv o = s.qEnv o := fun o => by simp only [State.qEnv, hr]
  have e3 : ∀ i, t.matcher i = s.matcher i := fun i => by simp only [State.matcher, hq]
  have e4 : ∀ i, t.sector i = s.sector i := fun i => by simp only [State.sector, hq]
  have e5 : ∀ v, t.brakeDist v = s.brakeDist v := fun v => by
    simp only [State.brakeDist, State.qDMargin, State.qAMin, State.qTReact, e2]
  have e6 : ∀ f, t.speedMax f = s.speedMax f := fun f => by
    simp only [State.speedMax, State.matcherKind, e1, e3]; congr!
  have e7 : ∀ f i, t.dropAt f i = s.dropAt f i := fun f i => by
    simp only [State.dropAt, State.fwdMask, State.revMask, State.qMask16, State.qVIdle, State.vF, State.vR, State.dF,
      State.dR, e1, e2, e4, e5, e6]
    congr!
  have e8 : ∀ f i, t.unknownAt f i = s.unknownAt f i := fun f i => by
    simp only [State.unknownAt, State.fwdMask, State.revMask, State.unknownTrip, State.qMask16, State.qVIdle, State.vF,
      State.vR, e1, e2, e4, e6]
    congr!
  have e9 : t.cliffAt = s.cliffAt := by
    funext b i; simp only [State.cliffAt, State.matcherKind, e1, e3]
  have e10 : ∀ c, t.causeWhere c = s.causeWhere c := fun c => by
    simp only [State.causeWhere, State.cliffEn, State.matcherKind, e1, e3, e7, e8, e9, hq]
  have e11 : ∀ c, t.causeNow c = s.causeNow c := fun c => by
    simp only [State.causeNow, e10, hq, hh]
  simp only [State.causes, e11]

/-! ## The end of a step -/

/-- What the end of a step may change besides the trip: the messages due. -/
theorem latchRises_eq (s0 s : State) : latchRises s0 s = { s with rf.msixDue := (latchRises s0 s).rf.msixDue } := rfl

theorem finish_frame (s0 s : State) :
    finish s0 s =
      { s with
        rf := { s.rf with
          store := (finish s0 s).rf.store, evc := (finish s0 s).rf.evc, msixDue := (finish s0 s).rf.msixDue }
        fbcs := (finish s0 s).fbcs, qch := (finish s0 s).qch } := by
  have h := TripFrame.tripDue s
  unfold TripFrame at h
  unfold finish latchRises
  rw [h]

/-- A step that leaves no cause present while ARMED ends with no more than the messages due. -/
theorem finish_quiet (s0 : State) {s : State} (h : s.qch.st = .armed → s.causes = 0) :
    finish s0 s = { s with rf.msixDue := (finish s0 s).rf.msixDue } := by
  unfold finish; rw [State.tripDue_quiet h]; rfl

theorem done_eq (s0 s : State) : done s0 s = .next (finish s0 s) := rfl

/-! ## The fields that the end of a step leaves -/

@[simp] theorem finish_pending (s0 s : State) : (finish s0 s).pending = s.pending := by rw [finish_frame]
@[simp] theorem finish_free (s0 s : State) : (finish s0 s).free = s.free := by rw [finish_frame]
@[simp] theorem finish_bus (s0 s : State) : (finish s0 s).bus = s.bus := by rw [finish_frame]
@[simp] theorem finish_aon (s0 s : State) : (finish s0 s).aon = s.aon := by rw [finish_frame]
@[simp] theorem finish_baro (s0 s : State) : (finish s0 s).baro = s.baro := by rw [finish_frame]
@[simp] theorem finish_clk (s0 s : State) : (finish s0 s).clk = s.clk := by rw [finish_frame]
@[simp] theorem finish_rst (s0 s : State) : (finish s0 s).rst = s.rst := by rw [finish_frame]
@[simp] theorem finish_fmn (s0 s : State) : (finish s0 s).fmn = s.fmn := by rw [finish_frame]
@[simp] theorem finish_queues (s0 s : State) : (finish s0 s).queues = s.queues := by rw [finish_frame]
@[simp] theorem finish_mem (s0 s : State) : (finish s0 s).mem = s.mem := by rw [finish_frame]
@[simp] theorem finish_ing (s0 s : State) : (finish s0 s).ing = s.ing := by rw [finish_frame]
@[simp] theorem finish_eng (s0 s : State) : (finish s0 s).eng = s.eng := by rw [finish_frame]
@[simp] theorem finish_pat (s0 s : State) : (finish s0 s).pat = s.pat := by rw [finish_frame]
@[simp] theorem finish_sch (s0 s : State) : (finish s0 s).sch = s.sch := by rw [finish_frame]
@[simp] theorem finish_flx (s0 s : State) : (finish s0 s).flx = s.flx := by rw [finish_frame]
@[simp] theorem finish_spr (s0 s : State) : (finish s0 s).spr = s.spr := by rw [finish_frame]
@[simp] theorem finish_ckpt (s0 s : State) : (finish s0 s).ckpt = s.ckpt := by rw [finish_frame]
@[simp] theorem finish_fsu (s0 s : State) : (finish s0 s).fsu = s.fsu := by rw [finish_frame]
@[simp] theorem finish_disp (s0 s : State) : (finish s0 s).disp = s.disp := by rw [finish_frame]
@[simp] theorem finish_inp (s0 s : State) : (finish s0 s).inp = s.inp := by rw [finish_frame]
@[simp] theorem finish_sec (s0 s : State) : (finish s0 s).sec = s.sec := by rw [finish_frame]
@[simp] theorem finish_jtag (s0 s : State) : (finish s0 s).jtag = s.jtag := by rw [finish_frame]
@[simp] theorem finish_pins (s0 s : State) : (finish s0 s).pins = s.pins := by rw [finish_frame]
@[simp] theorem finish_rf_ack (s0 s : State) : (finish s0 s).rf.ack = s.rf.ack := by rw [finish_frame]
@[simp] theorem finish_rf_held (s0 s : State) : (finish s0 s).rf.held = s.rf.held := by rw [finish_frame]
@[simp] theorem finish_rf_snapSeq (s0 s : State) : (finish s0 s).rf.snapSeq = s.rf.snapSeq := by rw [finish_frame]
@[simp] theorem finish_rf_rdShadow (s0 s : State) : (finish s0 s).rf.rdShadow = s.rf.rdShadow := by rw [finish_frame]
@[simp] theorem finish_rf_wrShadow (s0 s : State) : (finish s0 s).rf.wrShadow = s.rf.wrShadow := by rw [finish_frame]
@[simp] theorem finish_rf_parityBad (s0 s : State) : (finish s0 s).rf.parityBad = s.rf.parityBad := by rw [finish_frame]
@[simp] theorem finish_rf_halted (s0 s : State) : (finish s0 s).rf.halted = s.rf.halted := by rw [finish_frame]
@[simp] theorem finish_rf_haltTimes (s0 s : State) : (finish s0 s).rf.haltTimes = s.rf.haltTimes := by rw [finish_frame]
@[simp] theorem finish_rf_haltCtxs (s0 s : State) : (finish s0 s).rf.haltCtxs = s.rf.haltCtxs := by rw [finish_frame]
@[simp] theorem finish_rf_leftHalted (s0 s : State) : (finish s0 s).rf.leftHalted = s.rf.leftHalted := by rw [finish_frame]

/-- The register frames that a trip writes: QCH and the field-bus controllers. -/
def tripBlk (b : Nat) : Prop := b = 27 ∨ (22 ≤ b ∧ b ≤ 25)

/-- The registers of the other frames, and the other events, read as before. -/
def TripReads (s t : State) : Prop :=
  (∀ b o : Nat, o < 0x10000 → ¬tripBlk b → t.reg b o = s.reg b o) ∧
    (∀ b j : Nat, j < 32 → ¬(b = 27 ∧ j = 2) → t.evc b j = s.evc b j)

theorem TripReads.refl (s : State) : TripReads s s := ⟨fun _ _ _ _ => rfl, fun _ _ _ _ => rfl⟩
theorem TripReads.trans {s t u : State} (h : TripReads s t) (k : TripReads t u) : TripReads s u :=
  ⟨fun b o ho hb => (k.1 b o ho hb).trans (h.1 b o ho hb), fun b j hj hb => (k.2 b j hj hb).trans (h.2 b j hj hb)⟩
theorem TripReads.foldl {α : Type} {f : State → α → State} {l : List α} (h : ∀ s, ∀ a ∈ l, TripReads s (f s a)) (s : State) :
    TripReads s (l.foldl f s) := by
  induction l generalizing s with
  | nil => exact TripReads.refl s
  | cons a l ih =>
    exact (h s a (List.mem_cons_self ..)).trans (ih (fun s b hb => h s b (List.mem_cons_of_mem _ hb)) _)
theorem TripReads.setReg (s : State) {b o : Nat} (v : Word) (hb : tripBlk b) (ho : o < 0x10000) : TripReads s (s.setReg b o v) := by
  refine ⟨fun b' o' ho' hb' => State.reg_setReg_ne s v ?_, fun _ _ _ _ => rfl⟩
  rw [Ne, regKey_inj ho' ho]
  rintro ⟨rfl, _⟩; exact hb' hb
theorem TripReads.setPair (s : State) {b o : Nat} (v : Nat) (hb : tripBlk b) (ho : o + 4 < 0x10000) : TripReads s (s.setPair b o v) :=
  (TripReads.setReg s _ hb (by omega)).trans (TripReads.setReg _ _ hb ho)
theorem TripReads.setFbc (s : State) (k : Nat) (x : Fbc) : TripReads s (s.setFbc k x) := TripReads.refl s
theorem TripReads.setQch (s : State) (q : Qch) : TripReads s { s with qch := q } := TripReads.refl s
theorem TripReads.bumpTrip (s : State) : TripReads s (s.bump Blk.qch 2) := by
  refine ⟨fun _ _ _ _ => rfl, fun b j hj hb => ?_⟩
  rw [State.bump, State.evc_bumpBy, if_neg]
  intro h; apply hb
  replace h : 32 * b + j = 32 * 27 + 2 := h
  omega
theorem TripReads.setMsgBuf (s : State) {k : Nat} (hk : k < 4) (f : CanFrame) (ts : Nat) : TripReads s (s.setMsgBuf k 0 f ts) := by
  have hb : tripBlk (fbcBlk k) := by
    show 22 + k = 27 ∨ (22 ≤ 22 + k ∧ 22 + k ≤ 25); omega
  unfold State.setMsgBuf
  extract_lets o flags s1 s2 s3
  have ho : o = 0x1000 := rfl
  have h1 : TripReads s s1 := TripReads.setReg s _ hb (by omega)
  have h2 : TripReads s1 s2 := TripReads.setReg s1 _ hb (by omega)
  have h3 : TripReads s2 s3 := TripReads.setPair s2 _ hb (by omega)
  refine h1.trans (h2.trans (h3.trans (TripReads.foldl (fun s w hw => TripReads.setReg s _ hb ?_) _)))
  have := List.mem_range.1 hw
  omega
theorem TripReads.sendSafety (s : State) {k : Nat} (hk : k < 4) (cmd cause tbn : Nat) : TripReads s (s.sendSafety k cmd cause tbn) := by
  unfold State.sendSafety
  extract_lets s1 f s2
  have h1 : TripReads s s1 := TripReads.setMsgBuf s hk _ _
  have h2 : TripReads s1 s2 := TripReads.setFbc s1 _ _
  split
  · exact h1.trans (h2.trans (TripReads.setQch s2 _))
  · exact h1.trans h2
theorem TripReads.safetyRound (s : State) (cmd cause tbn : Nat) : TripReads s (s.safetyRound cmd cause tbn) := by
  unfold State.safetyRound
  extract_lets s1
  have h1 : TripReads s s1 := TripReads.foldl (fun s k hk => by
    split
    · exact TripReads.sendSafety s (List.mem_range.1 hk) cmd cause tbn
    · exact TripReads.refl s) s
  exact h1.trans (TripReads.setQch s1 _)
theorem TripReads.trip (s : State) (present : Nat) : TripReads s (s.trip present) := by
  have hb : tripBlk Blk.qch := Or.inl rfl
  unfold State.trip
  dsimp only
  exact ((((TripReads.setReg s _ hb (by omega)).trans (TripReads.setPair _ _ hb (by omega))).trans
    (TripReads.bumpTrip _)).trans (TripReads.setQch _ _)).trans (TripReads.safetyRound _ _ _ _)
theorem TripReads.finish (s0 s : State) : TripReads s (finish s0 s) := by
  have h : TripReads s s.tripDue := by
    unfold State.tripDue; split
    · exact TripReads.trip s _
    · exact TripReads.refl s
  exact ⟨h.1, h.2⟩

/-- A register of any other frame reads as the command left it. -/
theorem finish_reg (s0 s : State) {b o : Nat} (ho : o < 0x10000) (hb : ¬tripBlk b) : (finish s0 s).reg b o = s.reg b o :=
  (TripReads.finish s0 s).1 b o ho hb
/-- Any event but Quench's TRIP counts as the command left it. -/
theorem finish_evc (s0 s : State) {b j : Nat} (hj : j < 32) (hb : ¬(b = 27 ∧ j = 2)) : (finish s0 s).evc b j = s.evc b j :=
  (TripReads.finish s0 s).2 b j hj hb

/-- How a command whose meaning ends in `done` is shown to answer. -/
theorem yields_done {i : Instr} {s s' : State} {P : State → Prop} (h : exec i s = done s s') (hp : P (finish s s')) :
    Yields i s P := ⟨_, h, hp⟩

/-! ## Frames -/

theorem blk_cases (b : Nat) (h1 : 22 ≤ b) (h2 : b ≤ 25) : b = 22 ∨ b = 23 ∨ b = 24 ∨ b = 25 := by omega
/-- A step whose meaning leaves the parts outside l ends with them left. -/
theorem frame_finish {l : List StatePart} {s s' : State} (h : Frame l s s') : Frame l s (finish s s') := by
  intro p hp hq
  have k := h p hp hq
  cases p with
  | regs b =>
    have hb : ¬tripBlk b := by
      rintro (rfl | ⟨h1, h2⟩)
      · exact hq (by decide)
      · obtain h | h | h | h := blk_cases b h1 h2
        all_goals (cases h; exact hq (by decide))
    refine ⟨fun o ho => (finish_reg s s' ho hb).trans (k.1 o ho), fun j hj => ⟨(finish_evc s s' hj ?_).trans (k.2 j hj).1, ?_⟩⟩
    · rintro ⟨rfl, -⟩; exact hb (Or.inl rfl)
    · exact (k.2 j hj).2 ▸ (by unfold State.ackOf; rw [finish_rf_ack])
  | qch => exact absurd (by decide) hq
  | fbcs => exact absurd (by decide) hq
  | halts => simpa [StatePart.same] using k
  | copies => simpa [StatePart.same] using k
  | _ => simpa [StatePart.same] using k

/-- A frame passes on to a longer list of parts. -/
theorem Frame.mono {l l' : List StatePart} {s t : State} (h : Frame l s t) (hl : ∀ p ∈ l, p ∈ l') : Frame l' s t :=
  fun p hp hq => h p (fun hm => hp (hl p hm)) hq
theorem Frame.refl (l : List StatePart) (s : State) : Frame l s s := by
  intro p _ _; cases p <;> simp [StatePart.same]
theorem Frame.trans {l : List StatePart} {s t u : State} (h : Frame l s t) (k : Frame l t u) : Frame l s u := by
  intro p hp hq
  have a := h p hp hq
  have b := k p hp hq
  cases p with
  | regs n => exact ⟨fun o ho => (b.1 o ho).trans (a.1 o ho), fun j hj => ⟨(b.2 j hj).1.trans (a.2 j hj).1, (b.2 j hj).2.trans (a.2 j hj).2⟩⟩
  | halts => exact ⟨b.1.trans a.1, b.2.1.trans a.2.1, b.2.2.1.trans a.2.2.1, b.2.2.2.trans a.2.2.2⟩
  | copies => exact ⟨b.1.trans a.1, b.2.1.trans a.2.1, b.2.2.trans a.2.2⟩
  | _ => exact Eq.trans b a

end Sys2Proof.Machine
end

