-- ==== Sys2Proof/Laws/Mailbox.lean ====
section
/-! SUPPORT. Sys2Proof/Laws/Mailbox.lean: what the shared operation of a mailbox command can do, and what an answer changes. -/
namespace Sys2Proof.Machine
open Sys2Proof

/-- Where its request is accepted the command has its effect. -/
theorem State.command_accepts {s : State} {m opcode : Nat} {lenOk : Bool} {checks : List (Nat × Bool)} (f : State → State)
    (h : s.accepts m opcode lenOk checks) : s.command m opcode lenOk checks f = f s := by
  obtain ⟨h1, h2, h3, h4, h5, h6, h7, h8⟩ := h
  simp [State.command, h1, h2, h3, h4, h5, h6, h7, h8]
/-- The same for a command whose payload is checked field by field. -/
theorem State.request_asks {s : State} {m opcode span : Nat} {fields : List (Nat × Nat × Bool)} (f : State → State)
    (h : s.asks m opcode span fields) : s.request m opcode span fields f = f s := State.command_accepts f h
/-- Everything a mailbox command can do: nothing where its turn has not come, a refusal with BAD_ARGUMENT, BUSY or NO_RESOURCE, or
its effect. -/
theorem State.command_cases (s : State) (m opcode : Nat) (lenOk : Bool) (checks : List (Nat × Bool)) (f : State → State) :
    s.command m opcode lenOk checks f = s ∨ (∃ o, s.command m opcode lenOk checks f = s.refuse m rBadArgument o) ∨
      s.command m opcode lenOk checks f = s.refuse m rBusy 0 ∨ s.command m opcode lenOk checks f = s.refuse m rNoResource 0 ∨
      (s.accepts m opcode lenOk checks ∧ s.command m opcode lenOk checks f = f s) := by
  unfold State.command
  dsimp only
  split
  · rename_i h
    split
    · rename_i o _; exact .inr (.inl ⟨o, rfl⟩)
    · rename_i hb
      split
      · exact .inr (.inr (.inl rfl))
      · rename_i hl
        split
        · exact .inr (.inr (.inr (.inl rfl)))
        · rename_i hc
          exact .inr (.inr (.inr (.inr ⟨⟨h.1, by simpa using h.2.1, h.2.2.1, h.2.2.2.1, h.2.2.2.2, hb, by simpa using hl,
            by simpa using hc⟩, rfl⟩)))
  · exact .inl rfl

/-! ## Answers -/

/-- An answer changes its mailbox alone. -/
theorem State.reply_eq (s : State) (m : Nat) (r : Resp) : s.reply m r = { s with fmn := (s.reply m r).fmn } := rfl
theorem State.reply_frame (s : State) (m : Nat) (r : Resp) : Frame [.fmn] s (s.reply m r) := by
  intro p hp _
  cases p <;> first | exact rfl | exact ⟨rfl, rfl, rfl, rfl⟩ | exact ⟨rfl, rfl, rfl⟩ |
    exact ⟨fun _ _ => rfl, fun _ _ => ⟨rfl, rfl⟩⟩ | exact absurd (by decide) hp
theorem State.replyDone_doneWith (s : State) (m : Nat) (p : List Byte) : (s.replyDone m p).doneWith m p := by
  unfold State.doneWith State.answers State.replyDone; simp
theorem State.refuse_refuses (s : State) (m code detail : Nat) (p : List Byte) : (s.refuse m code detail p).refuses m code detail := by
  unfold State.refuses State.refuse; simp

end Sys2Proof.Machine
end

