-- ==== Sys2Proof/Laws/Memory.lean ====
section
/-! SUPPORT. Sys2Proof/Laws/Memory.lean: every memory operation keeps the canonical form, a store is read back and leaves every other
byte, and a demand read or write of clean words only reads or writes. -/
namespace Sys2Proof.Machine
open Sys2Proof

/-! ## The canonical form -/

/-- The form of a state's memory. -/
def State.memWf (s : State) : Prop := Memory.wf s.mem = true

theorem State.memWf_iff (s : State) : s.memWf ↔ Tab.wf zeroByte s.mem.bytes = true ∧ Tab.wf zeroByte s.mem.chk = true := by
  unfold State.memWf Memory.wf; simp
theorem State.memWf_congr {s t : State} (h : t.mem = s.mem) : t.memWf ↔ s.memWf := by unfold State.memWf; rw [h]
theorem State.reset_memWf : State.reset.memWf := by unfold State.memWf; decide
theorem State.memWf_setReg {s : State} (w : s.memWf) (b o : Nat) (v : Word) : (s.setReg b o v).memWf := w
theorem State.memWf_bump {s : State} (w : s.memWf) (b j : Nat) : (s.bump b j).memWf := w
theorem State.memWf_setChk {s : State} (w : s.memWf) (a : Nat) (c : Byte) : (s.setChk a c).memWf := by
  rw [State.memWf_iff] at *; exact ⟨w.1, Tab.wf_set _ _ w.2⟩
theorem State.memWf_flipData {s : State} (w : s.memWf) (a d : Nat) : (s.flipData a d).memWf := by
  rw [State.memWf_iff] at *; exact ⟨Tab.wf_set _ _ w.1, w.2⟩
theorem State.memWf_putBytes {s : State} (w : s.memWf) (a : Nat) (l : List Byte) :
    ({ s with mem.bytes := putBytes s.mem.bytes a l } : State).memWf := by
  rw [State.memWf_iff] at *; exact ⟨Tab.wf_put a l w.1, w.2⟩
theorem Tab.wf_clearChk {t : Tab Byte} (w : Tab.wf zeroByte t = true) (a n : Nat) : Tab.wf zeroByte (clearChk t a n) = true := by
  unfold clearChk; split
  · exact w
  · exact Tab.wf_clear _ w
theorem State.memWf_store {s : State} (w : s.memWf) (a : Nat) (l : List Byte) : (s.store a l).memWf := by
  rw [State.memWf_iff] at *; exact ⟨Tab.wf_put a l w.1, Tab.wf_clearChk w.2 a l.length⟩
theorem State.memWf_zeroRange {s : State} (w : s.memWf) (a n : Nat) : (s.zeroRange a n).memWf := by
  rw [State.memWf_iff] at *
  exact ⟨Tab.wf_clear (fun k => decide (a ≤ k ∧ k < a + n)) w.1, Tab.wf_clear (fun i => decide (a ≤ 8 * i ∧ 8 * i < a + n)) w.2⟩
theorem State.memWf_correct {s : State} (w : s.memWf) (a pos : Nat) : (s.correct a pos).memWf := by
  unfold State.correct; apply State.memWf_setChk; split
  · exact State.memWf_flipData w a _
  · exact w
theorem State.memErr_mem (s : State) (src kind m a : Nat) : (s.memErr src kind m a).mem = s.mem := by
  unfold State.memErr; dsimp only; split <;> rfl
theorem State.bankCount_mem (s : State) (a : Nat) (ue : Bool) : (s.bankCount a ue).mem = s.mem := by
  unfold State.bankCount; dsimp only; split <;> rfl
theorem State.fabErr_mem (s : State) (k m : Nat) (cls : AccessClass) (c : Nat) (w : Bool) (a : Nat) :
    (s.fabErr k m cls c w a).mem = s.mem := by
  unfold State.fabErr; dsimp only; split <;> rfl

theorem State.memWf_touchWord {s : State} (w : s.memWf) (m a : Nat) : (s.touchWord m a).2.memWf := by
  unfold State.touchWord
  split
  · exact w
  · split
    · exact w
    · exact (State.memWf_congr (State.bankCount_mem _ a false)).2 (State.memWf_correct w a _)
    · exact State.memWf_setChk ((State.memWf_congr ((State.bankCount_mem _ a true).trans (State.memErr_mem s 3 1 m a))).2 w) a _
    · exact (State.memWf_congr (State.memErr_mem s 4 2 m a)).2 w
theorem State.memWf_touchWords {s : State} (w : s.memWf) (m i n : Nat) : (s.touchWords m i n).2.memWf := by
  induction n generalizing s i with
  | zero => exact w
  | succ n ih => exact ih (State.memWf_touchWord w m (8 * i)) (i + 1)
/-- A demand read keeps the canonical form. -/
theorem State.memWf_demandRead {s : State} (w : s.memWf) (m a n : Nat) : (s.demandRead m a n).2.2.memWf :=
  State.memWf_touchWords w m _ _
theorem State.memWf_inject {s : State} (w : s.memWf) (a : Nat) : (s.inject a).memWf := by
  have one : ∀ (t : State) (d : Nat), t.memWf →
      (if d < 64 then (t.flipData a d).setChk a (t.chkAt a ^^^ flipChk d) else t).memWf := by
    intro t d h; split
    · exact State.memWf_setChk (State.memWf_flipData h a d) a _
    · exact h
  unfold State.inject; dsimp only; split
  · exact State.memWf_setChk (one _ _ (one s _ w)) a _
  · exact w
theorem State.memWf_writeWord {s : State} (w : s.memWf) (m a : Nat) (l : List Byte) : (s.writeWord m a l).2.memWf := by
  unfold State.writeWord
  split
  · exact State.memWf_inject (State.memWf_setChk (State.memWf_putBytes w a l) a 0) a
  · split
    · exact State.memWf_putBytes w a l
    · exact State.memWf_putBytes ((State.memWf_congr (State.bankCount_mem _ a false)).2 (State.memWf_correct w a _) :) a l
    · exact State.memWf_setChk ((State.memWf_congr ((State.bankCount_mem _ a true).trans (State.memErr_mem s 3 1 m a))).2 w) a _
    · exact (State.memWf_congr (State.memErr_mem s 4 2 m a)).2 w
theorem State.memWf_writeWords {s : State} (w : s.memWf) (m a n : Nat) (l : List Byte) : (s.writeWords m a l n).2.memWf := by
  induction n generalizing s a l with
  | zero => exact w
  | succ n ih =>
    unfold State.writeWords; split
    · exact w
    · exact ih (State.memWf_writeWord w m a _) _ _
/-- A demand write keeps the canonical form. -/
theorem State.memWf_demandWrite {s : State} (w : s.memWf) (m a : Nat) (l : List Byte) : (s.demandWrite m a l).2.memWf :=
  State.memWf_writeWords w m a _ l
theorem State.freeBytes_mem (s : State) (n : Nat) : (s.freeBytes n).2.mem = s.mem := by
  induction n generalizing s with
  | zero => rfl
  | succ n ih => unfold State.freeBytes; exact (ih (s.takeFree 8).2).trans rfl
/-- A checked read of a master keeps the canonical form. -/
theorem State.memWf_readMem {s : State} (w : s.memWf) (m : Nat) (cls : AccessClass) (c a n : Nat) : (s.readMem m cls c a n).2.2.memWf := by
  unfold State.readMem; split
  · exact (State.memWf_congr (State.fabErr_mem _ _ _ _ _ _ _)).2 w
  · split
    · exact (State.memWf_congr (State.freeBytes_mem s n)).2 w
    · dsimp only; split
      · exact (State.memWf_congr (State.fabErr_mem _ _ _ _ _ _ _)).2 (State.memWf_demandRead w m a n)
      · exact State.memWf_demandRead w m a n
/-- A checked write of a master keeps the canonical form. -/
theorem State.memWf_writeMem {s : State} (w : s.memWf) (m : Nat) (cls : AccessClass) (c a : Nat) (l : List Byte) :
    (s.writeMem m cls c a l).2.memWf := by
  unfold State.writeMem; split
  · exact (State.memWf_congr (State.fabErr_mem _ _ _ _ _ _ _)).2 w
  · split
    · exact w
    · dsimp only; split
      · exact (State.memWf_congr (State.fabErr_mem _ _ _ _ _ _ _)).2 (State.memWf_demandWrite w m a l)
      · exact State.memWf_demandWrite w m a l

/-! ## Reading back -/

theorem Tab.get_of_not_mem {α : Type} (d : Nat → α) (t : Tab α) (k : Nat) (h : ∀ e ∈ t, e.1 ≠ k) : Tab.get d t k = d k := by
  induction t with
  | nil => rfl
  | cons e t ih =>
    rw [Tab.get, if_neg (h e (by simp))]; exact ih (fun x hx => h x (by simp [hx]))
theorem Tab.get_append_left {α : Type} (d : Nat → α) (t u : Tab α) (k : Nat) (h : ∀ e ∈ t, e.1 ≠ k) :
    Tab.get d (t ++ u) k = Tab.get d u k := by
  induction t with
  | nil => rfl
  | cons e t ih =>
    rw [List.cons_append, Tab.get, if_neg (h e (by simp))]; exact ih (fun x hx => h x (by simp [hx]))
theorem Tab.get_append_right {α : Type} (d : Nat → α) (t u : Tab α) (k : Nat) (h : ∀ e ∈ u, e.1 ≠ k) :
    Tab.get d (t ++ u) k = Tab.get d t k := by
  induction t with
  | nil => simpa [Tab.get_nil] using Tab.get_of_not_mem d u k h
  | cons e t ih => rw [List.cons_append, Tab.get, Tab.get]; split <;> [rfl; exact ih]
theorem Tab.get_listed {α : Type} [DecidableEq α] (d : Nat → α) (l : List α) (a k : Nat) :
    Tab.get d (Tab.listed d a l) k = if a ≤ k ∧ k < a + l.length then l.getD (k - a) (d k) else d k := by
  induction l generalizing a with
  | nil => simp [Tab.listed, Tab.get]
  | cons v l ih =>
    unfold Tab.listed
    have e0 : ∀ (j : Nat), a + 1 ≤ j → (v :: l).getD (j - a) (d j) = l.getD (j - (a + 1)) (d j) := by
      intro j hj; rw [show j - a = (j - (a + 1)) + 1 by omega]; rfl
    split
    · rename_i hv
      rw [ih (a + 1)]
      by_cases h : k = a
      · subst h; simp [hv]
      · by_cases h1 : a + 1 ≤ k
        · rw [e0 k h1]; simp only [List.length_cons]
          by_cases h2 : k < a + 1 + l.length
          · rw [if_pos ⟨h1, h2⟩, if_pos ⟨by omega, by omega⟩]
          · rw [if_neg (by omega), if_neg (by omega)]
        · rw [if_neg (by omega), if_neg (by omega)]
    · rw [Tab.get]
      by_cases h : a = k
      · subst h; simp
      · rw [if_neg h, ih (a + 1)]
        by_cases h1 : a + 1 ≤ k
        · rw [e0 k h1]; simp only [List.length_cons]
          by_cases h2 : k < a + 1 + l.length
          · rw [if_pos ⟨h1, h2⟩, if_pos ⟨by omega, by omega⟩]
          · rw [if_neg (by omega), if_neg (by omega)]
        · rw [if_neg (by omega), if_neg (by omega)]
theorem Tab.get_takeWhile {α : Type} (d : Nat → α) (t : Tab α) (n k : Nat) (h : k < n) (w : t.Pairwise (fun a b => a.1 < b.1)) :
    Tab.get d (t.takeWhile (fun e => decide (e.1 < n))) k = Tab.get d t k := by
  induction t with
  | nil => rfl
  | cons e t ih =>
    obtain ⟨w1, w2⟩ := List.pairwise_cons.1 w
    by_cases he : e.1 < n
    · rw [List.takeWhile_cons_of_pos (by simpa using he), Tab.get, Tab.get, ih w2]
    · rw [List.takeWhile_cons_of_neg (by simpa using he), Tab.get_nil]
      refine (Tab.get_of_not_mem d (e :: t) k ?_).symm
      intro x hx
      rcases List.mem_cons.1 hx with rfl | hx
      · omega
      · have := w1 x hx; omega
theorem Tab.get_dropWhile {α : Type} (d : Nat → α) (t : Tab α) (n k : Nat) (h : n ≤ k) :
    Tab.get d (t.dropWhile (fun e => decide (e.1 < n))) k = Tab.get d t k := by
  induction t with
  | nil => rfl
  | cons e t ih =>
    by_cases he : e.1 < n
    · rw [List.dropWhile_cons_of_pos (by simpa using he), ih, Tab.get, if_neg (by omega)]
    · rw [List.dropWhile_cons_of_neg (by simpa using he)]
/-- What a table reads after values have been put at a and the keys after it. -/
theorem Tab.get_put {α : Type} [DecidableEq α] (d : Nat → α) (t : Tab α) (a : Nat) (l : List α) (k : Nat) (w : Tab.wf d t = true) :
    Tab.get d (Tab.put d t a l) k = if a ≤ k ∧ k < a + l.length then l.getD (k - a) (d k) else Tab.get d t k := by
  have hp := ((Tab.wf_iff d t).1 w).1
  unfold Tab.put
  have hl : ∀ e ∈ Tab.listed d a l, a ≤ e.1 ∧ e.1 < a + l.length := fun e he => ⟨(Tab.mem_listed he).1, (Tab.mem_listed he).2.1⟩
  by_cases h1 : a ≤ k
  · rw [List.append_assoc, Tab.get_append_left d _ _ k (fun e he => by have := Tab.lt_of_mem_takeWhile he; omega)]
    by_cases h2 : k < a + l.length
    · rw [Tab.get_append_right d _ _ k (fun e he => by have := Tab.le_of_mem_dropWhile hp he; omega), Tab.get_listed,
        if_pos ⟨h1, h2⟩, if_pos ⟨h1, h2⟩]
    · rw [if_neg (by omega), Tab.get_append_left d _ _ k (fun e he => by have := hl e he; omega), Tab.get_dropWhile d t _ k (by omega)]
  · rw [if_neg (by omega), Tab.get_append_right d _ _ k (fun e he => by have := Tab.le_of_mem_dropWhile hp he; omega),
      Tab.get_append_right d _ _ k (fun e he => by have := hl e he; omega), Tab.get_takeWhile d t a k (by omega) hp]

theorem Tab.fill_eq {α : Type} (d : Nat → α) (n a : Nat) (t : Tab α) (w : t.Pairwise (fun a b => a.1 < b.1)) (h : ∀ e ∈ t, a ≤ e.1) :
    Tab.fill d n a t = (List.range n).map (fun i => Tab.get d t (a + i)) := by
  induction n generalizing a t with
  | zero => simp [Tab.fill]
  | succ n ih =>
    rw [List.range_succ_eq_map, List.map_cons, List.map_map]
    cases t with
    | nil =>
      rw [Tab.fill, ih (a + 1) [] List.Pairwise.nil (by simp)]
      simp [Tab.get, Function.comp_def, Nat.add_assoc, Nat.add_comm 1]
    | cons e t =>
      obtain ⟨w1, w2⟩ := List.pairwise_cons.1 w
      have he := h e (by simp)
      rw [Tab.fill]
      by_cases hj : e.1 = a
      · rw [if_pos hj, ih (a + 1) t w2 (fun x hx => by have := w1 x hx; omega)]
        simp only [Nat.add_zero, Tab.get, if_pos hj, List.cons.injEq, true_and, Function.comp_def]
        refine List.map_congr_left (fun i _ => ?_)
        rw [if_neg (by omega)]; congr 1; omega
      · rw [if_neg hj, ih (a + 1) (e :: t) w (fun x hx => by
          rcases List.mem_cons.1 hx with rfl | hx
          · omega
          · have := w1 x hx; omega)]
        have h0 : d a = Tab.get d (e :: t) (a + 0) := by
          refine (Tab.get_of_not_mem d (e :: t) (a + 0) ?_).symm
          intro x hx
          rcases List.mem_cons.1 hx with rfl | hx
          · omega
          · have := w1 x hx; omega
        rw [h0]
        simp only [List.cons.injEq, true_and, Function.comp_def]
        refine List.map_congr_left (fun i _ => ?_)
        congr 1; omega
/-- A slice is the values key by key. -/
theorem Tab.slice_eq {α : Type} [DecidableEq α] (d : Nat → α) (t : Tab α) (a n : Nat) (w : Tab.wf d t = true) :
    Tab.slice d t a n = (List.range n).map (fun i => Tab.get d t (a + i)) := by
  have hp := ((Tab.wf_iff d t).1 w).1
  unfold Tab.slice
  rw [Tab.fill_eq d n a _ (hp.sublist (List.dropWhile_sublist _)) (fun e he => Tab.le_of_mem_dropWhile hp he)]
  exact List.map_congr_left (fun i _ => Tab.get_dropWhile d t a (a + i) (by omega))

/-- A byte after a store: the stored one inside its range, else the byte as it was. -/
theorem State.mbyte_store {s : State} (w : s.memWf) (a : Nat) (l : List Byte) (k : Nat) :
    (s.store a l).mbyte k = if a ≤ k ∧ k < a + l.length then l.getD (k - a) 0 else s.mbyte k :=
  Tab.get_put zeroByte s.mem.bytes a l k ((State.memWf_iff s).1 w).1
/-- A byte after a fill with zeros. -/
theorem State.mbyte_zeroRange (s : State) (a n k : Nat) :
    (s.zeroRange a n).mbyte k = if a ≤ k ∧ k < a + n then 0 else s.mbyte k := by
  unfold State.mbyte State.zeroRange; dsimp only
  rw [Tab.get_clear]; simp [zeroByte]
/-- The bytes of a range, one by one. -/
theorem State.mbytes_eq {s : State} (w : s.memWf) (a n : Nat) : s.mbytes a n = (List.range n).map (fun i => s.mbyte (a + i)) :=
  Tab.slice_eq zeroByte s.mem.bytes a n ((State.memWf_iff s).1 w).1
@[simp] theorem State.mbytes_length (s : State) (a n : Nat) : (s.mbytes a n).length = n := Tab.slice_length _ _ _ _

/-! ## Clean words -/

theorem eccDecode_zero : eccDecode 0 = .clean := by decide
theorem State.touchWord_clean {s : State} (m a : Nat) (h : s.chkAt a = 0) : s.touchWord m a = (false, s) := by
  unfold State.touchWord; rw [h, eccDecode_zero]; simp
theorem State.touchWords_clean {s : State} (m i n : Nat) (h : ∀ k, i ≤ k → k < i + n → s.chkAt (8 * k) = 0) :
    s.touchWords m i n = (false, s) := by
  induction n generalizing i with
  | zero => rfl
  | succ n ih =>
    unfold State.touchWords
    rw [State.touchWord_clean m (8 * i) (h i (by omega) (by omega))]
    dsimp only
    rw [ih (i + 1) (fun k h1 h2 => h k (by omega) (by omega))]
    rfl
/-- A demand read of clean words returns the stored bytes and changes nothing. -/
theorem State.demandRead_clean {s : State} (m a n : Nat) (h : ∀ k, a / 8 ≤ k → k < (a + n + 7) / 8 → s.chkAt (8 * k) = 0) :
    s.demandRead m a n = (s.mbytes a n, false, s) := by
  unfold State.demandRead
  rw [State.touchWords_clean m _ _ (fun k h1 h2 => h k h1 (by omega))]
/-- A checked read of permitted, powered, clean memory returns the stored bytes and changes nothing. -/
theorem State.readMem_readable {s : State} {m a n : Nat} (c : Nat) (h : s.readable m a n) :
    s.readMem m .ordinary c a n = (s.mbytes a n, .ok, s) := by
  obtain ⟨h1, h2, h3⟩ := h
  unfold State.readMem
  rw [h1, h2, State.demandRead_clean m a n (fun k _ _ => h3 (8 * k))]; rfl

end Sys2Proof.Machine
end

