-- ==== Sys2Proof/Laws/Operations.lean ====
section
/-! SUPPORT. Sys2Proof/Laws/Operations.lean: what the command of a job's operation can do, and how its parts run. -/
namespace Sys2Proof.Machine
open Sys2Proof

/-- Everything an operation command can do: nothing where no operation is ready or its opcode is another; a completion, a wait, a
request to a peer, or the end that a failed check brings. -/
theorem State.runOp_cases (s : State) (f k stall : Nat) (body : JobUser → OpD → JM OpOut) :
    s.runOp f k stall body = s ∨
    (∃ r, s.opReady f = some r ∧ (
      (r.fetchedBad = true ∧ s.runOp f k stall body = s.opStart.opBad (s.opUser f r) .poison) ∨
      (∃ x w, ((opPass (s.opUser f r) k body).run.run s.opStart : Except Halt (Option OpOut) × State) = (.ok (some (.fin x)), w) ∧
        s.runOp f k stall body = { w with free := w.free + 2 ^ 80 }.opDone f stall x) ∨
      (∃ w, ((opPass (s.opUser f r) k body).run.run s.opStart : Except Halt (Option OpOut) × State) = (.ok (some .wait), w) ∧
        s.runOp f k stall body = w.opWaits f) ∨
      (∃ a n, s.runOp f k stall body = s.issueRemote (s.opUser f r).cru .ordinary (some f) false false a n []) ∨
      (∃ b w, ((opPass (s.opUser f r) k body).run.run s.opStart : Except Halt (Option OpOut) × State) = (.error (.bad b), w) ∧
        s.runOp f k stall body = w.opBad (s.opUser f r) b))) := by
  cases hr : s.opReady f with
  | none => left; unfold State.runOp; rw [hr]
  | some r =>
    by_cases hb : r.fetchedBad = true
    · right; refine ⟨r, rfl, .inl ⟨hb, ?_⟩⟩
      unfold State.runOp; rw [hr]; dsimp only; rw [if_pos hb]; rfl
    · rcases hp : ((opPass (s.opUser f r) k body).run.run s.opStart : Except Halt (Option OpOut) × State) with ⟨e, w⟩
      have hq : ((opPass (s.opUser f r) k body).run.run { s with free := s.free + 1 } : Except Halt (Option OpOut) × State) = (e, w) := hp
      rcases e with (⟨a, n⟩ | b) | (_ | (x | _))
      · exact .inr ⟨r, rfl, .inr (.inr (.inr (.inl ⟨a, n, by unfold State.runOp; rw [hr]; dsimp only; rw [if_neg hb, hq]⟩)))⟩
      · exact .inr ⟨r, rfl, .inr (.inr (.inr (.inr ⟨b, w, hp, by unfold State.runOp; rw [hr]; dsimp only; rw [if_neg hb, hq]⟩)))⟩
      · left; unfold State.runOp; rw [hr]; dsimp only; rw [if_neg hb, hq]
      · exact .inr ⟨r, rfl, .inr (.inl ⟨x, w, hp, by unfold State.runOp; rw [hr]; dsimp only; rw [if_neg hb, hq]⟩)⟩
      · exact .inr ⟨r, rfl, .inr (.inr (.inl ⟨w, hp, by unfold State.runOp; rw [hr]; dsimp only; rw [if_neg hb, hq]⟩))⟩

/-! ## Parts of an operation -/

theorem jm_bind_ok {α β : Type} (x : JM α) (g : α → JM β) (s t : State) (v : α)
    (h : (x.run.run s : Except Halt α × State) = (.ok v, t)) :
    ((x >>= g).run.run s : Except Halt β × State) = ((g v).run.run t : Except Halt β × State) := by
  simp only [ExceptT.run_bind, StateT.run_bind]
  have : (StateT.run (ExceptT.run x) s : Id (Except Halt α × State)) = (.ok v, t) := h
  rw [this]; rfl
theorem jm_pure {α : Type} (v : α) (s : State) : ((pure v : JM α).run.run s : Except Halt α × State) = (.ok v, s) := rfl
theorem jm_need {b : Bool} (h : b = true) (s : State) : ((need10 b).run.run s : Except Halt Unit × State) = (.ok (), s) := by
  rw [h]; rfl

end Sys2Proof.Machine
end

section
/-! SUPPORT. Writes of an ACK field and of INT_ENABLE (R91, R105, R106): what each leaves, and the message it makes due. -/
namespace Sys2Proof.Machine
open Sys2Proof

/-! ## The trip causes and Quench's configuration -/

theorem lowest_congr {n : Nat} {p q : Nat → Bool} (h : ∀ i, i < n → p i = q i) : lowest n p = lowest n q :=
  List.find?_congr fun i hi => h i (List.mem_range.1 hi)

/-- Of the registers, the causes read only those that hold the accepted QCH_ENVELOPE and QCH_MASKS payloads. -/
theorem State.causes_congr_config {s t : State} (hq : t.qch = s.qch)
    (hr : ∀ o, 0x400 ≤ o → o < 0x10000 → t.reg Blk.qch o = s.reg Blk.qch o)
    (hh : t.isHalted Blk.inp = s.isHalted Blk.inp) : t.causes = s.causes := by
  have hmask : ∀ o, o < 0x100 → t.qMask o = s.qMask o := fun o ho => by
    unfold State.qMask; rw [hr _ (by omega) (by omega)]
  have henv : ∀ o, o < 0x100 → t.qEnv o = s.qEnv o := fun o ho => by
    unfold State.qEnv; rw [hr _ (by omega) (by omega)]
  have hmask16 : ∀ o, o < 0xFF → t.qMask16 o = s.qMask16 o := fun o ho => by
    unfold State.qMask16; rw [hmask o (by omega), hmask (o + 1) (by omega)]
  have hkind : ∀ i, i < 8 → t.matcherKind i = s.matcherKind i := fun i hi => hmask _ (by omega)
  have hmatcher : ∀ i, t.matcher i = s.matcher i := fun i => by simp only [State.matcher, hq]
  have hsector : ∀ i, t.sector i = s.sector i := fun i => by simp only [State.sector, hq]
  have hfwd : t.fwdMask = s.fwdMask := hmask16 _ (by omega)
  have hrev : t.revMask = s.revMask := hmask16 _ (by omega)
  have hunk : t.unknownTrip = s.unknownTrip := hmask16 _ (by omega)
  have hcliff : t.cliffEn = s.cliffEn := hmask _ (by omega)
  have hidle : t.qVIdle = s.qVIdle := by unfold State.qVIdle; rw [henv _ (by omega), henv _ (by omega)]
  have hbrake : ∀ v, t.brakeDist v = s.brakeDist v := fun v => by
    unfold State.brakeDist State.qDMargin State.qAMin State.qTReact
    rw [henv 0x10 (by omega), henv 0x12 (by omega), henv 0x13 (by omega), henv 0x14 (by omega), henv 0x15 (by omega)]
  have hspeed : ∀ f, t.speedMax f = s.speedMax f := fun f =>
    List.foldl_ext _ _ _ fun m i hi => by rw [hkind i (List.mem_range.1 hi), hmatcher]
  have hdrop : ∀ f i, t.dropAt f i = s.dropAt f i := fun f i => by
    simp only [State.dropAt, State.vF, State.vR, State.dF, State.dR, hfwd, hrev, hidle, hspeed, hbrake, hsector]
    congr!
  have hunknown : ∀ f i, t.unknownAt f i = s.unknownAt f i := fun f i => by
    simp only [State.unknownAt, State.vF, State.vR, hfwd, hrev, hunk, hidle, hspeed, hsector]
    congr!
  have hcliffAt : ∀ c i, i < 8 → t.cliffAt c i = s.cliffAt c i := fun c i hi => by
    simp only [State.cliffAt, hkind i hi, hmatcher]
  have hwhere : ∀ c, t.causeWhere c = s.causeWhere c := fun c => by
    unfold State.causeWhere
    split
    · rw [hcliff, hq]
    · simp only [hdrop]
    · simp only [hunknown]
    · exact lowest_congr (hcliffAt false)
    · exact lowest_congr (hcliffAt true)
    · rw [hq]
    · exact lowest_congr fun i hi => by rw [hkind i hi, hmatcher]
    · rfl
  have hnow : ∀ c, t.causeNow c = s.causeNow c := fun c => by simp only [State.causeNow, hwhere, hq, hh]
  simp only [State.causes, hnow]

/-- A step that leaves Quench, its configuration and whether INP is halted brings no cause. -/
theorem State.quenchClear_of_config {s t : State} (h : s.quenchClear) (hq : t.qch = s.qch)
    (hr : ∀ o, 0x400 ≤ o → o < 0x10000 → t.reg Blk.qch o = s.reg Blk.qch o) (hh : t.rf.halted = s.rf.halted) :
    t.quenchClear := by
  intro ha
  rw [State.causes_congr_config hq hr (by unfold State.isHalted; rw [hh])]
  exact h (hq ▸ ha)

/-! ## Messages due -/

theorem tget_foldl_tset {l : List Nat} {p : Nat → Prop} [DecidablePred p] {t : Tab Bool} {k : Nat} (h : tget t k = true) :
    tget (l.foldl (fun t b => if p b then t else tset t b true) t) k = true := by
  induction l generalizing t with
  | nil => exact h
  | cons b l ih =>
    refine ih ?_
    dsimp only
    split
    · exact h
    · rw [tget_tset, h, ite_self]

/-- The end of a step takes no message back. -/
theorem finish_keeps_due (s0 : State) {s : State} {k : Nat} (h : tget s.rf.msixDue k = true) :
    tget (finish s0 s).rf.msixDue k = true := by
  have hd : s.tripDue.rf.msixDue = s.rf.msixDue := by rw [TripFrame.tripDue s]
  exact tget_foldl_tset (hd ▸ h)

theorem State.msixAgain_eq (s : State) (b : Blk) : s.msixAgain b = { s with rf.msixDue := (s.msixAgain b).rf.msixDue } := by
  unfold State.msixAgain; split <;> rfl
@[simp] theorem State.reg_msixAgain (s : State) (b b' : Blk) (o : Nat) : (s.msixAgain b).reg b' o = s.reg b' o := by
  rw [State.msixAgain_eq]; rfl
@[simp] theorem State.evc_msixAgain (s : State) (b b' : Blk) (j : Nat) : (s.msixAgain b).evc b' j = s.evc b' j := by
  rw [State.msixAgain_eq]; rfl
@[simp] theorem State.ackOf_msixAgain (s : State) (b b' : Blk) (j : Nat) : (s.msixAgain b).ackOf b' j = s.ackOf b' j := by
  rw [State.msixAgain_eq]; rfl
@[simp] theorem State.halted_msixAgain (s : State) (b : Blk) : (s.msixAgain b).rf.halted = s.rf.halted := by
  rw [State.msixAgain_eq]
@[simp] theorem State.msixCause_msixAgain (s : State) (b b' : Blk) : (s.msixAgain b).msixCause b' = s.msixCause b' := by
  rw [State.msixAgain_eq]; rfl
theorem State.msixAgain_due {s : State} {b : Blk} (hb : b < 33) (h : s.msixCause b ≠ 0) :
    tget (s.msixAgain b).rf.msixDue b = true := by
  unfold State.msixAgain; rw [if_pos ⟨hb, h⟩, tget_tset, if_pos rfl]

/-- With no trip the end of a step leaves what drives a vector. -/
theorem finish_msixCause (s0 : State) {s : State} (h : s.quenchClear) (b : Blk) : (finish s0 s).msixCause b = s.msixCause b := by
  rw [finish_quiet s0 h]; rfl

/-! ## Frames of the operations -/

theorem frame_msixAgain (s : State) (b : Blk) : Frame [] s (s.msixAgain b) := by
  rw [State.msixAgain_eq]; exact Frame.refl [] s
theorem frame_setMb (s : State) (m : Nat) (x : Mailbox) : Frame [.fmn] s (s.setMb m x) := by
  intro p hp _
  cases p with
  | fmn => exact absurd (List.mem_singleton_self _) hp
  | _ => simp [StatePart.same, State.setMb, State.reg, State.evc, State.ackOf]
theorem frame_setParity (s : State) (b o v : Nat) : Frame [.halts] s (s.setParity b o v) := by
  intro p hp _
  cases p with
  | halts => exact absurd (List.mem_singleton_self _) hp
  | _ => simp [StatePart.same, State.setParity, State.reg, State.evc, State.ackOf]

theorem evKey_inj {b j b' j' : Nat} (h : j < 32) (h' : j' < 32) : evKey b j = evKey b' j' ↔ b = b' ∧ j = j' := by
  unfold evKey; omega
theorem State.ackOf_setAck (s : State) (b j b' j' : Nat) (v : Count16) :
    (s.setAck b j v).ackOf b' j' = if evKey b' j' = evKey b j then v else s.ackOf b' j' := by
  simp [State.ackOf, State.setAck, Tab.get_set]
theorem frame_setAck (s : State) (b : Blk) {j : Nat} (hj : j < 32) (v : Count16) : Frame [.regs b] s (s.setAck b j v) := by
  intro p hp _
  cases p with
  | regs b' =>
    refine ⟨fun _ _ => rfl, fun i hi => ⟨rfl, ?_⟩⟩
    rw [State.ackOf_setAck, if_neg]
    rw [evKey_inj hi hj]
    rintro ⟨rfl, -⟩
    exact hp (List.mem_singleton_self _)
  | _ => simp [StatePart.same, State.setAck]
theorem frame_setReg (s : State) (b : Blk) {o : Nat} (ho : o < 0x10000) (v : Word) : Frame [.regs b] s (s.setReg b o v) := by
  intro p hp _
  cases p with
  | regs b' =>
    refine ⟨fun i hi => State.reg_setReg_ne s v ?_, fun _ _ => ⟨rfl, rfl⟩⟩
    rw [Ne, regKey_inj hi ho]
    rintro ⟨rfl, -⟩
    exact hp (List.mem_singleton_self _)
  | _ => simp [StatePart.same, State.setReg]

/-! ## A write of an ACK field -/

theorem State.ackResponse_cases (s : State) (m : Nat) (v : Count16) :
    s.ackResponse m v = s.setAck Blk.fmn (5 + m) v ∨
      ∃ x, s.ackResponse m v = (s.setAck Blk.fmn (5 + m) v).setMb m x := by
  unfold State.ackResponse
  dsimp only
  split
  · exact .inr ⟨_, rfl⟩
  · exact .inl rfl

/-- Everything a write of an ACK field can do: it stores the value, frees the mailbox whose response it acknowledges, and makes
the message of its block due. -/
theorem State.ackEffect_cases (s : State) (b j : Nat) (v : Count16) :
    s.ackEffect b j v = (s.setAck b j v).msixAgain b ∨
      (b = Blk.fmn ∧ ∃ m x, s.ackEffect b j v = ((s.setAck b j v).setMb m x).msixAgain b) := by
  unfold State.ackEffect
  dsimp only
  split
  · next h =>
    obtain ⟨rfl, hj⟩ := h
    have hk : 5 + (j - 5) = j := by omega
    obtain h | ⟨x, h⟩ := State.ackResponse_cases s (j - 5) v
    · rw [h, hk]; exact .inl rfl
    · rw [h, hk]; exact .inr ⟨rfl, j - 5, x, rfl⟩
  · exact .inl rfl

theorem State.reg_ackEffect (s : State) (b j b' o : Nat) (v : Count16) : (s.ackEffect b j v).reg b' o = s.reg b' o := by
  obtain h | ⟨-, m, x, h⟩ := State.ackEffect_cases s b j v
  all_goals rw [h, State.reg_msixAgain]; rfl
theorem State.evc_ackEffect (s : State) (b j b' i : Nat) (v : Count16) : (s.ackEffect b j v).evc b' i = s.evc b' i := by
  obtain h | ⟨-, m, x, h⟩ := State.ackEffect_cases s b j v
  all_goals rw [h, State.evc_msixAgain]; rfl
theorem State.ackOf_ackEffect (s : State) (b j b' i : Nat) (v : Count16) :
    (s.ackEffect b j v).ackOf b' i = if evKey b' i = evKey b j then v else s.ackOf b' i := by
  rw [← State.ackOf_setAck]
  obtain h | ⟨-, m, x, h⟩ := State.ackEffect_cases s b j v
  all_goals rw [h, State.ackOf_msixAgain]
  rfl
theorem State.qch_ackEffect (s : State) (b j : Nat) (v : Count16) : (s.ackEffect b j v).qch = s.qch := by
  obtain h | ⟨-, m, x, h⟩ := State.ackEffect_cases s b j v
  all_goals rw [h, State.msixAgain_eq]; rfl
theorem State.halted_ackEffect (s : State) (b j : Nat) (v : Count16) : (s.ackEffect b j v).rf.halted = s.rf.halted := by
  obtain h | ⟨-, m, x, h⟩ := State.ackEffect_cases s b j v
  all_goals rw [h, State.halted_msixAgain]; rfl
theorem State.quenchClear_ackEffect {s : State} (h : s.quenchClear) (b j : Nat) (v : Count16) : (s.ackEffect b j v).quenchClear :=
  State.quenchClear_of_config h (State.qch_ackEffect s b j v) (fun o _ _ => State.reg_ackEffect s b j _ o v)
    (State.halted_ackEffect s b j v)
theorem State.ackEffect_due {s : State} {b j : Nat} {v : Count16} (hb : b < 33) (h : (s.ackEffect b j v).msixCause b ≠ 0) :
    tget (s.ackEffect b j v).rf.msixDue b = true := by
  unfold State.ackEffect at h ⊢
  exact State.msixAgain_due hb (State.msixCause_msixAgain _ b b ▸ h)

theorem frame_ackEffect (s : State) (b : Blk) {j : Nat} (hj : j < 32) (v : Count16) :
    Frame (if b = 5 then [.regs 5, .fmn] else [.regs b]) s (s.ackEffect b j v) := by
  have hack := frame_setAck s b hj v
  obtain h | ⟨hb, m, x, h⟩ := State.ackEffect_cases s b j v <;> rw [h]
  · refine (hack.trans ((frame_msixAgain _ b).mono (by simp))).mono fun p hp => ?_
    split <;> simp_all
  · subst hb
    exact ((hack.mono (by simp)).trans ((frame_setMb _ m x).mono (by simp))).trans ((frame_msixAgain _ _).mono (by simp))

/-! ## A write of INT_ENABLE -/

/-- Without its mismatch at one register, a block's parity cause does not appear. -/
theorem State.parityCause_setParity_zero {s : State} {b o : Nat} {b' : Blk} (h : (s.setParity b o 0).parityCause b' = true) :
    s.parityCause b' = true := by
  have hsub : (s.setParity b o 0).rf.parityBad.Sublist s.rf.parityBad := by
    show (Tab.set zeroTab s.rf.parityBad (regKey b o) 0).Sublist _
    rw [Tab.set_eq, if_pos (show 0 = zeroTab _ from rfl)]
    exact Tab.del_sublist _ _
  obtain ⟨e, he, hp⟩ := List.any_eq_true.1 h
  exact List.any_eq_true.2 ⟨e, hsub.subset he, hp⟩

/-- INT_STATUS but for bit 31, the parity cause. -/
def State.intStatusLow (s : State) (b : Blk) : Nat :=
  s.blockBits b % 2 ^ 29 + 2 ^ 29 * b2n (s.evBehind b != 0) + 2 ^ 30 * b2n (s.pend b 0)

theorem State.intStatusLow_lt (s : State) (b : Blk) : s.intStatusLow b < 2 ^ 31 := by
  have hbit : ∀ c, b2n c ≤ 1 := fun c => by cases c <;> decide
  have h1 := hbit (s.evBehind b != 0)
  have h2 := hbit (s.pend b 0)
  unfold State.intStatusLow
  omega
theorem State.intStatus_eq_or (s : State) (b : Blk) :
    s.intStatus b = BitVec.ofNat 32 (s.intStatusLow b) ||| bitAt (s.parityCause b) 31 := by
  show BitVec.ofNat 32 (s.intStatusLow b + 2 ^ 31 * b2n (s.parityCause b)) = _
  cases s.parityCause b with
  | false => simp [b2n, bitAt]
  | true =>
    have h := Nat.two_pow_add_eq_or_of_lt (State.intStatusLow_lt s b) 1
    simp only [b2n, bitAt, if_true, ← BitVec.ofNat_or]
    rw [Nat.or_comm, Nat.add_comm, h]
    rfl

theorem and_eq_zero_of_or_and {x y e : Word} (h : (x ||| y) &&& e = 0) : x &&& e = 0 := by
  rw [BitVec.and_comm, BitVec.and_or_distrib_left] at h
  rw [BitVec.and_comm]
  exact (BitVec.or_eq_zero_iff.1 h).1

/-- A register whose mismatch is removed makes no message due that was not. -/
theorem State.msixCause_of_setParity_zero {s : State} {b o : Nat} {b' : Blk} (h : (s.setParity b o 0).msixCause b' ≠ 0) :
    s.msixCause b' ≠ 0 := by
  intro hz
  apply h
  have hlow : (s.setParity b o 0).intStatusLow b' = s.intStatusLow b' := rfl
  have hreg : (s.setParity b o 0).reg b' 0xC = s.reg b' 0xC := rfl
  unfold State.msixCause at hz ⊢
  rw [State.intStatus_eq_or] at hz ⊢
  rw [hlow, hreg]
  cases hp : (s.setParity b o 0).parityCause b' with
  | true => rwa [State.parityCause_setParity_zero hp] at hz
  | false =>
    show (_ ||| 0#32) &&& _ = _
    rw [BitVec.or_zero]
    exact and_eq_zero_of_or_and hz

/-- The row of INT_ENABLE in the standard block of every frame. -/
def intEnableRow : RegRow := ⟨"INT_ENABLE", 0xC, 0, 1, .guarded, false, .rw, 0xFFFFFFFF, 0⟩

theorem regRow_intEnable {b : Blk} (hb : isBlock b = true) : regRow b 0xC = some (intEnableRow, 0) := by
  unfold regRow
  rw [hb]
  rfl
theorem State.regWrite_intEnable {s : State} {b : Blk} (hb : isBlock b = true) (m : Nat) (v : Word) :
    s.regWrite m b 0xC v = (s.rwEffect b 0xC 0xFFFFFFFF v).reparity b 0xC 0xFFFFFFFF v := by
  unfold State.regWrite
  rw [regRow_intEnable hb]
  rfl
theorem State.putReg_full (s : State) (b o : Nat) (v : Word) : s.putReg b o 0xFFFFFFFF v = s.setReg b o v := by
  have h : (s.reg b o &&& ~~~BitVec.allOnes 32) ||| (v &&& BitVec.allOnes 32) = v := by
    rw [BitVec.not_allOnes, BitVec.and_zero, BitVec.zero_or, BitVec.and_allOnes]
  exact congrArg (s.setReg b o) h

/-- The state that a write of INT_ENABLE of a block leaves: the value stored, the message due and the parity made anew. -/
def State.withIntEnable (s : State) (b : Blk) (v : Word) : State := ((s.setReg b 0xC v).msixAgain b).setParity b 0xC 0

theorem State.regWrite_intEnable_block {s : State} {b : Blk} (hb : b < 33) (m : Nat) (v : Word) :
    s.regWrite m b 0xC v = s.withIntEnable b v := by
  have hw : s.rwEffect b 0xC 0xFFFFFFFF v = (s.setReg b 0xC v).msixAgain b := by
    unfold State.rwEffect
    rw [if_pos rfl, if_neg (Nat.not_le.2 (Nat.lt_trans hb (by decide))), State.putReg_full]
  rw [State.regWrite_intEnable (by simp [isBlock, hb]), hw, State.reparity, State.reg_msixAgain, State.reg_setReg_self, if_pos rfl]
  rfl
/-- INT_ENABLE of a crucible is RSV (R106): a write stores nothing, and no more than the parity can change. -/
theorem State.regWrite_intEnable_cru {s : State} {b : Blk} (hb : isBlock b = true) (hc : 48 ≤ b) (m : Nat) (v : Word) :
    s.regWrite m b 0xC v = s.reparity b 0xC 0xFFFFFFFF v := by
  have hw : s.rwEffect b 0xC 0xFFFFFFFF v = s := by
    unfold State.rwEffect
    rw [if_pos rfl, if_pos hc]
  rw [State.regWrite_intEnable hb, hw]

theorem State.reg_withIntEnable (s : State) (b b' : Blk) (o : Nat) (v : Word) :
    (s.withIntEnable b v).reg b' o = (s.setReg b 0xC v).reg b' o := State.reg_msixAgain _ b b' o
theorem State.reg_withIntEnable_self (s : State) (b : Blk) (v : Word) : (s.withIntEnable b v).reg b 0xC = v := by
  rw [State.reg_withIntEnable, State.reg_setReg_self]
theorem State.reg_withIntEnable_ne (s : State) (b b' : Blk) {o : Nat} (v : Word) (ho : o < 0x10000) (hne : o ≠ 0xC) :
    (s.withIntEnable b v).reg b' o = s.reg b' o := by
  rw [State.reg_withIntEnable]
  exact State.reg_setReg_ne s v fun h => hne ((regKey_inj ho (by decide)).1 h).2
theorem State.qch_withIntEnable (s : State) (b : Blk) (v : Word) : (s.withIntEnable b v).qch = s.qch := by
  unfold State.withIntEnable; rw [State.msixAgain_eq]; rfl
theorem State.fbcs_withIntEnable (s : State) (b : Blk) (v : Word) : (s.withIntEnable b v).fbcs = s.fbcs := by
  unfold State.withIntEnable; rw [State.msixAgain_eq]; rfl
theorem State.quenchClear_withIntEnable {s : State} (h : s.quenchClear) (b : Blk) (v : Word) : (s.withIntEnable b v).quenchClear :=
  State.quenchClear_of_config h (State.qch_withIntEnable s b v)
    (fun _ hlo hhi => State.reg_withIntEnable_ne s b _ v hhi (by omega)) (State.halted_msixAgain (s.setReg b 0xC v) b)
/-- The message is due although the parity is made anew after it: that removes causes and brings none. -/
theorem State.withIntEnable_due {s : State} {b : Blk} {v : Word} (hb : b < 33) (h : (s.withIntEnable b v).msixCause b ≠ 0) :
    tget (s.withIntEnable b v).rf.msixDue b = true :=
  State.msixAgain_due hb (State.msixCause_msixAgain _ b b ▸ State.msixCause_of_setParity_zero h)

theorem frame_withIntEnable (s : State) (b : Blk) (v : Word) : Frame [.regs b, .halts] s (s.withIntEnable b v) :=
  (((frame_setReg s b (by decide) v).mono (by simp)).trans ((frame_msixAgain _ b).mono (by simp))).trans
    ((frame_setParity _ b 0xC 0).mono (by simp))
theorem frame_reparity (s : State) (b o : Nat) (mask v : Word) : Frame [.halts] s (s.reparity b o mask v) := by
  unfold State.reparity
  split
  · exact frame_setParity s b o 0
  · exact Frame.refl _ s

/-! ## The commands -/

theorem exec_ackWrite {b : Fin 96} {j : Fin 32} {s : State} (v : Count16) (hb : isBlock b.val = true)
    (hj : hasAck b.val j.val = true) (hg : s.gated b.val = false) :
    exec (.ackWrite b j v) s = done s (s.ackEffect b.val j.val v) := by
  show execAckWrite b j v s = _
  unfold execAckWrite
  rw [hb, hj, hg]
  rfl
theorem exec_intEnableWrite {b : Fin 96} {s : State} (v : Word) (hb : isBlock b.val = true) (hg : s.gated b.val = false) :
    exec (.intEnableWrite b v) s = done s (s.regWrite Config.mForeman b.val 0xC v) := by
  show execIntEnableWrite b v s = _
  unfold execIntEnableWrite
  rw [hb, hg]
  rfl

theorem ackWrite_yields (b : Fin 96) (j : Fin 32) (v : Count16) (s : State) (hb : isBlock b.val = true)
    (hj : hasAck b.val j.val = true) (hg : s.gated b.val = false) :
    Yields (.ackWrite b j v) s (fun t => t.ackOf b.val j.val = v ∧
      (∀ i, i < 32 → i ≠ j.val → t.ackOf b.val i = s.ackOf b.val i) ∧
      (s.quenchClear → t.evc b.val j.val = s.evc b.val j.val ∧ t.pend b.val j.val = (s.evc b.val j.val != v)) ∧
      (s.quenchClear → b.val < 33 → t.msixCause b.val ≠ 0 → tget t.rf.msixDue b.val = true) ∧
      Frame (if b.val = 5 then [.regs 5, .fmn] else [.regs b.val]) s t) := by
  refine yields_done (exec_ackWrite v hb hj hg) ?_
  have hack : ∀ i, (finish s (s.ackEffect b.val j.val v)).ackOf b.val i =
      if evKey b.val i = evKey b.val j.val then v else s.ackOf b.val i := fun i => by
    rw [← State.ackOf_ackEffect]
    unfold State.ackOf
    rw [finish_rf_ack]
  have hself : (finish s (s.ackEffect b.val j.val v)).ackOf b.val j.val = v := by rw [hack, if_pos rfl]
  refine ⟨hself, fun i hi hne => ?_, fun hq => ?_, fun hq hlt hc => ?_, frame_finish (frame_ackEffect s b.val j.isLt v)⟩
  · rw [hack, if_neg]
    exact fun h => hne ((evKey_inj hi j.isLt).1 h).2
  · have hevc : (finish s (s.ackEffect b.val j.val v)).evc b.val j.val = s.evc b.val j.val := by
      rw [finish_quiet s (State.quenchClear_ackEffect hq b.val j.val v)]
      exact State.evc_ackEffect s b.val j.val b.val j.val v
    exact ⟨hevc, by rw [State.pend, hevc, hself]⟩
  · rw [finish_msixCause s (State.quenchClear_ackEffect hq b.val j.val v)] at hc
    exact finish_keeps_due s (State.ackEffect_due hlt hc)

theorem intEnableWrite_block_yields (b : Fin 96) (v : Word) (s : State) (hb : b.val < 33) (hg : s.gated b.val = false)
    (hq : s.quenchClear) :
    Yields (.intEnableWrite b v) s (fun t => t.reg b.val 0xC = v ∧
      (∀ o, o < 0x10000 → o ≠ 0xC → t.reg b.val o = s.reg b.val o) ∧
      (t.msixCause b.val ≠ 0 → tget t.rf.msixDue b.val = true) ∧ t.qch = s.qch ∧ t.fbcs = s.fbcs ∧
      Frame [.regs b.val, .halts] s t) := by
  have hblk : isBlock b.val = true := by simp [isBlock, hb]
  refine yields_done ((exec_intEnableWrite v hblk hg).trans (by rw [State.regWrite_intEnable_block hb])) ?_
  have hquiet := State.quenchClear_withIntEnable hq b.val v
  have hend := finish_quiet s hquiet
  have hreg : ∀ o, (finish s (s.withIntEnable b.val v)).reg b.val o = (s.withIntEnable b.val v).reg b.val o := fun o => by
    rw [hend]; rfl
  refine ⟨(hreg _).trans (State.reg_withIntEnable_self s b.val v),
    fun o ho hne => (hreg o).trans (State.reg_withIntEnable_ne s b.val b.val v ho hne), fun hc => ?_,
    ?_, ?_, frame_finish (frame_withIntEnable s b.val v)⟩
  · rw [finish_msixCause s hquiet] at hc
    exact finish_keeps_due s (State.withIntEnable_due hb hc)
  · rw [hend]; exact State.qch_withIntEnable s b.val v
  · rw [hend]; exact State.fbcs_withIntEnable s b.val v

theorem intEnableWrite_cru_yields (b : Fin 96) (v : Word) (s : State) (hc : 48 ≤ b.val) (hg : s.gated b.val = false) :
    Yields (.intEnableWrite b v) s (fun t => Frame [.halts] s t) := by
  have hblk : isBlock b.val = true := by simp [isBlock, hc]
  refine yields_done ((exec_intEnableWrite v hblk hg).trans (by rw [State.regWrite_intEnable_cru hblk hc])) ?_
  exact frame_finish (frame_reparity s b.val 0xC _ v)

/-- The hypotheses are met: out of reset a mailbox's response can be acknowledged. -/
example : isBlock 5 = true ∧ hasAck 5 5 = true ∧ State.reset.gated 5 = false ∧ State.reset.quenchClear :=
  ⟨by decide, by decide, by decide, fun h => absurd h (by decide)⟩

/-- Settles O16: each of the three writes leaves what Quench's causes depend on, so that with none present its step ends with no
more than the messages due (`finish_quiet`), and the message of the write is among them (`finish_keeps_due`). -/
theorem acknowledgeAndEnable : Obligations.AcknowledgeAndEnable :=
  ⟨ackWrite_yields, intEnableWrite_block_yields, intEnableWrite_cru_yields⟩

end Sys2Proof.Machine
end

section
/-! SUPPORT. The always-on domain: requests to the power-state sequencer (R130, R131, R155), the advance of the calendar (R142) and the
rejection of commits (R146). -/
namespace Sys2Proof.Machine
open Sys2Proof

/-! ## An event with captured information -/

@[simp] theorem State.bumpInfo_aon (s : State) (b : Blk) (j off : Nat) (info : Word) : (s.bumpInfo b j off info).aon = s.aon := by
  unfold State.bumpInfo; split <;> rfl
@[simp] theorem State.bumpInfo_mem (s : State) (b : Blk) (j off : Nat) (info : Word) : (s.bumpInfo b j off info).mem = s.mem := by
  unfold State.bumpInfo; split <;> rfl
@[simp] theorem State.evc_bumpInfo_self (s : State) (b : Blk) (j off : Nat) (info : Word) :
    (s.bumpInfo b j off info).evc b j = s.evc b j + 1 := by
  unfold State.bumpInfo; split <;> simp
theorem State.reg_bumpInfo_self {s : State} {b : Blk} {j : Nat} (off : Nat) (info : Word) (h : s.pend b j = false) :
    (s.bumpInfo b j off info).reg b off = info := by
  simp [State.bumpInfo, h]

/-- A command that does no more than count an event with its information: the always-on domain and the memories stay, the event
advances, and the information is captured where none was pending. -/
theorem bumpInfo_yields {i : Instr} {s : State} {b : Blk} {j off : Nat} {info : Word}
    (h : exec i s = done s (s.bumpInfo b j off info)) (hb : ¬tripBlk b) (hj : j < 32) (ho : off < 0x10000) :
    Yields i s (fun t => t.aon = s.aon ∧ t.evc b j = s.evc b j + 1 ∧ t.mem = s.mem ∧
      (s.pend b j = false → t.reg b off = info)) := by
  refine yields_done h ⟨by simp, ?_, by simp, fun hp => ?_⟩
  · rw [finish_evc _ _ hj fun hc => hb (.inl hc.1), State.evc_bumpInfo_self]
  · rw [finish_reg _ _ ho hb, State.reg_bumpInfo_self off info hp]

theorem not_tripBlk_aon : ¬tripBlk Blk.aon := by unfold tripBlk Blk.aon; omega

/-! ## Requests to the power-state sequencer -/

@[simp] theorem State.pmicCalm_aon (s : State) (high : Bool) : (s.pmicCalm high).aon = { s.aon with pmicCalm := high } := rfl
@[simp] theorem State.pmicCalm_mem (s : State) (high : Bool) : (s.pmicCalm high).mem = s.mem := rfl

theorem exec_powerRequest (v : Word) (s : State) : exec (.powerRequest v) s = done s (s.powerRequest (fld v 0 3)) := rfl

/-- A request that meets the conditions of R130 changes, of the always-on domain, what belongs to the transition. -/
theorem State.powerRequest_admitted {s : State} {req : Nat} (h : s.pwrReason req = none) :
    (s.powerRequest req).aon.moving = some (req - 1) ∧ (s.powerRequest req).aon.pwr = s.aon.pwr ∧
      (s.powerRequest req).mem = s.mem := by
  unfold State.powerRequest
  rw [h]
  dsimp only
  split
  · simp
  · exact ⟨rfl, rfl, rfl⟩
theorem State.powerRequest_refused {s : State} {req r : Nat} (h : s.pwrReason req = some r) :
    s.powerRequest req = s.pwrRefuse req r := by
  unfold State.powerRequest; rw [h]

theorem powerRequest_admitted_yields {v : Word} {s : State} (h : s.pwrReason (fld v 0 3) = none) :
    Yields (.powerRequest v) s (fun t => t.aon.moving = some (fld v 0 3 - 1) ∧ t.aon.pwr = s.aon.pwr ∧ t.mem = s.mem) :=
  yields_done (exec_powerRequest v s) (by simpa using State.powerRequest_admitted h)
theorem powerRequest_refused_yields {v : Word} {s : State} {r : Nat} (h : s.pwrReason (fld v 0 3) = some r) :
    Yields (.powerRequest v) s (fun t => t.aon = s.aon ∧ t.evc Blk.aon 3 = s.evc Blk.aon 3 + 1 ∧ t.mem = s.mem ∧
      (s.pend Blk.aon 3 = false → t.reg Blk.aon 0x118 = (at_ r 8 4 ||| at_ (fld v 0 3) 0 3))) :=
  bumpInfo_yields ((exec_powerRequest v s).trans (by rw [State.powerRequest_refused h]; rfl)) not_tripBlk_aon (by omega) (by omega)

theorem State.pwrReason_unlisted (s : State) {req : Nat} (h : req = 0 ∨ 4 < req) : s.pwrReason req = some 8 := by
  unfold State.pwrReason
  rw [if_pos (by simpa using h)]
theorem State.pwrReason_busy {s : State} {req : Nat} (h1 : 1 ≤ req) (h4 : req ≤ 4) (hm : s.aon.moving.isSome = true) :
    s.pwrReason req = some 1 := by
  unfold State.pwrReason
  rw [if_neg (by simp; omega), if_pos hm]
theorem State.pwrReason_same {s : State} {req : Nat} (h1 : 1 ≤ req) (h4 : req ≤ 4) (hm : s.aon.moving = none)
    (hs : req - 1 = s.aon.pwr) : s.pwrReason req = some 7 := by
  unfold State.pwrReason
  rw [if_neg (by simp; omega), if_neg (by simp [hm]), if_pos hs]

/-- The hypotheses are met: out of reset a request for Gust is admitted, one for Breeze, the present state, is not. -/
example : State.reset.pwrReason 3 = none ∧ State.reset.pwrReason 2 = some 7 := by decide

/-- Settles O7: a refused request is no more than an event with its information (`bumpInfo_yields`), an admitted one sets the
transition, and the three refusals are the first branches of the sequencer's checks. -/
theorem powerRequests : Obligations.PowerRequests :=
  ⟨⟨fun _ _ => powerRequest_admitted_yields, fun _ _ _ => powerRequest_refused_yields⟩,
    fun _ s => ⟨s.pwrReason_unlisted, State.pwrReason_busy, State.pwrReason_same⟩⟩

/-! ## The advance of the calendar -/

/-- Days of a month by R142, as the statement on the calendar writes them. -/
def monthDays (y m : Nat) : Nat :=
  if m = 2 then (if (y % 4 = 0 ∧ y % 100 ≠ 0) ∨ y % 400 = 0 then 29 else 28)
  else if m = 4 ∨ m = 6 ∨ m = 9 ∨ m = 11 then 30 else 31

theorem monthLen_eq_monthDays (y m : Nat) : monthLen y m = monthDays y m := by
  unfold monthLen monthDays leapYear
  split
  iterate 5 simp
  next h4 h6 h9 h11 h2 => rw [if_neg h2, if_neg fun h => h.elim h4 fun h => h.elim h6 fun h => h.elim h9 h11]

theorem calAdvance_subsecond {c : Calendar} (h : c.sub < 32767) : (calAdvance c).1 = { c with sub := c.sub + 1 } := by
  unfold calAdvance; rw [if_pos (by omega)]
theorem calAdvance_second {c : Calendar} (hs : c.sub = 32767) (h : c.second < 59) :
    (calAdvance c).1 = { c with sub := 0, second := c.second + 1 } := by
  unfold calAdvance; rw [if_neg (by omega), if_pos (by omega)]
theorem calAdvance_minute {c : Calendar} (hs : c.sub = 32767) (h59 : c.second = 59) (h : c.minute < 59) :
    (calAdvance c).1 = { c with sub := 0, second := 0, minute := c.minute + 1 } := by
  unfold calAdvance; rw [if_neg (by omega), if_neg (by omega), if_pos (by omega)]
theorem calAdvance_hour {c : Calendar} (hs : c.sub = 32767) (h59 : c.second = 59) (hm : c.minute = 59) (h : c.hour < 23) :
    (calAdvance c).1 = { c with sub := 0, second := 0, minute := 0, hour := c.hour + 1 } := by
  unfold calAdvance; rw [if_neg (by omega), if_neg (by omega), if_neg (by omega), if_pos (by omega)]
theorem calAdvance_day {y m d : Nat} (h : d < monthDays y m) :
    (calAdvance ⟨y, m, d, 23, 59, 59, 32767⟩).1 = ⟨y, m, d + 1, 0, 0, 0, 0⟩ := by
  simp [calAdvance, monthLen_eq_monthDays, h]
theorem calAdvance_month {y m d : Nat} (h : monthDays y m ≤ d) (hm : m < 12) :
    (calAdvance ⟨y, m, d, 23, 59, 59, 32767⟩).1 = ⟨y, m + 1, 1, 0, 0, 0, 0⟩ := by
  simp [calAdvance, monthLen_eq_monthDays, Nat.not_lt.2 h, hm]
theorem calAdvance_year {y d : Nat} (h : monthDays y 12 ≤ d) (hy : y < 2399) :
    (calAdvance ⟨y, 12, d, 23, 59, 59, 32767⟩).1 = ⟨y + 1, 1, 1, 0, 0, 0, 0⟩ := by
  simp [calAdvance, monthLen_eq_monthDays, Nat.not_lt.2 h, hy]

/-! ## The tick -/

@[simp] theorem State.abandonCalm_cal (s : State) : s.abandonCalm.aon.cal = s.aon.cal := by
  simp [State.abandonCalm, State.pwrRefuse]
@[simp] theorem State.wake_cal (s : State) (level : BitVec 16) : (s.wake level).aon.cal = s.aon.cal := by
  unfold State.wake
  dsimp only
  split_ifs <;> simp
theorem State.foldl_bump_aon (hit : Nat) (l : List Nat) (s : State) :
    (l.foldl (fun s k => if bit hit k then s.bump Blk.aon (8 + k) else s) s).aon = s.aon := by
  induction l generalizing s with
  | nil => rfl
  | cons k l ih =>
    rw [List.foldl_cons, ih]
    split <;> rfl

/-- A tick with no commit pending ends in the wake sources of its alarms, the calendar already advanced. -/
theorem exec_calendarTick {s : State} (h : s.aon.commit = none) :
    ∃ (s' : State) (level : BitVec 16), s'.aon.cal = (calAdvance s.aon.cal).1 ∧ exec .calendarTick s = done s (s'.wake level) := by
  show ∃ (s' : State) (level : BitVec 16), _ ∧ execCalendarTick s = _
  unfold execCalendarTick
  rw [h]
  obtain ⟨c, wrap⟩ := calAdvance s.aon.cal
  refine ⟨_, _, ?_, rfl⟩
  rw [State.foldl_bump_aon]
  split <;> rfl

theorem calendarTick_yields {s : State} (h : s.aon.commit = none) :
    Yields .calendarTick s (fun t => t.aon.cal = (calAdvance s.aon.cal).1) := by
  obtain ⟨s', level, hcal, hexec⟩ := exec_calendarTick h
  exact yields_done hexec (by simp [hcal])

/-! ## The rejection of commits -/

/-- Row r of the table of R146 holds of a staged calendar, with a commit pending or not, as the statement on the calendar writes it. -/
@[reducible] def CommitRow (c : Calendar) (busy : Bool) (r : Nat) : Prop :=
  (r = 1 ∧ (c.year < 2000 ∨ 2399 < c.year)) ∨
    (r = 2 ∧ (c.month = 0 ∨ 13 ≤ c.month)) ∨ (r = 3 ∧ (c.day = 0 ∨ monthDays c.year c.month < c.day)) ∨ (r = 4 ∧ 24 ≤ c.hour) ∨
    (r = 5 ∧ 60 ≤ c.minute) ∨ (r = 6 ∧ 60 ≤ c.second) ∨ (r = 7 ∧ busy = true)

/-- The checks of a commit go through the rows in their order; each bound `n + 1 ≤ k` of a row is the check's `n < k`. -/
theorem calReason_eq (c : Calendar) (busy : Bool) :
    calReason c busy =
      if CommitRow c busy 1 then some 1 else if CommitRow c busy 2 then some 2 else if CommitRow c busy 3 then some 3
      else if CommitRow c busy 4 then some 4 else if CommitRow c busy 5 then some 5 else if CommitRow c busy 6 then some 6
      else if CommitRow c busy 7 then some 7 else none := by
  simp [calReason, CommitRow, monthLen_eq_monthDays]
  rfl
theorem CommitRow.range {c : Calendar} {busy : Bool} {r : Nat} (h : CommitRow c busy r) : 1 ≤ r ∧ r ≤ 7 := by
  unfold CommitRow at h; omega

/-- The reason of a rejection is the first row that holds: the rows before it fail, and each passes the check on. -/
theorem calReason_eq_some {c : Calendar} {busy : Bool} {r : Nat} (h : CommitRow c busy r) (least : ∀ k, k < r → ¬CommitRow c busy k) :
    calReason c busy = some r := by
  obtain ⟨h1, h7⟩ := h.range
  rw [calReason_eq]
  interval_cases r <;> simp only [h, least, Nat.reduceLT, if_true, if_false]

theorem exec_calCommit_rejected {s : State} {r : Nat} (h : calReason s.stagedCal s.aon.commit.isSome = some r) :
    exec .calCommit s = done s (s.bumpInfo Blk.aon 6 0x180 (at_ r 0 4)) := by
  show done s s.calCommit = _
  unfold State.calCommit
  rw [h]

theorem calCommit_rejected_yields {s : State} {r : Nat} (h : CommitRow s.stagedCal s.aon.commit.isSome r)
    (least : ∀ k, k < r → ¬CommitRow s.stagedCal s.aon.commit.isSome k) :
    Yields .calCommit s (fun t => t.aon = s.aon ∧ t.evc Blk.aon 6 = s.evc Blk.aon 6 + 1 ∧
      (s.pend Blk.aon 6 = false → t.reg Blk.aon 0x180 = at_ r 0 4) ∧ t.mem = s.mem) := by
  obtain ⟨t, ht, haon, hevc, hmem, hreg⟩ :=
    bumpInfo_yields (exec_calCommit_rejected (calReason_eq_some h least)) not_tripBlk_aon (by omega) (by omega)
  exact ⟨t, ht, haon, hevc, hreg, hmem⟩

/-- The hypotheses are met: out of reset no commit is pending, and a staged date of 0 has a year below 2000. -/
example : State.reset.aon.commit = none ∧ CommitRow (State.reset.setReg Blk.aon 0x160 0).stagedCal false 1 :=
  ⟨rfl, .inl ⟨rfl, by decide⟩⟩

/-- Settles O8: a tick keeps the calendar it has advanced, the advance is taken field by field, and a commit of which a row holds is
no more than an event with the lowest such row (`bumpInfo_yields`). -/
theorem calendarRules : Obligations.CalendarRules :=
  ⟨fun _ => calendarTick_yields,
    fun _ => ⟨calAdvance_subsecond, calAdvance_second, calAdvance_minute, calAdvance_hour⟩,
    fun _ _ _ => ⟨calAdvance_day, calAdvance_month, calAdvance_year⟩,
    fun _ _ => calCommit_rejected_yields⟩

end Sys2Proof.Machine
end

section
/-! SUPPORT. The Foreman's service: a RING outside IDLE (R261), LOG_READ (R281) and the watchdog's key (R293). -/
namespace Sys2Proof.Machine
open Sys2Proof

/-! ## One event -/

theorem State.evc_bump_ne (s : State) {b b' j j' : Nat} (hj : j < 32) (hj' : j' < 32) (h : ¬(b' = b ∧ j' = j)) :
    (s.bump b j).evc b' j' = s.evc b' j' := by
  rw [State.bump, State.evc_bumpBy, if_neg fun hk => h ((evKey_inj hj' hj).1 hk)]
theorem frame_bump (s : State) (b : Blk) {j : Nat} (hj : j < 32) : Frame [.regs b] s (s.bump b j) := by
  intro p hp _
  cases p with
  | regs b' =>
    refine ⟨fun _ _ => rfl, fun i hi => ⟨State.evc_bump_ne s hj hi ?_, rfl⟩⟩
    rintro ⟨rfl, -⟩
    exact hp (List.mem_singleton_self _)
  | _ => simp [StatePart.same, State.bump, State.bumpBy]
theorem frame_setFmn (s : State) (x : Fmn) : Frame [.fmn] s { s with fmn := x } := by
  intro p hp _
  cases p with
  | fmn => exact absurd (List.mem_singleton_self _) hp
  | _ => simp [StatePart.same, State.reg, State.evc, State.ackOf]

theorem not_tripBlk_fmn : ¬tripBlk Blk.fmn := by unfold tripBlk Blk.fmn; omega

/-! ## A RING -/

theorem State.ring_not_idle {s : State} {m : Nat} (h : (s.mb m).st ≠ .idle) : s.ring m = s.bump Blk.fmn 2 := if_neg h

theorem exec_mbDoorbellRing (m : MbId) (s : State) : exec (.mbDoorbellRing m) s = done s (s.ring m.val) := rfl

theorem mbDoorbellRing_not_idle_yields (m : MbId) (s : State) (h : (s.mb m.val).st ≠ .idle) :
    Yields (.mbDoorbellRing m) s (fun t => t.evc Blk.fmn 2 = s.evc Blk.fmn 2 + 1 ∧
      (∀ j, j ≠ 2 → j < 32 → t.evc Blk.fmn j = s.evc Blk.fmn j) ∧
      (∀ o, o < 0x10000 → t.reg Blk.fmn o = s.reg Blk.fmn o) ∧ Frame [.regs 5] s t) := by
  have hevc : ∀ j, j < 32 → (finish s (s.bump Blk.fmn 2)).evc Blk.fmn j = (s.bump Blk.fmn 2).evc Blk.fmn j :=
    fun j hj => finish_evc _ _ hj fun hc => not_tripBlk_fmn (.inl hc.1)
  refine yields_done ((exec_mbDoorbellRing m s).trans (by rw [State.ring_not_idle h])) ⟨?_, fun j hne hj => ?_, fun o ho => ?_, ?_⟩
  · rw [hevc 2 (by omega), State.evc_bump_self]
  · rw [hevc j hj, State.evc_bump_ne s (by omega) hj fun hc => hne hc.2]
  · rw [finish_reg _ _ ho not_tripBlk_fmn, State.reg_bump]
  · exact frame_finish (frame_bump s Blk.fmn (by omega))

/-! ## LOG_READ -/

/-- A command whose meaning is its final response alone: the mailbox holds it, and nothing else has changed. -/
theorem replyDone_yields {i : Instr} {s : State} {m : Nat} {p : List Byte} (h : exec i s = done s (s.replyDone m p)) :
    Yields i s (fun t => t.doneWith m p ∧ Frame [.fmn] s t) := by
  refine yields_done h ⟨?_, frame_finish (State.reply_frame s m _)⟩
  have hmb : (finish s (s.replyDone m p)).mb m = (s.replyDone m p).mb m := by unfold State.mb; rw [finish_fmn]
  unfold State.doneWith State.answers
  rw [hmb]
  exact State.replyDone_doneWith s m p

theorem exec_logRead_asks {m : MbId} {s : State} (h : s.asks m.val 4 4 [(0x10, 4, true)]) :
    exec (.logRead m) s = done s (s.replyDone m.val
      (leBytes 4 s.logText.length ++ leBytes 4 0 ++ (s.logText.drop (s.rq m.val 0x10 4)).take 224)) :=
  congrArg (done s) (State.request_asks _ h)

theorem logRead_yields (m : MbId) (s : State) (h : s.asks m.val 4 4 [(0x10, 4, true)]) :
    Yields (.logRead m) s (fun t =>
      t.doneWith m.val (leBytes 4 s.logText.length ++ leBytes 4 0 ++ (s.logText.drop (s.rq m.val 0x10 4)).take 224) ∧
      Frame [.fmn] s t) := replyDone_yields (exec_logRead_asks h)

/-! ## The watchdog's key -/

theorem State.kick_key (s : State) : s.kick 0x6B = { s with fmn.wdogFrom := s.clk.now, fmn.wdogWarn := false } := if_pos rfl
theorem State.kick_other (s : State) {k : Nat} (h : k ≠ 0x6B) :
    s.kick k = { s.bump Blk.fmn 4 with fmn.wdogForced := true } := if_neg h
theorem State.wdogExpires_of_forced {s : State} (h : s.fmn.wdogForced = true) : s.wdogExpires = true := by
  simp [State.wdogExpires, h]

theorem exec_wdogKick (k : Byte) (s : State) : exec (.wdogKick k) s = done s (s.kick k.toNat) := rfl

theorem wdogKick_key_yields (s : State) :
    Yields (.wdogKick 0x6B) s (fun t => t.fmn.wdogFrom = s.clk.now ∧ Frame [.fmn] s t) := by
  refine yields_done ((exec_wdogKick 0x6B s).trans (congrArg (done s) s.kick_key)) ⟨?_, frame_finish (frame_setFmn s _)⟩
  rw [finish_fmn]

theorem wdogKick_other_yields (k : Byte) (s : State) (h : k ≠ 0x6B) :
    Yields (.wdogKick k) s (fun t => t.evc Blk.fmn 4 = s.evc Blk.fmn 4 + 1 ∧ t.wdogExpires = true ∧
      t.fmn.wdogFrom = s.fmn.wdogFrom ∧ Frame [.fmn, .regs 5] s t) := by
  have hk : k.toNat ≠ 0x6B := fun hc => h (BitVec.eq_of_toNat_eq hc)
  refine yields_done ((exec_wdogKick k s).trans (by rw [State.kick_other s hk])) ⟨?_, ?_, ?_, frame_finish ?_⟩
  · rw [finish_evc _ _ (by omega) fun hc => not_tripBlk_fmn (.inl hc.1)]
    exact State.evc_bump_self s Blk.fmn 4
  · exact State.wdogExpires_of_forced (by rw [finish_fmn])
  · rw [finish_fmn]; rfl
  · exact ((frame_bump s Blk.fmn (by omega)).mono (by simp)).trans ((frame_setFmn _ _).mono (by simp))

/-- The hypotheses are met: after a first RING mailbox 0 is no longer IDLE, and a copied request of LOG_READ with LENGTH 4 and
OFFSET 32 is accepted. -/
example : ((State.reset.ring 0).mb 0).st ≠ .idle ∧
    (State.reset.setMb 0 { st := .working, ready := true, copy := [4, 0, 0, 0, 0, 0, 0, 0, 4, 0, 3, 0, 0, 0, 0, 0, 32, 0, 0, 0] }).asks
      0 4 4 [(0x10, 4, true)] := by
  unfold State.asks State.accepts; decide

/-- Settles O24: a RING outside IDLE is no more than its event (`State.ring_not_idle`), an accepted LOG_READ no more than its final
response (`replyDone_yields`), and the key's two values are the two branches of `State.kick`. -/
theorem foremanRules : Obligations.ForemanRules :=
  ⟨mbDoorbellRing_not_idle_yields, logRead_yields, wdogKick_key_yields, wdogKick_other_yields⟩

end Sys2Proof.Machine
end

section
/-! SUPPORT. How every command ends: each arm of `exec` is a state that `done` finishes; and what follows of that alone. -/
namespace Sys2Proof.Machine
open Sys2Proof

/-- Every command ends in `done`: none faults, none is refused. -/
theorem exec_eq_done (c : Instr) (s : State) : ∃ s', exec c s = done s s' := by
  cases c
  case adcSample | tempUpdate | coreBrownout | aonBrownout | sourceReadyChange | muxHang | domainResetComplete | gateClose
      | meterMeasurement | meterStopped | engineCfg | triggerArrival | runBegin | runEnd | runStop | runLimit | graphTrigger
      | runNode | waitNode | waitNodeTimeout | signalNode | branchNode | timestampNode | endNode | instanceLimit | sectorStale
      | odomTimeout | cliffMatcherTimeout | readbackMismatch | waitTimeReached | stoppedTargetEdge | powerTransitionComplete
      | calmEntryCommit | calendarTick | calCaptureCopy | calCommitApply | stopFrameRepeat | clearFrameSend | readbackMatch =>
    dsimp only [exec, execAdcSample, execTempUpdate, execCoreBrownout, execAonBrownout, execSourceReadyChange, execMuxHang,
      execDomainResetComplete, execGateClose, execMeterMeasurement, execMeterStopped, execEngineCfg, execTriggerArrival,
      execRunBegin, execRunEnd, execRunStop, execRunLimit, execGraphTrigger, execRunNode, execWaitNode, execWaitNodeTimeout,
      execSignalNode, execBranchNode, execTimestampNode, execEndNode, execInstanceLimit, execSectorStale, execOdomTimeout,
      execCliffMatcherTimeout, execReadbackMismatch, execWaitTimeReached, execStoppedTargetEdge, execPowerTransitionComplete,
      execCalmEntryCommit, execCalendarTick, execCalCaptureCopy, execCalCommitApply, execStopFrameRepeat, execClearFrameSend,
      execReadbackMatch]
    repeat' split
    all_goals exact ⟨_, rfl⟩
  all_goals exact ⟨_, rfl⟩

theorem exec_next {c : Instr} {s t : State} (h : exec c s = .next t) : ∃ s', t = finish s s' := by
  obtain ⟨s', hs⟩ := exec_eq_done c s
  rw [hs] at h
  exact ⟨s', (Host.Outcome.next.inj h).symm⟩
theorem step_next {s t : State} (h : step s = .next t) : ∃ s0 s', t = finish s0 s' := by
  unfold step at h
  split at h
  · exact ⟨s, s.idle, (Host.Outcome.next.inj h).symm⟩
  · obtain ⟨s', h⟩ := exec_next h
    exact ⟨_, s', h⟩

/-- The trip that is due leaves Quench TRIPPED wherever a cause is present. -/
theorem State.tripDue_quenchClear (s : State) : s.tripDue.quenchClear := by
  intro ha
  unfold State.tripDue at ha ⊢
  split
  · next h => rw [if_pos h, State.trip_st] at ha; cases ha
  · next h =>
    rw [if_neg h] at ha
    by_contra hc
    simp [ha, hc] at h
/-- The messages due change no cause: the end of any step leaves Quench out of ARMED where one is present. -/
theorem finish_quenchClear (s0 s : State) : (finish s0 s).quenchClear := State.tripDue_quenchClear s

/-- Settles O4: every step ends in `finish`, whose trip leaves Quench TRIPPED where a cause is present. -/
theorem armedMeansNoCause : Obligations.ArmedMeansNoCause := by
  intro s t _ h
  obtain ⟨s0, s', rfl⟩ := step_next h
  exact finish_quenchClear s0 s'

theorem State.pairRun_iff (s : State) : s.pairRun = true ↔ s.qch.st = .armed ∧ s.pairHeld = false := by
  simp [State.pairRun]
theorem State.pairHeld_eq_false {s : State} (h : s.pairHeld = false) : s.aon.pwr ≠ 0 ∧ s.aon.grave = none := by
  simp only [State.pairHeld, Bool.or_eq_false_iff] at h
  obtain ⟨⟨⟨⟨⟨⟨hpwr, hgrave⟩, -⟩, -⟩, -⟩, -⟩, -⟩ := h
  exact ⟨by simpa using hpwr, by simpa using hgrave⟩

/-- Settles O5: the pair shows RUN only in ARMED with nothing holding it, and the end of a step leaves ARMED only without a cause. -/
theorem pairRunsOnlyWhenSafe : Obligations.PairRunsOnlyWhenSafe := by
  intro c s t h hrun
  obtain ⟨s', rfl⟩ := exec_next h
  obtain ⟨harmed, hheld⟩ := (State.pairRun_iff _).1 hrun
  obtain ⟨hpwr, hgrave⟩ := State.pairHeld_eq_false hheld
  exact ⟨harmed, finish_quenchClear s s' harmed, hgrave, hpwr⟩

/-- Among the blocks listed, one of which p does not hold has its message due after the fold. -/
theorem tget_foldl_tset_mem {l : List Nat} {p : Nat → Prop} [DecidablePred p] {t : Tab Bool} {k : Nat} (hk : k ∈ l) (hp : ¬p k) :
    tget (l.foldl (fun t b => if p b then t else tset t b true) t) k = true := by
  induction l generalizing t with
  | nil => simp at hk
  | cons b l ih =>
    rcases List.mem_cons.1 hk with rfl | hk
    · rw [List.foldl_cons, if_neg hp]
      exact tget_foldl_tset (by rw [tget_tset, if_pos rfl])
    · exact ih hk

/-- Settles O6: `latchRises` compares the two states' causes block by block, and sets nothing that they depend on. -/
theorem risingCauseMakesMessageDue : Obligations.RisingCauseMakesMessageDue := by
  intro c s t b h hb hrise
  obtain ⟨s', rfl⟩ := exec_next h
  exact tget_foldl_tset_mem (p := fun b => (s'.tripDue.intStatus b &&& s'.tripDue.reg b 0xC) &&&
    ~~~(s.intStatus b &&& s.reg b 0xC) = 0) (List.mem_range.2 hb) hrise

/-- Settles O1, by the definition of a step with a command waiting. -/
theorem stepRunsFrontCommand : Obligations.StepRunsFrontCommand := by
  intro c rest s h
  unfold step
  rw [h]

end Sys2Proof.Machine
end

section
/-! SUPPORT. Two statements on memory that speak of every state, and fail where the table of bytes is not in canonical form: there
a store drops listed bytes, and a run of bytes differs from the bytes one by one. -/
namespace Sys2Proof.Machine
open Sys2Proof

/-- Its byte at 5 is listed behind the byte at 8. -/
def byteOutOfOrder : State := { mem := { bytes := [(8, 1), (5, 1)] } }

/-- The Foreman's write of one byte at 8 in that memory, and its read of that byte. -/
def byteOutOfOrder.written : State := finish byteOutOfOrder (byteOutOfOrder.fabricAccess 0x30 .secure 8 false (.write [2]))
def byteOutOfOrder.readBack : State := written.fabricAccess 0x30 .secure 8 false (.read 1)

theorem byteOutOfOrder.readBack_bytes : readBack.mem.bytes = [(8, 2)] := by decide +kernel

/-- Refutes O21: its states need not hold their bytes in canonical form. The Foreman writes byte 8 of a memory that lists byte 5
after byte 8; the store keeps what is listed before 8 and what follows the first byte past 8, so byte 5, which the write does not
touch, is lost. -/
theorem not_masterReadsOwnWrite : ¬Obligations.MasterReadsOwnWrite := by
  intro h
  obtain ⟨u, hu, -, hkeep⟩ := h 0x30 .secure 8 false false [2] byteOutOfOrder byteOutOfOrder.written (by decide) (by decide)
    (by decide) (by decide) rfl (by decide) (by decide) rfl (fun _ _ _ => rfl) rfl
  have hrun : exec (.fabricAccess 0x30 .secure 8 false (.read 1)) byteOutOfOrder.written =
    done byteOutOfOrder.written byteOutOfOrder.readBack := rfl
  obtain rfl := Host.Outcome.next.inj (hrun.symm.trans hu)
  have h5 := hkeep 5 (.inl (by decide))
  unfold State.mbyte at h5
  rw [finish_mem, byteOutOfOrder.readBack_bytes] at h5
  exact absurd h5 (by decide)

/-- Its byte at 8 is listed behind the byte at 9. -/
def wordOutOfOrder : State := { mem := { bytes := [(9, 1), (8, 1)] } }

/-- Refutes O39: its states need not hold their bytes in canonical form. A run of bytes from 8 does not see byte 8 of this memory,
which stands behind byte 9; the correction of that byte lists it in its place, and the next run does see it. -/
theorem not_eccCorrectsOne : ¬Obligations.EccCorrectsOne := by
  rintro ⟨hone, -⟩
  obtain ⟨hread, -⟩ := hone wordOutOfOrder 0 8 0 (by decide) (by decide) (by decide) rfl
  exact absurd hread (by decide)

end Sys2Proof.Machine
end

section
/-! SUPPORT. What an operation leaves: `Only l` says that no part of the state outside l changes, trips included; and what the
accessors read at the end of a step. -/
namespace Sys2Proof.Machine
open Sys2Proof

/-! ## The parts an operation changes -/

/-- From s to t no part changes but those listed. -/
def Only (l : List StatePart) (s t : State) : Prop := ∀ p, p ∉ l → p.same s t

theorem Only.frame {l : List StatePart} {s t : State} (h : Only l s t) : Frame l s t := fun p hp _ => h p hp
theorem Only.refl (l : List StatePart) (s : State) : Only l s s := by
  intro p _; cases p <;> simp [StatePart.same]
theorem Only.trans {l : List StatePart} {s t u : State} (h : Only l s t) (k : Only l t u) : Only l s u := by
  intro p hp
  have a := h p hp
  have b := k p hp
  cases p with
  | regs n =>
    exact ⟨fun o ho => (b.1 o ho).trans (a.1 o ho), fun j hj => ⟨(b.2 j hj).1.trans (a.2 j hj).1, (b.2 j hj).2.trans (a.2 j hj).2⟩⟩
  | halts =>
    obtain ⟨a1, a2, a3, a4⟩ := a
    obtain ⟨b1, b2, b3, b4⟩ := b
    exact ⟨b1.trans a1, b2.trans a2, b3.trans a3, b4.trans a4⟩
  | copies =>
    obtain ⟨a1, a2, a3⟩ := a
    obtain ⟨b1, b2, b3⟩ := b
    exact ⟨b1.trans a1, b2.trans a2, b3.trans a3⟩
  | _ => exact Eq.trans b a
theorem Only.mono {l l' : List StatePart} {s t : State} (h : Only l s t) (hl : l ⊆ l') : Only l' s t :=
  fun p hp => h p fun hm => hp (hl hm)
/-- A last change after others: what is left to show is said of the state before it. -/
theorem Only.after {l : List StatePart} {s t u : State} (k : Only l t u) (h : Only l s t) : Only l s u := h.trans k
/-- One change after another: the parts of both. -/
theorem Only.comp {l l' : List StatePart} {s t u : State} (h : Only l s t) (k : Only l' t u) : Only (l ++ l') s u :=
  (h.mono (List.subset_append_left l l')).trans (k.mono (List.subset_append_right l l'))
theorem Only.foldl {α : Type} {l : List StatePart} {f : State → α → State} {xs : List α} (h : ∀ s, ∀ x ∈ xs, Only l s (f s x)) (s : State) :
    Only l s (xs.foldl f s) := by
  induction xs generalizing s with
  | nil => exact Only.refl l s
  | cons x xs ih => exact (h s x (List.mem_cons_self ..)).trans (ih (fun s y hy => h s y (List.mem_cons_of_mem _ hy)) _)
theorem Only.foldlAfter {α : Type} {l : List StatePart} {f : State → α → State} {xs : List α} {s t : State}
    (h : ∀ u, ∀ x ∈ xs, Only l u (f u x)) (k : Only l s t) : Only l s (xs.foldl f t) := k.trans (Only.foldl h t)
theorem Only.iteAfter {l : List StatePart} {c : Prop} [Decidable c] {s r t u : State} (h : Only l s r) (ht : c → Only l r t)
    (hu : ¬c → Only l r u) : Only l s (if c then t else u) := by
  split
  · next hc => exact h.trans (ht hc)
  · next hc => exact h.trans (hu hc)
theorem Only.ite {l : List StatePart} {c : Prop} [Decidable c] {s t u : State} (h : c → Only l s t) (k : ¬c → Only l s u) :
    Only l s (if c then t else u) := by
  split
  · next hc => exact h hc
  · next hc => exact k hc

/-- How the frame of a command is shown: its meaning changes those parts alone. -/
theorem Only.frame_finish {l : List StatePart} {s s' : State} (h : Only l s s') : Frame l s (finish s s') :=
  Sys2Proof.Machine.frame_finish h.frame

section
variable {l : List StatePart} {s t : State}
theorem Only.pending (h : Only l s t) (hp : .pending ∉ l) : t.pending = s.pending := h .pending hp
theorem Only.aon (h : Only l s t) (hp : .aon ∉ l) : t.aon = s.aon := h .aon hp
theorem Only.clk (h : Only l s t) (hp : .clk ∉ l) : t.clk = s.clk := h .clk hp
theorem Only.fmn (h : Only l s t) (hp : .fmn ∉ l) : t.fmn = s.fmn := h .fmn hp
theorem Only.mem (h : Only l s t) (hp : .mem ∉ l) : t.mem = s.mem := h .mem hp
theorem Only.qch (h : Only l s t) (hp : .qch ∉ l) : t.qch = s.qch := h .qch hp
theorem Only.fbcs (h : Only l s t) (hp : .fbcs ∉ l) : t.fbcs = s.fbcs := h .fbcs hp
theorem Only.reg (h : Only l s t) {b o : Nat} (hp : .regs b ∉ l) (ho : o < 0x10000) : t.reg b o = s.reg b o := (h (.regs b) hp).1 o ho
theorem Only.evc (h : Only l s t) {b j : Nat} (hp : .regs b ∉ l) (hj : j < 32) : t.evc b j = s.evc b j := ((h (.regs b) hp).2 j hj).1
theorem Only.halted (h : Only l s t) (hp : .halts ∉ l) : t.rf.halted = s.rf.halted := (h .halts hp).1
/-- A change that leaves Quench, its registers and the halted blocks brings no cause. -/
theorem Only.quenchClear (h : Only l s t) (hs : s.quenchClear) (hq : .qch ∉ l) (hr : .regs 27 ∉ l) (hh : .halts ∉ l) : t.quenchClear :=
  State.quenchClear_of_config hs (h.qch hq) (fun _ _ ho => h.reg hr ho) (h.halted hh)
end

/-! ## The parts that each update changes -/

theorem only_setReg (s : State) (b : Blk) {o : Nat} (ho : o < 0x10000) (v : Word) : Only [.regs b] s (s.setReg b o v) := by
  intro p hp
  cases p with
  | regs b' =>
    refine ⟨fun i hi => State.reg_setReg_ne s v ?_, fun _ _ => ⟨rfl, rfl⟩⟩
    rw [Ne, regKey_inj hi ho]
    rintro ⟨rfl, -⟩
    exact hp (List.mem_singleton_self _)
  | _ => simp [StatePart.same, State.setReg]
theorem only_setPair (s : State) (b : Blk) {o : Nat} (ho : o + 4 < 0x10000) (v : Nat) : Only [.regs b] s (s.setPair b o v) :=
  (only_setReg s b (by omega) _).trans (only_setReg _ b ho _)
theorem only_setFld (s : State) (b : Blk) {o : Nat} (ho : o < 0x10000) (lo n v : Nat) : Only [.regs b] s (s.setFld b o lo n v) :=
  only_setReg s b ho _
theorem only_bumpBy (s : State) (b : Blk) {j : Nat} (hj : j < 32) (k : Nat) : Only [.regs b] s (s.bumpBy b j k) := by
  intro p hp
  cases p with
  | regs b' =>
    refine ⟨fun _ _ => rfl, fun i hi => ⟨?_, rfl⟩⟩
    rw [State.evc_bumpBy, if_neg]
    rw [evKey_inj hi hj]
    rintro ⟨rfl, -⟩
    exact hp (List.mem_singleton_self _)
  | _ => simp [StatePart.same, State.bumpBy]
theorem only_bump (s : State) (b : Blk) {j : Nat} (hj : j < 32) : Only [.regs b] s (s.bump b j) := only_bumpBy s b hj 1
theorem only_bumpInfo (s : State) (b : Blk) {j off : Nat} (hj : j < 32) (ho : off < 0x10000) (info : Word) :
    Only [.regs b] s (s.bumpInfo b j off info) := by
  unfold State.bumpInfo
  exact Only.ite (fun _ => only_bump s b hj) (fun _ => (only_setReg s b ho info).trans (only_bump _ b hj))

/-- A part that is a field of its own. -/
theorem only_setBus (s : State) (x : Bus) : Only [.bus] s { s with bus := x } := by
  intro p hp; cases p <;> simp_all [StatePart.same, State.reg, State.evc, State.ackOf]
theorem only_setAon (s : State) (x : Aon) : Only [.aon] s { s with aon := x } := by
  intro p hp; cases p <;> simp_all [StatePart.same, State.reg, State.evc, State.ackOf]
theorem only_setBaro (s : State) (x : Baro) : Only [.baro] s { s with baro := x } := by
  intro p hp; cases p <;> simp_all [StatePart.same, State.reg, State.evc, State.ackOf]
theorem only_setClk (s : State) (x : Clk) : Only [.clk] s { s with clk := x } := by
  intro p hp; cases p <;> simp_all [StatePart.same, State.reg, State.evc, State.ackOf]
theorem only_setRst (s : State) (x : Rst) : Only [.rst] s { s with rst := x } := by
  intro p hp; cases p <;> simp_all [StatePart.same, State.reg, State.evc, State.ackOf]
theorem only_setFmn (s : State) (x : Fmn) : Only [.fmn] s { s with fmn := x } := by
  intro p hp; cases p <;> simp_all [StatePart.same, State.reg, State.evc, State.ackOf]
theorem only_setQch (s : State) (x : Qch) : Only [.qch] s { s with qch := x } := by
  intro p hp; cases p <;> simp_all [StatePart.same, State.reg, State.evc, State.ackOf]
theorem only_setFbcs (s : State) (x : Tab Fbc) : Only [.fbcs] s { s with fbcs := x } := by
  intro p hp; cases p <;> simp_all [StatePart.same, State.reg, State.evc, State.ackOf]
theorem only_setQueues (s : State) (x : Tab Queue) : Only [.queues] s { s with queues := x } := by
  intro p hp; cases p <;> simp_all [StatePart.same, State.reg, State.evc, State.ackOf]
theorem only_setMem (s : State) (x : Mem) : Only [.mem] s { s with mem := x } := by
  intro p hp; cases p <;> simp_all [StatePart.same, State.reg, State.evc, State.ackOf]
theorem only_setSch (s : State) (x : Sch) : Only [.sch] s { s with sch := x } := by
  intro p hp; cases p <;> simp_all [StatePart.same, State.reg, State.evc, State.ackOf]
theorem only_setSpr (s : State) (x : Spr) : Only [.spr] s { s with spr := x } := by
  intro p hp; cases p <;> simp_all [StatePart.same, State.reg, State.evc, State.ackOf]
/-- The counter of free values is no part. -/
theorem only_setFree (s : State) (n : Nat) : Only [] s { s with free := n } := by
  intro p _; cases p <;> simp [StatePart.same, State.reg, State.evc, State.ackOf]
theorem only_setMb (s : State) (m : Nat) (x : Mailbox) : Only [.fmn] s (s.setMb m x) := only_setFmn s _
theorem only_reply (s : State) (m : Nat) (r : Resp) : Only [.fmn] s (s.reply m r) := only_setMb s m _
theorem only_setDomain (s : State) (d : Nat) (x : Domain) : Only [.clk] s (s.setDomain d x) := only_setClk s _
theorem only_setQueue (s : State) (q : Nat) (x : Queue) : Only [.queues] s (s.setQueue q x) := only_setQueues s _
theorem only_setFbc (s : State) (k : Nat) (x : Fbc) : Only [.fbcs] s (s.setFbc k x) := only_setFbcs s _
theorem only_setChk (s : State) (a : Nat) (c : Byte) : Only [.mem] s (s.setChk a c) := only_setMem s _

/-! ## Memory operations -/

theorem only_fabErr (s : State) (k m : Nat) (cls : AccessClass) (c : Nat) (w : Bool) (a : Nat) :
    Only [.regs 0] s (s.fabErr k m cls c w a) := by
  unfold State.fabErr
  exact Only.ite (fun _ => only_bump s Blk.chip (by omega)) (fun _ => ((only_setPair s Blk.chip (by omega) _).trans
    (only_setReg _ Blk.chip (by omega) _)).trans (only_bump _ Blk.chip (by omega)))
theorem only_memErr (s : State) {src : Nat} (hs : src < 32) (kind m a : Nat) : Only [.regs 8] s (s.memErr src kind m a) := by
  unfold State.memErr
  exact Only.ite (fun _ => only_bump s Blk.mem hs) (fun _ => ((only_setReg s Blk.mem (by omega) _).trans
    (only_setPair _ Blk.mem (by omega) _)).trans (only_bump _ Blk.mem hs))
theorem bankOf_lt (a : Nat) : bankOf a < 73 := by
  unfold bankOf hearthOf inIngot inHearth inMould mouldBase
  simp only [decide_eq_true_eq, Bool.and_eq_true]
  split_ifs <;> omega
theorem only_bankCount (s : State) (a : Nat) (ue : Bool) : Only [.regs 8] s (s.bankCount a ue) := by
  have ho : 0x1000 + 4 * bankOf a < 0x10000 := by have := bankOf_lt a; omega
  unfold State.bankCount
  exact Only.ite (fun _ => only_setReg s Blk.mem ho _) (fun _ => only_setReg s Blk.mem ho _)
theorem only_flipData (s : State) (a d : Nat) : Only [.mem] s (s.flipData a d) := only_setMem s _
theorem only_correct (s : State) (a pos : Nat) : Only [.mem] s (s.correct a pos) := by
  unfold State.correct
  dsimp only
  split
  · exact (only_flipData s a _).trans (only_setChk _ a 0)
  · exact only_setChk s a 0
theorem only_inject (s : State) (a : Nat) : Only [.mem] s (s.inject a) := by
  have one : ∀ (t : State) (d : Nat), Only [.mem] t (if d < 64 then (t.flipData a d).setChk a (t.chkAt a ^^^ flipChk d) else t) :=
    fun t d => Only.ite (fun _ => (only_flipData t a d).trans (only_setChk _ a _)) (fun _ => Only.refl _ t)
  unfold State.inject
  dsimp only
  refine Only.ite (fun _ => ?_) (fun _ => Only.refl _ s)
  exact (((one s _).trans (one _ _)).trans (only_setChk _ a _)).trans (only_setMem _ _)
/-- The memories, with the error counts and captures of their frame. -/
abbrev memParts : List StatePart := [.mem, .regs 8]
theorem only_corrected (s : State) (a pos : Nat) : Only memParts s (((s.correct a pos).bankCount a false).bump Blk.mem 2) :=
  (((only_correct s a pos).mono (by simp)).trans ((only_bankCount _ a false).mono (by simp))).trans
    ((only_bump _ Blk.mem (by omega)).mono (by simp))
theorem only_uncorrectable (s : State) (m a : Nat) : Only memParts s (((s.memErr 3 1 m a).bankCount a true).setChk a 0xFF) :=
  (((only_memErr s (by omega) 1 m a).mono (by simp)).trans ((only_bankCount _ a true).mono (by simp))).trans
    ((only_setChk _ a _).mono (by simp))
theorem only_poisoned (s : State) (m a : Nat) : Only memParts s (s.memErr 4 2 m a) :=
  (only_memErr s (by omega) 2 m a).mono (by simp)
theorem only_putBytes (s : State) (a : Nat) (l : List Byte) : Only memParts s { s with mem.bytes := putBytes s.mem.bytes a l } :=
  (only_setMem s _).mono (by simp)
theorem only_touchWord (s : State) (m a : Nat) : Only memParts s (s.touchWord m a).2 := by
  unfold State.touchWord
  split
  · exact Only.refl _ s
  · split
    · exact Only.refl _ s
    · exact only_corrected s a _
    · exact only_uncorrectable s m a
    · exact only_poisoned s m a
theorem only_touchWords (s : State) (m w n : Nat) : Only memParts s (s.touchWords m w n).2 := by
  induction n generalizing s w with
  | zero => exact Only.refl _ s
  | succ n ih => exact (only_touchWord s m (8 * w)).trans (ih _ (w + 1))
theorem only_demandRead (s : State) (m a n : Nat) : Only memParts s (s.demandRead m a n).2.2 := only_touchWords s m _ _
theorem only_writeWord (s : State) (m a : Nat) (l : List Byte) : Only memParts s (s.writeWord m a l).2 := by
  unfold State.writeWord
  split
  · exact (only_putBytes s a l).trans (((only_setChk _ a 0).trans (only_inject _ a)).mono (by simp))
  · split
    · exact only_putBytes s a l
    · exact (only_corrected s a _).trans (only_putBytes _ a l)
    · exact only_uncorrectable s m a
    · exact only_poisoned s m a
theorem only_writeWords (s : State) (m a n : Nat) (l : List Byte) : Only memParts s (s.writeWords m a l n).2 := by
  induction n generalizing s a l with
  | zero => exact Only.refl _ s
  | succ n ih =>
    unfold State.writeWords
    split
    · exact Only.refl _ s
    · exact (only_writeWord s m a _).trans (ih _ _ _)
theorem only_demandWrite (s : State) (m a : Nat) (l : List Byte) : Only memParts s (s.demandWrite m a l).2 :=
  only_writeWords s m a _ l

/-- The memories, their frame, and the errors of the fabric. -/
abbrev accessParts : List StatePart := [.mem, .regs 8, .regs 0]
theorem only_makeVisible (s : State) (p : Posted) : Only accessParts s (s.makeVisible p) := by
  unfold State.makeVisible
  refine Only.ite (fun _ => Only.refl _ s) (fun _ => ?_)
  dsimp only
  have h : Only accessParts s (s.demandWrite p.master p.addr p.bytes).2 := (only_demandWrite s _ _ _).mono (by simp)
  exact Only.ite (fun _ => h.trans ((only_fabErr _ _ _ _ _ _ _).mono (by simp))) (fun _ => h)
abbrev settleParts : List StatePart := [.mem, .regs 8, .regs 0, .bus]
theorem only_settle (s : State) (f : Posted → Bool) : Only settleParts s (s.settle f) :=
  ((only_setBus s _).mono (by simp)).trans (Only.foldl (fun t p _ => (only_makeVisible t p).mono (by simp)) _)
theorem only_settleOne (s : State) : Only settleParts s s.settleOne := by
  unfold State.settleOne
  refine Only.ite (fun _ => Only.refl _ s) (fun _ => ?_)
  dsimp only
  have h : Only settleParts s (s.takeFree 32).2 := (only_setFree s _).mono (by simp)
  split
  · exact h
  · split
    · exact h
    · exact (h.trans ((only_setBus _ _).mono (by simp))).trans ((only_makeVisible _ _).mono (by simp))

/-! ## What the accessors read at the end of a step -/

section
variable (s0 s : State)
@[simp] theorem finish_mb (m : Nat) : (finish s0 s).mb m = s.mb m := by unfold State.mb; rw [finish_fmn]
@[simp] theorem finish_domain (d : Nat) : (finish s0 s).domain d = s.domain d := by unfold State.domain; rw [finish_clk]
@[simp] theorem finish_meter (k : Nat) : (finish s0 s).meter k = s.meter k := by unfold State.meter; rw [finish_clk]
@[simp] theorem finish_srcReady (c : Nat) : (finish s0 s).srcReady c = s.srcReady c := by unfold State.srcReady; rw [finish_clk]
@[simp] theorem finish_queue (q : Nat) : (finish s0 s).queue q = s.queue q := by unfold State.queue; rw [finish_queues]
@[simp] theorem finish_ctx (c : Nat) : (finish s0 s).ctx c = s.ctx c := by unfold State.ctx; rw [finish_sch]
@[simp] theorem finish_flask (f : Nat) : (finish s0 s).flask f = s.flask f := by unfold State.flask; rw [finish_sch]
@[simp] theorem finish_port (p : Nat) : (finish s0 s).port p = s.port p := by unfold State.port; rw [finish_spr]
@[simp] theorem finish_slot (i : Nat) : (finish s0 s).slot i = s.slot i := by unfold State.slot; rw [finish_ing]
@[simp] theorem finish_engine (e : Nat) : (finish s0 s).engine e = s.engine e := by unfold State.engine; rw [finish_eng]
@[simp] theorem finish_prof (e p : Nat) : (finish s0 s).prof e p = s.prof e p := by unfold State.prof; rw [finish_engine]
@[simp] theorem finish_graph (g : Nat) : (finish s0 s).graph g = s.graph g := by unfold State.graph; rw [finish_pat]
@[simp] theorem finish_node (a : Nat) : (finish s0 s).node a = s.node a := by unfold State.node; rw [finish_inp]
@[simp] theorem finish_egress (e : Nat) : (finish s0 s).egress e = s.egress e := by unfold State.egress; rw [finish_disp]
@[simp] theorem finish_msixVec (k : Nat) : (finish s0 s).msixVec k = s.msixVec k := by unfold State.msixVec; rw [finish_bus]
@[simp] theorem finish_mbyte (a : Nat) : (finish s0 s).mbyte a = s.mbyte a := by unfold State.mbyte; rw [finish_mem]
@[simp] theorem finish_mbytes (a n : Nat) : (finish s0 s).mbytes a n = s.mbytes a n := by unfold State.mbytes; rw [finish_mem]
@[simp] theorem finish_chkAt (a : Nat) : (finish s0 s).chkAt a = s.chkAt a := by unfold State.chkAt; rw [finish_mem]
@[simp] theorem finish_isHalted (b : Blk) : (finish s0 s).isHalted b = s.isHalted b := by unfold State.isHalted; rw [finish_rf_halted]
end

theorem State.evc_bump_of_ne (s : State) {b j b' j' : Nat} (h : evKey b' j' ≠ evKey b j) : (s.bump b j).evc b' j' = s.evc b' j' := by
  rw [State.bump, State.evc_bumpBy, if_neg h]
theorem State.evc_bumpInfo_of_ne (s : State) {b j off b' j' : Nat} {info : Word} (h : evKey b' j' ≠ evKey b j) :
    (s.bumpInfo b j off info).evc b' j' = s.evc b' j' := by
  unfold State.bumpInfo
  split
  · exact State.evc_bump_of_ne s h
  · exact State.evc_bump_of_ne _ h
@[simp] theorem State.evc_setPair (s : State) (b o v b' j : Nat) : (s.setPair b o v).evc b' j = s.evc b' j := rfl
@[simp] theorem State.evc_setFld (s : State) (b o l n v b' j : Nat) : (s.setFld b o l n v).evc b' j = s.evc b' j := rfl

end Sys2Proof.Machine
end

section
/-! SUPPORT. The idle tick, and the state after reset. -/
namespace Sys2Proof.Machine
open Sys2Proof

theorem only_creditsBack (s : State) : Only [.queues] s s.creditsBack := Only.foldl (fun t e _ => only_setQueue t e.1 _) s
theorem only_refill (s : State) (r k n : Nat) : Only [.sch] s (s.refill r k n) := by
  unfold State.refill
  exact Only.ite (fun _ => (only_setSch s _).trans (only_setSch _ _)) (fun _ => only_setSch s _)
theorem only_refillAll (s : State) (n : Nat) : Only [.sch] s (s.refillAll n) :=
  Only.foldl (fun t r _ => Only.foldl (fun u k _ => only_refill u r k n) t) s

/-- With nothing to hold back or to gain, the time base advances by one tick. -/
theorem State.tbAdvance_uncorrected {s : State} (hh : s.spr.hold = 0) (hs : s.spr.slew = 0) (he : s.spr.eighths = 0) :
    ∃ x, s.tbAdvance = (1, { s with spr := x }) := by
  unfold State.tbAdvance
  simp [hh, hs, he]

theorem State.idle_tick {s : State} (htb : s.tbCounts = true) (hh : s.spr.hold = 0) (hs : s.spr.slew = 0) (he : s.spr.eighths = 0) :
    s.idle.clk.now = (s.clk.now + 1) % 2 ^ 64 ∧ s.idle.pending = s.pending ∧ s.idle.aon = s.aon ∧ s.idle.fmn = s.fmn := by
  obtain ⟨x, hx⟩ := State.tbAdvance_uncorrected hh hs he
  have htime : s.timePasses = { s with spr := x, clk.now := (s.clk.now + 1) % 2 ^ 64 } := by unfold State.timePasses; rw [hx]
  have hrest : Only (settleParts ++ [.queues] ++ [.sch]) s.timePasses s.idle := by
    unfold State.idle
    rw [if_pos htb]
    exact ((only_settleOne _).comp (only_creditsBack _)).comp (only_refillAll _ _)
  rw [hrest.clk (by simp), hrest.pending (by simp), hrest.aon (by simp), hrest.fmn (by simp), htime]
  exact ⟨rfl, rfl, rfl, rfl⟩

/-- Settles O2: every arm of `exec` ends in `done`, and an idle tick changes the time base, memory, queues and buckets alone. -/
theorem stepsAnswer : Obligations.StepsAnswer := by
  refine ⟨fun c s => ?_, fun s hp htb hh hs he => ?_⟩
  · obtain ⟨s', h⟩ := exec_eq_done c s
    exact ⟨finish s s', h⟩
  · obtain ⟨hnow, hpend, haon, hfmn⟩ := State.idle_tick htb hh hs he
    refine ⟨finish s s.idle, by unfold step; rw [hp]; rfl, ?_⟩
    rw [finish_clk, finish_pending, finish_aon, finish_fmn]
    exact ⟨hnow, hpend.trans hp, haon, hfmn⟩

theorem State.reset_domain {d : Nat} (h : d < 7) :
    (State.reset.domain d).active = (if d = 0 then 2 else if d ≤ 3 then 1 else 3) ∧ (State.reset.domain d).phase = .idle := by
  interval_cases d <;> exact ⟨rfl, rfl⟩

/-- Settles O3: every table of the state after reset is empty, so each accessor reads its default. -/
theorem resetState : Obligations.ResetState :=
  ⟨⟨rfl, rfl, rfl, rfl, fun _ => State.reset_domain, rfl, rfl, fun _ => rfl, fun _ => rfl, fun _ => rfl, rfl, fun _ _ => ⟨rfl, rfl⟩,
    State.reset_memWf, fun _ => rfl⟩, fun h => absurd h (by decide)⟩

end Sys2Proof.Machine
end

section
/-! SUPPORT. The calendar, the Barometer and its thresholds (R142 to R172). -/
namespace Sys2Proof.Machine
open Sys2Proof

/-! ## The calendar -/

theorem State.abandonCalm_aon (s : State) :
    s.abandonCalm.aon = { s.aon with moving := none, calmCommitted := false, exitDue := false, pmicCalm := false } := by
  simp [State.abandonCalm, State.pwrRefuse]
@[simp] theorem State.abandonCalm_mem (s : State) : s.abandonCalm.mem = s.mem := by simp [State.abandonCalm, State.pwrRefuse]
theorem State.abandonCalm_evc (s : State) {b j : Nat} (h : evKey b j ≠ evKey Blk.aon 3) : s.abandonCalm.evc b j = s.evc b j :=
  State.evc_bumpInfo_of_ne _ h

/-- What a wake leaves of the calendar, whichever way the sequencer goes. -/
theorem State.wake_leaves (s : State) (level : BitVec 16) :
    (s.wake level).aon.cal = s.aon.cal ∧ (s.wake level).aon.unset = s.aon.unset ∧ (s.wake level).aon.wrapped = s.aon.wrapped ∧
      (s.wake level).mem = s.mem ∧ (s.wake level).evc Blk.aon 7 = s.evc Blk.aon 7 := by
  unfold State.wake
  dsimp only
  have habandon : (State.abandonCalm { s with aon.wakeSrc := level }).evc Blk.aon 7 = s.evc Blk.aon 7 :=
    State.abandonCalm_evc _ (by decide)
  have hbump : ∀ v, ((({ s with aon.wakeSrc := level } : State).setReg Blk.aon 0x128 v).bump Blk.aon 4).evc Blk.aon 7 = s.evc Blk.aon 7 :=
    fun v => State.evc_bump_of_ne _ (by decide)
  split_ifs
  · exact ⟨rfl, rfl, rfl, rfl, rfl⟩
  · exact ⟨rfl, rfl, rfl, rfl, rfl⟩
  · exact ⟨rfl, rfl, rfl, rfl, rfl⟩
  · simp [State.abandonCalm_aon, habandon]
  · exact ⟨rfl, rfl, rfl, rfl, hbump _⟩
  · exact ⟨rfl, rfl, rfl, rfl, rfl⟩

theorem State.aonTick_aon (s : State) :
    ∃ i n, s.aonTick = { s with aon.inaccurate := i, aon.calmCount := n } := by
  unfold State.aonTick
  dsimp only
  split_ifs
  all_goals exact ⟨_, _, rfl⟩

theorem State.foldl_bump_alarms (hit : Nat) (s : State) {b j : Nat} (h : ∀ k, k < 4 → evKey b j ≠ evKey Blk.aon (8 + k)) :
    ((List.range 4).foldl (fun s k => if bit hit k then s.bump Blk.aon (8 + k) else s) s).evc b j = s.evc b j := by
  have hl : ∀ (l : List Nat) (s : State), (∀ k ∈ l, k < 4) →
      (l.foldl (fun s k => if bit hit k then s.bump Blk.aon (8 + k) else s) s).evc b j = s.evc b j := by
    intro l
    induction l with
    | nil => intro s _; rfl
    | cons k l ih =>
      intro s hk
      rw [List.foldl_cons, ih _ fun i hi => hk i (List.mem_cons_of_mem _ hi)]
      split
      · exact State.evc_bump_of_ne s (h k (hk k (List.mem_cons_self ..)))
      · rfl
  exact hl _ s fun k hk => List.mem_range.1 hk
theorem State.foldl_bump_mem (hit : Nat) (l : List Nat) (s : State) :
    (l.foldl (fun s k => if bit hit k then s.bump Blk.aon (8 + k) else s) s).mem = s.mem := by
  induction l generalizing s with
  | nil => rfl
  | cons k l ih =>
    rw [List.foldl_cons, ih]
    split <;> rfl

/-- An advancing tick: the calendar advanced, the wrap marked and counted, and then its alarms wake what they wake. -/
theorem exec_calendarTick_advance {s : State} (h : s.aon.commit = none) :
    ∃ (s' : State) (level : BitVec 16), exec .calendarTick s = done s (s'.wake level) ∧ s'.aon.cal = (calAdvance s.aon.cal).1 ∧
      s'.aon.unset = s.aon.unset ∧ s'.aon.wrapped = ((calAdvance s.aon.cal).2 || s.aon.wrapped) ∧ s'.mem = s.mem ∧
      s'.evc Blk.aon 7 = s.evc Blk.aon 7 + (if (calAdvance s.aon.cal).2 then 1 else 0) := by
  show ∃ (s' : State) (level : BitVec 16), execCalendarTick s = _ ∧ _
  unfold execCalendarTick
  rw [h]
  obtain ⟨i, n, htick⟩ := State.aonTick_aon s
  obtain ⟨c, wrap⟩ := calAdvance s.aon.cal
  refine ⟨_, _, rfl, ?_⟩
  rw [State.foldl_bump_aon, State.foldl_bump_mem, State.foldl_bump_alarms _ _ (by decide), htick]
  cases wrap
  · exact ⟨rfl, rfl, rfl, rfl, (BitVec.add_zero _).symm⟩
  · exact ⟨rfl, rfl, rfl, rfl, State.evc_bump_self _ _ _⟩

theorem calendarTick_advances {s : State} (h : s.aon.commit = none) :
    Yields .calendarTick s (fun t => t.aon.cal = (calAdvance s.aon.cal).1 ∧ t.aon.unset = s.aon.unset ∧
      t.aon.wrapped = ((calAdvance s.aon.cal).2 || s.aon.wrapped) ∧ t.mem = s.mem ∧
      t.evc Blk.aon 7 = s.evc Blk.aon 7 + (if (calAdvance s.aon.cal).2 then 1 else 0)) := by
  obtain ⟨s', level, hexec, hcal, hunset, hwrap, hmem, hevc⟩ := exec_calendarTick_advance h
  obtain ⟨wcal, wunset, wwrap, wmem, wevc⟩ := State.wake_leaves s' level
  refine yields_done hexec ?_
  rw [finish_aon, finish_mem, finish_evc _ _ (by decide) (by decide), wcal, wunset, wwrap, wmem, wevc]
  exact ⟨hcal, hunset, hwrap, hmem, hevc⟩

/-- The tick that applies a commit, wherever the command comes from. -/
theorem commitApply_yields {i : Instr} {s : State} {c : Calendar} (h : exec i s = done s (s.commitApply c)) :
    Yields i s (fun t => t.aon.cal = c ∧ t.aon.commit = none ∧ t.aon.unset = false ∧ t.aon.inaccurate = false ∧
      t.aon.wrapped = false ∧ t.evc Blk.aon 5 = s.evc Blk.aon 5 + 1 ∧ t.mem = s.mem) := by
  obtain ⟨x, n, htick⟩ := State.aonTick_aon s
  refine yields_done h ?_
  rw [finish_aon, finish_mem, finish_evc _ _ (by decide) (by decide), State.commitApply, htick]
  exact ⟨rfl, rfl, rfl, rfl, rfl, State.evc_bump_self _ _ _, rfl⟩
theorem exec_calendarTick_commit {s : State} {c : Calendar} (h : s.aon.commit = some c) :
    exec .calendarTick s = done s (s.commitApply c) := by
  show execCalendarTick s = _
  unfold execCalendarTick; rw [h]
theorem exec_calCommitApply {s : State} {c : Calendar} (h : s.aon.commit = some c) :
    exec .calCommitApply s = done s (s.commitApply c) := by
  show execCalCommitApply s = _
  unfold execCalCommitApply; rw [h]

theorem calCommit_accepted_yields {s : State} (h : calReason s.stagedCal s.aon.commit.isSome = none) :
    Yields .calCommit s (fun t => t.aon.commit = some s.stagedCal ∧ t.aon.cal = s.aon.cal ∧ t.mem = s.mem) := by
  have hexec : exec .calCommit s = done s { s with aon.commit := some s.stagedCal } := by
    show done s s.calCommit = _
    unfold State.calCommit; rw [h]
  refine yields_done hexec ?_
  rw [finish_aon, finish_mem]
  exact ⟨rfl, rfl, rfl⟩

theorem calCapture_yields (s : State) :
    Yields .calCapture s (fun t => t.aon = { s.aon with capDue := true } ∧ t.mem = s.mem ∧ t.fmn = s.fmn) := by
  refine yields_done rfl ?_
  rw [finish_aon, finish_mem, finish_fmn]
  exact ⟨rfl, rfl, rfl⟩

theorem State.reg_setAon (s : State) (x : Aon) (b o : Nat) : ({ s with aon := x } : State).reg b o = s.reg b o := rfl
theorem calCaptureCopy_yields {s : State} (h : s.aon.capDue = true) :
    Yields .calCaptureCopy s (fun t => t.aon = { s.aon with capDue := false } ∧ t.reg Blk.aon 0x14C = dateWord s.aon.cal ∧
      t.reg Blk.aon 0x150 = timeWord s.aon.cal ∧ t.reg Blk.aon 0x154 = BitVec.ofNat 32 s.aon.cal.sub ∧ t.mem = s.mem) := by
  have hexec : ∃ a b c, exec .calCaptureCopy s = done s { (((((s.setReg Blk.aon 0x14C (dateWord s.aon.cal)).setReg Blk.aon 0x150
      (timeWord s.aon.cal)).setReg Blk.aon 0x154 (BitVec.ofNat 32 s.aon.cal.sub)).setReg Blk.aon 0x158 a).setReg Blk.aon 0x15C
      b).setReg Blk.aon 0x148 c with aon.capDue := false } := by
    show ∃ a b c, execCalCaptureCopy s = _
    unfold execCalCaptureCopy
    rw [if_pos h]
    exact ⟨_, _, _, rfl⟩
  obtain ⟨a, b, c, hexec⟩ := hexec
  refine yields_done hexec ?_
  have hreg : ∀ o, o < 0x10000 → ∀ s', (finish s s').reg Blk.aon o = s'.reg Blk.aon o := fun o ho s' => finish_reg s s' ho not_tripBlk_aon
  rw [finish_aon, finish_mem, hreg _ (by omega), hreg _ (by omega), hreg _ (by omega)]
  refine ⟨rfl, ?_, ?_, ?_, rfl⟩
  all_goals
    refine (State.reg_setAon _ _ _ _).trans ?_
    simp (disch := decide) only [State.reg_setReg_ne, State.reg_setReg_self]

/-! ## The Barometer -/

theorem not_tripBlk_baro : ¬tripBlk Blk.baro := by unfold tripBlk Blk.baro; omega
theorem finish_reg_baro (s0 s : State) {o : Nat} (ho : o < 0x10000) : (finish s0 s).reg Blk.baro o = s.reg Blk.baro o :=
  finish_reg s0 s ho not_tripBlk_baro

theorem lowest_lt {n k : Nat} {p : Nat → Bool} (h : lowest n p = some k) : k < n := List.mem_range.1 (List.mem_of_find?_eq_some h)
theorem State.adcNext_lt {s : State} {k : Nat} (h : s.adcNext = some k) : k < 16 := by
  unfold State.adcNext at h
  dsimp only at h
  split at h
  · exact lowest_lt h
  · split at h
    · next hl => exact Option.some.inj h ▸ lowest_lt hl
    · exact lowest_lt h

theorem adcSample_yields {s : State} {k : Nat} (uv : Nat) (hp : s.aon.pwr ≠ 0) (hk : s.adcNext = some k) :
    Yields (.adcSample uv) s (fun t => t.reg Blk.baro (0x140 + 4 * k) = (0x8000#32 ||| BitVec.ofNat 32 (adcCode k uv)) ∧
      t.baro.lastCh = some k ∧ t.aon = s.aon ∧ t.mem = s.mem) := by
  have hexec : ∃ (x : Baro) (n : Nat), x.lastCh = some k ∧ exec (.adcSample uv) s = done s
      (({ (s.setReg Blk.baro (0x140 + 4 * k) (0x8000#32 ||| BitVec.ofNat 32 (adcCode k uv))) with baro := x } : State).bumpBy Blk.baro 3 n) := by
    show ∃ (x : Baro) (n : Nat), _ ∧ execAdcSample uv s = _
    unfold execAdcSample
    rw [if_neg fun h => hp h.1, hk]
    dsimp only
    rw [if_neg fun h => hp h.1]
    exact ⟨_, _, rfl, rfl⟩
  obtain ⟨x, n, hx, hexec⟩ := hexec
  have hlt := State.adcNext_lt hk
  refine yields_done hexec ?_
  rw [finish_reg_baro _ _ (by omega), finish_baro, finish_aon, finish_mem]
  exact ⟨State.reg_setReg_self _ _ _ _, hx, rfl, rfl⟩

theorem baroThrWrite_yields (k : Fin 16) (v : Word) (s : State) :
    Yields (.baroThrWrite k v) s (fun t => t.reg Blk.baro (0x180 + 4 * k.val) = v &&& 0x0FFFFFFF ∧ nget t.baro.loRun k = 0 ∧
      nget t.baro.hiRun k = 0 ∧ t.baro.loStatus = s.baro.loStatus ∧ t.mem = s.mem) := by
  refine yields_done rfl ?_
  rw [finish_reg_baro _ _ (by omega), finish_baro, finish_mem]
  refine ⟨State.reg_setReg_self _ _ _ _, ?_, ?_, rfl, rfl⟩
  all_goals simp [State.baroThrWrite, nget_nset]

theorem fld_and_byte (v : Word) : fld (v &&& 0xFF) 0 8 = fld v 0 8 := by
  have h : (v &&& 0xFF).toNat = v.toNat % 2 ^ 8 := by
    rw [BitVec.toNat_and]
    exact Nat.and_two_pow_sub_one_eq_mod v.toNat 8
  unfold fld
  rw [h]
  omega
theorem baroBoCoreWrite_yields (v : Word) (s : State) :
    Yields (.baroBoCoreWrite v) s (fun t => t.boThr = min 70 (fld v 0 8) ∧ t.baro = s.baro ∧ t.mem = s.mem) := by
  refine yields_done rfl ?_
  rw [State.boThr, finish_reg_baro _ _ (by omega), finish_baro, finish_mem, State.reg_setReg_self, fld_and_byte]
  exact ⟨rfl, rfl, rfl⟩

theorem fld_valid_temp (x : BitVec 16) :
    fld (0x10000#32 ||| BitVec.ofNat 32 x.toNat) 16 1 = 1 ∧ fld (0x10000#32 ||| BitVec.ofNat 32 x.toNat) 0 16 = x.toNat := by
  have hx := x.isLt
  have h : (0x10000#32 ||| BitVec.ofNat 32 x.toNat).toNat = 2 ^ 16 + x.toNat := by
    have hor := Nat.two_pow_add_eq_or_of_lt hx 1
    rw [BitVec.toNat_or, BitVec.toNat_ofNat, BitVec.toNat_ofNat, Nat.mod_eq_of_lt (show x.toNat < 2 ^ 32 by omega)]
    exact hor.symm
  unfold fld
  rw [h]
  omega

/-- A valid sensor at or above the limit makes the cause hold. -/
theorem State.tempCause_of_valid {s : State} {n lim : Nat} (old : Bool) (hn : n < 8)
    (hv : fld (s.reg Blk.baro (0x1C0 + 4 * n)) 16 1 = 1)
    (hl : (16 * lim : Int) ≤ sgn 16 (fld (s.reg Blk.baro (0x1C0 + 4 * n)) 0 16)) : s.tempCause old lim = true := by
  unfold State.tempCause
  dsimp only
  rw [if_pos]
  exact List.any_eq_true.2 ⟨n, List.mem_range.2 hn, by simp [hv, hl]⟩

theorem State.classDFault_rst (s : State) (d : Nat) : (s.classDFault d).rst.classD.isSome = true := rfl

theorem tempUpdate_yields (n : Fin 8) (x : BitVec 16) (s : State) :
    Yields (.tempUpdate n x) s (fun t => t.reg Blk.baro (0x1C0 + 4 * n.val) = (0x10000#32 ||| BitVec.ofNat 32 x.toNat) ∧
      ((s.tempCritLim : Int) * 16 ≤ sgn 16 x.toNat → t.baro.tempCrit = true ∧
        (s.baro.tempCrit = false → s.baro.held = false → t.rst.classD.isSome = true)) ∧ t.mem = s.mem) := by
  have hn := n.isLt
  let s1 := s.setReg Blk.baro (0x1C0 + 4 * n.val) (0x10000#32 ||| BitVec.ofNat 32 x.toNat)
  let crit := s1.tempCause s.baro.tempCrit s1.tempCritLim
  have hexec : ∃ s3 : State, s3.baro.tempCrit = crit ∧ s3.mem = s.mem ∧ (∀ o, s3.reg Blk.baro o = s1.reg Blk.baro o) ∧
      exec (.tempUpdate n x) s = done s (if crit && !s.baro.tempCrit && !s.baro.held then s3.classDFault 3 else s3) := by
    show ∃ s3 : State, _ ∧ _ ∧ _ ∧ execTempUpdate n x s = _
    refine ⟨_, ?_, ?_, ?_, (apply_ite (done s) _ _ _).symm⟩
    · split <;> rfl
    · split <;> rfl
    · intro o; split <;> rfl
  obtain ⟨s3, hcrit, hmem, hreg, hexec⟩ := hexec
  have hread : s1.reg Blk.baro (0x1C0 + 4 * n.val) = (0x10000#32 ||| BitVec.ofNat 32 x.toNat) := State.reg_setReg_self _ _ _ _
  have hlim : s1.tempCritLim = s.tempCritLim := by
    unfold State.tempCritLim
    rw [State.reg_setReg_ne]
    rw [Ne, regKey_inj (by omega) (by omega)]
    omega
  refine yields_done hexec ?_
  rw [finish_reg_baro _ _ (by omega), finish_baro, finish_mem, finish_rst]
  refine ⟨?_, fun hx => ?_, ?_⟩
  · rw [← hread, ← hreg]
    split <;> rfl
  · have hc : crit = true := by
      refine State.tempCause_of_valid _ hn (by rw [hread]; exact (fld_valid_temp x).1) ?_
      rw [hread, (fld_valid_temp x).2, hlim]
      omega
    refine ⟨?_, fun h1 h2 => ?_⟩
    · rw [← hc, ← hcrit]
      split <;> rfl
    · rw [if_pos (by simp [hc, h1, h2])]
      exact State.classDFault_rst s3 3
  · rw [← hmem]
    split <;> rfl

theorem coreBrownout_yields {core sram : Bool} {s : State} (hp : s.aon.pwr ≠ 0) (hc : (core || sram) = true)
    (hh : s.baro.held = false) (hb : s.baro.boAon = false) :
    Yields (.coreBrownout core sram) s (fun t => t.baro.held = true ∧ t.evc Blk.baro 2 = s.evc Blk.baro 2 + 1 ∧
      (s.rst.classD = none → t.rst.classD = some (if core then 1 else 2)) ∧ t.mem = s.mem) := by
  have hexec : ∃ x : Baro, x.held = true ∧ exec (.coreBrownout core sram) s =
      done s ((({ s with baro := x } : State).bump Blk.baro 2).classDFault (if core then 1 else 2)) := by
    show ∃ x : Baro, _ ∧ execCoreBrownout core sram s = _
    unfold execCoreBrownout
    rw [if_neg (by simp [hp, hc])]
    dsimp only
    rw [if_neg (by simp [hb]), if_neg (by simp [hh])]
    exact ⟨_, rfl, rfl⟩
  obtain ⟨x, hx, hexec⟩ := hexec
  refine yields_done hexec ?_
  rw [finish_baro, finish_rst, finish_mem, finish_evc _ _ (by decide) (by decide)]
  refine ⟨hx, State.evc_bump_self _ _ _, fun hd => ?_, rfl⟩
  show some (match s.rst.classD with | some d => min d _ | none => _) = _
  rw [hd]

theorem brownoutRelease_yields (s : State) :
    Yields .brownoutRelease s (fun t => t.baro = { s.baro with boCore := false, boSram := false, held := false } ∧
      t.rst = s.rst ∧ t.mem = s.mem) := by
  refine yields_done rfl ?_
  rw [finish_baro, finish_rst, finish_mem]
  exact ⟨rfl, rfl, rfl⟩

/-! ## Class G faults -/

theorem State.logRecord_eq (s : State) (cls code blk ctx arg st : Nat) :
    s.logRecord cls code blk ctx arg st = { s with fmn := (s.logRecord cls code blk ctx arg st).fmn } := by
  unfold State.logRecord; split <;> rfl

theorem only_logRecord (s : State) (cls code blk ctx arg st : Nat) : Only [.fmn] s (s.logRecord cls code blk ctx arg st) := by
  rw [State.logRecord_eq]; exact only_setFmn s _
theorem only_pmicCalm (s : State) (high : Bool) : Only [.aon, .regs 31] s (s.pmicCalm high) :=
  (((only_setFld s Blk.iox (by omega) _ _ _).trans (only_setFld _ Blk.iox (by omega) _ _ _)).mono (by simp)).trans
    ((only_setAon _ _).mono (by simp))
theorem only_abandonCalm (s : State) : Only [.aon, .regs 1, .regs 31] s s.abandonCalm :=
  (((only_setAon s _).mono (by simp)).trans ((only_pmicCalm _ false).mono (by simp))).trans
    ((only_bumpInfo _ Blk.aon (by omega) (by omega) _).mono (by simp))

/-- The parts that a Class G fault changes. -/
abbrev graveParts : List StatePart := [.qch, .aon, .regs 1, .regs 31, .fmn]

/-- The latch set, if it is clear. -/
def State.graveLatched (s : State) (cause : Nat) : State :=
  match s.aon.grave with
  | some _ => s
  | none => { (s.setPair Blk.aon 0x304 (if s.tbRuns then s.tbNow else 0)) with aon.grave := some (BitVec.ofNat 8 cause) }
/-- A Class G fault before what the power sequencer does of it: the latch, GRAVE and the record. -/
def State.graveHeld (s : State) (cause blk arg : Nat) : State :=
  let x := s.graveLatched cause
  let y := { x with qch.st := .grave, qch.clearLeft := 0 }
  y.logRecord 0 cause blk 0xFF arg y.graveWord.toNat
theorem State.graveFault_eq (s : State) (cause blk arg : Nat) : s.graveFault cause blk arg =
    if s.aon.grave.isSome then s.graveHeld cause blk arg
    else if s.aon.pwr = 0 then
      if s.aon.moving.isSome then s.graveHeld cause blk arg
      else { (((s.graveHeld cause blk arg).setReg Blk.aon 0x128 0x10).bump Blk.aon 4) with aon.moving := some 1 }
    else if s.aon.moving = some 0 then
      if s.aon.calmCommitted then { (s.graveHeld cause blk arg).setReg Blk.aon 0x128 0x10 with aon.exitDue := true }
      else (s.graveHeld cause blk arg).abandonCalm
    else { s.graveHeld cause blk arg with aon.moving := none } := rfl

theorem State.graveLatched_leaves (s : State) (cause : Nat) :
    (s.graveLatched cause).qch = s.qch ∧ (s.graveLatched cause).aon.grave = some (s.aon.grave.getD (BitVec.ofNat 8 cause)) ∧
      Only graveParts s (s.graveLatched cause) := by
  unfold State.graveLatched
  cases hg : s.aon.grave with
  | some c => exact ⟨rfl, hg, Only.refl _ s⟩
  | none => exact ⟨rfl, rfl, ((only_setPair s Blk.aon (by omega) _).mono (by simp)).trans ((only_setAon _ _).mono (by simp))⟩
theorem State.graveHeld_leaves (s : State) (cause blk arg : Nat) :
    (s.graveHeld cause blk arg).qch = { s.qch with st := .grave, clearLeft := 0 } ∧
      (s.graveHeld cause blk arg).aon.grave = some (s.aon.grave.getD (BitVec.ofNat 8 cause)) ∧
      Only graveParts s (s.graveHeld cause blk arg) := by
  obtain ⟨hq, hg, ho⟩ := State.graveLatched_leaves s cause
  have hlog : ∀ (y : State) (w : Nat), Only [.fmn] y (y.logRecord 0 cause blk 0xFF arg w) := fun y w => only_logRecord y _ _ _ _ _ _
  unfold State.graveHeld
  dsimp only
  refine ⟨?_, ?_, ho.trans (((only_setQch _ _).mono (by simp)).trans ((hlog _ _).mono (by simp)))⟩
  · rw [(hlog _ _).qch (by simp), hq]
  · rw [(hlog _ _).aon (by simp), hg]

/-- A Class G fault sets the grave latch, if it is clear, to its cause, and Quench enters GRAVE. -/
theorem State.graveFault_leaves (s : State) (cause blk arg : Nat) :
    (s.graveFault cause blk arg).qch = { s.qch with st := .grave, clearLeft := 0 } ∧
      (s.graveFault cause blk arg).aon.grave = some (s.aon.grave.getD (BitVec.ofNat 8 cause)) ∧
      Only graveParts s (s.graveFault cause blk arg) := by
  obtain ⟨hq, hg, ho⟩ := State.graveHeld_leaves s cause blk arg
  rw [State.graveFault_eq]
  generalize s.graveHeld cause blk arg = x at hq hg ho
  have hset : Only graveParts x (x.setReg Blk.aon 0x128 0x10) := (only_setReg x Blk.aon (by omega) _).mono (by simp)
  have haon : ∀ (y : State) (a : Aon), Only graveParts y { y with aon := a } := fun y a => (only_setAon y a).mono (by simp)
  split_ifs
  · exact ⟨hq, hg, ho⟩
  · exact ⟨hq, hg, ho⟩
  · exact ⟨hq, hg, ((ho.trans hset).trans ((only_bump _ Blk.aon (by omega)).mono (by simp))).trans (haon _ _)⟩
  · exact ⟨hq, hg, (ho.trans hset).trans (haon _ _)⟩
  · exact ⟨((only_abandonCalm x).qch (by simp)).trans hq, by rw [State.abandonCalm_aon]; exact hg,
      ho.trans ((only_abandonCalm x).mono (by simp))⟩
  · exact ⟨hq, hg, ho.trans (haon _ _)⟩

/-- With Quench in GRAVE no trip is due. -/
theorem finish_qch_of_not_armed (s0 : State) {s : State} (h : s.qch.st ≠ .armed) : (finish s0 s).qch = s.qch := by
  rw [finish_quiet s0 fun ha => absurd ha h]

theorem aonBrownout_low_yields {s : State} (hp : s.aon.porHeld = false) (hb : s.baro.boAon = false) :
    Yields (.aonBrownout true) s (fun t => t.baro.boAon = true ∧ t.aon.grave.isSome = true ∧
      (s.aon.grave = none → t.aon.grave = some 4) ∧ t.qch.st = .grave ∧ t.mem = s.mem) := by
  have hexec : ∃ x : Rst, exec (.aonBrownout true) s =
      done s (({ s with baro.boAon := true, rst := x } : State).graveFault 4 Blk.aon 0) := by
    show ∃ x : Rst, execAonBrownout true s = _
    unfold execAonBrownout
    rw [if_neg (by simp [hp]), if_pos (by simp [hb])]
    dsimp only
    split
    · exact ⟨_, rfl⟩
    · exact ⟨s.rst, rfl⟩
  obtain ⟨x, hexec⟩ := hexec
  obtain ⟨hq, hg, honly⟩ := State.graveFault_leaves ({ s with baro.boAon := true, rst := x } : State) 4 Blk.aon 0
  have hbaro := honly .baro (by simp)
  have hmem := honly.mem (by simp)
  refine yields_done hexec ?_
  rw [finish_baro, finish_aon, finish_mem, finish_qch_of_not_armed _ (by rw [hq]; exact QchState.noConfusion), hbaro, hg, hq, hmem]
  exact ⟨rfl, rfl, fun h => by rw [h]; rfl, rfl, rfl⟩
theorem aonBrownout_return_yields {s : State} (hp : s.aon.porHeld = false) :
    Yields (.aonBrownout false) s (fun t => t.baro.boAon = false ∧ t.aon = s.aon ∧ t.mem = s.mem) := by
  have hexec : exec (.aonBrownout false) s = done s { s with baro.boAon := false } := by
    show execAonBrownout false s = _
    unfold execAonBrownout
    rw [if_neg (by simp [hp])]
    rfl
  refine yields_done hexec ?_
  rw [finish_baro, finish_aon, finish_mem]
  exact ⟨rfl, rfl, rfl⟩

/-! ## The threshold status -/

theorem thrStep_agrees {status below : Bool} (run persist : Nat) (h : below = status) : thrStep status below run persist = (status, 0) :=
  if_pos h
theorem thrStep_counts {status below : Bool} {run persist : Nat} (h : below ≠ status) (hr : run < persist) :
    thrStep status below run persist = (status, run + 1) := by
  unfold thrStep; rw [if_neg h, if_neg (by omega)]
theorem thrStep_changes {status below : Bool} {run persist : Nat} (h : below ≠ status) (hr : persist ≤ run) :
    thrStep status below run persist = (below, 0) := by
  unfold thrStep; rw [if_neg h, if_pos hr]

/-- Settles O10: the tick is an advance or the pending commit (`calendarTick_advances`, `commitApply_yields`), each of the Barometer's
commands is its one branch under the hypotheses given, and a brown-out of VDD_AON is a Class G fault (`State.graveFault_leaves`). -/
theorem alwaysOnCommands : Obligations.AlwaysOnCommands := by
  refine ⟨⟨fun s h => ?_, fun s c h => ?_, fun s c h => ?_, fun _ => calCommit_accepted_yields, fun s h hcal => ?_, calCapture_yields,
      fun _ => calCaptureCopy_yields⟩,
    ⟨fun uv k s => adcSample_yields uv, baroThrWrite_yields, baroBoCoreWrite_yields, tempUpdate_yields, fun _ _ _ => coreBrownout_yields,
      brownoutRelease_yields, fun _ => aonBrownout_low_yields, fun _ => aonBrownout_return_yields⟩,
    fun _ _ _ _ => ⟨thrStep_agrees _ _, thrStep_counts, thrStep_changes⟩⟩
  · obtain ⟨t, ht, hcal, hunset, hwrap, hmem, -⟩ := calendarTick_advances h
    exact ⟨t, ht, hcal, hunset, fun hw => by rw [hwrap, hw, Bool.or_true], hmem⟩
  · exact commitApply_yields (exec_calendarTick_commit h)
  · obtain ⟨t, ht, hcal, hcommit, hunset, -, -, hevc, hmem⟩ := commitApply_yields (exec_calCommitApply h)
    exact ⟨t, ht, hcal, hcommit, hunset, hevc, hmem⟩
  · have hadv : calAdvance s.aon.cal = ({}, true) := by rw [hcal]; decide
    obtain ⟨t, ht, hc, -, hwrap, -, hevc⟩ := calendarTick_advances h
    rw [hadv] at hc hwrap hevc
    exact ⟨t, ht, hc, hwrap, hevc⟩

end Sys2Proof.Machine
end

section
/-! SUPPORT. What the operations on queues, on the region table and on the blocks of a context change, up to its teardown (R407, R468,
R500, R816, R859, R905). -/
namespace Sys2Proof.Machine
open Sys2Proof

/-! ## Parts -/

theorem only_setIng (s : State) (x : Tab IngSlot) : Only [.ing] s { s with ing := x } := by
  intro p hp; cases p <;> simp_all [StatePart.same, State.reg, State.evc, State.ackOf]
theorem only_setEng (s : State) (x : Tab Engine) : Only [.eng] s { s with eng := x } := by
  intro p hp; cases p <;> simp_all [StatePart.same, State.reg, State.evc, State.ackOf]
theorem only_setPat (s : State) (x : Tab Graph) : Only [.pat] s { s with pat := x } := by
  intro p hp; cases p <;> simp_all [StatePart.same, State.reg, State.evc, State.ackOf]
theorem only_setFlx (s : State) (x : Flx) : Only [.flx] s { s with flx := x } := by
  intro p hp; cases p <;> simp_all [StatePart.same, State.reg, State.evc, State.ackOf]
theorem only_setFsu (s : State) (x : Fsu) : Only [.fsu] s { s with fsu := x } := by
  intro p hp; cases p <;> simp_all [StatePart.same, State.reg, State.evc, State.ackOf]
theorem only_setDisp (s : State) (x : Disp) : Only [.disp] s { s with disp := x } := by
  intro p hp; cases p <;> simp_all [StatePart.same, State.reg, State.evc, State.ackOf]
/-- Messages due are no part. -/
theorem only_setDue (s : State) (x : Tab Bool) : Only [] s { s with rf.msixDue := x } := by
  intro p _; cases p <;> simp [StatePart.same, State.reg, State.evc, State.ackOf]

theorem fld_lt (w : Word) (lo n : Nat) : fld w lo n < 2 ^ n := Nat.mod_lt _ (Nat.two_pow_pos n)

/-! ## Queues -/

theorem only_qNotify (s : State) (q : Nat) : Only [.queues] s (s.qNotify q) := by
  unfold State.qNotify
  exact Only.ite (fun _ => (only_setQueue s q _).trans ((only_setDue _ _).mono (by simp))) (fun _ => Only.refl _ s)
theorem only_store (s : State) (a : Nat) (l : List Byte) : Only [.mem] s (s.store a l) := only_setMem s _
theorem only_zeroRange (s : State) (a n : Nat) : Only [.mem] s (s.zeroRange a n) := only_setMem s _
theorem only_enqueue (q : Nat) (l : List (List Byte × Bool × Bool)) (s : State) : Only [.queues, .mem] s (s.enqueue q l) := by
  induction l generalizing s with
  | nil => exact Only.refl _ s
  | cons e l ih =>
    obtain ⟨body, first, last⟩ := e
    unfold State.enqueue
    refine Only.ite (fun _ => ?_) (fun _ => ?_)
    · exact ((only_setQueue s q _).mono (by simp)).trans (ih _)
    · exact (((only_store s _ _).mono (by simp)).trans ((only_setQueue _ q _).mono (by simp))).trans (ih _)
theorem only_deviceEntries (s : State) (q : Nat) (l : List (List Byte × Bool × Bool)) : Only [.queues, .mem] s (s.deviceEntries q l) := by
  unfold State.deviceEntries
  exact Only.ite (fun _ => (only_enqueue q l s).trans ((only_qNotify _ q).mono (by simp))) (fun _ => Only.refl _ s)
theorem only_devicePush (s : State) (q : Nat) (body : List Byte) : Only [.queues, .mem] s (s.devicePush q body) :=
  only_deviceEntries s q _
theorem only_queueOff (s : State) {q : Nat} (hq : q < 256) : Only [.queues, .regs 6] s (s.queueOff q) :=
  ((only_setQueue s q _).mono (by simp)).trans ((only_setReg _ Blk.que (by omega) 0).mono (by simp))

/-! ## The region table -/

theorem only_clearEntry (s : State) {e : Nat} (he : e < 32) : Only memParts s (s.clearEntry e) := by
  unfold State.clearEntry
  refine Only.foldlAfter (fun u i hi => (only_setReg u Blk.mem (by have := List.mem_range.1 hi; omega) 0).mono (by simp)) ?_
  exact Only.ite (fun _ => (only_zeroRange s _ _).mono (by simp)) fun _ => Only.refl _ s
theorem only_release (s : State) (a len orm owm : Nat) : Only memParts s (s.release a len orm owm) := by
  unfold State.release
  split
  · next e he => exact only_clearEntry s (List.mem_range.1 (List.mem_of_find?_eq_some he))
  · exact Only.refl _ s

/-! ## The blocks of a context -/

/-- The blocks other than the scheduler whose frames a teardown reaches. -/
abbrev ownBlks : List Nat := (List.range 96).filter (fun b => b == 0 || (6 ≤ b && b ≤ 25 && b != 7) || 48 ≤ b)
/-- The parts outside the scheduler that a teardown of a context may change. -/
abbrev ownParts : List StatePart :=
  [.fmn, .fbcs, .queues, .mem, .ing, .eng, .pat, .flx, .spr, .fsu, .disp] ++ ownBlks.map .regs
/-- The parts that a teardown of a context may change. -/
abbrev tearParts : List StatePart := [.sch, .regs Blk.sch] ++ ownParts

theorem regs_mem_ownParts {b : Nat} (h : b = 0 ∨ (6 ≤ b ∧ b ≤ 25 ∧ b ≠ 7) ∨ (48 ≤ b ∧ b < 96)) : StatePart.regs b ∈ ownParts := by
  refine List.mem_append_right _ (List.mem_map_of_mem (List.mem_filter.2 ⟨List.mem_range.2 (by omega), ?_⟩))
  simp only [Bool.or_eq_true, Bool.and_eq_true, beq_iff_eq, decide_eq_true_eq, bne_iff_ne]
  omega

theorem own_regs {b : Nat} {s t : State} (h : Only [.regs b] s t) (hb : b = 0 ∨ (6 ≤ b ∧ b ≤ 25 ∧ b ≠ 7) ∨ (48 ≤ b ∧ b < 96)) :
    Only ownParts s t := h.mono (by simpa using regs_mem_ownParts hb)

section
variable (s : State)
theorem own_setReg {b o : Nat} (hb : b = 0 ∨ (6 ≤ b ∧ b ≤ 25 ∧ b ≠ 7) ∨ (48 ≤ b ∧ b < 96)) (ho : o < 0x10000) (v : Word) :
    Only ownParts s (s.setReg b o v) := own_regs (only_setReg s b ho v) hb
theorem own_bump {b j : Nat} (hb : b = 0 ∨ (6 ≤ b ∧ b ≤ 25 ∧ b ≠ 7) ∨ (48 ≤ b ∧ b < 96)) (hj : j < 32) :
    Only ownParts s (s.bump b j) := own_regs (only_bump s b hj) hb
theorem own_reply (m : Nat) (r : Resp) : Only ownParts s (s.reply m r) := (only_reply s m r).mono (by decide)
theorem own_release (a len orm owm : Nat) : Only ownParts s (s.release a len orm owm) :=
  (only_release s a len orm owm).mono (by decide)
theorem own_queueOff {q : Nat} (hq : q < 256) : Only ownParts s (s.queueOff q) := (only_queueOff s hq).mono (by decide)
theorem own_devicePush (q : Nat) (body : List Byte) : Only ownParts s (s.devicePush q body) := (only_devicePush s q body).mono (by decide)
theorem own_setSlot (i : Nat) (x : IngSlot) : Only ownParts s (s.setSlot i x) := (only_setIng s _).mono (by decide)
theorem own_setEngine (e : Nat) (x : Engine) : Only ownParts s (s.setEngine e x) := (only_setEng s _).mono (by decide)
theorem own_setProf (e p : Nat) (x : Profile) : Only ownParts s (s.setProf e p x) := own_setEngine s e _
theorem own_setGraph (g : Nat) (x : Graph) : Only ownParts s (s.setGraph g x) := (only_setPat s _).mono (by decide)
theorem own_setFsu (x : Fsu) : Only ownParts s { s with fsu := x } := (only_setFsu s x).mono (by decide)
theorem own_setDisp (x : Disp) : Only ownParts s { s with disp := x } := (only_setDisp s x).mono (by decide)
theorem own_setEgress (e : Nat) (x : Egress) : Only ownParts s (s.setEgress e x) := own_setDisp s _
theorem own_setFbc (k : Nat) (x : Fbc) : Only ownParts s (s.setFbc k x) := (only_setFbc s k x).mono (by decide)
theorem own_zeroRange (a n : Nat) : Only ownParts s (s.zeroRange a n) := (only_zeroRange s a n).mono (by decide)

theorem own_slotClear {i : Nat} (hi : i < 48) : Only ownParts s (s.slotClear i) := by
  unfold State.slotClear
  dsimp only
  refine (own_setSlot _ _ _).after (Only.foldlAfter (fun u w hw => own_setReg u ?_ ?_ _) ?_)
  · exact .inr (.inl (by decide))
  · have := List.mem_range.1 hw
    unfold slotBase
    omega
  · exact (own_release _ _ _ _ _).after (own_release _ _ _ _ _)
theorem own_slotStop {i : Nat} (hi : i < 48) (reason detail : Nat) : Only ownParts s (s.slotStop i reason detail) := by
  unfold State.slotStop
  dsimp only
  split
  · exact own_setSlot s i _
  · exact (own_reply _ _ _).after (Only.iteAfter (own_setSlot s i _) (fun _ => own_slotClear _ hi) fun _ => Only.refl _ _)
theorem own_ingGone (c : Nat) : Only ownParts s (s.ingGone c) := by
  refine Only.foldl (fun t i hi => ?_) s
  have hi := List.mem_range.1 hi
  refine Only.ite (fun _ => ?_) fun _ => Only.refl _ t
  exact Only.iteAfter (own_slotStop t hi 2 0) (fun _ => own_slotClear _ hi) fun _ => Only.refl _ _

theorem own_profClear {e p : Nat} (he : e < 6) (hp : p < 8) : Only ownParts s (s.profClear e p) := by
  unfold State.profClear
  dsimp only
  refine (own_setEngine _ _ _).after (Only.foldlAfter (fun u w hw => own_setReg u ?_ ?_ _) ?_)
  · unfold engBlk Blk.rect
    omega
  · have := List.mem_range.1 hw
    omega
  · exact Only.iteAfter ((own_release _ _ _ _ _).after (own_release _ _ _ _ _)) (fun _ => own_release _ _ _ _ _)
      fun _ => Only.refl _ _
theorem own_engGone (c : Nat) : Only ownParts s (s.engGone c) := by
  refine Only.foldl (fun t e he => Only.foldl (fun u p hp => ?_) t) s
  refine Only.ite (fun _ => Only.ite (fun _ => ?_) fun _ => ?_) fun _ => Only.refl _ u
  · exact (own_setProf _ _ _ _).after ((own_setEngine _ _ _).after (own_setEngine _ _ _))
  · exact own_profClear u (List.mem_range.1 he) (List.mem_range.1 hp)

theorem own_dropTokens (g : Nat) : Only ownParts s (s.dropTokens g) :=
  Only.foldl (fun t e _ => Only.foldlAfter (fun u p _ => Only.ite (fun _ => own_setProf u e p _) fun _ => Only.refl _ u)
    (own_setEngine t e _)) s
theorem own_graphUnload {g : Nat} (hg : g < 16) : Only ownParts s (s.graphUnload g) := by
  have hn : s.graphCfg g 0x12 1 < 256 := fld_lt _ _ _
  unfold State.graphUnload
  dsimp only
  refine (own_setGraph _ _ _).after ((own_queueOff _ (by omega)).after (Only.foldlAfter (fun u w hw => own_setReg u ?_ ?_ _)
    (Only.foldl (fun u w hw => own_setReg u ?_ ?_ _) s)))
  · exact .inr (.inl (by decide))
  · have := List.mem_range.1 hw
    omega
  · exact .inr (.inl (by decide))
  · have := List.mem_range.1 hw
    omega
theorem own_graphStop {g : Nat} (hg : g < 16) (detail : Nat) : Only ownParts s (s.graphStop g detail) := by
  unfold State.graphStop
  dsimp only
  have h : ∀ x, Only ownParts s ((s.dropTokens g).setGraph g x) := fun x => (own_setGraph _ g x).after (own_dropTokens s g)
  split
  · exact h _
  · exact (own_reply _ _ _).after (Only.iteAfter (h _) (fun _ => own_graphUnload _ hg) fun _ => Only.refl _ _)
theorem own_patGone (c : Nat) : Only ownParts s (s.patGone c) := by
  refine Only.foldl (fun t g hg => ?_) s
  have hg := List.mem_range.1 hg
  refine Only.ite (fun _ => ?_) fun _ => Only.refl _ t
  exact Only.iteAfter (own_graphStop t hg 0) (fun _ => own_graphUnload _ hg) fun _ => Only.refl _ _

theorem own_fsuClear : Only ownParts s s.fsuClear := by
  unfold State.fsuClear
  dsimp only
  have h : ∀ t, Only ownParts s t → Only ownParts s
      ((List.range 10).foldl (fun s w => s.setReg Blk.fsu (0x200 + 4 * w) 0) t) := fun t =>
    Only.foldlAfter (fun u w hw => own_setReg u (.inr (.inl (by decide))) (by have := List.mem_range.1 hw; omega) 0)
  refine (own_setFsu _ _).after ((own_queueOff _ (by omega)).after ?_)
  split
  · exact (own_reply _ _ _).after (h _ (own_release s _ _ _ _))
  · exact h _ (own_release s _ _ _ _)

theorem State.egCfg_byte_lt (e o : Nat) : s.egCfg e o 1 < 256 := by
  have h := fld_lt (s.reg Blk.disp (0x1010 + 0x40 * e + (o - 0x12) / 4 * 4)) ((o - 0x12) % 4 * 8) 8
  simp only [State.egCfg]
  omega
theorem own_egressClear {e : Nat} (he : e < 8) : Only ownParts s (s.egressClear e) := by
  have hq := State.egCfg_byte_lt s e 0x16
  unfold State.egressClear
  dsimp only
  refine (own_setEgress _ _ _).after ((own_setReg _ (.inr (.inl (by decide))) (by omega) 0).after ?_)
  have h : ∀ t, Only ownParts s t → Only ownParts s
      ((List.range 8).foldl (fun s w => s.setReg Blk.disp (0x1010 + 0x40 * e + 4 * w) 0) t) := fun t =>
    Only.foldlAfter (fun u w hw => own_setReg u (.inr (.inl (by decide))) (by have := List.mem_range.1 hw; omega) 0)
  have hoff : ∀ (c : Prop) [Decidable c] (a len : Nat), Only ownParts s
      (if c then s.release a len 0x4000 0 else (s.release a len 0x4000 0).queueOff (s.egCfg e 0x16 1)) := fun c _ a len =>
    Only.iteAfter (own_release s a len 0x4000 0) (fun _ => Only.refl _ _) (fun _ => own_queueOff _ hq)
  split
  · exact (own_reply _ _ _).after (h _ (hoff _ _ _))
  · exact h _ (hoff _ _ _)
theorem own_dispGone (c : Nat) : Only ownParts s (s.dispGone c) := by
  have h : Only ownParts s ((List.range 8).foldl (fun s e =>
      if (s.egress e).st != 0 && s.egOwner e == c then s.egressClear e else s) s) := Only.foldl (fun t e he =>
    Only.ite (fun _ => own_egressClear t (List.mem_range.1 he)) fun _ => Only.refl _ t) s
  unfold State.dispGone
  dsimp only
  exact Only.iteAfter h (fun _ => (own_setDisp _ _).after (own_queueOff _ (by omega))) fun _ => Only.refl _ _

theorem own_fabErr (k m : Nat) (cls : AccessClass) (c : Nat) (w : Bool) (a : Nat) : Only ownParts s (s.fabErr k m cls c w a) :=
  own_regs (only_fabErr s k m cls c w a) (.inl rfl)
theorem own_fbcReport {k : Nat} (hk : k < 4) (e : List Byte) : Only ownParts s (s.fbcReport k e) := by
  unfold State.fbcReport
  refine Only.ite (fun _ => Only.refl _ s) fun _ => Only.ite (fun _ => ?_) fun _ => ?_
  · exact (own_bump _ (by unfold fbcBlk Blk.fbc0; omega) (by omega)).after (own_devicePush s _ e)
  · exact (own_setFbc _ k _).after (own_fabErr s _ _ _ _ _ _)
theorem own_fifoEnd {k : Nat} (hk : k < 4) (x : FifoFrame) (r f ts : Nat) : Only ownParts s (s.fifoEnd k x r f ts) :=
  (own_setFbc _ k _).after (own_fbcReport s hk _)
theorem own_fifoFlush {k : Nat} (hk : k < 4) : Only ownParts s (s.fifoFlush k) :=
  (own_setFbc _ k _).after (Only.foldlAfter (fun t _ _ => own_fbcReport t hk _) (Only.foldl (fun t x _ => own_fifoEnd t hk x 3 0 0) s))
theorem own_fbcGone (c : Nat) : Only ownParts s (s.fbcGone c) := by
  refine Only.foldl (fun t k hk => ?_) s
  have hk := List.mem_range.1 hk
  have hq : (t.fifoFlush k).fbcTxq k < 256 := fld_lt _ _ _
  refine Only.ite (fun _ => ?_) fun _ => Only.refl _ t
  exact (own_setFbc _ _ _).after ((own_queueOff _ hq).after ((own_queueOff _ (by omega)).after ((own_queueOff _ (by omega)).after
    (own_fifoFlush t hk))))

/-! ## What the scheduler adds -/

theorem tear_own {t : State} (h : Only ownParts s t) : Only tearParts s t := h.mono (List.subset_append_right _ _)
theorem tear_setReg {b o : Nat} (hb : b = 0 ∨ (6 ≤ b ∧ b ≤ 25) ∨ (48 ≤ b ∧ b < 96)) (ho : o < 0x10000) (v : Word) :
    Only tearParts s (s.setReg b o v) := by
  by_cases h7 : b = Blk.sch
  · exact (only_setReg s b ho v).mono (by simp [h7])
  · exact tear_own s (own_setReg s (by unfold Blk.sch at h7; omega) ho v)
theorem tear_bump {b j : Nat} (hb : b = 0 ∨ (6 ≤ b ∧ b ≤ 25) ∨ (48 ≤ b ∧ b < 96)) (hj : j < 32) : Only tearParts s (s.bump b j) := by
  by_cases h7 : b = Blk.sch
  · exact (only_bump s b hj).mono (by simp [h7])
  · exact tear_own s (own_bump s (by unfold Blk.sch at h7; omega) hj)
theorem tear_reply (m : Nat) (r : Resp) : Only tearParts s (s.reply m r) := tear_own s (own_reply s m r)
theorem tear_queueOff {q : Nat} (hq : q < 256) : Only tearParts s (s.queueOff q) := tear_own s (own_queueOff s hq)
theorem tear_devicePush (q : Nat) (body : List Byte) : Only tearParts s (s.devicePush q body) := tear_own s (own_devicePush s q body)
theorem tear_setFsu (x : Fsu) : Only tearParts s { s with fsu := x } := tear_own s (own_setFsu s x)
theorem tear_setEgress (e : Nat) (x : Egress) : Only tearParts s (s.setEgress e x) := tear_own s (own_setEgress s e x)
theorem tear_setFbc (k : Nat) (x : Fbc) : Only tearParts s (s.setFbc k x) := tear_own s (own_setFbc s k x)
theorem tear_fifoFlush {k : Nat} (hk : k < 4) : Only tearParts s (s.fifoFlush k) := tear_own s (own_fifoFlush s hk)
theorem tear_zeroRange (a n : Nat) : Only tearParts s (s.zeroRange a n) := tear_own s (own_zeroRange s a n)
theorem tear_setFlask (f : Nat) (x : Flask) : Only tearParts s (s.setFlask f x) := (only_setSch s _).mono (by decide)
theorem tear_setCtx (c : Nat) (x : Ctx) : Only tearParts s (s.setCtx c x) := (only_setSch s _).mono (by decide)
theorem tear_withdrawLend : Only tearParts s s.withdrawLend := by
  unfold State.withdrawLend
  split
  · exact Only.refl _ s
  · exact tear_setFlask s _ _
theorem tear_fsuGone (c : Nat) : Only tearParts s (s.fsuGone c) :=
  Only.ite (fun _ => (tear_withdrawLend _).after (tear_own s (own_fsuClear s))) fun _ => Only.refl _ s
theorem tear_ownedGone (c : Nat) : Only tearParts s (s.ownedGone c) :=
  (tear_own _ (own_fbcGone _ c)).after ((tear_own _ (own_dispGone _ c)).after ((tear_fsuGone _ c).after ((tear_own _ (own_patGone _ c)).after ((tear_own _ (own_engGone _ c)).after
    (tear_own s (own_ingGone s c))))))

/-! ## Jobs and contexts -/

theorem tear_placeNow (c : Nat) (ep : Option Nat) (body : List Byte) : Only tearParts s (s.placeNow c ep body) :=
  (tear_devicePush _ _ _).after (tear_setCtx s c _)
theorem tear_placeJob (c ep : Nat) (body : List Byte) : Only tearParts s (s.placeJob c ep body) :=
  Only.ite (fun _ => tear_setCtx s c _) fun _ => tear_placeNow s c _ body
theorem tear_completeStaged (j : Job) (status code framing : Nat) : Only tearParts s (s.completeStaged j status code framing) :=
  (tear_placeJob _ _ _ _).after (tear_setCtx s j.ctx _)
theorem State.crucibles_lt {s : State} {f n : Nat} (h : n ∈ s.crucibles f) : n < 48 := List.mem_range.1 (List.mem_filter.1 h).1
theorem tear_stopEvents (f : Nat) : Only tearParts s (s.stopEvents f) := by
  refine Only.foldl (fun t n hn => ?_) s
  have := State.crucibles_lt hn
  exact tear_bump t (by unfold Blk.cru0; omega) (by omega)
theorem tear_zeroParts (c n : Nat) : Only tearParts s (s.zeroParts c n) := Only.foldl (fun t p _ => tear_zeroRange t p.1 p.2) s
theorem tear_zeroDeferred (f : Nat) : Only tearParts s (s.zeroDeferred f) := by
  refine Only.foldl (fun t c _ => ?_) s
  exact Only.ite (fun _ => Only.refl _ t) fun _ => (tear_setCtx _ c _).after (Only.foldl (fun u n _ => tear_zeroParts u c n) t)
theorem tear_dropRemote (f : Nat) : Only tearParts s (s.dropRemote f) := Only.foldl (fun t _ _ => (only_setSpr t _).mono (by decide)) s
theorem tear_freeEncoders (f : Nat) : Only tearParts s (s.freeEncoders f) := (only_setFlx s _).mono (by decide)
theorem tear_refuse (m code detail : Nat) (p : List Byte) : Only tearParts s (s.refuse m code detail p) := tear_reply s m _
theorem tear_commitJob {f : Nat} (hf : f < 8) (status code tensor op : Nat) : Only tearParts s (s.commitJob f status code tensor op) := by
  unfold State.commitJob
  split
  · exact Only.refl _ s
  · dsimp only
    refine (tear_zeroDeferred _ f).after (Only.foldlAfter (fun t m _ => Only.ite (fun _ => tear_reply t m _) fun _ => tear_refuse t m _ _ _) ?_)
    refine Only.iteAfter ((tear_bump _ (.inr (.inl (by decide))) (by omega)).after ((tear_setReg _ (.inr (.inl (by decide))) (by omega) _).after
      ((tear_freeEncoders _ f).after ((tear_dropRemote _ f).after (tear_setFlask s f _))))) (fun _ => ?_) fun _ => tear_setFsu _ _
    exact (tear_placeJob _ _ _ _).after (tear_setCtx _ _ _)
theorem State.ctxFlasks_lt {s : State} {c f : Nat} (h : f ∈ s.ctxFlasks c) : f < 8 := List.mem_range.1 (List.mem_filter.1 h).1
theorem tear_logRecord (cls code blk ctx arg st : Nat) : Only tearParts s (s.logRecord cls code blk ctx arg st) :=
  (only_logRecord s cls code blk ctx arg st).mono (by decide)
theorem tear_teardownOn (c status : Nat) (on : Option (Nat × Nat × Nat × Nat)) : Only tearParts s (s.teardownOn c status on) := by
  unfold State.teardownOn
  dsimp only
  refine Only.ite (fun _ => Only.refl _ s) fun _ => ?_
  refine (tear_setCtx _ c _).after (Only.foldlAfter (fun t n _ => Only.ite (fun _ => Only.refl _ t) fun _ => tear_zeroParts t c n) ?_)
  refine (tear_ownedGone _ c).after (Only.foldlAfter (fun t j _ => tear_completeStaged t j _ _ _) ((tear_setCtx _ c _).after ?_))
  refine Only.foldlAfter (fun t f hf => ?_) ((tear_logRecord _ _ _ _ _ _ _).after (tear_setCtx s c _))
  exact (tear_commitJob _ (State.ctxFlasks_lt hf) _ _ _ _).after (tear_stopEvents t f)
theorem tear_teardownFree (c : Nat) : Only tearParts s (s.teardownFree c) := by
  unfold State.teardownFree
  exact Only.ite (fun _ => Only.refl _ s) fun _ => (tear_teardownOn _ _ _ _).after ((only_setFree s _).mono (by simp))
end

end Sys2Proof.Machine
end

section
/-! SUPPORT. Clock switches, mux moves, hangs and domain resets (R179 to R188). -/
namespace Sys2Proof.Machine
open Sys2Proof

theorem not_tripBlk_clk : ¬tripBlk Blk.clk := by unfold tripBlk Blk.clk; omega
theorem finish_reg_clk (s0 s : State) {o : Nat} (ho : o < 0x10000) : (finish s0 s).reg Blk.clk o = s.reg Blk.clk o :=
  finish_reg s0 s ho not_tripBlk_clk
theorem finish_evc_clk (s0 s : State) {j : Nat} (hj : j < 32) : (finish s0 s).evc Blk.clk j = s.evc Blk.clk j :=
  finish_evc s0 s hj fun h => not_tripBlk_clk (.inl h.1)

@[simp] theorem State.bumpInfo_clk (s : State) (b : Blk) (j off : Nat) (info : Word) : (s.bumpInfo b j off info).clk = s.clk := by
  unfold State.bumpInfo; split <;> rfl
@[simp] theorem State.bumpInfo_rst (s : State) (b : Blk) (j off : Nat) (info : Word) : (s.bumpInfo b j off info).rst = s.rst := by
  unfold State.bumpInfo; split <;> rfl

/-- A command that does no more than a refusal of the CLK frame. -/
theorem clkRefuse_yields {i : Instr} {s : State} {d c r : Nat} (h : exec i s = done s (s.clkRefuse d c r)) :
    Yields i s (fun t => t.clk = s.clk ∧ t.evc Blk.clk 3 = s.evc Blk.clk 3 + 1 ∧
      (s.pend Blk.clk 3 = false → t.reg Blk.clk 0x140 = (at_ d 16 3 ||| at_ c 12 4 ||| at_ r 0 4)) ∧
      (∀ o, o < 0x10000 → o ≠ 0x140 → t.reg Blk.clk o = s.reg Blk.clk o) ∧ t.mem = s.mem) := by
  refine yields_done h ?_
  rw [finish_clk, finish_mem, finish_evc_clk _ _ (by omega), finish_reg_clk _ _ (by omega)]
  unfold State.clkRefuse
  refine ⟨State.bumpInfo_clk _ _ _ _ _, State.evc_bumpInfo_self _ _ _ _ _, State.reg_bumpInfo_self _ _, fun o ho hne => ?_,
    State.bumpInfo_mem _ _ _ _ _⟩
  rw [finish_reg_clk _ _ ho]
  unfold State.bumpInfo
  split
  · rfl
  · exact State.reg_setReg_ne _ _ fun hk => hne ((regKey_inj ho (by omega)).1 hk).2

/-! ## Switches and moves -/

theorem clockSwitchRequest_starts {d : Fin 7} {c : BitVec 4} {s : State} (h : s.switchReason d.val c.toNat = none)
    (ha : (s.domain d.val).active ≠ c.toNat) :
    Yields (.clockSwitchRequest d c) s (fun t => (t.domain d.val).phase = .switching c.toNat ∧
      (t.domain d.val).active = (s.domain d.val).active ∧ t.evc Blk.clk 2 = s.evc Blk.clk 2 ∧ t.clk.now = s.clk.now ∧
      (∀ e, e ≠ d.val → t.domain e = s.domain e) ∧ t.mem = s.mem ∧ t.aon = s.aon) := by
  have hexec : exec (.clockSwitchRequest d c) s =
      done s (s.setDomain d.val { s.domain d.val with phase := .switching c.toNat, hw := false }) := by
    show done s (s.clockSwitch d.val c.toNat) = _
    unfold State.clockSwitch
    rw [h]
    dsimp only
    rw [if_neg ha]
  refine yields_done hexec ?_
  simp only [finish_domain, finish_clk, finish_mem, finish_aon, finish_evc_clk _ _ (show 2 < 32 by omega), State.domain_setDomain_self]
  exact ⟨trivial, trivial, rfl, rfl, fun e he => State.domain_setDomain_ne s _ he, rfl, rfl⟩
theorem clockSwitchRequest_active {d : Fin 7} {c : BitVec 4} {s : State} (h : s.switchReason d.val c.toNat = none)
    (ha : (s.domain d.val).active = c.toNat) :
    Yields (.clockSwitchRequest d c) s (fun t => t.clk = s.clk ∧ t.evc Blk.clk 2 = s.evc Blk.clk 2 + 1 ∧ t.mem = s.mem) := by
  have hexec : exec (.clockSwitchRequest d c) s = done s (s.bump Blk.clk 2) := by
    show done s (s.clockSwitch d.val c.toNat) = _
    unfold State.clockSwitch
    rw [h]
    dsimp only
    rw [if_pos ha]
  refine yields_done hexec ?_
  rw [finish_clk, finish_mem, finish_evc_clk _ _ (by omega)]
  exact ⟨rfl, State.evc_bump_self _ _ _, rfl⟩
theorem exec_clockSwitchRequest_refused {d : Fin 7} {c : BitVec 4} {s : State} {r : Nat} (h : s.switchReason d.val c.toNat = some r) :
    exec (.clockSwitchRequest d c) s = done s (s.clkRefuse d.val c.toNat r) := by
  show done s (s.clockSwitch d.val c.toNat) = _
  unfold State.clockSwitch
  rw [h]

/-- A move that completes, checked or of a mux. -/
theorem moveDone_yields {i : Instr} {s : State} {d c : Nat} (h : exec i s = done s (s.moveDone d)) (hp : (s.domain d).phase = .switching c) :
    Yields i s (fun t => (t.domain d).active = c ∧ (t.domain d).phase = .idle ∧ t.evc Blk.clk 2 = s.evc Blk.clk 2 + 1 ∧
      t.clk.now = s.clk.now ∧ t.clk.ready = s.clk.ready ∧ t.mem = s.mem) := by
  have hmove : s.moveDone d = (s.setDomain d { s.domain d with active := c, phase := .idle, hw := false }).bump Blk.clk 2 := by
    unfold State.moveDone
    dsimp only
    rw [hp]
  refine yields_done (h.trans (by rw [hmove])) ?_
  have hd : ∀ x, ((s.setDomain d x).bump Blk.clk 2).domain d = x := fun x => State.domain_setDomain_self s d x
  rw [finish_domain, finish_clk, finish_mem, finish_evc_clk _ _ (by omega), hd]
  exact ⟨rfl, rfl, State.evc_bump_self _ _ _, rfl, rfl, rfl⟩

theorem muxHang_yields {d : Fin 3} {c : Nat} {s : State} (h : (s.domain (4 + d.val)).phase = .switching c) :
    Yields (.muxHang d) s (fun t => (t.domain (4 + d.val)).phase = .hung ∧ t.evc Blk.clk 5 = s.evc Blk.clk 5 + 1 ∧
      (d.val = 1 → s.rst.classD = none → t.rst.classD = some 4) ∧ (d.val ≠ 1 → t.rst = s.rst) ∧ t.mem = s.mem) := by
  let s1 := (s.setDomain (4 + d.val) { s.domain (4 + d.val) with phase := .hung }).bump Blk.clk 5
  have hexec : exec (.muxHang d) s = done s (if 4 + d.val = 5 then s1.classDFault 4 else s1) := by
    show execMuxHang d s = _
    unfold execMuxHang
    rw [if_pos (by rw [h]; rfl)]
  have hs1 : s1.domain (4 + d.val) = { s.domain (4 + d.val) with phase := .hung } := State.domain_setDomain_self s _ _
  refine yields_done hexec ?_
  rw [finish_domain, finish_rst, finish_mem, finish_evc_clk _ _ (by omega)]
  by_cases hd : d.val = 1
  · rw [if_pos (by omega)]
    have hdom : (s1.classDFault 4).domain (4 + d.val) = s1.domain (4 + d.val) := rfl
    rw [hdom, hs1]
    refine ⟨rfl, State.evc_bump_self _ _ _, fun _ hn => ?_, fun hne => absurd hd hne, rfl⟩
    show some (match s.rst.classD with | some d => min d 4 | none => 4) = _
    rw [hn]
  · rw [if_neg (by omega), hs1]
    exact ⟨rfl, State.evc_bump_self _ _ _, fun h1 => absurd h1 hd, fun _ => rfl, rfl⟩

/-! ## Domain resets -/

theorem tear_domainTeardown (s : State) (d : Nat) : Only tearParts s (s.domainTeardown d) :=
  Only.foldl (fun t c _ => Only.ite (fun _ => tear_teardownFree t c) fun _ => Only.refl _ t) s

/-- A command that does no more than start the reset of a hung domain. -/
theorem domainResetStart_yields {i : Instr} {s : State} {d : Nat} (h : exec i s = done s (s.domainResetStart d))
    (hp : (s.domain d).phase = .hung) (hr : (s.domain d).resetting = false) :
    Yields i s (fun t => (t.domain d).resetting = true ∧ t.evc Blk.rst 6 = s.evc Blk.rst 6 + 1) := by
  let s1 := (s.setDomain d { s.domain d with resetting := true }).bump Blk.rst 6
  have hstart : s.domainResetStart d = s1.domainTeardown d := by
    unfold State.domainResetStart
    simp [hp, hr, s1]
  have hs1 : s1.domain d = { s.domain d with resetting := true } := State.domain_setDomain_self s d _
  have hclk : (s1.domainTeardown d).clk = s1.clk := (tear_domainTeardown s1 d).clk (by decide)
  have hdom : (s1.domainTeardown d).domain d = s1.domain d := by unfold State.domain; rw [hclk]
  refine yields_done (h.trans (by rw [hstart])) ?_
  rw [finish_domain, finish_evc _ _ (by omega) (by decide), hdom, hs1, (tear_domainTeardown s1 d).evc (by decide) (by omega)]
  exact ⟨rfl, State.evc_bump_self _ _ _⟩

theorem State.domainResetWrite_hung {s : State} {d : Nat} (hd : d = 4 ∨ d = 6) (h : (s.domain d).phase = .hung) :
    s.domainResetWrite d = s.domainResetStart d := by unfold State.domainResetWrite; rw [if_pos hd, if_pos h]
theorem State.domainResetWrite_refused {s : State} {d : Nat} (hd : d = 4 ∨ d = 6) (h : (s.domain d).phase ≠ .hung) :
    s.domainResetWrite d = s.clkRefuse d 0 7 := by unfold State.domainResetWrite; rw [if_pos hd, if_neg h]

theorem domainResetComplete_yields {med : Bool} {s : State} (h : (s.domain (if med then 6 else 4)).resetting = true) :
    Yields (.domainResetComplete med) s (fun t => (t.domain (if med then 6 else 4)).active = 3 ∧
      (t.domain (if med then 6 else 4)).phase = .idle ∧ (t.domain (if med then 6 else 4)).resetting = false) := by
  have hexec : exec (.domainResetComplete med) s =
      done s ((s.domainReset (if med then 6 else 4)).setDomain (if med then 6 else 4) { active := 3 }) := by
    show execDomainResetComplete med s = _
    unfold execDomainResetComplete
    rw [if_pos h]
  refine yields_done hexec ?_
  rw [finish_domain, State.domain_setDomain_self]
  exact ⟨rfl, rfl, rfl⟩

/-- Settles O11: an admitted switch sets its domain's phase alone, a refused one is a refusal of the CLK frame (`clkRefuse_yields`), and
the teardown with which a domain reset starts leaves the clocks and the RST frame (`tear_domainTeardown`). -/
theorem clockSwitching : Obligations.ClockSwitching := by
  refine ⟨⟨fun d c s => clockSwitchRequest_starts, fun d c s => clockSwitchRequest_active, fun d c s r h => ?_⟩,
    ⟨fun d c s => moveDone_yields rfl, fun d c s h => ?_⟩, fun d c s => muxHang_yields,
    fun v s hd hp hr => ?_, fun v s hd hp => ?_, fun med s => domainResetStart_yields rfl, fun med s => domainResetComplete_yields⟩
  · obtain ⟨t, ht, hclk, hevc, hreg, -, hmem⟩ := clkRefuse_yields (exec_clockSwitchRequest_refused h)
    exact ⟨t, ht, hclk, hevc, hreg, hmem⟩
  · obtain ⟨t, ht, hact, hph, hevc, hnow, -, hmem⟩ := moveDone_yields (i := .muxMoveComplete d) rfl h
    exact ⟨t, ht, hact, hph, hevc, hnow, hmem⟩
  · exact domainResetStart_yields (congrArg (done s) (State.domainResetWrite_hung hd hp)) hp hr
  · obtain ⟨t, ht, hclk, hevc, -, -, hmem⟩ := clkRefuse_yields (i := .domainResetRequest v)
      (congrArg (done s) (State.domainResetWrite_refused hd hp))
    exact ⟨t, ht, hclk, hevc, hmem⟩

end Sys2Proof.Machine
end

section
/-! SUPPORT. Bit fields of a word and the bytes of a number: what a field reads of the value that was put there. -/
namespace Sys2Proof.Machine
open Sys2Proof

/-! ## Bit fields -/

theorem fld_or (x y : Word) (lo n : Nat) : fld (x ||| y) lo n = fld x lo n ||| fld y lo n := by
  unfold fld
  rw [BitVec.toNat_or, ← Nat.shiftRight_eq_div_pow, Nat.shiftRight_or_distrib, Nat.or_mod_two_pow]
  simp only [Nat.shiftRight_eq_div_pow]
theorem fld_zero (lo n : Nat) : fld 0 lo n = 0 := by simp [fld]
theorem fld_ofNat (v : Nat) {lo n : Nat} (h : lo + n ≤ 32) : fld (BitVec.ofNat 32 v) lo n = v / 2 ^ lo % 2 ^ n := by
  obtain ⟨k, hk⟩ := Nat.exists_eq_add_of_le h
  unfold fld
  have hsplit : 2 ^ 32 = 2 ^ lo * (2 ^ n * 2 ^ k) := by rw [← pow_add, ← pow_add]; congr 1; omega
  rw [BitVec.toNat_ofNat, hsplit, Nat.mod_mul_right_div_self, Nat.mod_mul_right_mod]
theorem fld_at_self (v : Nat) {lo n : Nat} (h : lo + n ≤ 32) : fld (at_ v lo n) lo n = v % 2 ^ n := by
  unfold at_
  rw [fld_ofNat _ h, Nat.mul_div_cancel _ (Nat.two_pow_pos lo), Nat.mod_mod]
/-- A field above or below the one written reads 0. -/
theorem fld_at_of_disjoint (v : Nat) {lo n lo' n' : Nat} (h' : lo' + n' ≤ 32) (hd : lo + n ≤ lo' ∨ lo' + n' ≤ lo) :
    fld (at_ v lo n) lo' n' = 0 := by
  unfold at_
  rw [fld_ofNat _ h']
  rcases hd with hd | hd
  · have hv : v % 2 ^ n * 2 ^ lo < 2 ^ lo' := calc
      v % 2 ^ n * 2 ^ lo < 2 ^ n * 2 ^ lo := by gcongr; exact Nat.mod_lt _ (Nat.two_pow_pos n)
      _ = 2 ^ (lo + n) := by rw [pow_add, Nat.mul_comm]
      _ ≤ 2 ^ lo' := Nat.pow_le_pow_right (by omega) hd
    rw [Nat.div_eq_of_lt hv, Nat.zero_mod]
  · obtain ⟨k, rfl⟩ := Nat.exists_eq_add_of_le hd
    rw [pow_add, pow_add, Nat.mul_assoc, Nat.mul_left_comm, Nat.mul_div_cancel_left _ (Nat.two_pow_pos lo'), Nat.mul_left_comm,
      Nat.mul_mod_right]

/-! ## Single bits -/

/-- Bit j added to a number that lacks it changes no other bit. -/
theorem testBit_two_pow_add_of_ne {w i j : Nat} (hb : w.testBit j = false) (h : i ≠ j) : (2 ^ j + w).testBit i = w.testBit i := by
  rcases Nat.lt_or_gt_of_ne h with hi | hi
  · exact Nat.testBit_two_pow_add_gt hi w
  · obtain ⟨k, rfl⟩ := Nat.exists_eq_add_of_lt hi
    have hhalf : (2 ^ j + w) / 2 ^ (j + 1) = w / 2 ^ (j + 1) := by
      rw [Nat.testBit_eq_decide_div_mod_eq] at hb
      have hodd : ¬ w / 2 ^ j % 2 = 1 := by simpa using hb
      rw [pow_succ, ← Nat.div_div_eq_div_mul, ← Nat.div_div_eq_div_mul, Nat.add_div_left _ (Nat.two_pow_pos j)]
      omega
    rw [show j + k + 1 = k + (j + 1) by omega, Nat.testBit_add, Nat.testBit_add w, hhalf]
theorem testBit_setBit (v j i : Nat) (b : Bool) : (setBit v j b).testBit i = if i = j then b else v.testBit i := by
  unfold setBit
  cases b with
  | true =>
    rw [if_pos rfl, Nat.testBit_or, Nat.testBit_two_pow]
    by_cases h : i = j
    · simp [h]
    · simp [h, Ne.symm h]
  | false =>
    rw [if_neg (by simp)]
    cases hb : v.testBit j with
    | false =>
      by_cases h : i = j
      · simp [h, hb]
      · simp [h]
    | true =>
      obtain ⟨w, rfl⟩ := Nat.exists_eq_add_of_le (Nat.ge_two_pow_of_testBit hb)
      have hw : w.testBit j = false := by rwa [Nat.testBit_two_pow_add_eq, Bool.not_eq_true'] at hb
      rw [if_pos rfl, Nat.add_sub_cancel_left]
      by_cases h : i = j
      · rw [if_pos h, h, hw]
      · rw [if_neg h, testBit_two_pow_add_of_ne hw h]
theorem testBit_mkBits (n : Nat) (f : Nat → Bool) (i : Nat) : (mkBits n f).testBit i = (decide (i < n) && f i) := by
  have hlt : ∀ n, mkBits n f < 2 ^ n := fun n => by
    induction n with
    | zero => simp [mkBits]
    | succ n ih => rw [mkBits, pow_succ]; split <;> omega
  induction n with
  | zero => simp [mkBits]
  | succ n ih =>
    have hn := hlt n
    rcases Nat.lt_trichotomy i n with hi | rfl | hi
    · rw [mkBits]
      split
      · rw [Nat.add_comm, Nat.testBit_two_pow_add_gt hi, ih]
        simp [hi, Nat.lt_succ_of_lt hi]
      · rw [Nat.add_zero, ih]
        simp [hi, Nat.lt_succ_of_lt hi]
    · rw [mkBits]
      split
      · next hf => rw [Nat.add_comm, Nat.testBit_two_pow_add_eq, ih]; simp [hf]
      · next hf => rw [Nat.add_zero, ih]; simp [hf]
    · rw [Nat.testBit_eq_false_of_lt ((hlt (n + 1)).trans_le (Nat.pow_le_pow_right (by omega) hi))]
      simp [show ¬ i < n + 1 by omega]

/-! ## Bytes -/

@[simp] theorem leBytes_length (n v : Nat) : (leBytes n v).length = n := by
  induction n generalizing v with
  | zero => rfl
  | succ n ih => simp [leBytes, ih]
theorem leNat_leBytes (n v : Nat) : leNat (leBytes n v) = v % 256 ^ n := by
  induction n generalizing v with
  | zero => simp [leBytes, leNat, Nat.mod_one]
  | succ n ih =>
    rw [leBytes, leNat, ih, BitVec.toNat_ofNat, pow_succ' 256, Nat.mod_mul (a := 256)]
theorem leNat_append (l m : List Byte) : leNat (l ++ m) = leNat l + 256 ^ l.length * leNat m := by
  induction l with
  | nil => simp [leNat]
  | cons b l ih =>
    rw [List.cons_append, leNat, ih, leNat, List.length_cons, pow_succ']
    ring
theorem leNat_lt (l : List Byte) : leNat l < 256 ^ l.length := by
  induction l with
  | nil => simp [leNat]
  | cons b l ih =>
    rw [leNat, List.length_cons, pow_succ']
    have := b.isLt
    omega
theorem leBytes_leNat (l : List Byte) : leBytes l.length (leNat l) = l := by
  induction l with
  | nil => rfl
  | cons b l ih =>
    have hb := b.isLt
    rw [List.length_cons, leBytes, leNat, show (b.toNat + 256 * leNat l) / 256 = leNat l by omega, ih]
    congr 1
    apply BitVec.eq_of_toNat_eq
    rw [BitVec.toNat_ofNat]
    omega
theorem leBytes_mod (n v : Nat) : leBytes n (v % 256 ^ n) = leBytes n v := by
  have h := leBytes_leNat (leBytes n v)
  rwa [leBytes_length, leNat_leBytes] at h
/-- Digit i of a list of bytes. -/
theorem leNat_digit (l : List Byte) (i : Nat) : leNat l / 256 ^ i % 256 = leNat ((l.drop i).take 1) := by
  induction i generalizing l with
  | zero =>
    cases l with
    | nil => rfl
    | cons b l => have := b.isLt; simp [leNat]; omega
  | succ i ih =>
    cases l with
    | nil => simp [leNat]
    | cons b l =>
      have := b.isLt
      rw [leNat, pow_succ', ← Nat.div_div_eq_div_mul, show (b.toNat + 256 * leNat l) / 256 = leNat l by omega, ih]
      rfl
/-- Byte i of the n-byte field at o. -/
theorem bytesAt_digit (l : List Byte) (o : Nat) {i n : Nat} (h : i < n) : bytesAt l o n / 256 ^ i % 256 = bytesAt l (o + i) 1 := by
  unfold bytesAt
  rw [leNat_digit, List.drop_take, List.take_take, List.drop_drop, Nat.min_eq_left (by omega)]
theorem bytesAt_lt (l : List Byte) (o n : Nat) : bytesAt l o n < 256 ^ n :=
  (leNat_lt _).trans_le (Nat.pow_le_pow_right (by omega) (by simp))
/-- A field of two parts. -/
theorem bytesAt_add (l : List Byte) (o m n : Nat) : bytesAt l o (m + n) = bytesAt l o m + 256 ^ m * bytesAt l (o + m) n := by
  unfold bytesAt
  by_cases h : o + m ≤ l.length
  · rw [← List.take_append_drop m ((l.drop o).take (m + n)), leNat_append, List.take_take, List.drop_take, List.drop_drop,
      Nat.min_eq_left (by omega), Nat.add_sub_cancel_left, List.length_take, List.length_drop, Nat.min_eq_left (by omega)]
  · rw [List.drop_eq_nil_of_le (show l.length ≤ o + m by omega), List.take_of_length_le (by simp; omega),
      List.take_of_length_le (by simp; omega)]
    simp [leNat]
/-- A word that holds four bytes of a message reads back each of them. -/
theorem fld_bytesAt (l : List Byte) (o : Nat) {i : Nat} (h : i < 4) : fld (BitVec.ofNat 32 (bytesAt l o 4)) (8 * i) 8 = bytesAt l (o + i) 1 := by
  rw [fld_ofNat _ (by omega), ← bytesAt_digit l o h, pow_mul]
  norm_num

end Sys2Proof.Machine
end

section
/-! Quench: the braking distance, the commands, the trips and the frames. -/
namespace Sys2Proof.Machine
open Sys2Proof

theorem ceil_div_eq_cdiv {b : Nat} (a : Nat) (hb : 0 < b) : ⌈(a : ℚ) / b⌉ = (cdiv a b : ℤ) := by
  have hq : (0 : ℚ) < b := by exact_mod_cast hb
  have hdiv := Nat.div_add_mod (a + b - 1) b
  have hmod := Nat.mod_lt (a + b - 1) hb
  have hlow : b * cdiv a b < a + b := by unfold cdiv; omega
  have hhigh : a ≤ b * cdiv a b := by unfold cdiv; omega
  rw [Int.ceil_eq_iff, lt_div_iff₀ hq, div_le_iff₀ hq]
  have hlow' : (b : ℚ) * cdiv a b < a + b := by exact_mod_cast hlow
  have hhigh' : (a : ℚ) ≤ b * cdiv a b := by exact_mod_cast hhigh
  push_cast
  constructor <;> linarith

/-- Settles O31: `cdiv` is the ceiling of the exact quotient. -/
theorem brakingDistance : Obligations.BrakingDistance := by
  unfold Obligations.BrakingDistance
  intro s v hA
  have hceil := ceil_div_eq_cdiv (2 * s.qAMin * v * s.qTReact + 1000 * v * v) (b := 2000 * s.qAMin) (by omega)
  have hform : (2 * s.qAMin * v * s.qTReact + 1000 * v ^ 2 : ℚ) / (2000 * s.qAMin) =
      ((2 * s.qAMin * v * s.qTReact + 1000 * v * v : Nat) : ℚ) / ((2000 * s.qAMin : Nat) : ℚ) := by
    push_cast
    ring
  rw [hform, hceil]
  unfold State.brakeDist
  push_cast
  rfl

/-! ## Registers and bytes written one after another -/

/-- n words written from a on. -/
def State.putWords (s : State) (b a n : Nat) (v : Nat → Word) : State := (List.range n).foldl (fun s w => s.setReg b (a + 4 * w) (v w)) s

theorem State.putWords_succ (s : State) (b a n : Nat) (v : Nat → Word) :
    s.putWords b a (n + 1) v = (s.putWords b a n v).setReg b (a + 4 * n) (v n) := by
  unfold State.putWords
  rw [List.range_succ, List.foldl_append]
  rfl
theorem only_putWords (s : State) (b a : Nat) {n : Nat} (v : Nat → Word) (h : a + 4 * n ≤ 0x10000) : Only [.regs b] s (s.putWords b a n v) :=
  Only.foldl (fun t w hw => only_setReg t b (by have := List.mem_range.1 hw; omega) _) s
theorem State.reg_putWords_of_lt (s : State) (b a : Nat) {n o : Nat} (v : Nat → Word) (h : a + 4 * n ≤ 0x10000) (ho : o < a) :
    (s.putWords b a n v).reg b o = s.reg b o := by
  induction n with
  | zero => rfl
  | succ n ih =>
    rw [State.putWords_succ, State.reg_setReg_ne, ih (by omega)]
    rw [Ne, regKey_inj (by omega) (by omega)]
    omega
theorem State.reg_putWords (s : State) (b a : Nat) {n i : Nat} (v : Nat → Word) (h : a + 4 * n ≤ 0x10000) (hi : i < n) :
    (s.putWords b a n v).reg b (a + 4 * i) = v i := by
  induction n with
  | zero => omega
  | succ n ih =>
    rw [State.putWords_succ]
    rcases Nat.lt_succ_iff_lt_or_eq.1 hi with hlt | rfl
    · rw [State.reg_setReg_ne, ih (by omega) hlt]
      rw [Ne, regKey_inj (by omega) (by omega)]
      omega
    · rw [State.reg_setReg_self]

theorem leBytes_bytesAt (l : List Byte) (o n : Nat) (h : o + n ≤ l.length) : leBytes n (bytesAt l o n) = (l.drop o).take n := by
  have hlen : ((l.drop o).take n).length = n := by simp; omega
  have hl := leBytes_leNat ((l.drop o).take n)
  rwa [hlen] at hl
theorem leBytes_ofNat (v : Nat) : leBytes 4 (BitVec.ofNat 32 v).toNat = leBytes 4 v := by
  rw [BitVec.toNat_ofNat]
  exact leBytes_mod 4 v

/-- The first two of sixteen words. -/
theorem take_flatMap_words (g : Nat → List Byte) (h : ∀ w, (g w).length = 4) : ((List.range 16).flatMap g).take 8 = g 0 ++ g 1 := by
  rw [show List.range 16 = 0 :: 1 :: (List.range 14).map (· + 2) by decide, List.flatMap_cons, List.flatMap_cons, ← List.append_assoc]
  exact List.take_left' (by rw [List.length_append, h, h])

/-! ## One segment of a round -/

theorem State.setMsgBuf_eq (s : State) (k b : Nat) (f : CanFrame) (ts : Nat) :
    s.setMsgBuf k b f ts = ((((s.setReg (fbcBlk k) (0x1000 + 0x50 * b) f.idw).setReg (fbcBlk k) (0x1000 + 0x50 * b + 4)
      (at_ (b2n f.fdf + 2 * b2n f.brs + 4 * b2n f.esi) 0 8 ||| at_ f.dlc 8 4)).setPair (fbcBlk k) (0x1000 + 0x50 * b + 8) ts).putWords
      (fbcBlk k) (0x1000 + 0x50 * b + 0x10) 16 (fun w => BitVec.ofNat 32 (bytesAt f.data (4 * w) 4))) := rfl
theorem only_setMsgBuf (s : State) (k : Nat) (f : CanFrame) (ts : Nat) : Only [.regs (22 + k)] s (s.setMsgBuf k 0 f ts) := by
  rw [State.setMsgBuf_eq]
  exact (only_putWords _ _ _ _ (by omega)).after ((only_setPair _ _ (by omega) _).after ((only_setReg _ _ (by omega) _).after
    (only_setReg s _ (by omega) _)))
/-- A classical frame of eight bytes written to buffer 0 stands there. -/
theorem State.msgBuf_setMsgBuf (s : State) (k : Nat) {f : CanFrame} (ts : Nat) (hc : f.fdf = false ∧ f.brs = false ∧ f.esi = false)
    (hd : f.dlc = 8) (hl : f.data.length = 8) : ((s.setMsgBuf k 0 f ts).msgBuf k 0).idw = f.idw ∧
      ((s.setMsgBuf k 0 f ts).msgBuf k 0).data = f.data := by
  obtain ⟨hf, hb, he⟩ := hc
  have hkey : ∀ {o o' : Nat}, o < 0x10000 → o' < 0x10000 → o ≠ o' → regKey (fbcBlk k) o ≠ regKey (fbcBlk k) o' := fun h h' hne => by
    rw [Ne, regKey_inj h h']
    exact fun e => hne e.2
  have hid : (s.setMsgBuf k 0 f ts).reg (fbcBlk k) 0x1000 = f.idw := by
    rw [State.setMsgBuf_eq, State.reg_putWords_of_lt _ _ _ _ (by omega) (by omega)]
    unfold State.setPair
    rw [State.reg_setReg_ne _ _ (hkey (by omega) (by omega) (by omega)), State.reg_setReg_ne _ _ (hkey (by omega) (by omega) (by omega)),
      State.reg_setReg_ne _ _ (hkey (by omega) (by omega) (by omega)), State.reg_setReg_self]
  have hctl : (s.setMsgBuf k 0 f ts).reg (fbcBlk k) 0x1004 = at_ 0 0 8 ||| at_ 8 8 4 := by
    rw [State.setMsgBuf_eq, State.reg_putWords_of_lt _ _ _ _ (by omega) (by omega)]
    unfold State.setPair
    rw [State.reg_setReg_ne _ _ (hkey (by omega) (by omega) (by omega)), State.reg_setReg_ne _ _ (hkey (by omega) (by omega) (by omega)),
      State.reg_setReg_self, hf, hb, he, hd]
    rfl
  have hword : ∀ i, i < 16 → (s.setMsgBuf k 0 f ts).reg (fbcBlk k) (0x1010 + 4 * i) = BitVec.ofNat 32 (bytesAt f.data (4 * i) 4) := fun i hi => by
    rw [State.setMsgBuf_eq]
    exact State.reg_putWords _ _ _ _ (by omega) hi
  refine ⟨hid, ?_⟩
  generalize s.setMsgBuf k 0 f ts = t at hctl hword
  have hlen : dlcLen (bit (fld (t.reg (fbcBlk k) 0x1004) 0 8) 0) (fld (t.reg (fbcBlk k) 0x1004) 8 4) = 8 := by rw [hctl]; decide
  have htwo : (t.msgBuf k 0).data = (leBytes 4 (t.reg (fbcBlk k) 0x1010).toNat ++ leBytes 4 (t.reg (fbcBlk k) 0x1014).toNat) := by
    unfold State.msgBuf
    dsimp only
    rw [hlen, take_flatMap_words _ fun _ => leBytes_length 4 _]
  have h0 := hword 0 (by omega)
  have h1 := hword 1 (by omega)
  rw [htwo, h0, h1, leBytes_ofNat, leBytes_ofNat, leBytes_bytesAt _ _ _ (by omega), leBytes_bytesAt _ _ _ (by omega)]
  show f.data.take 4 ++ (f.data.drop 4).take 4 = f.data
  rw [List.take_of_length_le (l := f.data.drop 4) (by simp; omega), List.take_append_drop]

theorem State.fbc_setQch (s : State) (q : Qch) (k : Nat) : ({ s with qch := q } : State).fbc k = s.fbc k := rfl
/-- What one segment's part of a round leaves and writes. -/
theorem State.sendSafety_writes (s : State) (k cmd cause tbn : Nat) :
    (s.sendSafety k cmd cause tbn).fbc k = { s.fbc k with
      txReq := (s.fbc k).txReq ||| 1, txDone := (s.fbc k).txDone &&& 0xFE, txAborted := (s.fbc k).txAborted &&& 0xFE } ∧
    (s.sendSafety k cmd cause tbn).qch.stopSeq =
      (if cmd = 0x5A then nset s.qch.stopSeq k ((nget s.qch.stopSeq k + 1) % 65536) else s.qch.stopSeq) ∧
    (s.sendSafety k cmd cause tbn).qch = { s.qch with stopSeq := (s.sendSafety k cmd cause tbn).qch.stopSeq } ∧
    (s.sendSafety k cmd cause tbn).rf = (s.setMsgBuf k 0 (stopFrame cmd cause (nget s.qch.stopSeq k) tbn) 0).rf ∧
    (∀ j, j ≠ k → (s.sendSafety k cmd cause tbn).fbc j = s.fbc j) ∧
    Only [.fbcs, .qch, .regs (22 + k)] s (s.sendSafety k cmd cause tbn) := by
  have hbuf := only_setMsgBuf s k (stopFrame cmd cause (nget s.qch.stopSeq k) tbn) 0
  have hq := hbuf.qch (by simp)
  have hf : ∀ j, (s.setMsgBuf k 0 (stopFrame cmd cause (nget s.qch.stopSeq k) tbn) 0).fbc j = s.fbc j := fun j => by
    unfold State.fbc; rw [hbuf.fbcs (by simp)]
  unfold State.sendSafety
  dsimp only
  generalize s.setMsgBuf k 0 (stopFrame cmd cause (nget s.qch.stopSeq k) tbn) 0 = x at *
  rw [hf k]
  generalize hy : ({ s.fbc k with txReq := _, txDone := _, txAborted := _ } : Fbc) = y
  have hset : Only [.fbcs, .qch, .regs (22 + k)] s (x.setFbc k y) := ((only_setFbc x k y).mono (by simp)).after (hbuf.mono (by simp))
  have hself : (x.setFbc k y).fbc k = y := State.fbc_setFbc_self x k y
  have hne : ∀ j, j ≠ k → (x.setFbc k y).fbc j = s.fbc j := fun j hj => (State.fbc_setFbc_ne x y hj).trans (hf j)
  have hq2 : (x.setFbc k y).qch = s.qch := (State.setFbc_qch x k y).trans hq
  have hrf : (x.setFbc k y).rf = x.rf := State.setFbc_rf x k y
  generalize x.setFbc k y = z at *
  by_cases hcmd : cmd = 0x5A
  · simp only [if_pos hcmd]
    exact ⟨(State.fbc_setQch z _ k).trans hself, by rw [hq2], by rw [hq2], hrf, fun j hj => (State.fbc_setQch z _ j).trans (hne j hj),
      ((only_setQch z _).mono (by simp)).after hset⟩
  · simp only [if_neg hcmd]
    exact ⟨hself, by rw [hq2], by rw [hq2], hrf, hne, hset⟩
theorem State.sendSafety_msgBuf (s : State) (k cmd cause tbn : Nat) : ((s.sendSafety k cmd cause tbn).msgBuf k 0).idw = 1 ∧
    ((s.sendSafety k cmd cause tbn).msgBuf k 0).data =
      leBytes 1 cmd ++ leBytes 1 cause ++ leBytes 2 (nget s.qch.stopSeq k) ++ leBytes 4 tbn := by
  have hrf := (State.sendSafety_writes s k cmd cause tbn).2.2.2.1
  have hmsg : (s.sendSafety k cmd cause tbn).msgBuf k 0 = (s.setMsgBuf k 0 (stopFrame cmd cause (nget s.qch.stopSeq k) tbn) 0).msgBuf k 0 := by
    unfold State.msgBuf State.reg
    rw [hrf]
  rw [hmsg]
  exact State.msgBuf_setMsgBuf s k 0 ⟨rfl, rfl, rfl⟩ rfl (by simp [stopFrame])

/-! ## A round -/

/-- Segment k's part of a round. -/
def State.roundStep (cmd cause tbn : Nat) (s : State) (k : Nat) : State :=
  if bit s.stopSegs k && s.fbcSends k then s.sendSafety k cmd cause tbn else s
theorem State.safetyRound_eq (s : State) (cmd cause tbn : Nat) : s.safetyRound cmd cause tbn =
    { (List.range 4).foldl (State.roundStep cmd cause tbn) s with
      qch.roundAt := ((List.range 4).foldl (State.roundStep cmd cause tbn) s).tbNow } := rfl

/-- What belongs to segment k, with what Quench's registers select, is the same. -/
def SameSegment (k : Nat) (s t : State) : Prop :=
  t.fbc k = s.fbc k ∧ nget t.qch.stopSeq k = nget s.qch.stopSeq k ∧ (∀ o, o < 0x10000 → t.reg (22 + k) o = s.reg (22 + k) o) ∧
    t.stopSegs = s.stopSegs
theorem SameSegment.refl (k : Nat) (s : State) : SameSegment k s s := ⟨rfl, rfl, fun _ _ => rfl, rfl⟩
theorem SameSegment.trans {k : Nat} {s t u : State} (h : SameSegment k s t) (h' : SameSegment k t u) : SameSegment k s u := by
  obtain ⟨a1, a2, a3, a4⟩ := h
  obtain ⟨b1, b2, b3, b4⟩ := h'
  exact ⟨b1.trans a1, b2.trans a2, fun o ho => (b3 o ho).trans (a3 o ho), b4.trans a4⟩
theorem SameSegment.sends {k : Nat} {s t : State} (h : SameSegment k s t) :
    (bit t.stopSegs k && t.fbcSends k) = (bit s.stopSegs k && s.fbcSends k) := by
  obtain ⟨hf, -, hr, hs⟩ := h
  have hcfg : t.fbcCfg k 0x12 = s.fbcCfg k 0x12 := by
    unfold State.fbcCfg fbcBlk
    exact congrArg (fun w => fld w _ 8) (hr 0x200 (by omega))
  unfold State.fbcSends State.fbcMode
  rw [hf, hs, hcfg]
theorem SameSegment.msgBuf {k : Nat} {s t : State} (h : SameSegment k s t) : t.msgBuf k 0 = s.msgBuf k 0 := by
  have hr : ∀ o, o < 0x10000 → t.reg (fbcBlk k) o = s.reg (fbcBlk k) o := h.2.2.1
  have hw : (List.range 16).flatMap (fun w => leBytes 4 (t.reg (fbcBlk k) (0x1000 + 0x50 * 0 + 0x10 + 4 * w)).toNat) =
      (List.range 16).flatMap (fun w => leBytes 4 (s.reg (fbcBlk k) (0x1000 + 0x50 * 0 + 0x10 + 4 * w)).toNat) := by
    rw [List.flatMap_def, List.flatMap_def]
    congr 1
    refine List.map_congr_left fun w hw => ?_
    have := List.mem_range.1 hw
    rw [hr _ (by omega)]
  unfold State.msgBuf
  dsimp only
  rw [hr (0x1000 + 0x50 * 0) (by omega), hr (0x1000 + 0x50 * 0 + 4) (by omega), hw]

/-- The parts that a round changes. -/
abbrev roundParts : List StatePart := [.fbcs, .qch, .regs 22, .regs 23, .regs 24, .regs 25]

theorem regs_mem_roundParts {k : Nat} (h : k < 4) : StatePart.regs (22 + k) ∈ roundParts := by
  have hk : k = 0 ∨ k = 1 ∨ k = 2 ∨ k = 3 := by omega
  rcases hk with rfl | rfl | rfl | rfl <;> decide
theorem only_roundStep (s : State) {k : Nat} (hk4 : k < 4) (cmd cause tbn : Nat) : Only roundParts s (State.roundStep cmd cause tbn s k) := by
  refine Only.ite (fun _ => ?_) fun _ => Only.refl _ s
  obtain ⟨-, -, -, -, -, ho⟩ := State.sendSafety_writes s k cmd cause tbn
  have hk := regs_mem_roundParts hk4
  exact ho.mono (by simp [hk])
theorem only_rounds (s : State) (cmd cause tbn : Nat) : Only roundParts s ((List.range 4).foldl (State.roundStep cmd cause tbn) s) :=
  Only.foldl (fun t _ hk => only_roundStep t (List.mem_range.1 hk) cmd cause tbn) s
theorem only_safetyRound (s : State) (cmd cause tbn : Nat) : Only roundParts s (s.safetyRound cmd cause tbn) := by
  rw [State.safetyRound_eq]
  exact ((only_setQch _ _).mono (by simp)).after (only_rounds s cmd cause tbn)
/-- Of Quench's own state a round changes the numbers of the frames and its own instant. -/
theorem State.rounds_qch (l : List Nat) (s : State) (cmd cause tbn : Nat) : (l.foldl (State.roundStep cmd cause tbn) s).qch =
    { s.qch with stopSeq := (l.foldl (State.roundStep cmd cause tbn) s).qch.stopSeq } ∧
    (cmd ≠ 0x5A → (l.foldl (State.roundStep cmd cause tbn) s).qch.stopSeq = s.qch.stopSeq) := by
  induction l generalizing s with
  | nil => exact ⟨rfl, fun _ => rfl⟩
  | cons k l ih =>
    obtain ⟨h1, h2⟩ := ih (State.roundStep cmd cause tbn s k)
    have hstep : (State.roundStep cmd cause tbn s k).qch = { s.qch with stopSeq := (State.roundStep cmd cause tbn s k).qch.stopSeq } ∧
        (cmd ≠ 0x5A → (State.roundStep cmd cause tbn s k).qch.stopSeq = s.qch.stopSeq) := by
      unfold State.roundStep
      obtain ⟨-, hseq, hq, -, -, -⟩ := State.sendSafety_writes s k cmd cause tbn
      split
      · exact ⟨hq, fun h => by rw [hseq, if_neg h]⟩
      · exact ⟨rfl, fun _ => rfl⟩
    rw [List.foldl_cons]
    refine ⟨h1.trans ?_, fun h => (h2 h).trans (hstep.2 h)⟩
    rw [hstep.1]
theorem State.safetyRound_qch (s : State) (cmd cause tbn : Nat) : (s.safetyRound cmd cause tbn).qch =
    { s.qch with stopSeq := (s.safetyRound cmd cause tbn).qch.stopSeq, roundAt := s.tbNow } := by
  have hnow : ((List.range 4).foldl (State.roundStep cmd cause tbn) s).tbNow = s.tbNow := by
    unfold State.tbNow
    rw [(only_rounds s cmd cause tbn).clk (by simp)]
  rw [State.safetyRound_eq, hnow]
  dsimp only
  rw [(State.rounds_qch _ s cmd cause tbn).1]
theorem State.clearRound_stopSeq (s : State) (cause tbn : Nat) : (s.safetyRound 0xA5 cause tbn).qch.stopSeq = s.qch.stopSeq := by
  rw [State.safetyRound_eq]
  exact (State.rounds_qch _ s 0xA5 cause tbn).2 (by decide)

theorem sameSegment_roundStep (s : State) {k j : Nat} (hj : j ≠ k) (h4 : j < 4) (cmd cause tbn : Nat) :
    SameSegment k s (State.roundStep cmd cause tbn s j) := by
  unfold State.roundStep
  split
  · obtain ⟨-, hseq, -, -, hf, ho⟩ := State.sendSafety_writes s j cmd cause tbn
    have hreg : ∀ b o, b ≠ 22 + j → o < 0x10000 → (s.sendSafety j cmd cause tbn).reg b o = s.reg b o := fun b o hb h =>
      ho.reg (by simpa using hb) h
    have hstop : (s.sendSafety j cmd cause tbn).stopSegs = s.stopSegs :=
      congrArg (fun w => fld w 16 8) (hreg Blk.qch 0x40C (show 27 ≠ 22 + j by omega) (by omega))
    refine ⟨hf k hj.symm, ?_, fun o h => hreg (22 + k) o (show 22 + k ≠ 22 + j by omega) h, hstop⟩
    rw [hseq]
    split
    · rw [nget_nset, if_neg hj.symm]
    · rfl
  · exact SameSegment.refl k s
/-- Segment k's part of a round happens once, the other segments' parts before and after it leave what belongs to k. -/
theorem sameSegment_rounds {l : List Nat} (s : State) (k cmd cause tbn : Nat) (hl : ∀ j ∈ l, j < 4) (hk : k ∉ l) :
    SameSegment k s (l.foldl (State.roundStep cmd cause tbn) s) := by
  induction l generalizing s with
  | nil => exact SameSegment.refl k s
  | cons j l ih =>
    rw [List.mem_cons, not_or] at hk
    exact (sameSegment_roundStep s (Ne.symm hk.1) (hl j List.mem_cons_self) cmd cause tbn).trans
      (ih _ (fun i hi => hl i (List.mem_cons_of_mem _ hi)) hk.2)
theorem safetyRound_segment (s : State) {k : Nat} (hk : k < 4) (cmd cause tbn : Nat) :
    ∃ u, SameSegment k s u ∧ SameSegment k (State.roundStep cmd cause tbn u k) (s.safetyRound cmd cause tbn) := by
  have hlt : ∀ {i : Nat}, i ∈ List.range k → i < 4 := fun hi => (List.mem_range.1 hi).trans hk
  have hsplit : List.range 4 = List.range k ++ k :: (List.range (3 - k)).map (fun i => k + 1 + i) := by
    rw [show 4 = k + (1 + (3 - k)) by omega, List.range_add, List.range_add]
    simp [Nat.add_assoc]
  have hround : SameSegment k ((List.range 4).foldl (State.roundStep cmd cause tbn) s) (s.safetyRound cmd cause tbn) :=
    ⟨rfl, rfl, fun _ _ => rfl, rfl⟩
  refine ⟨(List.range k).foldl (State.roundStep cmd cause tbn) s, sameSegment_rounds s k cmd cause tbn (fun j => hlt) (by simp), ?_⟩
  refine SameSegment.trans ?_ hround
  rw [hsplit, List.foldl_append, List.foldl_cons]
  refine sameSegment_rounds _ k cmd cause tbn (fun j hj => ?_) (fun hj => ?_)
  · obtain ⟨i, hi, rfl⟩ := List.mem_map.1 hj
    have := List.mem_range.1 hi
    omega
  · obtain ⟨i, -, hi⟩ := List.mem_map.1 hj
    omega
/-- A segment that takes no frame of the round keeps what it has. -/
theorem safetyRound_silent {s : State} {k : Nat} (hk : k < 4) (h : (bit s.stopSegs k && s.fbcSends k) = false) (cmd cause tbn : Nat) :
    SameSegment k s (s.safetyRound cmd cause tbn) := by
  obtain ⟨u, hu, hr⟩ := safetyRound_segment s hk cmd cause tbn
  rw [State.roundStep, hu.sends, h] at hr
  exact hu.trans hr
/-- A segment that takes it has the frame in buffer 0, requested, with its number. -/
theorem safetyRound_sends {s : State} {k : Nat} (hk : k < 4) (h : (bit s.stopSegs k && s.fbcSends k) = true) (cmd cause tbn : Nat) :
    ((s.safetyRound cmd cause tbn).fbc k).txReq.toNat.testBit 0 = true ∧
    nget (s.safetyRound cmd cause tbn).qch.stopSeq k =
      (if cmd = 0x5A then (nget s.qch.stopSeq k + 1) % 65536 else nget s.qch.stopSeq k) ∧
    ((s.safetyRound cmd cause tbn).msgBuf k 0).idw = 1 ∧ ((s.safetyRound cmd cause tbn).msgBuf k 0).data =
      leBytes 1 cmd ++ leBytes 1 cause ++ leBytes 2 (nget s.qch.stopSeq k) ++ leBytes 4 tbn := by
  obtain ⟨u, hu, hr⟩ := safetyRound_segment s hk cmd cause tbn
  rw [State.roundStep, hu.sends, h] at hr
  replace hr : SameSegment k (u.sendSafety k cmd cause tbn) (s.safetyRound cmd cause tbn) := hr
  obtain ⟨hfbc, hseq, -⟩ := State.sendSafety_writes u k cmd cause tbn
  obtain ⟨hid, hdata⟩ := State.sendSafety_msgBuf u k cmd cause tbn
  obtain ⟨-, hseqU, -, -⟩ := hu
  rw [hr.msgBuf, hr.1, hr.2.1, hfbc, hseq, hid, hdata, hseqU]
  refine ⟨?_, ?_, rfl, rfl⟩
  · show (BitVec.toNat (_ ||| 1#8)).testBit 0 = true
    simp
  · split
    · rw [nget_nset, if_pos rfl]
    · exact hseqU
end Sys2Proof.Machine
end

section
/-! Quench's causes, trips and entry to ARMED; its commands and frames. -/
namespace Sys2Proof.Machine
open Sys2Proof

/-! ## Causes -/

theorem State.causeWhere_setReadback (s : State) (b x y : Bool) (c : Nat) :
    ({ s with qch.readback := b, qch.qpRbBad := x, qch.qnRbBad := y } : State).causeWhere c = s.causeWhere c := rfl
/-- The state of Quench, its last cause and its rounds make no cause. -/
theorem State.causes_setSt (s : State) (a : QchState) (c l r : Nat) (q : Tab Nat) (b : Bool) :
    ({ s with qch.st := a, qch.tripCause := c, qch.clearLeft := l, qch.roundAt := r, qch.stopSeq := q, qch.selftestOk := b } : State).causes = s.causes := rfl

/-! ## The end of a step without a trip -/

theorem only_finish (s0 : State) {s : State} (h : s.quenchClear) : Only [] s (finish s0 s) := by
  rw [finish_quiet s0 h]
  intro p _
  cases p <;> simp [StatePart.same, State.reg, State.evc, State.ackOf]
theorem finish_evc_of_not_armed (s0 : State) {s : State} (h : s.qch.st ≠ .armed) (b j : Nat) : (finish s0 s).evc b j = s.evc b j := by
  rw [finish_quiet s0 fun ha => absurd ha h]
  rfl
theorem State.quenchClear_of_not_armed {s : State} (h : s.qch.st ≠ .armed) : s.quenchClear := fun ha => absurd ha h
theorem State.pairRun_of_not_armed {s : State} (h : s.qch.st ≠ .armed) : s.pairRun = false := by
  rw [Bool.eq_false_iff, Ne, State.pairRun_iff]
  exact fun ⟨ha, _⟩ => h ha

theorem Only.frame_trip {l l' : List StatePart} {s t : State} (h : Only l' s t) (hl : l' ⊆ l ++ tripParts) : Frame l s t :=
  fun p hp hq => h p fun hm => (List.mem_append.1 (hl hm)).elim hp hq
theorem finish_answers (s0 s : State) (m : Nat) (r : Resp) : (finish s0 (s.reply m r)).answers m r := by
  unfold State.answers State.reply
  simp
theorem finish_refuses (s0 s : State) (m code detail : Nat) (p : List Byte) : (finish s0 (s.refuse m code detail p)).refuses m code detail :=
  ⟨_, finish_answers s0 s m _, rfl, rfl⟩
/-- An answer makes no cause. -/
theorem State.quenchClear_reply {s : State} (m : Nat) (r : Resp) (h : s.quenchClear) : (s.reply m r).quenchClear :=
  (only_reply s m r).quenchClear h (by simp) (by simp) (by simp)

/-! ## Configuration -/

/-- A byte of a message whose words stand in registers. -/
theorem fld_of_words {f : Nat → Word} {l : List Byte} {a n : Nat} (h : ∀ w, w < n → f w = BitVec.ofNat 32 (bytesAt l (a + 4 * w) 4)) {o : Nat}
    (ha : a ≤ o) (ho : o < a + 4 * n) : fld (f ((o - a) / 4)) ((o - a) % 4 * 8) 8 = bytesAt l o 1 := by
  rw [h _ (by omega), Nat.mul_comm _ 8, fld_bytesAt _ _ (by omega)]
  congr 1
  omega
theorem bytesAt_two (l : List Byte) (o : Nat) : bytesAt l o 1 + 256 * bytesAt l (o + 1) 1 = bytesAt l o 2 := (bytesAt_add l o 1 1).symm

theorem qchEnvelope_accepted_yields {m : MbId} {s : State} (h : s.accepts m.val 0x0802 (s.rqLen m.val == 8)
      [(0x11, 3 ≤ s.rq m.val 0x11 1 && s.rq m.val 0x11 1 ≤ 50), (0x12, 100 ≤ s.rq m.val 0x12 2), (0x16, s.rq m.val 0x16 2 ≤ 1000)])
    (hst : s.qch.st = .disarmed ∨ s.qch.st = .tripped) : Yields (.qchEnvelope m) s (fun t => t.doneWith m.val [] ∧ t.qch.envDone = true ∧
      t.qTReact = s.rq m.val 0x10 1 ∧ t.qOdomTimeout = s.rq m.val 0x11 1 ∧ t.qAMin = s.rq m.val 0x12 2 ∧
      t.qDMargin = s.rq m.val 0x14 2 ∧ t.qVIdle = s.rq m.val 0x16 2 ∧ t.qch.st = s.qch.st ∧ Frame [.fmn] s t) := by
  let v := fun w => BitVec.ofNat 32 (s.rq m.val (0x10 + 4 * w) 4)
  let s1 : State := { s.putWords Blk.qch 0x400 2 v with qch.envDone := true }
  have hexec : exec (.qchEnvelope m) s = done s (s1.replyDone m.val) := by
    show execQchEnvelope m s = _
    unfold execQchEnvelope
    dsimp only
    rw [State.command_accepts _ h, if_neg (by rcases hst with e | e <;> rw [e] <;> decide)]
    rfl
  have hna : s1.qch.st ≠ .armed := by
    rcases hst with e | e <;> exact fun ha => absurd ((show s1.qch.st = s.qch.st from rfl).symm.trans ha) (by rw [e]; decide)
  have hfin : Only [] (s1.replyDone m.val) (finish s (s1.replyDone m.val)) := only_finish s (State.quenchClear_of_not_armed hna)
  have hq : (finish s (s1.replyDone m.val)).qch = s1.qch := hfin.qch (by simp)
  have hbyte : ∀ o, 0x10 ≤ o → o < 0x18 → (finish s (s1.replyDone m.val)).qEnv o = s.rq m.val o 1 := fun o h1 h2 => by
    refine fld_of_words (f := fun w => (finish s (s1.replyDone m.val)).reg Blk.qch (0x400 + w * 4)) (n := 2) (fun w hw => ?_) h1 h2
    rw [hfin.reg (by simp) (by omega), Nat.mul_comm w 4]
    exact State.reg_putWords s Blk.qch 0x400 v (by omega) hw
  have htwo : ∀ o, 0x10 ≤ o → o < 0x17 → (finish s (s1.replyDone m.val)).qEnv o + 256 * (finish s (s1.replyDone m.val)).qEnv (o + 1) =
      s.rq m.val o 2 := fun o h1 h2 => by rw [hbyte o h1 (by omega), hbyte (o + 1) (by omega) (by omega)]; exact bytesAt_two _ o
  refine yields_done hexec ⟨finish_answers s s1 m.val _, by rw [hq], hbyte 0x10 (by omega) (by omega), hbyte 0x11 (by omega) (by omega), htwo 0x12 (by omega) (by omega),
    htwo 0x14 (by omega) (by omega), htwo 0x16 (by omega) (by omega), by rw [hq]; rfl, frame_finish ?_⟩
  exact Only.frame_trip (((only_reply _ _ _).mono (by simp)).after (((only_setQch _ _).mono (by simp)).after
    ((only_putWords s Blk.qch 0x400 v (by omega)).mono (by simp)))) (l' := [.regs 27, .qch, .fmn]) (by decide)
theorem QchState.locked_iff (q : QchState) : q.locked = true ↔ q = .armed ∨ q = .grave := by cases q <;> decide
theorem qchEnvelope_locked_yields {m : MbId} {s : State} (h : s.accepts m.val 0x0802 (s.rqLen m.val == 8)
      [(0x11, 3 ≤ s.rq m.val 0x11 1 && s.rq m.val 0x11 1 ≤ 50), (0x12, 100 ≤ s.rq m.val 0x12 2), (0x16, s.rq m.val 0x16 2 ≤ 1000)])
    (hst : s.qch.st = .armed ∨ s.qch.st = .grave) (hc : s.quenchClear) : Yields (.qchEnvelope m) s (fun t =>
      t.refuses m.val rStateConflict 1 ∧ t.qch = s.qch ∧ (∀ o, t.reg Blk.qch o = s.reg Blk.qch o) ∧ Frame [.fmn] s t) := by
  have hexec : exec (.qchEnvelope m) s = done s (s.refuse m.val rStateConflict 1) := by
    show execQchEnvelope m s = _
    unfold execQchEnvelope
    dsimp only
    rw [State.command_accepts _ h, if_pos ((QchState.locked_iff _).2 hst)]
  have hclear : (s.refuse m.val rStateConflict 1).quenchClear := State.quenchClear_reply _ _ hc
  have hfin := only_finish s hclear
  refine yields_done hexec ⟨finish_refuses s s m.val _ _ _, hfin.qch (by simp), fun o => ?_, (only_reply s _ _).frame_finish⟩
  rw [finish_quiet s hclear]
  rfl

/-- The first n matchers started afresh. -/
def State.freshMatchers (s : State) (n : Nat) : State := (List.range n).foldl (fun s i => s.setMatcher i { arrived := s.clk.now }) s

theorem State.freshMatchers_leaves (s : State) (n : Nat) : Only [.qch] s (s.freshMatchers n) ∧
    (s.freshMatchers n).qch = { s.qch with matchers := (s.freshMatchers n).qch.matchers } ∧
    (s.freshMatchers n).fmn = s.fmn ∧ ∀ i, i < n → ((s.freshMatchers n).matcher i).seen = false := by
  induction n with
  | zero => exact ⟨Only.refl _ s, rfl, rfl, fun i hi => absurd hi (by omega)⟩
  | succ n ih =>
    obtain ⟨ho, hq, hf, hm⟩ := ih
    have hsucc : s.freshMatchers (n + 1) = (s.freshMatchers n).setMatcher n { arrived := (s.freshMatchers n).clk.now } := by
      unfold State.freshMatchers
      rw [List.range_succ, List.foldl_append]
      rfl
    rw [hsucc]
    generalize s.freshMatchers n = u at *
    refine ⟨((only_setQch u _).mono (by simp)).after ho, ?_, hf, fun i hi => ?_⟩
    · unfold State.setMatcher
      rw [hq]
    · unfold State.matcher State.setMatcher
      dsimp only
      by_cases he : i = n
      · rw [he, Tab.get_set_self]
      · rw [Tab.get_set_ne _ _ _ he]
        exact hm i (by omega)

theorem qchMasks_accepted_yields {m : MbId} {s : State} (h : s.accepts m.val 0x0803 (s.rqLen m.val == 0x3C)
      (([(0x16, s.rq m.val 0x16 1 < 16), (0x1A, s.rq m.val 0x1A 2 == 0)] : List (Nat × Bool)) ++
        (List.range 16).map (fun i => (0x1C + i, s.rq m.val (0x1C + i) 1 != 0)) ++
        (List.range 8).map (fun i =>
          (0x2C + 4 * i, matcherOk (s.rq m.val (0x2C + 4 * i) 1) (s.rq m.val (0x2D + 4 * i) 1) (s.rq m.val (0x2E + 4 * i) 2)))))
    (hst : s.qch.st = .disarmed ∨ s.qch.st = .tripped) : Yields (.qchMasks m) s (fun t => t.doneWith m.val [] ∧ t.qch.masksDone = true ∧
      t.fwdMask = s.rq m.val 0x10 2 ∧ t.stopSegs = s.rq m.val 0x16 1 ∧ (∀ i, i < 16 → t.staleMs i = s.rq m.val (0x1C + i) 1) ∧
      (∀ i, i < 8 → t.matcherKind i = s.rq m.val (0x2C + 4 * i) 1 ∧ t.matcherId i = s.rq m.val (0x2E + 4 * i) 2 ∧
        (t.matcher i).seen = false) ∧ t.qch.st = s.qch.st ∧ Frame [.fmn] s t) := by
  let v := fun w => BitVec.ofNat 32 (s.rq m.val (0x10 + 4 * w) 4)
  obtain ⟨x, hx⟩ : ∃ x, x = s.putWords Blk.qch 0x408 15 v := ⟨_, rfl⟩
  have hw : Only [.regs 27] s x := hx ▸ only_putWords s Blk.qch 0x408 v (by omega)
  have hxv : ∀ w, w < 15 → x.reg Blk.qch (0x408 + 4 * w) = v w := fun w hw => hx ▸ State.reg_putWords s Blk.qch 0x408 v (by omega) hw
  obtain ⟨hfo, hfq, -, hseen⟩ := x.freshMatchers_leaves 8
  rw [hw.qch (by simp)] at hfq
  let s1 : State := { x.freshMatchers 8 with qch.masksDone := true }
  have hexec : exec (.qchMasks m) s = done s (s1.replyDone m.val) := by
    show execQchMasks m s = _
    unfold execQchMasks
    dsimp only
    rw [State.command_accepts _ h, if_neg (by rcases hst with e | e <;> rw [e] <;> decide)]
    rw [show s1 = { (s.putWords Blk.qch 0x408 15 v).freshMatchers 8 with qch.masksDone := true } by rw [← hx]]
    rfl
  have hst1 : s1.qch.st = s.qch.st := by
    show (x.freshMatchers 8).qch.st = _
    rw [hfq]
  have hna : s1.qch.st ≠ .armed := by rw [hst1]; rcases hst with e | e <;> rw [e] <;> decide
  have hs1 : Only [.regs 27, .qch] s s1 := ((only_setQch _ _).mono (by simp)).after ((hfo.mono (by simp)).after (hw.mono (by simp)))
  have hfin : Only [] (s1.replyDone m.val) (finish s (s1.replyDone m.val)) := only_finish s (State.quenchClear_of_not_armed hna)
  have hq : (finish s (s1.replyDone m.val)).qch = s1.qch := hfin.qch (by simp)
  have hbyte : ∀ o, 0x10 ≤ o → o < 0x4C → (finish s (s1.replyDone m.val)).qMask o = s.rq m.val o 1 := fun o h1 h2 => by
    refine fld_of_words (f := fun w => (finish s (s1.replyDone m.val)).reg Blk.qch (0x408 + w * 4)) (n := 15) (fun w hw' => ?_) h1 h2
    have hs : s1.reg Blk.qch (0x408 + 4 * w) = x.reg Blk.qch (0x408 + 4 * w) := hfo.reg (by simp) (by omega)
    rw [hfin.reg (by simp) (by omega), Nat.mul_comm w 4]
    exact hs.trans (hxv w hw')
  have htwo : ∀ o, 0x10 ≤ o → o < 0x4B → (finish s (s1.replyDone m.val)).qMask16 o = s.rq m.val o 2 := fun o h1 h2 => by
    unfold State.qMask16
    rw [hbyte o h1 (by omega), hbyte (o + 1) (by omega) (by omega)]
    exact bytesAt_two _ o
  have hmatch : ∀ i, i < 8 → ((finish s (s1.replyDone m.val)).matcher i).seen = false := fun i hi => by
    unfold State.matcher
    rw [hq]
    exact hseen i hi
  refine yields_done hexec ⟨finish_answers s s1 m.val _, by rw [hq], htwo 0x10 (by omega) (by omega), hbyte 0x16 (by omega) (by omega),
    fun i hi => hbyte _ (by omega) (by omega), fun i hi => ⟨hbyte _ (by omega) (by omega), htwo _ (by omega) (by omega), hmatch i hi⟩,
    by rw [hq]; exact hst1, frame_finish ?_⟩
  exact Only.frame_trip (((only_reply s1 _ _).mono (by simp)).after (hs1.mono (by simp))) (l' := [.regs 27, .qch, .fmn]) (by decide)

/-! ## Arm, disarm, resume, self-test -/

/-- Entry to ARMED: the CLEAR round changes no cause. -/
theorem State.enterArmed_leaves (s : State) : s.enterArmed.qch.st = .armed ∧ s.enterArmed.qch.tripCause = 0 ∧ s.enterArmed.qch.clearLeft = 2 ∧
    s.enterArmed.causes = s.causes ∧ Only roundParts s s.enterArmed := by
  let s0 : State := { s with qch.st := .armed, qch.clearLeft := 2, qch.tripCause := 0 }
  have hround : Only roundParts s0 s.enterArmed := only_safetyRound s0 0xA5 0 0
  have hq : s.enterArmed.qch = { s.qch with st := .armed, clearLeft := 2, tripCause := 0, stopSeq := s.enterArmed.qch.stopSeq, roundAt := s.tbNow } := State.safetyRound_qch s0 0xA5 0 0
  have hcause : s.enterArmed.causes = ({ s with qch := s.enterArmed.qch } : State).causes :=
    State.causes_congr_config rfl (fun o _ ho => hround.reg (by simp) ho) (congrArg (tget · Blk.inp) (hround.halted (by simp)))
  rw [hq] at hcause
  exact ⟨by rw [hq], by rw [hq], by rw [hq], hcause.trans rfl, hround.after ((only_setQch s _).mono (by simp))⟩

theorem qchArm_yields {m : MbId} {r : BitVec 6} {s : State} (h : s.accepts m.val 0x0804 (s.rqLen m.val == 0) [])
    (hst : s.qch.st = .disarmed) (hp : s.aon.pwr ≠ 0) (hc : s.qConfigured = true) (hm : ∃ i, i < 8 ∧ s.matcherKind i = 2)
    (hr : s.qch.selftestOk = true ∨ r = 0x3F) : (s.causes = 0 → Yields (.qchArm m r) s (fun t => t.doneWith m.val [] ∧
      t.qch.st = .armed ∧ t.qch.tripCause = 0 ∧ t.qch.clearLeft = 2 ∧ Frame [.fmn] s t)) ∧
    (s.causes ≠ 0 → Yields (.qchArm m r) s (fun t => t.answers m.val { code := rStateConflict, detail := 1, payload := leBytes 4 s.causes } ∧
      t.qch.st = .disarmed ∧ Frame [.fmn] s t)) := by
  obtain ⟨i, hi, hk⟩ := hm
  have hany : (List.range 8).any (fun i => s.matcherKind i == 2) = true := List.any_eq_true.2 ⟨i, List.mem_range.2 hi, by simp [hk]⟩
  let s1 : State := { s with qch.selftestOk := true }
  have htest : (if s.qch.selftestOk then s else s.selfTest r) = s1 := by
    split
    · next ht => show s = { s with qch := { s.qch with selftestOk := true } }; rw [← ht]
    · next hf => unfold State.selfTest; rw [if_pos (hr.resolve_left hf)]
  have hs1 : Only [.qch] s s1 := only_setQch s _
  have hcauses : s1.causes = s.causes := rfl
  have hexec : exec (.qchArm m r) s = done s (if s1.causes ≠ 0 then s1.refuse m.val rStateConflict 1 s1.causesWord
      else s1.enterArmed.replyDone m.val) := by
    show execQchArm m r s = _
    unfold execQchArm
    rw [State.command_accepts _ h]
    simp only [hst, hp, hc, hany, htest, reduceCtorEq, if_false, Bool.not_true, Bool.or_false, Bool.false_eq_true]
    rfl
  refine ⟨fun h0 => ?_, fun h0 => ?_⟩
  · obtain ⟨e1, e2, e3, e4, e5⟩ := s1.enterArmed_leaves
    have hclear : (s1.enterArmed.replyDone m.val).quenchClear := State.quenchClear_reply _ _ fun _ => by rw [e4, hcauses, h0]
    have hq := (only_finish s hclear).qch (by simp)
    rw [hcauses, h0, if_neg (by simp)] at hexec
    refine yields_done hexec ⟨finish_answers s _ m.val _, by rw [hq]; exact e1, by rw [hq]; exact e2, by rw [hq]; exact e3, frame_finish ?_⟩
    exact Only.frame_trip (l' := .fmn :: roundParts) (((only_reply _ _ _).mono (by simp)).after ((e5.mono (by simp)).after
      (hs1.mono (by simp)))) (by decide)
  · have hna : s1.qch.st ≠ .armed := by rw [show s1.qch.st = s.qch.st from rfl, hst]; decide
    have hq := (only_finish s (State.quenchClear_reply m.val { code := rStateConflict, detail := 1, payload := s1.causesWord }
      (State.quenchClear_of_not_armed hna))).qch (by simp)
    rw [hcauses, if_pos h0] at hexec
    refine yields_done hexec ⟨finish_answers s _ m.val _, (congrArg Qch.st hq).trans hst, frame_finish ?_⟩
    exact Only.frame_trip (l' := [.fmn, .qch]) (((only_reply _ _ _).mono (by simp)).after (hs1.mono (by simp))) (by decide)

theorem qchDisarm_yields {m : MbId} {s : State} (h : s.accepts m.val 0x0805 (s.rqLen m.val == 0) []) :
    ((s.qch.st = .armed ∨ s.qch.st = .tripped) → Yields (.qchDisarm m) s (fun t => t.doneWith m.val [] ∧ t.qch.st = .disarmed ∧
      t.pairRun = false ∧ t.fbcs = s.fbcs ∧ Frame [.fmn] s t)) ∧
    (s.qch.st = .grave → Yields (.qchDisarm m) s (fun t => t.refuses m.val rStateConflict 3 ∧ t.qch.st = .grave ∧ Frame [.fmn] s t)) := by
  have hcmd : ∀ f, s.command m.val 0x0805 (s.rqLen m.val == 0) [] f = f s := fun f => State.command_accepts f h
  refine ⟨fun hst => ?_, fun hst => ?_⟩
  · let s1 : State := { s with qch.st := .disarmed, qch.clearLeft := 0, qch.tripCause := 0 }
    have hexec : exec (.qchDisarm m) s = done s (s1.replyDone m.val) := by
      show execQchDisarm m s = _
      unfold execQchDisarm
      rw [hcmd]
      rcases hst with e | e <;> rw [e]
    have hfin : Only [] _ (finish s (s1.replyDone m.val)) := only_finish s (State.quenchClear_of_not_armed (s := s1.replyDone m.val) (by
      show QchState.disarmed ≠ .armed; decide))
    have hq : (finish s (s1.replyDone m.val)).qch = s1.qch := hfin.qch (by simp)
    have hd : (finish s (s1.replyDone m.val)).qch.st = .disarmed := by rw [hq]
    refine yields_done hexec ⟨finish_answers s _ m.val _, hd, State.pairRun_of_not_armed (by rw [hd]; decide), hfin.fbcs (by simp),
      frame_finish ?_⟩
    exact Only.frame_trip (l' := [.fmn, .qch]) (((only_reply _ _ _).mono (by simp)).after ((only_setQch s _).mono (by simp))) (by decide)
  · have hexec : exec (.qchDisarm m) s = done s (s.refuse m.val rStateConflict 3) := by
      show execQchDisarm m s = _
      unfold execQchDisarm
      rw [hcmd, hst]
    have hq := (only_finish s (State.quenchClear_reply m.val { code := rStateConflict, detail := 3 }
      (State.quenchClear_of_not_armed (s := s) (by rw [hst]; decide)))).qch (by simp)
    exact yields_done hexec ⟨finish_refuses s s m.val _ _ _, (congrArg Qch.st hq).trans hst, (only_reply s _ _).frame_finish⟩

theorem State.qchResume_granted {s : State} (h : s.qch.st = .tripped) (hc : s.causes = 0) : s.qchResume.qch.st = .armed ∧
    s.qchResume.quenchClear ∧ (∀ j, j < 32 → s.qchResume.evc Blk.qch j = (s.bump Blk.qch 3).evc Blk.qch j) ∧
    Only (.regs 27 :: roundParts) s s.qchResume := by
  have hres : s.qchResume = (s.bump Blk.qch 3).enterArmed := if_pos ⟨h, hc⟩
  obtain ⟨e1, -, -, e4, e5⟩ := (s.bump Blk.qch 3).enterArmed_leaves
  rw [hres]
  exact ⟨e1, fun _ => e4.trans hc, fun j hj => e5.evc (by decide) hj,
    (e5.mono (by simp)).after ((only_bump s Blk.qch (by omega)).mono (by simp [Blk.qch]))⟩
theorem State.qchResume_refused {s : State} (h : s.qch.st ≠ .tripped ∨ s.causes ≠ 0) : s.qchResume = s.bump Blk.qch 8 :=
  if_neg fun ⟨h1, h2⟩ => h.elim (· h1) (· h2)

theorem qchResume_yields {m : MbId} {s : State} (h : s.accepts m.val 0x0806 (s.rqLen m.val == 0) []) (hst : s.qch.st = .tripped) :
    (s.causes = 0 → Yields (.qchResume m) s (fun t => t.doneWith m.val [] ∧ t.qch.st = .armed ∧
      t.evc Blk.qch 3 = s.evc Blk.qch 3 + 1 ∧ Frame [.fmn] s t)) ∧
    (s.causes ≠ 0 → Yields (.qchResume m) s (fun t => t.answers m.val { code := rStateConflict, detail := 1, payload := leBytes 4 s.causes } ∧
      t.qch.st = .tripped ∧ t.evc Blk.qch 8 = s.evc Blk.qch 8 + 1 ∧ Frame [.fmn] s t)) := by
  have hexec : exec (.qchResume m) s = done s (if s.causes ≠ 0 then s.qchResume.refuse m.val rStateConflict 1 s.causesWord
      else s.qchResume.replyDone m.val) := by
    show execQchResume m s = _
    unfold execQchResume
    rw [State.command_accepts _ h, hst]
  refine ⟨fun hc => ?_, fun hc => ?_⟩
  · obtain ⟨e1, e2, e3, e4⟩ := State.qchResume_granted hst hc
    rw [if_neg (by simp [hc])] at hexec
    have hfin : Only [] _ (finish s (s.qchResume.replyDone m.val)) := only_finish s (State.quenchClear_reply m.val _ e2)
    refine yields_done hexec ⟨finish_answers s _ m.val _, (congrArg Qch.st (hfin.qch (by simp))).trans e1, ?_, frame_finish ?_⟩
    · exact (hfin.evc (by simp) (by omega)).trans ((e3 3 (by omega)).trans (State.evc_bump_self _ _ _))
    · exact Only.frame_trip (l' := .fmn :: .regs 27 :: roundParts) (((only_reply _ _ _).mono (by simp)).after (e4.mono (by simp))) (by decide)
  · rw [if_pos hc, State.qchResume_refused (.inr hc)] at hexec
    have hna : (s.bump Blk.qch 8).qch.st ≠ .armed := by rw [show (s.bump Blk.qch 8).qch = s.qch from rfl, hst]; decide
    have hfin : Only [] _ (finish s ((s.bump Blk.qch 8).refuse m.val rStateConflict 1 s.causesWord)) :=
      only_finish s (State.quenchClear_reply m.val _ (State.quenchClear_of_not_armed hna))
    refine yields_done hexec ⟨finish_answers s _ m.val _, (congrArg Qch.st (hfin.qch (by simp))).trans hst, ?_, frame_finish ?_⟩
    · exact (hfin.evc (by simp) (by omega)).trans (State.evc_bump_self _ _ _)
    · exact Only.frame_trip (l' := [.fmn, .regs 27]) (((only_reply _ _ _).mono (by simp)).after
        ((only_bump s Blk.qch (by omega)).mono (by simp [Blk.qch]))) (by decide)

theorem qchSelftest_yields {m : MbId} {r : BitVec 6} {s : State} (h : s.accepts m.val 0x0807 (s.rqLen m.val == 0) [])
    (hst : s.qch.st = .disarmed) : (r = 0x3F → Yields (.qchSelftest m r) s (fun t => t.doneWith m.val [0x3F] ∧
      t.qch = { s.qch with selftestOk := true } ∧ Frame [.fmn] s t)) ∧
    (r ≠ 0x3F → Yields (.qchSelftest m r) s (fun t =>
      t.answers m.val { code := rStateConflict, detail := 6, payload := [BitVec.ofNat 8 r.toNat] } ∧ t.qch = s.qch ∧ Frame [.fmn] s t)) := by
  have hexec : exec (.qchSelftest m r) s = done s (if r = 0x3F then (s.selfTest r).replyDone m.val (leBytes 1 r.toNat)
      else s.refuse m.val rStateConflict 6 (leBytes 1 r.toNat)) := by
    show execQchSelftest m r s = _
    unfold execQchSelftest
    rw [State.command_accepts _ h, if_neg (by simp [hst])]
  have hna : ∀ q : Qch, q.st = s.qch.st → ({ s with qch := q } : State).quenchClear := fun q hq =>
    State.quenchClear_of_not_armed (by show q.st ≠ .armed; rw [hq, hst]; decide)
  refine ⟨fun hr => ?_, fun hr => ?_⟩
  · subst hr
    rw [if_pos rfl] at hexec
    have hfin : Only [] _ (finish s ((s.selfTest 0x3F).replyDone m.val (leBytes 1 (0x3F : BitVec 6).toNat))) :=
      only_finish s (State.quenchClear_reply m.val _ (hna { s.qch with selftestOk := true } rfl))
    refine yields_done hexec ⟨finish_answers s _ m.val _, hfin.qch (by simp), frame_finish ?_⟩
    exact Only.frame_trip (l' := [.fmn, .qch]) (((only_reply _ _ _).mono (by simp)).after ((only_setQch s _).mono (by simp))) (by decide)
  · rw [if_neg hr] at hexec
    have hfin : Only [] _ (finish s (s.refuse m.val rStateConflict 6 (leBytes 1 r.toNat))) :=
      only_finish s (State.quenchClear_reply m.val _ (hna s.qch rfl))
    exact yields_done hexec ⟨finish_answers s _ m.val _, hfin.qch (by simp), (only_reply s _ _).frame_finish⟩

/-- Settles O32: each command is its one branch under the hypotheses given; an answer, and a CLEAR round, makes no cause. -/
theorem quenchCommands : Obligations.QuenchCommands :=
  ⟨⟨fun _ _ h hst => qchEnvelope_accepted_yields h hst, fun _ _ h hst hc => qchEnvelope_locked_yields h hst hc,
    fun _ _ h hst => qchMasks_accepted_yields h hst⟩,
   fun _ _ _ h hst hp hq hm hr hc => (qchArm_yields h hst hp hq hm hr).1 hc,
   fun _ _ _ h hst hp hq hm hr hc => (qchArm_yields h hst hp hq hm hr).2 hc,
   fun _ _ h hst => (qchDisarm_yields h).1 hst, fun _ _ h hst => (qchDisarm_yields h).2 hst,
   fun _ _ h hst hc => (qchResume_yields h hst).1 hc, fun _ _ h hst hc => (qchResume_yields h hst).2 hc,
   fun _ _ _ h hst => qchSelftest_yields h hst⟩
end Sys2Proof.Machine
end

section
/-! Quench's trips, its rounds of frames and the readback of the pair. -/
namespace Sys2Proof.Machine
open Sys2Proof

/-! ## The trip -/

/-- The lowest cause present. -/
def lowestCause (present : Nat) : Nat := (lowest 16 (fun c => bit present c)).getD 0
/-- The trip before its STOP round. -/
def State.tripHeld (s : State) (present : Nat) : State :=
  let c := lowestCause present
  let i := (s.causeWhere c).getD 0
  let rear := (c = 2 && !(s.dropAt true i)) || (c = 3 && !(s.unknownAt true i))
  let s1 := s.setReg Blk.qch 0x108 (at_ c 0 4 ||| at_ i 8 8 ||| at_ (if rear then s.dR else s.dF) 16 16)
  { ((s1.setPair Blk.qch 0x10C s1.tbNow).bump Blk.qch 2) with qch.st := .tripped, qch.tripCause := c, qch.clearLeft := 0 }
theorem State.trip_eq (s : State) (present : Nat) : s.trip present = (s.tripHeld present).safetyRound 0x5A (lowestCause present) (s.tripHeld present).tripTb := rfl

theorem only_tripHeld (s : State) (present : Nat) : Only [.regs 27, .qch] s (s.tripHeld present) := by
  unfold State.tripHeld
  dsimp only
  exact ((only_setQch _ _).mono (by simp)).after (((only_bump _ Blk.qch (by omega)).mono (by simp [Blk.qch])).after
    (((only_setPair _ Blk.qch (by omega) _).mono (by simp [Blk.qch])).after ((only_setReg s Blk.qch (by omega) _).mono (by simp [Blk.qch]))))
theorem State.tripHeld_qch (s : State) (present : Nat) :
    (s.tripHeld present).qch = { s.qch with st := .tripped, tripCause := lowestCause present, clearLeft := 0 } := rfl
theorem State.tripHeld_records (s : State) (present : Nat) : ∃ i d,
    (s.tripHeld present).reg Blk.qch 0x108 = at_ (lowestCause present) 0 4 ||| at_ i 8 8 ||| at_ d 16 16 ∧
    (s.tripHeld present).reg Blk.qch 0x10C = BitVec.ofNat 32 s.tbNow := by
  have hpair : ∀ (w : Word) (n o : Nat), o = 0x108 ∨ o = 0x10C → ((s.setReg Blk.qch 0x108 w).setPair Blk.qch 0x10C n).reg Blk.qch o =
      if o = 0x108 then w else BitVec.ofNat 32 n := fun w n o ho => by
    unfold State.setPair
    rcases ho with rfl | rfl
    · simp (disch := decide) only [State.reg_setReg_ne, State.reg_setReg_self, if_true]
    · simp (disch := decide) only [State.reg_setReg_ne, State.reg_setReg_self]
      rfl
  unfold State.tripHeld
  dsimp only
  exact ⟨_, _, hpair _ _ 0x108 (.inl rfl), hpair _ _ 0x10C (.inr rfl)⟩
/-- What a trip leaves of Quench and records of itself. -/
theorem State.trip_leaves (s : State) (present : Nat) :
    (s.trip present).qch = { s.qch with st := .tripped, tripCause := lowestCause present, clearLeft := 0, stopSeq := (s.trip present).qch.stopSeq, roundAt := s.tbNow } ∧
    (∃ i d, (s.trip present).reg Blk.qch 0x108 = at_ (lowestCause present) 0 4 ||| at_ i 8 8 ||| at_ d 16 16) ∧
    (s.trip present).reg Blk.qch 0x10C = BitVec.ofNat 32 s.tbNow ∧
    (∀ j, j < 32 → (s.trip present).evc Blk.qch j = (s.bump Blk.qch 2).evc Blk.qch j) ∧
    Only tripParts s (s.trip present) := by
  have hround := only_safetyRound (s.tripHeld present) 0x5A (lowestCause present) (s.tripHeld present).tripTb
  obtain ⟨i, d, hcause, hnow⟩ := s.tripHeld_records present
  rw [State.trip_eq]
  refine ⟨?_, ⟨i, d, ?_⟩, ?_, fun j hj => ?_, (hround.mono (by decide)).after ((only_tripHeld s present).mono (by decide))⟩
  · rw [State.safetyRound_qch, State.tripHeld_qch]
    rfl
  · rw [hround.reg (by decide) (by omega)]
    exact hcause
  · rw [hround.reg (by decide) (by omega)]
    exact hnow
  · rw [hround.evc (by decide) hj]
    rfl

theorem State.trip_quenchClear (s : State) (present : Nat) : (s.trip present).quenchClear :=
  State.quenchClear_of_not_armed (by rw [State.trip_st]; decide)

/-! ## Evaluation of the causes -/

theorem State.bit_causes (s : State) {c : Nat} (h0 : c ≠ 0) (h : c < 11) : bit s.causes c = s.causeNow c := by
  unfold bit State.causes
  rw [testBit_mkBits]
  simp [h, h0]
theorem State.bit_causes_zero (s : State) : bit s.causes 0 = false := by
  unfold bit State.causes
  rw [testBit_mkBits]
  simp
/-- The end of a step in ARMED with a cause present: Quench trips, by the evaluation of that step or by the trip then due, and once. -/
theorem finish_evalTrip (s0 : State) {s : State} {before extra : Nat} (h : s.qch.st ≠ .armed) : (finish s0 (s.evalTrip before extra)).qch = s.qch := by
  have he : s.evalTrip before extra = s := by unfold State.evalTrip; simp [h]
  rw [he, finish_qch_of_not_armed s0 h]
theorem State.evalTrip_rises {s : State} {before extra c : Nat} (ha : s.qch.st = .armed) (hc : c < 11)
    (h1 : bit (s.causes ||| extra) c = true) (h0 : bit before c = false) : s.evalTrip before extra = s.trip (s.causes ||| extra) := by
  have hany : (List.range 11).any (fun c => bit (s.causes ||| extra) c && !bit before c) = true :=
    List.any_eq_true.2 ⟨c, List.mem_range.2 hc, by simp [h1, h0]⟩
  unfold State.evalTrip
  simp [ha, hany]
theorem State.evalTrip_quiet {s : State} {before : Nat} (h : ∀ c, c < 11 → bit s.causes c = true → bit before c = true) :
    s.evalTrip before 0 = s := by
  have hany : (List.range 11).any (fun c => bit (s.causes ||| 0) c && !bit before c) = false := by
    rw [List.any_eq_false]
    intro c hc
    rw [Nat.or_zero]
    have := h c (List.mem_range.1 hc)
    cases hb : bit s.causes c <;> simp_all
  unfold State.evalTrip
  simp only [hany, Bool.and_false, Bool.false_eq_true, if_false]
/-- With cause c present in ARMED at its end a step trips Quench, whether c rose in it or not. -/
theorem finish_trips (s0 : State) {s : State} {before c : Nat} (ha : s.qch.st = .armed) (h0 : c ≠ 0) (hc : c < 11)
    (h : s.causeNow c = true) : finish s0 (s.evalTrip before 0) = finish s0 (s.trip s.causes) := by
  have hb : bit s.causes c = true := (s.bit_causes h0 hc).trans h
  have hne : s.causes ≠ 0 := fun e => by rw [e] at hb; simp [bit] at hb
  by_cases hb0 : ∃ c, c < 11 ∧ bit s.causes c = true ∧ bit before c = false
  · obtain ⟨c', h', h1, h2⟩ := hb0
    rw [State.evalTrip_rises ha h' (by rwa [Nat.or_zero]) h2, Nat.or_zero]
  · rw [State.evalTrip_quiet fun c' h' h1 => by
      by_contra hx
      exact hb0 ⟨c', h', h1, by simpa using hx⟩]
    have hdue : s.tripDue = s.trip s.causes := by unfold State.tripDue; simp [ha, hne]
    have hquiet : (s.trip s.causes).tripDue = s.trip s.causes := State.tripDue_quiet (s.trip_quenchClear _)
    unfold finish
    rw [hdue, hquiet]

/-! ## RESUME, TRIP and the CLIFF pins -/

theorem lowestCause_of_bit {p c : Nat} (hc : c < 16) (h : bit p c = true) (hl : ∀ i, i < c → bit p i = false) : lowestCause p = c := by
  unfold lowestCause lowest
  have hsome : (List.range 16).find? (fun c => bit p c) = some c := by
    rw [List.find?_range_eq_some]
    exact ⟨h, List.mem_range.2 hc, fun i hi => by simp [hl i hi]⟩
  rw [hsome]
  rfl

theorem qchResumeWrite_yields {s : State} : (s.qch.st = .tripped → s.causes = 0 → Yields .qchResumeWrite s (fun t => t.qch.st = .armed ∧
      t.evc Blk.qch 3 = s.evc Blk.qch 3 + 1 ∧ t.evc Blk.qch 8 = s.evc Blk.qch 8 ∧ Frame [] s t)) ∧
    ((s.qch.st ≠ .tripped ∨ s.causes ≠ 0) → s.quenchClear → Yields .qchResumeWrite s (fun t => t.qch = s.qch ∧
      t.evc Blk.qch 8 = s.evc Blk.qch 8 + 1 ∧ t.fbcs = s.fbcs ∧ Frame [] s t)) := by
  have hexec : exec .qchResumeWrite s = done s s.qchResume := rfl
  refine ⟨fun hst hc => ?_, fun h hclear => ?_⟩
  · obtain ⟨e1, e2, e3, e4⟩ := State.qchResume_granted hst hc
    have hfin : Only [] _ (finish s s.qchResume) := only_finish s e2
    refine yields_done hexec ⟨(congrArg Qch.st (hfin.qch (by simp))).trans e1, ?_, ?_, frame_finish (e4.frame_trip (by decide))⟩
    · exact (hfin.evc (by simp) (by omega)).trans ((e3 3 (by omega)).trans (State.evc_bump_self _ _ _))
    · exact (hfin.evc (by simp) (by omega)).trans ((e3 8 (by omega)).trans (State.evc_bump_of_ne _ (by decide)))
  · rw [State.qchResume_refused h] at hexec
    have hb : Only [.regs 27] s (s.bump Blk.qch 8) := only_bump s Blk.qch (by omega)
    have hfin : Only [] _ (finish s (s.bump Blk.qch 8)) := only_finish s (State.quenchClear_of_config hclear rfl (fun _ _ _ => rfl) rfl)
    exact yields_done hexec ⟨hfin.qch (by simp), (hfin.evc (by simp) (by omega)).trans (State.evc_bump_self _ _ _), hfin.fbcs (by simp),
      frame_finish (hb.frame_trip (by decide))⟩

theorem qchTripWrite_yields {s : State} : (s.qch.st = .armed → s.quenchClear → Yields .qchTripWrite s (fun t => t.qch.st = .tripped ∧
      t.pairRun = false ∧ t.qch.tripCause = 9 ∧ fld (t.reg Blk.qch 0x108) 0 4 = 9 ∧ t.reg Blk.qch 0x10C = BitVec.ofNat 32 s.tbNow ∧
      t.evc Blk.qch 2 = s.evc Blk.qch 2 + 1 ∧ Frame [] s t)) ∧
    (s.qch.st ≠ .armed → Yields .qchTripWrite s (fun t => t.qch = s.qch ∧ t.fbcs = s.fbcs ∧ Frame [] s t)) := by
  have hexec : exec .qchTripWrite s = done s (s.evalTrip s.causes 0x200) := rfl
  refine ⟨fun ha hclear => ?_, fun ha => ?_⟩
  · have hc := hclear ha
    have hlow : lowestCause (0 ||| 0x200) = 9 := by decide
    rw [State.evalTrip_rises (c := 9) ha (by omega) (by rw [hc]; decide) (by rw [hc]; decide), hc] at hexec
    obtain ⟨hq, ⟨i, d, hcause⟩, hnow, hevc, hparts⟩ := s.trip_leaves (0 ||| 0x200)
    rw [hlow] at hq hcause
    have hfin : Only [] _ (finish s (s.trip (0 ||| 0x200))) := only_finish s (s.trip_quenchClear _)
    have hqf := hfin.qch (by simp)
    have hst : (finish s (s.trip (0 ||| 0x200))).qch.st = .tripped := by rw [hqf, State.trip_st]
    refine yields_done hexec ⟨hst, State.pairRun_of_not_armed (by rw [hst]; decide), by rw [hqf, hq], ?_, ?_, ?_, frame_finish (hparts.frame_trip (by simp))⟩
    · rw [hfin.reg (by simp) (by omega), hcause, fld_or, fld_or, fld_at_self _ (by omega), fld_at_of_disjoint _ (by omega) (by omega),
        fld_at_of_disjoint _ (by omega) (by omega)]
      rfl
    · rw [hfin.reg (by simp) (by omega), hnow]
    · rw [hfin.evc (by simp) (by omega), hevc 2 (by omega), State.evc_bump_self]
  · have he : s.evalTrip s.causes 0x200 = s := by unfold State.evalTrip; simp [ha]
    rw [he] at hexec
    have hfin : Only [] s (finish s s) := only_finish s (State.quenchClear_of_not_armed ha)
    exact yields_done hexec ⟨hfin.qch (by simp), hfin.fbcs (by simp), hfin.frame⟩

/-- An evaluation of the causes, with the trip due, changes nothing of Quench but its state and what a trip records. -/
theorem finish_evalTrip_keeps {α : Type} {f : Qch → α} (hf : ∀ (q : Qch) a c l n r,
    f { q with st := a, tripCause := c, clearLeft := l, stopSeq := n, roundAt := r } = f q) (s0 s : State) (before extra : Nat) :
    f (finish s0 (s.evalTrip before extra)).qch = f s.qch := by
  have htrip : ∀ (s : State) p, f (s.trip p).qch = f s.qch := fun s p => by
    rw [(s.trip_leaves p).1]
    exact hf _ _ _ _ _ _
  have heval : f (s.evalTrip before extra).qch = f s.qch := by
    unfold State.evalTrip
    dsimp only
    split
    · exact htrip s _
    · rfl
  refine Eq.trans ?_ heval
  show f (State.tripDue _).qch = _
  unfold State.tripDue
  split
  · exact htrip _ _
  · rfl
theorem only_evalTrip (s : State) (before extra : Nat) : Only tripParts s (s.evalTrip before extra) := by
  unfold State.evalTrip
  obtain ⟨-, -, -, -, h⟩ := s.trip_leaves (s.causes ||| extra)
  exact Only.ite (fun _ => h) fun _ => Only.refl _ s
/-- A trip by cause c, the lowest present. -/
theorem finish_trips_leaves (s0 : State) {s : State} {before c : Nat} (ha : s.qch.st = .armed) (h0 : c ≠ 0) (hc : c < 11)
    (h : s.causeNow c = true) (hlow : ∀ i, i < c → i ≠ 0 → s.causeNow i = false) :
    (finish s0 (s.evalTrip before 0)).qch.st = .tripped ∧ (finish s0 (s.evalTrip before 0)).qch.tripCause = c ∧
      (∀ j, j < 32 → (finish s0 (s.evalTrip before 0)).evc Blk.qch j = (s.bump Blk.qch 2).evc Blk.qch j) := by
  have hl : lowestCause s.causes = c := by
    refine lowestCause_of_bit (by omega) ((s.bit_causes h0 hc).trans h) fun i hi => ?_
    by_cases hz : i = 0
    · rw [hz]; exact s.bit_causes_zero
    · rw [s.bit_causes hz (by omega)]; exact hlow i hi hz
  obtain ⟨hq, -, -, hevc, -⟩ := s.trip_leaves s.causes
  have hfin : Only [] _ (finish s0 (s.trip s.causes)) := only_finish s0 (s.trip_quenchClear _)
  rw [finish_trips s0 ha h0 hc h, hfin.qch (by simp), hq, hl]
  exact ⟨rfl, rfl, fun j hj => (hfin.evc (by simp) hj).trans (hevc j hj)⟩

theorem lowest_isSome {n i : Nat} {p : Nat → Bool} (hi : i < n) (h : p i = true) : (lowest n p).isSome = true :=
  List.find?_isSome.2 ⟨i, List.mem_range.2 hi, h⟩

theorem cliffPinChange_yields (j : Fin 8) (h : Bool) (s : State) : Yields (.cliffPinChange j h) s (fun t =>
    t.qch.cliff.toNat.testBit j.val = (h == bit s.cliffPol j.val) ∧
    (∀ i, i < 8 → i ≠ j.val → t.qch.cliff.toNat.testBit i = s.qch.cliff.toNat.testBit i) ∧
    (s.qch.st = .armed → bit s.cliffEn j.val = true → h = bit s.cliffPol j.val → t.qch.st = .tripped ∧ t.qch.tripCause = 1 ∧
      t.evc Blk.qch 2 = s.evc Blk.qch 2 + 1) ∧ Frame [] s t) := by
  obtain ⟨x, hx⟩ : ∃ x, x = BitVec.ofNat 8 (setBit s.qch.cliff.toNat j.val (h == bit s.cliffPol j.val)) := ⟨_, rfl⟩
  let s1 : State := { s with qch.cliff := x }
  have hexec : exec (.cliffPinChange j h) s = done s (s1.evalTrip s.causes 0) := by subst hx; rfl
  have hbit : ∀ i, i < 8 → x.toNat.testBit i = if i = j.val then (h == bit s.cliffPol j.val) else s.qch.cliff.toNat.testBit i := fun i hi => by
    rw [hx, BitVec.toNat_ofNat, Nat.testBit_mod_two_pow, testBit_setBit]
    simp [hi]
  have hcl : (finish s (s1.evalTrip s.causes 0)).qch.cliff = x := finish_evalTrip_keeps (f := Qch.cliff) (fun _ _ _ _ _ _ => rfl) s s1 _ _
  refine yields_done hexec ⟨?_, fun i hi hne => ?_, fun ha hen hlev => ?_, frame_finish ?_⟩
  · rw [hcl, hbit j.val j.isLt, if_pos rfl]
  · rw [hcl, hbit i hi, if_neg hne]
  · have hpin : (bit s1.cliffEn j.val && s1.qch.cliff.toNat.testBit j.val) = true := by
      rw [show s1.qch.cliff = x from rfl, hbit j.val j.isLt, if_pos rfl, show s1.cliffEn = s.cliffEn from rfl, hen, hlev]
      simp
    obtain ⟨h1, h2, h3⟩ := finish_trips_leaves s (s := s1) (before := s.causes) (c := 1) ha (by omega) (by omega)
      (lowest_isSome j.isLt hpin) fun i hi hz => absurd hi (by omega)
    exact ⟨h1, h2, (h3 2 (by omega)).trans (State.evc_bump_self s1 _ _)⟩
  · exact Only.frame_trip (l' := tripParts) ((only_evalTrip s1 _ _).after ((only_setQch s _).mono (by decide))) (by simp)

/-- Settles O33: RESUME and TRIP by what `evalTrip` and `enterArmed` leave; a CLIFF pin at its trip level makes cause 1 present, the
lowest there is. -/
theorem quenchTripsAndResumes : Obligations.QuenchTripsAndResumes :=
  ⟨fun _ h hc => qchResumeWrite_yields.1 h hc, fun _ h hc => qchResumeWrite_yields.2 h hc, fun _ ha hc => qchTripWrite_yields.1 ha hc,
    fun _ ha => qchTripWrite_yields.2 ha, cliffPinChange_yields⟩

/-! ## Rounds and readback -/

theorem sameSegment_finish (s0 : State) {u : State} (k : Nat) (h : u.quenchClear) : SameSegment k u (finish s0 u) := by
  have hfin := only_finish s0 h
  refine ⟨by unfold State.fbc; rw [hfin.fbcs (by simp)], by rw [hfin.qch (by simp)], fun o ho => hfin.reg (by simp) ho, ?_⟩
  exact congrArg (fun w => fld w 16 8) (hfin.reg (by simp) (by omega) : (finish s0 u).reg Blk.qch 0x40C = _)
theorem stopFrameRepeat_yields {k : Nat} {s : State} (hst : s.qch.st = .tripped) (ht : 50 * tbMs ≤ s.clk.now - s.qch.roundAt) (hk : k < 4) :
    Yields .stopFrameRepeat s (fun t => t.qch.roundAt = s.tbNow ∧ t.qch.st = .tripped ∧
      (bit s.stopSegs k = true → s.fbcSends k = true → (t.fbc k).txReq.toNat.testBit 0 = true ∧
        nget t.qch.stopSeq k = (nget s.qch.stopSeq k + 1) % 65536 ∧ (t.msgBuf k 0).idw = 1 ∧
        (t.msgBuf k 0).data = leBytes 1 0x5A ++ leBytes 1 s.qch.tripCause ++ leBytes 2 (nget s.qch.stopSeq k) ++ leBytes 4 s.tripTb) ∧
      ((bit s.stopSegs k && s.fbcSends k) = false → t.fbc k = s.fbc k ∧ nget t.qch.stopSeq k = nget s.qch.stopSeq k) ∧ Frame [] s t) := by
  have hexec : exec .stopFrameRepeat s = done s (s.safetyRound 0x5A s.qch.tripCause s.tripTb) := if_pos ⟨hst, ht⟩
  have hsend := fun hb => safetyRound_sends (s := s) hk hb 0x5A s.qch.tripCause s.tripTb
  have hsilent := fun hb => safetyRound_silent (s := s) hk hb 0x5A s.qch.tripCause s.tripTb
  have hq := s.safetyRound_qch 0x5A s.qch.tripCause s.tripTb
  have hparts := only_safetyRound s 0x5A s.qch.tripCause s.tripTb
  generalize s.safetyRound 0x5A s.qch.tripCause s.tripTb = u at *
  have hu : u.qch.st = .tripped := by rw [hq]; exact hst
  have hfin : Only [] u (finish s u) := only_finish s (State.quenchClear_of_not_armed (by rw [hu]; decide))
  have hqf : (finish s u).qch = u.qch := hfin.qch (by simp)
  have hseg : SameSegment k u (finish s u) := sameSegment_finish s k (State.quenchClear_of_not_armed (by rw [hu]; decide))
  refine yields_done hexec ⟨by rw [hqf, hq], by rw [hqf, hu], fun h1 h2 => ?_, fun h => ?_, frame_finish (hparts.frame_trip (by decide))⟩
  · obtain ⟨e1, e2, e3, e4⟩ := hsend (by rw [h1, h2]; rfl)
    rw [hseg.1, hseg.2.1, hseg.msgBuf]
    exact ⟨e1, e2, e3, e4⟩
  · obtain ⟨e1, e2, -, -⟩ := (hsilent h).trans hseg
    exact ⟨e1, e2⟩

theorem clearFrameSend_yields {k : Nat} {s : State} (ha : s.qch.st = .armed) (hclear : s.quenchClear) (hleft : 0 < s.qch.clearLeft)
    (ht : 10 * tbMs ≤ s.clk.now - s.qch.roundAt) (hk : k < 4) : Yields .clearFrameSend s (fun t => t.qch.roundAt = s.tbNow ∧
      t.qch.st = .armed ∧ t.qch.clearLeft = s.qch.clearLeft - 1 ∧
      t.qch.stopSeq = s.qch.stopSeq ∧ (bit s.stopSegs k = true → s.fbcSends k = true → (t.fbc k).txReq.toNat.testBit 0 = true ∧
        (t.msgBuf k 0).idw = 1 ∧ (t.msgBuf k 0).data = leBytes 1 0xA5 ++ leBytes 1 0 ++ leBytes 2 (nget s.qch.stopSeq k) ++ leBytes 4 0) ∧
      Frame [] s t) := by
  let s0 : State := { s with qch.clearLeft := s.qch.clearLeft - 1 }
  have hexec : exec .clearFrameSend s = done s (s0.safetyRound 0xA5 0 0) := if_pos ⟨ha, hleft, ht⟩
  have hsend := fun hb => safetyRound_sends (s := s0) hk hb 0xA5 0 0
  have hq := s0.safetyRound_qch 0xA5 0 0
  rw [s0.clearRound_stopSeq] at hq
  have hparts := (only_safetyRound s0 0xA5 0 0).after ((only_setQch s _).mono (by decide))
  generalize s0.safetyRound 0xA5 0 0 = u at *
  have hcauses : u.causes = 0 := by
    have hsame : u.causes = ({ s with qch := u.qch } : State).causes :=
      State.causes_congr_config rfl (fun o _ ho => hparts.reg (by decide) ho) (congrArg (tget · Blk.inp) (hparts.halted (by decide)))
    rw [hq] at hsame
    exact hsame.trans (hclear ha)
  have hquiet : u.quenchClear := fun _ => hcauses
  have hqf : (finish s u).qch = u.qch := (only_finish s hquiet).qch (by simp)
  have hseg := sameSegment_finish s k hquiet
  refine yields_done hexec ⟨by rw [hqf, hq]; rfl, by rw [hqf, hq]; exact ha, by rw [hqf, hq], by rw [hqf, hq], fun h1 h2 => ?_,
    frame_finish (hparts.frame_trip (by decide))⟩
  obtain ⟨e1, -, e3, e4⟩ := hsend (by
    rw [Bool.and_eq_true]
    exact ⟨h1, h2⟩)
  rw [hseg.1, hseg.msgBuf]
  exact ⟨e1, e3, e4⟩

theorem readbackMismatch_run_yields (p n : Bool) {s : State} (hr : s.pairRun = true) (hclear : s.quenchClear) :
    Yields (.readbackMismatch p n) s (fun t => t.qch.st = .tripped ∧ t.qch.tripCause = 10 ∧ t.qch.readback = true ∧
      t.evc Blk.qch 5 = s.evc Blk.qch 5 + 1 ∧ Frame [] s t) := by
  obtain ⟨ha, -⟩ := (State.pairRun_iff s).1 hr
  have hzero := hclear ha
  let s1 : State := { s.bump Blk.qch 5 with qch := { s.qch with readback := true, qpRbBad := p != s.qp, qnRbBad := n != s.qn } }
  have hexec : exec (.readbackMismatch p n) s = done s (s1.evalTrip s.causes 0) := if_pos hr
  have hlow : ∀ i, i < 10 → i ≠ 0 → s1.causeNow i = false := fun i hi h0 => by
    have hold : s.causeNow i = false := by rw [← s.bit_causes h0 (by omega), hzero]; simp [bit]
    rw [← hold]
    interval_cases i <;> rfl
  obtain ⟨h1, h2, h3⟩ := finish_trips_leaves s (s := s1) (before := s.causes) (c := 10) ha (by omega) (by omega) rfl hlow
  refine yields_done hexec ⟨h1, h2, ?_, ?_, frame_finish ?_⟩
  · exact finish_evalTrip_keeps (f := Qch.readback) (fun _ _ _ _ _ _ => rfl) s s1 _ _
  · exact (h3 5 (by omega)).trans ((State.evc_bump_of_ne s1 (by decide)).trans (State.evc_bump_self s _ _))
  · exact Only.frame_trip (l' := tripParts) ((only_evalTrip s1 _ _).after (((only_setQch _ _).mono (by decide)).after
      ((only_bump s Blk.qch (by omega)).mono (by decide)))) (by simp)

theorem readbackMismatch_safe_yields {s : State} (hr : s.pairRun = false) : Yields (.readbackMismatch true false) s (fun t =>
    t.qch.st = .grave ∧ (s.aon.grave = none → t.aon.grave = some 6) ∧ (s.aon.grave ≠ none → t.aon.grave = s.aon.grave) ∧
    t.evc Blk.qch 5 = s.evc Blk.qch 5 + 1) := by
  obtain ⟨s1, hs1⟩ : ∃ s1 : State, s1 = { s.bump Blk.qch 5 with qch := { s.qch with qpRbBad := true != s.qp, qnRbBad := false != s.qn } } := ⟨_, rfl⟩
  have hexec : exec (.readbackMismatch true false) s = done s (s1.graveFault 6 Blk.qch 0) := by
    show execReadbackMismatch true false s = _
    unfold execReadbackMismatch
    dsimp only
    rw [hr, hs1]
    rfl
  have haon : s1.aon = s.aon := by rw [hs1]; rfl
  have hevc : s1.evc Blk.qch 5 = s.evc Blk.qch 5 + 1 := by rw [hs1]; exact State.evc_bump_self s _ _
  obtain ⟨hq, hg, ho⟩ := State.graveFault_leaves s1 6 Blk.qch 0
  refine yields_done hexec ?_
  rw [finish_aon, hg, haon, finish_evc_of_not_armed _ (by rw [hq]; exact QchState.noConfusion), ho.evc (by decide) (by omega), hevc,
    finish_qch_of_not_armed _ (by rw [hq]; exact QchState.noConfusion), hq]
  exact ⟨rfl, fun h => by rw [h]; rfl, fun h => by obtain ⟨c, hc⟩ := Option.ne_none_iff_exists'.1 h; rw [hc]; rfl, rfl⟩

theorem readbackMatch_yields {s : State} (hr : s.pairRun = false) : Yields .readbackMatch s (fun t => t.qch.readback = false ∧
    (s.qch.st ≠ .armed → t.qch.st = s.qch.st) ∧ Frame [] s t) := by
  let s1 : State := { s with qch := { s.qch with readback := false, qpRbBad := false, qnRbBad := false } }
  have hexec : exec .readbackMatch s = done s s1 := by
    show execReadbackMatch s = _
    unfold execReadbackMatch
    rw [hr]
    rfl
  have hone : s1.evalTrip (s1.causes) 0 = s1 := State.evalTrip_quiet fun _ _ h => h
  refine yields_done hexec ⟨?_, fun hna => ?_, frame_finish ((only_setQch s _).frame_trip (by decide))⟩
  · have hkeep := finish_evalTrip_keeps (f := Qch.readback) (fun _ _ _ _ _ _ => rfl) s s1 s1.causes 0
    rwa [hone] at hkeep
  · rw [finish_qch_of_not_armed s (show s1.qch.st ≠ .armed from hna)]

theorem diverseMismatch_yields (s : State) : Yields .diverseMismatch s (fun t => t.qch.st = .grave ∧ t.pairRun = false ∧
    (s.aon.grave = none → t.aon.grave = some 5) ∧ (s.aon.grave ≠ none → t.aon.grave = s.aon.grave) ∧ t.mem = s.mem ∧ t.clk = s.clk ∧
    t.rst = s.rst) := by
  have hexec : exec .diverseMismatch s = done s (s.graveFault 5 Blk.qch 0) := rfl
  obtain ⟨hq, hg, ho⟩ := State.graveFault_leaves s 5 Blk.qch 0
  have hst : (finish s (s.graveFault 5 Blk.qch 0)).qch.st = .grave := by
    rw [finish_qch_of_not_armed _ (by rw [hq]; exact QchState.noConfusion), hq]
  refine yields_done hexec ⟨hst, State.pairRun_of_not_armed (by rw [hst]; decide), ?_⟩
  rw [finish_aon, finish_mem, finish_clk, finish_rst, hg, ho.mem (by simp), ho.clk (by simp), ho .rst (by simp)]
  exact ⟨fun h => by rw [h]; rfl, fun h => by obtain ⟨c, hc⟩ := Option.ne_none_iff_exists'.1 h; rw [hc]; rfl, rfl, rfl, rfl⟩

/-- Settles O35: what a round writes on each segment, and what a trip or a Class G fault leaves. -/
theorem quenchFramesAndReadback : Obligations.QuenchFramesAndReadback :=
  ⟨fun _ _ hst ht hk => stopFrameRepeat_yields hst ht hk, fun _ _ ha hc hl ht hk => clearFrameSend_yields ha hc hl ht hk,
    fun p n _ hr hc => readbackMismatch_run_yields p n hr hc, fun _ hr => readbackMismatch_safe_yields hr,
    fun _ hr => readbackMatch_yields hr, diverseMismatch_yields⟩
end Sys2Proof.Machine
end

section
/-! The number formats and the update of a scale entry. -/
namespace Sys2Proof.Machine
open Sys2Proof

/-! ## Exact integers -/

theorem evenDiv_one (n : Nat) : evenDiv n 1 = n := by
  unfold evenDiv
  simp [Nat.mod_one]
theorem evenInt_intCast (k : Int) : evenInt (k : ℚ) = k := by
  unfold evenInt
  dsimp only
  rw [Rat.num_intCast, Rat.den_intCast, evenDiv_one]
  split <;> omega
theorem log2Frac_one {n : Nat} (h : n ≠ 0) : log2Frac n 1 = Nat.log2 n := by
  have hle : 1 * 2 ^ Nat.log2 n ≤ n := by
    rw [Nat.one_mul]
    exact Nat.log2_self_le h
  unfold log2Frac
  dsimp only
  rw [show Nat.log2 1 = 0 by decide, Nat.cast_zero, sub_zero, if_pos (by omega), Int.toNat_natCast, if_pos hle]
theorem pow2_neg_mul (j : Nat) : (2 ^ j : ℚ) * pow2 (-(j : Int)) = 1 := by
  unfold pow2
  split
  · next h =>
    obtain rfl : j = 0 := by omega
    norm_num
  · rw [neg_neg, Int.toNat_natCast]
    push_cast
    field_simp
/-- An integer of at most 24 bits is rounded to itself. -/
theorem roundTo_natCast {n : Nat} {x : ℚ} (h0 : n ≠ 0) (h : n < 2 ^ 24) (hn : x.num.natAbs = n) (hd : x.den = 1) :
    roundTo 24 (-149) x = (n * 2 ^ (23 - Nat.log2 n), -((23 - Nat.log2 n : Nat) : Int)) := by
  have hlog : Nat.log2 n < 24 := (Nat.log2_lt h0).2 h
  have hq : max (-149 : Int) (log2Frac n 1 - ((24 : Nat) - 1)) = -((23 - Nat.log2 n : Nat) : Int) := by
    rw [log2Frac_one h0]
    omega
  unfold roundTo
  dsimp only
  rw [hn, hd, if_neg h0, hq]
  split
  · next hz =>
    have hj : 23 - Nat.log2 n = 0 := by omega
    rw [hj]
    simp [evenDiv_one]
  · rw [neg_neg, Int.toNat_natCast, evenDiv_one]

theorem dyad_false_zero (q : Int) : dyad false 0 q = 0 := by simp [dyad]
theorem rne32_intCast {k : Int} (h : k.natAbs < 2 ^ 24) : ∃ b m q, rne32 (k : ℚ) = .fin b m q ∧ dyad b m q = k := by
  have hnum : ((k : ℚ)).num = k := Rat.num_intCast k
  unfold rne32 rne32s
  by_cases h0 : k.natAbs = 0
  · obtain rfl : k = 0 := by omega
    exact ⟨false, 0, -149, rfl, by rw [dyad_false_zero]; rfl⟩
  · rw [roundTo_natCast h0 h (by rw [hnum]) (Rat.den_intCast k), hnum]
    have hk : k ≠ 0 := by omega
    generalize hj : 23 - Nat.log2 k.natAbs = j
    have hfit : ¬((0 : Int) ≤ -(j : Int) ∧ 2 ^ 128 ≤ k.natAbs * 2 ^ j * 2 ^ (-(j : Int)).toNat) := fun ⟨h1, h2⟩ => by
      obtain rfl : j = 0 := by omega
      simp at h2
      omega
    refine ⟨decide (k < 0), k.natAbs * 2 ^ j, -(j : Int), ?_, ?_⟩
    · dsimp only
      rw [if_neg hfit, if_neg hk]
    · have hmag : ((k.natAbs * 2 ^ j : Nat) : ℚ) * pow2 (-(j : Int)) = (k.natAbs : ℚ) := by
        push_cast
        rw [mul_assoc, pow2_neg_mul, mul_one]
      unfold dyad
      rw [hmag]
      by_cases hneg : k < 0
      · rw [if_pos (by simpa using hneg), ← Int.cast_natCast, Int.ofNat_natAbs_of_nonpos hneg.le]
        push_cast
        ring
      · rw [if_neg (by simpa using hneg), ← Int.cast_natCast, Int.natAbs_of_nonneg (by omega)]

/-! ## Integer formats -/

theorem sgn_bounds {n : Nat} (v : Nat) (h : 0 < n) : -(2 ^ (n - 1) : Int) ≤ sgn n v ∧ sgn n v ≤ 2 ^ (n - 1) - 1 ∧ sgn n v % 2 ^ n = (v : Int) % 2 ^ n := by
  have hn : (2 : Int) ^ n = 2 * 2 ^ (n - 1) := by
    conv_lhs => rw [show n = n - 1 + 1 by omega, pow_succ]
    ring
  have hlt : ((v % 2 ^ n : Nat) : Int) < 2 ^ n := by exact_mod_cast Nat.mod_lt v (Nat.two_pow_pos n)
  have hcast : ((v % 2 ^ n : Nat) : Int) = (v : Int) % 2 ^ n := by push_cast; rfl
  unfold sgn
  split
  · next hs =>
    have hs' : ((v % 2 ^ n : Nat) : Int) < 2 ^ (n - 1) := by exact_mod_cast hs
    refine ⟨by omega, by omega, ?_⟩
    rw [hcast, Int.emod_emod_of_dvd _ dvd_rfl]
  · next hs =>
    have hs' : (2 : Int) ^ (n - 1) ≤ ((v % 2 ^ n : Nat) : Int) := by exact_mod_cast Nat.le_of_not_lt hs
    refine ⟨by omega, by omega, ?_⟩
    rw [hcast, Int.sub_emod_right, Int.emod_emod_of_dvd _ dvd_rfl]

/-- A code of an integer format stands for an integer of its range, which is encoded as that code. -/
theorem fmtEncode_fmtDecode_int {f c : Nat} (hf : fmtInt f = true) (hb : 0 < fmtBits f ∧ fmtBits f ≤ 16) (hm : f ≠ 10) (hc : c < 2 ^ fmtBits f) :
    fmtEncode f (fmtDecode f c) = (c, false) := by
  obtain ⟨hlo, hhi, hmod⟩ := sgn_bounds (n := fmtBits f) c hb.1
  have hdec : fmtDecode f c = rne32 ((sgn (fmtBits f) c : Int) : ℚ) := by
    have hf' : f = 0 ∨ f = 1 ∨ f = 2 := by
      simp only [fmtInt, Bool.or_eq_true, decide_eq_true_eq] at hf
      omega
    have hone : pow2 0 = 1 := by norm_num [pow2]
    rcases hf' with rfl | rfl | rfl
    all_goals
      show rne32 (((sgn _ c : Int) : ℚ) * pow2 0) = _
      rw [hone, mul_one]
  have hpow : (2 : Int) ^ (fmtBits f - 1) ≤ 2 ^ 15 := pow_le_pow_right₀ (by norm_num) (by omega)
  obtain ⟨b, m, q, hr, hd⟩ := rne32_intCast (k := sgn (fmtBits f) c) (by omega)
  have hcode : (sgn (fmtBits f) c % 2 ^ fmtBits f).toNat = c := by
    rw [hmod]
    have : (c : Int) % 2 ^ fmtBits f = c := Int.emod_eq_of_lt (by omega) (by exact_mod_cast hc)
    rw [this]
    rfl
  rw [hdec, hr]
  unfold fmtEncode
  dsimp only
  rw [if_pos hf, hd, evenInt_intCast, if_neg (by omega), if_neg (by omega), hcode]

/-! ## Codes fit their format -/

theorem nearestLevel_lt {l : List Nat} (h : l ≠ []) (a : ℚ) : nearestLevel l a < l.length := by
  have hmem : ∀ (xs : List (Nat × Nat)) (b : Nat × ℚ), b.1 < l.length → (∀ e ∈ xs, e.2 < l.length) →
      (xs.foldl (fun (b : Nat × ℚ) e => if (if a < (e.1 : ℚ) then (e.1 : ℚ) - a else a - (e.1 : ℚ)) < b.2 then
        (e.2, if a < (e.1 : ℚ) then (e.1 : ℚ) - a else a - (e.1 : ℚ)) else b) b).1 < l.length := by
    intro xs
    induction xs with
    | nil => exact fun b hb _ => hb
    | cons e xs ih =>
      intro b hb hx
      refine ih _ ?_ fun e he => hx e (List.mem_cons_of_mem _ he)
      by_cases hc : (if a < (e.1 : ℚ) then (e.1 : ℚ) - a else a - (e.1 : ℚ)) < b.2
      · simp only [if_pos hc]
        exact hx e List.mem_cons_self
      · simp only [if_neg hc]
        exact hb
  exact hmem _ _ (List.length_pos_of_ne_nil h) fun e he => by
    obtain ⟨i, hi⟩ := List.mem_iff_getElem.1 he
    obtain ⟨hlt, rfl⟩ := hi
    rw [List.getElem_zipIdx]
    simpa using hlt
theorem b2n_le (b : Bool) : b2n b ≤ 1 := by cases b <;> decide
theorem emod_toNat_lt (k : Int) (n : Nat) : (k % 2 ^ n).toNat < 2 ^ n := by
  have h0 : (0 : Int) < 2 ^ n := by positivity
  have h1 := Int.emod_nonneg k h0.ne'
  have h2 := Int.emod_lt_of_pos k h0
  zify
  rw [Int.toNat_of_nonneg h1]
  exact h2
theorem fmtEncode_int_lt {f : Nat} (hf : fmtInt f = true) (v : Fl) : (fmtEncode f v).1 < 2 ^ fmtBits f := by
  unfold fmtEncode
  dsimp only
  rw [if_pos hf]
  cases v with
  | nan => exact Nat.two_pow_pos _
  | inf s => exact emod_toNat_lt _ _
  | fin s m e =>
    dsimp only
    split_ifs <;> exact emod_toNat_lt _ _
theorem fmtEncode_bell_lt {f : Nat} (hf : f = 8 ∨ f = 9) (v : Fl) : (fmtEncode f v).1 < 2 ^ fmtBits f := by
  have h8 : ∀ a, nearestLevel bg4Levels a < 8 := nearestLevel_lt (by decide)
  have h9 : ∀ a, nearestLevel bg6Levels a < 32 := nearestLevel_lt (by decide)
  have hs := b2n_le
  rcases hf with rfl | rfl
  · cases v with
    | nan => decide
    | inf s => cases s <;> decide
    | fin s m e =>
      have hi := h8 (dyad false m e * 16384)
      have := hs s
      show (if 16384 < dyad false m e * 16384 then (7 + 8 * b2n s, true) else
        (if nearestLevel bg4Levels (dyad false m e * 16384) = 0 then 0 else nearestLevel bg4Levels (dyad false m e * 16384) + 8 * b2n s, false)).1 < 16
      split_ifs <;> dsimp only <;> omega
  · cases v with
    | nan => decide
    | inf s => cases s <;> decide
    | fin s m e =>
      have hi := h9 (dyad false m e * 16384)
      have := hs s
      show (if 16384 < dyad false m e * 16384 then (31 + 32 * b2n s, true) else
        (if nearestLevel bg6Levels (dyad false m e * 16384) = 0 then 0 else nearestLevel bg6Levels (dyad false m e * 16384) + 32 * b2n s, false)).1 < 256
      split_ifs <;> dsimp only <;> omega
/-- A magnitude above the largest is taken as the largest; the sign comes above both. -/
theorem capped_le {p : Prop} [Decidable p] {c top : Nat} (k : Nat) (s : Bool) (h : ¬p → c ≤ top) :
    (if p then (top + k * b2n s, true) else (c + k * b2n s, false)).1 ≤ top + k := by
  have hs : k * b2n s ≤ k := by
    have := Nat.mul_le_mul_left k (b2n_le s)
    omega
  split
  · dsimp only; omega
  · next hp => have := h hp; dsimp only; omega
theorem fmtEncode_float_lt {f : Nat} (hf : 3 ≤ f ∧ f ≤ 7) (v : Fl) : (fmtEncode f v).1 < 2 ^ fmtBits f := by
  cases v with
  | nan => obtain ⟨h3, h7⟩ := hf; interval_cases f <;> decide
  | inf s => obtain ⟨h3, h7⟩ := hf; interval_cases f <;> cases s <;> decide
  | fin s m e =>
    have hf' : f = 3 ∨ f = 4 ∨ f = 5 ∨ f = 6 ∨ f = 7 := by omega
    rcases hf' with rfl | rfl | rfl | rfl | rfl
    · exact Nat.lt_of_le_of_lt (capped_le (top := 0x7E) 128 s fun h => Nat.le_of_not_lt h) (by decide)
    · exact Nat.lt_of_le_of_lt (capped_le (top := 0x7B) 128 s fun h => Nat.le_of_not_lt h) (by decide)
    · exact Nat.lt_of_le_of_lt (capped_le (top := 0x7C00) (2 ^ 15) s fun h => (Nat.lt_of_not_le h).le) (by decide)
    · exact Nat.lt_of_le_of_lt (capped_le (top := 0x7F80) (2 ^ 15) s fun h => (Nat.lt_of_not_le h).le) (by decide)
    · have := b2n_le s
      show min 0x7F800000 (roundCode 8 23 (dyad false m e)) + 2 ^ 31 * b2n s < 2 ^ 32
      omega

/-! ## The scale entry -/

/-- An entry of 16 bytes, with the bytes that an update sets. -/
def ScaleEntry.put (x : ScaleEntry) (shift : Int) (flags lowRun : Nat) : ScaleEntry :=
  { d := leBytes 1 ((shift % 256).toNat) ++ leBytes 1 flags ++ (x.d.drop 2).take 5 ++ leBytes 1 lowRun ++
      (x.d.drop 8).take 4 ++ leBytes 4 ((bytesAt x.d 0xC 4 + 1) % 2 ^ 32) }

theorem ScaleEntry.put_fields {x : ScaleEntry} (hl : x.d.length = 16) {n : Int} (hn : -128 ≤ n ∧ n ≤ 127) (flags lowRun : Nat) :
    (x.put n flags lowRun).shift = n ∧ (x.put n flags lowRun).shiftMin = x.shiftMin ∧ (x.put n flags lowRun).shiftMax = x.shiftMax ∧
      (x.put n flags lowRun).d.length = 16 ∧ (x.put n flags lowRun).lowRun = lowRun % 256 ∧
      bytesAt (x.put n flags lowRun).d 0xC 4 = (bytesAt x.d 0xC 4 + 1) % 2 ^ 32 := by
  have hsgn : sgn 8 (bytesAt (leBytes 1 (n % 256).toNat) 0 1) = n := by
    have hb : bytesAt (leBytes 1 (n % 256).toNat) 0 1 = (n % 256).toNat := by
      show leNat (leBytes 1 (n % 256).toNat) = _
      rw [leNat_leBytes]
      omega
    unfold sgn
    rw [hb]
    split <;> omega
  have hlow : bytesAt (leBytes 1 lowRun) 0 1 = lowRun % 256 := leNat_leBytes 1 lowRun
  have hinv : ∀ v, bytesAt (leBytes 4 (v % 2 ^ 32)) 0 4 = v % 2 ^ 32 := fun v => by
    show leNat (leBytes 4 _) = _
    rw [leNat_leBytes]
    omega
  obtain ⟨d⟩ := x
  match d, hl with
  | [_, _, _, _, _, _, _, _, _, _, _, _, _, _, _, _], _ => exact ⟨hsgn, rfl, rfl, rfl, hlow, hinv _⟩

/-- What an update leaves of the entry, and how far it moves SHIFT. -/
theorem ScaleEntry.judge_keeps {x : ScaleEntry} (c e : Nat) (hok : x.ok = true) (hl : x.d.length = 16) :
    (x.judge c e).1.shiftMin = x.shiftMin ∧ (x.judge c e).1.shiftMax = x.shiftMax ∧ (x.judge c e).1.d.length = 16 ∧
    x.shiftMin ≤ (x.judge c e).1.shift ∧ (x.judge c e).1.shift ≤ x.shiftMax ∧
    ((x.judge c e).2 = 0 → (x.judge c e).1.shift = x.shift) ∧ ((x.judge c e).2 = 1 → (x.judge c e).1.shift = x.shift + 1) ∧
    ((x.judge c e).2 = 2 → (x.judge c e).1.shift = x.shift - 1) ∧ (exceeds c x.tHi e = true → (x.judge c e).1.lowRun = 0) ∧
    bytesAt (x.judge c e).1.d 0xC 4 = (bytesAt x.d 0xC 4 + 1) % 2 ^ 32 := by
  simp only [ScaleEntry.ok, Bool.and_eq_true, decide_eq_true_eq] at hok
  obtain ⟨⟨⟨⟨-, hmin⟩, hmax⟩, hlo⟩, hhi⟩ := hok
  have hrange : -128 ≤ x.shiftMin ∧ x.shiftMax ≤ 127 := ⟨(sgn_bounds _ (by omega)).1, (sgn_bounds _ (by omega)).2.1⟩
  have hput : ∀ {n : Int} (f l : Nat), x.shiftMin ≤ n → n ≤ x.shiftMax → _ := fun f l h1 h2 =>
    ScaleEntry.put_fields (x := x) hl ⟨hrange.1.trans h1, h2.trans hrange.2⟩ f l
  have hcases : x.judge c e = (if exceeds c x.tHi e then (x.put (min x.shiftMax (x.shift + 1)) 1 0, if min x.shiftMax (x.shift + 1) = x.shift then 0 else 1)
      else if liesBelow c x.tLo e then (if x.nShrink ≤ (x.lowRun + 1) % 256 then
        (x.put (max x.shiftMin (x.shift - 1)) 2 0, if max x.shiftMin (x.shift - 1) = x.shift then 0 else 2)
        else (x.put x.shift 0 ((x.lowRun + 1) % 256), 0)) else (x.put x.shift 0 0, 0)) := rfl
  rw [hcases]
  split
  · obtain ⟨e1, e2, e3, e4, e5, e6⟩ := hput (n := min x.shiftMax (x.shift + 1)) 1 0 (by omega) (by omega)
    dsimp only
    rw [e1, e2, e3, e4, e5, e6]
    refine ⟨rfl, rfl, rfl, by omega, by omega, ?_, ?_, ?_, fun _ => rfl, rfl⟩ <;> split <;> omega
  · next hx =>
    split
    · split
      · obtain ⟨e1, e2, e3, e4, e5, e6⟩ := hput (n := max x.shiftMin (x.shift - 1)) 2 0 (by omega) (by omega)
        dsimp only
        rw [e1, e2, e3, e4, e5, e6]
        refine ⟨rfl, rfl, rfl, by omega, by omega, ?_, ?_, ?_, fun h => absurd h hx, rfl⟩ <;> split <;> omega
      · obtain ⟨e1, e2, e3, e4, e5, e6⟩ := hput (n := x.shift) 0 ((x.lowRun + 1) % 256) hlo hhi
        dsimp only
        rw [e1, e2, e3, e4, e6]
        exact ⟨rfl, rfl, rfl, hlo, hhi, fun _ => rfl, fun h => by omega, fun h => by omega, fun h => absurd h hx, rfl⟩
    · obtain ⟨e1, e2, e3, e4, e5, e6⟩ := hput (n := x.shift) 0 0 hlo hhi
      dsimp only
      rw [e1, e2, e3, e4, e6]
      exact ⟨rfl, rfl, rfl, hlo, hhi, fun _ => rfl, fun h => by omega, fun h => by omega, fun h => absurd h hx, rfl⟩

theorem fmtEncode_lt {f : Nat} (h : f ≤ 9) (v : Fl) : (fmtEncode f v).1 < 2 ^ fmtBits f := by
  have hf : f ≤ 2 ∨ (3 ≤ f ∧ f ≤ 7) ∨ (f = 8 ∨ f = 9) := by omega
  rcases hf with h2 | hfl | hb
  · exact fmtEncode_int_lt (by interval_cases f <;> decide) v
  · exact fmtEncode_float_lt hfl v
  · exact fmtEncode_bell_lt hb v
/-- The codes of the bell formats but the negative zero. -/
theorem fmtEncode_fmtDecode_bell4 : ∀ c : Fin 16, c.val ≠ 8 → fmtEncode 8 (fmtDecode 8 c.val) = (c.val, false) := by decide +kernel
theorem fmtEncode_fmtDecode_bell6 : ∀ c : Fin 64, c.val ≠ 32 → fmtEncode 9 (fmtDecode 9 c.val) = (c.val, false) := by decide +kernel

/-- Settles O60: an integer of at most 16 bits is a binary32 value, so the integer formats encode it back; the bell formats have few codes;
an update of a scale entry is one of four, each within the bounds. -/
theorem formatsAndScales : Obligations.FormatsAndScales := by
  refine ⟨fun _ v h => fmtEncode_lt h v, fun f hf => ?_, fun c hc => ?_, fun c hc => ?_, fun c hc => ?_, fun c hc hne => ?_,
    fun c hc hne => ?_, fun x c e hok hl => ScaleEntry.judge_keeps c e hok hl⟩
  · rcases hf with rfl | rfl | rfl | rfl | rfl <;> rfl
  · exact fmtEncode_fmtDecode_int (by decide) (by decide) (by decide) hc
  · exact fmtEncode_fmtDecode_int (by decide) (by decide) (by decide) hc
  · exact fmtEncode_fmtDecode_int (by decide) (by decide) (by decide) hc
  · exact fmtEncode_fmtDecode_bell4 ⟨c, hc⟩ hne
  · exact fmtEncode_fmtDecode_bell6 ⟨c, hc⟩ hne
end Sys2Proof.Machine
end

section
/-! Clock sources, PLL settings, gates and the clock meter. -/
namespace Sys2Proof.Machine
open Sys2Proof

/-! ## Sources -/

theorem State.srcReady_setReady (s : State) {c : Nat} (b : Bool) (i : Nat) (hi : i < 9) :
    (s.setReady c b).srcReady i = if i = c then b else s.srcReady i := by
  unfold State.srcReady State.setReady
  rw [BitVec.toNat_ofNat, Nat.testBit_mod_two_pow, testBit_setBit]
  simp [hi]
/-- What the fall of source c does to domain d. -/
def State.abandonSwitch (c : Nat) (s : State) (d : Nat) : State :=
  if (s.domain d).phase = .switching c then (s.setDomain d { s.domain d with phase := .idle, hw := false }).clkRefuse d c 1 else s
theorem State.readyFall_eq (s : State) (c : Nat) : s.readyFall c = (List.range 4).foldl (State.abandonSwitch c) (s.setReady c false) := rfl

theorem State.clkRefuse_clk (s : State) (d c r : Nat) : (s.clkRefuse d c r).clk = s.clk := State.bumpInfo_clk _ _ _ _ _
theorem only_clkRefuse (s : State) (d c r : Nat) : Only [.regs 3] s (s.clkRefuse d c r) := only_bumpInfo s Blk.clk (by omega) (by omega) _
theorem State.domain_clkRefuse (s : State) (d c r e : Nat) : (s.clkRefuse d c r).domain e = s.domain e := by
  unfold State.domain; rw [State.clkRefuse_clk]
theorem State.abandonSwitch_leaves (s : State) (c d : Nat) : (s.abandonSwitch c d).clk.ready = s.clk.ready ∧
    (∀ e, ((s.abandonSwitch c d).domain e).active = (s.domain e).active) ∧ ((s.abandonSwitch c d).domain d).phase ≠ .switching c ∧
    (∀ e, e ≠ d → (s.abandonSwitch c d).domain e = s.domain e) ∧ Only [.clk, .regs 3] s (s.abandonSwitch c d) := by
  unfold State.abandonSwitch
  split
  · have ho : ∀ x, Only [.clk, .regs 3] s ((s.setDomain d x).clkRefuse d c 1) := fun x =>
      ((only_clkRefuse _ d c 1).mono (by simp)).after ((only_setDomain s d x).mono (by simp))
    refine ⟨by rw [State.clkRefuse_clk]; rfl, fun e => ?_, ?_, fun e he => ?_, ho _⟩
    · rw [State.domain_clkRefuse]
      by_cases he : e = d
      · rw [he, State.domain_setDomain_self]
      · rw [State.domain_setDomain_ne s _ he]
    · rw [State.domain_clkRefuse, State.domain_setDomain_self]
      exact Phase.noConfusion
    · rw [State.domain_clkRefuse, State.domain_setDomain_ne s _ he]
  · next h => exact ⟨rfl, fun _ => rfl, h, fun _ _ => rfl, Only.refl _ s⟩
theorem State.abandonSwitches_leave (s : State) (c n : Nat) : ((List.range n).foldl (State.abandonSwitch c) s).clk.ready = s.clk.ready ∧
    (∀ e, (((List.range n).foldl (State.abandonSwitch c) s).domain e).active = (s.domain e).active) ∧
    (∀ d, d < n → (((List.range n).foldl (State.abandonSwitch c) s).domain d).phase ≠ .switching c) ∧
    Only [.clk, .regs 3] s ((List.range n).foldl (State.abandonSwitch c) s) := by
  induction n with
  | zero => exact ⟨rfl, fun _ => rfl, fun d hd => absurd hd (by omega), Only.refl _ s⟩
  | succ n ih =>
    obtain ⟨h1, h2, h3, h4⟩ := ih
    rw [List.range_succ, List.foldl_append]
    obtain ⟨k1, k2, k3, k4, k5⟩ := State.abandonSwitch_leaves ((List.range n).foldl (State.abandonSwitch c) s) c n
    refine ⟨k1.trans h1, fun e => (k2 e).trans (h2 e), fun d hd => ?_, h4.trans k5⟩
    rcases Nat.lt_succ_iff_lt_or_eq.1 hd with hlt | rfl
    · exact (k4 d (by omega)).symm ▸ h3 d hlt
    · exact k3
theorem State.readyFall_leaves (s : State) {c : Nat} (hc : c < 9) : (s.readyFall c).srcReady c = false ∧
    (∀ e, ((s.readyFall c).domain e).active = (s.domain e).active) ∧ (∀ d, d < 4 → ((s.readyFall c).domain d).phase ≠ .switching c) ∧
    Only [.clk, .regs 3] s (s.readyFall c) := by
  obtain ⟨h1, h2, h3, h4⟩ := State.abandonSwitches_leave (s.setReady c false) c 4
  have hset : Only [.clk, .regs 3] s (s.setReady c false) := (only_setClk s _).mono (by simp)
  rw [State.readyFall_eq]
  refine ⟨?_, h2, h3, hset.trans h4⟩
  have hr := s.srcReady_setReady (c := c) false c hc
  rw [if_pos rfl] at hr
  unfold State.srcReady at hr ⊢
  rw [h1, hr]

theorem sourceReadyChange_yields {c : Fin 9} (s : State) (h : c.val ≠ 2) :
    Yields (.sourceReadyChange c true) s (fun t => t.srcReady c.val = true ∧ t.clk.domains = s.clk.domains ∧ t.mem = s.mem) ∧
    Yields (.sourceReadyChange c false) s (fun t => t.srcReady c.val = false ∧
      (∀ d, d < 4 → (t.domain d).phase ≠ .switching c.val) ∧ (∀ d, (t.domain d).active = (s.domain d).active) ∧ t.mem = s.mem) := by
  have hexec : ∀ up, exec (.sourceReadyChange c up) s = done s (if up then s.setReady c.val true else s.readyFall c.val) := fun up => by
    show execSourceReadyChange c up s = _
    unfold execSourceReadyChange
    rw [if_neg h]
    cases up <;> rfl
  obtain ⟨h1, h2, h3, h4⟩ := s.readyFall_leaves c.isLt
  refine ⟨yields_done (hexec true) ?_, yields_done (hexec false) ?_⟩
  · rw [finish_srcReady, finish_clk, finish_mem, if_pos rfl, s.srcReady_setReady true _ c.isLt, if_pos rfl]
    exact ⟨rfl, rfl, rfl⟩
  · simp only [finish_srcReady, finish_domain, finish_mem]
    exact ⟨h1, h3, h2, h4.mem (by simp)⟩

/-- The hardware's move of AON from XLF. -/
theorem State.hwToLfrc_from_xlf {s : State} (h : (s.domain 0).active = 0) : (s.hwToLfrc.domain 0).phase = .switching 2 ∧
    (s.hwToLfrc.domain 0).hw = true := by
  unfold State.hwToLfrc
  dsimp only
  rw [h, if_neg (by simp), State.domain]
  split
  · next hp => exact ⟨(congrArg Domain.phase (State.domain_setDomain_self s 0 _)).trans hp, congrArg Domain.hw (State.domain_setDomain_self s 0 _)⟩
  · rw [if_neg (by decide)]
    exact ⟨congrArg Domain.phase (State.domain_setDomain_self s 0 _), congrArg Domain.hw (State.domain_setDomain_self s 0 _)⟩
theorem only_hwToLfrc (s : State) : Only [.clk] s s.hwToLfrc := by
  have hset : ∀ x, Only [.clk] s (s.setDomain 0 x) := fun x => only_setDomain s 0 x
  unfold State.hwToLfrc
  exact Only.ite (fun _ => Only.refl _ s) fun _ => Only.ite (fun _ => hset _) fun _ => Only.ite (fun _ => hset _) fun _ => hset _
theorem State.hwToLfrc_clk (s : State) : s.hwToLfrc.clk.ready = s.clk.ready ∧ s.hwToLfrc.clk.meters = s.clk.meters := by
  unfold State.hwToLfrc
  dsimp only
  split_ifs <;> exact ⟨rfl, rfl⟩
theorem xlfStop_yields {s : State} (h : (s.domain 0).active = 0) : Yields .xlfStop s (fun t => t.srcReady 0 = false ∧
    (t.domain 0).phase = .switching 2 ∧ (t.domain 0).hw = true ∧ t.mem = s.mem) := by
  have hexec : exec .xlfStop s = done s (s.readyFall 0).hwToLfrc := rfl
  obtain ⟨h1, h2, -, h4⟩ := s.readyFall_leaves (c := 0) (by omega)
  obtain ⟨e1, e2⟩ := State.hwToLfrc_from_xlf (s := s.readyFall 0) ((h2 0).trans h)
  refine yields_done hexec ?_
  rw [finish_srcReady, finish_domain, finish_mem, (only_hwToLfrc _).mem (by simp), h4.mem (by simp)]
  refine ⟨?_, e1, e2, rfl⟩
  unfold State.srcReady at h1 ⊢
  rw [(State.hwToLfrc_clk _).1, h1]

/-! ## PLL settings -/

theorem cruPointWrite_yields (v : Word) (s : State) :
    ((s.domain 4).active ≠ 4 → Yields (.cruPointWrite v) s (fun t =>
      t.reg Blk.clk 0x104 = BitVec.ofNat 32 (fld v 0 2) ∧ t.srcReady 4 = false ∧ t.clk.domains = s.clk.domains ∧ t.mem = s.mem)) ∧
    ((s.domain 4).active = 4 → Yields (.cruPointWrite v) s (fun t =>
      t.clk = s.clk ∧ t.reg Blk.clk 0x104 = s.reg Blk.clk 0x104 ∧ t.evc Blk.clk 3 = s.evc Blk.clk 3 + 1 ∧ t.mem = s.mem)) := by
  refine ⟨fun h => ?_, fun h => ?_⟩
  · have hexec : exec (.cruPointWrite v) s = done s ((s.setReg Blk.clk 0x104 (BitVec.ofNat 32 (fld v 0 2))).setReady 4 false) := by
      show done s (s.cruPointWrite (fld v 0 2)) = _
      unfold State.cruPointWrite
      rw [if_neg h, Nat.mod_eq_of_lt (show fld v 0 2 < 4 from fld_lt v 0 2)]
    refine yields_done hexec ?_
    rw [finish_srcReady, finish_clk, finish_mem, finish_reg_clk _ _ (by omega), State.srcReady_setReady _ false 4 (by omega), if_pos rfl]
    exact ⟨State.reg_setReg_self _ _ _ _, rfl, rfl, rfl⟩
  · have hexec : exec (.cruPointWrite v) s = done s (s.clkRefuse 4 4 4) := congrArg (done s) (if_pos h)
    obtain ⟨t, ht, hclk, hevc, -, hreg, hmem⟩ := clkRefuse_yields hexec
    exact ⟨t, ht, hclk, hreg 0x104 (by omega) (by omega), hevc, hmem⟩

theorem pixPllWrite_yields (s : State) (div : Bool) (v : Word) :
    ((s.domain 3).active ≠ 7 → pixInRange (fld (if div then s.reg Blk.clk 0x108 else v &&& 0x7fffff) 16 7)
        (fld (if div then s.reg Blk.clk 0x108 else v &&& 0x7fffff) 0 16) (if div then fld v 0 6 else fld (s.reg Blk.clk 0x10C) 0 6) = true →
      Yields (.pixPllWrite div v) s (fun t => t.reg Blk.clk (if div then 0x10C else 0x108) = v &&& (if div then 0x3f else 0x7fffff) ∧
        t.clk = s.clk ∧ t.mem = s.mem)) ∧
    (pixInRange (fld (if div then s.reg Blk.clk 0x108 else v &&& 0x7fffff) 16 7)
        (fld (if div then s.reg Blk.clk 0x108 else v &&& 0x7fffff) 0 16) (if div then fld v 0 6 else fld (s.reg Blk.clk 0x10C) 0 6) = false →
      Yields (.pixPllWrite div v) s (fun t => (∀ o, o < 0x10000 → o ≠ 0x140 → t.reg Blk.clk o = s.reg Blk.clk o) ∧ t.clk = s.clk ∧
        t.evc Blk.clk 3 = s.evc Blk.clk 3 + 1 ∧ t.mem = s.mem)) := by
  have hexec : exec (.pixPllWrite div v) s = done s (s.pixWrite div v) := rfl
  unfold State.pixWrite at hexec
  dsimp only at hexec
  refine ⟨fun ha hr => ?_, fun hr => ?_⟩
  · rw [hr, Bool.not_true, if_neg (by simp), if_neg ha] at hexec
    cases div
    · refine yields_done hexec ?_
      rw [finish_reg_clk _ _ (by decide), finish_clk, finish_mem]
      exact ⟨State.reg_setReg_self _ _ _ _, rfl, rfl⟩
    · refine yields_done hexec ?_
      rw [finish_reg_clk _ _ (by decide), finish_clk, finish_mem]
      exact ⟨State.reg_setReg_self _ _ _ _, rfl, rfl⟩
  · rw [hr, Bool.not_false, if_pos rfl] at hexec
    obtain ⟨t, ht, hclk, hevc, -, hreg, hmem⟩ := clkRefuse_yields hexec
    exact ⟨t, ht, hreg, hclk, hevc, hmem⟩

/-! ## Gates -/

theorem clkGateWrite_yields (r : Fin 3) (v : Word) (s : State) : Yields (.clkGateWrite r v) s (fun t =>
    t.reg Blk.clk (0x160 + 4 * r.val) = v &&& (if r.val = 0 then 0xc03bee00 else if r.val = 1 then 0xffffffff else 0xffff) ∧
    (∀ b, t.gateBit b = true → tget t.clk.gateClosed b = false) ∧
    (∀ b, t.gateBit b = false → tget t.clk.gateClosed b = tget s.clk.gateClosed b) ∧ t.mem = s.mem) := by
  obtain ⟨u, hu⟩ : ∃ u, u = s.setReg Blk.clk (0x160 + 4 * r.val)
    (v &&& (if r.val = 0 then 0xc03bee00 else if r.val = 1 then 0xffffffff else 0xffff)) := ⟨_, rfl⟩
  have hexec : exec (.clkGateWrite r v) s = done s u.openGates := by rw [hu]; rfl
  have hgate : ∀ b, (finish s u.openGates).gateBit b = u.gateBit b := fun b => by
    unfold State.gateBit
    rw [finish_reg_clk _ _ (by omega), finish_reg_clk _ _ (by omega), finish_reg_clk _ _ (by omega)]
    rfl
  have hclosed : ∀ b, tget u.openGates.clk.gateClosed b = if u.gateBit b then false else tget s.clk.gateClosed b := fun b => by
    have hc : u.clk = s.clk := by rw [hu]; rfl
    show Tab.get offTab (Tab.clear (fun b => u.gateBit b) u.clk.gateClosed) b = _
    rw [Tab.get_clear, hc]
    rfl
  have hr := r.isLt
  refine yields_done hexec ?_
  simp only [finish_clk, finish_mem, hgate, hclosed]
  refine ⟨?_, fun b hb => if_pos hb, fun b hb => by rw [hb]; rfl, by rw [hu]; rfl⟩
  rw [finish_reg_clk _ _ (by omega)]
  show u.reg Blk.clk _ = _
  rw [hu, State.reg_setReg_self]

theorem gateClose_yields {b : Fin 96} {s : State} (h1 : gateable b.val = true) (h2 : s.gateBit b.val = false) (h3 : s.blockIdle b.val = true) :
    Yields (.gateClose b) s (fun t => t.gated b.val = true ∧ (∀ c, c ≠ b.val → tget t.clk.gateClosed c = tget s.clk.gateClosed c) ∧
      t.mem = s.mem ∧ t.aon = s.aon) := by
  have hexec : exec (.gateClose b) s = done s { s with clk.gateClosed := tset s.clk.gateClosed b.val true } := if_pos ⟨h1, h2, h3⟩
  refine yields_done hexec ?_
  simp only [State.gated, finish_clk, finish_mem, finish_aon, tget_tset, h1]
  exact ⟨by simp, fun c hc => if_neg hc, trivial, trivial⟩

/-! ## The clock meter -/

theorem only_setMeter (s : State) (k : Nat) (x : Meter) : Only [.clk] s (s.setMeter k x) := only_setClk s _
theorem only_meterReact (s : State) : Only [.clk] s s.meterReact := Only.ite (fun _ => only_hwToLfrc s) fun _ => Only.refl _ s
theorem State.meter_meterReact (s : State) (k : Nat) : s.meterReact.meter k = s.meter k := by
  have h : s.meterReact.clk.meters = s.clk.meters := by
    unfold State.meterReact
    split
    · exact s.hwToLfrc_clk.2
    · rfl
  unfold State.meter
  rw [h]

/-- A flag with a window and a hysteresis: set above the window, cleared below it by the hysteresis. -/
def windowed (diff window hyst : Nat) (old : Bool) : Bool :=
  if window < diff then true else if (diff : Int) ≤ (window : Int) - hyst then false else old
theorem windowed_above {diff window : Nat} (hyst : Nat) (old : Bool) (h : window < diff) : windowed diff window hyst old = true := if_pos h
theorem windowed_below {diff window hyst : Nat} (old : Bool) (h : diff + hyst ≤ window) : windowed diff window hyst old = false := by
  unfold windowed
  rw [if_neg (by omega), if_pos (by omega)]

theorem meterMeasurement_yields (k : Fin 8) (n : Nat) {s : State} (hon : s.meterOn k.val = true) (hn : n < 2 ^ 32) :
    Yields (.meterMeasurement k n) s (fun t =>
      let o := 0x200 + 0x20 * k.val
      let diff := (n - (s.reg Blk.clk (o + 4)).toNat) + ((s.reg Blk.clk (o + 4)).toNat - n)
      t.reg Blk.clk (o + 0x14) = BitVec.ofNat 32 n ∧ (t.meter k.val).valid = true ∧
      ((s.reg Blk.clk (o + 8)).toNat < diff → (t.meter k.val).prewarn = true) ∧
      ((s.reg Blk.clk (o + 12)).toNat < diff → (t.meter k.val).fault = true) ∧
      (diff + (s.reg Blk.clk (o + 16)).toNat ≤ (s.reg Blk.clk (o + 8)).toNat → (t.meter k.val).prewarn = false) ∧
      (diff + (s.reg Blk.clk (o + 16)).toNat ≤ (s.reg Blk.clk (o + 12)).toNat → (t.meter k.val).fault = false) ∧ t.mem = s.mem) := by
  dsimp only
  generalize ho : 0x200 + 0x20 * k.val = o
  have hk := k.isLt
  generalize hdiff : (n - (s.reg Blk.clk (o + 4)).toNat) + ((s.reg Blk.clk (o + 4)).toNat - n) = diff
  obtain ⟨x, hx⟩ : ∃ x : Meter, x = { s.meter k.val with
    prewarn := windowed diff (s.reg Blk.clk (o + 8)).toNat (s.reg Blk.clk (o + 16)).toNat (s.meter k.val).prewarn
    fault := windowed diff (s.reg Blk.clk (o + 12)).toNat (s.reg Blk.clk (o + 16)).toNat (s.meter k.val).fault
    valid := true } := ⟨_, rfl⟩
  obtain ⟨u, hu⟩ : ∃ u, u = (s.setReg Blk.clk (o + 0x14) (BitVec.ofNat 32 n)).setMeter k.val x := ⟨_, rfl⟩
  have hexec : ∃ rises, exec (.meterMeasurement k n) s = done s ((u.bumpBy Blk.clk (6 + k.val) rises).meterReact) := by
    refine ⟨b2n (x.prewarn && !(s.meter k.val).prewarn) + b2n ((x.fault || (s.meter k.val).stopped) &&
      !((s.meter k.val).fault || (s.meter k.val).stopped)), ?_⟩
    show execMeterMeasurement k n s = _
    unfold execMeterMeasurement
    dsimp only
    rw [if_pos hon, Nat.min_eq_left (by omega), ho, hdiff, hu, hx]
    rfl
  obtain ⟨rises, hexec⟩ := hexec
  have hmeter : ((u.bumpBy Blk.clk (6 + k.val) rises).meterReact).meter k.val = x := by
    rw [State.meter_meterReact]
    show u.meter k.val = x
    rw [hu, State.meter_setMeter_self]
  have hreact := only_meterReact (u.bumpBy Blk.clk (6 + k.val) rises)
  have hreg : ((u.bumpBy Blk.clk (6 + k.val) rises).meterReact).reg Blk.clk (o + 0x14) = BitVec.ofNat 32 n := by
    rw [hreact.reg (by simp) (by omega)]
    show u.reg Blk.clk (o + 0x14) = _
    rw [hu]
    exact State.reg_setReg_self s _ _ _
  refine yields_done hexec ?_
  rw [finish_reg_clk _ _ (by omega), finish_meter, finish_mem, hmeter, hreg, hreact.mem (by simp), hx]
  exact ⟨rfl, rfl, windowed_above _ _, windowed_above _ _, windowed_below _, windowed_below _, by
    show u.mem = s.mem
    rw [hu]
    rfl⟩

theorem meterStopped_yields (k : Fin 8) {s : State} (hon : s.meterOn k.val = true) (hst : (s.meter k.val).stopped = false) :
    Yields (.meterStopped k) s (fun t => t.meterFault k.val = true ∧ (t.meter k.val).stopped = true ∧
      ((s.meter k.val).fault = false → t.evc Blk.clk (6 + k.val) = s.evc Blk.clk (6 + k.val) + 1) ∧ t.mem = s.mem) := by
  have hk := k.isLt
  obtain ⟨u, hu⟩ : ∃ u, u = if (s.meter k.val).fault then s.setMeter k.val { s.meter k.val with stopped := true }
    else (s.setMeter k.val { s.meter k.val with stopped := true }).bump Blk.clk (6 + k.val) := ⟨_, rfl⟩
  have hexec : exec (.meterStopped k) s = done s u.meterReact := by
    show execMeterStopped k s = _
    unfold execMeterStopped
    dsimp only
    rw [if_pos (by rw [hon, hst]; rfl), hu]
  have hreact := only_meterReact u
  have hmeter : u.meterReact.meter k.val = { s.meter k.val with stopped := true } := by
    rw [State.meter_meterReact, hu]
    split
    · exact State.meter_setMeter_self _ _ _
    · exact State.meter_setMeter_self s _ _
  have hmem : u.mem = s.mem := by rw [hu]; split <;> rfl
  refine yields_done hexec ?_
  rw [State.meterFault, finish_meter, finish_mem, finish_evc_clk _ _ (by omega), hmeter, hreact.mem (by simp), hreact.evc (by simp) (by omega), hmem]
  refine ⟨by simp, rfl, fun hf => ?_, rfl⟩
  rw [hu, hf, if_neg (by simp)]
  exact State.evc_bump_self (s.setMeter k.val _) _ _

theorem stoppedTargetEdge_yields (k : Fin 8) {s : State} (h : s.meterTarget k.val < 12) : Yields (.stoppedTargetEdge k) s (fun t =>
    t.meter k.val = { s.meter k.val with stopped := false } ∧ t.clk.domains = s.clk.domains ∧ t.mem = s.mem) := by
  have hexec : exec (.stoppedTargetEdge k) s = done s (s.setMeter k.val { s.meter k.val with stopped := false }) := if_pos h
  refine yields_done hexec ?_
  rw [finish_meter, finish_clk, finish_mem, State.meter_setMeter_self]
  exact ⟨rfl, rfl, rfl⟩

theorem meterCfgWrite_yields (k : Fin 8) (r : Fin 5) (v : Word) (s : State) : Yields (.meterCfgWrite k r v) s (fun t =>
    t.reg Blk.clk (0x200 + 0x20 * k.val + 4 * r.val) = v &&& (if r.val = 0 then 0x9f10000f else 0xffffffff) ∧
    (t.meter k.val).valid = false ∧ t.mem = s.mem) := by
  have hk := k.isLt
  have hr := r.isLt
  obtain ⟨x, hx, hexec⟩ : ∃ x : Meter, x.valid = false ∧ exec (.meterCfgWrite k r v) s = done s ((s.setReg Blk.clk
      (0x200 + 0x20 * k.val + 4 * r.val) (v &&& (if r.val = 0 then 0x9f10000f else 0xffffffff))).setMeter k.val x) := ⟨_, rfl, rfl⟩
  refine yields_done hexec ?_
  rw [finish_reg_clk _ _ (by omega), finish_meter, finish_mem, State.meter_setMeter_self]
  exact ⟨State.reg_setReg_self s _ _ _, hx, rfl⟩

/-- Settles O12: a falling source abandons the switches of the four checked domains one by one; the reaction of the meter moves AON alone. -/
theorem clockSources : Obligations.ClockSources := by
  refine ⟨⟨fun c s h => (sourceReadyChange_yields s h).1, fun c s h => (sourceReadyChange_yields s h).2, fun up s => ?_, fun s => xlfStop_yields⟩,
    ⟨fun v s => (cruPointWrite_yields v s).1, fun v s => (cruPointWrite_yields v s).2, fun v s => (pixPllWrite_yields s false v).1,
      fun v s => (pixPllWrite_yields s true v).1, fun v s hr => ?_⟩,
    ⟨clkGateWrite_yields, fun b s => gateClose_yields⟩,
    ⟨fun k n s => meterMeasurement_yields k n, fun k s => meterStopped_yields k, fun k s => stoppedTargetEdge_yields k, meterCfgWrite_yields⟩⟩
  · exact yields_done (i := .sourceReadyChange 2 up) (s' := s) rfl (finish_clk _ _)
  · obtain ⟨t, ht, hreg, hclk, hevc, hmem⟩ := (pixPllWrite_yields s true v).2 hr
    exact ⟨t, ht, hreg 0x10C (by omega) (by omega), hclk, hevc, hmem⟩
end Sys2Proof.Machine
end

section
/-! Resets: what a frame's reset, a block's, and each scope leave. -/
namespace Sys2Proof.Machine
open Sys2Proof

/-! ## Frames and blocks -/

theorem only_setInp (s : State) (x : Inp) : Only [.inp] s { s with inp := x } := by
  intro p hp; cases p <;> simp_all [StatePart.same, State.reg, State.evc, State.ackOf]
theorem only_setJtag (s : State) (x : Jtag) : Only [.jtag] s { s with jtag := x } := by
  intro p hp; cases p <;> simp_all [StatePart.same, State.reg, State.evc, State.ackOf]
theorem only_setSec (s : State) (x : Sec) : Only [.sec] s { s with sec := x } := by
  intro p hp; cases p <;> simp_all [StatePart.same, State.reg, State.evc, State.ackOf]

theorem State.frameReset_eq (s : State) (b : Blk) : s.frameReset b = { s with rf := (s.frameReset b).rf } := rfl
theorem State.reg_frameReset_self (s : State) (b : Blk) {o : Nat} (ho : o < 0x10000) : (s.frameReset b).reg b o = regDefault (regKey b o) := by
  have hkey : regKey b o / 0x10000 = b := by unfold regKey; omega
  show Tab.get regDefault (Tab.clear (fun k => k / 0x10000 == b) s.rf.store) (regKey b o) = _
  rw [Tab.get_clear, if_pos (by simpa using hkey)]
theorem only_frameReset (s : State) (b : Blk) : Only [.regs b, .halts, .copies] s (s.frameReset b) := by
  intro p hp
  cases p with
  | regs b' =>
    have hne : b' ≠ b := fun h => hp (by simp [h])
    refine ⟨fun o ho => ?_, fun j hj => ⟨?_, ?_⟩⟩
    · have hkey : regKey b' o / 0x10000 = b' := by unfold regKey; omega
      show Tab.get regDefault (Tab.clear (fun k => k / 0x10000 == b) s.rf.store) (regKey b' o) = _
      rw [Tab.get_clear, if_neg (by rw [hkey]; simpa using hne)]
      rfl
    · have hkey : evKey b' j / 32 = b' := by unfold evKey; omega
      show Tab.get zero16 (Tab.clear (fun k => k / 32 == b) s.rf.evc) (evKey b' j) = _
      rw [Tab.get_clear, if_neg (by rw [hkey]; simpa using hne)]
      rfl
    · have hkey : evKey b' j / 32 = b' := by unfold evKey; omega
      show Tab.get zero16 (Tab.clear (fun k => k / 32 == b) s.rf.ack) (evKey b' j) = _
      rw [Tab.get_clear, if_neg (by rw [hkey]; simpa using hne)]
      rfl
  | halts => simp at hp
  | copies => simp at hp
  | _ => rfl
theorem only_framesReset (s : State) (l : List Blk) : Only (.halts :: .copies :: l.map .regs) s (s.framesReset l) :=
  Only.foldl (fun t b hb => (only_frameReset t b).mono (by
    have := List.mem_map_of_mem (f := StatePart.regs) hb
    simp [this])) s
theorem State.framesReset_eq (s : State) (l : List Blk) : s.framesReset l = { s with rf := (s.framesReset l).rf } := by
  unfold State.framesReset
  induction l generalizing s with
  | nil => rfl
  | cons b l ih =>
    rw [List.foldl_cons, ih (s.frameReset b)]
    rfl

/-- What the reset of a block of the halt group may change beside its frame. -/
abbrev blockParts : List StatePart := [.queues, .regs 6, .mem, .flx, .spr, .eng, .pat, .fsu, .disp, .fbcs, .inp]

theorem only_engTokensLost (s : State) (e : Nat) : Only blockParts s (s.engTokensLost e) := by
  have htok : ∀ (t : State) (k : Option (Nat × Nat)) (x : Token), Only blockParts t (t.setToken k x) := fun t k x => by
    unfold State.setToken
    split
    · exact Only.refl _ t
    · dsimp only
      split
      · exact Only.refl _ t
      · exact (only_setPat t _).mono (by decide)
  unfold State.engTokensLost
  dsimp only
  refine Only.foldlAfter (fun t p _ => htok t _ _) ?_
  split
  · exact htok s _ _
  · exact Only.refl _ s
theorem blockQueues_lt {b q : Nat} (h : q ∈ blockQueues b) : q < 256 := by
  unfold blockQueues at h
  split at h
  · obtain ⟨g, hg, rfl⟩ := List.mem_map.1 h
    have := List.mem_range.1 hg
    omega
  all_goals first
  | (simp at h; done)
  | (simp at h; omega)
theorem only_blockState (s : State) (b : Blk) : Only blockParts s (s.blockState b) := by
  have hq : Only blockParts s ((blockQueues b).foldl (fun s q => s.queueOff q) s) :=
    Only.foldl (fun t q hq => (only_queueOff t (blockQueues_lt hq)).mono (by decide)) s
  unfold State.blockState
  dsimp only
  generalize (blockQueues b).foldl (fun s q => s.queueOff q) s = u at *
  refine hq.trans ?_
  refine Only.ite (fun _ => (only_zeroRange u _ _).mono (by decide)) fun _ => ?_
  have hport : ∀ i x, Only blockParts u (u.setPort i x) := fun i x => (only_setSpr u _).mono (by decide)
  have heng : ∀ e, Only blockParts u ((u.engTokensLost e).setEngine e {}) := fun e =>
    ((only_setEng _ _).mono (by decide)).after (only_engTokensLost u e)
  have hfbc : ∀ t k (x : Fbc), Only blockParts t (t.setFbc k x) := fun t k x => (only_setFbc t k x).mono (by decide)
  split
  · exact (only_setFlx u _).mono (by decide)
  iterate 2 exact hport _ _
  iterate 6 exact heng _
  · exact (only_setPat u _).mono (by decide)
  · exact ((only_zeroRange _ _ _).mono (by decide)).after ((only_setFsu u _).mono (by decide))
  · exact (only_setDisp u _).mono (by decide)
  iterate 4 exact hfbc u _ _
  · exact ((only_setInp _ _).mono (by decide)).after (Only.foldl (fun t k _ => hfbc t k _) u)
  · exact Only.refl _ u
theorem only_blockReset (s : State) (b : Blk) : Only (.regs b :: .halts :: .copies :: blockParts) s (s.blockReset b) :=
  ((only_frameReset _ b).mono (by simp)).after ((only_blockState s b).mono (by
    intro p hp
    exact List.mem_cons_of_mem _ (List.mem_cons_of_mem _ (List.mem_cons_of_mem _ hp))))

/-! ## The warm scope, PORn and the always-on domain's power-on reset -/

theorem State.warmScope_leaves (s : State) : s.warmScope.mem = {} ∧ s.warmScope.queues = [] ∧ s.warmScope.fmn = {} ∧
    s.warmScope.rst = { s.rst with rom := .start, classD := none, wdogDue := false, window := false, trainingDue := true } ∧
    s.warmScope.aon = { s.aon with pwr := 1, moving := none, calmCommitted := false, exitDue := false, fbStb := 0 } ∧
    s.warmScope.clk.now = s.clk.now ∧ s.warmScope.sec.otp = s.sec.otp ∧
    s.warmScope.qch = { st := if s.aon.grave.isSome then .grave else .disarmed } := by
  unfold State.warmScope
  dsimp only
  rw [State.framesReset_eq]
  exact ⟨rfl, rfl, rfl, rfl, rfl, rfl, rfl, rfl⟩
/-- The warm scope leaves the RST frame. -/
theorem State.warmScope_rst (s : State) : (∀ o, o < 0x10000 → s.warmScope.reg Blk.rst o = s.reg Blk.rst o) ∧
    ∀ j, j < 32 → s.warmScope.evc Blk.rst j = s.evc Blk.rst j := by
  have h := only_framesReset s warmFrames
  have hm : StatePart.regs Blk.rst ∉ (.halts :: .copies :: warmFrames.map .regs : List StatePart) := by decide
  unfold State.warmScope
  dsimp only
  generalize s.framesReset warmFrames = u at *
  exact ⟨fun o ho => h.reg hm ho, fun j hj => h.evc hm hj⟩
theorem State.porScope_leaves (s : State) : s.porScope.mem = {} ∧ s.porScope.queues = [] ∧ s.porScope.rst.rom = .start ∧
    s.porScope.aon = { s.aon with pwr := 1, moving := none, calmCommitted := false, exitDue := false, fbStb := 0 } ∧
    s.porScope.clk.now = 0 ∧ s.porScope.sec.otp = s.sec.otp ∧
    s.porScope.qch = { st := if s.aon.grave.isSome then .grave else .disarmed } := by
  obtain ⟨h1, h2, -, h4, h5, -, h7, h8⟩ := s.warmScope_leaves
  unfold State.porScope
  dsimp only
  rw [State.frameReset_eq]
  exact ⟨h1, h2, rfl, h5, rfl, h7, h8⟩

theorem not_tripBlk_rst : ¬tripBlk Blk.rst := by unfold tripBlk Blk.rst; omega
theorem finish_reg_rst (s0 s : State) {o : Nat} (ho : o < 0x10000) : (finish s0 s).reg Blk.rst o = s.reg Blk.rst o :=
  finish_reg s0 s ho not_tripBlk_rst
theorem finish_evc_rst (s0 s : State) {j : Nat} (hj : j < 32) : (finish s0 s).evc Blk.rst j = s.evc Blk.rst j :=
  finish_evc s0 s hj fun h => not_tripBlk_rst (.inl h.1)
theorem resetSt_ne_armed (g : Option (BitVec 8)) : (if g.isSome then QchState.grave else .disarmed) ≠ .armed := by
  cases g with
  | none => decide
  | some c => exact QchState.noConfusion

theorem pornAssert_yields (s : State) : Yields .pornAssert s (fun t => t.rst.porn = true ∧ t.rst.rom = .start ∧ t.clk.now = 0 ∧ t.aon.pwr = 1 ∧
    t.reg Blk.rst 0x100 = 1 ∧ t.aon.grave = s.aon.grave ∧ t.aon.cal = s.aon.cal ∧ t.mem = {} ∧ t.queues = [] ∧
    t.sec.otp = s.sec.otp ∧ t.qch.st = (if s.aon.grave.isSome then .grave else .disarmed)) := by
  obtain ⟨h1, h2, h3, h4, h5, h6, h7⟩ := s.porScope_leaves
  obtain ⟨u, hu⟩ : ∃ u, u = s.porScope := ⟨_, rfl⟩
  rw [← hu] at h1 h2 h3 h4 h5 h6 h7
  have hexec : exec .pornAssert s = done s (({ u with rst.porn := true } : State).setReg Blk.rst 0x100 1) := by rw [hu]; rfl
  have hq : (({ u with rst.porn := true } : State).setReg Blk.rst 0x100 1).qch = u.qch := rfl
  refine yields_done hexec ?_
  rw [finish_qch_of_not_armed s (by rw [hq, h7]; exact resetSt_ne_armed _), hq, finish_rst, finish_clk, finish_aon, finish_mem, finish_queues,
    finish_sec, finish_reg_rst _ _ (by omega), State.reg_setReg_self, h7]
  exact ⟨rfl, h3, h5, show u.aon.pwr = 1 by rw [h4], rfl, show u.aon.grave = _ by rw [h4], show u.aon.cal = _ by rw [h4], h1, h2, h6, rfl⟩
theorem pornRelease_yields (b c : Fin 4) {s : State} (h : s.rst.porn = true) : Yields (.pornRelease b c) s (fun t => t.rst.porn = false ∧
    t.rst.boot = b.val ∧ t.bus.chipId = c.val ∧ t.aon = s.aon ∧ t.mem = s.mem) := by
  have hexec : exec (.pornRelease b c) s = done s { s.sampleStraps b c with rst.porn := false } := congrArg (done s) (if_pos h)
  refine yields_done hexec ?_
  rw [finish_rst, finish_bus, finish_aon, finish_mem]
  exact ⟨rfl, rfl, rfl, rfl, rfl⟩

/-- The warm scope after the record of its cause and the event of its source. -/
def State.recordedReset (s : State) (last : Word) (j : Nat) : State :=
  State.warmScope (((s.setReg Blk.rst 0x100 last).bump Blk.rst j).setFld Blk.rst 0x10C 0 4 0)
theorem State.recordedReset_leaves (s : State) (last : Word) {j : Nat} (hj : j < 32) :
    (s.recordedReset last j).reg Blk.rst 0x100 = last ∧ (s.recordedReset last j).evc Blk.rst j = s.evc Blk.rst j + 1 ∧
    (s.recordedReset last j).mem = {} ∧ (s.recordedReset last j).queues = [] ∧ (s.recordedReset last j).fmn = {} ∧
    (s.recordedReset last j).rst = { s.rst with rom := .start, classD := none, wdogDue := false, window := false, trainingDue := true } ∧
    (s.recordedReset last j).aon = { s.aon with pwr := 1, moving := none, calmCommitted := false, exitDue := false, fbStb := 0 } ∧
    (s.recordedReset last j).clk.now = s.clk.now ∧ (s.recordedReset last j).qch.st = (if s.aon.grave.isSome then .grave else .disarmed) := by
  obtain ⟨u, hu⟩ : ∃ u, u = ((s.setReg Blk.rst 0x100 last).bump Blk.rst j).setFld Blk.rst 0x10C 0 4 0 := ⟨_, rfl⟩
  have hreg : u.reg Blk.rst 0x100 = last := by
    rw [hu]
    unfold State.setFld
    rw [State.reg_setReg_ne _ _ (by decide)]
    exact State.reg_setReg_self s _ _ _
  have hevc : u.evc Blk.rst j = s.evc Blk.rst j + 1 := by rw [hu]; exact State.evc_bump_self (s.setReg Blk.rst 0x100 last) _ _
  have hrst : u.rst = s.rst := by rw [hu]; rfl
  have haon : u.aon = s.aon := by rw [hu]; rfl
  have hclk : u.clk = s.clk := by rw [hu]; rfl
  obtain ⟨h1, h2, h3, h4, h5, h6, -, h8⟩ := u.warmScope_leaves
  obtain ⟨k1, k2⟩ := u.warmScope_rst
  have hdef : s.recordedReset last j = u.warmScope := by rw [hu]; rfl
  rw [hdef, k1 _ (by omega), k2 _ hj, hreg, hevc, h4, h5, h6, h8, hrst, haon, hclk]
  exact ⟨rfl, rfl, h1, h2, h3, rfl, rfl, rfl, rfl⟩

theorem warmnAssert_yields {s : State} (hporn : s.rst.porn = false) (hpor : s.aon.porHeld = false) (hdog : s.rst.wdogDue = false)
    (hd : s.rst.classD = none) (hrom : s.rst.rom ≠ .halted) : Yields .warmnAssert s (fun t =>
    fld (t.reg Blk.rst 0x100) 0 3 = 2 ∧ fld (t.reg Blk.rst 0x100) 16 4 = s.stage ∧ t.evc Blk.rst 2 = s.evc Blk.rst 2 + 1 ∧
    t.rst.rom = .start ∧ t.clk.now = s.clk.now ∧ t.aon.cal = s.aon.cal ∧ t.aon.grave = s.aon.grave ∧ t.aon.pwr = 1 ∧
    t.mem = {} ∧ t.queues = [] ∧ t.fmn = {} ∧ t.qch.st = (if s.aon.grave.isSome then .grave else .disarmed)) := by
  have hexec : exec .warmnAssert s = done s (s.recordedReset (at_ s.stage 16 4 ||| at_ 0 8 8 ||| at_ 2 0 3) 2) := by
    show execWarmnAssert s = _
    unfold execWarmnAssert
    rw [hporn, hpor]
    unfold State.warmReset
    rw [hdog, hd]
    exact congrArg (done s) (if_neg hrom)
  obtain ⟨h1, h2, h3, h4, h5, h6, h7, h8, h9⟩ := s.recordedReset_leaves (at_ s.stage 16 4 ||| at_ 0 8 8 ||| at_ 2 0 3) (j := 2) (by omega)
  generalize s.recordedReset (at_ s.stage 16 4 ||| at_ 0 8 8 ||| at_ 2 0 3) 2 = u at *
  have hstage : s.stage % 2 ^ 4 = s.stage := Nat.mod_eq_of_lt (fld_lt _ 0 4)
  refine yields_done hexec ?_
  rw [finish_qch_of_not_armed s (by rw [h9]; exact resetSt_ne_armed _), finish_reg_rst _ _ (by omega), finish_evc_rst _ _ (by omega), finish_rst,
    finish_clk, finish_aon, finish_mem, finish_queues, finish_fmn, h1, h2, h6, h7, h8, h9]
  refine ⟨?_, ?_, rfl, rfl, rfl, rfl, rfl, rfl, h3, h4, h5, rfl⟩
  · rw [fld_or, fld_or, fld_at_self _ (by omega), fld_at_of_disjoint _ (by omega) (by omega), fld_at_of_disjoint _ (by omega) (by omega)]
    rfl
  · rw [fld_or, fld_or, fld_at_self _ (by omega), fld_at_of_disjoint _ (by omega) (by omega), fld_at_of_disjoint _ (by omega) (by omega),
      hstage, Nat.or_zero, Nat.or_zero]
theorem classDReset_yields {s : State} {d : Nat} (hd : s.rst.classD = some d) (hdog : s.rst.wdogDue = false) (hrom : s.rst.rom ≠ .halted) :
    Yields .classDReset s (fun t => fld (t.reg Blk.rst 0x100) 0 3 = 4 ∧ fld (t.reg Blk.rst 0x100) 8 8 = d % 256 ∧
      t.evc Blk.rst 4 = s.evc Blk.rst 4 + 1 ∧ t.rst.classD = none ∧ t.rst.rom = .start ∧ t.mem = {} ∧ t.aon.cal = s.aon.cal ∧
      t.clk.now = s.clk.now) := by
  have hexec : exec .classDReset s = done s (s.recordedReset (at_ s.stage 16 4 ||| at_ d 8 8 ||| at_ 4 0 3) 4) := by
    show execClassDReset s = _
    unfold execClassDReset
    rw [hd, Option.isSome_some, if_pos rfl]
    unfold State.warmReset
    rw [hdog, hd]
    exact congrArg (done s) (if_neg hrom)
  obtain ⟨h1, h2, h3, -, -, h6, h7, h8, h9⟩ := s.recordedReset_leaves (at_ s.stage 16 4 ||| at_ d 8 8 ||| at_ 4 0 3) (j := 4) (by omega)
  generalize s.recordedReset (at_ s.stage 16 4 ||| at_ d 8 8 ||| at_ 4 0 3) 4 = u at *
  refine yields_done hexec ?_
  rw [finish_reg_rst _ _ (by omega), finish_evc_rst _ _ (by omega), finish_rst, finish_clk, finish_aon, finish_mem, h1, h2, h6, h7, h8]
  refine ⟨?_, ?_, rfl, rfl, rfl, h3, rfl, rfl⟩
  · rw [fld_or, fld_or, fld_at_self _ (by omega), fld_at_of_disjoint _ (by omega) (by omega), fld_at_of_disjoint _ (by omega) (by omega)]
    rfl
  · rw [fld_or, fld_or, fld_at_self _ (by omega), fld_at_of_disjoint _ (by omega) (by omega), fld_at_of_disjoint _ (by omega) (by omega),
      Nat.or_zero, Nat.zero_or]
    rfl

/-! ## PERSTn -/

/-- What the scope of PERSTn leaves alone, beside its own event: the clocks, the always-on core and the RST frame. -/
abbrev perstParts : List StatePart := tearParts ++ [.rst, .bus]

theorem only_queueReset (s : State) (q : Nat) (mismatch : Bool) : Only [.queues, .sch, .regs 6] s (s.queueReset q mismatch) := by
  have h1 : ∀ x, Only [.queues, .sch, .regs 6] s (s.setQueue q x) := fun x => (only_setQueue s q x).mono (by simp)
  have h2 : ∀ (t : State) (x : Sch), Only [.queues, .sch, .regs 6] t { t with sch := x } := fun t x => (only_setSch t x).mono (by simp)
  have h3 : ∀ (t : State) w, Only [.queues, .sch, .regs 6] t (t.bumpInfo Blk.que 3 0x118 w) := fun t w =>
    (only_bumpInfo t Blk.que (by omega) (by omega) w).mono (by simp)
  have h4 : ∀ t : State, Only [.queues, .sch, .regs 6] t (t.bump Blk.que 4) := fun t => (only_bump t Blk.que (by omega)).mono (by simp)
  have hset : ∀ x, Only [.queues, .sch, .regs 6] s (if q < 64 && s.qEn q then { s.setQueue q x with sch := { (s.setQueue q x).sch with
      resetDue := (s.setQueue q x).sch.resetDue ++ [(q, (s.queue q).occ)], ctxs := if q % 2 = 0 then
        Tab.upd (fun _ => ({} : Ctx)) (s.setQueue q x).sch.ctxs (q / 2) (fun c => { c with flushLeft := 0 }) else (s.setQueue q x).sch.ctxs } }
      else s.setQueue q x) := fun x => Only.ite (fun _ => (h2 _ _).after (h1 x)) fun _ => h1 x
  unfold State.queueReset
  dsimp only
  exact Only.ite (fun _ => (h3 _ _).after (hset _)) fun _ => (h4 _).after (hset _)
/-- How the scope of PERSTn ends: of the endpoint the accesses on their way stay. -/
def State.perstEnd (s : State) (pin : Bool) : State :=
  { s with
    sch.resetDue := []
    bus := { posted := s.bus.posted, doorbells := s.bus.doorbells, chipId := s.bus.chipId }
    rst.perst := pin || s.rst.perst, rst.trainingDue := true }
theorem perst_parts (s : State) (pin : Bool) : ∃ u, Only tearParts s u ∧
    s.perstScope pin = ((u.bump Blk.rst 5).frameReset Blk.pcie).perstEnd pin := by
  refine ⟨_, ?_, rfl⟩
  refine Only.foldlAfter (fun t m _ => (only_setMb t m _).mono (by decide)) ?_
  refine Only.foldlAfter (fun t c _ => (only_setSch t _).mono (by decide)) ?_
  refine Only.foldlAfter (fun t q hq => Only.ite (fun _ => ?_) fun _ => Only.refl _ t) ?_
  · have := List.mem_range.1 hq
    exact (tear_queueOff _ (by omega)).after ((only_queueReset t q false).mono (by decide))
  refine Only.foldlAfter (fun t c _ => tear_teardownFree t c) ?_
  exact Only.foldl (fun t e _ => Only.ite (fun _ => tear_setEgress t e _) fun _ => Only.refl _ t) s
theorem perstnAssert_yields (pin : Bool) (s : State) : Yields (.perstnAssert pin) s (fun t => t.evc Blk.rst 5 = s.evc Blk.rst 5 + 1 ∧
    t.bus.linkUp = false ∧ t.rst.perst = (pin || s.rst.perst) ∧ t.aon = s.aon ∧ t.rst.rom = s.rst.rom ∧ t.clk = s.clk) := by
  obtain ⟨u, hu, hscope⟩ := perst_parts s pin
  have hexec : exec (.perstnAssert pin) s = done s (s.perstScope pin) := rfl
  have hframe := only_frameReset (u.bump Blk.rst 5) Blk.pcie
  have hbump : Only [.regs 4] u (u.bump Blk.rst 5) := only_bump u Blk.rst (by omega)
  have hevc := hframe.evc (b := Blk.rst) (j := 5) (by decide) (by omega)
  rw [State.evc_bump_self, hu.evc (by decide) (by omega)] at hevc
  have hrst := (hframe .rst (by decide)).trans ((hbump .rst (by decide)).trans (hu .rst (by decide)))
  have haon := (hframe.aon (by decide)).trans ((hbump.aon (by decide)).trans (hu.aon (by decide)))
  have hclk := (hframe.clk (by decide)).trans ((hbump.clk (by decide)).trans (hu.clk (by decide)))
  generalize (u.bump Blk.rst 5).frameReset Blk.pcie = w at *
  refine yields_done (hexec.trans (by rw [hscope])) ?_
  rw [finish_evc_rst _ _ (by omega), finish_bus, finish_rst, finish_aon, finish_clk]
  exact ⟨hevc, rfl, congrArg (fun r : Rst => pin || r.perst) hrst, haon, show w.rst.rom = _ from congrArg Rst.rom hrst, hclk⟩

/-! ## The reset of a block, TRSTn, and the end of the power-on reset -/

theorem blockReset_halt_yields {i : BitVec 8} (s : State) (h : haltGroup i.toNat = true) : Yields (.blockReset i) s (fun t =>
    t.evc Blk.rst 7 = s.evc Blk.rst 7 + 1 ∧ (∀ o, 0x100 ≤ o → o < 0x10000 → i.toNat ≠ 21 → i.toNat < 22 ∨ 25 < i.toNat →
      t.reg i.toNat o = regDefault (regKey i.toNat o)) ∧ t.aon = s.aon ∧ t.clk = s.clk) := by
  have hexec : exec (.blockReset i) s = done s ((s.blockReset i.toNat).bump Blk.rst 7) := congrArg (done s) (if_pos h)
  have hne : i.toNat ≠ 4 ∧ i.toNat ≠ 27 := ⟨fun e => by rw [e] at h; exact absurd h (by decide), fun e => by rw [e] at h; exact absurd h (by decide)⟩
  have ho := only_blockReset s i.toNat
  have hr : StatePart.regs 4 ∉ (.regs i.toNat :: .halts :: .copies :: blockParts : List StatePart) := by simp [hne.1.symm]
  have hreg : ∀ o, o < 0x10000 → (s.blockReset i.toNat).reg i.toNat o = regDefault (regKey i.toNat o) := fun o h =>
    State.reg_frameReset_self _ _ h
  generalize s.blockReset i.toNat = u at *
  refine yields_done hexec ?_
  rw [finish_evc_rst _ _ (by omega), finish_aon, finish_clk, State.evc_bump_self, ho.evc hr (by omega)]
  refine ⟨rfl, fun o _ hlt _ hb => ?_, ho.aon (by simp), ho.clk (by simp)⟩
  rw [finish_reg _ _ hlt (by unfold tripBlk; omega)]
  exact hreg o hlt
theorem blockReset_other_yields {i : BitVec 8} (s : State) (h : haltGroup i.toNat = false) : Yields (.blockReset i) s (fun t =>
    t.evc Blk.rst 9 = s.evc Blk.rst 9 + 1 ∧ t.aon = s.aon ∧ t.mem = s.mem ∧ t.queues = s.queues ∧ t.fmn = s.fmn) := by
  have hexec : exec (.blockReset i) s = done s (s.bump Blk.rst 9) := congrArg (done s) (if_neg (by simp [h]))
  refine yields_done hexec ?_
  rw [finish_evc_rst _ _ (by omega), finish_aon, finish_mem, finish_queues, finish_fmn]
  exact ⟨State.evc_bump_self s _ _, rfl, rfl, rfl, rfl⟩
/-- How the power-on reset of the always-on domain begins. -/
def State.aonHeld (s : State) : State :=
  { s with
    aon := { grave := s.aon.grave, porHeld := true }
    baro := {}
    clk.domains := [] }
theorem State.aonHeld_eq (s : State) : ({ ({ s with
      aon := { grave := s.aon.grave, porHeld := s.aon.porHeld }
      baro := {}
      clk.domains := [] } : State) with aon.porHeld := true } : State) = s.aonHeld := rfl
theorem aonPowerOnReset_yields (s : State) : Yields .aonPowerOnReset s (fun t => t.aon.porHeld = true ∧ t.aon.cal = {} ∧ t.aon.unset = true ∧
    t.aon.grave = s.aon.grave ∧ t.clk.now = 0 ∧ t.mem = {} ∧ t.sec.otp = s.sec.otp) := by
  obtain ⟨h1, -, -, h4, h5, h6, -⟩ := s.porScope_leaves
  have hexec : exec .aonPowerOnReset s = done s ((s.porScope.frameReset Blk.aon).aonHeld) := by
    show execAonPowerOnReset s = _
    unfold execAonPowerOnReset State.aonScope
    exact congrArg (done s) (State.aonHeld_eq _)
  have hframe := only_frameReset s.porScope Blk.aon
  have haon := (hframe.aon (by decide)).trans h4
  have hclk := (congrArg Clk.now (hframe.clk (by decide))).trans h5
  have hmem := (hframe.mem (by decide)).trans h1
  have hsec := (congrArg Sec.otp (hframe .sec (by decide))).trans h6
  generalize s.porScope.frameReset Blk.aon = u at *
  refine yields_done hexec ?_
  rw [finish_aon, finish_clk, finish_mem, finish_sec]
  exact ⟨rfl, rfl, rfl, (congrArg Aon.grave haon).trans rfl, hclk, hmem, hsec⟩
theorem aonPowerOnResetEnd_yields (b c : Fin 4) (us : Nat) {s : State} (h : s.aon.porHeld = true) : Yields (.aonPowerOnResetEnd b c us) s (fun t =>
    t.aon.porHeld = false ∧ t.rst.boot = b.val ∧ t.bus.chipId = c.val ∧ (us < 2000 → t.aon.grave = s.aon.grave) ∧
    (10000 ≤ us → t.aon.grave = none) ∧ (t.aon.grave = none → t.qch.st = .disarmed) ∧ (t.aon.grave ≠ none → t.qch.st = .grave)) := by
  obtain ⟨x, hx⟩ : ∃ x : Bool × State, x = if 2000 ≤ us ∧ us < 10000 then s.takeBool else (decide (us < 2000), s) := ⟨_, rfl⟩
  have hsame : x.2.aon = s.aon ∧ x.2.qch = s.qch := by rw [hx]; split <;> exact ⟨rfl, rfl⟩
  obtain ⟨u, hu⟩ : ∃ u : State, u = { x.2.sampleStraps b c with
      aon := { s.aon with porHeld := false, grave := if x.1 then s.aon.grave else none }
      qch := { s.qch with st := if (if x.1 then s.aon.grave else none).isSome then .grave else .disarmed } } := ⟨_, rfl⟩
  have hexec : exec (.aonPowerOnResetEnd b c us) s = done s u := by
    show execAonPowerOnResetEnd b c us s = _
    unfold execAonPowerOnResetEnd
    rw [h, if_neg (by simp), ← hx, hu, ← hsame.1, ← hsame.2]
    rfl
  have hq : u.qch.st = if (if x.1 then s.aon.grave else none).isSome then .grave else .disarmed := by rw [hu]
  refine yields_done hexec ?_
  rw [finish_qch_of_not_armed s (by rw [hq]; exact resetSt_ne_armed _), finish_aon, finish_rst, finish_bus, hq, hu]
  refine ⟨rfl, rfl, rfl, fun hus => ?_, fun hus => ?_, fun hg => ?_, fun hg => ?_⟩
  · have hx1 : x.1 = true := by rw [hx, if_neg (by omega)]; simpa using hus
    exact if_pos hx1
  · have hx1 : x.1 = false := by rw [hx, if_neg (by omega)]; simp; omega
    exact if_neg (by simp [hx1])
  · replace hg : (if x.1 then s.aon.grave else none) = none := hg
    rw [hg]; rfl
  · replace hg : (if x.1 then s.aon.grave else none) ≠ none := hg
    obtain ⟨g, hg⟩ := Option.ne_none_iff_exists'.1 hg
    rw [hg]; rfl

/-- Settles O13: each scope by what it leaves (`warmScope_leaves`, `porScope_leaves`, `perst_parts`, `only_blockReset`). -/
theorem resets : Obligations.Resets := by
  refine ⟨pornAssert_yields, fun b c s => pornRelease_yields b c, fun s => warmnAssert_yields, fun s d => classDReset_yields, perstnAssert_yields,
    fun s => ?_, fun i s => blockReset_halt_yields s, fun i s => blockReset_other_yields s, fun s => ?_, aonPowerOnReset_yields,
    fun b c us s => aonPowerOnResetEnd_yields b c us⟩
  · refine yields_done (s' := { s with rst.perst := false, aon.peWake := false }) rfl ?_
    rw [finish_rst, finish_aon, finish_mem, finish_bus]
    exact ⟨rfl, rfl, rfl, rfl⟩
  · refine yields_done (s' := { s with jtag := {} }) rfl ?_
    rw [finish_jtag, finish_aon, finish_mem, finish_sec]
    exact ⟨rfl, rfl, rfl, rfl⟩
end Sys2Proof.Machine
end

section
/-! The boot ROM's path to firmware, and the PCI Express link. -/
namespace Sys2Proof.Machine
open Sys2Proof

/-! ## A field written in a register -/

/-- A number with the n bits at lo replaced. -/
theorem setField_parts (w lo n v : Nat) : ∃ a c, a < 2 ^ lo ∧ w = a + 2 ^ lo * (w / 2 ^ lo % 2 ^ n + 2 ^ n * c) ∧
    w - w / 2 ^ lo % 2 ^ n * 2 ^ lo + v * 2 ^ lo = a + 2 ^ lo * (v + 2 ^ n * c) := by
  have h1 := Nat.mod_add_div w (2 ^ lo)
  have h2 := Nat.mod_add_div (w / 2 ^ lo) (2 ^ n)
  refine ⟨w % 2 ^ lo, w / 2 ^ lo / 2 ^ n, Nat.mod_lt _ (Nat.two_pow_pos lo), by rw [h2]; exact h1.symm, ?_⟩
  have hw : w = w % 2 ^ lo + 2 ^ lo * (2 ^ n * (w / 2 ^ lo / 2 ^ n)) + w / 2 ^ lo % 2 ^ n * 2 ^ lo := by
    conv_lhs => rw [← h1, ← h2]
    ring
  have hsub : w - w / 2 ^ lo % 2 ^ n * 2 ^ lo = w % 2 ^ lo + 2 ^ lo * (2 ^ n * (w / 2 ^ lo / 2 ^ n)) := by omega
  rw [hsub]
  ring
theorem State.fld_setFld_self (s : State) (b o : Nat) {lo n : Nat} (v : Nat) (h : lo + n ≤ 32) :
    fld ((s.setFld b o lo n v).reg b o) lo n = v % 2 ^ n := by
  obtain ⟨a, c, ha, -, hnew⟩ := setField_parts (s.reg b o).toNat lo n (v % 2 ^ n)
  unfold State.setFld
  dsimp only
  rw [State.reg_setReg_self, fld_ofNat _ h]
  unfold fld
  rw [hnew, Nat.add_mul_div_left _ _ (Nat.two_pow_pos lo), Nat.div_eq_of_lt ha, Nat.zero_add, Nat.add_mul_mod_self_left, Nat.mod_mod]
theorem State.fld_setFld_above (s : State) (b o : Nat) {lo n lo' n' : Nat} (v : Nat) (h : lo + n ≤ lo') (h' : lo' + n' ≤ 32) :
    fld ((s.setFld b o lo n v).reg b o) lo' n' = fld (s.reg b o) lo' n' := by
  obtain ⟨a, c, ha, hold, hnew⟩ := setField_parts (s.reg b o).toNat lo n (v % 2 ^ n)
  obtain ⟨k, rfl⟩ := Nat.exists_eq_add_of_le h
  have hv := Nat.mod_lt v (Nat.two_pow_pos n)
  have hb := Nat.mod_lt ((s.reg b o).toNat / 2 ^ lo) (Nat.two_pow_pos n)
  have hdiv : ∀ x, x < 2 ^ n → (a + 2 ^ lo * (x + 2 ^ n * c)) / 2 ^ (lo + n + k) = c / 2 ^ k := fun x hx => by
    rw [pow_add, pow_add, ← Nat.div_div_eq_div_mul, ← Nat.div_div_eq_div_mul, Nat.add_mul_div_left _ _ (Nat.two_pow_pos lo),
      Nat.div_eq_of_lt ha, Nat.zero_add, Nat.add_mul_div_left _ _ (Nat.two_pow_pos n), Nat.div_eq_of_lt hx, Nat.zero_add]
  unfold State.setFld
  dsimp only
  rw [State.reg_setReg_self, fld_ofNat _ h']
  unfold fld
  rw [hnew, hdiv _ hv]
  conv_rhs => rw [hold, hdiv _ hb]
theorem State.fld_setFld_below (s : State) (b o : Nat) {lo n lo' n' : Nat} (v : Nat) (h : lo' + n' ≤ lo) (h' : lo + n ≤ 32) :
    fld ((s.setFld b o lo n v).reg b o) lo' n' = fld (s.reg b o) lo' n' := by
  obtain ⟨a, c, ha, hold, hnew⟩ := setField_parts (s.reg b o).toNat lo n (v % 2 ^ n)
  obtain ⟨k, rfl⟩ := Nat.exists_eq_add_of_le h
  have hdiv : ∀ x, (a + 2 ^ (lo' + n' + k) * x) / 2 ^ lo' % 2 ^ n' = a / 2 ^ lo' % 2 ^ n' := fun x => by
    rw [show a + 2 ^ (lo' + n' + k) * x = a + 2 ^ lo' * (2 ^ n' * (2 ^ k * x)) by ring, Nat.add_mul_div_left _ _ (Nat.two_pow_pos lo'),
      Nat.add_mul_mod_self_left]
  unfold State.setFld
  dsimp only
  rw [State.reg_setReg_self, fld_ofNat _ (by omega)]
  unfold fld
  rw [hnew, hdiv]
  conv_rhs => rw [hold, hdiv]

/-! ## STAGE -/

theorem State.stage_setStage (s : State) (n : Nat) (h : n < 16) : (s.setStage n).stage = n := by
  unfold State.setStage State.stage
  rw [State.fld_setFld_self _ _ _ _ (by omega)]
  omega
theorem State.stage_setFld_above (s : State) {lo n : Nat} (v : Nat) (h : 4 ≤ lo) (h' : lo + n ≤ 32) : (s.setFld Blk.rst 0x10C lo n v).stage = s.stage :=
  s.fld_setFld_below Blk.rst 0x10C v (by omega) h'
theorem finish_stage (s0 s : State) : (finish s0 s).stage = s.stage := by
  unfold State.stage
  rw [finish_reg_rst _ _ (by omega)]

/-! ## The ROM -/

theorem mbyte_zeroTcm (s : State) {a : Nat} (h : inTcm a = true) : s.zeroTcm.mbyte a = 0 := by
  simp only [inTcm, Bool.and_eq_true, decide_eq_true_eq] at h
  show Tab.get zeroByte (Tab.clear (fun k => decide (0x30100000 ≤ k ∧ k < 0x30100000 + 0x80000)) s.mem.bytes) a = 0
  rw [Tab.get_clear, if_pos (by simp; omega)]
  rfl
/-- The state in which the ROM has set the TCM to zeros. -/
def State.romStarted (s : State) : State :=
  (({ s with rf.parityBad := Tab.clear (fun k => k / 0x10000 == Blk.rst) s.rf.parityBad } : State).setStage 0).zeroTcm
theorem exec_bootRomStart {s : State} (ok : Bool) (h : s.rst.rom = .start) (hr : s.romRuns = true) : exec (.bootRomStart ok) s =
    done s (if !ok then s.romStarted.romHalt 2 else if s.rst.boot = 3 then s.romStarted.romHalt 1
      else { s.romStarted.setStage 1 with rst.rom := .clocks }) := congrArg (done s) (if_pos ⟨h, hr⟩)
theorem State.stage_setRst (s : State) (x : Rst) : ({ s with rst := x } : State).stage = s.stage := rfl
theorem State.reg_setRst (s : State) (x : Rst) (b o : Nat) : ({ s with rst := x } : State).reg b o = s.reg b o := rfl
theorem State.romHalt_leaves (s : State) (code : Nat) : (s.romHalt code).rst.rom = .halted ∧ (s.romHalt code).stage = 15 ∧
    fld ((s.romHalt code).reg Blk.rst 0x10C) 20 4 = code % 2 ^ 4 :=
  ⟨rfl, (State.stage_setRst _ _).trans ((State.stage_setFld_above _ code (by omega) (by omega)).trans (State.stage_setStage _ 15 (by omega))),
    (congrArg (fld · 20 4) (State.reg_setRst _ _ _ _)).trans (State.fld_setFld_self _ _ _ code (by omega))⟩
theorem bootRomStart_ok_yields {s : State} (h : s.rst.rom = .start) (hr : s.romRuns = true) (hb : s.rst.boot ≠ 3) :
    Yields (.bootRomStart true) s (fun t => t.rst.rom = .clocks ∧ t.stage = 1 ∧ (∀ a, inTcm a = true → t.mbyte a = 0) ∧ t.clk = s.clk) := by
  have hexec := exec_bootRomStart true h hr
  rw [Bool.not_true, if_neg (by simp), if_neg hb] at hexec
  have hz : ∀ a, inTcm a = true → s.romStarted.mbyte a = 0 := fun a ha => mbyte_zeroTcm _ ha
  have hclk : s.romStarted.clk = s.clk := rfl
  generalize s.romStarted = u at *
  refine yields_done hexec ?_
  simp only [finish_rst, finish_stage, finish_mbyte, finish_clk]
  exact ⟨trivial, (State.stage_setRst _ _).trans (u.stage_setStage 1 (by omega)), hz, hclk⟩
theorem bootRomStart_bad_yields {s : State} (h : s.rst.rom = .start) (hr : s.romRuns = true) : Yields (.bootRomStart false) s (fun t =>
    t.rst.rom = .halted ∧ t.stage = 15 ∧ fld (t.reg Blk.rst 0x10C) 20 4 = 2) := by
  have hexec := exec_bootRomStart false h hr
  rw [Bool.not_false, if_pos rfl] at hexec
  refine yields_done hexec ?_
  rw [finish_rst, finish_stage, finish_reg_rst _ _ (by omega)]
  exact s.romStarted.romHalt_leaves 2

theorem State.seqMove_active (s : State) (d c : Nat) : ((s.seqMove d c).domain d).active = c ∧
    ∀ e, e ≠ d → (s.seqMove d c).domain e = s.domain e := by
  unfold State.seqMove
  dsimp only
  split
  · next h => exact ⟨h, fun _ _ => rfl⟩
  · exact ⟨congrArg Domain.active (State.domain_setDomain_self s d _), fun e he => State.domain_setDomain_ne s _ he⟩
theorem only_seqMove (s : State) (d c : Nat) : Only [.clk, .regs 3] s (s.seqMove d c) :=
  Only.ite (fun _ => Only.refl _ s) fun _ => ((only_bump _ Blk.clk (by omega)).mono (by simp)).after ((only_setDomain s d _).mono (by simp))
theorem bootClocks_yields {s : State} (h : s.rst.rom = .clocks) (h1 : s.srcReady 1 = true) (h8 : s.srcReady 8 = true) (hr : s.romRuns = true) :
    Yields .bootClocks s (fun t => (t.domain 1).active = 8 ∧ (t.domain 2).active = 8 ∧ (t.domain 5).active = 8 ∧
      (s.rst.boot = 1 → t.rst.rom = .waitPush ∧ t.rst.window = true ∧ t.stage = 3) ∧ (s.rst.boot ≠ 1 → t.stage = 2) ∧ t.mem = s.mem) := by
  obtain ⟨u, hu⟩ : ∃ u, u = ((s.seqMove 1 8).seqMove 2 8).seqMove 5 8 := ⟨_, rfl⟩
  have ho : Only [.clk, .regs 3] s u := hu ▸ ((only_seqMove s 1 8).trans (only_seqMove _ 2 8)).trans (only_seqMove _ 5 8)
  obtain ⟨a1, -⟩ := s.seqMove_active 1 8
  obtain ⟨b1, b2⟩ := (s.seqMove 1 8).seqMove_active 2 8
  obtain ⟨c1, c2⟩ := ((s.seqMove 1 8).seqMove 2 8).seqMove_active 5 8
  rw [← hu] at c1 c2
  have d1 : (u.domain 1).active = 8 := by rw [c2 1 (by omega), b2 1 (by omega)]; exact a1
  have d2 : (u.domain 2).active = 8 := by rw [c2 2 (by omega)]; exact b1
  have hexec : exec .bootClocks s = done s (if s.rst.boot = 1 then u.openWindow else
      { (u.setFld Blk.rst 0x10C 8 8 0).setStage 2 with
        rst.rom := .flashHeader ((u.setFld Blk.rst 0x10C 8 8 0).setStage 2).firstSlot (some (1 - ((u.setFld Blk.rst 0x10C 8 8 0).setStage 2).firstSlot)) }) := by
    rw [hu]
    exact congrArg (done s) (if_pos ⟨h, h1, h8, hr⟩)
  by_cases hb : s.rst.boot = 1
  · rw [if_pos hb] at hexec
    refine yields_done hexec ?_
    simp only [finish_domain, finish_rst, finish_stage, finish_mem]
    exact ⟨d1, d2, c1, fun _ => ⟨rfl, rfl, (State.stage_setRst _ _).trans (u.stage_setStage 3 (by omega))⟩, fun hne => absurd hb hne, ho.mem (by simp)⟩
  · rw [if_neg hb] at hexec
    refine yields_done hexec ?_
    simp only [finish_domain, finish_rst, finish_stage, finish_mem]
    exact ⟨d1, d2, c1, fun he => absurd he hb, fun _ => (State.stage_setRst _ _).trans (State.stage_setStage _ 2 (by omega)), ho.mem (by simp)⟩

theorem flashSlotCheck_ok_yields {s : State} {k : Nat} {r : Option Nat} (h : s.rst.rom = .flashHeader k r) (hr : s.romRuns = true)
    (hh : s.headerReason (s.flashBytes (slotAddr k) 0x200) = none) :
    Yields .flashSlotCheck s (fun t => t.rst.rom = .flashPayload k r ∧ t.aon = s.aon ∧ t.fmn = s.fmn) := by
  obtain ⟨u, hu, hexec⟩ : ∃ u : State, (u.aon = s.aon ∧ u.fmn = s.fmn) ∧
      exec .flashSlotCheck s = done s { u with rst.rom := .flashPayload k r } := by
    refine ⟨s.store 0x30100000 (s.flashBytes (slotAddr k + 0x200) (bytesAt (s.flashBytes (slotAddr k) 0x200) 8 4)), ⟨rfl, rfl⟩, ?_⟩
    show execFlashSlotCheck s = _
    unfold execFlashSlotCheck
    rw [h]
    dsimp only
    rw [hr, hh]
    rfl
  refine yields_done hexec ?_
  rw [finish_rst, finish_aon, finish_fmn]
  exact ⟨rfl, hu⟩
theorem flashSlotCheck_bad_yields {s : State} {k n c : Nat} (h : s.rst.rom = .flashHeader k (some n)) (hr : s.romRuns = true)
    (hh : s.headerReason (s.flashBytes (slotAddr k) 0x200) = some c) :
    Yields .flashSlotCheck s (fun t => t.rst.rom = .flashHeader n none ∧ t.mem = s.mem) := by
  have hexec : exec .flashSlotCheck s = done s { s.setReason k c with rst.rom := .flashHeader n none } := by
    show execFlashSlotCheck s = _
    unfold execFlashSlotCheck
    rw [h]
    dsimp only
    rw [hr, hh]
    rfl
  refine yields_done hexec ?_
  rw [finish_rst, finish_mem]
  exact ⟨rfl, rfl⟩
theorem payloadHashCheck_ok_yields {s : State} {k : Nat} {r : Option Nat} (h : s.rst.rom = .flashPayload k r) (hr : s.romRuns = true)
    (hh : sha384 (s.mbytes 0x30100000 (bytesAt (s.flashBytes (slotAddr k) 0x200) 8 4)) = payloadHash (s.flashBytes (slotAddr k) 0x200)) :
    Yields .payloadHashCheck s (fun t => t.rst.rom = .accepted ∧
      t.rst.image = parseImage k (s.flashBytes (slotAddr k) 0x200) ∧ t.mem = s.mem) := by
  have hexec : exec .payloadHashCheck s = done s { s.setReason k 8 with
      rst := { s.rst with rom := .accepted, image := parseImage k (s.flashBytes (slotAddr k) 0x200) } } := by
    show execPayloadHashCheck s = _
    unfold execPayloadHashCheck
    rw [h]
    dsimp only
    rw [hr, if_neg (by simp), if_pos hh]
    rfl
  refine yields_done hexec ?_
  rw [finish_rst, finish_mem]
  exact ⟨rfl, rfl, rfl⟩

theorem bootPushGo_yields (s : State) : (s.rst.rom = .waitPush → Yields .bootPushGo s (fun t => t.rst.rom = .pushVerify ∧
      t.rst.window = false ∧ t.stage = 4 ∧ t.mem = s.mem)) ∧
    (s.rst.rom ≠ .waitPush → Yields .bootPushGo s (fun t => t.rst = s.rst ∧ t.evc Blk.rst 9 = s.evc Blk.rst 9 + 1 ∧ t.mem = s.mem)) := by
  refine ⟨fun h => ?_, fun h => ?_⟩
  · have hexec : exec .bootPushGo s = done s { s.setStage 4 with rst := { s.rst with rom := .pushVerify, window := false } } :=
      congrArg (done s) (if_pos h)
    refine yields_done hexec ?_
    rw [finish_rst, finish_stage, finish_mem]
    exact ⟨rfl, rfl, (State.stage_setRst _ _).trans (s.stage_setStage 4 (by omega)), rfl⟩
  · have hexec : exec .bootPushGo s = done s (s.bump Blk.rst 9) := congrArg (done s) (if_neg h)
    refine yields_done hexec ?_
    rw [finish_rst, finish_evc_rst _ _ (by omega), finish_mem]
    exact ⟨rfl, State.evc_bump_self s _ _, rfl⟩
theorem pushVerifyEnd_ok_yields {s : State} (h : s.rst.rom = .pushVerify) (hr : s.romRuns = true) (hh : s.headerReason (s.mbytes 0 0x200) = none)
    (hp : sha384 (s.mbytes 0x200 (bytesAt (s.mbytes 0 0x200) 8 4)) = payloadHash (s.mbytes 0 0x200)) :
    Yields .pushVerifyEnd s (fun t => t.rst.rom = .accepted ∧ t.rst.image = parseImage 2 (s.mbytes 0 0x200) ∧ t.aon = s.aon ∧ t.fmn = s.fmn) := by
  have hexec : exec .pushVerifyEnd s = done s { (s.store 0x30100000 (s.mbytes 0x200 (bytesAt (s.mbytes 0 0x200) 8 4))).setFld Blk.rst 0x10C 16 4 8 with
      rst := { s.rst with rom := .accepted, image := parseImage 2 (s.mbytes 0 0x200) } } := by
    show execPushVerifyEnd s = _
    unfold execPushVerifyEnd
    rw [if_pos ⟨h, hr⟩]
    dsimp only
    rw [hh]
    dsimp only
    rw [if_pos hp]
    rfl
  refine yields_done hexec ?_
  rw [finish_rst, finish_aon, finish_fmn]
  exact ⟨rfl, rfl, rfl, rfl⟩

/-! ## Hand-off and the start of the firmware -/

theorem Only.stage {l : List StatePart} {s t : State} (h : Only l s t) (hl : .regs 4 ∉ l) : t.stage = s.stage := by
  unfold State.stage
  rw [h.reg hl (by omega)]
theorem fwInitHandoff_yields {s : State} (h : s.rst.rom = .accepted) (hr : s.romRuns = true) : Yields .fwInitHandoff s (fun t =>
    t.rst.rom = .firmware ∧ t.stage = 5 ∧ t.wdogOn = true ∧ t.wdogPeriod = 8000 * tbMs ∧ t.fmn.wdogFrom = s.clk.now ∧ t.mem = s.mem) := by
  obtain ⟨u, hu⟩ : ∃ u, u = ((s.setFld Blk.rst 0x10C 4 2 s.rst.image.slot).setFld Blk.rst 0x10C 24 6 s.rst.image.rollback).setStage 5 := ⟨_, rfl⟩
  have hstage : u.stage = 5 := hu ▸ State.stage_setStage _ 5 (by omega)
  have hmem : u.mem = s.mem := by rw [hu]; rfl
  have hclk : u.clk = s.clk := by rw [hu]; rfl
  obtain ⟨w, hw⟩ : ∃ w, w = (u.setReg Blk.fmn 0x100 0x8000000F).setReg Blk.mem 0x150 (BitVec.ofNat 32 (cdiv s.rst.image.len 4096 * 4096)) := ⟨_, rfl⟩
  have ho : Only [.regs 5, .regs 8] u w := hw ▸ ((only_setReg _ Blk.mem (by omega) _).mono (by simp)).after ((only_setReg u Blk.fmn (by omega) _).mono (by simp))
  have hreg : w.reg Blk.fmn 0x100 = 0x8000000F := by
    rw [hw, State.reg_setReg_ne _ _ (by decide), State.reg_setReg_self]
  have hexec : exec .fwInitHandoff s = done s { { w with rst.rom := .firmware } with fmn.wdogFrom := w.clk.now } := by
    rw [hw, hu]
    exact congrArg (done s) (if_pos ⟨h, hr⟩)
  refine yields_done hexec ?_
  rw [State.wdogOn, State.wdogPeriod, finish_reg _ _ (by omega) not_tripBlk_fmn, finish_rst, finish_stage, finish_fmn, finish_mem]
  refine ⟨rfl, (State.stage_setRst w { w.rst with rom := .firmware }).trans ((ho.stage (by decide)).trans hstage), ?_, ?_, ?_, (ho.mem (by decide)).trans hmem⟩
  · show (fld (w.reg Blk.fmn 0x100) 31 1 == 1) = true
    rw [hreg]
    decide
  · show (fld (w.reg Blk.fmn 0x100) 0 4 + 1) * 500 * tbMs = 8000 * tbMs
    rw [hreg]
    decide
  · show w.clk.now = s.clk.now
    rw [ho.clk (by decide), hclk]

/-- What the firmware sets before it chooses its epoch: the meters, the source of AON, the thresholds and the records of this boot. -/
abbrev firmwareParts : List StatePart := [.regs 3, .clk, .regs 2, .pins, .regs 8, .fmn]

theorem only_programMeter (s : State) {k : Nat} (hk : k < 8) (target ref nlog2 exp : Nat) (en : Bool) :
    Only [.regs 3] s (s.programMeter k target ref nlog2 exp en) := by
  unfold State.programMeter
  dsimp only
  exact (only_setReg _ Blk.clk (by omega) _).after ((only_setReg _ Blk.clk (by omega) _).after ((only_setReg _ Blk.clk (by omega) _).after
    ((only_setReg _ Blk.clk (by omega) _).after (only_setReg s Blk.clk (by omega) _))))
theorem only_clockSwitch (s : State) (d c : Nat) : Only [.regs 3, .clk] s (s.clockSwitch d c) ∧ (s.clockSwitch d c).clk.now = s.clk.now := by
  unfold State.clockSwitch
  split
  · exact ⟨(only_bumpInfo s Blk.clk (by omega) (by omega) _).mono (by simp), congrArg Clk.now (State.bumpInfo_clk s _ _ _ _)⟩
  · dsimp only
    split
    · exact ⟨(only_bump s Blk.clk (by omega)).mono (by simp), rfl⟩
    · exact ⟨(only_setDomain s d _).mono (by simp), rfl⟩
theorem only_setPins (s : State) (x : Pins) : Only [.pins] s { s with pins := x } := by
  intro p hp; cases p <;> simp_all [StatePart.same, State.reg, State.evc, State.ackOf]

/-- The records of this boot, of the cause of its reset. -/
def State.bootRecords (s : State) : State :=
  let last := s.reg Blk.rst 0x100
  let cause := fld last 0 3
  let s5 := if cause = 4 then s.logRecord 1 (fld last 8 8) 0xFF 0xFF 0 last.toNat
    else if cause = 3 then s.logRecord 4 0 0xFF 0xFF 0 last.toNat else s
  s5.logRecord 5 0 0xFF 0xFF 0 last.toNat
theorem only_bootRecords (s : State) : Only [.fmn] s s.bootRecords := by
  unfold State.bootRecords
  dsimp only
  exact (only_logRecord _ _ _ _ _ _ _).after (Only.ite (fun _ => only_logRecord s _ _ _ _ _ _) fun _ =>
    Only.ite (fun _ => only_logRecord s _ _ _ _ _ _) fun _ => Only.refl _ s)
/-- The clock meter's eight channels as the firmware programs them. -/
def State.meterPlan (s : State) (xlf : Bool) : State :=
  ((((((((s.programMeter 0 10 0 15 100000000 xlf).programMeter 1 9 0 15 80000000 xlf).programMeter 2 6 0 15
        200000000 xlf).programMeter 7 0 1 26 57266 xlf).programMeter 3 5 0 15 0 false).programMeter 4 7 0 15 0 false).programMeter 5 8 0 15 0 false).programMeter
        6 11 0 15 100000000 false)
theorem only_meterPlan (s : State) (xlf : Bool) : Only [.regs 3] s (s.meterPlan xlf) := by
  have h : ∀ (t : State) {k : Nat}, k < 8 → ∀ a b c d e, Only [.regs 3] t (t.programMeter k a b c d e) := fun t _ hk a b c d e =>
    only_programMeter t hk a b c d e
  exact ((((((((h s (by omega) _ _ _ _ _).trans (h _ (by omega) _ _ _ _ _)).trans (h _ (by omega) _ _ _ _ _)).trans (h _ (by omega) _ _ _ _ _)).trans
    (h _ (by omega) _ _ _ _ _)).trans (h _ (by omega) _ _ _ _ _)).trans (h _ (by omega) _ _ _ _ _)).trans (h _ (by omega) _ _ _ _ _))
/-- AON moves to XLF where it is ready. -/
def State.aonToXlf (s : State) (xlf : Bool) : State :=
  if xlf && (s.domain 0).active != 0 && !(s.domain 0).phase.moving then s.clockSwitch 0 0 else s
/-- The point-2 voltage, the threshold and the configuration regions. -/
def State.firmwareRegs (s : State) : State :=
  ((({ s.setReg Blk.baro 0x110 40 with pins := { s.pins with vset := 770 } } : State).setReg Blk.mem 0x154 (at_ Config.tcmCfgBase 12 8)).setReg Blk.mem 0x158
    (at_ Config.tcmCfgLen 12 8))
def State.firmwareSet (s : State) : State := (((s.meterPlan (s.srcReady 0)).aonToXlf (s.srcReady 0)).firmwareRegs).bootRecords
theorem State.firmwareSet_leaves (s : State) : Only firmwareParts s s.firmwareSet ∧ s.firmwareSet.clk.now = s.clk.now := by
  have h1 := only_meterPlan s (s.srcReady 0)
  have hnow := congrArg Clk.now (h1.clk (by simp))
  unfold State.firmwareSet
  generalize s.meterPlan (s.srcReady 0) = a at *
  have h2 : Only [.regs 3, .clk] a (a.aonToXlf (s.srcReady 0)) ∧ (a.aonToXlf (s.srcReady 0)).clk.now = a.clk.now := by
    unfold State.aonToXlf
    split
    · exact only_clockSwitch a 0 0
    · exact ⟨Only.refl _ a, rfl⟩
  generalize a.aonToXlf (s.srcReady 0) = b at *
  have h3 : Only [.regs 2, .pins, .regs 8] b b.firmwareRegs :=
    ((only_setReg _ Blk.mem (by omega) _).mono (by simp)).after (((only_setReg _ Blk.mem (by omega) _).mono (by simp)).after
      (((only_setPins _ _).mono (by simp)).after ((only_setReg b Blk.baro (by omega) _).mono (by simp))))
  have h4 := only_bootRecords b.firmwareRegs
  refine ⟨(h1.mono (by simp)).trans ((h2.1.mono (by simp)).trans ((h3.mono (by simp)).trans (h4.mono (by simp)))), ?_⟩
  rw [h4.clk (by simp), h3.clk (by simp), h2.2, hnow]

/-- The epoch chosen from the time base is never 0. -/
def epochOf (now : Nat) : Nat := if now % 65536 = 0 then 1 else now % 65536
/-- The firmware answers requests from here on. -/
def State.firmwareUp (s : State) : State :=
  let s7 := (s.setStage 6).setFld Blk.fmn 0x100 0 4 3
  { { s7 with inp.regEpoch := epochOf s7.clk.now } with
    fmn := { s7.fmn with logSeq := s.logNext.1, logPos := s.logNext.2, wdogFrom := s7.clk.now, wdogWarn := false } }
theorem only_powerRequest (s : State) (r : Nat) : Only [.aon, .regs 1, .regs 31] s (s.powerRequest r) := by
  unfold State.powerRequest
  split
  · exact (only_bumpInfo s Blk.aon (by omega) (by omega) _).mono (by simp)
  · exact Only.ite (fun _ => ((only_pmicCalm _ true).mono (by simp)).after ((only_setAon s _).mono (by simp))) fun _ => (only_setAon s _).mono (by simp)
theorem firmwareRunning_yields {s : State} (h : s.rst.rom = .firmware) (hs : s.stage = 5) (hf : s.frozen = false) : Yields .firmwareRunning s (fun t =>
    t.stage = 6 ∧ t.fmn.wdogFrom = s.clk.now ∧ t.inp.regEpoch ≠ 0 ∧ t.mem = s.mem ∧ t.rst.rom = .firmware) := by
  obtain ⟨ho, hnow⟩ := s.firmwareSet_leaves
  have hexec : exec .firmwareRunning s = done s (if s.firmwareSet.firmwareUp.bus.chipId = 0 then s.firmwareSet.firmwareUp else
      ((s.firmwareSet.firmwareUp.setPort 0 { s.firmwareSet.firmwareUp.port 0 with listening := true }).setPort 1
        { s.firmwareSet.firmwareUp.port 1 with listening := true }).powerRequest 3) :=
    congrArg (done s) (if_pos ⟨h, hs, by simp [hf]⟩)
  generalize s.firmwareSet = a at *
  have hstage : a.firmwareUp.stage = 6 := by
    have h1 := a.stage_setStage 6 (by omega)
    have h2 := (only_setFld (a.setStage 6) Blk.fmn (o := 0x100) (by omega) 0 4 3).stage (by decide)
    exact h2.trans h1
  have hepoch : a.firmwareUp.inp.regEpoch ≠ 0 := by
    show epochOf _ ≠ 0
    unfold epochOf
    split <;> omega
  have hwd : a.firmwareUp.fmn.wdogFrom = s.clk.now := hnow
  have hmem : a.firmwareUp.mem = s.mem := ho.mem (by decide)
  have hrom : a.firmwareUp.rst.rom = .firmware := (congrArg Rst.rom (ho .rst (by decide))).trans h
  generalize a.firmwareUp = u at *
  have hall : Only [.spr, .aon, .regs 1, .regs 31] u (if u.bus.chipId = 0 then u else
      ((u.setPort 0 { u.port 0 with listening := true }).setPort 1 { u.port 1 with listening := true }).powerRequest 3) :=
    Only.ite (fun _ => Only.refl _ u) fun _ => ((only_powerRequest _ 3).mono (by simp)).after (((only_setSpr _ _).mono (by simp)).after
      ((only_setSpr u _).mono (by simp)))
  refine yields_done hexec ?_
  rw [finish_stage, finish_fmn, finish_mem, finish_rst, finish_inp, hall.stage (by decide), hall.fmn (by decide), hall.mem (by decide),
    hall .rst (by decide), hall .inp (by decide)]
  exact ⟨hstage, hwd, hepoch, hmem, hrom⟩

/-! ## The link -/

theorem linkTrainingStart_yields {s : State} (h1 : s.rst.trainingDue = true) (h2 : s.rst.perst = false) (h3 : s.rst.porn = false)
    (h4 : s.aon.porHeld = false) : Yields .linkTrainingStart s (fun t => t.bus = { s.bus with training := true } ∧
      t.rst = { s.rst with trainingDue := false } ∧ t.mem = s.mem) := by
  have hexec : exec .linkTrainingStart s = done s { s with rst.trainingDue := false, bus.training := true } :=
    congrArg (done s) (if_pos (by rw [h1, h2, h3, h4]; rfl))
  refine yields_done hexec ?_
  rw [finish_bus, finish_rst, finish_mem]
  exact ⟨rfl, rfl, rfl⟩
theorem pcieLinkUp_yields {w r : Fin 5} {s : State} (ht : s.bus.training = true) (hw : w = 1 ∨ w = 2 ∨ w = 4) (hr : r ≠ 0) :
    Yields (.pcieLinkUp w r) s (fun t => t.bus = { s.bus with training := false, linkUp := true, linkWidth := w.val, linkRate := r.val } ∧
      t.mem = s.mem ∧ t.rst = s.rst) := by
  have hexec : exec (.pcieLinkUp w r) s = done s { s with
      bus := { s.bus with training := false, linkUp := true, linkWidth := w.val, linkRate := r.val } } :=
    congrArg (done s) (if_pos (by rw [ht]; simpa [or_assoc] using ⟨hw, hr⟩))
  refine yields_done hexec ?_
  rw [finish_bus, finish_rst, finish_mem]
  exact ⟨rfl, rfl, rfl⟩
/-- A configuration request while the link is up changes the endpoint as it says, and no memory. -/
theorem configurationRequest_yields {f : Bool} {what : ConfigReq} {s u : State} {b : Bus} (h : exec (.configurationRequest f what) s = done s u)
    (hb : u.bus = b) (hm : u.mem = s.mem) : Yields (.configurationRequest f what) s (fun t => t.bus = b ∧ t.mem = s.mem) := by
  refine yields_done h ?_
  rw [finish_bus, finish_mem]
  exact ⟨hb, hm⟩
theorem only_egressLost (s : State) : Only [.disp] s s.egressLost :=
  Only.foldl (fun t _ _ => Only.ite (fun _ => only_setDisp t _) fun _ => Only.refl _ t) s
theorem exec_configurationRequest (f : Bool) (what : ConfigReq) {s : State} (h : s.bus.linkUp = true) :
    exec (.configurationRequest f what) s = done s (match what with
      | .identity => { s with bus.readData := Tab.set (fun _ => []) s.bus.readData (Config.mPf0 + b2n f) (leBytes 2 0x1E5A ++ leBytes 2 (0x960 + b2n f) ++ leBytes 1 0xB0 ++ leBytes 3 0x120000) }
      | .assignBars on => { s with bus.barsAssigned := tset s.bus.barsAssigned (b2n f) on }
      | .busMaster on => if on || f then { s with bus.busMaster := tset s.bus.busMaster (b2n f) on } else
          State.egressLost { s with bus.busMaster := tset s.bus.busMaster (b2n f) on }
      | .msixEnable on => { s with bus.msixOn := tset s.bus.msixOn (b2n f) on }) := by
  have hup : ¬(!s.bus.linkUp) = true := by simp [h]
  cases what with
  | identity => exact congrArg (done s) (if_neg hup)
  | assignBars on => exact congrArg (done s) (if_neg hup)
  | busMaster on => exact congrArg (done s) (if_neg hup)
  | msixEnable on => exact congrArg (done s) (if_neg hup)
theorem busMaster_request_yields {f on : Bool} {s : State} (h : s.bus.linkUp = true) : Yields (.configurationRequest f (.busMaster on)) s (fun t =>
    t.bus = { s.bus with busMaster := tset s.bus.busMaster (b2n f) on } ∧ t.mem = s.mem) := by
  have hall : ∀ u : State, Only [.disp] u (if on || f then u else u.egressLost) := fun u => Only.ite (fun _ => Only.refl _ u) fun _ => only_egressLost u
  exact configurationRequest_yields (exec_configurationRequest f _ h) ((hall _) .bus (by simp)) ((hall _).mem (by simp))

/-- Settles O14: each stage of the ROM by its one branch; what the firmware sets at RUNNING leaves the memories and the RST frame but STAGE. -/
theorem bootAndLink : Obligations.BootAndLink := by
  refine ⟨⟨fun s => bootRomStart_ok_yields, fun s => bootRomStart_bad_yields, fun s => bootClocks_yields, fun s k r => flashSlotCheck_ok_yields,
      fun s k n c => flashSlotCheck_bad_yields, fun s k r => payloadHashCheck_ok_yields, fun s => (bootPushGo_yields s).1,
      fun s => (bootPushGo_yields s).2, fun s => pushVerifyEnd_ok_yields, fun s => fwInitHandoff_yields, fun s => firmwareRunning_yields⟩,
    fun s => linkTrainingStart_yields, fun w r s => pcieLinkUp_yields, fun f s h => ?_, fun f on s h => ?_, fun f on s => busMaster_request_yields,
    fun f on s h => ?_, fun k s => ?_⟩
  · obtain ⟨t, ht, hb, hm⟩ := configurationRequest_yields (exec_configurationRequest f .identity h) rfl rfl
    exact ⟨t, ht, by rw [hb]; exact Tab.get_set_self (α := List Byte) (fun _ => []) s.bus.readData _ _, hm⟩
  · exact configurationRequest_yields (exec_configurationRequest f (.assignBars on) h) rfl rfl
  · exact configurationRequest_yields (exec_configurationRequest f (.msixEnable on) h) rfl rfl
  · refine yields_done (s' := { s with bus.aerCorr := tset s.bus.aerCorr k.val true }) rfl ?_
    rw [finish_bus, finish_mem]
    exact ⟨rfl, rfl⟩
end Sys2Proof.Machine
end
section
/-! The checks of a register access, one equation for each place at which it ends (R83, R85). -/
namespace Sys2Proof.Machine
open Sys2Proof

section
variable (s : State) (m : Nat) (cls : AccessClass) {b off : Nat} (w : Option Word) (ho : off < 0x10000)
include ho

/-- R83 read at the offset of a frame: block and offset are those of the address. -/
theorem State.regAccess_eq (len : Nat) : s.regAccess m cls (0x20000000 + 0x10000 * b + off) len w =
    (if len ≠ 4 ∨ off % 4 ≠ 0 then (0, s.sizeErr m w.isSome (0x20000000 + 0x10000 * b + off))
     else if isBlock b = false then (0, s) else if s.gated b then (0, s.gatedErr m w.isSome b) else match guardOf b off with
      | none => (0, s)
      | some g => if g.admits cls = false then (0, s.guardErr m w.isSome b off) else if 0x8000 ≤ off then
          (match w with
           | none => (Tab.get zeroWord s.rf.held (regKey b (liveOff off)), s)
           | some _ => (0, s))
        else match w with
          | none => s.regRead m b off
          | some v => (0, s.regWrite m b off v)) := by
  have hb : (0x20000000 + 0x10000 * b + off - 0x20000000) / 0x10000 = b := by omega
  have hoff : (0x20000000 + 0x10000 * b + off) % 0x10000 = off := by omega
  have h4 : (0x20000000 + 0x10000 * b + off) % 4 = off % 4 := by omega
  unfold State.regAccess
  dsimp only
  rw [hb, hoff, h4]
  cases isBlock b with
  | false => simp
  | true => cases guardOf b off <;> simp <;> rfl

theorem State.regAccess_misaligned {len : Nat} (h : len ≠ 4 ∨ off % 4 ≠ 0) :
    s.regAccess m cls (0x20000000 + 0x10000 * b + off) len w = (0, s.sizeErr m w.isSome (0x20000000 + 0x10000 * b + off)) := by
  rw [State.regAccess_eq s m cls w ho, if_pos h]

variable (h4 : off % 4 = 0)
include h4

theorem State.regAccess_of_not_block (hb : isBlock b = false) : s.regAccess m cls (0x20000000 + 0x10000 * b + off) 4 w = (0, s) := by
  rw [State.regAccess_eq s m cls w ho, if_neg (by simp [h4]), if_pos hb]

variable (hb : isBlock b = true)
include hb

theorem State.regAccess_gated (hg : s.gated b = true) :
    s.regAccess m cls (0x20000000 + 0x10000 * b + off) 4 w = (0, s.gatedErr m w.isSome b) := by
  rw [State.regAccess_eq s m cls w ho, if_neg (by simp [h4]), if_neg (by simp [hb]), if_pos hg]

variable (hg : s.gated b = false)
include hg

theorem State.regAccess_unlisted (hn : guardOf b off = none) : s.regAccess m cls (0x20000000 + 0x10000 * b + off) 4 w = (0, s) := by
  rw [State.regAccess_eq s m cls w ho, if_neg (by simp [h4]), if_neg (by simp [hb]), if_neg (by simp [hg]), hn]

variable {g : Guard} (hgd : guardOf b off = some g)
include hgd

theorem State.regAccess_refused (hc : g.admits cls = false) :
    s.regAccess m cls (0x20000000 + 0x10000 * b + off) 4 w = (0, s.guardErr m w.isSome b off) := by
  rw [State.regAccess_eq s m cls w ho, if_neg (by simp [h4]), if_neg (by simp [hb]), if_neg (by simp [hg]), hgd]
  exact if_pos hc

theorem State.regAccess_admitted (hc : g.admits cls = true) : s.regAccess m cls (0x20000000 + 0x10000 * b + off) 4 w =
    (if 0x8000 ≤ off then
          (match w with
           | none => (Tab.get zeroWord s.rf.held (regKey b (liveOff off)), s)
           | some _ => (0, s))
        else match w with
          | none => s.regRead m b off
          | some v => (0, s.regWrite m b off v)) := by
  rw [State.regAccess_eq s m cls w ho, if_neg (by simp [h4]), if_neg (by simp [hb]), if_neg (by simp [hg]), hgd]
  exact if_neg (by simp [hc])
end

/-- Settles O17: each check's own equation, in the order of R83. -/
theorem registerAccessChecks : Obligations.RegisterAccessChecks := by
  intro s m cls b off len w _ ho
  refine ⟨fun h => ?_, fun hl h4 hb => ?_, fun hl h4 hb hg => ?_, fun hl h4 hb hg hn => ?_, fun g hl h4 hb hg hgd hc => ?_,
    fun g hl h4 hb hg hgd hc hh => ?_⟩
  · rw [s.regAccess_misaligned m cls w ho h]
    exact ⟨rfl, State.evc_bumpInfo_self _ _ _ _ _, (only_bumpInfo s Blk.chip (by omega) (by omega) _).frame⟩
  · subst hl
    exact s.regAccess_of_not_block m cls w ho h4 hb
  · subst hl
    rw [s.regAccess_gated m cls w ho h4 hb hg]
    exact ⟨rfl, State.evc_bumpInfo_self _ _ _ _ _, (only_bumpInfo s Blk.clk (by omega) (by omega) _).frame⟩
  · subst hl
    exact s.regAccess_unlisted m cls w ho h4 hb hg hn
  · subst hl
    rw [s.regAccess_refused m cls w ho h4 hb hg hgd hc]
    exact ⟨rfl, rfl⟩
  · subst hl
    rw [s.regAccess_admitted m cls w ho h4 hb hg hgd hc, if_pos hh]
    cases w with
    | none => exact ⟨rfl, fun _ => rfl⟩
    | some v => exact ⟨rfl, fun h => by cases h⟩
end Sys2Proof.Machine
end
section
/-! Field-bus controllers: configuration, start, stop, rejoin (R899 to R914). -/
namespace Sys2Proof.Machine
open Sys2Proof

/-! ## Steps that bring no cause -/

/-- A step after which Quench is not due to trip: what it leaves is what its meaning leaves. -/
theorem yields_clear {i : Instr} {s u : State} {P : State → Prop} (h : exec i s = done s u) (hc : u.quenchClear)
    (hp : ∀ t, Only [] u t → P t) : Yields i s P := yields_done h (hp _ (only_finish s hc))
/-- The same for a step that answers a mailbox. -/
theorem yields_reply {i : Instr} {s u : State} {m : Nat} {r : Resp} {P : State → Prop} (h : exec i s = done s (u.reply m r))
    (hc : u.quenchClear) (hp : ∀ t, Only [.fmn] u t → t.answers m r → P t) : Yields i s P :=
  yields_done h (hp _ (((only_finish s (State.quenchClear_reply m r hc)).mono (by simp)).after (only_reply u m r)) (finish_answers s u m r))
theorem Only.fbc {l : List StatePart} {s t : State} (h : Only l s t) (hp : .fbcs ∉ l) (k : Nat) : t.fbc k = s.fbc k :=
  congrArg (fun x => Tab.get fbcReset x k) (h.fbcs hp)
theorem State.quenchClear_setFbc {s : State} (k : Nat) (x : Fbc) (h : s.quenchClear) : (s.setFbc k x).quenchClear :=
  (only_setFbc s k x).quenchClear h (by simp) (by simp) (by simp)

/-! ## Start and rejoin -/

/-- Clearing what a controller holds beside its records is an answer with DONE. -/
theorem setFbc_done_yields {i : Instr} {s : State} {m k : Nat} {x : Fbc} (h : exec i s = done s ((s.setFbc k x).replyDone m)) (hc : s.quenchClear) :
    Yields i s (fun t => t.doneWith m [] ∧ t.fbc k = x ∧ (∀ j, j ≠ k → t.fbc j = s.fbc j) ∧ t.qch = s.qch ∧ Frame [.fmn] s t) :=
  yields_reply h (State.quenchClear_setFbc k x hc) fun _ ho ha => ⟨ha, (ho.fbc (by simp) k).trans (State.fbc_setFbc_self s k x),
    fun j hj => (ho.fbc (by simp) j).trans (State.fbc_setFbc_ne s x hj), ho.qch (by simp),
    Only.frame_trip (l' := [.fmn, .fbcs]) ((ho.mono (by simp)).after ((only_setFbc s k x).mono (by simp))) (by decide)⟩

section
variable {m : MbId} {s : State}
theorem exec_fbcStart (h : s.asks m.val 0x0702 1 [(0x10, 1, s.rq m.val 0x10 1 < 4)]) (hst : (s.fbc (s.rq m.val 0x10 1)).st = .off)
    (hconf : (s.fbc (s.rq m.val 0x10 1)).configured = true) (hbus : s.busOnPll = true) :
    exec (.fbcStart m) s = done s ((s.setFbc (s.rq m.val 0x10 1)
      { s.fbc (s.rq m.val 0x10 1) with st := .integrating, tecCnt := 0, recCnt := 0 }).replyDone m.val) := by
  show execFbcStart m s = _
  unfold execFbcStart
  dsimp only
  rw [State.request_asks _ h, if_neg (by rw [hst]; decide), if_neg (by rw [hconf]; decide), if_neg (by rw [hbus]; decide)]

theorem exec_fbcRejoin (h : s.asks m.val 0x0704 1 [(0x10, 1, s.rq m.val 0x10 1 < 4)]) (hst : (s.fbc (s.rq m.val 0x10 1)).st = .busOff) :
    exec (.fbcRejoin m) s = done s ((s.setFbc (s.rq m.val 0x10 1)
      { s.fbc (s.rq m.val 0x10 1) with st := .recovering, recov := 0 }).replyDone m.val) := by
  show execFbcRejoin m s = _
  unfold execFbcRejoin
  dsimp only
  rw [State.request_asks _ h, hst]

/-! ## Stop -/

/-- What the checks of an accepted request say of one field, the first that covers its first byte. -/
theorem badField_none {l : List (Nat × Bool)} (h : badField l = none) {e : Nat × Bool} (he : e ∈ l) : e.2 = true := by
  induction l with
  | nil => cases he
  | cons x t ih =>
    have hx : x.2 = true ∧ badField t = none := by
      obtain ⟨o, ok⟩ := x
      cases ok with
      | true => exact ⟨rfl, h⟩
      | false => cases h
    rcases List.mem_cons.1 he with rfl | ht
    · exact hx.1
    · exact ih hx.2 ht
theorem State.asks_field {s : State} {m opcode span a n : Nat} {b : Bool} {l : List (Nat × Nat × Bool)} (h : s.asks m opcode span l)
    (hf : l.find? (fun e => e.1 ≤ a && a < e.1 + e.2.1) = some (a, n, b)) (ha : 0x10 ≤ a) (ho : a < 0x10 + span) : b = true := by
  obtain ⟨-, -, -, -, -, hb, -, -⟩ := h
  have hlen := badField_none hb (e := (0x08, span ≤ s.rqLen m && s.rqLen m ≤ 240)) (by simp [State.headerChecks])
  have hspan : span ≤ s.rqLen m := of_decide_eq_true (Bool.and_eq_true_iff.1 hlen).1
  refine badField_none hb (e := (a, b)) (List.mem_append_right _ (List.mem_map.2 ⟨a - 0x10, List.mem_range.2 (by omega), ?_⟩))
  dsimp only
  rw [show 0x10 + (a - 0x10) = a by omega, hf]
  simp

theorem State.fbcOff_leaves (s : State) {k : Nat} (hk : k < 4) : Only tearParts s (s.fbcOff k) ∧ ((s.fbcOff k).fbc k).st = .off ∧
    ((s.fbcOff k).fbc k).fifo = [] ∧ ((s.fbcOff k).fbc k).attempt = none ∧ ((s.fbcOff k).fbc k).stopping = none := by
  have hf : ∀ u : State, ((u.fifoFlush k).fbc k).fifo = [] := fun u => congrArg Fbc.fifo (State.fbc_setFbc_self _ k _)
  unfold State.fbcOff
  dsimp only
  rw [State.fbc_setFbc_self]
  exact ⟨(tear_setFbc _ k _).after ((tear_fifoFlush _ hk).after (tear_setFbc s k _)), rfl, hf _, rfl, rfl⟩
/-- The end of a stop without CLEAR: the controller is OFF and the mailbox answered. -/
theorem fbcStopEnd_yields {i : Instr} {s u : State} {k m d : Nat} (hk : k < 4) (h : exec i s = done s (u.fbcStopEnd k d))
    (hst : (u.fbc k).stopping = some (m, false)) (hc : u.quenchClear) : Yields i s (fun t =>
      t.answers m { code := rDone, detail := d, progress := 100 } ∧ (t.fbc k).st = .off ∧ (t.fbc k).fifo = [] ∧ (t.fbc k).attempt = none ∧
      (t.fbc k).stopping = none ∧ t.aon = u.aon ∧ t.clk = u.clk) := by
  have he : u.fbcStopEnd k d = (u.fbcOff k).reply m { code := rDone, detail := d, progress := 100 } := by
    unfold State.fbcStopEnd
    rw [hst]
    exact congrArg (fun x : State => x.reply m _) (if_neg (by decide))
  obtain ⟨ho, h1, h2, h3, h4⟩ := u.fbcOff_leaves hk
  refine yields_reply (h.trans (congrArg (done s) he)) (ho.quenchClear hc (by decide) (by decide) (by decide)) fun t ht ha => ?_
  rw [ht.fbc (by simp)]
  exact ⟨ha, h1, h2, h3, h4, (ht.aon (by simp)).trans (ho.aon (by decide)), (ht.clk (by simp)).trans (ho.clk (by decide))⟩

theorem fbcStopTimeout_yields {k : SegId} {m : Nat} {s : State} (hst : (s.fbc k.val).stopping = some (m, false))
    (hd : (s.fbc k.val).stopAt + 5 * tbMs ≤ s.clk.now) (hc : s.quenchClear) : Yields (.fbcStopTimeout k) s (fun t =>
      t.answers m { code := rDone, detail := 1, progress := 100 } ∧ (t.fbc k.val).st = .off ∧ (t.fbc k.val).fifo = [] ∧
      (t.fbc k.val).attempt = none ∧ (t.fbc k.val).stopping = none ∧ t.aon = s.aon ∧ t.clk = s.clk) :=
  fbcStopEnd_yields k.isLt (congrArg (done s) (if_pos (by rw [hst]; simpa using hd))) hst hc

/-- The fields of FBC_STOP. -/
def State.stopFields (s : State) (m : Nat) : List (Nat × Nat × Bool) :=
  [(0x10, 1, s.rq m 0x10 1 < 4), (0x11, 1, s.rq m 0x11 1 < 2), (0x12, 1, s.rq m 0x12 1 < 2)]

theorem exec_fbcStop (b : Bool) (h : s.asks m.val 0x0703 3 (s.stopFields m.val)) (hst : (s.fbc (s.rq m.val 0x10 1)).st ≠ .off)
    (hstop : (s.fbc (s.rq m.val 0x10 1)).stopping = none) :
    let u := (s.setFbc (s.rq m.val 0x10 1)
      { s.fbc (s.rq m.val 0x10 1) with stopping := some (m.val, s.rq m.val 0x12 1 == 1), stopAt := s.clk.now }).await m.val
    exec (.fbcStop m b) s = done s
      (if s.rq m.val 0x11 1 == 1 || ((s.fbc (s.rq m.val 0x10 1)).attempt.isNone && !b) then u.fbcStopEnd (s.rq m.val 0x10 1) 0 else u) := by
  exact congrArg (done s) ((State.request_asks _ h).trans ((if_neg (by simpa using hst)).trans (if_neg (by rw [hstop]; decide))))

theorem fbcStop_waits_yields {b : Bool} (h : s.asks m.val 0x0703 3 (s.stopFields m.val)) (hst : (s.fbc (s.rq m.val 0x10 1)).st ≠ .off)
    (hstop : (s.fbc (s.rq m.val 0x10 1)).stopping = none) (hmode : s.rq m.val 0x11 1 = 0)
    (hrun : (s.fbc (s.rq m.val 0x10 1)).attempt ≠ none ∨ b = true) (hc : s.quenchClear) : Yields (.fbcStop m b) s (fun t =>
      (t.mb m.val).waiting = true ∧ (t.mb m.val).out = none ∧ (t.fbc (s.rq m.val 0x10 1)).st = (s.fbc (s.rq m.val 0x10 1)).st ∧
      (t.fbc (s.rq m.val 0x10 1)).stopping = some (m.val, s.rq m.val 0x12 1 == 1) ∧
      (t.fbc (s.rq m.val 0x10 1)).stopAt = s.clk.now ∧ Frame [.fmn] s t) := by
  obtain ⟨-, -, hout, -⟩ := id h
  have hgo : (s.rq m.val 0x11 1 == 1 || ((s.fbc (s.rq m.val 0x10 1)).attempt.isNone && !b)) = false := by
    rw [hmode]
    rcases hrun with hr | hr
    · rw [Option.isNone_eq_false_iff.2 (Option.isSome_iff_ne_none.2 hr)]
      rfl
    · rw [hr, Bool.not_true, Bool.and_false]
      rfl
  have hexec := exec_fbcStop b h hst hstop
  dsimp only at hexec
  rw [hgo, if_neg (by decide)] at hexec
  generalize hx : ({ s.fbc (s.rq m.val 0x10 1) with stopping := some (m.val, s.rq m.val 0x12 1 == 1), stopAt := s.clk.now } : Fbc) = x at hexec
  have ho : Only [.fmn, .fbcs] s ((s.setFbc (s.rq m.val 0x10 1) x).await m.val) :=
    ((only_setMb _ _ _).mono (by simp)).after ((only_setFbc s _ x).mono (by simp))
  refine yields_clear hexec (ho.quenchClear hc (by decide) (by decide) (by decide)) fun t ht => ?_
  have hmb : t.mb m.val = { s.mb m.val with ready := false, waiting := true } :=
    (congrArg (fun f : Fmn => Tab.get mbReset f.mbs m.val) (ht.fmn (by simp))).trans (Tab.get_set_self mbReset s.fmn.mbs m.val _)
  have hf : t.fbc (s.rq m.val 0x10 1) = x := (ht.fbc (by simp) _).trans (State.fbc_setFbc_self s _ x)
  rw [hmb, hf, ← hx]
  exact ⟨rfl, hout, rfl, rfl, rfl, Only.frame_trip (l' := [.fmn, .fbcs]) ((ht.mono (by simp)).after ho) (by decide)⟩

theorem fbcStop_now_yields {b : Bool} (h : s.asks m.val 0x0703 3 (s.stopFields m.val)) (hst : (s.fbc (s.rq m.val 0x10 1)).st ≠ .off)
    (hstop : (s.fbc (s.rq m.val 0x10 1)).stopping = none) (hmode : s.rq m.val 0x11 1 = 1) (hclear : s.rq m.val 0x12 1 = 0)
    (hc : s.quenchClear) : Yields (.fbcStop m b) s (fun t => t.doneWith m.val [] ∧ (t.fbc (s.rq m.val 0x10 1)).st = .off ∧
      (t.fbc (s.rq m.val 0x10 1)).fifo = [] ∧ (t.fbc (s.rq m.val 0x10 1)).attempt = none ∧ t.aon = s.aon ∧ t.clk = s.clk) := by
  have hk : s.rq m.val 0x10 1 < 4 := of_decide_eq_true (State.asks_field (a := 0x10) (n := 1) h rfl (Nat.le_refl _) (by decide))
  have hexec := exec_fbcStop b h hst hstop
  dsimp only at hexec
  rw [hmode, hclear] at hexec
  generalize hx : ({ s.fbc (s.rq m.val 0x10 1) with stopping := some (m.val, 0 == 1), stopAt := s.clk.now } : Fbc) = x at hexec
  have ho : Only [.fmn, .fbcs] s ((s.setFbc (s.rq m.val 0x10 1) x).await m.val) :=
    ((only_setMb _ _ _).mono (by simp)).after ((only_setFbc s _ x).mono (by simp))
  have hs : (((s.setFbc (s.rq m.val 0x10 1) x).await m.val).fbc (s.rq m.val 0x10 1)).stopping = some (m.val, false) := by
    rw [show ((s.setFbc (s.rq m.val 0x10 1) x).await m.val).fbc (s.rq m.val 0x10 1) = x from State.fbc_setFbc_self s _ x, ← hx]
    rfl
  obtain ⟨t, ht, ha, h1, h2, h3, -, h5, h6⟩ := fbcStopEnd_yields hk hexec hs (ho.quenchClear hc (by decide) (by decide) (by decide))
  exact ⟨t, ht, ha, h1, h2, h3, h5.trans (ho.aon (by decide)), h6.trans (ho.clk (by decide))⟩
end

/-! ## Configuration -/

theorem State.freeEntry_lt {s : State} {e : Nat} (h : s.freeEntry = some e) : e < 32 := by
  have key : ∀ l : List Nat, (∀ x ∈ l, x < 32) → ∀ r : Option Nat, (∀ y, r = some y → y < 32) →
      ∀ y, l.foldl (fun r e => if s.entValid e then r else some e) r = some y → y < 32 := by
    intro l
    induction l with
    | nil => exact fun _ r hr => hr
    | cons x l ih =>
      refine fun hl r hr => ih (fun z hz => hl z (List.mem_cons_of_mem _ hz)) _ ?_
      dsimp only
      split
      · exact hr
      · exact fun y hy => by cases hy; exact hl _ (List.mem_cons_self ..)
  exact key _ (fun x hx => List.mem_range.1 hx) none (fun y hy => by cases hy) e h
theorem only_setEntry (s : State) {e : Nat} (he : e < 32) (base pages kind id orm owm attr : Nat) (mg : Bool) :
    Only [.regs 8] s (s.setEntry e base pages kind id orm owm attr mg) :=
  (only_setReg _ _ (by omega) _).after ((only_setReg _ _ (by omega) _).after ((only_setReg _ _ (by omega) _).after
    ((only_setReg _ _ (by omega) _).after (only_setReg s _ (by omega) _))))
/-- Covering areas writes the region table alone. -/
theorem only_coverAreas {kind id : Nat} {l : List (Nat × Nat × Nat × Nat × Nat)} {s u : State} (h : s.coverAreas kind id l = some u) :
    Only [.regs 8] s u := by
  induction l generalizing s with
  | nil =>
    cases h
    exact Only.refl _ _
  | cons x t ih =>
    obtain ⟨a, pages, orm, owm, attr⟩ := x
    unfold State.coverAreas at h
    split at h
    · cases h
    · next e he => exact (only_setEntry s (State.freeEntry_lt he) _ _ _ _ _ _ _ _).trans (ih h)

theorem bitAt_eq_at (b : Bool) (lo : Nat) : bitAt b lo = at_ (b2n b) lo 1 := by cases b <;> simp [bitAt, at_, b2n]

section
variable {s : State} {q : Nat}
/-- The reset of a queue of no context discards what it holds and counts. -/
theorem only_queueReset_high (hq : 64 ≤ q) : Only [.queues, .regs 6] s (s.queueReset q false) := by
  unfold State.queueReset
  dsimp only
  rw [if_neg (by decide), if_neg (by simp; omega)]
  exact ((only_bump _ _ (by omega)).mono (by simp)).after ((only_setQueue s q _).mono (by simp))
theorem only_queueOn (hq : q < 128) (ring dl : Nat) (owner : Option Nat) (vec : Nat) (pf1 : Bool) :
    Only [.queues, .regs 6] s (s.queueOn q ring dl owner vec pf1) :=
  ((only_setQueue _ q _).mono (by simp)).after (((only_setReg _ _ (by omega) _).mono (by simp)).after
    ((only_setReg s _ (by omega) _).mono (by simp)))
/-- A queue enabled, empty, with its depth. -/
def State.queueReady (s : State) (q d : Nat) : Prop := s.qEn q = true ∧ s.qDepth q = 2 ^ d ∧ (s.queue q).occ = 0
theorem State.queueOn_ready (hq : q < 128) (ring : Nat) {d : Nat} (hd : 4 ≤ d ∧ d ≤ 12) (owner : Option Nat) (vec : Nat) (pf1 : Bool) :
    (s.queueOn q ring d owner vec pf1).queueReady q d := by
  have hcfg : (s.queueOn q ring d owner vec pf1).qcfg q = (bitAt true 31 ||| bitAt owner.isSome 21 ||| at_ (owner.getD 0) 16 5 |||
      at_ vec 8 6 ||| bitAt pf1 7 ||| at_ d 0 4) := by
    refine (State.reg_setReg_ne _ _ ?_).trans (State.reg_setReg_self s _ _ _)
    rw [Ne, regKey_inj (by omega) (by omega)]
    omega
  have hself : ∀ v lo n, lo + n ≤ 32 → fld (at_ v lo n) lo n = v % 2 ^ n := fun v lo n h => fld_at_self v h
  refine ⟨?_, ?_, congrArg Queue.occ (Tab.get_set_self queueReset0 _ q _)⟩
  · unfold State.qEn
    rw [hcfg]
    simp only [bitAt_eq_at, fld_or]
    rw [fld_at_self _ (by omega), fld_at_of_disjoint _ (by omega) (by omega), fld_at_of_disjoint _ (by omega) (by omega),
      fld_at_of_disjoint _ (by omega) (by omega), fld_at_of_disjoint _ (by omega) (by omega), fld_at_of_disjoint _ (by omega) (by omega)]
    rfl
  · unfold State.qDepth
    rw [hcfg]
    simp only [bitAt_eq_at, fld_or]
    rw [fld_at_of_disjoint _ (by omega) (by omega), fld_at_of_disjoint _ (by omega) (by omega), fld_at_of_disjoint _ (by omega) (by omega),
      fld_at_of_disjoint _ (by omega) (by omega), fld_at_of_disjoint _ (by omega) (by omega), fld_at_self _ (by omega), Nat.mod_eq_of_lt (by omega)]
    simp [depthOf, hd.1, hd.2]
theorem State.queueOn_ready_ne {p d : Nat} (h : s.queueReady p d) (hq : q < 128) (hp : p < 128) (hne : p ≠ q) (ring dl : Nat) (owner : Option Nat)
    (vec : Nat) (pf1 : Bool) : (s.queueOn q ring dl owner vec pf1).queueReady p d := by
  have hcfg : (s.queueOn q ring dl owner vec pf1).qcfg p = s.qcfg p := by
    refine (State.reg_setReg_ne _ _ ?_).trans (State.reg_setReg_ne s _ ?_) <;> rw [Ne, regKey_inj (by omega) (by omega)] <;> omega
  have hqueue : (s.queueOn q ring dl owner vec pf1).queue p = s.queue p := Tab.get_set_ne queueReset0 _ _ hne
  unfold State.queueReady State.qEn State.qDepth
  rw [hcfg, hqueue]
  exact h
theorem Only.queueReady {l : List StatePart} {t : State} (h : Only l s t) (hr : .regs 6 ∉ l) (hl : .queues ∉ l) {p d : Nat} (hp : p < 128)
    (hs : s.queueReady p d) : t.queueReady p d := by
  have hcfg : t.qcfg p = s.qcfg p := h.reg hr (by omega)
  have hqueue : t.queue p = s.queue p := congrArg (fun x => Tab.get queueReset0 x p) (h .queues hl)
  unfold State.queueReady State.qEn State.qDepth
  rw [hcfg, hqueue]
  exact hs
end

/-- The fields of an FBC_CONFIG of a controller for the firmware, classical, with no filter records. -/
def State.plainFields (s : State) (m : Nat) : List (Nat × Nat × Bool) :=
  let q := fun o n => s.rq m o n
  let rng := fun v lo hi => decide (lo ≤ v ∧ v ≤ hi)
  let b2 := nextPage (q 0x28 4 + 64 * 2 ^ q 0x22 1)
  let b3 := nextPage (b2 + 64 * 2 ^ q 0x23 1)
  [(0x10, 1, q 0x10 1 < 4), (0x11, 1, q 0x11 1 == 0xFF), (0x12, 1, q 0x12 1 < 5), (0x13, 1, q 0x13 1 == 0),
    (0x14, 1, rng (q 0x14 1) 1 32 && rng (q 0x14 1 * (1 + q 0x16 2 + q 0x18 1)) 80 640),
    (0x15, 1, rng (q 0x15 1) 1 128 && q 0x15 1 ≤ q 0x18 1), (0x16, 2, rng (q 0x16 2) 2 256), (0x18, 1, rng (q 0x18 1) 1 128),
    (0x19, 1, true), (0x1A, 1, true), (0x1B, 1, true), (0x1C, 1, true), (0x1D, 1, true),
    (0x1E, 1, rng (q 0x1E 1) 1 64), (0x1F, 1, rng (q 0x1F 1) 108 127), (0x20, 1, q 0x20 1 == 0), (0x21, 1, q 0x21 1 == 0),
    (0x22, 1, rng (q 0x22 1) 4 12), (0x23, 1, rng (q 0x23 1) 4 12), (0x24, 1, rng (q 0x24 1) 4 12),
    (0x28, 4, q 0x28 4 % 4096 == 0 && ingotRange (q 0x28 4) (b3 + 64 * 2 ^ q 0x24 1 + 1024 - q 0x28 4)),
    (0x2C, 4, q 0x2C 4 % 16 == 0 && ingotRange (q 0x2C 4) 0)]

/-- What FBC_CONFIG leaves of the areas covered: the three queues, the registers of the request, the controller's record. -/
def State.plainConfig (s u : State) (m : Nat) : State :=
  let q := fun o n => s.rq m o n
  let k := q 0x10 1
  let b2 := nextPage (q 0x28 4 + 64 * 2 ^ q 0x22 1)
  let b3 := nextPage (b2 + 64 * 2 ^ q 0x23 1)
  let s3 := ((u.queueReset (64 + 2 * k) false).queueReset (65 + 2 * k) false).queueReset (q 0x1F 1) false
  let s4 := (s3.queueOn (64 + 2 * k) (q 0x28 4) (q 0x22 1) none 0 false).queueOn (65 + 2 * k) b2 (q 0x23 1) none 0 false
  let s5 := s4.queueOn (q 0x1F 1) b3 (q 0x24 1) none 0 false
  let words := (List.range 8).map (fun w => s.rq m (0x10 + 4 * w) 4)
  let s6 := words.zipIdx.foldl (fun s w => s.setReg (fbcBlk k) (0x200 + 4 * w.2) (BitVec.ofNat 32 w.1)) s5
  s6.setFbc k { s6.fbc k with configured := true, owned := true, filters := [], restricted := s.targetFault 9 }

section
variable {m : MbId} {s u : State}
theorem exec_fbcConfig (h : s.asks m.val 0x0701 0x20 (s.plainFields m.val))
    (hcov : s.coverAreas 1 0 (queueAreas (s.rq m.val 0x28 4) (s.rq m.val 0x22 1) false [.device] [.device] ++
        queueAreas (nextPage (s.rq m.val 0x28 4 + 64 * 2 ^ s.rq m.val 0x22 1)) (s.rq m.val 0x23 1) false [.device] [.device] ++
        queueAreas (nextPage (nextPage (s.rq m.val 0x28 4 + 64 * 2 ^ s.rq m.val 0x22 1) + 64 * 2 ^ s.rq m.val 0x23 1)) (s.rq m.val 0x24 1) true
          [.device] [.device]) = some u)
    (hread : s.readMem Config.mForeman .secure 0 (s.rq m.val 0x2C 4) 0 = ([], .ok, s)) (hst : (s.fbc (s.rq m.val 0x10 1)).st = .off)
    (hconf : (s.fbc (s.rq m.val 0x10 1)).configured = false) (hbus : s.busOnPll = true) (hq : s.qEn (s.rq m.val 0x1F 1) = false) :
    exec (.fbcConfig m) s = done s ((s.plainConfig u m.val).replyDone m.val) := by
  have hown : s.rq m.val 0x11 1 = 0xFF := eq_of_beq (State.asks_field (a := 0x11) (n := 1) h rfl (by decide) (by decide))
  have hfl : s.rq m.val 0x13 1 = 0 := eq_of_beq (State.asks_field (a := 0x13) (n := 1) h rfl (by decide) (by decide))
  have hnf : s.rq m.val 0x20 1 = 0 := eq_of_beq (State.asks_field (a := 0x20) (n := 1) h rfl (by decide) (by decide))
  have hvec : s.rq m.val 0x21 1 = 0 := eq_of_beq (State.asks_field (a := 0x21) (n := 1) h rfl (by decide) (by decide))
  refine (congrArg (fun l => done s (s.request m.val 0x0701 0x20 l _)) (a₂ := s.plainFields m.val) ?_).trans
    (congrArg (done s) ((State.request_asks _ h).trans ?_))
  · simp only [hown, hfl, hnf, hvec, State.plainFields]
    rfl
  · have hclr : s.fbcClear (s.rq m.val 0x10 1) = s := if_pos (by rw [hconf]; rfl)
    simp only [hown, hfl, hnf, hvec, Nat.mul_zero, hread, hst, hbus, hq, hclr, show ∀ f, lowest 0 f = none from fun _ => rfl, bne_self_eq_false,
      Bool.not_true, Bool.false_and, Bool.false_eq_true, if_false, beq_self_eq_true, if_true, show ownerKind 255 = 1 from rfl,
      show ownerId 255 = 0 from rfl, hcov]
    rfl

/-- The four FBC frames. -/
def fbcRegs : List StatePart := [.regs 22, .regs 23, .regs 24, .regs 25]
theorem State.plainConfig_leaves (hk : s.rq m.val 0x10 1 < 4) (hq : 108 ≤ s.rq m.val 0x1F 1 ∧ s.rq m.val 0x1F 1 ≤ 127)
    (h2 : 4 ≤ s.rq m.val 0x22 1 ∧ s.rq m.val 0x22 1 ≤ 12) (h3 : 4 ≤ s.rq m.val 0x23 1 ∧ s.rq m.val 0x23 1 ≤ 12)
    (h4 : 4 ≤ s.rq m.val 0x24 1 ∧ s.rq m.val 0x24 1 ≤ 12) : Only (fbcRegs ++ [.queues, .regs 6, .fbcs]) u (s.plainConfig u m.val) ∧
    (s.plainConfig u m.val).fbc (s.rq m.val 0x10 1) = { u.fbc (s.rq m.val 0x10 1) with configured := true, owned := true, filters := [], restricted := s.targetFault 9 } ∧
    (s.plainConfig u m.val).queueReady (64 + 2 * s.rq m.val 0x10 1) (s.rq m.val 0x22 1) ∧
    (s.plainConfig u m.val).queueReady (65 + 2 * s.rq m.val 0x10 1) (s.rq m.val 0x23 1) ∧
    (s.plainConfig u m.val).queueReady (s.rq m.val 0x1F 1) (s.rq m.val 0x24 1) := by
  unfold State.plainConfig
  dsimp only
  generalize s.rq m.val 0x10 1 = k at *
  generalize s.rq m.val 0x1F 1 = q at *
  generalize s.rq m.val 0x22 1 = d2 at *
  generalize s.rq m.val 0x23 1 = d3 at *
  generalize s.rq m.val 0x24 1 = d4 at *
  generalize hs3 : ((u.queueReset (64 + 2 * k) false).queueReset (65 + 2 * k) false).queueReset q false = s3
  generalize hs5 : ((s3.queueOn (64 + 2 * k) _ d2 none 0 false).queueOn (65 + 2 * k) _ d3 none 0 false).queueOn q _ d4 none 0 false = s5
  have h53 : Only [.queues, .regs 6] u s5 := by
    rw [← hs5, ← hs3]
    exact (only_queueOn (by omega) _ _ _ _ _).after ((only_queueOn (by omega) _ _ _ _ _).after ((only_queueOn (by omega) _ _ _ _ _).after
      ((only_queueReset_high (by omega)).after ((only_queueReset_high (by omega)).after (only_queueReset_high (by omega))))))
  have hr : s5.queueReady (64 + 2 * k) d2 ∧ s5.queueReady (65 + 2 * k) d3 ∧ s5.queueReady q d4 := by
    rw [← hs5]
    exact ⟨State.queueOn_ready_ne (State.queueOn_ready_ne (State.queueOn_ready (by omega) _ h2 _ _ _) (by omega) (by omega) (by omega) _ _ _ _ _)
        (by omega) (by omega) (by omega) _ _ _ _ _,
      State.queueOn_ready_ne (State.queueOn_ready (by omega) _ h3 _ _ _) (by omega) (by omega) (by omega) _ _ _ _ _,
      State.queueOn_ready (by omega) _ h4 _ _ _⟩
  have hblk : StatePart.regs (fbcBlk k) ∈ fbcRegs := by
    rcases (by omega : k = 0 ∨ k = 1 ∨ k = 2 ∨ k = 3) with rfl | rfl | rfl | rfl <;> decide
  generalize hw : ((List.range 8).map fun w => s.rq m.val (0x10 + 4 * w) 4).zipIdx = words
  have hlt : ∀ w ∈ words, w.2 < 8 := by
    rw [← hw]
    intro w hm
    have := List.snd_lt_of_mem_zipIdx hm
    simpa using this
  generalize hs6 : words.foldl (fun s w => s.setReg (fbcBlk k) (0x200 + 4 * w.2) (BitVec.ofNat 32 w.1)) s5 = s6
  have h6 : Only fbcRegs s5 s6 := by
    rw [← hs6]
    exact Only.foldl (fun t w hm => (only_setReg t _ (by have := hlt w hm; omega) _).mono (by simpa using hblk)) s5
  generalize hx : ({ s6.fbc k with configured := true, owned := true, filters := [], restricted := s.targetFault 9 } : Fbc) = x
  have hfin : Only (.fbcs :: fbcRegs) s5 (s6.setFbc k x) := ((only_setFbc s6 k x).mono (by simp)).after (h6.mono (by simp))
  obtain ⟨r1, r2, r3⟩ := hr
  refine ⟨(hfin.mono (by decide)).after (h53.mono (by decide)), ?_, hfin.queueReady (by decide) (by decide) (by omega) r1,
    hfin.queueReady (by decide) (by decide) (by omega) r2, hfin.queueReady (by decide) (by decide) (by omega) r3⟩
  rw [State.fbc_setFbc_self, ← hx, h6.fbc (by decide), h53.fbc (by decide)]
end

theorem fbcConfig_yields {m : MbId} {s u : State} (h : s.asks m.val 0x0701 0x20 (s.plainFields m.val))
    (hcov : s.coverAreas 1 0 (queueAreas (s.rq m.val 0x28 4) (s.rq m.val 0x22 1) false [.device] [.device] ++
        queueAreas (nextPage (s.rq m.val 0x28 4 + 64 * 2 ^ s.rq m.val 0x22 1)) (s.rq m.val 0x23 1) false [.device] [.device] ++
        queueAreas (nextPage (nextPage (s.rq m.val 0x28 4 + 64 * 2 ^ s.rq m.val 0x22 1) + 64 * 2 ^ s.rq m.val 0x23 1)) (s.rq m.val 0x24 1) true
          [.device] [.device]) = some u)
    (hread : s.readMem Config.mForeman .secure 0 (s.rq m.val 0x2C 4) 0 = ([], .ok, s)) (hst : (s.fbc (s.rq m.val 0x10 1)).st = .off)
    (hconf : (s.fbc (s.rq m.val 0x10 1)).configured = false) (hbus : s.busOnPll = true) (hq : s.qEn (s.rq m.val 0x1F 1) = false)
    (hc : s.quenchClear) : Yields (.fbcConfig m) s (fun t => t.doneWith m.val [] ∧
      t.fbc (s.rq m.val 0x10 1) = { s.fbc (s.rq m.val 0x10 1) with configured := true, owned := true, filters := [], restricted := s.targetFault 9 } ∧
      t.queueReady (64 + 2 * s.rq m.val 0x10 1) (s.rq m.val 0x22 1) ∧ t.queueReady (65 + 2 * s.rq m.val 0x10 1) (s.rq m.val 0x23 1) ∧
      t.queueReady (s.rq m.val 0x1F 1) (s.rq m.val 0x24 1) ∧ t.mem = s.mem ∧ t.aon = s.aon) := by
  have hk : s.rq m.val 0x10 1 < 4 := of_decide_eq_true (State.asks_field (a := 0x10) (n := 1) h rfl (by decide) (by decide))
  have htx : 108 ≤ s.rq m.val 0x1F 1 ∧ s.rq m.val 0x1F 1 ≤ 127 :=
    of_decide_eq_true (State.asks_field (a := 0x1F) (n := 1) h rfl (by decide) (by decide))
  have h2 : 4 ≤ s.rq m.val 0x22 1 ∧ s.rq m.val 0x22 1 ≤ 12 :=
    of_decide_eq_true (State.asks_field (a := 0x22) (n := 1) h rfl (by decide) (by decide))
  have h3 : 4 ≤ s.rq m.val 0x23 1 ∧ s.rq m.val 0x23 1 ≤ 12 :=
    of_decide_eq_true (State.asks_field (a := 0x23) (n := 1) h rfl (by decide) (by decide))
  have h4 : 4 ≤ s.rq m.val 0x24 1 ∧ s.rq m.val 0x24 1 ≤ 12 :=
    of_decide_eq_true (State.asks_field (a := 0x24) (n := 1) h rfl (by decide) (by decide))
  have hu := only_coverAreas hcov
  obtain ⟨ho, hf, r1, r2, r3⟩ := State.plainConfig_leaves (u := u) hk htx h2 h3 h4
  have hall : Only (.regs 8 :: fbcRegs ++ [.queues, .regs 6, .fbcs]) s (s.plainConfig u m.val) := (ho.mono (by simp)).after (hu.mono (by simp))
  refine yields_reply (exec_fbcConfig h hcov hread hst hconf hbus hq) (hall.quenchClear hc (by decide) (by decide) (by decide)) fun t ht ha => ?_
  rw [hu.fbc (by decide)] at hf
  exact ⟨ha, (ht.fbc (by decide) _).trans hf, ht.queueReady (by decide) (by decide) (by omega) r1, ht.queueReady (by decide) (by decide) (by omega) r2,
    ht.queueReady (by decide) (by decide) (by omega) r3, (ht.mem (by decide)).trans (hall.mem (by decide)), (ht.aon (by decide)).trans (hall.aon (by decide))⟩

/-- Settles O36: each command is its one branch under the hypotheses given; the queues of a configuration are three distinct ones. -/
theorem controllerCommands : Obligations.ControllerCommands := by
  refine ⟨⟨fun m s h hst hconf hbus hc => setFbc_done_yields (exec_fbcStart h hst hconf hbus) hc,
    fun m b s h hst hstop hmode hrun hc => fbcStop_waits_yields h hst hstop hmode hrun hc,
    fun m b s h hst hstop hmode hclear hc => fbcStop_now_yields h hst hstop hmode hclear hc, fun k m s hst hd hc => ?_,
    fun m s h hst hc => ?_⟩, fun m u s ⟨h, hcov⟩ hread hst hconf hbus hq hc => ?_⟩
  · obtain ⟨t, ht, ha, h1, h2, -, h4, -⟩ := fbcStopTimeout_yields hst hd hc
    exact ⟨t, ht, ha, h1, h2, h4⟩
  · obtain ⟨t, ht, ha, hf, -, -, hfr⟩ := setFbc_done_yields (exec_fbcRejoin h hst) hc
    exact ⟨t, ht, ha, hf, hfr⟩
  · obtain ⟨t, ht, ha, hf, ⟨e1, d1, -⟩, ⟨e2, d2, -⟩, ⟨e3, d3, o3⟩, hm, haon⟩ := fbcConfig_yields h hcov hread hst hconf hbus hq hc
    exact ⟨t, ht, ha, by rw [hf], by rw [hf], by rw [hf], by rw [hf, ← hst], e1, d1, e2, d2, e3, d3, o3, hm, haon⟩
end Sys2Proof.Machine
end
section
/-! Reads and writes of local memory by masters that run no job (R41, R55, R72). -/
namespace Sys2Proof.Machine
open Sys2Proof

/-- A charge to a regulator is of the scheduler alone. -/
theorem State.grant_charges (s : State) (m a len : Nat) (w : Bool) : ∃ u h, (s.grant m a len w).2 = { s with sch.used := u, sch.held := h } := by
  unfold State.grant
  split
  · unfold State.charge
    dsimp only
    split
    · exact ⟨s.sch.used, s.sch.held, rfl⟩
    · split
      · exact ⟨_, _, rfl⟩
      · exact ⟨s.sch.used, _, rfl⟩
  · exact ⟨s.sch.used, s.sch.held, rfl⟩

/-- What a master's earlier writes hold, when it has none posted: they settle nothing. -/
theorem State.settleOwn_none {s : State} {m : Nat} (h : ∀ p ∈ s.bus.posted, p.master ≠ m) (a len : Nat) : s.settleOwn m a len = s := by
  unfold State.settleOwn State.settle
  rw [List.filter_eq_nil_iff.2 fun p hp => by simp [h p hp], List.filter_eq_self.2 fun p hp => by simp [h p hp]]
  rfl

/-- An access to local memory by a master that runs no job. -/
def State.localAccess (s : State) (m : Nat) (cls : AccessClass) (a : Nat) : FabricOp → State
  | .read n => s.localRead m cls none a n
  | .write d => s.localWrite m cls none a d

section
variable {s : State} {m : MasterId} {cls : AccessClass} {a : BitVec 40} {o : Bool} (hrun : s.fabricRuns = true) (h30 : 0x30 ≤ m.toNat)
  (h44 : m.toNat < 0x44) (hchip : chipOf a.toNat = s.bus.chipId) (hreg : inRegs (localOf a.toNat) = false)
include hrun h30 h44 hchip hreg

theorem exec_fabricAccess_local {x : FabricOp} (hlen : opLen x ≠ 0) (hgrant : (s.grant m.toNat a.toNat (opLen x) (opIsWrite x)).1 = true) :
    ∃ u h, exec (.fabricAccess m cls a o x) s = done s ({ s with sch.used := u, sch.held := h }.localAccess m.toNat (masterClass m.toNat cls)
      (localOf a.toNat) x) := by
  obtain ⟨u, h, hs⟩ := s.grant_charges m.toNat a.toNat (opLen x) (opIsWrite x)
  refine ⟨u, h, congrArg (done s) ?_⟩
  unfold State.fabricAccess
  dsimp only
  rw [if_neg (by simp [hrun, hlen]; omega), if_neg (by omega), if_pos hgrant, hs]
  exact (if_neg (by simpa using hchip)).trans (if_neg (by simp [hreg]))

theorem write_posts {d : List Byte} (hd : d ≠ []) (hgrant : (s.grant m.toNat a.toNat d.length true).1 = true)
    (hchk : s.memCheck m.toNat (masterClass m.toNat cls) true (localOf a.toNat) d.length = none) :
    Yields (.fabricAccess m cls a o (.write d)) s (fun t =>
      t.bus.posted = s.bus.posted ++ (pieces (localOf a.toNat) d).map (fun e =>
        { master := m.toNat, cls := masterClass m.toNat cls, addr := e.1, bytes := e.2 }) ∧ Frame [.bus, .sch] s t) := by
  obtain ⟨u, h, hexec⟩ := exec_fabricAccess_local (cls := cls) (o := o) hrun h30 h44 hchip hreg (x := .write d)
    (fun e => hd (List.length_eq_zero_iff.1 e)) hgrant
  generalize hs1 : ({ s with sch.used := u, sch.held := h } : State) = s1 at hexec
  have ho : Only [.sch] s s1 := by rw [← hs1]; exact only_setSch s _
  have hw : s1.localWrite m.toNat (masterClass m.toNat cls) none (localOf a.toNat) d = { s1 with bus.posted := s1.bus.posted ++ (pieces (localOf a.toNat) d).map (fun e => { master := m.toNat, cls := masterClass m.toNat cls, addr := e.1, bytes := e.2 }) } := by
    unfold State.localWrite
    rw [show s1.memCheck _ _ true _ _ = none by rw [← hs1]; exact hchk]
  dsimp only [State.localAccess] at hexec
  rw [hw] at hexec
  refine yields_done hexec ⟨?_, Only.frame_finish (((only_setBus s1 _).mono (by simp)).after (ho.mono (by simp)))⟩
  rw [finish_bus, ← hs1]

variable {n : Nat} (hn : 0 < n) (hgrant : (s.grant m.toNat a.toNat n false).1 = true) (hpost : ∀ p ∈ s.bus.posted, p.master ≠ m.toNat)
include hn hgrant hpost

theorem read_returns (hchk : s.memCheck m.toNat (masterClass m.toNat cls) false (localOf a.toNat) n = none)
    (hpow : s.unpowered (localOf a.toNat) = false)
    (hclean : ∀ x, localOf a.toNat / 8 ≤ x / 8 → x / 8 ≤ (localOf a.toNat + n - 1) / 8 → s.chkAt x = 0) :
    Yields (.fabricAccess m cls a o (.read n)) s (fun t =>
      Tab.get (fun _ => []) t.bus.readData m.toNat = s.mbytes (localOf a.toNat) n ∧ Frame [.bus, .sch] s t) := by
  obtain ⟨u, h, hexec⟩ := exec_fabricAccess_local (cls := cls) (o := o) hrun h30 h44 hchip hreg (x := .read n) (by simp [opLen]; omega) hgrant
  generalize hs1 : ({ s with sch.used := u, sch.held := h } : State) = s1 at hexec
  have ho : Only [.sch] s s1 := by rw [← hs1]; exact only_setSch s _
  have hd : s1.demandRead m.toNat (localOf a.toNat) n = (s1.mbytes (localOf a.toNat) n, false, s1) := by
    rw [← hs1]
    exact State.demandRead_clean _ _ _ fun k h1 h2 => hclean (8 * k) (by omega) (by omega)
  have hw : s1.localRead m.toNat (masterClass m.toNat cls) none (localOf a.toNat) n =
      s1.setReadData m.toNat (s1.mbytes (localOf a.toNat) n) false := by
    unfold State.localRead State.readMem
    rw [State.settleOwn_none (by rw [← hs1]; exact hpost), show s1.memCheck _ _ false _ _ = none by rw [← hs1]; exact hchk,
      show s1.unpowered _ = false by rw [← hs1]; exact hpow, hd]
    rfl
  dsimp only [State.localAccess] at hexec
  rw [hw] at hexec
  refine yields_done hexec ⟨?_, Only.frame_finish (((only_setBus s1 _).mono (by simp)).after (ho.mono (by simp)))⟩
  rw [finish_bus, ← hs1]
  exact Tab.get_set_self (α := List Byte) (fun _ => []) _ _ _

theorem read_refused (hchk : s.memCheck m.toNat (masterClass m.toNat cls) false (localOf a.toNat) n = some 2) :
    Yields (.fabricAccess m cls a o (.read n)) s (fun t =>
      Tab.get (fun _ => []) t.bus.readData m.toNat = List.replicate n 0 ∧ t.evc Blk.chip 3 = s.evc Blk.chip 3 + 1 ∧
      Frame [.bus, .sch, .regs 0] s t) := by
  obtain ⟨u, h, hexec⟩ := exec_fabricAccess_local (cls := cls) (o := o) hrun h30 h44 hchip hreg (x := .read n) (by simp [opLen]; omega) hgrant
  generalize hs1 : ({ s with sch.used := u, sch.held := h } : State) = s1 at hexec
  have ho : Only [.sch] s s1 := by rw [← hs1]; exact only_setSch s _
  obtain ⟨s2, hs2⟩ : ∃ s2, s1.fabErr 2 m.toNat (masterClass m.toNat cls) (s1.accessCtx none) false (s1.fullAddr (localOf a.toNat)) = s2 := ⟨_, rfl⟩
  have hw : s1.localRead m.toNat (masterClass m.toNat cls) none (localOf a.toNat) n = s2.setReadData m.toNat (List.replicate n 0) false := by
    unfold State.localRead State.readMem
    rw [State.settleOwn_none (by rw [← hs1]; exact hpost), show s1.memCheck _ _ false _ _ = some 2 by rw [← hs1]; exact hchk]
    dsimp only
    rw [hs2]
    rfl
  dsimp only [State.localAccess] at hexec
  rw [hw] at hexec
  have he : Only [.regs 0] s1 s2 := by rw [← hs2]; exact only_fabErr _ _ _ _ _ _ _
  have hev : s2.evc Blk.chip 3 = s1.evc Blk.chip 3 + 1 := by
    rw [← hs2]
    unfold State.fabErr
    dsimp only
    split <;> exact State.evc_bump_self _ _ _
  refine yields_done hexec ⟨?_, ?_, Only.frame_finish (((only_setBus s2 _).mono (by simp)).after ((he.mono (by simp)).after (ho.mono (by simp))))⟩
  · rw [finish_bus]
    exact Tab.get_set_self (α := List Byte) (fun _ => []) _ _ _
  · rw [finish_evc _ _ (by omega) (by decide)]
    exact hev.trans (congrArg (· + 1) (ho.evc (by decide) (by decide)))
end

/-- Settles O20: the access reaches local memory, and ends where its check says. -/
theorem localAccesses : Obligations.LocalAccesses :=
  ⟨fun _ _ _ _ _ _ hrun h30 h44 hd hchip hreg hg hchk => write_posts hrun h30 h44 hchip hreg hd hg hchk,
   fun _ _ _ _ _ _ hrun h30 h44 hn hchip hreg hg hp hchk hpow hclean => read_returns hrun h30 h44 hchip hreg hn hg hp hchk hpow hclean,
   fun _ _ _ _ _ _ hrun h30 h44 _ hn hchip hreg hg hp hchk => read_refused hrun h30 h44 hchip hreg hn hg hp hchk⟩
end Sys2Proof.Machine
end
section
/-! The states of a mailbox, and the checks of a request (R259 to R268). -/
namespace Sys2Proof.Machine
open Sys2Proof

theorem Only.mb {l : List StatePart} {s t : State} (h : Only l s t) (hp : .fmn ∉ l) (m : Nat) : t.mb m = s.mb m :=
  congrArg (fun f : Fmn => Tab.get mbReset f.mbs m) (h.fmn hp)

/-! ## Doorbell, copy, response, acknowledgement -/

section
variable {m : MbId} {s : State}
theorem mbDoorbellRing_idle_yields (h : (s.mb m.val).st = .idle) : Yields (.mbDoorbellRing m) s (fun t =>
    t.mb m.val = { s.mb m.val with st := .posted, ringAt := s.clk.now } ∧ (∀ k, k ≠ m.val → t.mb k = s.mb k) ∧ Frame [.fmn] s t) := by
  have hexec : exec (.mbDoorbellRing m) s = done s (s.setMb m.val { s.mb m.val with st := .posted, ringAt := s.clk.now }) :=
    congrArg (done s) (if_pos h)
  refine yields_done hexec ⟨?_, fun k hk => ?_, (only_setMb s _ _).frame_finish⟩
  · rw [finish_mb, State.mb_setMb_self]
  · rw [finish_mb, State.mb_setMb_ne s _ hk]
theorem mbDoorbellRing_busy_yields (h : (s.mb m.val).st ≠ .idle) : Yields (.mbDoorbellRing m) s (fun t =>
    t.evc Blk.fmn 2 = s.evc Blk.fmn 2 + 1 ∧ Frame [.regs 5] s t) := by
  have hexec : exec (.mbDoorbellRing m) s = done s (s.bump Blk.fmn 2) := congrArg (done s) (if_neg h)
  refine yields_done hexec ⟨?_, (only_bump s Blk.fmn (by omega)).frame_finish⟩
  rw [finish_evc _ _ (by omega) (by decide)]
  exact State.evc_bump_self _ _ _

/-- The mailbox whose request has been copied. -/
def State.copied (s : State) (m : Nat) : State :=
  { s.setMb m { s.mb m with st := .working, copy := s.reqArea m, ready := true, waiting := false, committed := false, out := none
                            progress := 0, cancelled := false } with
    fmn.order := s.fmn.order.filter (fun k => k != m) ++ [m] }
theorem only_copied (s : State) (m : Nat) : Only [.fmn] s (s.copied m) := only_setFmn s _
theorem State.copied_mb (s : State) (m : Nat) : (s.copied m).mb m = { s.mb m with
    st := .working, copy := s.reqArea m, ready := true, waiting := false, committed := false, out := none, progress := 0, cancelled := false } :=
  Tab.get_set_self mbReset s.fmn.mbs m _
theorem State.copied_mb_ne (s : State) {m k : Nat} (h : k ≠ m) : (s.copied m).mb k = s.mb k := Tab.get_set_ne mbReset s.fmn.mbs _ h
theorem State.copied_permitted (s : State) (m : Nat) (l : List Byte) : (s.copied m).permitted m l = s.permitted m l := by
  unfold State.permitted
  rw [State.copied_mb]

theorem exec_mailboxCopy (hp : (s.mb m.val).st = .posted) (hf : s.foremanRuns = true) : exec (.mailboxCopy m) s = done s
    (if (opClass (bytesAt (s.reqArea m.val) 0 2)).isNone && bytesAt (s.reqArea m.val) 0 2 != 0x0003 || bytesAt (s.reqArea m.val) 0x0A 1 != 3 then
        (s.copied m.val).refuse m.val rBadCommand 0
      else if !(s.copied m.val).permitted m.val (s.reqArea m.val) then (s.copied m.val).refuse m.val rNotPermitted 0
      else if (s.mb m.val).cancelled then (s.copied m.val).refuse m.val rSuperseded 0
      else s.copied m.val) := congrArg (done s) (if_pos ⟨hp, hf⟩)

theorem mailboxCopy_ok_yields (hp : (s.mb m.val).st = .posted) (hf : s.foremanRuns = true) (hc : (s.mb m.val).cancelled = false)
    (hop : (opClass (bytesAt (s.reqArea m.val) 0 2)).isSome = true ∨ bytesAt (s.reqArea m.val) 0 2 = 3)
    (hv : bytesAt (s.reqArea m.val) 0x0A 1 = 3) (hperm : s.permitted m.val (s.reqArea m.val) = true) : Yields (.mailboxCopy m) s (fun t =>
      (t.mb m.val).st = .working ∧ (t.mb m.val).copy = s.reqArea m.val ∧ (t.mb m.val).ready = true ∧ (t.mb m.val).out = none ∧
      (∀ k, k ≠ m.val → t.mb k = s.mb k) ∧ Frame [.fmn] s t) := by
  have hbad : ((opClass (bytesAt (s.reqArea m.val) 0 2)).isNone && bytesAt (s.reqArea m.val) 0 2 != 0x0003 ||
      bytesAt (s.reqArea m.val) 0x0A 1 != 3) = false := by
    rw [hv, Bool.or_eq_false_iff, Bool.and_eq_false_iff]
    refine ⟨hop.imp (fun h => Option.isNone_eq_false_iff.2 h) (fun h => by rw [h]; rfl), rfl⟩
  have hexec := exec_mailboxCopy hp hf
  rw [hbad, State.copied_permitted, hperm, hc, if_neg (by decide), if_neg (by decide), if_neg (by decide)] at hexec
  refine yields_done hexec ?_
  rw [finish_mb]
  exact ⟨by rw [State.copied_mb], by rw [State.copied_mb], by rw [State.copied_mb], by rw [State.copied_mb],
    fun k hk => by rw [finish_mb]; exact s.copied_mb_ne hk, (only_copied s m.val).frame_finish⟩
theorem mailboxCopy_version_yields (hp : (s.mb m.val).st = .posted) (hf : s.foremanRuns = true)
    (hv : bytesAt (s.reqArea m.val) 0x0A 1 ≠ 3) : Yields (.mailboxCopy m) s (fun t => t.refuses m.val rBadCommand 0 ∧
      (t.mb m.val).ready = false ∧ Frame [.fmn] s t) := by
  have hexec := exec_mailboxCopy hp hf
  rw [if_pos (by simp [hv])] at hexec
  refine yields_done hexec ⟨finish_refuses _ _ _ _ _ _, ?_, Only.frame_finish ((only_reply _ _ _).after (only_copied s m.val))⟩
  rw [finish_mb]
  exact congrArg Mailbox.ready (State.mb_setMb_self _ _ _)

/-- The words of a response area. -/
theorem State.setArea_eq (s : State) (o : Nat) (l : List Byte) :
    s.setArea o l = s.putWords Blk.fmn o 64 (fun w => BitVec.ofNat 32 (bytesAt l (4 * w) 4)) := rfl
theorem mbBase_le (m : MbId) : mbBase m.val ≤ 0x3C00 := by unfold mbBase; have := m.isLt; omega

theorem State.evc_putWords (s : State) (b a n : Nat) (v : Nat → Word) (c j : Nat) : (s.putWords b a n v).evc c j = s.evc c j := by
  induction n with
  | zero => rfl
  | succ n ih =>
    rw [State.putWords_succ]
    exact ih
/-- A vector of PF1 may be due beside the area and its count. -/
theorem State.only_postArea (s : State) (m : Nat) (l : List Byte) :
    Only [] ((s.setArea (mbBase m + 0x100) l).bump Blk.fmn (5 + m)) (s.postArea m l) := by
  unfold State.postArea
  dsimp only
  split
  · exact only_setDue _ _
  · exact Only.refl _ _
/-- Posting a response writes its area and counts; a vector of PF1 may be due. -/
theorem State.postArea_leaves (s : State) (m : MbId) (l : List Byte) : Only [.regs 5] s (s.postArea m.val l) ∧
    (s.postArea m.val l).evc Blk.fmn (5 + m.val) = s.evc Blk.fmn (5 + m.val) + 1 ∧
    ∀ w, w < 64 → (s.postArea m.val l).reg Blk.fmn (mbBase m.val + 0x100 + 4 * w) = BitVec.ofNat 32 (bytesAt l (4 * w) 4) := by
  have hb := mbBase_le m
  have hm := m.isLt
  have hw : ∀ w, w < 64 → (s.setArea (mbBase m.val + 0x100) l).reg Blk.fmn (mbBase m.val + 0x100 + 4 * w) = BitVec.ofNat 32 (bytesAt l (4 * w) 4) := by
    rw [State.setArea_eq]
    exact fun w hw => State.reg_putWords s Blk.fmn (mbBase m.val + 0x100) _ (by omega) hw
  have ho : Only [.regs 5] s (s.setArea (mbBase m.val + 0x100) l) := by
    rw [State.setArea_eq]
    exact only_putWords s Blk.fmn _ _ (by omega)
  have he : ∀ j, (s.setArea (mbBase m.val + 0x100) l).evc Blk.fmn j = s.evc Blk.fmn j := by
    rw [State.setArea_eq]
    exact fun j => State.evc_putWords s _ _ _ _ _ _
  obtain ⟨u, hu⟩ : ∃ u, s.setArea (mbBase m.val + 0x100) l = u := ⟨_, rfl⟩
  rw [hu] at hw ho he
  have hev : (u.bump Blk.fmn (5 + m.val)).evc Blk.fmn (5 + m.val) = s.evc Blk.fmn (5 + m.val) + 1 :=
    (State.evc_bump_self _ _ _).trans (congrArg (· + 1) (he _))
  have hob : Only [.regs 5] s (u.bump Blk.fmn (5 + m.val)) := (only_bump u Blk.fmn (by omega)).after ho
  have hd : Only [] (u.bump Blk.fmn (5 + m.val)) (s.postArea m.val l) := by
    rw [← hu]
    exact s.only_postArea m.val l
  exact ⟨(hd.mono (by simp)).after hob, (hd.evc (by simp) (by omega)).trans hev, fun w h => (hd.reg (by simp) (by omega)).trans (hw w h)⟩

/-- A response on a mailbox that is not a peer's. -/
def State.posted (s : State) (m : Nat) (r : Resp) : State :=
  ({ s.setMb m { s.mb m with st := .responded, out := none } with fmn.order := s.fmn.order.filter (fun k => k != m) }).postArea m
    (responseBytes (s.rqOpcode m) (s.rqTag m) r)
theorem exec_mailboxResponsePost (pct : Fin 100) {r : Resp} (hst : (s.mb m.val).st = .working) (hf : s.foremanRuns = true)
    (hpend : s.pend Blk.fmn (5 + m.val) = false) (hout : (s.mb m.val).out = some r) (hd : (s.mb m.val).discard = false)
    (h8 : m.val ≠ 8) (h9 : m.val ≠ 9) : exec (.mailboxResponsePost m pct) s = done s (s.posted m.val r) := by
  refine congrArg (done s) ((if_neg (by simp [hst, hf, hpend])).trans ?_)
  rw [hout]
  exact (if_neg (by rw [hd]; decide)).trans (if_neg (by omega))
theorem mailboxResponsePost_yields {pct : Fin 100} {r : Resp} (hst : (s.mb m.val).st = .working) (hf : s.foremanRuns = true)
    (hpend : s.pend Blk.fmn (5 + m.val) = false) (hout : (s.mb m.val).out = some r) (hd : (s.mb m.val).discard = false)
    (h8 : m.val ≠ 8) (h9 : m.val ≠ 9) : Yields (.mailboxResponsePost m pct) s (fun t => (t.mb m.val).st = .responded ∧ (t.mb m.val).out = none ∧
      t.evc Blk.fmn (5 + m.val) = s.evc Blk.fmn (5 + m.val) + 1 ∧
      (∀ w, w < 64 → t.reg Blk.fmn (mbBase m.val + 0x100 + 4 * w) =
        BitVec.ofNat 32 (bytesAt (responseBytes (s.rqOpcode m.val) (s.rqTag m.val) r) (4 * w) 4)) ∧
      (∀ k, k ≠ m.val → t.mb k = s.mb k) ∧ Frame [.fmn, .regs 5] s t) := by
  have hb := mbBase_le m
  have hm := m.isLt
  generalize hl : responseBytes (s.rqOpcode m.val) (s.rqTag m.val) r = l
  generalize hs1 : ({ s.setMb m.val { s.mb m.val with st := .responded, out := none } with fmn.order := s.fmn.order.filter (fun k => k != m.val) } : State) = s1
  have ho1 : Only [.fmn] s s1 := by rw [← hs1]; exact only_setFmn s _
  have hmb : s1.mb m.val = { s.mb m.val with st := .responded, out := none } := by
    rw [← hs1]
    exact Tab.get_set_self mbReset s.fmn.mbs m.val _
  have hmbk : ∀ k, k ≠ m.val → s1.mb k = s.mb k := fun k hk => by
    rw [← hs1]
    exact Tab.get_set_ne mbReset s.fmn.mbs _ hk
  obtain ⟨ho2, hev, hw⟩ := s1.postArea_leaves m l
  have hu : s.posted m.val r = s1.postArea m.val l := by rw [← hs1, ← hl]; rfl
  generalize s1.postArea m.val l = u at *
  refine yields_done ((exec_mailboxResponsePost pct hst hf hpend hout hd h8 h9).trans (congrArg (done s) hu)) ⟨?_, ?_, ?_, fun w hlt => ?_, fun k hk => ?_, ?_⟩
  · rw [finish_mb, ho2.mb (by simp), hmb]
  · rw [finish_mb, ho2.mb (by simp), hmb]
  · rw [finish_evc _ _ (by omega) (by simp [Blk.fmn]), hev, ho1.evc (by simp) (by omega)]
  · rw [finish_reg _ _ (by omega) not_tripBlk_fmn, hw w hlt]
  · rw [finish_mb, ho2.mb (by simp), hmbk k hk]
  · exact Only.frame_finish ((ho2.mono (by simp)).after (ho1.mono (by simp)))

theorem only_setAck (s : State) (b : Blk) {j : Nat} (hj : j < 32) (v : Count16) : Only [.regs b] s (s.setAck b j v) := by
  intro p hp
  cases p with
  | regs b' =>
    refine ⟨fun _ _ => rfl, fun i hi => ⟨rfl, Tab.get_set_ne _ _ v ?_⟩⟩
    rw [Ne, evKey_inj hi hj]
    rintro ⟨rfl, -⟩
    exact hp (List.mem_singleton_self _)
  | _ => simp [StatePart.same, State.setAck]
theorem only_msixAgain (s : State) (b : Blk) : Only [] s (s.msixAgain b) := Only.ite (fun _ => only_setDue s _) fun _ => Only.refl _ s

theorem Only.ackOf {l : List StatePart} {s t : State} (h : Only l s t) {b j : Nat} (hp : .regs b ∉ l) (hj : j < 32) : t.ackOf b j = s.ackOf b j :=
  ((h (.regs b) hp).2 j hj).2
theorem finish_ackOf (s0 s : State) (b j : Nat) : (finish s0 s).ackOf b j = s.ackOf b j := by
  unfold State.ackOf
  rw [finish_rf_ack]

theorem mbRespAck_yields (v : Count16) : Yields (.mbRespAck m v) s (fun t => t.ackOf Blk.fmn (5 + m.val) = v ∧
    ((s.mb m.val).st = .responded → v = s.evc Blk.fmn (5 + m.val) → (t.mb m.val).st = .idle) ∧
    (v ≠ s.evc Blk.fmn (5 + m.val) → t.fmn = s.fmn) ∧ Frame [.fmn, .regs 5] s t) := by
  have hm := m.isLt
  have hexec : exec (.mbRespAck m v) s = done s ((s.ackResponse m.val v).msixAgain Blk.fmn) := rfl
  generalize hs1 : s.setAck Blk.fmn (5 + m.val) v = s1
  have ho1 : Only [.regs 5] s s1 := by rw [← hs1]; exact only_setAck s Blk.fmn (by omega) v
  have hack : s1.ackOf Blk.fmn (5 + m.val) = v := by rw [← hs1]; exact Tab.get_set_self _ _ _ _
  have hpend : s1.pend Blk.fmn (5 + m.val) = (s.evc Blk.fmn (5 + m.val) != v) := by
    unfold State.pend
    rw [hack, ← hs1]
    rfl
  have hmb : s1.mb m.val = s.mb m.val := ho1.mb (by simp) _
  have hres : s.ackResponse m.val v = if (s.mb m.val).st = .responded ∧ !(s.evc Blk.fmn (5 + m.val) != v) then
      s1.setMb m.val { s.mb m.val with st := .idle } else s1 := by
    unfold State.ackResponse
    rw [hs1]
    dsimp only
    rw [hpend, hmb]
  generalize s.ackResponse m.val v = s2 at hres hexec
  have ho2 : Only [.fmn] s1 s2 := by
    rw [hres]
    exact Only.ite (fun _ => only_setMb s1 _ _) fun _ => Only.refl _ s1
  have ho3 := only_msixAgain s2 Blk.fmn
  refine yields_done hexec ⟨?_, fun hst hv => ?_, fun hv => ?_, ?_⟩
  · rw [finish_ackOf, ho3.ackOf (by simp) (by omega), ho2.ackOf (by simp) (by omega), hack]
  · rw [finish_mb, ho3.mb (by simp), hres, if_pos ⟨hst, by simp [hv]⟩, State.mb_setMb_self]
  · rw [finish_fmn, ho3.fmn (by simp), hres, if_neg (by simp [Ne.symm hv]), ho1.fmn (by simp)]
  · exact Only.frame_finish ((ho3.mono (by simp)).after ((ho2.mono (by simp)).after (ho1.mono (by simp))))
end

/-! ## The checks of a request -/

theorem State.command_other {s : State} {m op : Nat} (h : s.rqOpcode m ≠ op) (ok : Bool) (c : List (Nat × Bool)) (f : State → State) :
    s.command m op ok c f = s := if_neg fun hc => h hc.2.2.2.1
theorem State.command_badField {s : State} {m op o : Nat} {ok : Bool} {c : List (Nat × Bool)} (f : State → State) (hst : (s.mb m).st = .working)
    (hr : (s.mb m).ready = true) (hout : (s.mb m).out = none) (hop : s.rqOpcode m = op) (ht : s.inTurn m = true)
    (hb : badField (s.headerChecks m ok ++ c) = some o) : s.command m op ok c f = s.refuse m rBadArgument o := by
  unfold State.command
  dsimp only
  rw [if_pos ⟨hst, hr, hout, hop, ht⟩, hb]
theorem badField_eq_some {c : List (Nat × Bool)} {o : Nat} : badField c = some o ↔ ∃ l r, c = l ++ (o, false) :: r ∧ ∀ e ∈ l, e.2 = true := by
  induction c with
  | nil => simp [badField]
  | cons x t ih =>
    obtain ⟨a, ok⟩ := x
    cases ok with
    | true =>
      refine ih.trans ⟨fun ⟨l, r, ht, hl⟩ => ⟨(a, true) :: l, r, by rw [ht]; rfl, ?_⟩, fun ⟨l, r, ht, hl⟩ => ?_⟩
      · simpa using hl
      · cases l with
        | nil => simp at ht
        | cons y l =>
          obtain ⟨-, ht⟩ := List.cons.inj ht
          exact ⟨l, r, ht, fun e he => hl e (List.mem_cons_of_mem _ he)⟩
    | false =>
      refine ⟨fun h => ⟨[], t, ?_, by simp⟩, fun ⟨l, r, ht, hl⟩ => ?_⟩
      · cases h
        rfl
      · cases l with
        | nil =>
          obtain ⟨he, -⟩ := List.cons.inj ht
          exact congrArg (fun e : Nat × Bool => some e.1) he
        | cons y l =>
          obtain ⟨rfl, -⟩ := List.cons.inj ht
          exact absurd (hl _ (List.mem_cons_self ..)) (by simp)
theorem State.fieldChecks_stray {s : State} {m i : Nat} {fields : List (Nat × Nat × Bool)} (hi : i < s.rqLen m)
    (hf : ∀ e ∈ fields, 0x10 + i < e.1 ∨ e.1 + e.2.1 ≤ 0x10 + i) (hz : s.rq m (0x10 + i) 1 ≠ 0) : badField (s.fieldChecks m fields) ≠ none := by
  intro hn
  have hfind : fields.find? (fun e => e.1 ≤ 0x10 + i && 0x10 + i < e.1 + e.2.1) = none :=
    List.find?_eq_none.2 fun e he => by have := hf e he; simp; omega
  have := badField_none hn (e := (0x10 + i, s.rq m (0x10 + i) 1 == 0)) (List.mem_map.2 ⟨i, List.mem_range.2 hi, by dsimp only; rw [hfind]⟩)
  exact hz (eq_of_beq this)

/-- Settles O23: each state of a mailbox has its one command, and the checks stop at the first field found wrong. -/
theorem mailboxLifecycle : Obligations.MailboxLifecycle := by
  refine ⟨⟨fun _ _ h => mbDoorbellRing_idle_yields h, fun _ _ h => mbDoorbellRing_busy_yields h,
    fun _ _ hp hf hc hop hv hperm => mailboxCopy_ok_yields hp hf hc hop hv hperm, fun _ _ hp hf hv => mailboxCopy_version_yields hp hf hv,
    fun _ _ _ _ hst hf hpend hout hd h8 h9 => mailboxResponsePost_yields hst hf hpend hout hd h8 h9, fun _ v _ => mbRespAck_yields v⟩,
    fun s m op ok c f h => State.command_other h ok c f, fun s m op o ok c f hst hr hout hop ht hb => ?_, fun c o => badField_eq_some,
    fun s m fields i hi hf hz => State.fieldChecks_stray hi hf hz⟩
  rw [State.command_badField f hst hr hout hop ht hb]
  exact ⟨State.refuse_refuses s m _ _ _, (only_reply s m _).frame, fun k hk => State.mb_setMb_ne s _ hk⟩
end Sys2Proof.Machine
end
section
/-! The Foreman's own commands: IDENTIFY, PWR_REQUEST, DVFS_POINT (R278, R282, R283). -/
namespace Sys2Proof.Machine
open Sys2Proof

/-! ## IDENTIFY -/

/-- The payload of R278. -/
def State.identity (s : State) (m : Nat) : List Byte :=
  let im := s.rst.image
  leBytes 2 0x0960 ++ leBytes 2 0x00B0 ++ leBytes 4 im.release ++ leBytes 4 3 ++ leBytes 1 im.slot ++
    leBytes 1 s.bus.chipId ++ leBytes 1 s.chips ++ leBytes 1 Config.grade ++ leBytes 4 im.rollback ++
    leBytes 4 im.seq ++ leBytes 1 m ++ List.replicate 7 0 ++ leBytes 8 s.tbNow

/-- Fields before the one read are skipped. -/
theorem bytesAt_skip {l : List Byte} (r : List Byte) {o : Nat} (n : Nat) (h : l.length ≤ o) : bytesAt (l ++ r) o n = bytesAt r (o - l.length) n := by
  unfold bytesAt
  rw [List.drop_append, List.drop_eq_nil_of_le h, List.nil_append]
theorem bytesAt_skip_leBytes {k : Nat} (v : Nat) (r : List Byte) {o : Nat} (n : Nat) (h : k ≤ o) :
    bytesAt (leBytes k v ++ r) o n = bytesAt r (o - k) n := by
  rw [bytesAt_skip r n (by rw [leBytes_length]; exact h), leBytes_length]
theorem bytesAt_leBytes (n v : Nat) : bytesAt (leBytes n v) 0 n = v % 256 ^ n := by
  unfold bytesAt
  rw [List.drop_zero, List.take_of_length_le (by simp), leNat_leBytes]
theorem bytesAt_head (n v : Nat) (r : List Byte) : bytesAt (leBytes n v ++ r) 0 n = v % 256 ^ n := by
  rw [← bytesAt_leBytes]
  unfold bytesAt
  rw [List.drop_zero, List.drop_zero, List.take_append_of_le_length (by simp)]

theorem identity_fields (s : State) (m : MbId) : (s.identity m.val).length = 40 ∧ bytesAt (s.identity m.val) 0 2 = 0x0960 ∧
    bytesAt (s.identity m.val) 2 2 = 0x00B0 ∧ bytesAt (s.identity m.val) 8 4 = 3 ∧
    bytesAt (s.identity m.val) 4 4 = s.rst.image.release % 2 ^ 32 ∧ bytesAt (s.identity m.val) 13 1 = s.bus.chipId % 256 ∧
    bytesAt (s.identity m.val) 24 1 = m.val ∧ bytesAt (s.identity m.val) 32 8 = s.tbNow := by
  have hm := m.isLt
  have ht : s.tbNow < 2 ^ 64 := Nat.mod_lt _ (by decide)
  unfold State.identity
  dsimp only
  simp only [List.append_assoc]
  refine ⟨by simp, ?_, ?_, ?_, ?_, ?_, ?_, ?_⟩
  · exact bytesAt_head 2 0x0960 _
  · exact (bytesAt_skip_leBytes _ _ _ (by omega)).trans (bytesAt_head 2 0x00B0 _)
  · simp only [bytesAt_skip_leBytes, Nat.reduceLeDiff, Nat.reduceSub, bytesAt_head, Nat.reducePow, Nat.reduceMod]
  · simp only [bytesAt_skip_leBytes, Nat.reduceLeDiff, Nat.reduceSub, bytesAt_head, Nat.reducePow]
  · simp only [bytesAt_skip_leBytes, Nat.reduceLeDiff, Nat.reduceSub, bytesAt_head, Nat.reducePow]
  · simp only [bytesAt_skip_leBytes, Nat.reduceLeDiff, Nat.reduceSub, bytesAt_head, Nat.reducePow]
    omega
  · simp only [bytesAt_skip_leBytes, Nat.reduceLeDiff, Nat.reduceSub]
    rw [bytesAt_skip _ _ (by simp), List.length_replicate, bytesAt_leBytes]
    exact Nat.mod_eq_of_lt ht
theorem identify_yields {m : MbId} {s : State} (h : s.accepts m.val 1 (s.rqLen m.val == 0) []) : Yields (.identify m) s (fun t =>
    (∃ p, t.doneWith m.val p ∧ p.length = 40 ∧ bytesAt p 0 2 = 0x0960 ∧ bytesAt p 2 2 = 0x00B0 ∧ bytesAt p 8 4 = 3 ∧
      bytesAt p 4 4 = s.rst.image.release % 2 ^ 32 ∧ bytesAt p 13 1 = s.bus.chipId % 256 ∧ bytesAt p 24 1 = m.val ∧
      bytesAt p 32 8 = s.tbNow) ∧ Frame [.fmn] s t) := by
  have hexec : exec (.identify m) s = done s (s.replyDone m.val (s.identity m.val)) := congrArg (done s) (State.command_accepts _ h)
  exact yields_done hexec ⟨⟨_, finish_answers s s m.val _, identity_fields s m⟩, (only_reply s m.val _).frame_finish⟩

/-! ## PWR_REQUEST -/

section
variable {m : MbId} {s : State}
theorem powerBusy_eq_false (h : s.powerBusy = false) : s.fmn.pwrMb = none ∧ s.fmn.calmArmed = none ∧ s.fmn.dvfs = none := by
  simpa [State.powerBusy, and_assoc] using h

theorem State.powerRequest_starts {r : Nat} (h : s.pwrReason r = none) : Only [.aon, .regs 31] s (s.powerRequest r) ∧
    (s.powerRequest r).aon.moving = some (r - 1) ∧ (s.powerRequest r).aon.pwr = s.aon.pwr := by
  unfold State.powerRequest
  rw [h]
  dsimp only
  split
  · exact ⟨(only_pmicCalm _ true).after ((only_setAon s _).mono (by simp)), rfl, rfl⟩
  · exact ⟨(only_setAon s _).mono (by simp), rfl, rfl⟩
theorem State.pwrReason_setCalmArmed (s : State) (c : Option Nat) (r : Nat) : ({ s with fmn.calmArmed := c } : State).pwrReason r = s.pwrReason r := rfl

/-- The field of PWR_REQUEST. -/
def State.pwrFields (s : State) (m : Nat) : List (Nat × Nat × Bool) := [(0x10, 1, 1 ≤ s.rq m 0x10 1 && s.rq m 0x10 1 ≤ 4)]
theorem exec_pwrRequest (h : s.asks m.val 0x0101 1 (s.pwrFields m.val)) (hb : s.powerBusy = false) (hm : s.aon.moving = none) :
    exec (.pwrRequest m) s = done s
      (if s.rq m.val 0x10 1 = 1 && s.aon.grave.isSome then s.refuse m.val rStateConflict 3 (leBytes 1 s.aon.pwr ++ leBytes 1 0)
      else if s.rq m.val 0x10 1 = 1 then { s with fmn.calmArmed := some s.clk.now }.replyDone m.val (leBytes 2 1)
      else match s.pwrReason (s.rq m.val 0x10 1) with
      | some r => (s.pwrRefuse (s.rq m.val 0x10 1) r).refuse m.val rStateConflict r (leBytes 1 s.aon.pwr ++ leBytes 1 r)
      | none => { (s.powerRequest (s.rq m.val 0x10 1)).await m.val with fmn.pwrMb := some m.val }) :=
  congrArg (done s) ((if_neg (by rw [(powerBusy_eq_false hb).1]; simp)).trans ((State.request_asks _ h).trans
    ((if_neg (by simp [hb])).trans (if_neg (by simp [hm])))))

theorem pwrRequest_calm_yields (h : s.asks m.val 0x0101 1 (s.pwrFields m.val)) (hb : s.powerBusy = false) (hm : s.aon.moving = none)
    (hg : s.aon.grave = none) (hr : s.rq m.val 0x10 1 = 1) :
    Yields (.pwrRequest m) s (fun t => t.doneWith m.val [1, 0] ∧ t.fmn.calmArmed = some s.clk.now ∧ Frame [.fmn] s t) := by
  refine yields_done ((exec_pwrRequest h hb hm).trans (congrArg (done s) ((if_neg (by simp [hg])).trans (if_pos hr)))) ⟨finish_answers _ _ _ _, ?_, ?_⟩
  · rw [finish_fmn]
    rfl
  · exact Only.frame_finish ((only_reply _ _ _).after (only_setFmn s _))
theorem pwrRequest_starts_yields (h : s.asks m.val 0x0101 1 (s.pwrFields m.val)) (hb : s.powerBusy = false) (hm : s.aon.moving = none)
    (hr : s.rq m.val 0x10 1 ≠ 1) (hn : s.pwrReason (s.rq m.val 0x10 1) = none) : Yields (.pwrRequest m) s (fun t =>
      (t.mb m.val).waiting = true ∧ (t.mb m.val).out = none ∧ t.fmn.pwrMb = some m.val ∧
      t.aon.moving = some (s.rq m.val 0x10 1 - 1) ∧ t.aon.pwr = s.aon.pwr ∧ t.mem = s.mem) := by
  obtain ⟨-, -, hout, -⟩ := id h
  have hexec := (exec_pwrRequest h hb hm).trans (congrArg (done s) ((if_neg (by simp [hr])).trans (if_neg hr)))
  rw [hn] at hexec
  obtain ⟨ho, h1, h2⟩ := s.powerRequest_starts hn
  obtain ⟨u, hu⟩ : ∃ u, s.powerRequest (s.rq m.val 0x10 1) = u := ⟨_, rfl⟩
  rw [hu] at hexec ho h1 h2
  have hw : (({ u.await m.val with fmn.pwrMb := some m.val } : State).mb m.val) = { u.mb m.val with ready := false, waiting := true } :=
    Tab.get_set_self mbReset u.fmn.mbs m.val _
  refine yields_done hexec ⟨?_, ?_, ?_, ?_, ?_, ?_⟩
  · rw [finish_mb, hw]
  · rw [finish_mb, hw, ho.mb (by simp), hout]
  · rw [finish_fmn]
  · rw [finish_aon]
    exact h1
  · rw [finish_aon]
    exact h2
  · rw [finish_mem]
    exact ho.mem (by simp)
theorem pwrRequest_refused_yields {r : Nat} (h : s.asks m.val 0x0101 1 (s.pwrFields m.val)) (hb : s.powerBusy = false) (hm : s.aon.moving = none)
    (hr : s.rq m.val 0x10 1 ≠ 1) (hn : s.pwrReason (s.rq m.val 0x10 1) = some r) : Yields (.pwrRequest m) s (fun t =>
      t.refuses m.val rStateConflict r ∧ t.evc Blk.aon 3 = s.evc Blk.aon 3 + 1 ∧ t.aon = s.aon ∧ Frame [.fmn, .regs 1] s t) := by
  have hexec := (exec_pwrRequest h hb hm).trans (congrArg (done s) ((if_neg (by simp [hr])).trans (if_neg hr)))
  rw [hn] at hexec
  dsimp only at hexec
  have ho : Only [.regs 1] s (s.pwrRefuse (s.rq m.val 0x10 1) r) := only_bumpInfo s Blk.aon (by omega) (by omega) _
  have he : (s.pwrRefuse (s.rq m.val 0x10 1) r).evc Blk.aon 3 = s.evc Blk.aon 3 + 1 := State.evc_bumpInfo_self _ _ _ _ _
  generalize s.pwrRefuse (s.rq m.val 0x10 1) r = u at *
  refine yields_done hexec ⟨finish_refuses _ _ _ _ _ _, ?_, ?_, ?_⟩
  · exact (finish_evc _ _ (by omega) (by decide)).trans he
  · rw [finish_aon]
    exact ho.aon (by simp)
  · exact Only.frame_finish (((only_reply _ _ _).mono (by simp)).after (ho.mono (by simp)))
theorem deferredCalmRequest_yields {n : Nat} (ha : s.fmn.calmArmed = some n) (hf : s.foremanRuns = true)
    (hl : s.bus.l1sub = 3 ∨ s.rst.perst = true ∨ n + 2000 * tbMs ≤ s.clk.now) (hn : s.pwrReason 1 = none) :
    Yields .deferredCalmRequest s (fun t => t.fmn.calmArmed = none ∧ t.aon.moving = some 0 ∧ t.mem = s.mem) := by
  have hgo : (s.foremanRuns && (s.bus.l1sub == 3 || s.rst.perst || decide (n + 2000 * tbMs ≤ s.clk.now))) = true := by
    rw [hf]
    rcases hl with h | h | h <;> simp [h]
  have hexec : exec .deferredCalmRequest s = done s (({ s with fmn.calmArmed := none }).powerRequest 1) := by
    show execDeferredCalmRequest s = _
    unfold execDeferredCalmRequest
    rw [ha]
    exact congrArg (done s) (if_pos hgo)
  have hn' : ({ s with fmn.calmArmed := none } : State).pwrReason 1 = none := (State.pwrReason_setCalmArmed s none 1).trans hn
  obtain ⟨ho, h1, -⟩ := State.powerRequest_starts hn'
  refine yields_done hexec ⟨?_, ?_, ?_⟩
  · rw [finish_fmn, ho.fmn (by simp)]
  · rw [finish_aon]
    exact h1
  · rw [finish_mem, ho.mem (by simp)]

/-! ## DVFS_POINT -/

/-- The field of DVFS_POINT. -/
def State.dvfsFields (s : State) (m : Nat) : List (Nat × Nat × Bool) := [(0x10, 1, s.rq m 0x10 1 < 4)]
/-- The step that DVFS_POINT has begun: admission stands still, and the mailbox waits. -/
def State.dvfsBegun (s : State) (m : Nat) : State :=
  { s.await m with fmn.dvfs := some { mb := m, point := s.rq m 0x10 1, at0 := s.clk.now }, fmn.admitStopped := true }
theorem only_dvfsBegun (s : State) (m : Nat) : Only [.fmn] s (s.dvfsBegun m) := only_setFmn s _
theorem exec_dvfsPoint {a : Bool} (hd : s.fmn.dvfs = none) (h : s.asks m.val 0x0102 1 (s.dvfsFields m.val)) (hp : s.aon.pwr = 3)
    (hb : s.powerBusy = false) (hne : s.point ≠ s.rq m.val 0x10 1) : exec (.dvfsPoint m a) s = done s
      ((s.dvfsBegun m.val).dvfsGo { mb := m.val, point := s.rq m.val 0x10 1, at0 := s.clk.now } a) := by
  show execDvfsPoint m a s = _
  unfold execDvfsPoint
  rw [hd]
  exact congrArg (done s) ((State.request_asks _ h).trans ((if_neg (by simp [hp])).trans ((if_neg (by simp [hb])).trans (if_neg hne))))

theorem dvfsPoint_waits_yields {a : Bool} (hd : s.fmn.dvfs = none) (h : s.asks m.val 0x0102 1 (s.dvfsFields m.val)) (hp : s.aon.pwr = 3)
    (hb : s.powerBusy = false) (hne : s.point ≠ s.rq m.val 0x10 1) (hr : s.dvfsReady = false) :
    Yields (.dvfsPoint m a) s (fun t => (t.mb m.val).waiting = true ∧ t.fmn.admitStopped = true ∧
      t.fmn.dvfs = some { mb := m.val, point := s.rq m.val 0x10 1, at0 := s.clk.now } ∧ Frame [.fmn] s t) := by
  have hgo : (s.dvfsBegun m.val).dvfsGo { mb := m.val, point := s.rq m.val 0x10 1, at0 := s.clk.now } a = s.dvfsBegun m.val :=
    if_pos (by rw [show (s.dvfsBegun m.val).dvfsReady = s.dvfsReady from rfl, hr]; rfl)
  refine yields_done ((exec_dvfsPoint hd h hp hb hne).trans (congrArg (done s) hgo)) ⟨?_, ?_, ?_, (only_dvfsBegun s m.val).frame_finish⟩
  · rw [finish_mb]
    exact congrArg Mailbox.waiting (Tab.get_set_self mbReset s.fmn.mbs m.val _)
  · rw [finish_fmn]
    rfl
  · rw [finish_fmn]
    rfl

theorem only_cruPointWrite (s : State) (p : Nat) : Only [.clk, .regs 3] s (s.cruPointWrite p) :=
  Only.ite (fun _ => (only_clkRefuse s _ _ _).mono (by simp)) fun _ =>
    ((only_setClk _ _).mono (by simp)).after ((only_setReg s Blk.clk (by omega) _).mono (by simp))
theorem only_moveCru (s : State) (p : Nat) : Only [.clk, .regs 3] s (s.moveCru p) :=
  (only_seqMove _ 4 4).after (((only_setClk _ _).mono (by simp)).after ((only_cruPointWrite _ p).after (only_seqMove s 4 3)))
theorem State.reg_seqMove (s : State) (d c b o : Nat) : (s.seqMove d c).reg b o = s.reg b o := by
  unfold State.seqMove
  dsimp only
  split <;> rfl
/-- The CRU domain stands on HFRC when CLK_CRU_POINT is written, so the write is taken. -/
theorem State.moveCru_point (s : State) {p : Nat} (hp : p < 4) : (s.moveCru p).point = p := by
  have ha : ((s.seqMove 4 3).domain 4).active ≠ 4 := by rw [(s.seqMove_active 4 3).1]; decide
  unfold State.moveCru State.cruPointWrite
  rw [if_neg ha]
  unfold State.point
  rw [State.reg_seqMove]
  generalize s.seqMove 4 3 = u
  rw [show (((u.setReg Blk.clk 0x104 (BitVec.ofNat 32 (p % 4))).setReady 4 false).setReady 4 true).reg Blk.clk 0x104 = BitVec.ofNat 32 (p % 4) from
    State.reg_setReg_self u _ _ _, fld_ofNat _ (by omega)]
  omega

/-- What the end of a step leaves of the Foreman: no step, admission on, the mailbox answered. -/
theorem State.dvfsEnd_leaves (s : State) (m : Nat) (r : Resp) : Only [.fmn] s (s.dvfsEnd fun s => s.reply m r) ∧
    (s.dvfsEnd fun s => s.reply m r).fmn.dvfs = none ∧ (s.dvfsEnd fun s => s.reply m r).fmn.admitStopped = false :=
  ⟨(only_reply _ m r).after (only_setFmn s _), rfl, rfl⟩
theorem dvfsEnd_yields {i : Instr} {u : State} {mb : Nat} {r : Resp} (h : exec i s = done s (u.dvfsEnd fun s => s.reply mb r)) :
    Yields i s (fun t => t.answers mb r ∧ t.fmn.dvfs = none ∧ t.fmn.admitStopped = false ∧ t.pins = u.pins ∧ t.mem = u.mem ∧ t.aon = u.aon ∧
      (∀ b o, ¬tripBlk b → o < 0x10000 → t.reg b o = u.reg b o)) := by
  obtain ⟨ho, h1, h2⟩ := u.dvfsEnd_leaves mb r
  refine yields_done h ⟨finish_answers _ _ _ _, ?_, ?_, ?_, ?_, ?_, fun b o hb hlt => (finish_reg _ _ hlt hb).trans rfl⟩
  · rw [finish_fmn, h1]
  · rw [finish_fmn, h2]
  · rw [finish_pins, ho .pins (by decide)]
  · rw [finish_mem, ho.mem (by decide)]
  · rw [finish_aon, ho.aon (by decide)]

/-- What a raise leaves before its answer. -/
def State.raised (s : State) (p : Nat) : State := ((s.setVset p).setReg Blk.baro 0x110 (BitVec.ofNat 32 (pointThr p))).moveCru p
theorem State.raised_leaves (s : State) {p : Nat} (hp : p < 4) : Only [.pins, .regs 2, .clk, .regs 3] s (s.raised p) ∧ (s.raised p).point = p ∧
    (s.raised p).pins.vset = 600 + 5 * pointVset p ∧ (s.raised p).reg Blk.baro 0x110 = BitVec.ofNat 32 (pointThr p) := by
  unfold State.raised
  generalize hu : (s.setVset p).setReg Blk.baro 0x110 (BitVec.ofNat 32 (pointThr p)) = u
  have ho : Only [.pins, .regs 2] s u := by
    rw [← hu]
    exact ((only_setReg _ Blk.baro (by omega) _).mono (by simp)).after ((only_setPins s _).mono (by simp))
  have hmove := only_moveCru u p
  refine ⟨(hmove.mono (by simp)).after (ho.mono (by simp)), u.moveCru_point hp, ?_, ?_⟩
  · rw [hmove .pins (by decide), ← hu]
    rfl
  · rw [hmove.reg (by decide) (by decide), ← hu]
    exact State.reg_setReg_self _ _ _ _

theorem dvfsPoint_raise_yields (hd : s.fmn.dvfs = none) (h : s.asks m.val 0x0102 1 (s.dvfsFields m.val)) (hp : s.aon.pwr = 3)
    (hb : s.powerBusy = false) (hlt : s.point < s.rq m.val 0x10 1) (hr : s.dvfsReady = true) :
    Yields (.dvfsPoint m true) s (fun t => t.doneWith m.val [] ∧ t.fmn.dvfs = none ∧ t.fmn.admitStopped = false ∧
      t.pins.vset = 600 + 5 * pointVset (s.rq m.val 0x10 1) ∧ t.point = s.rq m.val 0x10 1 ∧
      t.reg Blk.baro 0x110 = BitVec.ofNat 32 (pointThr (s.rq m.val 0x10 1)) ∧ t.mem = s.mem ∧ t.aon = s.aon) := by
  have hlt4 : s.rq m.val 0x10 1 < 4 := of_decide_eq_true (State.asks_field (a := 0x10) (n := 1) h rfl (by decide) (by decide))
  have hexec := exec_dvfsPoint (a := true) hd h hp hb (Nat.ne_of_lt hlt)
  generalize s.rq m.val 0x10 1 = p at *
  have ho := only_dvfsBegun s m.val
  have hpt : (s.dvfsBegun m.val).point = s.point := rfl
  have hready : (s.dvfsBegun m.val).dvfsReady = true := hr
  generalize s.dvfsBegun m.val = u at *
  have hgo : u.dvfsGo { mb := m.val, point := p, at0 := s.clk.now } true = (u.raised p).dvfsEnd fun s => s.replyDone m.val := by
    have hlt' : u.point < p := by rw [hpt]; exact hlt
    have hbefore : u.dvfsBefore { mb := m.val, point := p, at0 := s.clk.now } = u := if_pos hlt'
    refine (if_neg (by rw [hready]; decide)).trans ((if_pos rfl).trans ((if_pos hlt').trans ?_))
    rw [hbefore]
    exact congrArg (fun x : State => x.dvfsEnd fun s => s.replyDone m.val) (if_pos hlt')
  obtain ⟨hol, h1, h2, h3⟩ := u.raised_leaves hlt4
  obtain ⟨t, ht, ha, e1, e2, e3, e4, e5, e6⟩ := dvfsEnd_yields (hexec.trans (congrArg (done s) hgo))
  refine ⟨t, ht, ha, e1, e2, by rw [e3, h2], ?_, ?_, ?_, ?_⟩
  · unfold State.point at h1 ⊢
    rw [e6 Blk.clk _ (by unfold tripBlk Blk.clk; omega) (by omega), h1]
  · rw [e6 Blk.baro _ (by unfold tripBlk Blk.baro; omega) (by omega), h3]
  · rw [e4, hol.mem (by decide), ho.mem (by decide)]
  · rw [e5, hol.aon (by decide), ho.aon (by decide)]

theorem dvfsJobWaitTimeout_yields {d : DvfsStep} (hd : s.fmn.dvfs = some d) (hr : d.retry = false) (hn : s.dvfsReady = false)
    (ht : d.at0 + 5 * tbMs ≤ s.clk.now) : Yields .dvfsJobWaitTimeout s (fun t => t.refuses d.mb rBusy 0 ∧ t.fmn.dvfs = none ∧
      t.fmn.admitStopped = false ∧ Frame [.fmn] s t) := by
  have hexec : exec .dvfsJobWaitTimeout s = done s (s.dvfsEnd fun s => s.refuse d.mb rBusy 0) := by
    show execDvfsJobWaitTimeout s = _
    unfold execDvfsJobWaitTimeout
    rw [hd]
    exact congrArg (done s) (if_pos (by simpa [hr, hn] using ht))
  obtain ⟨t, ht, ha, h1, h2, -⟩ := dvfsEnd_yields hexec
  obtain rfl := Host.Outcome.next.inj (hexec.symm.trans ht)
  exact ⟨_, ht, ⟨_, ha, rfl, rfl⟩, h1, h2, Only.frame_finish (s.dvfsEnd_leaves d.mb _).1⟩
theorem exec_pmicWriteRetry {d : DvfsStep} (a : Bool) (hd : s.fmn.dvfs = some d) (hr : d.retry = true) : exec (.pmicWriteRetry a) s = done s
    (if a then (if s.point < d.point then s.dvfsWritten d else (s.setVset d.point).dvfsEnd (fun s => s.replyDone d.mb))
      else (s.logRecord 3 5 0xFF 0xFF 0 0).dvfsEnd (fun u => u.refuse d.mb rTimeout (if s.point < d.point then 1 else 2))) := by
  show execPmicWriteRetry a s = _
  unfold execPmicWriteRetry
  rw [hd]
  exact congrArg (done s) (if_neg (by simp [hr]))
theorem pmicWriteRetry_failed_yields {d : DvfsStep} (hd : s.fmn.dvfs = some d) (hr : d.retry = true) :
    Yields (.pmicWriteRetry false) s (fun t => t.refuses d.mb rTimeout (if s.point < d.point then 1 else 2) ∧
      t.fmn.dvfs = none ∧ t.pins = s.pins ∧ Frame [.fmn] s t) := by
  have hexec := (exec_pmicWriteRetry false hd hr).trans (congrArg (done s) (if_neg (by decide)))
  have hlog := only_logRecord s 3 5 0xFF 0xFF 0 0
  generalize s.logRecord 3 5 0xFF 0xFF 0 0 = u at *
  obtain ⟨t, ht, ha, h1, -, h3, -⟩ := dvfsEnd_yields hexec
  obtain rfl := Host.Outcome.next.inj (hexec.symm.trans ht)
  exact ⟨_, ht, ⟨_, ha, rfl, rfl⟩, h1, h3.trans (hlog .pins (by decide)), Only.frame_finish ((u.dvfsEnd_leaves d.mb _).1.after hlog)⟩
theorem pmicWriteRetry_lower_yields {d : DvfsStep} (hd : s.fmn.dvfs = some d) (hr : d.retry = true) (hle : d.point ≤ s.point) :
    Yields (.pmicWriteRetry true) s (fun t => t.doneWith d.mb [] ∧ t.fmn.dvfs = none ∧
      t.pins.vset = 600 + 5 * pointVset d.point ∧ Frame [.fmn, .pins] s t) := by
  have hexec := (exec_pmicWriteRetry true hd hr).trans (congrArg (done s) ((if_pos rfl).trans (if_neg (Nat.not_lt.2 hle))))
  obtain ⟨t, ht, ha, h1, -, h3, -⟩ := dvfsEnd_yields hexec
  obtain rfl := Host.Outcome.next.inj (hexec.symm.trans ht)
  exact ⟨_, ht, ha, h1, by rw [h3]; rfl, Only.frame_finish (((State.dvfsEnd_leaves _ d.mb _).1.mono (by simp)).after ((only_setPins s _).mono (by simp)))⟩
end

/-- Settles O25: each command is its one branch under the hypotheses given; the answer and the end of a step change the Foreman alone. -/
theorem foremanCommands : Obligations.ForemanCommands :=
  ⟨⟨fun _ _ h => identify_yields h, logRead_yields⟩,
   ⟨fun _ _ h _ hb hm hg hr => pwrRequest_calm_yields h hb hm hg hr, fun _ _ h hb hm hr hn => pwrRequest_starts_yields h hb hm hr hn,
    fun _ _ _ h hb hm hr hn => pwrRequest_refused_yields h hb hm hr hn, fun _ _ ha hf hl hn => deferredCalmRequest_yields ha hf hl hn⟩,
   fun _ _ hd h hp hb hlt hr => dvfsPoint_raise_yields hd h hp hb hlt hr, fun _ _ _ hd h hp hb hne hr => dvfsPoint_waits_yields hd h hp hb hne hr,
   fun _ _ hd hr hn ht => dvfsJobWaitTimeout_yields hd hr hn ht, fun _ _ hd hr => pmicWriteRetry_failed_yields hd hr,
   fun _ _ hd hr hle => pmicWriteRetry_lower_yields hd hr hle⟩
end Sys2Proof.Machine
end
section
/-! Firmware update and the watchdog (R287 to R297, R1012). -/
namespace Sys2Proof.Machine
open Sys2Proof

/-! ## Firmware update -/

section
variable {m : MbId} {s : State}
/-- The payload that FW_STAGE answers with. -/
def State.stagePayload (s : State) (h : List Byte) : List Byte :=
  leBytes 1 8 ++ leBytes 1 s.targetSlot ++ leBytes 2 0 ++ leBytes 4 (parseImage 3 h).release ++ leBytes 4 (parseImage 3 h).rollback ++
    leBytes 4 (parseImage 3 h).seq
theorem fwStage_yields {h : List Byte} {u : State}
    (hask : s.asks m.val 0x0B01 8 [(0x10, 8, s.rq m.val 0x10 8 % 4096 == 0 && ingotRange (s.rq m.val 0x10 8) 0x200)])
    (hr : s.stageReason (s.rq m.val 0x10 8) = (8, h, u))
    (hseq : u.rst.image.slot < 2 → u.slotSeq u.rst.image.slot < (parseImage 3 h).seq) :
    Yields (.fwStage m) s (fun t => t.fmn.staged = some (s.rq m.val 0x10 8, h) ∧ (∃ p, t.doneWith m.val p ∧ p.take 1 = [8]) ∧
      t.aon = u.aon ∧ t.pins = u.pins ∧ t.sec = u.sec) := by
  have hexec : exec (.fwStage m) s = done s ({ u with fmn.staged := some (s.rq m.val 0x10 8, h) }.replyDone m.val (u.stagePayload h)) := by
    refine congrArg (done s) ((State.request_asks _ hask).trans ?_)
    rw [hr]
    refine (if_neg (by decide)).trans (if_neg ?_)
    rw [Bool.and_eq_true, decide_eq_true_eq, decide_eq_true_eq]
    exact fun ⟨h1, h2⟩ => absurd (hseq h1) (Nat.not_lt.2 h2)
  generalize hv : ({ u with fmn.staged := some (s.rq m.val 0x10 8, h) } : State) = v at hexec
  have ho : Only [.fmn] u v := by rw [← hv]; exact only_setFmn u _
  have hr := (only_reply v m.val { code := rDone, payload := u.stagePayload h, progress := 100 }).after ho
  refine yields_done hexec ⟨?_, ⟨_, finish_answers _ _ _ _, rfl⟩, ?_, ?_, ?_⟩
  · rw [finish_fmn, ← hv]
    rfl
  · rw [finish_aon]
    exact hr.aon (by simp)
  · rw [finish_pins]
    exact hr .pins (by simp)
  · rw [finish_sec]
    exact hr .sec (by simp)

theorem fwWriteSlot_begins_yields {a : Nat} {h : List Byte} (hacc : s.accepts m.val 0x0B02 (s.rqLen m.val == 0) []) (hw : s.fmn.slotWrite = none)
    (hst : s.fmn.staged = some (a, h)) (hb : s.fmn.flashBusy = false) : Yields (.fwWriteSlot m) s (fun t => (t.mb m.val).waiting = true ∧
      t.fmn.flashBusy = true ∧ t.fmn.slotWrite = some (m.val, s.targetSlot, 1) ∧ Frame [.fmn] s t) := by
  have hexec : exec (.fwWriteSlot m) s = done s
      { s.await m.val with fmn.flashBusy := true, fmn.slotWrite := some (m.val, s.targetSlot, 1) } := by
    show execFwWriteSlot m s = _
    unfold execFwWriteSlot
    rw [hw, hst]
    exact congrArg (done s) ((State.command_accepts _ hacc).trans ((if_neg (by simp)).trans (if_neg (by simp [hb]))))
  refine yields_done hexec ⟨?_, ?_, ?_, (only_setFmn s _).frame_finish⟩
  · rw [finish_mb]
    exact congrArg Mailbox.waiting (Tab.get_set_self mbReset s.fmn.mbs m.val _)
  · rw [finish_fmn]
  · rw [finish_fmn]
theorem fwWriteSlot_ends_yields {a slot : Nat} {h : List Byte} (hw : s.fmn.slotWrite = some (m.val, slot, 4)) (hst : s.fmn.staged = some (a, h)) :
    Yields (.fwWriteSlot m) s (fun t => t.fmn.slotWrite = none ∧ t.fmn.flashBusy = false ∧ t.fmn.staged = none ∧
      t.doneWith m.val (leBytes 1 slot ++ leBytes 3 0 ++ leBytes 4 (bytesAt h 0x1C 4)) ∧ Frame [.fmn, .pins] s t) := by
  have hexec : exec (.fwWriteSlot m) s = done s
      ({ s.flashProgram (slotAddr slot) h with fmn.slotWrite := none, fmn.flashBusy := false, fmn.staged := none }.replyDone m.val
        (leBytes 1 slot ++ leBytes 3 0 ++ leBytes 4 (bytesAt h 0x1C 4))) := by
    show execFwWriteSlot m s = _
    unfold execFwWriteSlot
    rw [hw, hst]
    exact congrArg (done s) (if_pos rfl)
  refine yields_done hexec ⟨?_, ?_, ?_, finish_answers _ _ _ _, ?_⟩
  · rw [finish_fmn]
    rfl
  · rw [finish_fmn]
    rfl
  · rw [finish_fmn]
    rfl
  · exact Only.frame_finish (((only_reply _ _ _).mono (by simp)).after (((only_setFmn _ _).mono (by simp)).after ((only_setPins s _).mono (by simp))))

theorem fwRestart_done_yields (hacc : s.accepts m.val 0x0B03 (s.rqLen m.val == 0) []) (hq : s.qch.st ≠ .armed)
    (hl : (List.range 12).any s.longRuns = false) : Yields (.fwRestart m) s (fun t => t.doneWith m.val [] ∧
      t.fmn.restartMb = some m.val ∧ t.rst = s.rst ∧ Frame [.fmn] s t) := by
  have hexec : exec (.fwRestart m) s = done s ({ s with fmn.restartMb := some m.val }.replyDone m.val) :=
    congrArg (done s) ((State.command_accepts _ hacc).trans ((if_neg hq).trans (if_neg (by simp [hl]))))
  refine yields_done hexec ⟨finish_answers _ _ _ _, ?_, ?_, Only.frame_finish ((only_reply _ _ _).after (only_setFmn s _))⟩
  · rw [finish_fmn]
    rfl
  · rw [finish_rst]
    rfl
theorem fwRestart_armed_yields (hacc : s.accepts m.val 0x0B03 (s.rqLen m.val == 0) []) (hq : s.qch.st = .armed) :
    Yields (.fwRestart m) s (fun t => t.refuses m.val rStateConflict 1 ∧ Frame [.fmn] s t) := by
  have hexec : exec (.fwRestart m) s = done s (s.refuse m.val rStateConflict 1) :=
    congrArg (done s) ((State.command_accepts _ hacc).trans (if_pos hq))
  exact yields_done hexec ⟨finish_refuses _ _ _ _ _ _, (only_reply s _ _).frame_finish⟩
theorem fwCommitRollback_yields (hacc : s.accepts m.val 0x0B04 (s.rqLen m.val == 0) []) (hslot : s.rst.image.slot ≠ 2)
    (hr : s.sec.otp.rollback < s.rst.image.rollback) : Yields (.fwCommitRollback m) s (fun t =>
      t.sec.otp.rollback = min 63 s.rst.image.rollback ∧ t.sec.otp.revoke = s.sec.otp.revoke ||| BitVec.ofNat 4 (2 ^ s.runningKey - 1) ∧
      t.doneWith m.val (leBytes 1 (min 63 s.rst.image.rollback)) ∧ t.sec.keysetDebug = s.sec.keysetDebug ∧ Frame [.fmn, .sec] s t) := by
  generalize hotp : ({ s.sec.otp with rollback := min 63 s.rst.image.rollback, revoke := s.sec.otp.revoke ||| BitVec.ofNat 4 (2 ^ s.runningKey - 1) } : Otp) = otp
  have hexec : exec (.fwCommitRollback m) s = done s ({ s with sec.otp := otp }.replyDone m.val (leBytes 1 (min 63 s.rst.image.rollback))) := by
    rw [← hotp]
    exact congrArg (done s) ((State.command_accepts _ hacc).trans ((if_neg hslot).trans (if_neg (Nat.not_le.2 hr))))
  have hsec : ∀ p, (finish s ({ s with sec.otp := otp }.replyDone m.val p)).sec = { s.sec with otp := otp } := fun p => by
    rw [finish_sec]
    rfl
  refine yields_done hexec ⟨?_, ?_, finish_answers _ _ _ _, ?_, Only.frame_finish (((only_reply _ _ _).mono (by simp)).after ((only_setSec s _).mono (by simp)))⟩
  · rw [hsec, ← hotp]
  · rw [hsec, ← hotp]
  · rw [hsec]
end

/-! ## The watchdog -/

theorem wdogKick_restarts_yields (s : State) : Yields (.wdogKick 0x6B) s (fun t => t.fmn.wdogFrom = s.clk.now ∧ t.fmn.wdogWarn = false ∧
    t.fmn.mbs = s.fmn.mbs ∧ Frame [.fmn] s t) := by
  refine yields_done ((exec_wdogKick 0x6B s).trans (congrArg (done s) s.kick_key)) ⟨?_, ?_, ?_, (only_setFmn s _).frame_finish⟩ <;> rw [finish_fmn]
theorem wdogWarn_yields {s : State} (hon : s.wdogOn = true) (hp : s.aon.pwr ≠ 0) (hw : s.fmn.wdogWarn = false) (hl : 4 * s.wdogLeft ≤ s.wdogPeriod) :
    Yields .wdogWarn s (fun t => t.fmn.wdogWarn = true ∧ t.evc Blk.fmn 3 = s.evc Blk.fmn 3 + 1 ∧
      t.fmn.wdogFrom = s.fmn.wdogFrom ∧ Frame [.fmn, .regs 5] s t) := by
  have hexec : exec .wdogWarn s = done s { s.bump Blk.fmn 3 with fmn.wdogWarn := true } := congrArg (done s) (if_pos (by simp [hon, hp, hw, hl]))
  refine yields_done hexec ⟨?_, ?_, ?_, Only.frame_finish (((only_setFmn _ _).mono (by simp)).after ((only_bump s Blk.fmn (by omega)).mono (by simp)))⟩
  · rw [finish_fmn]
  · rw [finish_evc _ _ (by omega) (by decide)]
    exact State.evc_bump_self s Blk.fmn 3
  · rw [finish_fmn]
    rfl

/-- The record that a reset by the watchdog leaves before its scope, a Class D fault beside it or not. -/
def State.dogRecorded (s : State) (last : Word) (d : Bool) : State :=
  let s1 := (s.setReg Blk.rst 0x100 last).bump Blk.rst 3
  (if d then s1.bump Blk.rst 4 else s1).setFld Blk.rst 0x10C 0 4 0
theorem State.dogRecorded_leaves (s : State) (last : Word) (d : Bool) : Only [.regs 4] s (s.dogRecorded last d) ∧
    (s.dogRecorded last d).reg Blk.rst 0x100 = last ∧ (s.dogRecorded last d).evc Blk.rst 3 = s.evc Blk.rst 3 + 1 := by
  unfold State.dogRecorded
  dsimp only
  generalize hs1 : (s.setReg Blk.rst 0x100 last).bump Blk.rst 3 = s1
  have h1 : Only [.regs 4] s s1 ∧ s1.reg Blk.rst 0x100 = last ∧ s1.evc Blk.rst 3 = s.evc Blk.rst 3 + 1 := by
    rw [← hs1]
    exact ⟨(only_bump _ Blk.rst (by omega)).after (only_setReg s Blk.rst (by omega) _), State.reg_setReg_self s _ _ _,
      State.evc_bump_self (s.setReg Blk.rst 0x100 last) _ _⟩
  obtain ⟨ho, hr, he⟩ := h1
  have hfld : ∀ u : State, (u.setFld Blk.rst 0x10C 0 4 0).reg Blk.rst 0x100 = u.reg Blk.rst 0x100 := fun u => State.reg_setReg_ne u _ (by decide)
  rw [hfld]
  cases d with
  | true =>
    refine ⟨(only_setFld _ Blk.rst (by omega) _ _ _).after ((only_bump s1 Blk.rst (by omega)).after ho), hr, ?_⟩
    exact (State.evc_bump_of_ne s1 (by decide)).trans he
  | false => exact ⟨(only_setFld _ Blk.rst (by omega) _ _ _).after ho, hr, he⟩

theorem State.watchdogTrip_leaves (s : State) : Only tripParts s s.watchdogTrip :=
  (only_evalTrip _ _ _).after ((only_setQch s _).mono (by decide))

theorem watchdogExpiry_yields {s : State} (h : s.wdogExpires = true ∨ s.rst.wdogDue = true) (hrom : s.rst.rom ≠ .halted) :
    Yields .watchdogExpiry s (fun t =>
      fld (t.reg Blk.rst 0x100) 0 3 = 3 ∧ t.evc Blk.rst 3 = s.evc Blk.rst 3 + 1 ∧ t.rst.wdogDue = false ∧ t.rst.rom = .start ∧
      t.fmn = {} ∧ t.queues = [] ∧ t.mem = {} ∧ t.aon.grave = s.aon.grave ∧ t.aon.cal = s.aon.cal ∧ t.clk.now = s.clk.now ∧
      t.aon.pwr = 1) := by
  generalize hv : ({ s.watchdogTrip with rst.wdogDue := true } : State) = v
  have htrip := s.watchdogTrip_leaves
  have hov : Only (.rst :: tripParts) s v := by
    rw [← hv]
    exact ((only_setRst _ _).mono (by simp)).after (htrip.mono (by simp))
  have hvr : v.rst = { s.rst with wdogDue := true } := by
    rw [← hv, ← htrip .rst (by decide)]
  generalize hlast : (at_ v.stage 16 4 ||| at_ (v.rst.classD.getD 0) 8 8 ||| at_ 3 0 3) = last
  have hexec : exec .watchdogExpiry s = done s (v.dogRecorded last v.rst.classD.isSome).warmScope := by
    refine congrArg (done s) ((if_pos (by rcases h with h | h <;> simp [h])).trans ?_)
    rw [hv, ← hlast]
    unfold State.warmReset
    dsimp only
    rw [if_neg (by rw [hvr]; exact hrom), show v.rst.wdogDue = true by rw [hvr]]
    rfl
  obtain ⟨ho, hr, he⟩ := v.dogRecorded_leaves last v.rst.classD.isSome
  generalize v.dogRecorded last v.rst.classD.isSome = u at *
  obtain ⟨h1, h2, h3, h4, h5, h6, -, -⟩ := u.warmScope_leaves
  obtain ⟨k1, k2⟩ := u.warmScope_rst
  have haon : u.aon = s.aon := (ho.aon (by decide)).trans (hov.aon (by decide))
  have hclk : u.clk = s.clk := (ho.clk (by decide)).trans (hov.clk (by decide))
  have hevc : v.evc Blk.rst 3 = s.evc Blk.rst 3 := hov.evc (by decide) (by omega)
  refine yields_done hexec ?_
  rw [finish_reg_rst _ _ (by omega), finish_evc_rst _ _ (by omega), finish_rst, finish_clk, finish_aon, finish_mem, finish_queues, finish_fmn,
    k1 _ (by omega), k2 _ (by omega), hr, he, h4, h5, h6, haon, hclk, hevc]
  refine ⟨?_, rfl, rfl, rfl, h3, h2, h1, rfl, rfl, rfl, rfl⟩
  rw [← hlast, fld_or, fld_or, fld_at_self _ (by omega), fld_at_of_disjoint _ (by omega) (by omega), fld_at_of_disjoint _ (by omega) (by omega)]
  rfl

/-- Settles O26: each command is its one branch under the hypotheses given; the reset of an expiry is the warm scope after its record. -/
theorem firmwareAndWatchdog : Obligations.FirmwareAndWatchdog :=
  ⟨⟨fun _ _ _ _ hask hr hseq => fwStage_yields hask hr hseq, fun _ _ _ _ hacc hw hst hb => fwWriteSlot_begins_yields hacc hw hst hb,
    fun _ _ _ _ _ hw hst => fwWriteSlot_ends_yields hw hst, fun _ _ hacc hq hl => fwRestart_done_yields hacc hq hl,
    fun _ _ hacc hq => fwRestart_armed_yields hacc hq, fun _ _ hacc hslot hr => fwCommitRollback_yields hacc hslot hr⟩,
   wdogKick_restarts_yields,
   fun k s hk => by
    obtain ⟨t, ht, h1, h2, h3, h4⟩ := wdogKick_other_yields k s hk
    exact ⟨t, ht, h3, h2, h1, h4⟩,
   fun _ hon hp hw hl => wdogWarn_yields hon hp hw hl, fun _ h hrom => watchdogExpiry_yields h hrom⟩
end Sys2Proof.Machine
end
section
/-! SUPPORT. Statements on the bytes that a command leaves as they were, which speak of every state and fail where the table of bytes is
not in canonical form: a store drops what stands out of order in it. -/
namespace Sys2Proof.Machine
open Sys2Proof

/-- A step that ends in `done`: what a statement says of every end holds of that one. -/
theorem Yields.of_exec {i : Instr} {s u : State} {P : State → Prop} (h : Yields i s P) (he : exec i s = done s u) : P (finish s u) := by
  obtain ⟨t, ht, hp⟩ := h
  obtain rfl := Host.Outcome.next.inj (he.symm.trans ht)
  exact hp

/-- The state that a command leaves. -/
def stateAfter (i : Instr) (s : State) : State :=
  match exec i s with
  | .next t => t
  | _ => s
theorem Yields.stateAfter {i : Instr} {s : State} {P : State → Prop} (h : Yields i s P) : P (stateAfter i s) := by
  obtain ⟨t, ht, hp⟩ := h
  unfold Machine.stateAfter
  rw [ht]
  exact hp

/-! ## A push -/

/-- Queue 0 with its ring at 0 and its landing zone at 1024, an entry pushed for slot 1; the byte at 5 stands behind that at 70. -/
def pushOutOfOrder : State :=
  ({ mem := { bytes := [(70, 1), (5, 1)] }
     queues := [(0, { tail := 1, push := some { count := 1, first := true, last := true, master := 0 } })] } : State).setEntry 0 0 16 0 0 0xFFFF 0xFFFF 3 true
theorem pushOutOfOrder.bytes_lost : (pushOutOfOrder.pushEffect 0 false).mem.bytes = [] := by decide +kernel

theorem pushOutOfOrder.landing : pushOutOfOrder.readMem Config.mQue .ordinary 0 (pushOutOfOrder.qLanding 0) (64 * 1) =
    (List.replicate 64 0, .ok, pushOutOfOrder) := by
  have hread : pushOutOfOrder.readable Config.mQue (pushOutOfOrder.qLanding 0) (64 * 1) :=
    ⟨by decide +kernel, by decide +kernel, fun _ => rfl⟩
  have hbytes : pushOutOfOrder.mbytes (pushOutOfOrder.qLanding 0) (64 * 1) = List.replicate 64 0 := by decide +kernel
  rw [State.readMem_readable 0 hread, hbytes]

/-- Refutes O27: its states need not hold their bytes in canonical form. The entry stored at 64 to 127 is all zero; of the table
[(70, 1), (5, 1)] the store keeps what is listed before 64, which is nothing, and what follows from 128 on, so byte 5 is lost. -/
theorem not_queueTransfers : ¬Obligations.QueueTransfers := by
  rintro ⟨⟨-, -, hpush⟩, -⟩
  have h := hpush 0 { count := 1, first := true, last := true, master := 0 } (List.replicate 64 0) pushOutOfOrder (by decide +kernel) (by decide +kernel)
    (by decide) (by decide) (by decide +kernel) (by decide +kernel) (by decide) pushOutOfOrder.landing
  obtain ⟨-, -, -, -, -, -, hkeep, -⟩ := h.of_exec (u := pushOutOfOrder.pushEffect 0 false)
    (congrArg (done pushOutOfOrder) (if_neg (by decide +kernel)))
  have h5 := hkeep 5 (fun i hi => by
    obtain rfl : i = 0 := Nat.lt_one_iff.1 hi
    exact .inl (by decide +kernel))
  unfold State.mbyte at h5
  rw [finish_mem, pushOutOfOrder.bytes_lost] at h5
  exact absurd h5 (by decide +kernel)

/-! ## An injected error -/

/-- An injection of data bit 3 armed for the word at 0, of which byte 0 stands behind byte 9. -/
def injectOutOfOrder : State :=
  ({ mem := { bytes := [(9, 1), (0, 5)], injArmed := true } } : State).setReg Blk.mem 0x168 0xFF0300
theorem injectOutOfOrder.byte_kept : (injectOutOfOrder.demandWrite 0 0 (List.replicate 8 0)).2.mbyte 0 = 13 := by decide +kernel

/-- Refutes O38: its states need not hold their bytes in canonical form. A write of zeros to the word lists nothing, and the 5 at byte 0,
which stands behind byte 9, is still there; the inversion makes it 13 and not 8. -/
theorem not_regionsAndScrubber : ¬Obligations.RegionsAndScrubber := by
  rintro ⟨-, -, -, hinj⟩
  obtain ⟨-, hbyte, -⟩ := hinj injectOutOfOrder 0 0 (List.replicate 8 0) (by decide +kernel) (by decide) (by decide) (by decide +kernel)
    (by decide +kernel) (by decide +kernel) (by decide +kernel) (by decide)
  exact absurd (injectOutOfOrder.byte_kept.symm.trans hbyte) (by decide)

/-! ## The flash log -/

/-- A held record with place 1 of the ring to go to; byte 5 of the flash stands behind one of that place. -/
def flashOutOfOrder : State :=
  { rst := { rom := .firmware }, fmn := { logHeld := [List.replicate 32 0], logPos := 1 }, pins := { flash := [(0xF00030, 0), (5, 0)] } }
/-- What the record's write leaves. -/
def flashOutOfOrder.written : State :=
  let body := patch (patch ((List.replicate 32 0).take 28) 4 4 0) 0x12 1 0
  { flashOutOfOrder.flashProgram (logBase + 32) (body ++ leBytes 4 (crc32c body)) with
    fmn.logHeld := [], fmn.logLost := false, fmn.logSeq := 1, fmn.logPos := 2 }
theorem flashOutOfOrder.byte_lost : written.flashByte 5 = 0xFF := by decide +kernel

/-- Refutes O40: its states need not hold the flash in canonical form. Programming place 1 of the log keeps what is listed before it, which
is nothing, and what follows the first byte past it, so byte 5 of the flash reads as erased. -/
theorem not_flashAndCancel : ¬Obligations.FlashAndCancel := by
  rintro ⟨⟨hlog, -⟩, -⟩
  have h := hlog (List.replicate 32 0) [] flashOutOfOrder rfl rfl rfl (by decide) (by decide +kernel)
  have hexec : exec .logRecordWrite flashOutOfOrder = done flashOutOfOrder flashOutOfOrder.written :=
    congrArg (done flashOutOfOrder) (if_neg (by decide +kernel))
  obtain ⟨-, -, -, -, hkeep, -⟩ := h.of_exec hexec
  have h5 := hkeep 5 (by decide)
  unfold State.flashByte at h5
  rw [finish_pins] at h5
  exact absurd (flashOutOfOrder.byte_lost.symm.trans h5) (by decide)

/-! ## A peer's write -/

/-- A peer's write of one byte at 8, which port 0 has received; the byte at 5 stands behind that at 8. -/
def peerWrite : Msg := { op := opWrite, cls := 1, len := 1, src := 1, dst := 0, addr := 8, data := [2] }
def peerOutOfOrder : State :=
  ({ mem := { bytes := [(8, 1), (5, 1)] }, spr := { n := 2, ports := [(0, { st := .up, inbox := [peerWrite] })] } } : State).setEntry 0 0 16 0 0 0 0 3 true
theorem peerOutOfOrder.bytes_lost : (stateAfter (.writeMessage 0) peerOutOfOrder).mbyte 5 = 0 := by decide +kernel

/-- Refutes O44: its states need not hold their bytes in canonical form. The store at 8 keeps what is listed before 8, which is nothing,
and what follows the first byte past 8, so byte 5 is lost. -/
theorem not_spruePeers : ¬Obligations.SpruePeers := by
  rintro ⟨⟨-, hwrite, -⟩, -⟩
  have h := hwrite 0 peerWrite 0 peerOutOfOrder (by decide +kernel) (by decide +kernel) rfl rfl (by decide +kernel) (fun _ => rfl) (by decide +kernel)
    ⟨by decide +kernel, by decide +kernel, by decide +kernel, by decide +kernel, by decide +kernel⟩ (by decide)
  obtain ⟨-, hkeep, -⟩ := h.stateAfter
  exact absurd (peerOutOfOrder.bytes_lost.symm.trans (hkeep 5 (.inl (by decide)))) (by decide +kernel)

/-! ## A line from a sensor -/

/-- Slot 0 receives a frame of one line of one byte, whose buffer is at 8; the byte at 5 stands behind that at 8. -/
def lineOutOfOrder : State :=
  ((((({ mem := { bytes := [(8, 1), (5, 1)] }, aon := { pwr := 2 }
         ing := [(0, { st := .receiving, frame := some { csiNum := 0, tbFs := 0 } })] } : State).setEntry 0 0 16 0 0 0xFFFF 0xFFFF 3 true).setReg
      Blk.ing 0x1028 0x01000000).setReg Blk.ing 0x102C 0x00010001).setReg Blk.ing 0x1030 0x00010000).setReg Blk.ing 0x1034 8
theorem lineOutOfOrder.bytes_lost : (stateAfter (.csiLongPacket 0 0 0 0 [2] 0 false false) lineOutOfOrder).mbyte 5 = 0 := by decide +kernel

/-- Refutes O46: its states need not hold their bytes in canonical form. The line stored at 8 keeps what is listed before 8, which is
nothing, and what follows the first byte past 8, so byte 5 is lost. -/
theorem not_sensorIngest : ¬Obligations.SensorIngest := by
  rintro ⟨⟨-, -, hline, -⟩, -⟩
  have h := hline 0 0 0 0 [2] false 0 { csiNum := 0, tbFs := 0 } lineOutOfOrder (by decide +kernel) (by decide) (by decide) (by decide +kernel)
    (by decide +kernel) (by decide +kernel) (by decide +kernel) (by decide +kernel) ⟨by decide +kernel, by decide +kernel, fun _ => rfl, by decide +kernel⟩
  obtain ⟨-, hkeep, -⟩ := h.stateAfter
  exact absurd (lineOutOfOrder.bytes_lost.symm.trans (hkeep 5 (.inl (by decide +kernel)))) (by decide +kernel)

/-! ## A run's header -/

/-- A run of engine 0 whose inputs disagree and whose header stands at 64; the byte at 5 stands behind that at 70. -/
def badRun : Run := { prof := 0, runseq := 0, tbStart := 0, params := List.replicate 40 0 ++ [64], badInput := true }
def headerOutOfOrder : State :=
  ({ mem := { bytes := [(70, 1), (5, 1)] }, aon := { pwr := 2 }, eng := [(0, { run := some badRun })] } : State).setEntry 0 0 16 0 0 0xFFFF 0xFFFF 3 true
theorem headerOutOfOrder.bytes_lost : (stateAfter (.runEnd 0 0) headerOutOfOrder).mbyte 5 = 0 := by decide +kernel

/-- Refutes O47: its states need not hold their bytes in canonical form. The header stored at 64 keeps what is listed before 64, which is
nothing, and what follows from 128 on, so byte 5 is lost. -/
theorem not_visionEngines : ¬Obligations.VisionEngines := by
  rintro ⟨-, -, -, -, -, -, hbad, -⟩
  have h := hbad 0 0 badRun headerOutOfOrder (by decide +kernel) (by decide +kernel) rfl rfl rfl (by decide +kernel) (by decide +kernel)
    ⟨by decide +kernel, by decide +kernel, fun _ => rfl, by decide +kernel⟩
  obtain ⟨-, -, -, -, hkeep, -⟩ := h.stateAfter
  exact absurd (headerOutOfOrder.bytes_lost.symm.trans (hkeep 5 (.inl (by decide +kernel)))) (by decide +kernel)
end Sys2Proof.Machine
end
section
/-! Register writes past the checks of R83 (R82, R86). -/
namespace Sys2Proof.Machine
open Sys2Proof

theorem isBlock_of_regRow {b off : Nat} {r : RegRow × Nat} (h : regRow b off = some r) : isBlock b = true := by
  by_contra hb
  unfold regRow at h
  rw [if_pos (by simpa using hb)] at h
  cases h
theorem guardOf_of_regRow {b off : Nat} {r : RegRow} {i : Nat} (h : regRow b off = some (r, i)) (ho : off < 0x8000) : guardOf b off = some r.guard := by
  unfold guardOf liveOff
  rw [Nat.mod_eq_of_lt ho, h]
  exact if_pos (.inl ho)
theorem exec_registerWrite {m : MasterId} {cls : AccessClass} {b : Fin 256} {off : BitVec 16} {v : Word} {s : State} (h : s.fabricRuns = true) :
    exec (.registerWrite m cls b off v) s =
      done s (s.regAccess m.toNat (masterClass m.toNat cls) (0x20000000 + 0x10000 * b.val + off.toNat) 4 (some v)).2 := by
  show execRegisterWrite m cls b off v s = _
  unfold execRegisterWrite State.regAt
  rw [if_pos h]

section
variable (s : State) (b o : Nat)
theorem only_setParity (v : Nat) : Only [.halts] s (s.setParity b o v) := by
  intro p hp
  cases p with
  | halts => exact absurd (List.mem_singleton_self _) hp
  | _ => simp [StatePart.same, State.setParity, State.reg, State.evc, State.ackOf]
theorem only_reparity (mask v : Word) : Only [.halts] s (s.reparity b o mask v) := Only.ite (fun _ => only_setParity s b o 0) fun _ => Only.refl _ s
end

/-- The blocks whose registers have no effect beside their fields. -/
def plainBlocks : List Nat := [0, 1, 7, 9, 10, 11, 13, 14, 15, 16, 17, 18, 19, 20, 26, 28, 31, 32]
theorem rwEffect_plain (s : State) {b off : Nat} (hb : b ∈ plainBlocks) (ho : off ≠ 0xC) (mask v : Word) : s.rwEffect b off mask v = s.putReg b off mask v := by
  unfold State.rwEffect
  rw [if_neg ho]
  dsimp only
  split
  · rfl
  · unfold plainBlocks at hb
    simp only [List.mem_cons, List.not_mem_nil, or_false] at hb
    rcases hb with rfl | rfl | rfl | rfl | rfl | rfl | rfl | rfl | rfl | rfl | rfl | rfl | rfl | rfl | rfl | rfl | rfl | rfl <;> rfl
theorem not_tripBlk_plain {b : Nat} (hb : b ∈ plainBlocks) : ¬tripBlk b := by
  have : ∀ x ∈ plainBlocks, ¬(x = 27 ∨ (22 ≤ x ∧ x ≤ 25)) := by decide
  exact this b hb

section
variable {m : MasterId} {cls : AccessClass} {b : Fin 256} {off : BitVec 16} {v : Word} {s : State} {r : RegRow} {i : Nat}
  (hrun : s.fabricRuns = true) (h4 : off.toNat % 4 = 0) (ho : off.toNat < 0x8000) (hg : s.gated b.val = false)
  (hrow : regRow b.val off.toNat = some (r, i))
include hrun h4 ho hg hrow

theorem registerWrite_fields_yields (hk : r.kind = .rw) (hadm : r.guard.admits (masterClass m.toNat cls) = true) (hb : b.val ∈ plainBlocks)
    (hc : off.toNat ≠ 0xC) : Yields (.registerWrite m cls b off v) s (fun t =>
      t.reg b.val off.toNat = ((s.reg b.val off.toNat &&& ~~~r.wmask) ||| (v &&& r.wmask)) ∧
      (∀ o, o < 0x10000 → o ≠ off.toNat → t.reg b.val o = s.reg b.val o) ∧ Frame [.regs b.val, .halts] s t) := by
  have hblk := isBlock_of_regRow hrow
  have hexec : exec (.registerWrite m cls b off v) s = done s ((s.putReg b.val off.toNat r.wmask v).reparity b.val off.toNat r.wmask v) := by
    rw [exec_registerWrite hrun, s.regAccess_admitted m.toNat _ (some v) (by omega) h4 hblk hg (guardOf_of_regRow hrow ho) hadm, if_neg (by omega)]
    unfold State.regWrite
    rw [hrow]
    dsimp only
    rw [hk]
    dsimp only
    rw [rwEffect_plain s hb hc]
  have hp := only_reparity (s.putReg b.val off.toNat r.wmask v) b.val off.toNat r.wmask v
  have hput : Only [.regs b.val] s (s.putReg b.val off.toNat r.wmask v) := only_setReg s _ (by omega) _
  have hreg : ∀ o, o < 0x10000 → (finish s ((s.putReg b.val off.toNat r.wmask v).reparity b.val off.toNat r.wmask v)).reg b.val o =
      (s.putReg b.val off.toNat r.wmask v).reg b.val o := fun o hlt => by
    rw [finish_reg _ _ hlt (not_tripBlk_plain hb), hp.reg (by simp) hlt]
  refine yields_done hexec ⟨?_, fun o hlt hne => ?_, Only.frame_finish ((hp.mono (by simp)).after (hput.mono (by simp)))⟩
  · rw [hreg _ (by omega)]
    exact State.reg_setReg_self s _ _ _
  · rw [hreg o hlt]
    exact State.reg_setReg_ne s _ (by rw [Ne, regKey_inj hlt (by omega)]; exact fun h => hne h.2)

theorem registerWrite_refused_yields (hadm : r.guard.admits (masterClass m.toNat cls) = false) :
    Yields (.registerWrite m cls b off v) s (fun t => t.evc b.val 0 = s.evc b.val 0 + 1 ∧ Frame [.regs b.val] s t ∧
      (¬(22 ≤ b.val ∧ b.val ≤ 27) → ∀ o, o < 0x10000 → o ≠ 0x28 → t.reg b.val o = s.reg b.val o)) := by
  have hblk := isBlock_of_regRow hrow
  have hexec : exec (.registerWrite m cls b off v) s = done s (s.guardErr m.toNat true b.val off.toNat) := by
    rw [exec_registerWrite hrun, s.regAccess_refused m.toNat _ (some v) (by omega) h4 hblk hg (guardOf_of_regRow hrow ho) hadm]
    rfl
  refine yields_done hexec ⟨?_, Only.frame_finish (only_bumpInfo s _ (by omega) (by omega) _), fun hb o hlt hne => ?_⟩
  · rw [finish_evc _ _ (by omega) (by omega)]
    exact State.evc_bumpInfo_self _ _ _ _ _
  · rw [finish_reg _ _ hlt (by unfold tripBlk; omega)]
    unfold State.guardErr State.bumpInfo
    split
    · rfl
    · exact State.reg_setReg_ne s _ (by rw [Ne, regKey_inj hlt (by omega)]; exact fun h => hne h.2)
end

/-- Settles O15: past the checks a write stores its fields and makes the register's parity good; a refused one is its event alone. -/
theorem registerWriteFields : Obligations.RegisterWriteFields :=
  ⟨fun _ _ _ _ _ _ _ _ hrun h4 ho hg hrow hk hadm hb hc => registerWrite_fields_yields hrun h4 ho hg hrow hk hadm hb hc,
   fun _ _ _ _ _ _ _ _ hrun h4 ho hg hrow hadm => registerWrite_refused_yields hrun h4 ho hg hrow hadm⟩
end Sys2Proof.Machine
end

section
/-! What a pass over an operation brings: the equations of `runOp` for each of its ends, and what a completion leaves (R548, R552,
R553). -/
namespace Sys2Proof.Machine
open Sys2Proof

/-! ## The end of an operation -/

/-- Memory, queues and flasks are the same in both states. -/
def SameWork (s t : State) : Prop := t.mem = s.mem ∧ t.queues = s.queues ∧ ∀ f, t.flask f = s.flask f

theorem SameWork.refl (s : State) : SameWork s s := ⟨rfl, rfl, fun _ => rfl⟩
theorem SameWork.trans {s t u : State} (h : SameWork s t) (k : SameWork t u) : SameWork s u :=
  ⟨k.1.trans h.1, k.2.1.trans h.2.1, fun f => (k.2.2 f).trans (h.2.2 f)⟩
theorem SameWork.foldl {α : Type} {g : State → α → State} (h : ∀ s x, SameWork s (g s x)) (xs : List α) (s : State) :
    SameWork s (xs.foldl g s) := by
  induction xs generalizing s with
  | nil => exact SameWork.refl s
  | cons x xs ih => exact (h s x).trans (ih _)

/-- The levels of a regulator's buckets are no work of a job. -/
theorem State.sameWork_touchRegulator (s : State) (r stall : Nat) : SameWork s (s.touchRegulator r stall) := by
  refine SameWork.foldl (fun s k => ?_) _ s
  dsimp only
  split
  · exact SameWork.refl s
  · split <;> exact ⟨rfl, rfl, fun _ => rfl⟩
theorem State.sameWork_touchCrucibles (s : State) (f : Nat) : SameWork s (s.touchCrucibles f) := by
  refine SameWork.foldl (fun s n => ?_) _ s
  exact ⟨rfl, rfl, fun _ => rfl⟩

/-- The job that goes on after an operation whose counts are x (R553). -/
def Running.afterOp (r : Running) (x : OpRes) (stall : Nat) : Running :=
  { r with
    opsDone := r.opsDone + 1, clip := r.clip + x.clip, elems := r.elems + x.elems
    recastOps := r.recastOps + b2n x.recast.isSome, driftOps := r.driftOps + b2n (x.drift != 0)
    stall := r.stall + stall
    wide := (match x.recast with | some e => [e] | none => []) ++ r.wide
    wait := none, fetched := [], fetchedBad := false }
theorem Running.afterOp_plain (r : Running) (clip elems stall : Nat) :
    r.afterOp { clip := clip, elems := elems } stall = r.counted clip elems stall := rfl

theorem State.opDone_leaves {s : State} {f : Nat} {r : Running} (h : (s.flask f).running = some r) (stall : Nat) (x : OpRes) :
    (s.opDone f stall x).mem = s.mem ∧ (s.opDone f stall x).queues = s.queues ∧
      ((s.opDone f stall x).flask f).running = some (r.afterOp x stall) ∧ ∀ g, g ≠ f → (s.opDone f stall x).flask g = s.flask g := by
  have heq : s.opDone f stall x =
      ((s.setFlask f { s.flask f with running := some (r.afterOp x stall) }).touchRegulator f stall).touchCrucibles f := by
    unfold State.opDone
    rw [h]
    rfl
  rw [heq]
  obtain ⟨hmem, hq, hfl⟩ := (State.sameWork_touchRegulator (s.setFlask f { s.flask f with running := some (r.afterOp x stall) }) f stall).trans
    (State.sameWork_touchCrucibles _ f)
  refine ⟨hmem, hq, ?_, fun g hg => ?_⟩
  · rw [hfl, State.flask_setFlask_self]
  · rw [hfl, State.flask_setFlask, if_neg hg]

theorem State.endJob_eq {s : State} {f : Nat} {r : Running} (h : (s.flask f).running = some r) (st code tensor op : Nat) :
    s.endJob f st code tensor op =
      s.setFlask f { s.flask f with running := some { r with ended := some (st, code, tensor, op), wait := none } } := by
  unfold State.endJob
  rw [h]
theorem State.opWaits_eq {s : State} {f : Nat} {r : Running} (h : (s.flask f).running = some r) :
    s.opWaits f = s.setFlask f { s.flask f with running := some { r with fetched := [], fetchedBad := false } } := by
  unfold State.opWaits
  rw [h]

theorem State.opReady_running {s : State} {f : Nat} {r : Running} (h : s.opReady f = some r) : (s.flask f).running = some r := by
  unfold State.opReady at h
  split at h
  · next q hq =>
    split at h
    · rw [hq, ← Option.some.inj h]
    · cases h
  · cases h

/-! ## The ends of a pass -/

section
variable {s w : State} {f k stall : Nat} {r : Running} {body : JobUser → OpD → JM OpOut}

/-- A pass over the next operation of r ends as e, leaving w. -/
def State.passEnds (s : State) (f k : Nat) (r : Running) (body : JobUser → OpD → JM OpOut) (e : Except Halt (Option OpOut)) (w : State) :
    Prop := ((opPass (s.opUser f r) k body).run.run s.opStart : Except Halt (Option OpOut) × State) = (e, w)

theorem State.runOp_fin (hr : s.opReady f = some r) (hb : r.fetchedBad = false) {x : OpRes}
    (hp : s.passEnds f k r body (.ok (some (.fin x))) w) :
    s.runOp f k stall body = { w with free := w.free + 2 ^ 80 }.opDone f stall x := by
  have hp' : ((opPass (s.opUser f r) k body).run.run { s with free := s.free + 1 } : Except Halt (Option OpOut) × State) = _ := hp
  unfold State.runOp
  rw [hr]
  dsimp only
  rw [if_neg (by simp [hb]), hp']
theorem State.runOp_wait (hr : s.opReady f = some r) (hb : r.fetchedBad = false) (hp : s.passEnds f k r body (.ok (some .wait)) w) :
    s.runOp f k stall body = w.opWaits f := by
  have hp' : ((opPass (s.opUser f r) k body).run.run { s with free := s.free + 1 } : Except Halt (Option OpOut) × State) = _ := hp
  unfold State.runOp
  rw [hr]
  dsimp only
  rw [if_neg (by simp [hb]), hp']
theorem State.runOp_other (hr : s.opReady f = some r) (hb : r.fetchedBad = false) (hp : s.passEnds f k r body (.ok none) w) :
    s.runOp f k stall body = s := by
  have hp' : ((opPass (s.opUser f r) k body).run.run { s with free := s.free + 1 } : Except Halt (Option OpOut) × State) = _ := hp
  unfold State.runOp
  rw [hr]
  dsimp only
  rw [if_neg (by simp [hb]), hp']
theorem State.runOp_bad (hr : s.opReady f = some r) (hb : r.fetchedBad = false) {b : Bad} (hp : s.passEnds f k r body (.error (.bad b)) w) :
    s.runOp f k stall body = w.opBad (s.opUser f r) b := by
  have hp' : ((opPass (s.opUser f r) k body).run.run { s with free := s.free + 1 } : Except Halt (Option OpOut) × State) = _ := hp
  unfold State.runOp
  rw [hr]
  dsimp only
  rw [if_neg (by simp [hb]), hp']

/-- A failed check of the layout or of the formats ends the job alone (R548). -/
theorem State.runOp_stop (hr : s.opReady f = some r) (hb : r.fetchedBad = false) {st c n : Nat} {q : Running}
    (hst : st = stDescriptor ∨ st = stFormat) (hp : s.passEnds f k r body (.error (.bad (.stop st c n))) w)
    (hq : (w.flask f).running = some q) : s.runOp f k stall body =
      w.setFlask f { w.flask f with running := some { q with ended := some (st, c, n, r.opsDone), wait := none } } := by
  rw [State.runOp_bad hr hb hp, ← State.endJob_eq hq]
  rcases hst with rfl | rfl <;> rfl
end

/-! ## The commands -/

theorem exec_opCommand {e : (FlaskId → Nat → Instr) × Nat × (JobUser → OpD → JM OpOut)} (he : e ∈ opCommands) (f : FlaskId) (stall : Nat)
    (s : State) : exec (e.1 f stall) s = done s (s.runOp f.val e.2.1 stall e.2.2) := by
  unfold opCommands at he
  fin_cases he <;> rfl

/-- A command whose meaning is u, read off u. -/
theorem Yields.of_done {i : Instr} {s u : State} {P : State → Prop} (he : exec i s = done s u) (h : P (finish s u)) : Yields i s P :=
  ⟨_, he, h⟩

/-- Settles O56: the four ends of a pass, each by its equation of `runOp`. -/
theorem operationRuns : Obligations.OperationRuns := by
  intro e he f stall r w s hr hb
  have hexec := exec_opCommand he f stall s
  refine ⟨fun x q hp hq => ?_, fun hp => ?_, fun c n q hp hq => ?_, fun c n q hp hq => ?_⟩
  · rw [State.runOp_fin hr hb hp] at hexec
    obtain ⟨hmem, -, hrun, -⟩ := State.opDone_leaves (s := { w with free := w.free + 2 ^ 80 }) hq stall x
    refine Yields.of_done hexec ⟨by rw [finish_mem, hmem], q.afterOp x stall, by rw [finish_flask, hrun], rfl, rfl, rfl, rfl, rfl, ?_, rfl⟩
    cases hx : x.recast <;> simp [Running.afterOp, hx, b2n]
  · rw [State.runOp_other hr hb hp] at hexec
    exact Yields.of_done hexec ⟨finish_sch s s, (Only.refl [] s).frame_finish⟩
  · rw [State.runOp_stop hr hb (.inl rfl) hp hq] at hexec
    exact Yields.of_done hexec ⟨by rw [finish_flask, State.flask_setFlask_self], finish_mem _ _⟩
  · rw [State.runOp_stop hr hb (.inr rfl) hp hq] at hexec
    exact Yields.of_done hexec ⟨by rw [finish_flask, State.flask_setFlask_self], finish_mem _ _⟩

end Sys2Proof.Machine
end
section
/-! Debug authentication and the random generators (R1039 to R1045, R1050, R1052). -/
namespace Sys2Proof.Machine
open Sys2Proof

/-! ## Free bytes of the DRBG -/

theorem State.freeBytes_length (s : State) (n : Nat) : (s.freeBytes n).1.length = n := by
  induction n generalizing s with
  | zero => rfl
  | succ n ih => exact congrArg (· + 1) (ih _)
/-- Free bytes move the counter of free values alone. -/
theorem State.freeBytes_state (s : State) (n : Nat) : ∃ k, (s.freeBytes n).2 = { s with free := k } := by
  induction n generalizing s with
  | zero => exact ⟨s.free, rfl⟩
  | succ n ih => exact ih _
/-- A generate request is counted and changes nothing else but the counter of free values. -/
theorem State.drbg_state (s : State) (n : Nat) : (s.drbg n).1.length = n ∧
    ∃ k, (s.drbg n).2 = { s with sec.drbgReqs := s.sec.drbgReqs + 1, free := k } :=
  ⟨State.freeBytes_length _ n, State.freeBytes_state _ n⟩
theorem only_setSecFree (s : State) (x : Sec) (k : Nat) : Only [.sec] s { s with sec := x, free := k } :=
  ((only_setFree _ k).mono (by simp)).after (only_setSec s x)

/-! ## Answers on top of a change of the security block -/

section
variable {m : MbId} {s u : State}
/-- A command that changes the security block and is answered. -/
theorem secReply_yields {i : Instr} {x : Sec} {k : Nat} {r : Resp} (h : exec i s = done s (({ s with sec := x, free := k } : State).reply m.val r)) :
    Yields i s (fun t => t.answers m.val r ∧ t.sec = x ∧ Frame [.fmn, .sec] s t) :=
  yields_done h ⟨finish_answers _ _ _ _, by rw [finish_sec]; rfl,
    (((only_reply _ _ _).mono (by simp)).after ((only_setSecFree s x k).mono (by simp))).frame_finish⟩
/-- A command that changes the security block alone. -/
theorem sec_yields {i : Instr} {x : Sec} (h : exec i s = done s { s with sec := x }) :
    Yields i s (fun t => t.sec = x ∧ Frame [.sec] s t) :=
  yields_done h ⟨finish_sec _ _, (only_setSec s x).frame_finish⟩
theorem unchanged_yields {i : Instr} (h : exec i s = done s s) : Yields i s (fun t => t.sec = s.sec ∧ Frame [] s t) :=
  yields_done h ⟨finish_sec _ _, (Only.refl [] s).frame_finish⟩

/-! ## Debug authentication -/

theorem debugChallenge_yields (h : s.accepts m.val 0x0C01 (s.rqLen m.val == 0) []) (hd : s.sec.debug = 0) (hok : s.sec.trngOk = true) :
    Yields (.debugChallenge m) s (fun t => ∃ nonce : List Byte, nonce.length = 32 ∧
      t.doneWith m.val (nonce ++ leBytes 8 s.sec.otp.deviceId.toNat ++ leBytes 1 s.sec.lifecycle ++ leBytes 1 0) ∧
      t.sec.challenge = some (leNat nonce, s.clk.now) ∧ t.sec.debug = 0 ∧ Frame [.fmn, .sec] s t) := by
  obtain ⟨hlen, k, hk⟩ := s.drbg_state 32
  have hexec : exec (.debugChallenge m) s = done s (({ s with
      sec := { s.sec with drbgReqs := s.sec.drbgReqs + 1, challenge := some (leNat (s.drbg 32).1, s.clk.now) }, free := k } : State).replyDone m.val
      ((s.drbg 32).1 ++ leBytes 8 s.sec.otp.deviceId.toNat ++ leBytes 1 s.sec.lifecycle ++ leBytes 1 0)) := by
    refine congrArg (done s) ((State.command_accepts _ h).trans ((if_neg (by simp [hd])).trans ((if_neg (by simp [hok])).trans ?_)))
    dsimp only
    rw [hk, ← hd]
  obtain ⟨t, ht, ha, hs, hf⟩ := secReply_yields hexec
  exact ⟨t, ht, _, hlen, ha, by rw [hs], by rw [hs]; exact hd, hf⟩

section
variable (h : s.accepts m.val 0x0C02 (s.rqLen m.val == 192) []) (hmb : s.sec.unlockMb ≠ some m.val) (hd : s.sec.debug = 0)
  (hlock : s.sec.lockout = false)
include h hmb hd hlock
/-- The request of an unlock with neither lock nor lockout: ARMED, then a running job, then the three conditions decide. -/
theorem exec_debugUnlock : exec (.debugUnlock m) s = done s (
    if s.qch.st = .armed then ({ s with sec.challenge := none } : State).refuse m.val rStateConflict 1
    else if s.unlockBusy m.val then ({ s with sec.challenge := none } : State).refuse m.val rStateConflict 2
    else if !s.unlockOk ((s.rqPayload m.val).take 96) ((s.rqPayload m.val).drop 96) then
      ({ s with sec.challenge := none } : State).unlockFailed.refuse m.val rNotPermitted 1
    else ({ s with sec.challenge := none, sec.unlockMb := some m.val } : State).await m.val) :=
  congrArg (done s) ((if_neg hmb).trans ((State.command_accepts _ h).trans ((if_neg (by simp [hd])).trans (if_neg (by simp [hlock])))))
theorem debugUnlock_armed_yields (ha : s.qch.st = .armed) : Yields (.debugUnlock m) s (fun t =>
    t.refuses m.val rStateConflict 1 ∧ t.sec.debug = 0 ∧ Frame [.fmn, .sec] s t) := by
  obtain ⟨t, ht, ha, hs, hf⟩ := secReply_yields (x := { s.sec with challenge := none }) (k := s.free)
    ((exec_debugUnlock h hmb hd hlock).trans (congrArg (done s) (if_pos ha)))
  exact ⟨t, ht, ⟨_, ha, rfl, rfl⟩, by rw [hs]; exact hd, hf⟩
variable (hst : s.qch.st ≠ .armed) (hbusy : s.unlockBusy m.val = false)
include hst hbusy
theorem debugUnlock_yields (hok : s.unlockOk ((s.rqPayload m.val).take 96) ((s.rqPayload m.val).drop 96) = true) :
    Yields (.debugUnlock m) s (fun t => t.sec.unlockMb = some m.val ∧ t.sec.challenge = none ∧ t.sec.debug = 0 ∧
      (t.mb m.val).waiting = true ∧ Frame [.fmn, .sec] s t) := by
  have hexec : exec (.debugUnlock m) s = done s (({ s with sec.challenge := none, sec.unlockMb := some m.val } : State).await m.val) :=
    (exec_debugUnlock h hmb hd hlock).trans (congrArg (done s) ((if_neg hst).trans ((if_neg (by simp [hbusy])).trans (if_neg (by simp [hok])))))
  refine yields_done hexec ⟨?_, ?_, ?_, ?_, ?_⟩
  · rw [finish_sec]; rfl
  · rw [finish_sec]; rfl
  · rw [finish_sec]; exact hd
  · rw [finish_mb]
    exact congrArg Mailbox.waiting (Tab.get_set_self mbReset s.fmn.mbs m.val _)
  · exact (((only_setMb _ _ _).mono (by simp)).after ((only_setSec s _).mono (by simp))).frame_finish
theorem debugUnlock_fails_yields (hok : s.unlockOk ((s.rqPayload m.val).take 96) ((s.rqPayload m.val).drop 96) = false) :
    Yields (.debugUnlock m) s (fun t => t.refuses m.val rNotPermitted 1 ∧ t.evc Blk.sec 3 = s.evc Blk.sec 3 + 1 ∧ t.sec.debug = 0 ∧
      t.sec.lockout = decide (3 ≤ s.sec.unlockFails + 1) ∧ Frame [.fmn, .sec, .regs 28] s t) := by
  have hexec : exec (.debugUnlock m) s = done s (({ s with sec.challenge := none } : State).unlockFailed.refuse m.val rNotPermitted 1) :=
    (exec_debugUnlock h hmb hd hlock).trans (congrArg (done s) ((if_neg hst).trans ((if_neg (by simp [hbusy])).trans (if_pos (by simp [hok])))))
  refine yields_done hexec ⟨finish_refuses _ _ _ _ _ _, ?_, ?_, ?_, ?_⟩
  · rw [finish_evc _ _ (by omega) (by decide)]
    exact State.evc_bump_self s Blk.sec 3
  · rw [finish_sec]; exact hd
  · rw [finish_sec]
    exact (congrArg (· || decide (3 ≤ s.sec.unlockFails + 1)) hlock).trans (Bool.false_or _)
  · exact (((only_reply _ _ _).mono (by simp)).after (((only_setSec _ _).mono (by simp)).after (((only_bump _ Blk.sec (j := 3) (by omega)).mono
      (by simp [Blk.sec])).after ((only_setSec s _).mono (by simp))))).frame_finish
end

/-! ## The commit of an unlock -/

/-- One entry's part of the zeroing. -/
def State.zeroEntry (s : State) (e : Nat) : State :=
  if s.entValid e && s.entProtected e then s.zeroRange (s.entBase e) (s.entPages e * 4096) else s
theorem only_zeroEntry (s : State) (e : Nat) : Only [.mem] s (s.zeroEntry e) :=
  Only.ite (fun _ => only_zeroRange s _ _) fun _ => Only.refl _ s
theorem only_zeroProtected (s : State) : Only [.mem] s s.zeroProtected := Only.foldl (fun t e _ => only_zeroEntry t e) s
theorem State.mbyte_zeroEntry_of_zero {s : State} {a : Nat} (h : s.mbyte a = 0) (e : Nat) : (s.zeroEntry e).mbyte a = 0 := by
  unfold State.zeroEntry
  split
  · rw [State.mbyte_zeroRange, h, ite_self]
  · exact h
/-- Zeroing keeps the entries, which stand in registers. -/
theorem State.zeroEntry_rf (s : State) (e : Nat) : (s.zeroEntry e).rf = s.rf := by
  unfold State.zeroEntry
  split <;> rfl
/-- Once an entry's part is made, every byte that it covers reads zero. -/
theorem State.mbyte_zeroEntries {l : List Nat} {s : State} {e a : Nat} (he : e ∈ l) (hv : s.entValid e = true) (hp : s.entProtected e = true)
    (hlo : s.entBase e ≤ a) (hhi : a < s.entBase e + 4096 * s.entPages e) : (l.foldl State.zeroEntry s).mbyte a = 0 := by
  have keeps : ∀ (l : List Nat) (t : State), t.mbyte a = 0 → (l.foldl State.zeroEntry t).mbyte a = 0 := by
    intro l
    induction l with
    | nil => exact fun _ h => h
    | cons x l ih => exact fun t h => ih _ (State.mbyte_zeroEntry_of_zero h x)
  induction l generalizing s with
  | nil => cases he
  | cons x l ih =>
    by_cases hx : e = x
    · subst hx
      refine keeps l _ ?_
      unfold State.zeroEntry
      rw [if_pos (by rw [hv, hp]; rfl), State.mbyte_zeroRange, if_pos ⟨hlo, by omega⟩]
    · have hr : ∀ o, (s.zeroEntry x).reg Blk.mem o = s.reg Blk.mem o := fun o => by unfold State.reg; rw [State.zeroEntry_rf]
      refine ih ((List.mem_cons.1 he).resolve_left hx) ?_ ?_ ?_ ?_
      · unfold State.entValid State.entOwner; rw [hr]; exact hv
      · unfold State.entProtected State.entAttr; rw [hr]; exact hp
      · unfold State.entBase; rw [hr]; exact hlo
      · unfold State.entBase State.entPages; rw [hr, hr]; exact hhi

theorem debugUnlock_commit_yields (hmb : s.sec.unlockMb = some m.val) (hlock : s.sec.lockMb = none) : Yields (.debugUnlock m) s (fun t =>
    t.doneWith m.val [] ∧ t.sec.debug = 1 ∧ t.sec.keysetDebug = true ∧ t.evc Blk.sec 2 = s.evc Blk.sec 2 + 1 ∧
    (∀ e a, e < 32 → s.entValid e = true → s.entProtected e = true → s.entBase e ≤ a → a < s.entBase e + 4096 * s.entPages e →
      t.mbyte a = 0) ∧ Frame [.fmn, .sec, .mem, .regs 28] s t) := by
  have hz := only_zeroProtected s
  have hbytes : ∀ e a, e < 32 → s.entValid e = true → s.entProtected e = true → s.entBase e ≤ a →
      a < s.entBase e + 4096 * s.entPages e → s.zeroProtected.mbyte a = 0 :=
    fun e a he => State.mbyte_zeroEntries (List.mem_range.2 he)
  have hexec : exec (.debugUnlock m) s = done s (s.unlockNow m.val) := congrArg (done s) (if_pos hmb)
  unfold State.unlockNow at hexec
  generalize s.zeroProtected = z at hexec hz hbytes
  have hl : z.sec.lockMb = none := by rw [hz .sec (by simp)]; exact hlock
  dsimp only at hexec
  rw [show ((({ z with sec.keysetDebug := true, sec.debug := 1, sec.unlockMb := none } : State).bump Blk.sec 2).replyDone m.val).sec.lockMb = none
    from hl] at hexec
  refine yields_done hexec ⟨finish_answers _ _ _ _, ?_, ?_, ?_, ?_, ?_⟩
  · rw [finish_sec]; rfl
  · rw [finish_sec]; rfl
  · rw [finish_evc _ _ (by omega) (by decide)]
    exact (State.evc_bump_self z Blk.sec 2).trans (congrArg (· + 1) (hz.evc (by simp) (by omega)))
  · intro e a he hv hp hlo hhi
    rw [finish_mbyte]
    exact hbytes e a he hv hp hlo hhi
  · exact (((only_reply _ _ _).mono (by simp)).after (((only_bump _ Blk.sec (j := 2) (by omega)).mono (by simp [Blk.sec])).after
      (((only_setSec _ _).mono (by simp)).after (hz.mono (by simp))))).frame_finish

theorem debugLock_yields (h : s.accepts m.val 0x0C03 (s.rqLen m.val == 0) []) (hlife : s.sec.lifecycle ≠ 0) (hmb : s.sec.unlockMb = none)
    (hd : s.sec.debug ≠ 0) : Yields (.debugLock m) s (fun t => t.doneWith m.val [] ∧ t.sec = { s.sec with debug := 0 } ∧ Frame [.fmn, .sec] s t) :=
  secReply_yields (k := s.free) (congrArg (done s) ((State.command_accepts _ h).trans ((if_neg hlife).trans ((if_neg (by simp [hmb])).trans (if_neg hd)))))

theorem challengeExpiry_yields {n t0 : Nat} (h : s.sec.challenge = some (n, t0)) (hdue : t0 + 6000000000 ≤ s.clk.now) :
    Yields .challengeExpiry s (fun t => t.sec = { s.sec with challenge := none } ∧ Frame [.sec] s t) := by
  refine sec_yields ?_
  show execChallengeExpiry s = _
  unfold execChallengeExpiry
  rw [h]
  exact congrArg (done s) (if_pos hdue)

/-! ## Entropy -/

section
variable (h : s.asks m.val 0x0C04 1 [(0x10, 1, 1 ≤ s.rq m.val 0x10 1 && s.rq m.val 0x10 1 ≤ 224)])
include h
theorem rngRead_yields (hok : s.sec.trngOk = true) : Yields (.rngRead m) s (fun t => ∃ p : List Byte, p.length = s.rq m.val 0x10 1 ∧
    t.doneWith m.val p ∧ t.sec = { s.sec with drbgReqs := s.sec.drbgReqs + 1 } ∧ Frame [.fmn, .sec] s t) := by
  obtain ⟨hlen, k, hk⟩ := s.drbg_state (s.rq m.val 0x10 1)
  have hexec : exec (.rngRead m) s = done s (({ s with
      sec := { s.sec with drbgReqs := s.sec.drbgReqs + 1 }, free := k } : State).replyDone m.val (s.drbg (s.rq m.val 0x10 1)).1) := by
    refine congrArg (done s) ((State.request_asks _ h).trans ((if_neg (by simp [hok])).trans ?_))
    dsimp only
    rw [hk]
  obtain ⟨t, ht, ha, hs, hf⟩ := secReply_yields hexec
  exact ⟨t, ht, _, hlen, ha, hs, hf⟩
theorem rngRead_refused_yields (hok : s.sec.trngOk = false) : Yields (.rngRead m) s (fun t => t.refuses m.val rStateConflict 1 ∧
    t.sec = s.sec ∧ Frame [.fmn] s t) :=
  yields_done (congrArg (done s) ((State.request_asks _ h).trans (if_pos (by simp [hok])))) ⟨finish_refuses _ _ _ _ _ _, finish_sec _ _,
    (only_reply s _ _).frame_finish⟩
end

theorem trngHealthFail_yields (s : State) : Yields .trngHealthFail s (fun t => t.evc Blk.sec 4 = s.evc Blk.sec 4 + 1 ∧
    (s.sec.failAt = [] → t.sec.trngOk = s.sec.trngOk) ∧
    (∀ a b, s.sec.failAt = [a, b] → s.clk.now < a + 100000000 → s.clk.now < b + 100000000 → t.sec.trngOk = false) ∧
    (∀ a b, s.sec.failAt = [a, b] → b + 100000000 ≤ s.clk.now → t.sec.trngOk = s.sec.trngOk) ∧ Frame [.sec, .regs 28] s t) := by
  have htb : 1000 * tbMs = 100000000 := rfl
  refine yields_done (s' := _) rfl ⟨?_, ?_, ?_, ?_, ?_⟩
  · rw [finish_evc _ _ (by omega) (by decide)]
    exact State.evc_bump_self s Blk.sec 4
  · intro h
    rw [finish_sec]
    simp [h]
  · intro a b h ha hb
    rw [finish_sec]
    simp [h, htb, ha, hb]
  · intro a b h hb
    rw [finish_sec]
    by_cases ha : s.clk.now < a + 100000000 <;> simp [h, htb, ha, hb]
  · exact (((only_setSec _ _).mono (by simp)).after ((only_bump s Blk.sec (j := 4) (by omega)).mono (by simp [Blk.sec]))).frame_finish

theorem trngRestart_yields (h : ∀ a ∈ s.sec.failAt, a + 100000000 ≤ s.clk.now) : Yields (.trngRestart true) s (fun t =>
    t.sec.trngOk = true ∧ Frame [.sec] s t) ∧ Yields (.trngRestart false) s (fun t => t.sec = s.sec ∧ Frame [] s t) := by
  have hdue : (match s.sec.failAt.head? with
      | some t => decide (t + 1000 * tbMs ≤ s.clk.now)
      | none => true) = true := by
    split
    · next x hx => exact decide_eq_true (h x (List.mem_of_head? hx))
    · rfl
  refine ⟨?_, unchanged_yields (congrArg (done s) (if_neg (by simp)))⟩
  by_cases hok : s.sec.trngOk = true
  · obtain ⟨t, ht, hs, hf⟩ := unchanged_yields (i := .trngRestart true) (s := s) (congrArg (done s) (if_neg (by simp [hok])))
    exact ⟨t, ht, by rw [hs]; exact hok, fun p _ hp => hf p (by simp) hp⟩
  · obtain ⟨t, ht, hs, hf⟩ := sec_yields (i := .trngRestart true) (s := s) (congrArg (done s) (if_pos
      (Bool.and_eq_true_iff.2 ⟨Bool.and_eq_true_iff.2 ⟨by simp [hok], hdue⟩, rfl⟩)))
    exact ⟨t, ht, by rw [hs], hf⟩

theorem drbgReseed_yields (hok : s.sec.trngOk = true) (h : 65536 ≤ s.sec.drbgReqs ∨ s.sec.reseedAt + 6000000000 ≤ s.clk.now) :
    Yields .drbgReseed s (fun t => t.sec = { s.sec with drbgReqs := 0, reseedAt := s.clk.now } ∧ Frame [.sec] s t) :=
  sec_yields (congrArg (done s) (if_pos (by rw [hok, Bool.true_and, Bool.or_eq_true, decide_eq_true_eq, decide_eq_true_eq]; exact h)))
theorem drbgReseed_waits_yields (hok : s.sec.trngOk = false) : Yields .drbgReseed s (fun t => t.sec = s.sec ∧ Frame [] s t) :=
  unchanged_yields (congrArg (done s) (if_neg (by simp [hok])))
end

/-- Settles O41: a branch of the command for each clause; the commit of an unlock zeroes entry by entry, and the entries stay. -/
theorem security : Obligations.Security := by
  unfold Obligations.Security
  exact ⟨⟨fun _ _ => debugChallenge_yields, fun _ _ => debugUnlock_yields, fun _ _ => debugUnlock_commit_yields,
    fun _ _ => debugUnlock_fails_yields, fun _ _ => debugUnlock_armed_yields, fun _ _ => debugLock_yields, fun _ _ _ => challengeExpiry_yields⟩,
    fun _ _ => rngRead_yields, fun _ _ => rngRead_refused_yields, trngHealthFail_yields, fun _ => trngRestart_yields,
    fun _ => drbgReseed_yields, fun _ => drbgReseed_waits_yields⟩

end Sys2Proof.Machine
end
section
/-! The test access port (R1036, R1037, R1072 to R1079). -/
namespace Sys2Proof.Machine
open Sys2Proof

/-! ## The boundary register's capture -/

/-- A cell takes at most one free value. -/
theorem State.captureCell_state (s : State) (l : BitVec 78) (i : Nat) : ∃ k, (s.captureCell l i).2 = { s with free := k } := by
  unfold State.captureCell
  dsimp only
  generalize (if i / 3 = 15 then some (some s.qp) else if i / 3 = 16 then some (some s.qn)
    else if 54 ≤ i / 3 then some (s.gpioDrive (i / 3 - 54)) else none) = own
  cases own with
  | some v => exact ⟨s.free, rfl⟩
  | none => by_cases h : i % 3 = 0
            · exact ⟨s.free, congrArg Prod.snd (if_pos h)⟩
            · exact ⟨s.free + 1, congrArg Prod.snd (if_neg h)⟩
theorem State.captureCell_input (s : State) (l : BitVec 78) {i : Nat} (hi : i < 15) : (s.captureCell l (3 * i)).1 = l.toNat.testBit i := by
  unfold State.captureCell
  have h3 : 3 * i / 3 = i := by omega
  simp only [h3, Nat.mul_mod_right, if_neg (show ¬i = 15 by omega), if_neg (show ¬i = 16 by omega), if_neg (show ¬54 ≤ i by omega), if_true]
theorem State.captureCells_state (s : State) (l : BitVec 78) (n : Nat) : ∃ k, (s.captureCells l n).2 = { s with free := k } := by
  induction n with
  | zero => exact ⟨s.free, rfl⟩
  | succ n ih =>
    obtain ⟨k, hk⟩ := ih
    obtain ⟨k', hk'⟩ := State.captureCell_state { s with free := k } l n
    exact ⟨k', by rw [← hk] at hk'; exact hk'.trans (by rw [hk])⟩
theorem State.captureCells_lt (s : State) (l : BitVec 78) (n : Nat) : (s.captureCells l n).1 < 2 ^ n := by
  induction n with
  | zero => exact Nat.one_pos
  | succ n ih =>
    show (s.captureCells l n).1 + (if ((s.captureCells l n).2.captureCell l n).1 = true then 2 ^ n else 0) < 2 ^ (n + 1)
    cases ((s.captureCells l n).2.captureCell l n).1 with
    | false => rw [if_neg Bool.false_ne_true]; omega
    | true => rw [if_pos rfl]; omega
/-- Bit i of the register is what cell i captures. -/
theorem State.testBit_captureCells (s : State) (l : BitVec 78) {n i : Nat} (h : i < n) :
    (s.captureCells l n).1.testBit i = ((s.captureCells l i).2.captureCell l i).1 := by
  induction n with
  | zero => omega
  | succ n ih =>
    have hlt := s.captureCells_lt l n
    show ((s.captureCells l n).1 + (if ((s.captureCells l n).2.captureCell l n).1 then 2 ^ n else 0)).testBit i = _
    rcases Nat.lt_succ_iff_lt_or_eq.1 h with hn | rfl
    · rw [← ih hn]
      cases ((s.captureCells l n).2.captureCell l n).1 with
      | false => rfl
      | true => rw [if_pos rfl, Nat.add_comm, Nat.testBit_two_pow_add_gt hn]
    · cases ((s.captureCells l i).2.captureCell l i).1 with
      | false => exact Nat.testBit_lt_two_pow hlt
      | true => rw [if_pos rfl, Nat.add_comm, Nat.testBit_two_pow_add_eq, Nat.testBit_lt_two_pow hlt]; rfl

theorem State.boundaryScan_eq (s : State) (ir : Nat) (l : BitVec 78) (d : BitVec 234) : ∃ k v, (∀ i, i < 234 → v.testBit i = ((s.captureCells l i).2.captureCell l i).1) ∧
    s.boundaryScan ir l d = { s with free := k, jtag := { s.jtag with ir := ir, dr := v, drives := false, boundary := d } } := by
  obtain ⟨k, hk⟩ := s.captureCells_state l 234
  refine ⟨k, _, fun i hi => s.testBit_captureCells l hi, ?_⟩
  unfold State.boundaryScan State.tapSelect
  dsimp only
  rw [hk]
theorem only_setJtagFree (s : State) (k : Nat) (x : Jtag) : Only [.jtag] s { s with free := k, jtag := x } :=
  (only_setJtag _ x).after ((only_setFree s k).mono (by simp))

/-! ## The instructions -/

section
variable {s : State}
/-- A scan that changes the test access port alone. -/
theorem jtag_yields {i : Instr} {k : Nat} {x : Jtag} (h : exec i s = done s { s with free := k, jtag := x }) :
    Yields i s (fun t => t.jtag = x ∧ Frame [.jtag] s t) :=
  yields_done h ⟨finish_jtag _ _, (only_setJtagFree s k x).frame_finish⟩

theorem idcode_yields (s : State) : Yields .idcode s (fun t => t.jtag.ir = 0 ∧ t.jtag.dr = 0x10960573 ∧ t.jtag.drives = false ∧ Frame [.jtag] s t) := by
  obtain ⟨t, ht, hj, hf⟩ := jtag_yields (i := .idcode) (s := s) (k := s.free) rfl
  exact ⟨t, ht, by rw [hj], by rw [hj], by rw [hj], hf⟩
theorem bypass_yields (s : State) : Yields .bypass s (fun t => t.jtag.ir = 1 ∧ t.jtag.dr = 0 ∧ t.jtag.drives = false ∧ Frame [.jtag] s t) := by
  obtain ⟨t, ht, hj, hf⟩ := jtag_yields (i := .bypass) (s := s) (k := s.free) rfl
  exact ⟨t, ht, by rw [hj], by rw [hj], by rw [hj], hf⟩
theorem samplePreload_yields (l : BitVec 78) (d : BitVec 234) (s : State) : Yields (.samplePreload l d) s (fun t => t.jtag.boundary = d ∧ t.jtag.ir = 2 ∧
    t.jtag.drives = false ∧ (∀ i, i < 15 → t.jtag.dr.testBit (3 * i) = l.toNat.testBit i) ∧
    t.jtag.dr.testBit 46 = s.qp ∧ t.jtag.dr.testBit 49 = s.qn ∧ Frame [.jtag] s t) := by
  obtain ⟨k, v, hv, hk⟩ := s.boundaryScan_eq 2 l d
  obtain ⟨t, ht, hj, hf⟩ := jtag_yields (i := .samplePreload l d) (congrArg (done s) hk)
  refine ⟨t, ht, by rw [hj], by rw [hj], by rw [hj], fun i hi => ?_, ?_, ?_, hf⟩
  · rw [hj]
    exact (hv _ (by omega)).trans (State.captureCell_input _ l hi)
  · rw [hj]
    obtain ⟨j, hst⟩ := s.captureCells_state l 46
    exact (hv _ (by omega)).trans (by rw [hst]; rfl)
  · rw [hj]
    obtain ⟨j, hst⟩ := s.captureCells_state l 49
    exact (hv _ (by omega)).trans (by rw [hst]; rfl)
theorem extest_yields (l : BitVec 78) (d : BitVec 234) (s : State) : (s.sec.debug = 2 → Yields (.extest l d) s (fun t => t.jtag.boundary = d ∧
      t.jtag.ir = 3 ∧ t.jtag.drives = true ∧ Frame [.jtag] s t)) ∧
    (s.sec.debug ≠ 2 → Yields (.extest l d) s (fun t => t.jtag.ir = 1 ∧ t.jtag.boundary = s.jtag.boundary ∧ t.jtag.drives = false ∧
      Frame [.jtag] s t)) := by
  refine ⟨fun h => ?_, fun h => ?_⟩
  · obtain ⟨k, v, -, hk⟩ := s.boundaryScan_eq 3 l d
    obtain ⟨t, ht, hj, hf⟩ := jtag_yields (i := .extest l d) (s := s) (k := k) (x := { s.jtag with
      ir := 3, dr := v, drives := true, boundary := d })
      (congrArg (done s) ((if_pos h).trans (congrArg (fun u : State => { u with jtag.drives := true }) hk)))
    exact ⟨t, ht, by rw [hj], by rw [hj], by rw [hj], hf⟩
  · obtain ⟨t, ht, hj, hf⟩ := jtag_yields (i := .extest l d) (k := s.free) (congrArg (done s) (if_neg h))
    exact ⟨t, ht, by rw [hj], by rw [hj], by rw [hj], hf⟩

/-- No register of the Foreman's mailboxes is one half of a LO/HI pair: a read of it returns its live value. -/
theorem fmn_regRead {w : Nat} (hw : w < 132) : ∀ r, regRow Blk.fmn (mbBase 10 + 4 * w) = some r →
    r.1.kind ≠ .lo ∧ r.1.kind ≠ .rwlo ∧ r.1.kind ≠ .hi ∧ r.1.kind ≠ .rwhi := by
  have h : ∀ w : Fin 132, ∀ r ∈ regRow Blk.fmn (mbBase 10 + 4 * w.val),
    r.1.kind ≠ .lo ∧ r.1.kind ≠ .rwlo ∧ r.1.kind ≠ .hi ∧ r.1.kind ≠ .rwhi := by decide +kernel
  exact fun r hr => h ⟨w, hw⟩ r hr
theorem State.regRead_fmn (u : State) (m : Nat) {w : Nat} (hw : w < 132) (hp : u.parityOf Blk.fmn (mbBase 10 + 4 * w) = 0) :
    u.regRead m Blk.fmn (mbBase 10 + 4 * w) = (u.live Blk.fmn (mbBase 10 + 4 * w), u) := by
  have hk := fmn_regRead hw
  have hq : u.parityFound Blk.fmn (mbBase 10 + 4 * w) false = u := by
    unfold State.parityFound
    exact if_neg (by rw [hp]; decide)
  have hl : u.liveRead Blk.fmn (mbBase 10 + 4 * w) = (u.live Blk.fmn (mbBase 10 + 4 * w), u) := rfl
  unfold State.regRead
  rw [hq]
  cases hr : regRow Blk.fmn (mbBase 10 + 4 * w) with
  | none =>
    have h0 : u.live Blk.fmn (mbBase 10 + 4 * w) = 0 := by unfold State.live; rw [hr]
    rw [h0]
  | some r =>
    obtain ⟨h1, h2, h3, h4⟩ := hk r hr
    obtain ⟨row, i⟩ := r
    dsimp only at h1 h2 h3 h4 ⊢
    split
    · exact absurd ‹_› h1
    · exact absurd ‹_› h2
    · exact absurd ‹_› h3
    · exact absurd ‹_› h4
    · exact hl

theorem mbox_read_yields {w : Byte} {v : Word} (hd : s.sec.debug ≠ 0) (hr : s.fabricRuns = true) (hw : w.toNat < 132)
    (hp : s.parityOf Blk.fmn (mbBase 10 + 4 * w.toNat) = 0) : Yields (.mbox 1 w v) s (fun t => t.jtag.ir = 4 ∧ t.jtag.dr = s.jtag.mboxOut ∧
      t.jtag.mboxOut = 3 * 2 ^ 40 + w.toNat * 2 ^ 32 + (s.regRead Config.mForeman Blk.fmn (mbBase 10 + 4 * w.toNat)).1.toNat ∧
      t.fmn = s.fmn) := by
  have hlive : (s.tapSelect 4 s.jtag.mboxOut).live Blk.fmn (mbBase 10 + 4 * w.toNat) = s.live Blk.fmn (mbBase 10 + 4 * w.toNat) := rfl
  have hread := State.regRead_fmn (s.tapSelect 4 s.jtag.mboxOut) Config.mForeman hw hp
  have hexec : exec (.mbox 1 w v) s = done s { s.tapSelect 4 s.jtag.mboxOut with
      jtag.mboxOut := 3 * 2 ^ 40 + w.toNat * 2 ^ 32 + (s.live Blk.fmn (mbBase 10 + 4 * w.toNat)).toNat } := by
    refine congrArg (done s) ((if_neg hd).trans ((if_neg (by simp [hr]; omega)).trans ((if_pos rfl).trans ?_)))
    rw [hread, hlive]
  refine yields_done hexec ?_
  rw [finish_jtag, finish_fmn, State.regRead_fmn s _ hw hp]
  exact ⟨rfl, rfl, rfl, rfl⟩
theorem mbox_bypass_yields {op : Fin 4} {w : Byte} {v : Word} (hd : s.sec.debug = 0) : Yields (.mbox op w v) s (fun t => t.jtag.ir = 1 ∧
    t.jtag.mboxOut = s.jtag.mboxOut ∧ Frame [.jtag] s t) := by
  obtain ⟨t, ht, hj, hf⟩ := jtag_yields (i := .mbox op w v) (k := s.free) (congrArg (done s) (if_pos hd))
  exact ⟨t, ht, by rw [hj], by rw [hj], hf⟩

theorem otpProg_refused_yields {f : Byte} {v : BitVec 384} (hd : s.sec.debug ≠ 0) (h : s.otpAdmits f.toNat v.toNat = false) :
    Yields (.otpProg f v true) s (fun t => t.jtag.otpResult = 3 ∧ t.sec = s.sec ∧ Frame [.jtag] s t) := by
  obtain ⟨t, ht, hj, hf⟩ := jtag_yields (i := .otpProg f v true) (k := s.free)
    (congrArg (done s) ((if_neg hd).trans (if_pos (by rw [h]; rfl))))
  exact ⟨t, ht, by rw [hj], hf .sec (by simp) (by decide), hf⟩
theorem otpProg_kp_yields {v : BitVec 384} (hd : s.sec.debug = 2) (hl : s.sec.lifecycle = 0) (hk : s.sec.otp.kp = none) :
    Yields (.otpProg 2 v true) s (fun t => t.jtag.otpResult = 2 ∧ t.sec.otp.kp = some (v.toNat % 2 ^ 256) ∧
      t.sec.otp.lifecycle = s.sec.otp.lifecycle ∧ t.sec.otp.dbgKeyHash = s.sec.otp.dbgKeyHash ∧ Frame [.jtag, .sec] s t) := by
  have hadm : s.otpAdmits 2 v.toNat = true := by
    show (s.sec.debug == 2 && s.sec.lifecycle == 0 && s.sec.otp.kp.isNone) = true
    rw [hd, hl, hk]
    rfl
  have hexec : exec (.otpProg 2 v true) s = done s { (s.tapSelect 5 s.jtag.otpResult).otpWrite 2 v.toNat with jtag.otpResult := 2 } :=
    congrArg (done s) ((if_neg (by rw [hd]; decide)).trans ((if_neg (by
      rw [Bool.not_eq_true', Bool.not_eq_false]; exact hadm)).trans (if_pos rfl)))
  refine yields_done hexec ⟨?_, ?_, ?_, ?_, ?_⟩
  · rw [finish_jtag]
  · rw [finish_sec]; rfl
  · rw [finish_sec]; rfl
  · rw [finish_sec]; rfl
  · exact (((only_setJtag _ _).mono (by simp)).after (((only_setSec _ _).mono (by simp)).after ((only_setJtag s _).mono (by simp)))).frame_finish
end

/-- Settles O54: one scan for each instruction; a capture takes each bit of its register from one cell. -/
theorem testAccessPort : Obligations.TestAccessPort := by
  unfold Obligations.TestAccessPort
  exact ⟨idcode_yields, bypass_yields, samplePreload_yields, extest_yields, fun _ _ _ => mbox_read_yields, fun _ _ _ _ => mbox_bypass_yields,
    fun _ _ _ => otpProg_refused_yields, fun _ _ => otpProg_kp_yields⟩

end Sys2Proof.Machine
end
section
/-! How the parts of an operation end: a rule for each, and what a computing or a moving operation's end brings (R553, R578, R579). -/
namespace Sys2Proof.Machine
open Sys2Proof

/-! ## Ends of a computation -/

/-- The computation x, begun in s, ends in t with value v. -/
def Ends {α : Type} (x : JM α) (s : State) (v : α) (t : State) : Prop := (x.run.run s : Except Halt α × State) = (.ok v, t)

section
variable {α β : Type} {s t u : State}
theorem Ends.bind {x : JM α} {g : α → JM β} {v : α} {w : β} (h : Ends x s v t) (k : Ends (g v) t w u) : Ends (x >>= g) s w u :=
  (jm_bind_ok x g s t v h).trans k
theorem Ends.pure (v : α) (s : State) : Ends (Pure.pure v) s v s := jm_pure v s
theorem Ends.need {b : Bool} (h : b = true) (s : State) : Ends (need10 b) s () s := jm_need h s
theorem Ends.get (s : State) : Ends (MonadState.get : JM State) s s s := rfl
theorem Ends.set (s t : State) : Ends (MonadStateOf.set t : JM PUnit) s ⟨⟩ t := rfl
theorem Ends.pos {c : Prop} [Decidable c] {x y : JM α} {v : α} (hc : c) (h : Ends x s v t) : Ends (if c then x else y) s v t := by
  rw [if_pos hc]; exact h
theorem Ends.neg {c : Prop} [Decidable c] {x y : JM α} {v : α} (hc : ¬c) (h : Ends y s v t) : Ends (if c then x else y) s v t := by
  rw [if_neg hc]; exact h
end

/-! ## Checks of an operation's tensors -/

section
variable {s w : State} {u : JobUser} {o : OpD} {x t : Tensor} {ok : Nat → Bool}
theorem plainOut_ends (h : t.compress ≠ 1) (s : State) : Ends (plainOut t) s () s := .neg h (.pure _ s)
theorem fmtOk_ends (h : ok t.fmt = true) (h3 : t.scaleMode ≠ 3) (s : State) : Ends (fmtOk t ok) s () s :=
  .pos (by rw [h, Bool.true_and, Bool.false_or]; exact bne_iff_ne.2 h3) (.pure _ s)
theorem unaryPre_ends (hx : Ends (getTensor u (o.inp 0)) s x s) (hxf : ok x.fmt = true) (hx3 : x.scaleMode ≠ 3)
    (ht : Ends (getTensor u o.out) s t s) (htf : ok t.fmt = true) (ht3 : t.scaleMode ≠ 3) (hc : t.compress ≠ 1) :
    Ends (unaryPre u o ok) s (x, t) s :=
  .bind hx (.bind ht (.bind (plainOut_ends hc s) (.bind (fmtOk_ends hxf hx3 s) (.bind (fmtOk_ends htf ht3 s) (.pure _ s)))))
theorem movePre_ends (hx : Ends (getTensor u (o.inp 0)) s x s) (hxf : anyFmt x.fmt = true) (hx3 : x.scaleMode ≠ 3)
    (ht : Ends (getTensor u o.out) s t s) (htf : anyFmt t.fmt = true) (ht3 : t.scaleMode ≠ 3) (hf : t.fmt = x.fmt) :
    Ends (movePre u o) s (x, t) s :=
  .bind hx (.bind ht (.bind (fmtOk_ends hxf hx3 s) (.neg (not_not.2 hf) (.bind (fmtOk_ends htf ht3 s) (.pure _ s)))))
theorem opFin_ends {y : JM OpRes} {v : OpRes} (h : Ends y s v w) : Ends (opFin y) s (.fin v) w := .bind h (.pure _ w)

/-! ## The run of an operation without DRIFT and RECAST -/

theorem OpD.drift_of_plain (h : o.quant = 0) : o.drift = false := by unfold OpD.drift; rw [h]; rfl
theorem OpD.recast_of_plain (h : o.quant = 0) : o.recast = false := by unfold OpD.recast; rw [h]; rfl
theorem readEntry_ends (h : o.quant = 0) (fmt : Nat) (s : State) : Ends (readEntry u o fmt) s none s := by
  unfold readEntry
  rw [OpD.drift_of_plain h, OpD.recast_of_plain h]
  exact .bind (.need rfl s) (.neg (by simp) (.pure _ s))

/-- The reads come before the writes; without DRIFT and RECAST the scale entry stays. -/
theorem quantRun_ends {ins : List Tensor} {compute : JM Invocation} {h : Nat} {sc : Scales} {inv : Invocation} {l : List Unit} {v : State}
    (ho : o.quant = 0) (hsc : Ends (readScales u t h 0) s sc s) (hinv : Ends compute s inv s)
    (hw : Ends (writePlain u t (fun k => (encodeOut t sc none inv.out).1.getD k none)) s () v)
    (ha : Ends (inv.after.mapM (fun e => writePlain u e.1 (fun k => some (e.2.getD k 0)))) v l w) :
    Ends (quantRun u o t ins compute h) s
      { clip := (encodeOut t sc none inv.out).2.2 + inv.clip, elems := (encodeOut t sc none inv.out).2.1 } w := by
  unfold quantRun
  simp only [OpD.drift_of_plain ho, OpD.recast_of_plain ho, Bool.false_and, Bool.false_eq_true, if_false]
  refine .bind (readEntry_ends ho t.fmt s) (.bind (.pure none s) (.bind hsc (.bind hinv ?_)))
  generalize encodeOut t sc none inv.out = e at *
  obtain ⟨codes, n, k⟩ := e
  refine .bind (.pure none s) (.bind hw ?_)
  exact .bind (.pure ({ clip := k + inv.clip, elems := n } : OpRes) v) (.bind ha (.pure _ w))
theorem moveRun_ends {compute : JM Invocation} {codes : Array (Option Nat)} {clip : Nat} {after : List (Tensor × Array Nat)}
    (hinv : Ends compute s { out := .codes codes, clip := clip, after := after } s)
    (hw : Ends (writePlain u t (fun k => codes.getD k none)) s () w) : Ends (moveRun u t compute) s { clip := clip, elems := 0 } w :=
  .bind hinv (.bind hw (.pure _ w))
end

/-! ## The commands -/

section
variable {s : State} {f : FlaskId} {stall k : Nat} {r : Running} {o : OpD} {t : Tensor} {i : FlaskId → Nat → Instr}
  {body : JobUser → OpD → JM OpOut}

/-- A pass over the next operation, whose opcode is the command's. -/
theorem opPass_ends {w : State} {x : OpOut} (hn : s.nextOp f.val r o k) (hk : opcodes.contains k = true)
    (hb : Ends (body (s.opUser f.val r) o) s.opStart x w) : s.passEnds f.val k r body (.ok (some x)) w := by
  obtain ⟨-, -, hrep, hop, -, hread⟩ := hn
  have hfetch : Ends (fetchOp (s.opUser f.val r)) s.opStart o s.opStart := .bind hread (.bind (.need (by rw [hop]; exact hk) _) (.pure _ _))
  have hpass : Ends (opPass (s.opUser f.val r) k body) s.opStart (some x) w := by
    refine .bind hfetch (.neg (not_not.2 hop) (.bind hb ?_))
    cases x with
    | wait => exact .pure _ w
    | fin y => exact .bind (.neg (by rw [show (s.opUser f.val r).job.report = false from hrep]; decide) (.pure _ w)) (.pure _ w)
  exact hpass

/-- An operation whose pass ends completes, with the counts of its result. -/
theorem State.completes_of_ends {w : State} {clip elems : Nat} (he : (i, k, body) ∈ opCommands) (hn : s.nextOp f.val r o k)
    (hk : opcodes.contains k = true) (hb : Ends (body (s.opUser f.val r) o) s.opStart (.fin { clip := clip, elems := elems }) w)
    (hw : (w.flask f.val).running = some r) : s.completes (i f stall) f.val r w clip elems stall := by
  have hexec := exec_opCommand he f stall s
  rw [State.runOp_fin hn.1 hn.2.1 (opPass_ends hn hk hb)] at hexec
  obtain ⟨hmem, -, hrun, hoth⟩ := State.opDone_leaves (s := { w with free := w.free + 2 ^ 80 }) hw stall { clip := clip, elems := elems }
  exact Yields.of_done hexec ⟨by rw [finish_mem, hmem], by rw [finish_flask, hrun, Running.afterOp_plain], fun g hg => by
    rw [finish_flask, hoth g hg]; rfl⟩

/-- What `State.writes` says: OUT's codes, then the writes after them. -/
theorem State.writes_ends {w : State} {codes : Array (Option Nat)} {after : List (Tensor × Array Nat)} (h : s.writes f.val r t codes after w) :
    (∃ v l, Ends (writePlain (s.opUser f.val r) t (fun k => codes.getD k none)) s.opStart () v ∧
      Ends (after.mapM (fun e => writePlain (s.opUser f.val r) e.1 (fun k => some (e.2.getD k 0)))) v l w) ∧
    (w.flask f.val).running = some r := by
  obtain ⟨hw, hr⟩ := h
  refine ⟨?_, hr⟩
  rcases h1 : ((writePlain (s.opUser f.val r) t (fun k => codes.getD k none)).run.run s.opStart : Except Halt Unit × State) with ⟨e1, v⟩
  cases e1 with
  | error e =>
    have := hw
    simp only [ExceptT.run_bind, StateT.run_bind] at this
    rw [show (StateT.run (ExceptT.run (writePlain (s.opUser f.val r) t (fun k => codes.getD k none))) s.opStart :
      Id (Except Halt Unit × State)) = (.error e, v) from h1] at this
    cases this
  | ok x =>
    have h2 := (jm_bind_ok _ _ _ _ _ h1).symm.trans hw
    rcases h3 : ((after.mapM (fun e => writePlain (s.opUser f.val r) e.1 (fun k => some (e.2.getD k 0)))).run.run v :
      Except Halt (List Unit) × State) with ⟨e2, v'⟩
    cases e2 with
    | error e =>
      simp only [ExceptT.run_bind, StateT.run_bind] at h2
      rw [show (StateT.run (ExceptT.run (after.mapM (fun e => writePlain (s.opUser f.val r) e.1 (fun k => some (e.2.getD k 0))))) v :
        Id (Except Halt (List Unit) × State)) = (.error e, v') from h3] at h2
      cases h2
    | ok l =>
      have h4 := (jm_bind_ok _ _ _ _ _ h3).symm.trans h2
      obtain rfl : v' = w := congrArg Prod.snd h4
      exact ⟨v, l, h1, h3⟩

/-- The read-only part of a computing operation: its checks hold, it then runs `compute`, whose result is this. -/
def ComputesBy (s : State) (f : FlaskId) (r : Running) (o : OpD) (t : Tensor) (h : Nat) (body : JobUser → OpD → JM OpOut) (inv : Invocation) : Prop :=
  ∃ (compute : JM Invocation) (ins : List Tensor), Ends compute s.opStart inv s.opStart ∧ ∀ v w,
    Ends (quantRun (s.opUser f.val r) o t ins compute h) s.opStart v w → Ends (body (s.opUser f.val r) o) s.opStart (.fin v) w
theorem State.computes_of {h clip : Nat} {out : OutVal} {after : List (Tensor × Array Nat)} (he : (i, k, body) ∈ opCommands)
    (hn : s.nextOp f.val r o k) (hk : opcodes.contains k = true)
    (hc : ComputesBy s f r o t h body { out := out, clip := clip, after := after }) :
    s.computes (i f stall) f.val r t h out clip after stall := by
  intro sc w hsc hw
  obtain ⟨compute, ins, hinv, hbody⟩ := hc
  obtain ⟨⟨v, l, h1, h2⟩, hr⟩ := State.writes_ends hw
  have hq : o.quant = 0 := hn.2.2.2.2.1
  exact State.completes_of_ends he hn hk (hbody _ w (quantRun_ends hq hsc hinv h1 h2)) hr

/-- The same for an operation that moves codes. -/
def MovesBy (s : State) (f : FlaskId) (r : Running) (o : OpD) (t : Tensor) (body : JobUser → OpD → JM OpOut) (codes : Array (Option Nat))
    (clip : Nat) : Prop :=
  ∃ (compute : JM Invocation), Ends compute s.opStart { out := .codes codes, clip := clip } s.opStart ∧ ∀ v w,
    Ends (moveRun (s.opUser f.val r) t compute) s.opStart v w → Ends (body (s.opUser f.val r) o) s.opStart (.fin v) w
theorem State.moves_of {codes : Array (Option Nat)} {clip : Nat} (he : (i, k, body) ∈ opCommands) (hn : s.nextOp f.val r o k)
    (hk : opcodes.contains k = true) (hc : MovesBy s f r o t body codes clip) : s.moves (i f stall) f.val r t codes clip stall := by
  intro w hw
  obtain ⟨compute, hinv, hbody⟩ := hc
  obtain ⟨⟨v, l, h1, h2⟩, hr⟩ := State.writes_ends hw
  obtain rfl : v = w := congrArg Prod.snd h2
  exact State.completes_of_ends he hn hk (hbody _ v (moveRun_ends hinv h1)) hr
end

end Sys2Proof.Machine
end
section
/-! The operations of the tensor array and of the vector unit: the checks of each, then its result (R577 to R591, R598). -/
namespace Sys2Proof.Machine
open Sys2Proof

/-! ## Parts that several operations share -/

section
variable {s : State} {f : FlaskId} {r : Running} {o : OpD} {x t : Tensor} {ok : Nat → Bool}

theorem unaryPre_of_names (hx : s.names f.val r (o.inp 0) x ok) (ht : s.namesOut f.val r o.out t ok) :
    Ends (unaryPre (s.opUser f.val r) o ok) s.opStart (x, t) s.opStart :=
  unaryPre_ends hx.1 hx.2.1 hx.2.2 ht.1.1 ht.1.2.1 ht.1.2.2 ht.2
theorem names_ends (h : s.names f.val r (o.inp 1) x ok) : Ends (getTensor (s.opUser f.val r) (o.inp 1)) s.opStart x s.opStart ∧
    Ends (fmtOk x ok) s.opStart () s.opStart := ⟨h.1, fmtOk_ends h.2.1 h.2.2 _⟩
theorem and_true_of {a b : Bool} (ha : a = true) (hb : b = true) : (a && b) = true := by rw [ha, hb]; rfl
theorem b2n_beq_one (b : Bool) : (b2n b == 1) = b := by cases b <;> rfl
theorem b2n_lt_two (b : Bool) : b2n b < 2 := by cases b <;> decide
/-- The check of an operation with one input of OUT's dimensions. -/
theorem dims_ends (h : x.dims = t.dims) (s : State) : Ends (need10 (x.dims == t.dims)) s () s := .need (beq_iff_eq.2 h) s
/-- The dimensions of a tensor, read off their list. -/
theorem dim_of_dims {x : Tensor} {l : List Nat} (h : x.dims = l) (k : Nat) : x.dim k = (l[k]?).getD 1 := by unfold Tensor.dim; rw [h]
end

/-- The check of a tensor that may be absent. -/
theorem mask_ends {β : Type} {m : Option Tensor} {next : Unit → JM β} {s t : State} {v : β}
    (h : ∀ x, m = some x → isI8 x.fmt = true ∧ x.scaleMode ≠ 3) (k : Ends (next ()) s v t) :
    Ends (match m with | some x => fmtOk x isI8 >>= next | none => pure () >>= next) s v t := by
  cases m with
  | none => exact .bind (.pure _ s) k
  | some x => exact .bind (fmtOk_ends (h x rfl).1 (h x rfl).2 s) k

theorem mask_dims (m : Option Tensor) (l : List Nat) : (∀ x, m = some x → x.dims = l) →
    (match m with | some x => x.dims == l | none => true) = true := by
  intro h
  cases m with
  | none => rfl
  | some x => exact beq_iff_eq.2 (h x rfl)

/-! ## The tensor array -/

theorem conv_computes : ∀ (f : FlaskId) (stall : Nat) (r : Running) (o : OpD) (x w t : Tensor) (b : Option Tensor) (xi wi : In) (bi : Option In) (s : State),
    s.nextOp f.val r o 0x01 → o.layoutOk 1 convUsed = true → (convP o).ok = true → s.opGives (getTensor (s.opUser f.val r) (o.inp 0)) x →
    s.opGives (getTensor (s.opUser f.val r) (o.inp 1)) w → s.opGives (getTensor? (s.opUser f.val r) (o.inp 2)) b →
    s.opGives (getTensor (s.opUser f.val r) o.out) t → t.compress ≠ 1 → s.opGives (arrayFormats o x w t) () → s.opGives (biasOk b (w.dim 3)) () →
    convShapes (convP o) x w t = true → s.apart f.val r t ([x, w] ++ b.toList) false → s.reads f.val r x 0 0 xi → s.reads f.val r w 3 0 wi →
    s.opGives (readBias (s.opUser f.val r) b) bi →
    s.computes (.conv f stall) f.val r t 0 (arrayOut { a := xi, b := wi } o t bi (s.free + 1) (fun i => ix i 0) (convTerms (convP o) xi wi)) 0 [] stall := by
  intro f stall r o x w t b xi wi bi s hn hl hc hx hw hb ht hcp hf hbo hsh hal hxi hwi hbi
  refine State.computes_of (body := bodyConv) (by simp [opCommands]) hn (by decide) ⟨_, _, ?_, fun v w hq =>
      opFin_ends (.bind (.need (and_true_of hl hc) _) (.bind hx (.bind hw (.bind hb (.bind ht (.bind (plainOut_ends hcp _) (.bind hf (.bind hbo
        (.bind (.need hsh _) (.bind hal hq))))))))))⟩
  exact .bind hxi (.bind hwi (.bind hbi (.bind (.get _) (.pure _ _))))
theorem convTranspose_computes : ∀ (f : FlaskId) (stall : Nat) (r : Running) (o : OpD) (y w t : Tensor) (yi wi : In) (s : State),
    s.nextOp f.val r o 0x02 → o.layoutOk 1 convUsed = true → (convP o).ok = true → s.opGives (getTensor (s.opUser f.val r) (o.inp 0)) y →
    s.opGives (getTensor (s.opUser f.val r) (o.inp 1)) w → s.opGives (getTensor (s.opUser f.val r) o.out) t → t.compress ≠ 1 →
    s.opGives (arrayFormats o y w t) () → convShapes (convP o) t w y = true → s.apart f.val r t [y, w] false →
    s.reads f.val r y 0 0 yi → s.reads f.val r w 3 3 wi → s.computes (.convTranspose f stall) f.val r t 0
      (arrayOut { a := yi, b := wi } o t none (s.free + 1) (fun i => ix i 0) (convTransposeTerms (convP o) yi wi (t.dim 0))) 0 [] stall := by
  intro f stall r o y w t yi wi s hn hl hc hy hw ht hcp hf hsh hal hyi hwi
  refine State.computes_of (body := bodyConvTranspose) (by simp [opCommands]) hn (by decide) ⟨_, _, ?_, fun v w hq =>
      opFin_ends (.bind (.need (and_true_of hl hc) _) (.bind hy (.bind hw (.bind ht (.bind (plainOut_ends hcp _) (.bind hf
        (.bind (.need hsh _) (.bind hal hq))))))))⟩
  exact .bind hyi (.bind hwi (.bind (.get _) (.pure _ _)))
theorem convBwdWeight_computes : ∀ (f : FlaskId) (stall : Nat) (r : Running) (o : OpD) (x y t : Tensor) (xi yi : In) (s : State),
    s.nextOp f.val r o 0x03 → o.layoutOk 1 convUsed = true → (convP o).ok = true → s.opGives (getTensor (s.opUser f.val r) (o.inp 0)) x →
    s.opGives (getTensor (s.opUser f.val r) (o.inp 1)) y → s.opGives (getTensor (s.opUser f.val r) o.out) t → t.compress ≠ 1 →
    s.opGives (arrayFormats o x y t) () → convShapes (convP o) x t y = true → s.apart f.val r t [x, y] false →
    s.reads f.val r x 0 1 xi → s.reads f.val r y 0 1 yi → s.computes (.convBwdWeight f stall) f.val r t 3
      (arrayOut { a := xi, b := yi } o t none (s.free + 1) (fun i => ix i 3) (bwdWeightTerms (convP o) xi yi (t.dim 3))) 0 [] stall := by
  intro f stall r o x y t xi yi s hn hl hc hx hy ht hcp hf hsh hal hxi hyi
  refine State.computes_of (body := bodyConvBwdWeight) (by simp [opCommands]) hn (by decide) ⟨_, _, ?_, fun v w hq =>
      opFin_ends (.bind (.need (and_true_of hl hc) _) (.bind hx (.bind hy (.bind ht (.bind (plainOut_ends hcp _) (.bind hf
        (.bind (.need hsh _) (.bind hal hq))))))))⟩
  exact .bind hxi (.bind hyi (.bind (.get _) (.pure _ _)))
theorem matmul_computes : ∀ (f : FlaskId) (stall : Nat) (r : Running) (o : OpD) (ta tb : Bool) (a b t : Tensor) (c : Option Tensor) (ai bi : In) (ci : Option In) (s : State),
    s.nextOp f.val r o 0x10 → o.layoutOk 1 [(0x18, 2)] = true → o.p 0x18 1 = b2n ta → o.p 0x19 1 = b2n tb →
    s.opGives (getTensor (s.opUser f.val r) (o.inp 0)) a → s.opGives (getTensor (s.opUser f.val r) (o.inp 1)) b →
    s.opGives (getTensor? (s.opUser f.val r) (o.inp 2)) c → s.opGives (getTensor (s.opUser f.val r) o.out) t → t.compress ≠ 1 →
    s.opGives (arrayFormats o a b t) () → s.opGives (biasOk c (b.dim (1 - b2n tb))) () → b.dim (b2n tb) = a.dim (b2n ta) →
    a.dims.drop 3 = [1, 1] → b.dims.drop 3 = [1, 1] → (a.dim 2 = 1 ∨ a.dim 2 = max (a.dim 2) (b.dim 2)) →
    (b.dim 2 = 1 ∨ b.dim 2 = max (a.dim 2) (b.dim 2)) → t.dims = [b.dim (1 - b2n tb), a.dim (1 - b2n ta), max (a.dim 2) (b.dim 2), 1, 1] →
    s.apart f.val r t ([a, b] ++ c.toList) false → s.reads f.val r a 0 (b2n ta) ai → s.reads f.val r b (1 - b2n tb) (b2n tb) bi →
    s.opGives (readBias (s.opUser f.val r) c) ci → s.computes (.matmul f stall) f.val r t 0
      (arrayOut { a := ai, b := bi } o t ci (s.free + 1) (fun i => ix i 0) (matmulTerms ta tb ai bi (a.dim (b2n ta)))) 0 [] stall := by
  intro f stall r o ta tb a b t c ai bi ci s hn hl hta htb ha hb hc ht hcp hf hbo hk ha3 hb3 ha2 hb2 htd hal hai hbi hci
  have hta2 : o.p 0x18 1 < 2 := hta ▸ b2n_lt_two ta
  have htb2 : o.p 0x19 1 < 2 := htb ▸ b2n_lt_two tb
  obtain rfl : (o.p 0x18 1 == 1) = ta := by rw [hta, b2n_beq_one]
  obtain rfl : (o.p 0x19 1 == 1) = tb := by rw [htb, b2n_beq_one]
  refine State.computes_of (body := bodyMatmul) (by simp [opCommands]) hn (by decide) ⟨_, _, ?_, fun v w hq =>
      opFin_ends (.bind (.need (and_true_of (and_true_of hl (decide_eq_true hta2)) (decide_eq_true htb2)) _) (.bind ha (.bind hb (.bind hc (.bind ht
        (.bind (plainOut_ends hcp _) (.bind hf (.bind hbo (.bind (.need ?_ _) (.bind hal hq))))))))))⟩
  · exact .bind hai (.bind hbi (.bind hci (.bind (.get _) (.pure _ _))))
  · simp only [Bool.and_eq_true, Bool.or_eq_true, beq_iff_eq]
    exact ⟨⟨⟨⟨⟨hk, ha3⟩, hb3⟩, ha2⟩, hb2⟩, htd⟩
theorem attention_computes : ∀ (f : FlaskId) (stall : Nat) (r : Running) (o : OpD) (q k v t : Tensor) (m : Option Tensor) (qi ki vi : In) (mi : Option In) (d lq lk hd : Nat)
    (s : State), s.nextOp f.val r o 0x11 → o.layoutOk 1 [(0x18, 5)] = true → o.p 0x1C 1 < 2 →
    s.opGives (getTensor (s.opUser f.val r) (o.inp 0)) q → s.opGives (getTensor (s.opUser f.val r) (o.inp 1)) k →
    s.opGives (getTensor (s.opUser f.val r) (o.inp 2)) v → s.opGives (getTensor? (s.opUser f.val r) (o.inp 3)) m →
    (∀ x, m = some x → x.fmt = 1 ∧ x.scaleMode ≠ 3 ∧ x.dims = [lk, lq, 1, 1, 1]) →
    s.opGives (getTensor (s.opUser f.val r) o.out) t → t.compress ≠ 1 → pairOk q.fmt k.fmt = true →
    s.opGives (arrayFormats o { v with fmt := if inQ v.fmt then 1 else v.fmt } v t) () → d ≤ 256 → lk ≤ 4096 → q.dims = [d, lq, hd, 1, 1] →
    k.dims = [d, lk, hd, 1, 1] → v.dims = [d, lk, hd, 1, 1] → t.dims = [d, lq, hd, 1, 1] → s.apart f.val r t ([q, k, v] ++ m.toList) false →
    s.reads f.val r q 0 0 qi → s.reads f.val r k 0 0 ki → s.reads f.val r v 0 1 vi → s.opGives (readBias (s.opUser f.val r) m) mi →
    s.computes (.attention f stall) f.val r t 0 (attentionOut o t qi ki vi mi (s.free + 1) d lq lk hd) 0 [] stall := by
  intro f stall r o q k v t m qi ki vi mi d lq lk hd s hn hl hca hq hk hv hm hmask ht hcp hpair hf hd256 hlk hqd hkd hvd htd hal hqi hki hvi hmi
  obtain rfl : q.dim 0 = d := dim_of_dims hqd 0
  obtain rfl : q.dim 1 = lq := dim_of_dims hqd 1
  obtain rfl : q.dim 2 = hd := dim_of_dims hqd 2
  obtain rfl : k.dim 1 = lk := dim_of_dims hkd 1
  refine State.computes_of (body := bodyAttention) (by simp [opCommands]) hn (by decide) ⟨_, _, ?_, fun _ _ hr =>
    opFin_ends (.bind (.need (and_true_of hl (decide_eq_true hca)) _) (.bind hq (.bind hk (.bind hv (.bind hm (.bind ht (.bind (plainOut_ends hcp _)
      (.neg (by rw [hpair]; decide) (.bind hf (mask_ends (fun x hx => ⟨by rw [(hmask x hx).1]; rfl, (hmask x hx).2.1⟩)
        (.bind (.need ?_ _) (.bind hal hr))))))))))))⟩
  · exact .bind hqi (.bind hki (.bind hvi (.bind hmi (.bind (.get _) (.pure _ _)))))
  · have hm' := mask_dims m _ fun x hx => (hmask x hx).2.2
    simp only [Bool.and_eq_true, decide_eq_true_eq, beq_iff_eq]
    exact ⟨⟨⟨⟨⟨⟨hd256, hlk⟩, hqd⟩, hkd⟩, hvd⟩, htd⟩, hm'⟩
theorem softmaxRow_zeros : ∀ l : List Fl, (softmaxRow l).length = l.length ∧ ((∀ x ∈ l, x = .inf true) → ∀ y ∈ softmaxRow l, y = Fl.zero) := by
  intro l
  unfold softmaxRow
  refine ⟨?_, fun h y hy => ?_⟩
  · split <;> simp
  · rw [if_pos (List.all_eq_true.2 fun x hx => decide_eq_true (h x hx))] at hy
    obtain ⟨x, -, rfl⟩ := List.mem_map.1 hy
    rfl

/-! ## The vector unit -/

theorem eltwise_computes : ∀ (f : FlaskId) (stall : Nat) (r : Running) (o : OpD) (a b t : Tensor) (ai bi : In) (s : State),
    s.nextOp f.val r o 0x30 → o.layoutOk 6 [] = true → s.names f.val r (o.inp 0) a inQV → s.names f.val r (o.inp 1) b inQV →
    s.namesOut f.val r o.out t inQV → castOk a t = true → castOk b t = true → s.apart f.val r t [a, b] true →
    s.reads f.val r a 0 0 ai → s.reads f.val r b 0 0 bi → s.computes (.eltwise f stall) f.val r t 0 (perOut t (fun i k =>
      actF o.act o.alpha (Config.freeBool (s.free + 1 + 2 * k)) (eltwiseOp o.variant (Config.freeBool (s.free + 1 + 2 * k + 1))
        (ai.val (castIx a i)) (bi.val (castIx b i))))) 0 [] stall := by
  intro f stall r o a b t ai bi s hn hl ha hb ht hca hcb hal hai hbi
  obtain ⟨hb1, hb2⟩ := names_ends hb
  refine State.computes_of (body := bodyEltwise) (by simp [opCommands]) hn (by decide) ⟨_, _, ?_, fun _ _ hq =>
    opFin_ends (.bind (.need hl _) (.bind (unaryPre_of_names ha ht) (.bind hb1 (.bind hb2 (.bind (.need (and_true_of hca hcb) _) (.bind hal hq))))))⟩
  exact .bind hai (.bind hbi (.bind (.get _) (.pure _ _)))
theorem act_softmax_norm_compute : ∀ (f : FlaskId) (stall : Nat) (r : Running) (o : OpD) (x t : Tensor) (xi : In) (s : State),
    s.namesOut f.val r o.out t inQV → x.dims = t.dims → s.reads f.val r x 0 0 xi → s.names f.val r (o.inp 0) x inQV →
    (s.nextOp f.val r o 0x31 → o.layoutOk 1 [] = true → s.apart f.val r t [x] true → s.computes (.act f stall) f.val r t 0
      (perOut t (fun i k => actF o.act o.alpha (Config.freeBool (s.free + 1 + k)) (xi.val i))) 0 [] stall) ∧
    (s.nextOp f.val r o 0x42 → o.layoutOk 1 [] = true → s.apart f.val r t [x] false → s.computes (.softmax f stall) f.val r t 0
      (.vals (perRow t (fun i => softmaxRow (rowOf xi i)))) 0 [] stall) ∧
    (∀ (g b : Option Tensor) (gi bi : Option In), s.nextOp f.val r o 0x40 → o.layoutOk 2 [(0x18, 4)] = true →
      s.opGives (getTensor? (s.opUser f.val r) (o.inp 1)) g → s.opGives (getTensor? (s.opUser f.val r) (o.inp 2)) b →
      s.opGives (biasOk g (x.dim 0)) () → s.opGives (biasOk b (x.dim 0)) () → s.apart f.val r t ([x] ++ g.toList ++ b.toList) false →
      s.opGives (readBias (s.opUser f.val r) g) gi → s.opGives (readBias (s.opUser f.val r) b) bi → s.computes (.norm f stall) f.val r t 0
        (.vals (perRow t (fun i => normRow o.variant (o.f32 0x18) (rowOf xi i) (vecOf gi) (vecOf bi)))) 0 [] stall) := by
  intro f stall r o x t xi s ht hd hxi hx
  have hpre := unaryPre_of_names hx ht
  refine ⟨fun hn hl hal => ?_, fun hn hl hal => ?_, fun g b gi bi hn hl hg hb hgo hbo hal hgi hbi => ?_⟩
  · refine State.computes_of (body := bodyAct) (by simp [opCommands]) hn (by decide) ⟨_, _, ?_, fun _ _ hq =>
      opFin_ends (.bind (.need hl _) (.bind hpre (.bind (dims_ends hd _) (.bind hal hq))))⟩
    exact .bind hxi (.bind (.get _) (.pure _ _))
  · refine State.computes_of (body := bodySoftmax) (by simp [opCommands]) hn (by decide) ⟨_, _, ?_, fun _ _ hq =>
      opFin_ends (.bind (.need hl _) (.bind hpre (.bind (dims_ends hd _) (.bind hal hq))))⟩
    exact .bind hxi (.pure _ _)
  · refine State.computes_of (body := bodyNorm) (by simp [opCommands]) hn (by decide) ⟨_, _, ?_, fun _ _ hq =>
      opFin_ends (.bind (.need hl _) (.bind hpre (.bind hg (.bind hb (.bind hgo (.bind hbo (.bind (dims_ends hd _) (.bind hal hq))))))))⟩
    exact .bind hxi (.bind hgi (.bind hbi (.pure _ _)))
theorem convert_computes : ∀ (f : FlaskId) (stall : Nat) (r : Running) (o : OpD) (x t : Tensor) (xi : In) (s : State), s.nextOp f.val r o 0x90 →
    o.layoutOk 1 [] = true → s.names f.val r (o.inp 0) x anyFmt → s.namesOut f.val r o.out t anyFmt → x.dims = t.dims →
    s.apart f.val r t [x] true → s.reads f.val r x 0 0 xi →
    s.computes (.convert f stall) f.val r t 0 (perOut t (fun i _ => xi.val i)) 0 [] stall := by
  intro f stall r o x t xi s hn hl hx ht hd hal hxi
  refine State.computes_of (body := bodyConvert) (by simp [opCommands]) hn (by decide) ⟨_, _, ?_, fun _ _ hq =>
    opFin_ends (.bind (.need hl _) (.bind (unaryPre_of_names hx ht) (.bind (dims_ends hd _) (.bind hal hq))))⟩
  exact .bind hxi (.pure _ _)
theorem actBwd_computes : ∀ (f : FlaskId) (stall : Nat) (r : Running) (o : OpD) (x g t : Tensor) (xi gi : In) (s : State), s.nextOp f.val r o 0x32 →
    o.layoutOk 1 [] = true → s.names f.val r (o.inp 0) x inV → s.names f.val r (o.inp 1) g inV → s.namesOut f.val r o.out t inV →
    x.dims = t.dims → g.dims = t.dims → s.apart f.val r t [x, g] false → s.reads f.val r x 0 0 xi → s.reads f.val r g 0 0 gi →
    s.computes (.actBwd f stall) f.val r t 0 (perOut t (fun i k =>
      fmul (gi.val i) (actD o.act o.alpha (Config.freeBool (s.free + 1 + k)) (xi.val i)))) 0 [] stall := by
  intro f stall r o x g t xi gi s hn hl hx hg ht hxd hgd hal hxi hgi
  obtain ⟨hg1, hg2⟩ := names_ends hg
  refine State.computes_of (body := bodyActBwd) (by simp [opCommands]) hn (by decide) ⟨_, _, ?_, fun _ _ hq =>
    opFin_ends (.bind (.need hl _) (.bind (unaryPre_of_names hx ht) (.bind hg1 (.bind hg2
      (.bind (.need (and_true_of (beq_iff_eq.2 hxd) (beq_iff_eq.2 hgd)) _) (.bind hal hq))))))⟩
  exact .bind hxi (.bind hgi (.bind (.get _) (.pure _ _)))
theorem pool_resize_compute : ∀ (f : FlaskId) (stall : Nat) (r : Running) (o : OpD) (x t : Tensor) (xi : In) (s : State),
    s.names f.val r (o.inp 0) x inQV → s.namesOut f.val r o.out t inQV → x.dim 4 = 1 → t.dim 4 = 1 → t.dim 0 = x.dim 0 → t.dim 3 = x.dim 3 →
    s.apart f.val r t [x] false → s.reads f.val r x 0 0 xi →
    (s.nextOp f.val r o 0x20 → o.variant = 2 → o.layoutOk 3 [] = true → t.dim 1 = 1 → t.dim 2 = 1 → s.computes (.pool f stall) f.val r t 0
      (perOut t (fun i k => average (s.free + 1 + k) (((List.range (x.dim 2)).flatMap (fun y => (List.range (x.dim 1)).map (fun a =>
        [ix i 0, a, y, ix i 3, 0]))).map xi.val))) 0 [] stall) ∧
    (∀ c, s.nextOp f.val r o 0x20 → o.variant < 2 → o.layoutOk 3 [(0x18, 8)] = true → c = { convP o with dx := 1, dy := 1, groups := 1 } →
      c.ok = true → 1 ≤ o.p 0x1A 1 → o.p 0x1A 1 ≤ 15 → 1 ≤ o.p 0x1B 1 → o.p 0x1B 1 ≤ 15 →
      convLen (x.dim 1) c.pl c.pr 1 (o.p 0x1A 1) c.sx = some (t.dim 1) → convLen (x.dim 2) c.pt c.pb 1 (o.p 0x1B 1) c.sy = some (t.dim 2) →
      s.computes (.pool f stall) f.val r t 0 (perOut t (fun i k => if o.variant = 0
        then poolMax (s.free + 1 + k) ((poolWindow c (o.p 0x1A 1) (o.p 0x1B 1) x i).map xi.val)
        else average (s.free + 1 + k) ((poolWindow c (o.p 0x1A 1) (o.p 0x1B 1) x i).map xi.val))) 0 [] stall) ∧
    (s.nextOp f.val r o 0x21 → o.variant = 0 → o.layoutOk 2 [] = true → s.computes (.resize f stall) f.val r t 0 (perOut t (fun i _ =>
      xi.val [ix i 0, ix i 1 * x.dim 1 / t.dim 1, ix i 2 * x.dim 2 / t.dim 2, ix i 3, 0])) 0 [] stall) ∧
    (s.nextOp f.val r o 0x21 → o.variant = 1 → o.layoutOk 2 [] = true → s.computes (.resize f stall) f.val r t 0 (perOut t (fun i _ =>
      bilinear (x.dim 2) (t.dim 2) (ix i 2) (fun y => bilinear (x.dim 1) (t.dim 1) (ix i 1) (fun a => xi.val [ix i 0, a, y, ix i 3, 0]))))
      0 [] stall) := by
  intro f stall r o x t xi s hx ht hx4 ht4 hd0 hd3 hal hxi
  have hpre := unaryPre_of_names hx ht
  have hdims : (x.dim 4 == 1 && t.dim 4 == 1 && t.dim 0 == x.dim 0 && t.dim 3 == x.dim 3) = true := by
    simp only [Bool.and_eq_true, beq_iff_eq]
    exact ⟨⟨⟨hx4, ht4⟩, hd0⟩, hd3⟩
  refine ⟨fun hn hv hl h1 h2 => ?_, fun c hn hv hl hc hok hw1 hw2 hh1 hh2 hlx hly => ?_, fun hn hv hl => ?_, fun hn hv hl => ?_⟩
  · refine State.computes_of (body := bodyPool) (by simp [opCommands]) hn (by decide) ⟨_, _, ?_, fun _ _ hq =>
      opFin_ends (.bind (.need (by simpa [hv] using hl) _) (.bind hpre (.bind (.need (by simp [hv, hx4, ht4, hd0, hd3, h1, h2]) _) (.bind hal hq))))⟩
    refine .bind hxi (.bind (.get _) ?_)
    simp only [hv, beq_self_eq_true, if_true, OfNat.ofNat_ne_zero, if_false]
    exact .pure _ _
  · subst hc
    have hv2 : ¬o.variant = 2 := by omega
    refine State.computes_of (body := bodyPool) (by simp [opCommands]) hn (by decide) ⟨_, _, ?_, fun _ _ hq =>
      opFin_ends (.bind (.need (by simp [hv2, hl, hok, hw1, hw2, hh1, hh2]) _) (.bind hpre (.bind
        (.need (by simp [hv2, hx4, ht4, hd0, hd3, hlx, hly]) _) (.bind hal hq))))⟩
    refine .bind hxi (.bind (.get _) ?_)
    simp only [beq_iff_eq, hv2, if_false]
    exact .pure _ _
  · refine State.computes_of (body := bodyResize) (by simp [opCommands]) hn (by decide) ⟨_, _, ?_, fun _ _ hq =>
      opFin_ends (.bind (.need hl _) (.bind hpre (.bind (.need hdims _) (.bind hal hq))))⟩
    refine .bind hxi ?_
    simp only [hv, if_true]
    exact .pure _ _
  · refine State.computes_of (body := bodyResize) (by simp [opCommands]) hn (by decide) ⟨_, _, ?_, fun _ _ hq =>
      opFin_ends (.bind (.need hl _) (.bind hpre (.bind (.need hdims _) (.bind hal hq))))⟩
    refine .bind hxi ?_
    simp only [hv, one_ne_zero, if_false]
    exact .pure _ _

/-- Settles O57: the checks of each operation hold by the premises; its result is then encoded, written and counted. -/
theorem arrayAndVectorOperations : Obligations.ArrayAndVectorOperations := by
  unfold Obligations.ArrayAndVectorOperations
  exact ⟨⟨conv_computes, convTranspose_computes, convBwdWeight_computes, matmul_computes, attention_computes, softmaxRow_zeros⟩,
    eltwise_computes, act_softmax_norm_compute, convert_computes, actBwd_computes, pool_resize_compute⟩

end Sys2Proof.Machine
end
section
/-! Losses, reductions, selections, optimisers, and the operations that move codes (R579, R592 to R601). -/
namespace Sys2Proof.Machine
open Sys2Proof

/-! ## Lists of tensors -/

theorem Ends.mapM_nil {α β : Type} (g : α → JM β) (s : State) : Ends ([].mapM g) s [] s := by
  rw [List.mapM_nil]
  exact .pure _ s
theorem Ends.mapM_cons {α β : Type} {g : α → JM β} {a : α} {l : List α} {v : β} {vs : List β} {s t u : State} (h : Ends (g a) s v t)
    (k : Ends (l.mapM g) t vs u) : Ends ((a :: l).mapM g) s (v :: vs) u := by
  rw [List.mapM_cons]
  exact .bind h (.bind k (.pure _ u))

/-! ## Computing operations -/

section
variable {s : State} {f : FlaskId} {r : Running} {n : Nat} {t : Tensor} {ok : Nat → Bool}
theorem namesOut_ends (h : s.namesOut f.val r n t ok) : Ends (getTensor (s.opUser f.val r) n) s.opStart t s.opStart ∧
    Ends (fmtOk t ok) s.opStart () s.opStart ∧ Ends (plainOut t) s.opStart () s.opStart :=
  ⟨h.1.1, fmtOk_ends h.1.2.1 h.1.2.2 _, plainOut_ends h.2 _⟩
theorem names_ends_at (h : s.names f.val r n t ok) : Ends (getTensor (s.opUser f.val r) n) s.opStart t s.opStart ∧
    Ends (fmtOk t ok) s.opStart () s.opStart := ⟨h.1, fmtOk_ends h.2.1 h.2.2 _⟩
end

theorem softmaxXent_computes : ∀ (f : FlaskId) (stall : Nat) (r : Running) (o : OpD) (x l loss t : Tensor) (xi li : In) (c nb : Nat) (s : State), s.nextOp f.val r o 0x43 →
    o.layoutOk 1 [] = true → s.names f.val r (o.inp 0) x inV → s.names f.val r (o.inp 1) l isI32 → s.namesOut f.val r (o.inp 2) loss isF32 →
    s.namesOut f.val r o.out t inV → x.dims = [c, nb, 1, 1, 1] → t.dims = x.dims → l.dims = [nb, 1, 1, 1, 1] → loss.dims = [1, 1, 1, 1, 1] →
    s.apart f.val r t [x, l] false → s.apart f.val r loss [x, l] false → s.reads f.val r x 0 0 xi → s.reads f.val r l 0 0 li →
    s.computes (.softmaxXent f stall) f.val r t 0 (.vals (xentOut xi li c nb).1) (xentOut xi li c nb).2.1
      [(loss, #[encode32 (xentOut xi li c nb).2.2])] stall := by
  intro f stall r o x l loss t xi li c nb s hn hl hx hlb hloss ht hxd htd hld hlod hal hal2 hxi hli
  obtain rfl : x.dim 0 = c := dim_of_dims hxd 0
  obtain rfl : x.dim 1 = nb := dim_of_dims hxd 1
  obtain ⟨l1, l2⟩ := names_ends_at hlb
  obtain ⟨o1, o2, o3⟩ := namesOut_ends hloss
  refine State.computes_of (body := bodySoftmaxXent) (by simp [opCommands]) hn (by decide) ⟨_, _, ?_, fun _ _ hq =>
    opFin_ends (.bind (.need hl _) (.bind (unaryPre_of_names hx ht) (.bind l1 (.bind o1 (.bind o3 (.bind l2 (.bind o2
      (.bind (.need ?_ _) (.bind hal (.bind hal2 hq))))))))))⟩
  · exact .bind hxi (.bind hli (.pure _ _))
  · simp only [Bool.and_eq_true, beq_iff_eq]
    exact ⟨⟨⟨hxd, htd⟩, hld⟩, hlod⟩
theorem reduce_computes : ∀ (f : FlaskId) (stall : Nat) (r : Running) (o : OpD) (x t : Tensor) (xi : In) (s : State), s.nextOp f.val r o 0x50 →
    o.layoutOk 5 [(0x18, 1)] = true → o.p 0x18 1 < 32 → s.names f.val r (o.inp 0) x inQV →
    t.dims = x.dims.zipIdx.map (fun e => if (o.p 0x18 1).testBit e.2 then 1 else e.1) → s.apart f.val r t [x] false → s.reads f.val r x 0 0 xi →
    (o.variant < 4 → s.namesOut f.val r o.out t inQV → s.computes (.reduce f stall) f.val r t 0 (perOut t (fun i k =>
      reduceOne o.variant (Config.freeBool (s.free + 1 + k)) ((reduceSet x (o.p 0x18 1) i).map xi.val))) 0 [] stall) ∧
    (o.variant = 4 → (∃ d, d < 5 ∧ o.p 0x18 1 = 2 ^ d) → s.namesOut f.val r o.out t isI32 → s.computes (.reduce f stall) f.val r t 0
      (.ints ((Array.range t.count).map (fun k => (argMax ((reduceSet x (o.p 0x18 1) (unlin t.dims k)).map xi.val) : Int))) true) 0 [] stall) := by
  intro f stall r o x t xi s hn hl hm hx htd hal hxi
  obtain ⟨x1, x2⟩ := names_ends_at hx
  refine ⟨fun hv ht => ?_, fun hv ⟨d, hd, hmask⟩ ht => ?_⟩
  · obtain ⟨t1, t2, t3⟩ := namesOut_ends ht
    have hv4 : ¬o.variant = 4 := by omega
    refine State.computes_of (body := bodyReduce) (by simp [opCommands]) hn (by decide) ⟨_, _, ?_, fun _ _ hq =>
      opFin_ends (.bind (.need (by simp [hv4, hl, hm]) _) (.bind x1 (.bind t1 (.bind t3 (.bind x2 (.bind (by rw [if_neg (by simp [hv4])]; exact t2)
        (.bind (.need (beq_iff_eq.2 htd) _) (.bind hal hq))))))))⟩
    refine .bind hxi (.bind (.get _) ?_)
    simp only [beq_iff_eq, hv4, if_false]
    exact .pure _ _
  · obtain ⟨t1, t2, t3⟩ := namesOut_ends ht
    have hpow : [1, 2, 4, 8, 16].contains (o.p 0x18 1) = true := by
      rw [hmask]
      have h : ∀ d : Fin 5, [1, 2, 4, 8, 16].contains (2 ^ d.val) = true := by decide
      exact h ⟨d, hd⟩
    refine State.computes_of (body := bodyReduce) (by simp [opCommands]) hn (by decide) ⟨_, _, ?_, fun _ _ hq =>
      opFin_ends (.bind (.need (by rw [hl, hpow, decide_eq_true hm]; simp) _) (.bind x1 (.bind t1 (.bind t3 (.bind x2
        (.bind (by rw [if_pos (by simp [hv])]; exact t2) (.bind (.need (beq_iff_eq.2 htd) _) (.bind hal hq))))))))⟩
    refine .bind hxi (.bind (.get _) ?_)
    simp only [hv, beq_self_eq_true, if_true]
    exact .pure _ _
theorem topk_computes : ∀ (f : FlaskId) (stall : Nat) (r : Running) (o : OpD) (x n t : Tensor) (xi : In) (rows : List (Fl × Nat)) (s : State), s.nextOp f.val r o 0x80 →
    o.layoutOk 1 [(0x18, 2)] = true → 1 ≤ o.p 0x18 2 → o.p 0x18 2 ≤ 256 → s.names f.val r (o.inp 0) x inV → s.namesOut f.val r o.out t inV →
    s.namesOut f.val r (o.inp 1) n isI32 → o.p 0x18 2 ≤ x.dim 0 → t.dims = x.dims.set 0 (o.p 0x18 2) → n.dims = t.dims →
    s.apart f.val r t [x] false → s.apart f.val r n [x] false → s.reads f.val r x 0 0 xi →
    rows = (List.range (x.count / x.dim 0)).flatMap (fun k => topK (o.p 0x18 2) (rowOf xi (unlin x.dims (k * x.dim 0)))) →
    s.computes (.topk f stall) f.val r t 0 (.vals (rows.map (fun e => e.1)).toArray) 0 [(n, (rows.map (fun e => e.2)).toArray)] stall := by
  intro f stall r o x n t xi rows s hn hl hk1 hk2 hx ht hnn hk hd hnd hal haln hxi hrows
  subst hrows
  obtain ⟨n1, n2, n3⟩ := namesOut_ends hnn
  refine State.computes_of (body := bodyTopk) (by simp [opCommands]) hn (by decide) ⟨_, _, ?_, fun _ _ hq =>
    opFin_ends (.bind (.need (by simp [hl, hk1, hk2]) _) (.bind (unaryPre_of_names hx ht) (.bind n1 (.bind n3 (.bind n2
      (.bind (.need ?_ _) (.bind hal (.bind haln hq))))))))⟩
  · exact .bind hxi (.pure _ _)
  · simp only [Bool.and_eq_true, beq_iff_eq, decide_eq_true_eq]
    exact ⟨⟨hk, hd⟩, hnd⟩
/-- With every score at or below the threshold no box is kept. -/
theorem boxOut_of_low {o : OpD} {bi ci : In} {nb most fr k : Nat}
    (h : ∀ k, k < nb → flt (o.f32 0x1C) (ci.val [k, 0, 0, 0, 0]) = false ∧ (ci.val [k, 0, 0, 0, 0]).isNan = false)
    (hnan : (o.f32 0x1C).isNan = false) (hk : k < most) : (boxOut o bi ci nb most fr)[k]? = some (-1) := by
  have hscores : ((List.range nb).map fun k => ci.val [k, 0, 0, 0, 0]).any (fun x => x.isNan) = false := by
    rw [List.any_map, List.any_eq_false]
    exact fun j hj => by simp [(h j (List.mem_range.1 hj)).2]
  have hlive : ((List.range nb).map fun k => ci.val [k, 0, 0, 0, 0]).zipIdx.filter (fun e => flt (o.f32 0x1C) e.1) = [] := by
    rw [List.filter_eq_nil_iff]
    intro e he
    obtain ⟨j, hj, hje⟩ := List.mem_map.1 (List.fst_mem_of_mem_zipIdx he)
    rw [← hje, (h j (List.mem_range.1 hj)).1]
    decide
  unfold boxOut
  dsimp only
  rw [hnan, hscores, hlive]
  simp [keepBoxes, hk]
theorem boxSuppress_computes : ∀ (f : FlaskId) (stall : Nat) (r : Running) (o : OpD) (b c t : Tensor) (bi ci : In) (nb : Nat) (s : State), s.nextOp f.val r o 0x81 →
    o.layoutOk 1 [(0x18, 8), (0x20, 2)] = true → 1 ≤ o.p 0x20 2 → o.p 0x20 2 ≤ 4096 → s.names f.val r (o.inp 0) b isF32 →
    s.names f.val r (o.inp 1) c isF32 → s.namesOut f.val r o.out t isI32 → nb ≤ 4096 → b.dims = [4, nb, 1, 1, 1] → c.dims = [nb, 1, 1, 1, 1] →
    t.dims = [o.p 0x20 2, 1, 1, 1, 1] → s.apart f.val r t [b, c] false → s.reads f.val r b 0 0 bi → s.reads f.val r c 0 0 ci →
    s.computes (.boxSuppress f stall) f.val r t 0 (.ints (boxOut o bi ci nb (o.p 0x20 2) (s.free + 1)) true) 0 [] stall ∧
    ((∀ k, k < nb → flt (o.f32 0x1C) (ci.val [k, 0, 0, 0, 0]) = false ∧ (ci.val [k, 0, 0, 0, 0]).isNan = false) → (o.f32 0x1C).isNan = false →
      ∀ k, k < o.p 0x20 2 → (boxOut o bi ci nb (o.p 0x20 2) (s.free + 1))[k]? = some (-1)) := by
  intro f stall r o b c t bi ci nb s hn hl h1 h2 hb hc ht hnb hbd hcd htd hal hbi hci
  obtain rfl : b.dim 1 = nb := dim_of_dims hbd 1
  obtain ⟨b1, b2⟩ := names_ends_at hb
  obtain ⟨c1, c2⟩ := names_ends_at hc
  obtain ⟨t1, t2, t3⟩ := namesOut_ends ht
  refine ⟨?_, fun hlow hnan k hk => ?_⟩
  · refine State.computes_of (body := bodyBoxSuppress) (by simp [opCommands]) hn (by decide) ⟨_, _, ?_, fun _ _ hq =>
      opFin_ends (.bind (.need (by simp [hl, h1, h2]) _) (.bind b1 (.bind c1 (.bind t1 (.bind t3 (.bind b2 (.bind c2 (.bind t2
        (.bind (.need ?_ _) (.bind hal hq))))))))))⟩
    · exact .bind hbi (.bind hci (.bind (.get _) (.pure _ _)))
    · simp only [Bool.and_eq_true, beq_iff_eq, decide_eq_true_eq]
      exact ⟨⟨⟨hnb, hbd⟩, hcd⟩, htd⟩
  · exact boxOut_of_low hlow hnan hk
/-- The checks of the velocity, which may be absent. -/
theorem velocity_ends {β : Type} {v : Option Tensor} {next : Unit → JM β} {s t : State} {b : β}
    (h : ∀ x, v = some x → isF32 x.fmt = true ∧ x.scaleMode ≠ 3 ∧ x.compress ≠ 1) (k : Ends (next ()) s b t) :
    Ends (match v with | some x => fmtOk x isF32 >>= fun _ => plainOut x >>= next | none => pure () >>= next) s b t := by
  cases v with
  | none => exact .bind (.pure _ s) k
  | some x =>
    obtain ⟨h1, h2, h3⟩ := h x rfl
    exact .bind (fmtOk_ends h1 h2 s) (.bind (plainOut_ends h3 s) k)
theorem optSgd_computes : ∀ (f : FlaskId) (stall : Nat) (r : Running) (o : OpD) (g t : Tensor) (v : Option Tensor) (gi wi : In) (vi : Option In) (s : State),
    s.nextOp f.val r o 0xA0 → o.layoutOk 1 [(0x18, 12)] = true → s.names f.val r (o.inp 0) g isF32 →
    s.opGives (getTensor? (s.opUser f.val r) (o.inp 1)) v → s.namesOut f.val r o.out t inQV → g.dims = t.dims →
    (∀ x, v = some x → x.fmt = 7 ∧ x.scaleMode ≠ 3 ∧ x.compress ≠ 1 ∧ x.dims = t.dims) → s.apart f.val r t ([g] ++ v.toList) true →
    s.reads f.val r g 0 0 gi → s.opGives (readBias (s.opUser f.val r) v) vi → s.reads f.val r t 0 0 wi →
    s.computes (.optSgd f stall) f.val r t 0 (.vals ((sgdStep o t wi gi vi).map (fun e => e.1))) 0
      (match v with | some x => [(x, (sgdStep o t wi gi vi).map (fun e => encode32 e.2))] | none => []) stall := by
  intro f stall r o g t v gi wi vi s hn hl hg hv ht hgd hvx hal hgi hvi hwi
  obtain ⟨g1, g2⟩ := names_ends_at hg
  obtain ⟨t1, t2, t3⟩ := namesOut_ends ht
  have hdims : (([g] ++ v.toList).all fun x => x.dims == t.dims) = true := by
    refine List.all_eq_true.2 fun x hx => beq_iff_eq.2 ?_
    rcases List.mem_cons.1 hx with rfl | hx
    · exact hgd
    · exact (hvx x (Option.mem_toList.1 hx)).2.2.2
  refine State.computes_of (body := bodyOptSgd) (by simp [opCommands]) hn (by decide) ⟨_, _, ?_, fun _ _ hq =>
    opFin_ends (.bind (.need hl _) (.bind g1 (.bind hv (.bind t1 (.bind t3 (.bind t2 (.bind g2 (velocity_ends (fun x hx =>
      ⟨by rw [(hvx x hx).1]; rfl, (hvx x hx).2.1, (hvx x hx).2.2.1⟩) (.bind (.need hdims _) (.bind hal hq))))))))))⟩
  exact .bind hwi (.bind hgi (.bind hvi (.pure _ _)))
theorem optAdam_computes : ∀ (f : FlaskId) (stall : Nat) (r : Running) (o : OpD) (g m v t : Tensor) (gi mi vi wi : In) (s : State), s.nextOp f.val r o 0xA1 →
    o.layoutOk 1 [(0x18, 28)] = true → s.names f.val r (o.inp 0) g isF32 → s.namesOut f.val r (o.inp 1) m isF32 →
    s.namesOut f.val r (o.inp 2) v isF32 → s.namesOut f.val r o.out t inQV → g.dims = t.dims → m.dims = t.dims → v.dims = t.dims →
    s.apart f.val r t [g, m, v] true → s.reads f.val r g 0 0 gi → s.reads f.val r m 0 0 mi → s.reads f.val r v 0 0 vi → s.reads f.val r t 0 0 wi →
    s.computes (.optAdam f stall) f.val r t 0 (.vals ((adamStep o t wi gi mi vi).map (fun e => e.1))) 0
      [(m, (adamStep o t wi gi mi vi).map (fun e => encode32 e.2.1)), (v, (adamStep o t wi gi mi vi).map (fun e => encode32 e.2.2))] stall := by
  intro f stall r o g m v t gi mi vi wi s hn hl hg hm hv ht hgd hmd hvd hal hgi hmi hvi hwi
  obtain ⟨g1, g2⟩ := names_ends_at hg
  obtain ⟨m1, m2, m3⟩ := namesOut_ends hm
  obtain ⟨v1, v2, v3⟩ := namesOut_ends hv
  obtain ⟨t1, t2, t3⟩ := namesOut_ends ht
  refine State.computes_of (body := bodyOptAdam) (by simp [opCommands]) hn (by decide) ⟨_, _, ?_, fun _ _ hq =>
    opFin_ends (.bind (.need hl _) (.bind g1 (.bind m1 (.bind v1 (.bind t1 (.bind t3 (.bind m3 (.bind v3 (.bind t2 (.bind g2 (.bind m2 (.bind v2
      (.bind (.need (by simp [hgd, hmd, hvd]) _) (.bind hal hq))))))))))))))⟩
  exact .bind hwi (.bind hgi (.bind hmi (.bind hvi (.pure _ _))))
theorem sgdStep_plain : ∀ (o : OpD) (t : Tensor) (wi gi : In) (k : Nat), k < t.count → (sgdStep o t wi gi none)[k]?.map (fun e => e.1) =
    some (fsub (wi.val (unlin t.dims k)) (fmul (o.f32 0x18) (fadd (gi.val (unlin t.dims k)) (fmul (o.f32 0x20) (wi.val (unlin t.dims k)))))) := by
  intro o t wi gi k hk
  simp [sgdStep, hk]

/-! ## Operations that move codes -/

/-- What PAD moves, by a condition on the whole index. -/
theorem padded_eq (o : OpD) (xi : In) (t : Tensor) (v : Nat) : padded o xi t v = { out := .codes ((Array.range t.count).map (fun k =>
      if (∀ d, d < 5 → padBefore o d ≤ ix (unlin t.dims k) d ∧ ix (unlin t.dims k) d - padBefore o d < xi.t.dim d)
        then some (xi.codeI ((List.range 5).map (fun d => ix (unlin t.dims k) d - padBefore o d)))
        else some (v % 2 ^ t.bits))) } := by
  unfold padded moved
  simp only [List.all_eq_true, List.mem_range, Bool.and_eq_true, decide_eq_true_eq, apply_ite some]
theorem transpose_pad_copy_move : ∀ (f : FlaskId) (stall : Nat) (r : Running) (o : OpD) (x t : Tensor) (xi : In) (s : State), s.names f.val r (o.inp 0) x anyFmt →
    s.namesOut f.val r o.out t anyFmt → t.fmt = x.fmt → s.apart f.val r t [x] false → s.reads f.val r x 0 0 xi →
    (∀ perm, s.nextOp f.val r o 0x60 → o.layoutOk 1 [(0x18, 5)] = true → perm = (List.range 5).map (fun d => o.p (0x18 + d) 1) →
      (∀ d, d < 5 → d ∈ perm) → t.dims = perm.map x.dim → s.moves (.transpose f stall) f.val r t ((Array.range t.count).map (fun k =>
        some (xi.codeI ((List.range 5).map (fun d => ix (unlin t.dims k) (perm.findIdx (fun p => p == d))))))) 0 stall) ∧
    (∀ v, s.nextOp f.val r o 0x62 → o.layoutOk 1 [(0x18, 9), (0x28, 8)] = true → s.opGives (o.value (s.opUser f.val r) 0x20 0x28) v →
      t.dims = [o.p 0x18 1 + x.dim 0 + o.p 0x19 1, o.p 0x1A 1 + x.dim 1 + o.p 0x1B 1, o.p 0x1C 1 + x.dim 2 + o.p 0x1D 1,
        o.p 0x1E 1 + x.dim 3 + o.p 0x1F 1, x.dim 4] → s.moves (.pad f stall) f.val r t ((Array.range t.count).map (fun k =>
      if (∀ d, d < 5 → padBefore o d ≤ ix (unlin t.dims k) d ∧ ix (unlin t.dims k) d - padBefore o d < xi.t.dim d)
        then some (xi.codeI ((List.range 5).map (fun d => ix (unlin t.dims k) d - padBefore o d)))
        else some (v % 2 ^ t.bits))) 0 stall) ∧
    (s.nextOp f.val r o 0xB0 → o.layoutOk 1 [] = true → t.compress = 0 → x.dims = t.dims → s.moves (.copy f stall) f.val r t
      ((Array.range t.count).map (fun k => some (xi.codeI (unlin t.dims k)))) 0 stall) := by
  intro f stall r o x t xi s hx ht hf hal hxi
  have hpre : Ends (movePre (s.opUser f.val r) o) s.opStart (x, t) s.opStart :=
    movePre_ends hx.1 hx.2.1 hx.2.2 ht.1.1 ht.1.2.1 ht.1.2.2 hf
  have hpl := plainOut_ends ht.2 s.opStart
  refine ⟨fun perm hn hl hp hall hd => ?_, fun v hn hl hv hd => ?_, fun hn hl hc hd => ?_⟩
  · subst hp
    refine State.moves_of (body := bodyTranspose) (by simp [opCommands]) hn (by decide) ⟨_, ?_, fun _ _ hq =>
      opFin_ends (.bind (.need ?_ _) (.bind hpre (.bind hpl (.bind (.need (beq_iff_eq.2 hd) _) (.bind hal hq)))))⟩
    · exact .bind hxi (.pure _ _)
    · exact and_true_of hl (List.all_eq_true.2 fun d hd => List.contains_iff_mem.2 (hall d (List.mem_range.1 hd)))
  · refine State.moves_of (body := bodyPad) (by simp [opCommands]) hn (by decide) ⟨_, ?_, fun _ _ hq =>
      opFin_ends (.bind (.need hl _) (.bind hv (.bind hpre (.bind hpl (.bind (.need ?_ _) (.bind hal hq))))))⟩
    · refine .bind hxi ?_
      rw [padded_eq]
      exact .pure _ _
    · rw [beq_iff_eq, hd]
      simp [padBefore, padAfter, List.range_succ]
  · refine State.moves_of (body := bodyCopy) (by simp [opCommands]) hn (by decide) ⟨_, ?_, fun _ _ hq =>
      .bind (.need hl _) (.bind hpre (.bind (.need (beq_iff_eq.2 hd) _) (.bind hal (.pos hc (opFin_ends hq)))))⟩
    exact .bind hxi (.pure _ _)
theorem concat_moves : ∀ (f : FlaskId) (stall : Nat) (r : Running) (o : OpD) (x y t : Tensor) (xi yi : In) (d : Nat) (s : State), s.nextOp f.val r o 0x61 →
    o.layoutOk 1 [(0x18, 1)] = true → o.p 0x18 1 = d → d < 5 → s.names f.val r (o.inp 0) x anyFmt → s.names f.val r (o.inp 1) y anyFmt →
    o.inp 0 ≠ 0xFFFF → o.inp 1 ≠ 0xFFFF → o.inp 2 = 0xFFFF → o.inp 3 = 0xFFFF → s.namesOut f.val r o.out t anyFmt → x.fmt = t.fmt → y.fmt = t.fmt →
    x.dims.set d 0 = t.dims.set d 0 → y.dims.set d 0 = t.dims.set d 0 → x.dim d + y.dim d = t.dim d → s.apart f.val r t [x, y] false →
    s.reads f.val r x 0 0 xi → s.reads f.val r y 0 0 yi → s.moves (.concat f stall) f.val r t ((Array.range t.count).map (fun k =>
      (concatAt [xi, yi] d (ix (unlin t.dims k) d)).map (fun e => e.1.codeI ((unlin t.dims k).set d e.2)))) 0 stall := by
  intro f stall r o x y t xi yi d s hn hl hd hd5 hx hy h0 h1 h2 h3 ht hxf hyf hxd hyd hsum hal hxi hyi
  subst hd
  obtain ⟨x1, x2⟩ := names_ends_at hx
  obtain ⟨y1, y2⟩ := names_ends_at hy
  obtain ⟨t1, t2, t3⟩ := namesOut_ends ht
  have hins : (List.range 4).filter (fun k => o.inp k ≠ 0xFFFF) = [0, 1] := by simp [List.range_succ, h0, h1, h2, h3]
  refine State.moves_of (body := bodyConcat) (by simp [opCommands]) hn (by decide) ⟨_, ?_, fun _ _ hq =>
    opFin_ends (.bind (.need (and_true_of hl (decide_eq_true hd5)) _) (.bind (v := [x, y]) (by rw [hins]; exact .mapM_cons x1 (.mapM_cons y1 (.mapM_nil _ _)))
      (.bind t1 (.bind t3 (.bind t2 (.bind (.mapM_cons (.neg (not_not.2 hxf) x2) (.mapM_cons (.neg (not_not.2 hyf) y2) (.mapM_nil _ _)))
        (.bind (.need ?_ _) (.bind hal hq))))))))⟩
  · exact .bind (.mapM_cons hxi (.mapM_cons hyi (.mapM_nil _ _))) (.pure _ _)
  · simp [hxd, hyd, hsum]
theorem gather_scatter_move : ∀ (f : FlaskId) (stall : Nat) (r : Running) (o : OpD) (x n t : Tensor) (xi ni : In) (d l : Nat) (s : State), o.p 0x18 1 = d → d < 5 →
    s.names f.val r (o.inp 0) x anyFmt → s.names f.val r (o.inp 1) n isI32 → s.namesOut f.val r o.out t anyFmt → t.fmt = x.fmt →
    n.dims = [l, 1, 1, 1, 1] → s.reads f.val r x 0 0 xi → s.reads f.val r n 0 0 ni →
    (s.nextOp f.val r o 0x70 → o.layoutOk 1 [(0x18, 1)] = true → t.dims = x.dims.set d l → s.apart f.val r t [x, n] false →
      s.moves (.gather f stall) f.val r t ((Array.range t.count).map (fun k =>
        some (if 0 ≤ ni.intK (ix (unlin t.dims k) d) ∧ ni.intK (ix (unlin t.dims k) d) < (x.dim d : Int)
          then xi.codeI ((unlin t.dims k).set d (ni.intK (ix (unlin t.dims k) d)).toNat) else 0)))
        (((List.range l).filter (fun k => !decide (0 ≤ ni.intK k ∧ ni.intK k < (x.dim d : Int)))).length * (t.count / l)) stall) ∧
    (s.nextOp f.val r o 0x71 → o.variant = 0 → o.layoutOk 2 [(0x18, 1)] = true → x.dims = t.dims.set d l → s.apart f.val r t [x, n] true →
      s.moves (.scatter f stall) f.val r t ((Array.range t.count).map (fun k =>
        ((slices ni l (t.dim d)).reverse.find? (fun e => e.2 == ix (unlin t.dims k) d)).map (fun e => xi.codeI ((unlin t.dims k).set d e.1))))
        ((l - (slices ni l (t.dim d)).length) * (xi.t.count / l)) stall) := by
  intro f stall r o x n t xi ni d l s hd hd5 hx hn' ht hf hnd hxi hni
  subst hd
  obtain rfl : n.dim 0 = l := dim_of_dims hnd 0
  obtain ⟨x1, x2⟩ := names_ends_at hx
  obtain ⟨n1, n2⟩ := names_ends_at hn'
  obtain ⟨t1, t2, t3⟩ := namesOut_ends ht
  refine ⟨fun hn hl htd hal => ?_, fun hn hv hl hxd hal => ?_⟩
  · refine State.moves_of (body := bodyGather) (by simp [opCommands]) hn (by decide) ⟨_, ?_, fun _ _ hq =>
      opFin_ends (.bind (.need (and_true_of hl (decide_eq_true hd5)) _) (.bind (movePre_ends hx.1 hx.2.1 hx.2.2 ht.1.1 ht.1.2.1 ht.1.2.2 hf)
        (.bind t3 (.bind n1 (.bind n2 (.bind (.need (and_true_of (beq_iff_eq.2 hnd) (beq_iff_eq.2 htd)) _) (.bind hal hq)))))))⟩
    refine .bind hxi (.bind hni ?_)
    simp only [moved, decide_eq_true_eq]
    exact .pure _ _
  · have hadd : (o.variant == 1) = false := by rw [hv]; rfl
    refine State.moves_of (body := bodyScatter) (by simp [opCommands]) hn (by decide) ⟨_, ?_, fun _ _ hq =>
      opFin_ends (.bind (.need (and_true_of hl (decide_eq_true hd5)) _) (.bind x1 (.bind n1 (.bind t1 (.bind t3
        (.bind (by rw [hadd]; exact x2) (.neg (by simp [hadd, hf]) (.bind (by rw [hadd]; exact t2) (.bind n2
          (.bind (.need (and_true_of (beq_iff_eq.2 hnd) (beq_iff_eq.2 hxd)) _) (.bind hal (.neg (by simp [hadd]) hq))))))))))))⟩
    exact .bind hxi (.bind hni (.pure _ _))
theorem scatterAdd_computes : ∀ (f : FlaskId) (stall : Nat) (r : Running) (o : OpD) (x n t : Tensor) (xi ni ti : In) (d l : Nat) (s : State), s.nextOp f.val r o 0x71 →
    o.variant = 1 → o.layoutOk 2 [(0x18, 1)] = true → o.p 0x18 1 = d → d < 5 → s.names f.val r (o.inp 0) x inV →
    s.names f.val r (o.inp 1) n isI32 → s.namesOut f.val r o.out t inV → n.dims = [l, 1, 1, 1, 1] → x.dims = t.dims.set d l →
    s.apart f.val r t [x, n] true → s.reads f.val r x 0 0 xi → s.reads f.val r n 0 0 ni → s.reads f.val r t 0 0 ti →
    s.computes (.scatter f stall) f.val r t 0 (scatterAdd t xi ti (slices ni l (t.dim d)) d l).out
      ((l - (slices ni l (t.dim d)).length) * (xi.t.count / l)) [] stall := by
  intro f stall r o x n t xi ni ti d l s hn hv hl hd hd5 hx hn' ht hnd hxd hal hxi hni hti
  subst hd
  obtain rfl : n.dim 0 = l := dim_of_dims hnd 0
  obtain ⟨x1, x2⟩ := names_ends_at hx
  obtain ⟨n1, n2⟩ := names_ends_at hn'
  obtain ⟨t1, t2, t3⟩ := namesOut_ends ht
  have hadd : (o.variant == 1) = true := by rw [hv]; rfl
  refine State.computes_of (body := bodyScatter) (by simp [opCommands]) hn (by decide) ⟨_, _, ?_, fun _ _ hq =>
    opFin_ends (.bind (.need (and_true_of hl (decide_eq_true hd5)) _) (.bind x1 (.bind n1 (.bind t1 (.bind t3
      (.bind (by rw [hadd]; exact x2) (.neg (by simp [hadd]) (.bind (by rw [hadd]; exact t2) (.bind n2
        (.bind (.need (and_true_of (beq_iff_eq.2 hnd) (beq_iff_eq.2 hxd)) _) (.bind hal (.pos hadd hq))))))))))))⟩
  exact .bind hti (.bind hxi (.bind hni (.pure _ _)))
theorem fill_moves_computes : ∀ (f : FlaskId) (stall : Nat) (r : Running) (o : OpD) (t : Tensor) (v : Nat) (s : State), s.nextOp f.val r o 0xB1 →
    o.layoutOk 2 [(0x18, 1), (0x20, 8)] = true → s.opGives (o.value (s.opUser f.val r) 0x18 0x20) v → s.namesOut f.val r o.out t anyFmt →
    (o.variant = 1 → s.moves (.fill f stall) f.val r t ((Array.range t.count).map (fun _ => some (v % 2 ^ t.bits))) 0 stall) ∧
    (o.variant = 0 → s.computes (.fill f stall) f.val r t 0
      (.vals (Array.replicate t.count (decode32 (v % 2 ^ 32)))) 0 [] stall) := by
  intro f stall r o t v s hn hl hv ht
  obtain ⟨t1, t2, t3⟩ := namesOut_ends ht
  refine ⟨fun h1 => ?_, fun h0 => ?_⟩
  · exact State.moves_of (body := bodyFill) (by simp [opCommands]) hn (by decide) ⟨_, .pure _ _, fun _ _ hq =>
      opFin_ends (.bind (.need hl _) (.bind hv (.bind t1 (.bind t3 (.bind t2 (.neg (by rw [h1]; decide) hq))))))⟩
  · exact State.computes_of (body := bodyFill) (by simp [opCommands]) hn (by decide) ⟨_, _, .pure _ _, fun _ _ hq =>
      opFin_ends (.bind (.need hl _) (.bind hv (.bind t1 (.bind t3 (.bind t2 (.pos h0 hq))))))⟩

/-- Settles O58: the checks of each operation hold by the premises; its codes are then written, computed or moved. -/
theorem learningAndMoves : Obligations.LearningAndMoves := by
  unfold Obligations.LearningAndMoves
  exact ⟨⟨softmaxXent_computes, reduce_computes, topk_computes, boxSuppress_computes, optSgd_computes, optAdam_computes, sgdStep_plain⟩,
    transpose_pad_copy_move, concat_moves, gather_scatter_move, scatterAdd_computes, fill_moves_computes⟩

end Sys2Proof.Machine
end
section
/-! Rules of the Ichado Node Profile's operations: taking a frame, sending one, the registry, Q72 (R921 to R945). -/
namespace Sys2Proof.Machine
open Sys2Proof

/-! ## Nodes -/

theorem State.node_setNode_ne (s : State) (x : Node) {a k : Nat} (h : k ≠ a) : (s.setNode a x).node k = s.node k :=
  Tab.get_set_ne nodeReset s.inp.nodes x h
theorem only_setNode (s : State) (a : Nat) (x : Node) : Only [.inp] s (s.setNode a x) := only_setInp s _
theorem Only.node {l : List StatePart} {s t : State} (h : Only l s t) (hp : .inp ∉ l) (a : Nat) : t.node a = s.node a :=
  congrArg (fun x : Inp => Tab.get nodeReset x.nodes a) (h .inp hp)

/-! ## Taking a frame -/

theorem State.inpHead_inbox {s : State} {func : Nat} {x : InpFrame} (h : s.inpHead func = some x) : s.inp.inbox = x :: s.inp.inbox.tail ∧
    s.isHalted Blk.inp = false ∧ s.frozen = false := by
  unfold State.inpHead at h
  split at h
  · cases h
  · next hc =>
    rw [Bool.or_eq_true, not_or, Bool.not_eq_true, Bool.not_eq_true] at hc
    split at h
    · next y t hl =>
      split at h
      · exact ⟨by rw [← Option.some.inj h, hl]; rfl, hc⟩
      · cases h
    · cases h
theorem State.onInp_eq {s : State} {func : Nat} {x : InpFrame} (h : s.inpHead func = some x) (f : InpFrame → State → State) :
    s.onInp func f = f x s.inpTake := by
  unfold State.onInp
  rw [h]
/-- Taking a frame frees its buffer and drops it from the inbox. -/
theorem State.inpTake_leaves {s : State} {func : Nat} {x : InpFrame} (h : s.inpHead func = some x) : Only [.fbcs, .inp] s s.inpTake ∧
    s.inpTake.inp = { s.inp with inbox := s.inp.inbox.tail } ∧ ∀ k, ∃ rx, s.inpTake.fbc k = { s.fbc k with rx := rx } := by
  obtain ⟨hl, -⟩ := State.inpHead_inbox h
  unfold State.inpTake
  rw [hl]
  dsimp only
  cases x.buf with
  | none => exact ⟨(only_setInp s _).mono (by simp), rfl, fun k => ⟨_, rfl⟩⟩
  | some b =>
    refine ⟨((only_setInp _ _).mono (by simp)).after ((only_setFbc s _ _).mono (by simp)), rfl, fun k => ?_⟩
    by_cases hk : k = x.seg
    · subst hk
      exact ⟨_, State.fbc_setFbc_self s _ _⟩
    · exact ⟨(s.fbc k).rx, State.fbc_setFbc_ne s _ hk⟩
theorem State.node_inpTake {s : State} {func : Nat} {x : InpFrame} (h : s.inpHead func = some x) (a : Nat) : s.inpTake.node a = s.node a := by
  unfold State.node
  rw [(State.inpTake_leaves h).2.1]

/-! ## Sending a frame -/

/-- What a frame sent may change: the dedicated buffers and their requests. -/
abbrev sendParts : List StatePart := [.fbcs, .regs 22, .regs 23, .regs 24, .regs 25]
theorem regs_mem_sendParts {k : Nat} (h : k < 4) : StatePart.regs (22 + k) ∈ sendParts := by
  have hall : ∀ k : Fin 4, StatePart.regs (22 + k.val) ∈ sendParts := by decide
  exact hall ⟨k, h⟩
theorem only_setMsgBuf_at (s : State) (k : Nat) {b : Nat} (hb : b < 8) (f : CanFrame) (ts : Nat) : Only [.regs (22 + k)] s (s.setMsgBuf k b f ts) := by
  rw [State.setMsgBuf_eq]
  exact (only_putWords _ _ _ _ (by omega)).after ((only_setPair _ _ (by omega) _).after ((only_setReg _ _ (by omega) _).after
    (only_setReg s _ (by omega) _)))
/-- The ID word of a buffer that has been written. -/
theorem State.reg_setMsgBuf (s : State) (k : Nat) {b : Nat} (hb : b < 8) (f : CanFrame) (ts : Nat) :
    (s.setMsgBuf k b f ts).reg (fbcBlk k) (0x1000 + 0x50 * b) = f.idw := by
  rw [State.setMsgBuf_eq, State.reg_putWords_of_lt _ _ _ _ (by omega) (by omega)]
  unfold State.setPair
  rw [State.reg_setReg_ne, State.reg_setReg_ne, State.reg_setReg_ne, State.reg_setReg_self]
  all_goals
    rw [Ne, regKey_inj (by omega) (by omega)]
    omega
theorem only_sendInp (s : State) {k b : Nat} (hk : k < 4) (hb : b < 8) (f : CanFrame) : Only sendParts s (s.sendInp k b f) := by
  refine Only.ite (fun _ => Only.refl _ s) fun _ => ?_
  exact ((only_setFbc _ _ _).mono (by simp)).after ((only_setMsgBuf_at s k hb f 0).mono (by simpa using regs_mem_sendParts hk))
theorem State.reg_setFbc (s : State) (k : Nat) (x : Fbc) (b o : Nat) : (s.setFbc k x).reg b o = s.reg b o := rfl
/-- A frame sent on a segment that the engine manages stands in its buffer and is requested. -/
theorem State.sendInp_leaves {s : State} {k b : Nat} (hb : b < 8) (f : CanFrame) (hm : s.manages k = true) (hst : (s.fbc k).st ≠ .off)
    (hh : s.isHalted Blk.inp = false) (hf : s.frozen = false) : ((s.sendInp k b f).fbc k).txReq = (s.fbc k).txReq ||| BitVec.ofNat 8 (2 ^ b) ∧
    (s.sendInp k b f).reg (fbcBlk k) (0x1000 + 0x50 * b) = f.idw := by
  have hc : (!s.manages k || (s.fbc k).st == .off || s.isHalted Blk.inp || s.frozen) = false := by
    rw [hm, hh, hf, beq_eq_false_iff_ne.2 hst]
    rfl
  unfold State.sendInp
  rw [hc, if_neg Bool.false_ne_true]
  dsimp only
  rw [State.fbc_setFbc_self, (only_setMsgBuf_at s k hb f 0).fbc (by simp) k]
  exact ⟨rfl, (State.reg_setFbc _ _ _ _ _).trans (s.reg_setMsgBuf k hb f 0)⟩
/-- Whether the engine manages a segment depends on the controller's configuration. -/
theorem State.manages_congr {s t : State} {k : Nat} (hc : (t.fbc k).configured = (s.fbc k).configured)
    (hr : ∀ o, o < 0x10000 → t.reg (fbcBlk k) o = s.reg (fbcBlk k) o) : t.manages k = s.manages k := by
  unfold State.manages State.runsInp State.fbcFlag State.fbcCfg
  rw [hc, hr _ (by omega)]
/-- ID word of a management frame: its function stands at bits 16 to 23. -/
theorem mgmtFrame_func (s : State) {cls func dst : Nat} (data : List Byte) (hf : func < 256) (hs : s.bus.chipId < 4) (hd : dst < 256) :
    fld (s.mgmtFrame cls func dst data).idw 16 8 = func := by
  unfold State.mgmtFrame at_ fld
  rw [BitVec.toNat_ofNat, Nat.pow_zero, Nat.mul_one]
  omega

/-! ## Q72 -/

theorem State.q72_off {s : State} (h : s.qEn 72 = false) (kind addr seg chip flags uid : Nat) (load : List Byte) :
    s.q72 kind addr seg chip flags uid load = s.bump Blk.inp 8 := by
  unfold State.q72
  rw [h]
  rfl
theorem State.qEn_congr {s t : State} {q : Nat} (hq : q < 128) (h : ∀ o, o < 0x10000 → t.reg Blk.que o = s.reg Blk.que o) : t.qEn q = s.qEn q := by
  unfold State.qEn State.qcfg
  rw [h _ (by omega)]

end Sys2Proof.Machine
end
section
/-! Sounding and the node registry (R929, R941, R943, R944). -/
namespace Sys2Proof.Machine
open Sys2Proof

/-! ## Sounding -/

/-- A change of the profile's own state. -/
theorem inp_yields {i : Instr} {s : State} {x : Inp} {P : State → Prop} (h : exec i s = done s { s with inp := x })
    (hp : ∀ t, t.inp = x → Frame [.inp] s t → P t) : Yields i s P :=
  yields_done h (hp _ (finish_inp _ _) (only_setInp s x).frame_finish)
/-- The same with an answer. -/
theorem inpReply_yields {i : Instr} {s : State} {x : Inp} {m : Nat} {r : Resp} {P : State → Prop}
    (h : exec i s = done s (({ s with inp := x } : State).reply m r)) (hp : ∀ t, t.inp = x → t.answers m r → Frame [.fmn, .inp] s t → P t) :
    Yields i s P :=
  yields_done h (hp _ (finish_inp _ _) (finish_answers _ _ _ _)
    (((only_reply _ m r).mono (by simp)).after ((only_setInp s x).mono (by simp))).frame_finish)
/-- An answer alone. -/
theorem reply_yields {i : Instr} {s : State} {m : Nat} {r : Resp} (h : exec i s = done s (s.reply m r)) :
    Yields i s (fun t => t.answers m r ∧ t.inp = s.inp ∧ Frame [.fmn] s t) :=
  yields_done h ⟨finish_answers _ _ _ _, finish_inp _ _, (only_reply s m r).frame_finish⟩

theorem inpSounding_yields : ∀ (m : MbId) (s : State), s.asks m.val 0x0712 4 [(0x10, 1, true), (0x12, 2, 16 ≤ s.rq m.val 0x12 2 && s.rq m.val 0x12 2 ≤ 256)] →
    (s.node (s.rq m.val 0x10 1)).st = 3 → (s.node (s.rq m.val 0x10 1)).host = s.bus.chipId → (s.node (s.rq m.val 0x10 1)).turnRes ≠ 0 →
    s.inp.sounding = none → Yields (.inpSounding m) s (fun t => (t.mb m.val).waiting = true ∧
      t.inp.sounding = some { mb := m.val, addr := s.rq m.val 0x10 1, n := s.rq m.val 0x12 2 } ∧ Frame [.fmn, .inp] s t) := by
  intro m s hask hst hhost hturn hnone
  have hexec : exec (.inpSounding m) s = done s
      (({ s with inp.sounding := some { mb := m.val, addr := s.rq m.val 0x10 1, n := s.rq m.val 0x12 2 } } : State).await m.val) :=
    congrArg (done s) ((State.request_asks _ hask).trans ((if_neg (by simp [hst, hhost])).trans ((if_neg hturn).trans (if_neg (by simp [hnone])))))
  refine yields_done hexec ⟨?_, ?_, ?_⟩
  · rw [finish_mb]
    exact congrArg Mailbox.waiting (Tab.get_set_self mbReset s.fmn.mbs m.val _)
  · rw [finish_inp]; rfl
  · exact (((only_setMb _ _ _).mono (by simp)).after ((only_setInp s _).mono (by simp))).frame_finish
theorem soundingExchange_yields : ∀ (x : Sounding) (s : State), s.inp.sounding = some x → x.out = false → x.k = 0 → s.isHalted Blk.inp = false → s.frozen = false →
    s.quenchClear → (s.node x.addr).seg < 4 → s.manages (s.node x.addr).seg = true → (s.fbc (s.node x.addr).seg).st ≠ .off → Yields .soundingExchange s (fun t =>
      t.inp.sounding = some { x with
        seq := (x.seq + 1) % 256, out := true, failed := false, ta := none, tb := 0, td := none, sentAt := s.clk.now } ∧
      (t.fbc (s.node x.addr).seg).txReq = (s.fbc (s.node x.addr).seg).txReq ||| 64 ∧ Frame [.inp] s t) := by
  intro x s hx hout hk0 hh hf hc hseg hm hst
  have hexec : exec .soundingExchange s = done s (({ s with inp.sounding := some { x with
      seq := (x.seq + 1) % 256, out := true, failed := false, ta := none, tb := 0, td := none, sentAt := s.clk.now } } : State).sendInp
        (s.node x.addr).seg 6 (s.mgmtFrame 4 0x50 x.addr (leBytes 1 ((x.seq + 1) % 256)))) := by
    show execSoundingExchange s = _
    unfold execSoundingExchange
    rw [hx]
    dsimp only
    rw [if_neg (by simp [hh, hf, hout, hk0]), if_neg (by simp [hout]), hout]
    rfl
  obtain ⟨u, hu⟩ : ∃ u, u = ({ s with inp.sounding := some { x with
      seq := (x.seq + 1) % 256, out := true, failed := false, ta := none, tb := 0, td := none, sentAt := s.clk.now } } : State) := ⟨_, rfl⟩
  rw [← hu] at hexec
  have hou : Only [.inp] s u := by rw [hu]; exact only_setInp s _
  have hsend := only_sendInp u hseg (b := 6) (by omega) (s.mgmtFrame 4 0x50 x.addr (leBytes 1 ((x.seq + 1) % 256)))
  obtain ⟨h1, -⟩ := State.sendInp_leaves (s := u) (k := (s.node x.addr).seg) (b := 6) (by omega) (s.mgmtFrame 4 0x50 x.addr (leBytes 1 ((x.seq + 1) % 256)))
    (by rw [hu]; exact hm) (by rw [hu]; exact hst) (by rw [hu]; exact hh) (by rw [hu]; exact hf)
  refine yields_clear hexec (hsend.quenchClear (hou.quenchClear hc (by simp) (by simp) (by simp)) (by simp) (by simp) (by simp)) fun t ht => ⟨?_, ?_, ?_⟩
  · rw [ht .inp (by simp), hsend .inp (by simp), hu]
  · rw [ht.fbc (by simp), h1, hu]; rfl
  · exact Only.frame_trip (l' := [.inp] ++ tripParts) ((ht.mono (by simp)).after ((hsend.mono (by decide)).after (hou.mono (by simp)))) (by simp)
theorem soundingExchange_timeout : ∀ (x : Sounding) (s : State), s.inp.sounding = some x → x.out = true → x.failed = true → x.sentAt + 1000000 ≤ s.clk.now →
    s.isHalted Blk.inp = false → s.frozen = false → Yields .soundingExchange s (fun t => t.refuses x.mb rTimeout 0 ∧
      t.inp.sounding = none ∧ Frame [.fmn, .inp] s t) := by
  intro x s hx hout hfail hdue hh hf
  have hexec : exec .soundingExchange s = done s (({ s with inp.sounding := none } : State).refuse x.mb rTimeout 0) := by
    show execSoundingExchange s = _
    unfold execSoundingExchange
    rw [hx]
    dsimp only
    have hlate : (x.out && decide (x.sentAt + 10 * tbMs ≤ s.clk.now)) = true := by
      have h10 : 10 * tbMs = 1000000 := by decide
      rw [hout, h10, Bool.true_and, decide_eq_true_iff]
      exact hdue
    have hlt : ¬s.clk.now < x.sentAt + 5 * tbMs := by
      have : 5 * tbMs ≤ 1000000 := by decide
      omega
    rw [hlate, if_neg (by simp [hh, hf, hlt]), if_pos (by rw [hfail]; rfl)]
  exact inpReply_yields hexec fun t hi ha hfr => ⟨⟨_, ha, rfl, rfl⟩, by rw [hi], hfr⟩
theorem echoReceived_yields : ∀ (f : InpFrame) (x : Sounding) (s : State), s.inpHead 0x51 = some f → s.inp.sounding = some x → x.out = true → f.src = x.addr →
    bytesAt f.frame.data 0 1 = x.seq → s.fromNode f = true → Yields .echoReceived s (fun t =>
      t.inp.sounding = some { x with td := some (f.ts * 40 + f.fine) } ∧ t.inp.inbox = s.inp.inbox.tail ∧ Frame [.inp] s t) := by
  intro f x s hhead hx hout hsrc hseq hfrom
  obtain ⟨ho, hinp, -⟩ := State.inpTake_leaves hhead
  have hfrom' : s.inpTake.fromNode f = true := by
    unfold State.fromNode
    rw [State.node_inpTake hhead]
    exact hfrom
  have hexec : exec .echoReceived s = done s { s.inpTake with inp.sounding := some { x with td := some (f.ts * 40 + f.fine) } } := by
    refine congrArg (done s) ((State.onInp_eq hhead _).trans ?_)
    rw [show s.inpTake.inp.sounding = some x by rw [hinp]; exact hx]
    exact if_pos (by rw [hout, hsrc, hseq, hfrom']; simp)
  refine yields_done hexec ⟨?_, ?_, ?_⟩
  · rw [finish_inp]
  · rw [finish_inp]
    exact congrArg Inp.inbox hinp
  · exact frame_finish (Only.frame_trip (l' := [.inp] ++ tripParts) (((only_setInp _ _).mono (by decide)).after (ho.mono (by decide))) (by simp))
section
variable {f : InpFrame} {x : Sounding} {ta td : Nat} {s : State}
/-- The exchange after an ECHO_INFO, its times added. -/
def Sounding.completed (x : Sounding) (ta td turn : Nat) : Sounding :=
  { x with
    k := x.k + 1, out := false, failed := false, ta := none, td := none
    sumLoop := x.sumLoop + ((x.tb : Int) - ta), sumTrip := x.sumTrip + ((td : Int) - ta), sumTurn := x.sumTurn + turn }
theorem exec_echoInfoReceived (hhead : s.inpHead 0x52 = some f) (hx : s.inp.sounding = some x) (hout : x.out = true) (hsrc : f.src = x.addr)
    (hseq : bytesAt f.frame.data 0 1 = x.seq) (hfrom : s.fromNode f = true) (hta : x.ta = some ta) (htd : x.td = some td) :
    exec .echoInfoReceived s = done s (if x.k + 1 = x.n then s.inpTake.soundingEnd (x.completed ta td (bytesAt f.frame.data 4 4))
      else { s.inpTake with inp.sounding := some (x.completed ta td (bytesAt f.frame.data 4 4)) }) := by
  obtain ⟨-, hinp, -⟩ := State.inpTake_leaves hhead
  have hfrom' : s.inpTake.fromNode f = true := by
    unfold State.fromNode
    rw [State.node_inpTake hhead]
    exact hfrom
  refine congrArg (done s) ((State.onInp_eq hhead _).trans ?_)
  rw [show s.inpTake.inp.sounding = some x by rw [hinp]; exact hx]
  dsimp only
  rw [hta, htd]
  exact if_pos (by rw [hout, hsrc, hseq, hfrom']; simp)
end
theorem echoInfoReceived_yields : ∀ (f : InpFrame) (x : Sounding) (ta td : Nat) (s : State), s.inpHead 0x52 = some f → s.inp.sounding = some x → x.out = true → f.src = x.addr →
    bytesAt f.frame.data 0 1 = x.seq → s.fromNode f = true → x.ta = some ta → x.td = some td → x.k + 1 ≠ x.n →
    Yields .echoInfoReceived s (fun t => (∃ y, t.inp.sounding = some y ∧ y.k = x.k + 1 ∧ y.out = false ∧
      y.sumTrip = x.sumTrip + ((td : Int) - ta) ∧ y.sumLoop = x.sumLoop + ((x.tb : Int) - ta) ∧
      y.sumTurn = x.sumTurn + bytesAt f.frame.data 4 4) ∧ t.fmn = s.fmn ∧ Frame [.inp] s t) := by
  intro f x ta td s hhead hx hout hsrc hseq hfrom hta htd hk
  obtain ⟨ho, -, -⟩ := State.inpTake_leaves hhead
  have hexec := (exec_echoInfoReceived hhead hx hout hsrc hseq hfrom hta htd).trans (congrArg (done s) (if_neg hk))
  refine yields_done hexec ⟨⟨_, by rw [finish_inp], rfl, rfl, rfl, rfl, rfl⟩, ?_, ?_⟩
  · rw [finish_fmn]
    exact ho.fmn (by simp)
  · exact frame_finish (Only.frame_trip (l' := [.inp] ++ tripParts) (((only_setInp _ _).mono (by decide)).after (ho.mono (by decide))) (by simp))
theorem echoInfoReceived_last : ∀ (f : InpFrame) (x : Sounding) (ta td : Nat) (s : State), s.inpHead 0x52 = some f → s.inp.sounding = some x → x.out = true → f.src = x.addr →
    bytesAt f.frame.data 0 1 = x.seq → s.fromNode f = true → x.ta = some ta → x.td = some td → x.k + 1 = x.n →
    (s.node x.addr).seg < 4 →
    Yields .echoInfoReceived s (fun t => t.inp.sounding = none ∧ (∃ p, t.doneWith x.mb p ∧ p.length = 16) ∧
      (t.node x.addr).cable = nearest (5 * ((x.sumTrip + ((td : Int) - ta)) - (x.sumLoop + ((x.tb : Int) - ta)) -
        (x.sumTurn + bytesAt f.frame.data 4 4) - x.n * (s.node x.addr).trxLoop)) (2 * x.n) ∧ Frame [.inp, .fmn] s t) := by
  intro f x ta td s hhead hx hout hsrc hseq hfrom hta htd hk hseg
  obtain ⟨ho, -, -⟩ := State.inpTake_leaves hhead
  have hnode := State.node_inpTake hhead x.addr
  have hexec := (exec_echoInfoReceived hhead hx hout hsrc hseq hfrom hta htd).trans (congrArg (done s) (if_pos hk))
  generalize s.inpTake = v at *
  generalize hz : x.completed ta td (bytesAt f.frame.data 4 4) = z at hexec
  have hza : z.addr = x.addr := by rw [← hz]; rfl
  obtain ⟨c, hc⟩ : ∃ c, c = nearest (5 * (z.sumTrip - z.sumLoop - z.sumTurn - (z.n : Int) * (s.node x.addr).trxLoop)) (2 * (z.n : Int)) := ⟨_, rfl⟩
  obtain ⟨u, hu⟩ : ∃ u, u = ({ v with inp.sounding := none } : State).setNode x.addr { s.node x.addr with cable := c } := ⟨_, rfl⟩
  have hend : ∃ fr p, v.soundingEnd z = (u.sendInp (s.node x.addr).seg 6 fr).replyDone x.mb p ∧ p.length = 16 := by
    unfold State.soundingEnd
    dsimp only
    rw [hza, hnode, ← hc, ← hu, show z.mb = x.mb by rw [← hz]; rfl]
    exact ⟨_, _, rfl, by simp [leBytes_length]⟩
  obtain ⟨fr, p, he, hp⟩ := hend
  rw [he] at hexec
  have hou : Only [.fbcs, .inp] s u := by
    rw [hu]
    exact ((only_setNode _ _ _).mono (by simp)).after (((only_setInp v _).mono (by simp)).after ho)
  have hsend := only_sendInp u hseg (b := 6) (by omega) fr
  refine yields_done hexec ⟨?_, ⟨p, finish_answers _ _ _ _, hp⟩, ?_, ?_⟩
  · rw [finish_inp]
    show (u.sendInp (s.node x.addr).seg 6 fr).inp.sounding = none
    rw [hsend .inp (by simp), hu]
    rfl
  · rw [finish_node]
    show ((u.sendInp (s.node x.addr).seg 6 fr).node x.addr).cable = _
    rw [hsend.node (by simp), hu, State.node_setNode_self]
    show c = _
    rw [hc, ← hz]
    rfl
  · exact frame_finish (Only.frame_trip (l' := [.inp, .fmn] ++ tripParts) (((only_reply _ _ _).mono (by decide)).after
      ((hsend.mono (by decide)).after (hou.mono (by decide)))) (by simp))
theorem nearest_bounds : ∀ a b : Int, 0 < b → 2 * a - b < 2 * b * nearest a b ∧ 2 * b * nearest a b ≤ 2 * a + b := by
  intro a b hb
  have hn : nearest a b = (2 * a + b) / (2 * b) := Int.fdiv_eq_ediv_of_nonneg _ (by omega)
  have h1 := Int.mul_ediv_add_emod (2 * a + b) (2 * b)
  have h2 := Int.emod_nonneg (2 * a + b) (b := 2 * b) (by omega)
  have h3 := Int.emod_lt_of_pos (2 * a + b) (b := 2 * b) (by omega)
  rw [hn]
  omega

/-! ## The registry -/

/-- An action below 5 passes the check of its field. -/
theorem action_lt {s : State} {m act : Nat} (h : s.rq m 0x10 1 = act) (hlt : act < 5) : decide (s.rq m 0x10 1 < 5) = true :=
  decide_eq_true (h.trans_lt hlt)
theorem only_setPolicy (s : State) (m : Nat) : Only [.inp, .regs Blk.que] s (s.setPolicy m) := by
  unfold State.setPolicy
  dsimp only
  refine ((only_setInp _ _).mono (by simp)).after (Only.ite (fun _ => ?_) fun _ => Only.refl _ s)
  exact (((only_setFld _ Blk.que (by omega) 7 1 _).after ((only_setFld _ Blk.que (by omega) 16 5 _).after
    (only_setFld s Blk.que (by omega) 21 1 _))).mono (by simp))
theorem inpRegistry_policy : ∀ (m : MbId) (s : State), (
      let q := fun o n => s.rq m.val o n
      let rng := fun v lo hi => decide (lo ≤ v ∧ v ≤ hi)
      q 0x10 1 = 0 ∧ s.asks m.val 0x0711 0x0E [(0x10, 1, decide (q 0x10 1 < 5)), (0x11, 1, q 0x11 1 == 0xFF || s.ctxOpen (q 0x11 1)),
        (0x12, 1, 4 ≤ q 0x12 1), (0x13, 1, rng (q 0x13 1) 2 8), (0x14, 2, rng (q 0x14 2) 10 1000), (0x16, 1, rng (q 0x16 1) 10 100),
        (0x18, 2, q 0x18 2 ≤ 3600), (0x1A, 2, q 0x1A 2 == 0 || rng (q 0x1A 2) 10 6000), (0x1C, 2, rng (q 0x1C 2) 10 1000)]) →
    Yields (.inpRegistry m) s (fun t => t.doneWith m.val [] ∧ t.inp = { s.inp with
        owner := s.rq m.val 0x11 1, autoBase := s.rq m.val 0x12 1, hbMiss := s.rq m.val 0x13 1, hbPeriod := s.rq m.val 0x14 2
        leadHb := s.rq m.val 0x16 1, linger := s.rq m.val 0x18 2, loadPeriod := s.rq m.val 0x1A 2, timePeriod := s.rq m.val 0x1C 2 } ∧
      Frame [.fmn, .inp, .regs 6] s t) := by
  intro m s ⟨h0, hask⟩
  have hexec : exec (.inpRegistry m) s = done s ((s.setPolicy m.val).replyDone m.val) := by
    show execInpRegistry m s = _
    unfold execInpRegistry
    dsimp only at hask ⊢
    beta_reduce at h0 ⊢
    rw [action_lt h0 (by decide)] at hask ⊢
    rw [h0]
    exact congrArg (done s) (State.request_asks _ hask)
  have hinp : (s.setPolicy m.val).inp = { s.inp with
      owner := s.rq m.val 0x11 1, autoBase := s.rq m.val 0x12 1, hbMiss := s.rq m.val 0x13 1, hbPeriod := s.rq m.val 0x14 2
      leadHb := s.rq m.val 0x16 1, linger := s.rq m.val 0x18 2, loadPeriod := s.rq m.val 0x1A 2, timePeriod := s.rq m.val 0x1C 2 } := by
    unfold State.setPolicy
    dsimp only
    split <;> rfl
  refine yields_done hexec ⟨finish_answers _ _ _ _, ?_, ?_⟩
  · rw [finish_inp]
    exact hinp
  · exact (((only_reply _ _ _).mono (by simp)).after ((only_setPolicy s m.val).mono (by simp [Blk.que]))).frame_finish
/-- Whether an address other than a holds a binding with this property. -/
theorem bound_elsewhere {s : State} {a : Nat} {p : Binding → Bool} : ((List.range 256).any (fun i => i != a &&
      (match (s.node i).binding with | some v => p v | none => false))) = true ↔ ∃ i v, i < 256 ∧ i ≠ a ∧ (s.node i).binding = some v ∧ p v = true := by
  rw [List.any_eq_true]
  constructor
  · rintro ⟨i, hi, h⟩
    obtain ⟨h1, h2⟩ := Bool.and_eq_true_iff.1 h
    cases hb : (s.node i).binding with
    | none => rw [hb] at h2; cases h2
    | some v => rw [hb] at h2; exact ⟨i, v, List.mem_range.1 hi, bne_iff_ne.1 h1, hb, h2⟩
  · rintro ⟨i, v, hi, hne, hb, hv⟩
    exact ⟨i, List.mem_range.2 hi, Bool.and_eq_true_iff.2 ⟨bne_iff_ne.2 hne, by rw [hb]; exact hv⟩⟩
theorem inpRegistry_bind : ∀ (m : MbId) (a : Nat) (s : State), (
      let q := fun o n => s.rq m.val o n
      let rng := fun v lo hi => decide (lo ≤ v ∧ v ≤ hi)
      q 0x10 1 = 1 ∧ q 0x11 1 = a ∧ s.asks m.val 0x0711 0x10 [(0x10, 1, decide (q 0x10 1 < 5)), (0x11, 1, 4 ≤ q 0x11 1),
        (0x12, 1, q 0x12 1 == 0xFF || rng (q 0x12 1) 8 0x1F), (0x13, 1, q 0x13 1 == 0 || rng (q 0x13 1) 2 8),
        (0x14, 2, q 0x14 2 == 0 || rng (q 0x14 2) 10 1000), (0x18, 8, true)]) → (s.node a).st = 0 →
    ((∀ i v, i < 256 → i ≠ a → (s.node i).binding = some v → v.uid ≠ s.rq m.val 0x18 8 ∧
        (s.rq m.val 0x12 1 ≠ 0xFF → v.safetyCh ≠ s.rq m.val 0x12 1)) →
      Yields (.inpRegistry m) s (fun t => t.doneWith m.val [] ∧ (t.node a).st = 1 ∧ (t.node a).uid = s.rq m.val 0x18 8 ∧
        (t.node a).binding = some
          { uid := s.rq m.val 0x18 8, safetyCh := s.rq m.val 0x12 1, hbMiss := s.rq m.val 0x13 1, hbPeriod := s.rq m.val 0x14 2 } ∧
        (∀ k, k ≠ a → t.node k = s.node k) ∧ Frame [.fmn, .inp] s t)) ∧
    (s.rq m.val 0x12 1 ≠ 0xFF → (∃ i v, i < 256 ∧ i ≠ a ∧ (s.node i).binding = some v ∧ v.safetyCh = s.rq m.val 0x12 1) →
      Yields (.inpRegistry m) s (fun t => t.refuses m.val rStateConflict 2 ∧ t.inp = s.inp ∧ Frame [.fmn] s t)) := by
  intro m a s ⟨h1, ha, hask⟩ hfree
  subst ha
  have hexec : exec (.inpRegistry m) s = done s (s.bindNode m.val (s.rq m.val 0x11 1)
      { uid := s.rq m.val 0x18 8, safetyCh := s.rq m.val 0x12 1, hbMiss := s.rq m.val 0x13 1, hbPeriod := s.rq m.val 0x14 2 }) := by
    show execInpRegistry m s = _
    unfold execInpRegistry
    dsimp only at hask ⊢
    beta_reduce at h1 ⊢
    rw [action_lt h1 (by decide)] at hask ⊢
    rw [h1]
    exact congrArg (done s) (State.request_asks _ hask)
  refine ⟨fun hnone => ?_, fun hch hbound => ?_⟩
  · have hbind : s.bindNode m.val (s.rq m.val 0x11 1)
        { uid := s.rq m.val 0x18 8, safetyCh := s.rq m.val 0x12 1, hbMiss := s.rq m.val 0x13 1, hbPeriod := s.rq m.val 0x14 2 } =
        (s.setNode (s.rq m.val 0x11 1) (vacant (some
          { uid := s.rq m.val 0x18 8, safetyCh := s.rq m.val 0x12 1, hbMiss := s.rq m.val 0x13 1, hbPeriod := s.rq m.val 0x14 2 }))).replyDone m.val := by
      refine (if_neg (by simp [hfree])).trans ((if_neg ?_).trans ((if_neg ?_).trans (if_pos (by rw [hfree]; decide))))
      · intro h
        obtain ⟨hc, h⟩ := Bool.and_eq_true_iff.1 h
        obtain ⟨i, v, hi, hne, hb, hv⟩ := bound_elsewhere.1 h
        exact (hnone i v hi hne hb).2 (bne_iff_ne.1 hc) (beq_iff_eq.1 hv)
      · intro h
        obtain ⟨i, v, hi, hne, hb, hv⟩ := bound_elsewhere.1 h
        exact (hnone i v hi hne hb).1 (beq_iff_eq.1 hv)
    rw [hbind] at hexec
    refine inpReply_yields hexec fun t hi ha hfr => ?_
    have hnode : ∀ k, t.node k = (s.setNode (s.rq m.val 0x11 1) (vacant (some
        { uid := s.rq m.val 0x18 8, safetyCh := s.rq m.val 0x12 1, hbMiss := s.rq m.val 0x13 1, hbPeriod := s.rq m.val 0x14 2 }))).node k :=
      fun k => congrArg (fun x : Inp => Tab.get nodeReset x.nodes k) hi
    exact ⟨ha, by rw [hnode, State.node_setNode_self]; rfl, by rw [hnode, State.node_setNode_self]; rfl, by rw [hnode, State.node_setNode_self]; rfl,
      fun k hk => (hnode k).trans (State.node_setNode_ne s _ hk), hfr⟩
  · have hbind : s.bindNode m.val (s.rq m.val 0x11 1)
        { uid := s.rq m.val 0x18 8, safetyCh := s.rq m.val 0x12 1, hbMiss := s.rq m.val 0x13 1, hbPeriod := s.rq m.val 0x14 2 } =
        s.refuse m.val rStateConflict 2 := by
      obtain ⟨i, v, hi, hne, hb, hv⟩ := hbound
      exact (if_neg (by simp [hfree])).trans (if_pos (Bool.and_eq_true_iff.2 ⟨bne_iff_ne.2 hch,
        bound_elsewhere (p := fun v => v.safetyCh == s.rq m.val 0x12 1) |>.2 ⟨i, v, hi, hne, hb, beq_iff_eq.2 hv⟩⟩))
    rw [hbind] at hexec
    obtain ⟨t, ht, h1, h2, h3⟩ := reply_yields hexec
    exact ⟨t, ht, ⟨_, h1, rfl, rfl⟩, h2, h3⟩
theorem inpRegistry_unbind : ∀ (m : MbId) (s : State), s.rq m.val 0x10 1 = 2 → s.asks m.val 0x0711 2 [(0x10, 1, true), (0x11, 1, 4 ≤ s.rq m.val 0x11 1)] →
    (s.node (s.rq m.val 0x11 1)).st = 1 → (s.node (s.rq m.val 0x11 1)).binding.isSome = true → Yields (.inpRegistry m) s (fun t =>
      t.doneWith m.val [] ∧ t.node (s.rq m.val 0x11 1) = {} ∧ Frame [.fmn, .inp] s t) := by
  intro m s h2 hask hst hb
  have hexec : exec (.inpRegistry m) s = done s ((s.setNode (s.rq m.val 0x11 1) {}).replyDone m.val) := by
    show execInpRegistry m s = _
    unfold execInpRegistry
    dsimp only
    beta_reduce
    rw [action_lt h2 (by decide), h2]
    refine congrArg (done s) ((State.request_asks _ hask).trans ((if_neg (by rw [Option.isNone_eq_false_iff.2 hb]; exact Bool.false_ne_true)).trans ?_))
    rw [if_pos hst]
  refine inpReply_yields hexec fun t hi ha hfr => ⟨ha, ?_, hfr⟩
  exact (congrArg (fun x : Inp => Tab.get nodeReset x.nodes (s.rq m.val 0x11 1)) hi).trans (State.node_setNode_self s _ _)
theorem inpRegistry_read : ∀ (m : MbId) (s : State), s.rq m.val 0x10 1 = 3 → s.asks m.val 0x0711 2 [(0x10, 1, true), (0x11, 1, true)] →
    Yields (.inpRegistry m) s (fun t => t.doneWith m.val (s.readNode (s.rq m.val 0x11 1)) ∧ t.inp = s.inp ∧ Frame [.fmn] s t) := by
  intro m s h3 hask
  refine reply_yields ?_
  show execInpRegistry m s = _
  unfold execInpRegistry
  dsimp only
  beta_reduce
  rw [action_lt h3 (by decide), h3]
  exact congrArg (done s) (State.request_asks _ hask)
theorem inpRegistry_release : ∀ (m : MbId) (s : State), s.rq m.val 0x10 1 = 4 → s.asks m.val 0x0711 2 [(0x10, 1, true), (0x11, 1, 4 ≤ s.rq m.val 0x11 1)] →
    (s.node (s.rq m.val 0x11 1)).st = 3 → (s.node (s.rq m.val 0x11 1)).host = s.bus.chipId →
    (s.node (s.rq m.val 0x11 1)).seg < 4 → s.qEn 72 = false →
    Yields (.inpRegistry m) s (fun t => t.doneWith m.val [] ∧ t.node (s.rq m.val 0x11 1) = vacant (s.node (s.rq m.val 0x11 1)).binding ∧
      t.evc Blk.inp 8 = s.evc Blk.inp 8 + 1 ∧ Frame [.fmn, .inp, .regs 26] s t) := by
  intro m s h4 hask hst hhost hseg hq
  obtain ⟨a, ha⟩ : ∃ a, a = s.rq m.val 0x11 1 := ⟨_, rfl⟩
  have hexec : exec (.inpRegistry m) s = done s (s.releaseNode m.val a) := by
    rw [ha]
    show execInpRegistry m s = _
    unfold execInpRegistry
    dsimp only
    beta_reduce
    rw [action_lt h4 (by decide), h4]
    exact congrArg (done s) (State.request_asks _ hask)
  rw [← ha] at hst hhost hseg ⊢
  obtain ⟨u, hu⟩ : ∃ u, u = s.sendInp (s.node a).seg 4 (s.mgmtFrame 3 0x03 a (leBytes 8 (s.node a).uid)) := ⟨_, rfl⟩
  have hou : Only sendParts s u := by rw [hu]; exact only_sendInp s hseg (by omega) _
  have hov : Only (.inp :: sendParts) s (u.setNode a (vacant (s.node a).binding)) :=
    ((only_setNode u a _).mono (by simp)).after (hou.mono (by simp))
  have hrun : s.releaseNode m.val a = ((u.setNode a (vacant (s.node a).binding)).bump Blk.inp 8).replyDone m.val := by
    unfold State.releaseNode
    dsimp only
    rw [if_neg (by omega), if_neg (by omega), State.q72_off, hu]
    · unfold State.sendOn
      rw [if_pos hhost]
    · unfold State.sendOn
      rw [if_pos hhost, ← hu, ← hq]
      exact State.qEn_congr (by omega) fun o ho => hov.reg (b := Blk.que) (by decide) ho
  rw [hrun] at hexec
  generalize hv : u.setNode a (vacant (s.node a).binding) = v at hexec hov
  refine yields_done hexec ⟨finish_answers _ _ _ _, ?_, ?_, ?_⟩
  · rw [finish_node, ← hv]
    exact State.node_setNode_self u a _
  · rw [finish_evc s _ (b := Blk.inp) (j := 8) (by decide) (by decide)]
    exact (State.evc_bump_self v _ _).trans (by rw [hov.evc (b := Blk.inp) (j := 8) (by decide) (by decide)])
  · exact frame_finish (Only.frame_trip (l' := [.fmn, .inp, .regs 26] ++ tripParts) (((only_reply _ _ _).mono (by simp)).after
      (((only_bump v Blk.inp (j := 8) (by decide)).mono (by decide)).after (hov.mono (by decide)))) (by simp))

/-- Settles O51: one case of the engine's tables for each clause. -/
theorem soundingAndRegistry : Obligations.SoundingAndRegistry := by
  unfold Obligations.SoundingAndRegistry
  exact ⟨⟨inpSounding_yields, soundingExchange_yields, soundingExchange_timeout, echoReceived_yields, echoInfoReceived_yields,
    echoInfoReceived_last, nearest_bounds⟩, inpRegistry_policy, inpRegistry_bind, inpRegistry_unbind, inpRegistry_read, inpRegistry_release⟩

end Sys2Proof.Machine
end
section
/-! Discovery and supervision of nodes, and the frames on timers (R929 to R950). -/
namespace Sys2Proof.Machine
open Sys2Proof

/-! ## Reading back what has just been stored -/

section
variable {l : List Byte} {r t : Tab Byte} {n a : Nat}
theorem head_listed (hr : ∀ e, r.head? = some e → a + l.length ≤ e.1) {e : Nat × Byte} (h : (Tab.listed zeroByte a l ++ r).head? = some e) : a ≤ e.1 := by
  cases hm : Tab.listed zeroByte a l with
  | nil =>
    rw [hm] at h
    have := hr e h
    omega
  | cons x u =>
    rw [hm] at h
    have hmem : e ∈ Tab.listed zeroByte a l := by rw [hm, ← Option.some.inj h]; exact List.mem_cons_self
    exact (Tab.mem_listed hmem).1
/-- Values listed from address a on are read from there, whatever follows them. -/
theorem fill_listed (hn : n ≤ l.length) (hr : ∀ e, r.head? = some e → a + l.length ≤ e.1) :
    Tab.fill zeroByte n a (Tab.listed zeroByte a l ++ r) = l.take n := by
  induction l generalizing n a with
  | nil =>
    obtain rfl : n = 0 := by simpa using hn
    rfl
  | cons v l ih =>
    cases n with
    | zero => rfl
    | succ n =>
      have hr' : ∀ e, r.head? = some e → a + 1 + l.length ≤ e.1 := fun e he => by
        have := hr e he
        rw [List.length_cons] at this
        omega
      have hlist : Tab.listed zeroByte a (v :: l) =
        if v = zeroByte a then Tab.listed zeroByte (a + 1) l else (a, v) :: Tab.listed zeroByte (a + 1) l := rfl
      rw [List.take_succ_cons, ← ih (a := a + 1) (by simpa using hn) hr', hlist]
      by_cases hv : v = zeroByte a
      · have hhead := fun e => head_listed (e := e) hr'
        rw [if_pos hv, hv]
        generalize Tab.listed zeroByte (a + 1) l ++ r = u at hhead ⊢
        cases u with
        | nil => rfl
        | cons e u => exact if_neg (by have := hhead e rfl; omega)
      · rw [if_neg hv]
        exact if_pos rfl
theorem dropWhile_of_le (h : ∀ e, t.head? = some e → a ≤ e.1) : t.dropWhile (fun e => decide (e.1 < a)) = t := by
  cases t with
  | nil => rfl
  | cons e u => exact List.dropWhile_cons_of_neg (by simpa using h e rfl)
theorem slice_put (hn : n ≤ l.length) : Tab.slice zeroByte (Tab.put zeroByte t a l) a n = l.take n := by
  have hr : ∀ e, (t.dropWhile (fun e => decide (e.1 < a + l.length))).head? = some e → a + l.length ≤ e.1 := fun e he => by
    have := List.head?_dropWhile_not (fun e : Nat × Byte => decide (e.1 < a + l.length)) t
    rw [he] at this
    simpa using this
  unfold Tab.slice Tab.put
  rw [List.append_assoc, List.dropWhile_append_of_pos fun e he => decide_eq_true (Tab.lt_of_mem_takeWhile he), dropWhile_of_le fun e => head_listed hr]
  exact fill_listed hn hr
end
theorem State.mbytes_store (s : State) {a n : Nat} {l : List Byte} (h : n ≤ l.length) : (s.store a l).mbytes a n = l.take n := slice_put h

/-! ## Reports of the engine -/

section
variable {s : State} {q : Nat} {body : List Byte}
theorem State.queue_qNotify (s : State) (q : Nat) : ((s.qNotify q).queue q).occ = (s.queue q).occ ∧ (s.qNotify q).mem = s.mem := by
  unfold State.qNotify
  dsimp only
  split
  · exact ⟨(congrArg Queue.occ (State.queue_setQueue_self s q { s.queue q with armed := false }) :), rfl⟩
  · exact ⟨rfl, rfl⟩
/-- An entry of a device producer stands at TAIL. -/
theorem State.devicePush_leaves (hen : s.qEn q = true) (hd : (s.queue q).dropping = false) :
    ((s.devicePush q body).queue q).occ = (s.queue q).occ + 1 ∧ (s.devicePush q body).mem = (s.store (s.qSlot q (s.queue q).tail) body).mem := by
  have h : s.devicePush q body = ((s.store (s.qSlot q (s.queue q).tail) body).setQueue q { s.queue q with
      tail := ((s.queue q).tail + 1) % s.qDepth q
      occ := (s.queue q).occ + 1
      flags := (s.queue q).flags ++ [(true, true)] }).qNotify q := by
    refine (if_pos hen).trans (congrArg (fun u : State => u.qNotify q) ?_)
    unfold State.enqueue
    dsimp only
    rw [hd, if_neg Bool.false_ne_true]
    rfl
  rw [h]
  exact ⟨(State.queue_qNotify _ q).1.trans (congrArg Queue.occ (State.queue_setQueue_self _ q _)), (State.queue_qNotify _ q).2⟩
end
theorem State.q72_on {s : State} (h : s.qEn 72 = true) (hc : 0 < s.credits 72) (kind addr seg chip flags uid : Nat) (load : List Byte) :
    s.q72 kind addr seg chip flags uid load = s.devicePush 72 (entry64 (leBytes 1 kind ++ leBytes 1 addr ++ leBytes 1 seg ++ leBytes 1 chip ++
      leBytes 2 flags ++ leBytes 2 0 ++ leBytes 8 uid ++ leBytes 8 s.tbNow ++ load)) := if_pos (by rw [h, Bool.true_and]; exact decide_eq_true hc)
theorem entry64_length (l : List Byte) : (entry64 l).length = 64 := by simp [entry64]

/-! ## Discovery -/

/-- What taking a frame leaves. -/
theorem State.inpTake_keeps {s : State} {func : Nat} {x : InpFrame} (h : s.inpHead func = some x) : s.inpTake.bus = s.bus ∧
    s.inpTake.clk = s.clk ∧ s.inpTake.qch = s.qch ∧ s.inpTake.rst = s.rst ∧ s.inpTake.queues = s.queues ∧ s.inpTake.mem = s.mem ∧
    s.inpTake.rf = s.rf := by
  unfold State.inpTake
  rw [(State.inpHead_inbox h).1]
  dsimp only
  cases x.buf <;> exact ⟨rfl, rfl, rfl, rfl, rfl, rfl, rfl⟩
theorem State.chooseAddr_congr {s t : State} (h : t.inp.nodes = s.inp.nodes) (hb : t.inp.autoBase = s.inp.autoBase) (uid : Nat) :
    t.chooseAddr uid = s.chooseAddr uid := by
  unfold State.chooseAddr State.node
  rw [h, hb]
theorem State.isLead_iff {s : State} : s.isLead = true ↔ s.bus.chipId = 0 := beq_iff_eq

theorem announceReceived_yields : ∀ (x : InpFrame) (a : Nat) (s : State), s.inpHead 0x01 = some x → s.isLead = true → s.quenchClear → x.chip = s.bus.chipId → x.seg < 4 →
    s.chooseAddr (bytesAt x.frame.data 0 8) = some a → (s.node a).st < 2 → s.manages x.seg = true → (s.fbc x.seg).st ≠ .off →
    Yields .announceReceived s (fun t => (t.node a).st = 2 ∧ (t.node a).uid = bytesAt x.frame.data 0 8 ∧ (t.node a).seg = x.seg ∧
      (t.node a).host = x.chip ∧ (t.node a).offeredAt = s.clk.now ∧ (∀ k, k ≠ a → t.node k = s.node k) ∧
      t.inp.inbox = s.inp.inbox.tail ∧ (t.fbc x.seg).txReq.toNat.testBit 4 = true ∧
      fld (t.reg (fbcBlk x.seg) (0x1000 + 0x50 * 4)) 16 8 = 0x02 ∧ Frame [.inp] s t) := by
  intro x a s hhead hlead hc hchip hseg ha hst hm hfbc
  obtain ⟨ho, hinp, hrx⟩ := State.inpTake_leaves hhead
  obtain ⟨hbus, hclk, -, hrst, -, -, hrf⟩ := State.inpTake_keeps hhead
  obtain ⟨-, hhalt, hfroz⟩ := State.inpHead_inbox hhead
  have h0 := State.isLead_iff.1 hlead
  have hexec : exec .announceReceived s = done s (s.inpTake.announce (bytesAt x.frame.data 0 8) x.chip x.seg) :=
    congrArg (done s) ((State.onInp_eq hhead _).trans (if_pos (by unfold State.isLead; rw [hbus]; exact hlead)))
  have hnode := State.node_inpTake hhead
  have hch : s.inpTake.chooseAddr (bytesAt x.frame.data 0 8) = some a :=
    (State.chooseAddr_congr (congrArg Inp.nodes hinp :) (congrArg Inp.autoBase hinp :) _).trans ha
  obtain ⟨r, hr⟩ := hrx x.seg
  generalize s.inpTake = v at *
  obtain ⟨y, hy, hy1, hy2, hy3, hy4, hy5⟩ : ∃ y, v.announce (bytesAt x.frame.data 0 8) x.chip x.seg =
      (v.setNode a y).sendOn x.chip x.seg 4 (v.assignFrame a y) ∧ y.st = 2 ∧ y.uid = bytesAt x.frame.data 0 8 ∧ y.seg = x.seg ∧ y.host = x.chip ∧
      y.offeredAt = s.clk.now := by
    unfold State.announce
    rw [hch, ← hclk]
    dsimp only
    rw [if_neg (show ¬(v.node a).st = 3 by rw [hnode]; omega)]
    exact ⟨_, rfl, rfl, rfl, rfl, rfl, rfl⟩
  obtain ⟨u, hu⟩ : ∃ u, u = v.setNode a y := ⟨_, rfl⟩
  have hou : Only [.fbcs, .inp] s u := by rw [hu]; exact ((only_setNode v a y).mono (by simp)).after ho
  have hsend : (v.setNode a y).sendOn x.chip x.seg 4 (v.assignFrame a y) = u.sendInp x.seg 4 (v.assignFrame a y) := by
    rw [hu]
    exact if_pos (show x.chip = v.bus.chipId by rw [hbus, hchip])
  rw [hy, hsend] at hexec
  have hfu : u.fbc x.seg = { s.fbc x.seg with rx := r } := by rw [hu]; exact hr
  obtain ⟨ht1, ht2⟩ := State.sendInp_leaves (s := u) (k := x.seg) (b := 4) (by omega) (v.assignFrame a y)
    ((State.manages_congr (by rw [hfu]) fun o ho => hou.reg (by simp) ho).trans hm) (by rw [hfu]; exact hfbc)
    (by rw [hu]; exact (congrArg (fun z : Regs => tget z.halted Blk.inp) hrf).trans hhalt)
    (by rw [hu]; exact (congrArg (fun z : Rst => z.classD.isSome || z.wdogDue) hrst).trans hfroz)
  have hos := only_sendInp u hseg (b := 4) (by omega) (v.assignFrame a y)
  refine yields_clear hexec (hos.quenchClear (hou.quenchClear hc (by simp) (by simp) (by simp)) (by simp) (by simp) (by simp)) fun t ht => ?_
  have htn : ∀ k, t.node k = (v.setNode a y).node k := fun k => ((ht.node (by simp) k).trans (hos.node (by simp) k)).trans (by rw [hu])
  have hself : t.node a = y := (htn a).trans (State.node_setNode_self v a y)
  refine ⟨by rw [hself, hy1], by rw [hself, hy2], by rw [hself, hy3], by rw [hself, hy4], by rw [hself, hy5], fun k hk => ?_, ?_, ?_, ?_, ?_⟩
  · rw [htn, State.node_setNode_ne v y hk, hnode]
  · rw [ht .inp (by simp), hos .inp (by simp), hu]
    exact congrArg Inp.inbox hinp
  · rw [ht.fbc (by simp), ht1, hfu]
    show ((s.fbc x.seg).txReq ||| 16#8).toNat.testBit 4 = true
    rw [BitVec.testBit_toNat, BitVec.getLsbD_or]
    simp
  · rw [ht.reg (by simp) (by omega), ht2]
    exact mgmtFrame_func v _ (by omega) (by rw [hbus, h0]; omega) (by omega)
  · exact Only.frame_trip (l' := [.inp] ++ tripParts) ((ht.mono (by simp)).after ((hos.mono (by decide)).after (hou.mono (by decide)))) (by simp)

theorem State.fromNode_inpTake {s : State} {func : Nat} {x : InpFrame} (h : s.inpHead func = some x) (y : InpFrame) :
    s.inpTake.fromNode y = s.fromNode y := by
  unfold State.fromNode
  rw [State.node_inpTake h]
theorem State.isLead_inpTake {s : State} {func : Nat} {x : InpFrame} (h : s.inpHead func = some x) : s.inpTake.isLead = s.isLead := by
  unfold State.isLead
  rw [(State.inpTake_keeps h).1]
theorem State.tellLead_lead {s : State} (h : s.isLead = true) (x : InpFrame) : s.tellLead x = s := if_pos (by rw [h]; rfl)

theorem capsReceived_yields : ∀ (x : InpFrame) (s : State), s.inpHead 0x31 = some x → s.isLead = true → (s.node x.src).st = 2 →
    bytesAt x.frame.data 0 8 = (s.node x.src).uid → s.fromNode x = true → s.qEn 72 = false → Yields .capsReceived s (fun t =>
      t.node x.src = { s.node x.src with
        st := 3, cls := bytesAt x.frame.data 8 1, role := bytesAt x.frame.data 9 1, trxLoop := bytesAt x.frame.data 12 2
        turnRes := bytesAt x.frame.data 14 2, hbAt := s.clk.now } ∧
      t.evc Blk.inp 2 = s.evc Blk.inp 2 + 1 ∧ t.evc Blk.inp 8 = s.evc Blk.inp 8 + 1 ∧ t.inp.inbox = s.inp.inbox.tail ∧
      Frame [.inp, .regs 26] s t) := by
  intro x s hhead hlead hst huid hfrom hq
  obtain ⟨ho, hinp, -⟩ := State.inpTake_leaves hhead
  obtain ⟨hbus, hclk, -⟩ := State.inpTake_keeps hhead
  have hlv := (State.isLead_inpTake hhead).trans hlead
  have hfv := (State.fromNode_inpTake hhead x).trans hfrom
  have hnode := State.node_inpTake hhead x.src
  obtain ⟨y, hy⟩ : ∃ y, y = { s.node x.src with
        st := 3, cls := bytesAt x.frame.data 8 1, role := bytesAt x.frame.data 9 1, trxLoop := bytesAt x.frame.data 12 2
        turnRes := bytesAt x.frame.data 14 2, hbAt := s.clk.now } := ⟨_, rfl⟩
  obtain ⟨u, hu⟩ : ∃ u, u = { s.inpTake.setNode x.src y with qch.nodesLost := tset s.inpTake.qch.nodesLost x.src false } := ⟨_, rfl⟩
  have hou : Only [.fbcs, .inp, .qch] s u := by
    rw [hu]
    exact ((only_setQch _ _).mono (by simp)).after (((only_setNode _ _ _).mono (by simp)).after (ho.mono (by simp)))
  have hexec : exec .capsReceived s = done s ((u.bump Blk.inp 2).bump Blk.inp 8) := by
    refine congrArg (done s) ((State.onInp_eq hhead _).trans ?_)
    dsimp only
    rw [hfv, hnode, huid, hst, hclk]
    refine (if_neg (by simp)).trans ?_
    rw [if_pos rfl, if_pos rfl, ← hy]
    refine Eq.trans (congrArg (fun w : State => ((w.bump Blk.inp 2).q72 0 x.src _ _ _ _).tellLead x) (show _ = u from hu.symm)) ?_
    rw [State.q72_off (s := u.bump Blk.inp 2)]
    · exact State.tellLead_lead (s := State.bump (State.bump _ _ _) _ _) ((congrArg (fun b : Bus => b.chipId == 0) (hou .bus (by simp))).trans hlead) x
    · rw [← hq]
      exact State.qEn_congr (by omega) fun o ho => hou.reg (b := Blk.que) (by simp) ho
  refine yields_done hexec ⟨?_, ?_, ?_, ?_, ?_⟩
  · rw [finish_node, hu, ← hy]
    exact State.node_setNode_self _ _ _
  · rw [finish_evc _ _ (by decide) (by decide), State.evc_bump_of_ne _ (by decide), State.evc_bump_self, hou.evc (by simp) (by decide)]
  · rw [finish_evc _ _ (by decide) (by decide), State.evc_bump_self, State.evc_bump_of_ne _ (by decide), hou.evc (by simp) (by decide)]
  · rw [finish_inp, hu]
    exact (congrArg Inp.inbox hinp :)
  · exact frame_finish (Only.frame_trip (l' := [.inp, .regs 26] ++ tripParts) (((only_bump _ Blk.inp (j := 8) (by decide)).mono (by decide)).after
      (((only_bump u Blk.inp (j := 2) (by decide)).mono (by decide)).after (hou.mono (by decide)))) (by simp))

/-- A frame that is turned away is counted. -/
theorem badFrame_yields {i : Instr} {func : Nat} {x : InpFrame} {s : State} (hhead : s.inpHead func = some x)
    (hexec : exec i s = done s s.inpTake.badFrame) :
    Yields i s (fun t => t.inp.nodes = s.inp.nodes ∧ t.evc Blk.inp 7 = s.evc Blk.inp 7 + 1 ∧ Frame [.inp, .regs 26] s t) := by
  obtain ⟨ho, hinp, -⟩ := State.inpTake_leaves hhead
  refine yields_done hexec ⟨?_, ?_, ?_⟩
  · rw [finish_inp]
    exact (congrArg Inp.nodes hinp :)
  · rw [finish_evc _ _ (by decide) (by decide)]
    exact (State.evc_bump_self _ _ _).trans (by rw [ho.evc (by simp) (by decide)])
  · exact frame_finish (Only.frame_trip (l' := [.inp, .regs 26] ++ tripParts) (((only_bump _ Blk.inp (j := 7) (by decide)).mono (by decide)).after
      (ho.mono (by decide))) (by simp))
theorem capsReceived_bad : ∀ (x : InpFrame) (s : State), s.inpHead 0x31 = some x → ((s.node x.src).st < 2 ∨ (s.node x.src).st = 4 ∨
      bytesAt x.frame.data 0 8 ≠ (s.node x.src).uid ∨ s.fromNode x = false) → Yields .capsReceived s (fun t =>
      t.inp.nodes = s.inp.nodes ∧ t.evc Blk.inp 7 = s.evc Blk.inp 7 + 1 ∧ Frame [.inp, .regs 26] s t) := by
  intro x s hhead h
  refine badFrame_yields hhead (congrArg (done s) ((State.onInp_eq hhead _).trans (if_pos ?_)))
  rw [State.fromNode_inpTake hhead, State.node_inpTake hhead]
  rcases h with h | h | h | h
  · have h2 : ((s.node x.src).st == 2) = false := beq_eq_false_iff_ne.2 (by omega)
    have h3 : ((s.node x.src).st == 3) = false := beq_eq_false_iff_ne.2 (by omega)
    rw [h2, h3]
    rfl
  · rw [h]
    rfl
  · rw [bne_iff_ne.2 h, Bool.or_true, Bool.true_or]
  · rw [h, Bool.not_false, Bool.or_true]
theorem offerTimeout_yields : ∀ (a : BitVec 8) (s : State), s.frozen = false → (s.node a.toNat).st = 2 → (s.node a.toNat).offeredAt + 10000000 ≤ s.clk.now →
    (s.node a.toNat).prev < 2 → Yields (.offerTimeout a) s (fun t => t.node a.toNat = vacant (s.node a.toNat).binding ∧
      (∀ k, k ≠ a.toNat → t.node k = s.node k) ∧ Frame [.inp] s t) := by
  intro a s hf hst hdue hprev
  have h100 : 100 * tbMs = 10000000 := by decide
  have hexec : exec (.offerTimeout a) s = done s (s.setNode a.toNat (vacant (s.node a.toNat).binding)) := by
    refine congrArg (done s) ((if_pos ⟨hst, by rw [h100]; exact hdue, by rw [hf]; rfl⟩).trans ?_)
    rw [if_pos hprev]
  refine yields_done hexec ⟨?_, fun k hk => ?_, ((only_setNode s _ _).mono (by simp)).frame_finish⟩
  · rw [finish_node]
    exact State.node_setNode_self s _ _
  · rw [finish_node]
    exact State.node_setNode_ne s _ hk

/-! ## Supervision -/

theorem heartbeatReceived_yields : ∀ (x : InpFrame) (s : State), s.inpHead 0x10 = some x → s.isLead = true → (s.node x.src).st = 3 → s.fromNode x = true →
    Yields .heartbeatReceived s (fun t => t.node x.src = { s.node x.src with hbAt := s.clk.now } ∧ t.inp.inbox = s.inp.inbox.tail ∧
      Frame [.inp] s t) := by
  intro x s hhead hlead hst hfrom
  obtain ⟨ho, hinp, -⟩ := State.inpTake_leaves hhead
  obtain ⟨hbus, hclk, -⟩ := State.inpTake_keeps hhead
  have hexec : exec .heartbeatReceived s = done s (s.inpTake.setNode x.src { s.node x.src with hbAt := s.clk.now }) := by
    refine congrArg (done s) ((State.onInp_eq hhead _).trans ?_)
    dsimp only
    rw [State.fromNode_inpTake hhead, hfrom, State.node_inpTake hhead, hst, hclk]
    exact (if_neg (by decide)).trans ((if_neg (by decide)).trans (State.tellLead_lead (s := State.setNode _ _ _) ((State.isLead_inpTake hhead).trans hlead) x))
  refine yields_done hexec ⟨?_, ?_, ?_⟩
  · rw [finish_node]
    exact State.node_setNode_self _ _ _
  · rw [finish_inp]
    exact (congrArg Inp.inbox hinp :)
  · exact frame_finish (Only.frame_trip (l' := [.inp] ++ tripParts) (((only_setNode _ _ _).mono (by decide)).after (ho.mono (by decide))) (by simp))
theorem heartbeatReceived_bad : ∀ (x : InpFrame) (s : State), s.inpHead 0x10 = some x → ((s.node x.src).st = 0 ∨ (s.node x.src).st = 4) →
    Yields .heartbeatReceived s (fun t => t.inp.nodes = s.inp.nodes ∧ t.evc Blk.inp 7 = s.evc Blk.inp 7 + 1 ∧ Frame [.inp, .regs 26] s t) := by
  intro x s hhead h
  refine badFrame_yields hhead (congrArg (done s) ((State.onInp_eq hhead _).trans ((if_neg ?_).trans (if_pos ?_))))
  · rw [State.node_inpTake hhead]
    omega
  · rw [State.node_inpTake hhead]
    rcases h with h | h <;> rw [h] <;> rfl
/-- The node lost, counted, before Quench judges it. -/
def State.lostNode (s : State) (a : Nat) : State :=
  ((s.setNode a { s.node a with st := 4, lostAt := s.clk.now }).bump Blk.inp 3).bump Blk.inp 8
theorem State.lostNode_leaves (s : State) (a : Nat) : Only [.inp, .regs 26] s (s.lostNode a) :=
  ((only_bump _ Blk.inp (j := 8) (by decide)).mono (by decide)).after (((only_bump _ Blk.inp (j := 3) (by decide)).mono (by decide)).after
    ((only_setNode s a _).mono (by simp)))
theorem State.nodeLost_eq {s : State} (a : Nat) (hq : s.qEn 72 = false) : s.nodeLost a =
    if 1 ≤ (s.node a).role && (s.node a).role ≤ 3 then
      { s.lostNode a with qch.nodesLost := tset (s.lostNode a).qch.nodesLost a true }.evalTrip s.causes 0
    else s.lostNode a := by
  unfold State.nodeLost
  dsimp only
  rw [State.q72_off]
  · rfl
  · exact hq
theorem State.causeNow_nodesLost {s : State} {a : Nat} (ha : a < 256) (h : tget s.qch.nodesLost a = true) : s.causeNow 6 = true := by
  have hsome : (s.causeWhere 6).isSome = true := List.find?_isSome.2 ⟨a, List.mem_range.2 ha, h⟩
  exact (congrArg (· || s.isHalted Blk.inp) hsome).trans (Bool.true_or _)
theorem heartbeatLoss_yields : ∀ (a : BitVec 8) (s : State), s.frozen = false → s.isLead = true → (s.node a.toNat).st = 3 →
    (s.node a.toNat).hbAt + ((s.node a.toNat).hbPeriod * (s.node a.toNat).hbMiss + 1) * 100000 ≤ s.clk.now → s.qEn 72 = false →
    Yields (.heartbeatLoss a) s (fun t => (t.node a.toNat).st = 4 ∧ (t.node a.toNat).lostAt = s.clk.now ∧
      t.evc Blk.inp 3 = s.evc Blk.inp 3 + 1 ∧
      (1 ≤ (s.node a.toNat).role → (s.node a.toNat).role ≤ 3 → s.qch.st = .armed → t.qch.st = .tripped ∧ t.pairRun = false) ∧
      Frame [.inp, .regs 26] s t) := by
  intro a s hf hlead hst hdue hq
  have hexec : exec (.heartbeatLoss a) s = done s (s.nodeLost a.toNat) := by
    have h1 : tbMs = 100000 := rfl
    refine congrArg (done s) (if_pos ?_)
    rw [hlead, hst, hf, h1, decide_eq_true hdue]
    rfl
  rw [State.nodeLost_eq a.toNat hq] at hexec
  have hol := s.lostNode_leaves a.toNat
  have hln : (s.lostNode a.toNat).node a.toNat = { s.node a.toNat with st := 4, lostAt := s.clk.now } := State.node_setNode_self s _ _
  have hle : (s.lostNode a.toNat).evc Blk.inp 3 = s.evc Blk.inp 3 + 1 :=
    (State.evc_bump_of_ne _ (by decide)).trans (State.evc_bump_self _ _ _)
  generalize s.lostNode a.toNat = v at *
  obtain ⟨w, hw⟩ : ∃ w, w = ({ v with qch.nodesLost := tset v.qch.nodesLost a.toNat true } : State) := ⟨_, rfl⟩
  rw [← hw] at hexec
  have how : Only [.qch] v w := by rw [hw]; exact only_setQch v _
  obtain ⟨u, hu⟩ : ∃ u, u = if (1 ≤ (s.node a.toNat).role && (s.node a.toNat).role ≤ 3) = true then w.evalTrip s.causes 0 else v := ⟨_, rfl⟩
  rw [← hu] at hexec
  have hov : Only tripParts v u := by
    rw [hu]
    exact Only.ite (fun _ => (only_evalTrip w _ _).after (how.mono (by decide))) fun _ => Only.refl _ v
  have hnode : u.node a.toNat = { s.node a.toNat with st := 4, lostAt := s.clk.now } := (hov.node (by decide) _).trans hln
  refine yields_done hexec ⟨?_, ?_, ?_, fun h1 h3 harmed => ?_, ?_⟩
  · rw [finish_node, hnode]
  · rw [finish_node, hnode]
  · rw [finish_evc _ _ (by decide) (by decide), hov.evc (by decide) (by decide)]
    exact hle
  · have hrole : (1 ≤ (s.node a.toNat).role && (s.node a.toNat).role ≤ 3 : Bool) = true := by simp [h1, h3]
    have hst : w.qch.st = .armed := by rw [hw]; exact (congrArg Qch.st (hol.qch (by simp))).trans harmed
    have htrip : finish s u = finish s (w.trip w.causes) := by
      rw [hu, if_pos hrole]
      refine finish_trips s hst (by decide) (by decide) (State.causeNow_nodesLost a.isLt ?_)
      rw [hw]
      exact (tget_tset _ _ _ _).trans (if_pos rfl)
    have hfin : (finish s u).qch.st = .tripped := by
      rw [htrip, finish_qch_of_not_armed s (by rw [State.trip_st]; decide), State.trip_st]
    exact ⟨hfin, State.pairRun_of_not_armed (by rw [hfin]; decide)⟩
  · exact frame_finish (Only.frame_trip (l' := [.inp, .regs 26] ++ tripParts) ((hov.mono (by decide)).after (hol.mono (by simp))) (by simp))
theorem lingerExpiry_yields : ∀ (a : BitVec 8) (s : State), s.frozen = false → (s.node a.toNat).st = 4 →
    (s.node a.toNat).lostAt + s.inp.linger * 100000000 ≤ s.clk.now → Yields (.lingerExpiry a) s (fun t =>
      t.node a.toNat = vacant (s.node a.toNat).binding ∧ Frame [.inp] s t) := by
  intro a s hf hst hdue
  have h1000 : s.inp.linger * 1000 * tbMs = s.inp.linger * 100000000 := by
    have h1 : 1000 * tbMs = 100000000 := by decide
    rw [Nat.mul_assoc, h1]
  have hexec : exec (.lingerExpiry a) s = done s (s.setNode a.toNat (vacant (s.node a.toNat).binding)) :=
    congrArg (done s) (if_pos ⟨hst, by rw [h1000]; exact hdue, by rw [hf]; rfl⟩)
  refine yields_done hexec ⟨?_, ((only_setNode s _ _).mono (by simp)).frame_finish⟩
  rw [finish_node]
  exact State.node_setNode_self s _ _
theorem loadReceived_yields : ∀ (x : InpFrame) (s : State), s.inpHead 0x40 = some x → s.isLead = true → (s.node x.src).st = 3 → s.fromNode x = true → s.qEn 72 = true →
    0 < s.credits 72 → (s.queue 72).dropping = false → Yields .loadReceived s (fun t => (t.queue 72).occ = (s.queue 72).occ + 1 ∧
      t.mbytes (s.qSlot 72 (s.queue 72).tail) 2 = [6, BitVec.ofNat 8 x.src] ∧ t.inp.nodes = s.inp.nodes ∧
      Frame [.inp, .queues, .mem] s t) := by
  intro x s hhead hlead hst hfrom hq hc hd
  obtain ⟨ho, hinp, -⟩ := State.inpTake_leaves hhead
  obtain ⟨-, -, -, -, hqs, hmem, -⟩ := State.inpTake_keeps hhead
  have hqueue : s.inpTake.queue 72 = s.queue 72 := by unfold State.queue; rw [hqs]
  have hreg : ∀ o, o < 0x10000 → s.inpTake.reg Blk.que o = s.reg Blk.que o := fun o h => ho.reg (b := Blk.que) (by simp) h
  have hqv : s.inpTake.qEn 72 = true := (State.qEn_congr (by omega) hreg).trans hq
  have hdepth : s.inpTake.qDepth 72 = s.qDepth 72 := by unfold State.qDepth State.qcfg; rw [hreg _ (by omega)]
  have hslot : s.inpTake.qSlot 72 (s.inpTake.queue 72).tail = s.qSlot 72 (s.queue 72).tail := by
    unfold State.qSlot State.qRing
    rw [hqueue, hdepth, hreg _ (by omega)]
  have hcv : 0 < s.inpTake.credits 72 := by
    unfold State.credits at hc ⊢
    rwa [hqueue, hdepth]
  have hq72 := State.q72_on hqv hcv 6 x.src (s.node x.src).seg (s.node x.src).host 0 (s.node x.src).uid x.frame.data
  generalize hl : entry64 _ = l at hq72
  have hlen : l.length = 64 := by rw [← hl]; exact entry64_length _
  have htake : l.take 2 = [6, BitVec.ofNat 8 x.src] := by rw [← hl]; rfl
  have hexec : exec .loadReceived s = done s (s.inpTake.devicePush 72 l) := by
    refine congrArg (done s) ((State.onInp_eq hhead _).trans ?_)
    dsimp only
    rw [State.fromNode_inpTake hhead, hfrom, State.node_inpTake hhead, hst]
    exact (if_neg (by decide)).trans ((if_pos ((State.isLead_inpTake hhead).trans hlead)).trans hq72)
  obtain ⟨h1, h2⟩ := State.devicePush_leaves (body := l) hqv (by rw [hqueue]; exact hd)
  have hop := only_devicePush s.inpTake 72 l
  refine yields_done hexec ⟨?_, ?_, ?_, ?_⟩
  · rw [finish_queue, h1, hqueue]
  · rw [finish_mbytes]
    unfold State.mbytes
    rw [h2, hslot]
    exact (State.mbytes_store s.inpTake (by omega)).trans htake
  · rw [finish_inp, hop .inp (by simp)]
    exact (congrArg Inp.nodes hinp :)
  · exact frame_finish (Only.frame_trip (l' := [.inp, .queues, .mem] ++ tripParts) ((hop.mono (by decide)).after (ho.mono (by decide))) (by simp))

/-! ## Frames on a timer -/

theorem State.inpSends_iff {s : State} {k : Nat} : s.inpSends k = true ↔
    s.manages k = true ∧ (s.fbc k).st ≠ .off ∧ s.isHalted Blk.inp = false ∧ s.frozen = false ∧ s.aon.pwr ≠ 0 := by
  unfold State.inpSends
  simp only [Bool.and_eq_true, bne_iff_ne, Bool.not_eq_true', and_assoc]
/-- A frame sent on a timer, with the profile's own state as x. -/
theorem timer_yields {i : Instr} {s : State} {k : SegId} {b : Nat} {x : Inp} {f : CanFrame} {P : State → Prop} (hb : b < 8) (hc : s.quenchClear)
    (hs : s.inpSends k.val = true) (hexec : exec i s = done s (({ s with inp := x } : State).sendInp k.val b f))
    (hp : ∀ t, t.inp = x → (t.fbc k.val).txReq = (s.fbc k.val).txReq ||| BitVec.ofNat 8 (2 ^ b) → t.reg (fbcBlk k.val) (0x1000 + 0x50 * b) = f.idw →
      Frame [.inp] s t → P t) : Yields i s P := by
  obtain ⟨hm, hst, hh, hf, -⟩ := State.inpSends_iff.1 hs
  have hou : Only [.inp] s ({ s with inp := x } : State) := only_setInp s x
  obtain ⟨h1, h2⟩ := State.sendInp_leaves (s := { s with inp := x }) (k := k.val) hb f hm hst hh hf
  have hos := only_sendInp ({ s with inp := x } : State) k.isLt hb f
  refine yields_clear hexec (hos.quenchClear (hou.quenchClear hc (by simp) (by simp) (by simp)) (by simp) (by simp) (by simp)) fun t ht =>
    hp t ?_ ?_ ?_ ?_
  · rw [ht .inp (by simp), hos .inp (by simp)]
  · rw [ht.fbc (by simp), h1]
    rfl
  · rw [ht.reg (by simp) (by omega), h2]
  · exact Only.frame_trip (l' := [.inp] ++ tripParts) ((ht.mono (by simp)).after ((hos.mono (by decide)).after (hou.mono (by simp)))) (by simp)
theorem chipHeartbeatSend_yields : ∀ (k : SegId) (s : State), s.quenchClear → s.bus.chipId < 4 → s.inpSends k.val = true → nget s.inp.hbNext k.val ≤ s.clk.now →
    Yields (.chipHeartbeatSend k) s (fun t => (t.fbc k.val).txReq = (s.fbc k.val).txReq ||| 8 ∧
      nget t.inp.hbSeq k.val = (nget s.inp.hbSeq k.val + 1) % 256 ∧ nget t.inp.hbNext k.val = s.clk.now + s.inp.leadHb * 100000 ∧
      fld (t.reg (fbcBlk k.val) (0x1000 + 0x50 * 3)) 16 8 = 0x10 ∧ Frame [.inp] s t) := by
  intro k s hc hchip hs hdue
  refine timer_yields (k := k) (b := 3) (by omega) hc hs (congrArg (done s) (if_pos (by rw [hs, decide_eq_true hdue]; rfl))) fun t hi h1 h2 hfr => ?_
  refine ⟨h1, ?_, ?_, ?_, hfr⟩
  · rw [hi]
    exact (nget_nset _ _ _ _).trans (if_pos rfl)
  · rw [hi]
    exact (nget_nset _ _ _ _).trans (if_pos rfl)
  · rw [h2]
    exact mgmtFrame_func s _ (by omega) hchip (by omega)
theorem timeSyncSend_yields : ∀ (k : SegId) (s : State), s.quenchClear → s.bus.chipId < 4 → s.inpSends k.val = true → nget s.inp.syncNext k.val ≤ s.clk.now →
    Yields (.timeSyncSend k) s (fun t => (t.fbc k.val).txReq = (s.fbc k.val).txReq ||| 2 ∧
      nget t.inp.syncSeq k.val = (nget s.inp.syncSeq k.val + 1) % 256 ∧
      nget t.inp.syncNext k.val = s.clk.now + s.inp.timePeriod * 100000 ∧
      fld (t.reg (fbcBlk k.val) (0x1000 + 0x50 * 1)) 16 8 = 0x20 ∧ Frame [.inp] s t) := by
  intro k s hc hchip hs hdue
  refine timer_yields (k := k) (b := 1) (by omega) hc hs (congrArg (done s) (if_pos (by rw [hs, decide_eq_true hdue]; rfl))) fun t hi h1 h2 hfr => ?_
  refine ⟨h1, ?_, ?_, ?_, hfr⟩
  · rw [hi]
    exact (nget_nset _ _ _ _).trans (if_pos rfl)
  · rw [hi]
    exact (nget_nset _ _ _ _).trans (if_pos rfl)
  · rw [h2]
    exact mgmtFrame_func s _ (by omega) hchip (by omega)
theorem timeFollowSend_yields : ∀ (k : SegId) (q ts fine : Nat) (s : State), s.quenchClear → s.bus.chipId < 4 → s.inpSends k.val = true →
    Tab.get (fun _ => none) s.inp.follow k.val = some (q, ts, fine) → Yields (.timeFollowSend k) s (fun t =>
      (t.fbc k.val).txReq = (s.fbc k.val).txReq ||| 4 ∧ Tab.get (fun _ => none) t.inp.follow k.val = none ∧
      fld (t.reg (fbcBlk k.val) (0x1000 + 0x50 * 2)) 16 8 = 0x21 ∧ Frame [.inp] s t) := by
  intro k q ts fine s hc hchip hs hfol
  have hexec : exec (.timeFollowSend k) s = done s (({ s with inp := { s.inp with
      follow := Tab.set (fun _ => none) s.inp.follow k.val none } } : State).sendInp k.val 2 (s.mgmtFrame 1 0x21 0
        (leBytes 1 q ++ leBytes 1 (b2n s.unsync) ++ leBytes 2 fine ++ leBytes 8 ts ++ leBytes 2 s.inp.timePeriod ++ leBytes 2 0))) := by
    show execTimeFollowSend k s = _
    unfold execTimeFollowSend
    rw [hfol]
    exact congrArg (done s) (if_neg (by rw [hs]; decide))
  refine timer_yields (k := k) (b := 2) (by omega) hc hs hexec fun t hi h1 h2 hfr => ⟨h1, ?_, ?_, hfr⟩
  · rw [hi]
    exact Tab.get_set_self _ _ _ _
  · rw [h2]
    exact mgmtFrame_func s _ (by omega) hchip (by omega)
theorem inpRouteReturn_yields : ∀ s : State, s.isLead = false → s.inp.cut = true → s.leadReach = true → s.frozen = false → Yields .inpRouteReturn s (fun t =>
      t.inp.cut = false ∧ t.inp.regEpoch ≠ s.inp.regEpoch ∧ t.inp.regEpoch ≠ 0 ∧ Frame [.inp] s t) := by
  intro s hlead hcut hreach hf
  obtain ⟨e, he⟩ : ∃ e, e = if s.clk.now % 65536 = 0 then 1 else s.clk.now % 65536 := ⟨_, rfl⟩
  have hpos : 0 < e := by
    rw [he]
    split <;> omega
  obtain ⟨e', he'⟩ : ∃ e', e' = if e = s.inp.regEpoch then (if e = 65535 then 1 else e + 1) else e := ⟨_, rfl⟩
  have hnew : e' ≠ s.inp.regEpoch ∧ e' ≠ 0 := by
    rw [he']
    split
    · split <;> omega
    · omega
  obtain ⟨x, hexec, hx1, hx2⟩ : ∃ x, exec .inpRouteReturn s = done s ({ s with inp := x } : State) ∧ x.cut = false ∧ x.regEpoch = e' := by
    refine ⟨_, congrArg (done s) (if_pos (by rw [hlead, hcut, hreach, hf]; rfl)), rfl, ?_⟩
    rw [he', he]
  exact inp_yields hexec fun t hi hfr => ⟨by rw [hi, hx1], by rw [hi, hx2]; exact hnew.1, by rw [hi, hx2]; exact hnew.2, hfr⟩

/-- Settles O50: what each frame, each time-out and each timer does to the node it names, and what the engine sends. -/
theorem nodesOfTheBus : Obligations.NodesOfTheBus := by
  unfold Obligations.NodesOfTheBus
  exact ⟨⟨announceReceived_yields, capsReceived_yields, capsReceived_bad, offerTimeout_yields, heartbeatReceived_yields, heartbeatReceived_bad,
    heartbeatLoss_yields, lingerExpiry_yields, loadReceived_yields⟩, chipHeartbeatSend_yields, timeSyncSend_yields, timeFollowSend_yields,
    inpRouteReturn_yields⟩

end Sys2Proof.Machine
end
section
/-! The panel, its timing sets and video frames (R831 to R846, R867). -/
namespace Sys2Proof.Machine
open Sys2Proof

/-! ## Rules of the display -/

section
variable {i : Instr} {s : State} {x : Disp} {P : State → Prop}
/-- A change of the display's own state. -/
theorem disp_yields (h : exec i s = done s { s with disp := x }) (hp : ∀ t, t.disp = x → Frame [.disp] s t → P t) : Yields i s P :=
  yields_done h (hp _ (finish_disp _ _) (only_setDisp s x).frame_finish)
/-- The same with an answer. -/
theorem dispReply_yields {m : Nat} {r : Resp} (h : exec i s = done s (({ s with disp := x } : State).reply m r))
    (hp : ∀ t, t.disp = x → t.answers m r → Frame [.fmn, .disp] s t → P t) : Yields i s P :=
  yields_done h (hp _ (finish_disp _ _) (finish_answers _ _ _ _) (((only_reply _ m r).mono (by simp)).after
    ((only_setDisp s x).mono (by simp))).frame_finish)
/-- A step that does nothing leaves the display. -/
theorem dispSame_yields (h : exec i s = done s s) : Yields i s (fun t => t.disp = s.disp ∧ Frame [] s t) :=
  yields_done h ⟨finish_disp _ _, (Only.refl [] s).frame_finish⟩
end
theorem State.dispEntry_off {s : State} (h : s.qEn 96 = false) (kind slot status tag flags : Nat) :
    s.dispEntry kind slot status tag flags = s.bump Blk.disp 8 := if_pos (by rw [h]; rfl)
theorem State.timingEntry_off {s : State} (h : s.qEn 96 = false) (k status : Nat) (r : Bool) :
    s.timingEntry k status r = (s.bump Blk.disp 5).bump Blk.disp 8 := State.dispEntry_off (s := s.bump Blk.disp 5) h _ _ _ _ _
theorem only_setReady (s : State) (c : Nat) (b : Bool) : Only [.clk] s (s.setReady c b) := only_setClk s _
theorem only_pixLeave (s : State) (k : Nat) : Only [.clk, .regs 3] s (s.pixLeave k) := by
  unfold State.pixLeave
  exact ((only_setReg _ Blk.clk (by decide) _).mono (by decide)).after (((only_setReg _ Blk.clk (by decide) _).mono (by decide)).after
    (((only_setReady _ _ _).mono (by simp)).after (only_seqMove s 3 1)))
theorem only_pixReturn (s : State) : Only [.clk, .regs 3] s s.pixReturn :=
  (only_seqMove _ 3 7).after ((only_setReady s 7 true).mono (by simp))
theorem Only.setCmd {l : List StatePart} {s t : State} (h : Only l s t) (hp : .regs Blk.disp ∉ l) {k : Nat} (hk : k < 4) : t.setCmd k = s.setCmd k := by
  unfold State.setCmd State.setF
  dsimp only
  unfold State.setF
  rw [h.reg hp (by omega)]
theorem State.qEn_of_only {l : List StatePart} {s t : State} (h : Only l s t) (hp : .regs Blk.que ∉ l) {q : Nat} (hq : q < 128) : t.qEn q = s.qEn q :=
  State.qEn_congr hq fun _ ho => h.reg hp ho

/-! ## Timing sets -/

/-- A byte of a message whose words, the last one perhaps short, stand in registers. -/
theorem fld_of_short_words {f : Nat → Word} {l : List Byte} {a : Nat} {c : Nat → Nat} {o : Nat} (ha : a ≤ o)
    (h : f ((o - a) / 4) = BitVec.ofNat 32 (bytesAt l (a + 4 * ((o - a) / 4)) (c ((o - a) / 4)))) (hc : (o - a) % 4 < c ((o - a) / 4)) :
    fld (f ((o - a) / 4)) ((o - a) % 4 * 8) 8 = bytesAt l o 1 := by
  have hdig := bytesAt_digit l (a + 4 * ((o - a) / 4)) hc
  rw [show a + 4 * ((o - a) / 4) + (o - a) % 4 = o by omega] at hdig
  rw [h, fld_ofNat _ (by omega), ← hdig, show 2 ^ ((o - a) % 4 * 8) = 256 ^ ((o - a) % 4) by rw [Nat.mul_comm, Nat.pow_mul]]
  rfl
/-- Registers written one by one, each from what the writes before it leave. -/
theorem foldl_setReg_eq {v : State → Nat → Word} (hv : ∀ u b o w i, v (State.setReg u b o w) i = v u i) (s : State) (b a n : Nat) :
    (List.range n).foldl (fun s w => s.setReg b (a + 4 * w) (v s w)) s = s.putWords b a n (v s) ∧
    v (s.putWords b a n (v s)) = v s := by
  induction n with
  | zero => exact ⟨rfl, rfl⟩
  | succ n ih =>
    rw [List.range_succ, List.foldl_append, ih.1, State.putWords_succ]
    refine ⟨?_, funext fun i => (hv _ _ _ _ _).trans (congrFun ih.2 i)⟩
    show State.setReg _ _ _ (v _ n) = _
    rw [ih.2]
/-- The words of STORE that a set's registers hold. -/
def State.storeWord (s : State) (m i : Nat) : Word := BitVec.ofNat 32 (s.rq m (0x12 + 4 * i) (min 4 (34 - 4 * i)))
theorem setF_putWords {s t : State} {m t0 : Nat} (ht : t0 < 4)
    (h : ∀ o, o < 0x10000 → t.reg Blk.disp o = (s.putWords Blk.disp (0x200 + 0x40 * t0) 9 (s.storeWord m)).reg Blk.disp o) {o : Nat} (h1 : 0x12 ≤ o) (n : Nat)
    (h2 : o + n ≤ 0x34) : t.setF t0 o n = s.rq m o n := by
  induction n generalizing o with
  | zero => rfl
  | succ n ih =>
    have hbyte : fld (t.reg Blk.disp (0x200 + 0x40 * t0 + (o - 0x12) / 4 * 4)) ((o - 0x12) % 4 * 8) 8 = bytesAt (s.mb m).copy o 1 := by
      refine fld_of_short_words (f := fun w => t.reg Blk.disp (0x200 + 0x40 * t0 + w * 4)) (c := fun i => min 4 (34 - 4 * i)) h1 ?_ ?_
      · rw [h _ (by omega), Nat.mul_comm _ 4]
        exact State.reg_putWords s _ _ _ (by omega) (by omega)
      · show _ < min 4 (34 - 4 * ((o - 0x12) / 4))
        omega
    unfold State.setF
    rw [hbyte, ih (by omega) (by omega)]
    exact (congrArg (bytesAt (s.mb m).copy o) (Nat.add_comm n 1)).trans (bytesAt_add _ o 1 n) |>.symm

theorem not_tripBlk_disp : ¬tripBlk Blk.disp := by unfold tripBlk Blk.disp; omega
theorem not_tripBlk_que : ¬tripBlk Blk.que := by unfold tripBlk Blk.que; omega
theorem dispTiming_store : ∀ (m : MbId) (t0 : Nat) (s : State), s.rq m.val 0x10 1 = 0 → s.rq m.val 0x11 1 = t0 → t0 < 4 →
    s.asks m.val 0x0611 36 ([(0x10, 1, true), (0x11, 1, t0 < 4)] ++ s.storeFields m.val) →
    s.disp.active ≠ some t0 → s.disp.staged ≠ some t0 → s.disp.relock ≠ some t0 → Yields (.dispTiming m) s (fun t =>
      t.doneWith m.val [] ∧ t.disp.stored.toNat.testBit t0 = true ∧ t.setHact t0 = s.rq m.val 0x18 2 ∧ t.setVact t0 = s.rq m.val 0x20 2 ∧
      t.setF t0 0x30 4 = s.rq m.val 0x30 4 ∧ t.disp.active = s.disp.active ∧ t.disp.staged = s.disp.staged ∧
      Frame [.fmn, .disp, .regs 21] s t) := by
  intro m t0 s h0 ht0 hlt hask hact hstg hrel
  obtain ⟨hput, -⟩ := foldl_setReg_eq (v := fun u => u.storeWord m.val) (fun _ _ _ _ _ => rfl) s Blk.disp (0x200 + 0x40 * t0) 9
  obtain ⟨u, hu⟩ : ∃ u, u = s.putWords Blk.disp (0x200 + 0x40 * t0) 9 (s.storeWord m.val) := ⟨_, rfl⟩
  have hexec : exec (.dispTiming m) s = done s (({ u with disp.stored := u.disp.stored ||| BitVec.ofNat 4 (2 ^ t0) } : State).replyDone m.val) := by
    show execDispTiming m s = _
    unfold execDispTiming
    dsimp only
    beta_reduce
    rw [action_lt h0 (by decide), h0, ht0]
    refine congrArg (done s) ((State.request_asks _ hask).trans ((if_neg (by simp [hact, hstg, hrel])).trans ?_))
    rw [hu]
    exact congrArg (fun u : State => ({ u with disp.stored := u.disp.stored ||| BitVec.ofNat 4 (2 ^ t0) } : State).replyDone m.val) hput
  have hou : Only [.regs Blk.disp] s u := by rw [hu]; exact only_putWords s _ _ _ (by omega)
  refine yields_done hexec ?_
  obtain ⟨t, ht⟩ : ∃ t, t = finish s (({ u with disp.stored := u.disp.stored ||| BitVec.ofNat 4 (2 ^ t0) } : State).replyDone m.val) := ⟨_, rfl⟩
  rw [← ht]
  have hdisp : t.disp = { s.disp with stored := s.disp.stored ||| BitVec.ofNat 4 (2 ^ t0) } := by
    rw [ht, finish_disp]
    show ({ u.disp with stored := u.disp.stored ||| BitVec.ofNat 4 (2 ^ t0) } : Disp) = _
    rw [hou .disp (by simp)]
  have hreg : ∀ o, o < 0x10000 → t.reg Blk.disp o = u.reg Blk.disp o := fun o ho => by
    rw [ht, finish_reg _ _ ho not_tripBlk_disp]
    rfl
  rw [hu] at hreg
  refine ⟨by rw [ht]; exact finish_answers _ _ _ _, ?_, setF_putWords hlt hreg (by omega) 2 (by omega), setF_putWords hlt hreg (by omega) 2 (by omega),
    setF_putWords hlt hreg (by omega) 4 (by omega), by rw [hdisp], by rw [hdisp], ?_⟩
  · rw [hdisp]
    show (s.disp.stored ||| BitVec.ofNat 4 (2 ^ t0)).toNat.testBit t0 = true
    rw [BitVec.toNat_or, Nat.testBit_or, BitVec.toNat_ofNat, Nat.mod_eq_of_lt (Nat.pow_lt_pow_right (by omega) hlt), Nat.testBit_two_pow_self,
      Bool.or_true]
  · rw [ht]
    exact (((only_reply _ _ _).mono (by simp)).after (((only_setDisp u _).mono (by simp)).after (hou.mono (by decide)))).frame_finish
theorem dispTiming_commit : ∀ (m : MbId) (t0 : Nat) (s : State), s.rq m.val 0x10 1 = 1 → s.rq m.val 0x11 1 = t0 →
    s.asks m.val 0x0611 2 [(0x10, 1, true), (0x11, 1, t0 < 4)] → s.disp.stored.toNat.testBit t0 = true → s.disp.staged = none →
    s.disp.active ≠ some t0 → Yields (.dispTiming m) s (fun t => t.doneWith m.val [] ∧ t.disp = { s.disp with staged := some t0 } ∧
      Frame [.fmn, .disp] s t) := by
  intro m t0 s h1 ht0 hask hstored hstg hact
  have hexec : exec (.dispTiming m) s = done s (({ s with disp.staged := some t0 } : State).replyDone m.val) := by
    show execDispTiming m s = _
    unfold execDispTiming
    dsimp only
    beta_reduce
    rw [action_lt h1 (by decide), h1, ht0]
    refine congrArg (done s) ((State.request_asks _ hask).trans ((if_neg (by rw [hstored]; decide)).trans ((if_neg (by simp [hstg, hact])).trans ?_)))
    rw [hstg]
  exact dispReply_yields hexec fun t hd ha hfr => ⟨ha, hd, hfr⟩

/-! ## The panel -/

theorem State.qEn_queueEnable (s : State) (q owner : Nat) : (s.queueEnable q owner).qEn q = true := by
  have hreg : (s.queueEnable q owner).reg Blk.que (0x1000 + 0x40 * q) = (bitAt true 31 ||| bitAt (owner != 0xFF) 21 |||
      at_ (if owner = 0xFF then 0 else owner) 16 5 ||| at_ (fld (s.qcfg q) 0 14) 0 14) := State.reg_setReg_self s _ _ _
  unfold State.qEn State.qcfg
  rw [hreg, fld_or, fld_or, fld_or, bitAt_eq_at, bitAt_eq_at, fld_at_self _ (by omega), fld_at_of_disjoint _ (by omega) (by omega),
    fld_at_of_disjoint _ (by omega) (by omega), fld_at_of_disjoint _ (by omega) (by omega)]
  rfl
theorem only_queueEnable (s : State) {q : Nat} (hq : q < 128) (owner : Nat) : Only [.queues, .regs Blk.que] s (s.queueEnable q owner) :=
  ((only_setQueue _ q _).mono (by simp)).after ((only_setReg s Blk.que (by omega) _).mono (by simp))
theorem dispTiming_on : ∀ (m : MbId) (s : State), (
      let q := fun o n => s.rq m.val o n
      q 0x10 1 = 2 ∧ s.asks m.val 0x0611 13 [(0x10, 1, true), (0x11, 1, q 0x11 1 < 4), (0x12, 1, s.ctxOpen (q 0x12 1) || q 0x12 1 == 0xFF),
        (0x13, 1, gpioOk (q 0x13 1)), (0x14, 1, gpioOk (q 0x14 1)), (0x15, 1, gpioOk (q 0x15 1)), (0x16, 1, true), (0x17, 1, true),
        (0x18, 4, q 0x18 4 % 64 == 0 && ingotRange (q 0x18 4) (64 * q 0x1C 1)), (0x1C, 1, q 0x1C 1 ≤ 64)]) →
    s.disp.st = 0 → (s.disp.staged ≠ none ∨ s.disp.active ≠ none) → 2 ≤ s.aon.pwr → Yields (.dispTiming m) s (fun t =>
      t.doneWith m.val [] ∧ t.disp.st = 1 ∧ t.disp.step = 0 ∧ t.disp.pwrHigh = true ∧ t.disp.rstHigh = false ∧ t.disp.lanes = 0 ∧
      t.disp.wait = s.rq m.val 0x16 1 ∧ t.disp.stepAt = s.clk.now ∧ t.qEn 96 = true ∧ Frame [.fmn, .disp, .queues, .regs 6] s t) := by
  intro m s ⟨h2, hask⟩ hst hset hpwr
  have h2 : s.rq m.val 0x10 1 = 2 := h2
  have hon := only_queueEnable s (q := 96) (by omega) (s.rq m.val 0x12 1)
  have hen := s.qEn_queueEnable 96 (s.rq m.val 0x12 1)
  obtain ⟨x, hx, hexec⟩ : ∃ x : Disp, (x.st = 1 ∧ x.step = 0 ∧ x.pwrHigh = true ∧ x.rstHigh = false ∧ x.lanes = 0 ∧
      x.wait = s.rq m.val 0x16 1 ∧ x.stepAt = s.clk.now) ∧
      exec (.dispTiming m) s = done s (({ s.queueEnable 96 (s.rq m.val 0x12 1) with disp := x } : State).replyDone m.val) := by
    refine ⟨{ s.disp with
        st := 1, owner := s.rq m.val 0x12 1, pwrGpio := s.rq m.val 0x13 1, rstGpio := s.rq m.val 0x14 1, teGpio := s.rq m.val 0x15 1
        tPwr := s.rq m.val 0x16 1, tRst := s.rq m.val 0x17 1, initBase := s.rq m.val 0x18 4, initLen := s.rq m.val 0x1C 1, pwrHigh := true
        rstHigh := false, lanes := 0, step := 0, initIdx := 0, initBad := none, stepAt := s.clk.now, wait := s.rq m.val 0x16 1 },
      ⟨rfl, rfl, rfl, rfl, rfl, rfl, rfl⟩, ?_⟩
    · show execDispTiming m s = _
      unfold execDispTiming
      dsimp only
      beta_reduce
      rw [action_lt h2 (by decide), h2]
      have hnone : ¬(s.disp.st ≠ 0 ∨ (s.disp.staged.isNone = true ∧ s.disp.active.isNone = true)) := by
        rw [Option.isNone_iff_eq_none, Option.isNone_iff_eq_none]
        rintro (h | ⟨h, h'⟩)
        · exact h hst
        · exact hset.elim (· h) (· h')
      exact congrArg (done s) ((State.request_asks _ hask).trans ((if_neg (by omega)).trans ((if_neg hnone).trans (if_neg (by omega)))))
  obtain ⟨hx1, hx2, hx3, hx4, hx5, hx6, hx7⟩ := hx
  generalize s.queueEnable 96 (s.rq m.val 0x12 1) = u at *
  refine yields_done hexec ?_
  have hd : (finish s (({ u with disp := x } : State).replyDone m.val)).disp = x := finish_disp _ _
  have hq : (finish s (({ u with disp := x } : State).replyDone m.val)).qEn 96 = true :=
    (State.qEn_congr (by omega) fun o ho => (finish_reg _ _ ho not_tripBlk_que).trans rfl).trans hen
  rw [hd]
  exact ⟨finish_answers _ _ _ _, hx1, hx2, hx3, hx4, hx5, hx6, hx7, hq, (((only_reply _ _ _).mono (by simp)).after
    (((only_setDisp u x).mono (by simp)).after (hon.mono (by decide)))).frame_finish⟩

/-- No region holds an update that waits. -/
def State.idleRegions (s : State) : Prop := ∀ i, (s.regionSlot i).queued = none ∧ (s.regionSlot i).pending = none
theorem State.idleRegions_clear {s : State} (h : s.idleRegions) (i : Nat) :
    (s.setRegionSlot i { s.regionSlot i with queued := none, pending := none }).idleRegions := fun j => by
  by_cases hj : j = i
  · subst hj
    rw [show (State.setRegionSlot _ j _).regionSlot j = _ from Tab.get_set_self _ _ _ _]
    exact ⟨rfl, rfl⟩
  · rw [show (State.setRegionSlot _ i _).regionSlot j = s.regionSlot j from Tab.get_set_ne _ _ _ hj]
    exact h j
theorem foldl_regions {f : State → Nat → State}
    (hf : ∀ u i, u.idleRegions → f u i = u.setRegionSlot i { u.regionSlot i with queued := none, pending := none }) (l : List Nat) :
    ∀ s : State, s.idleRegions → ∃ x : Tab RegionSlot, l.foldl f s = { s with disp.regions := x } := by
  induction l with
  | nil => exact fun s _ => ⟨s.disp.regions, rfl⟩
  | cons i l ih =>
    intro s hs
    rw [List.foldl_cons, hf s i hs]
    obtain ⟨x, hx⟩ := ih _ (State.idleRegions_clear hs i)
    exact ⟨x, hx⟩
theorem State.dropStaged_idle {s : State} (hstg : s.disp.staged = none) (h : s.idleRegions) :
    ∃ x : Tab RegionSlot, s.dropStaged = { s with disp := { s.disp with regions := x, order := [] } } := by
  unfold State.dropStaged
  rw [hstg]
  dsimp only
  generalize hg : List.foldl _ _ _ = u
  have hfold : ∃ x : Tab RegionSlot, u = { s with disp.regions := x } := by
    rw [← hg]
    refine foldl_regions (fun v i hv => ?_) _ s h
    rw [(hv i).1, (hv i).2]
  obtain ⟨x, hx⟩ := hfold
  exact ⟨x, by rw [hx]⟩
theorem dispTiming_off : ∀ (m : MbId) (s : State), s.rq m.val 0x10 1 = 3 → s.asks m.val 0x0611 1 [(0x10, 1, true), (0x11, 1, s.rq m.val 0x11 1 < 4)] →
    s.disp.st = 2 → s.disp.staged = none → (∀ i, (s.regionSlot i).queued = none ∧ (s.regionSlot i).pending = none) →
    Yields (.dispTiming m) s (fun t => t.doneWith m.val [] ∧ t.disp.st = 3 ∧ t.disp.step = 0 ∧ t.disp.order = [] ∧
      t.disp.frameAt = s.disp.frameAt ∧ Frame [.fmn, .disp] s t) := by
  intro m s h3 hask hst hstg hregions
  obtain ⟨x, hdrop⟩ := s.dropStaged_idle hstg hregions
  have hexec : exec (.dispTiming m) s = done s (({ s with disp := { s.disp with
      regions := x, order := [], st := 3, step := 0, stepAt := s.clk.now, wait := 0 } } : State).replyDone m.val) := by
    show execDispTiming m s = _
    unfold execDispTiming
    dsimp only
    beta_reduce
    rw [action_lt h3 (by decide), h3]
    refine congrArg (done s) ((State.request_asks _ hask).trans ((if_neg (by omega)).trans ((if_neg (by omega)).trans ?_)))
    rw [hdrop]
  exact dispReply_yields hexec fun t hd ha hfr => ⟨ha, by rw [hd], by rw [hd], by rw [hd], by rw [hd], hfr⟩

/-! ## Panel sequences -/

/-- The committed set is started: PIX runs from its PLL, and with Q96 off nothing is reported. -/
theorem State.startTiming_leaves {s : State} {k : Nat} (hstg : s.disp.staged = some k) (hcmd : s.setCmd k = false) :
    Only [.disp, .clk, .regs 3] s s.startTiming ∧ (s.startTiming.domain 3).active = 7 ∧
    s.startTiming.disp = { s.disp with active := some k, staged := none, frameAt := none, commitDue := some k } := by
  have hpix : Only [.clk, .regs 3] s (s.pixLeave k).pixReturn := (only_pixReturn _).after (only_pixLeave s k)
  have hact : (((s.pixLeave k).pixReturn).domain 3).active = 7 := (State.seqMove_active _ 3 7).1
  have hrun : s.startTiming = { (s.pixLeave k).pixReturn with disp := { ((s.pixLeave k).pixReturn).disp with
      active := some k, staged := none, frameAt := none, commitDue := some k } } := by
    unfold State.startTiming
    rw [hstg]
    dsimp only
    rw [hcmd]
    rfl
  rw [hrun]
  generalize (s.pixLeave k).pixReturn = u at *
  refine ⟨((only_setDisp u _).mono (by simp)).after (hpix.mono (by simp)), hact, ?_⟩
  show ({ u.disp with active := some k, staged := none, frameAt := none, commitDue := some k } : Disp) = _
  rw [hpix .disp (by simp)]
theorem panelOnStep_yields : ∀ s : State, s.disp.st = 1 → s.dispWaited = true → s.frozen = false →
    (s.disp.step = 0 → Yields .panelOnStep s (fun t => t.disp = { s.disp with lanes := 1, step := 1, stepAt := s.clk.now, wait := 1 } ∧
      Frame [.disp] s t)) ∧
    (s.disp.step = 1 → Yields .panelOnStep s (fun t => t.disp = { s.disp with
        rstHigh := true, step := 2, stepAt := s.clk.now, wait := s.disp.tRst } ∧ Frame [.disp] s t)) ∧
    (s.disp.step = 2 → s.disp.initLen ≤ s.disp.initIdx → Yields .panelOnStep s (fun t =>
      t.disp = { s.disp with sent := s.disp.sent ++ [[0x11]], step := 3, stepAt := s.clk.now, wait := 120 } ∧ Frame [.disp] s t)) ∧
    (∀ k, s.disp.step = 3 → s.disp.staged = some k → s.setCmd k = false → s.qEn 96 = false → Yields .panelOnStep s (fun t =>
      t.disp.st = 2 ∧ t.disp.sent = s.disp.sent ++ [[0x29]] ∧ t.disp.active = some k ∧ t.disp.staged = none ∧ t.disp.commitDue = some k ∧
      t.disp.frameAt = none ∧ (t.domain 3).active = 7 ∧ t.evc Blk.disp 8 = s.evc Blk.disp 8 + 1 ∧ Frame [.disp, .clk, .regs 3, .regs 21] s t)) := by
  intro s hst hw hf
  have hgo : ¬(s.disp.st ≠ 1 ∨ (!s.dispWaited) = true ∨ s.frozen = true) := by simp [hst, hw, hf]
  have hexec : exec .panelOnStep s = execPanelOnStep s := rfl
  unfold execPanelOnStep at hexec
  rw [if_neg hgo] at hexec
  refine ⟨fun h => ?_, fun h => ?_, fun h hlen => ?_, fun k h hstg hcmd hq => ?_⟩
  · rw [h] at hexec
    exact disp_yields hexec fun t hd hfr => ⟨hd, hfr⟩
  · rw [h] at hexec
    exact disp_yields hexec fun t hd hfr => ⟨hd, hfr⟩
  · rw [h] at hexec
    exact disp_yields (hexec.trans (congrArg (done s) (if_neg (by omega)))) fun t hd hfr => ⟨hd, hfr⟩
  · rw [h] at hexec
    obtain ⟨ho, hact, hd⟩ := State.startTiming_leaves (s := s.dcs [0x29]) hstg hcmd
    have hod : Only [.disp] s (s.dcs [0x29]) := only_setDisp s _
    generalize (s.dcs [0x29]).startTiming = u at *
    have hqu : u.qEn 96 = false := (State.qEn_of_only ho (by decide) (by omega)).trans hq
    obtain ⟨v, hv⟩ : ∃ v, v = ({ u.dispNext 0 0 with disp.st := 2 } : State) := ⟨_, rfl⟩
    have hov : Only [.disp] u v := by rw [hv]; exact only_setDisp u _
    have hrun : exec .panelOnStep s = done s (v.bump Blk.disp 8) := by
      refine hexec.trans (congrArg (done s) ?_)
      rw [hv]
      exact State.dispEntry_off (s := { u.dispNext 0 0 with disp.st := 2 }) hqu _ _ _ _ _
    have hdv : v.disp = { u.disp with step := 0, stepAt := u.clk.now, wait := 0, st := 2 } := by rw [hv]; rfl
    refine yields_done hrun ?_
    have hdt : (finish s (v.bump Blk.disp 8)).disp = v.disp := finish_disp _ _
    rw [hdt, hdv, hd]
    refine ⟨rfl, rfl, rfl, rfl, rfl, rfl, ?_, ?_, ?_⟩
    · rw [finish_domain]
      exact (congrArg (fun c : Clk => (Tab.get domainReset c.domains 3).active) (hov .clk (by simp))).trans hact
    · rw [finish_evc _ _ (by decide) (by decide)]
      exact (State.evc_bump_self _ _ _).trans (by rw [hov.evc (b := Blk.disp) (by simp) (by decide), ho.evc (b := Blk.disp) (by decide) (by decide), hod.evc (b := Blk.disp) (by simp) (by decide)])
    · exact (((only_bump v Blk.disp (j := 8) (by decide)).mono (by decide)).after ((hov.mono (by simp)).after ((ho.mono (by simp)).after
        (hod.mono (by simp))))).frame_finish
theorem panelOffStep_yields : ∀ s : State, s.disp.st = 3 → s.dispWaited = true → s.frozen = false →
    (s.disp.step = 0 → s.scanEnded = true → Yields .panelOffStep s (fun t => t.disp = { s.disp with
        lanes := 1, frameAt := none, relock := none, sent := s.disp.sent ++ [[0x28], [0x10]], step := 1, stepAt := s.clk.now, wait := 120 } ∧
      Frame [.disp] s t)) ∧
    (s.disp.step = 0 → s.scanEnded = false → Yields .panelOffStep s (fun t => t.disp = s.disp ∧ Frame [] s t)) ∧
    (s.disp.step = 1 → Yields .panelOffStep s (fun t => t.disp = { s.disp with
        rstHigh := false, step := 2, stepAt := s.clk.now, wait := 1 } ∧ Frame [.disp] s t)) ∧
    (s.disp.step = 2 → s.qEn 96 = false → Yields .panelOffStep s (fun t => t.disp = { s.disp with
        pwrHigh := false, lanes := 0, st := 0, initBad := none } ∧ t.evc Blk.disp 8 = s.evc Blk.disp 8 + 1 ∧ Frame [.disp, .regs 21] s t)) := by
  intro s hst hw hf
  have hgo : ¬(s.disp.st ≠ 3 ∨ (!s.dispWaited) = true ∨ s.frozen = true) := by simp [hst, hw, hf]
  have hexec : exec .panelOffStep s = execPanelOffStep s := rfl
  unfold execPanelOffStep at hexec
  rw [if_neg hgo] at hexec
  refine ⟨fun h hscan => ?_, fun h hscan => ?_, fun h => ?_, fun h hq => ?_⟩
  · rw [h] at hexec
    refine disp_yields (hexec.trans (congrArg (done s) (if_neg (by rw [hscan]; decide)))) fun t hd hfr => ⟨?_, hfr⟩
    have happ : s.disp.sent ++ [[0x28]] ++ [[0x10]] = s.disp.sent ++ [[0x28], [0x10]] := List.append_assoc _ _ _
    rw [hd]
    exact congrArg (fun l => ({ s.disp with
      lanes := 1, frameAt := none, relock := none, sent := l, step := 1, stepAt := s.clk.now, wait := 120 } : Disp)) happ
  · rw [h] at hexec
    exact dispSame_yields (hexec.trans (congrArg (done s) (if_pos (by rw [hscan]; rfl))))
  · rw [h] at hexec
    exact disp_yields hexec fun t hd hfr => ⟨hd, hfr⟩
  · rw [h] at hexec
    obtain ⟨u, hu⟩ : ∃ u, u = ({ s with disp.pwrHigh := false, disp.lanes := 0, disp.st := 0, disp.initBad := none } : State) := ⟨_, rfl⟩
    have hou : Only [.disp] s u := by rw [hu]; exact only_setDisp s _
    have hrun : exec .panelOffStep s = done s (u.bump Blk.disp 8) := by
      rw [← State.dispEntry_off (s := u) (by rw [← hq, hu]; rfl) 2 0 (match s.disp.initBad with | some _ => rBadArgument | none => rDone)
        (s.disp.initBad.getD 0) 0, hu]
      cases hb : s.disp.initBad <;> rw [hb] at hexec <;> exact hexec
    refine yields_done hrun ⟨?_, ?_, ?_⟩
    · rw [finish_disp, hu]
      rfl
    · rw [finish_evc _ _ (by decide) (by decide)]
      exact (State.evc_bump_self _ _ _).trans (by rw [hou.evc (b := Blk.disp) (by simp) (by decide)])
    · exact (((only_bump u Blk.disp (j := 8) (by decide)).mono (by decide)).after (hou.mono (by simp))).frame_finish

/-! ## Frames -/

/-- What a frame scans. -/
def State.frameScan (s : State) : ScanSrc :=
  if s.disp.source = 1 then .plane ((s.reg Blk.disp 0x16C).toNat / 64 * 64) (64 * s.disp.stride64) else .fill
/-- The display as a frame of set k starts at an instant. -/
def State.frameDisp (s : State) (k ps : Nat) : Disp :=
  { s.disp with
    active := some k, frameAt := some ps, fcount := (s.disp.fcount + 1) % 2 ^ 32, scan := s.frameScan, underflowed := false
    line := 0, lanes := 2, commitDue := none }
theorem State.beginFrame_plain {s : State} {k ps : Nat} {r : Bool} (hsrc : s.disp.stagedSource = none) (hdue : s.disp.commitDue = none) :
    s.beginFrame k ps r = ({ s with disp := s.frameDisp k ps } : State).bump Blk.disp 2 := by
  unfold State.beginFrame
  rw [hsrc, hdue]
  rfl
theorem State.beginFrame_commit {s : State} {k ps g : Nat} {r : Bool} (hsrc : s.disp.stagedSource = none) (hdue : s.disp.commitDue = some g)
    (hq : s.qEn 96 = false) : s.beginFrame k ps r =
      ((({ s with disp := s.frameDisp k ps } : State).bump Blk.disp 2).bump Blk.disp 5).bump Blk.disp 8 := by
  rw [← State.timingEntry_off (s := ({ s with disp := s.frameDisp k ps } : State).bump Blk.disp 2) hq g rDone r]
  unfold State.beginFrame
  rw [hsrc, hdue]
  rfl

section
variable {s : State} {k f : Nat}
/-- The vertical sync of a video frame that is due. -/
theorem exec_frameStart (hst : s.disp.st = 2) (hrel : s.disp.relock = none) (hf : s.frozen = false) (hh : s.isHalted Blk.disp = false)
    (hact : s.disp.active = some k) (hcmd : s.setCmd k = false) (hat : s.disp.frameAt = some f) (hdue : f + s.framePs k ≤ s.nowPs) :
    (s.disp.staged = none → exec .frameStart s = done s (s.beginFrame k (f + s.framePs k) false)) ∧
    (∀ g, s.disp.staged = some g → exec .frameStart s = done s (s.applyStaged k g (f + s.framePs k))) := by
  have hgo : ¬(s.disp.st ≠ 2 ∨ s.disp.relock.isSome = true ∨ s.frozen = true ∨ s.isHalted Blk.disp = true) := by simp [hst, hrel, hf, hh]
  have hexec : exec .frameStart s = execFrameStart s := rfl
  unfold execFrameStart at hexec
  rw [if_neg hgo, hact] at hexec
  dsimp only at hexec
  rw [hcmd, hat, if_neg Bool.false_ne_true] at hexec
  dsimp only at hexec
  rw [if_neg (by omega)] at hexec
  exact ⟨fun h => by rw [hexec, h], fun g h => by rw [hexec, h]; rfl⟩
end
theorem frameStart_yields : ∀ (k f : Nat) (s : State), s.disp.st = 2 → s.disp.relock = none → s.frozen = false → s.isHalted Blk.disp = false →
    s.disp.active = some k → s.setCmd k = false → s.disp.frameAt = some f → f + s.framePs k ≤ s.nowPs → s.disp.staged = none →
    s.disp.stagedSource = none → s.disp.commitDue = none → s.disp.source ≠ 1 → Yields .frameStart s (fun t => t.disp = { s.disp with
        frameAt := some (f + s.framePs k), fcount := (s.disp.fcount + 1) % 2 ^ 32, scan := .fill, underflowed := false, line := 0, lanes := 2 } ∧
      t.evc Blk.disp 2 = s.evc Blk.disp 2 + 1 ∧ Frame [.disp, .regs 21] s t) := by
  intro k f s hst hrel hf hh hact hcmd hat hdue hstg hsrc hcom hne
  have hexec := (exec_frameStart hst hrel hf hh hact hcmd hat hdue).1 hstg
  rw [State.beginFrame_plain hsrc hcom] at hexec
  have hdisp : s.frameDisp k (f + s.framePs k) = { s.disp with
      frameAt := some (f + s.framePs k), fcount := (s.disp.fcount + 1) % 2 ^ 32, scan := .fill, underflowed := false, line := 0, lanes := 2 } := by
    unfold State.frameDisp State.frameScan
    rw [if_neg hne, ← hact, ← hcom]
  rw [hdisp] at hexec
  refine yields_done hexec ⟨finish_disp _ _, ?_, ?_⟩
  · rw [finish_evc _ _ (by decide) (by decide)]
    exact State.evc_bump_self _ _ _
  · exact (((only_bump _ Blk.disp (j := 2) (by decide)).mono (by decide)).after ((only_setDisp s _).mono (by simp))).frame_finish
theorem frameStart_relock : ∀ (k g f : Nat) (s : State), s.disp.st = 2 → s.disp.relock = none → s.frozen = false → s.isHalted Blk.disp = false →
    s.disp.active = some k → s.setCmd k = false → s.disp.frameAt = some f → f + s.framePs k ≤ s.nowPs → s.disp.staged = some g →
    s.relockNeeded k g = true → Yields .frameStart s (fun t => t.disp.relock = some g ∧ t.disp.relockOld = some k ∧ t.disp.staged = none ∧
      t.disp.commitDue = some g ∧ t.disp.frameAt = none ∧ t.disp.lanes = 1 ∧ t.disp.relockAt = s.clk.now ∧
      Frame [.disp, .clk, .regs 3] s t) := by
  intro k g f s hst hrel hf hh hact hcmd hat hdue hstg hneed
  have hexec := (exec_frameStart hst hrel hf hh hact hcmd hat hdue).2 g hstg
  obtain ⟨u, hu⟩ : ∃ u, u = ({ s with disp.staged := none, disp.commitDue := some g } : State).pixLeave g := ⟨_, rfl⟩
  have hou : Only [.disp, .clk, .regs 3] s u := by
    rw [hu]
    exact ((only_pixLeave _ g).mono (by simp)).after ((only_setDisp s _).mono (by simp))
  have hdu : u.disp = { s.disp with staged := none, commitDue := some g } := by
    rw [hu]
    exact only_pixLeave _ g .disp (by simp)
  have hrun : s.applyStaged k g (f + s.framePs k) = { u with disp := { u.disp with
      relock := some g, relockOld := some k, relockAt := s.clk.now, frameAt := none, lanes := 1 } } := by
    unfold State.applyStaged
    rw [hneed, hu]
    rfl
  rw [hrun, hdu] at hexec
  refine yields_done hexec ?_
  have hd := finish_disp s { u with disp := { s.disp with
      staged := none, commitDue := some g, relock := some g, relockOld := some k, relockAt := s.clk.now, frameAt := none, lanes := 1 } }
  rw [hd]
  exact ⟨rfl, rfl, rfl, rfl, rfl, rfl, rfl, (((only_setDisp u _).mono (by simp)).after hou).frame_finish⟩
theorem relockComplete_locked : ∀ (k : Nat) (s : State), s.disp.relock = some k → s.frozen = false → s.setCmd k = false → s.disp.stagedSource = none →
    s.disp.commitDue = some k → s.qEn 96 = false → Yields (.relockComplete true) s (fun t => t.disp.relock = none ∧ t.disp.active = some k ∧
      t.disp.frameAt = some s.nowPs ∧ t.disp.lanes = 2 ∧ t.disp.commitDue = none ∧ t.evc Blk.disp 2 = s.evc Blk.disp 2 + 1 ∧
      t.evc Blk.disp 5 = s.evc Blk.disp 5 + 1 ∧
      Frame [.disp, .clk, .regs 3, .regs 21] s t) := by
  intro k s hrel hf hcmd hsrc hcom hq
  have hpix := only_pixReturn s
  obtain ⟨u, hu⟩ : ∃ u, u = ({ s.pixReturn with disp.relock := none, disp.relockOld := none, disp.active := some k } : State) := ⟨_, rfl⟩
  have hou : Only [.disp, .clk, .regs 3] s u := by
    rw [hu]
    exact ((only_setDisp _ _).mono (by simp)).after (hpix.mono (by simp))
  have hdu : u.disp = { s.disp with relock := none, relockOld := none, active := some k } := by
    rw [hu]
    show ({ s.pixReturn.disp with relock := none, relockOld := none, active := some k } : Disp) = _
    rw [hpix .disp (by simp)]
  have hexec : exec (.relockComplete true) s = done s (u.beginFrame k s.nowPs true) := by
    show execRelockComplete true s = _
    unfold execRelockComplete
    rw [hrel]
    dsimp only
    rw [hf, hcmd, hu]
    rfl
  rw [State.beginFrame_commit (by rw [hdu]; exact hsrc) (by rw [hdu]; exact hcom) ((State.qEn_of_only hou (by decide) (by omega)).trans hq)] at hexec
  obtain ⟨v, hv⟩ : ∃ v, v = ({ u with disp := u.frameDisp k s.nowPs } : State) := ⟨_, rfl⟩
  rw [← hv] at hexec
  have hov : Only [.disp] u v := by rw [hv]; exact only_setDisp u _
  have hevc : ∀ j, j < 32 → v.evc Blk.disp j = s.evc Blk.disp j := fun j hj =>
    (hov.evc (b := Blk.disp) (by simp) hj).trans (hou.evc (b := Blk.disp) (by decide) hj)
  have hdv : v.disp = u.frameDisp k s.nowPs := by rw [hv]
  refine yields_done hexec ?_
  have hd : (finish s (((v.bump Blk.disp 2).bump Blk.disp 5).bump Blk.disp 8)).disp = v.disp := finish_disp _ _
  rw [hd, hdv]
  refine ⟨congrArg Disp.relock hdu, rfl, rfl, rfl, rfl, ?_, ?_, ?_⟩
  · rw [finish_evc _ _ (by decide) (by decide), State.evc_bump_of_ne _ (by decide), State.evc_bump_of_ne _ (by decide), State.evc_bump_self,
      hevc 2 (by decide)]
  · rw [finish_evc _ _ (by decide) (by decide), State.evc_bump_of_ne _ (by decide), State.evc_bump_self, State.evc_bump_of_ne _ (by decide),
      hevc 5 (by decide)]
  · exact (((only_bump _ Blk.disp (j := 8) (by decide)).mono (by decide)).after (((only_bump _ Blk.disp (j := 5) (by decide)).mono (by decide)).after
      (((only_bump v Blk.disp (j := 2) (by decide)).mono (by decide)).after ((hov.mono (by simp)).after (hou.mono (by simp)))))).frame_finish
theorem relockComplete_waits : ∀ (k : Nat) (s : State), s.disp.relock = some k → s.frozen = false → s.nowPs < s.disp.relockAt * 10000 + 2 * s.framePs k →
    Yields (.relockComplete false) s (fun t => t.disp = s.disp ∧ Frame [] s t) := by
  intro k s hrel hf hlt
  refine dispSame_yields ?_
  show execRelockComplete false s = _
  unfold execRelockComplete
  rw [hrel]
  dsimp only
  rw [hf]
  exact congrArg (done s) ((if_neg Bool.false_ne_true).trans ((if_neg Bool.false_ne_true).trans (if_pos hlt)))

/-! ## Lines -/

/-- Triples from the front of a list are its beginning. -/
theorem flatMap_triples {α : Type} (l : List α) (n : Nat) : (List.range n).flatMap (fun x => (l.drop (3 * x)).take 3) = l.take (3 * n) := by
  induction n with
  | zero => rfl
  | succ n ih =>
    rw [List.range_succ, List.flatMap_append, ih, Nat.mul_succ, List.take_add]
    simp
/-- A line all of whose bytes came in time and clean. -/
theorem linePixels_clean {fill : List Byte} {l : List (Byte × Bool)} {n : Nat} (hl : l.length = 3 * n) (hc : ∀ x ∈ l, x.2 = false) :
    linePixels fill l n n = (l.map (fun x => x.1), 0) := by
  have hpx : ∀ x ∈ List.range n, (if n ≤ x || ((l.drop (3 * x)).take 3).any (fun b => b.2) then none
      else some (((l.drop (3 * x)).take 3).map (fun b => b.1))) = some (((l.drop (3 * x)).take 3).map (fun b => b.1)) := by
    intro x hx
    have hany : ((l.drop (3 * x)).take 3).any (fun b => b.2) = false :=
      List.any_eq_false.2 fun b hb => by rw [hc b (List.mem_of_mem_drop (List.mem_of_mem_take hb))]; decide
    have := List.mem_range.1 hx
    exact if_neg (by rw [hany]; simp; omega)
  unfold linePixels
  dsimp only
  rw [List.map_congr_left hpx]
  refine Prod.ext ?_ ?_
  · show List.flatMap _ (List.map _ _) = _
    rw [List.flatMap_map]
    show (List.range n).flatMap (fun x => ((l.drop (3 * x)).take 3).map (fun b => b.1)) = _
    rw [← List.map_flatMap, flatMap_triples, ← hl, List.take_length]
  · show (List.filter _ (List.map _ _)).length = 0
    rw [List.filter_map, List.length_map, List.length_eq_zero_iff, List.filter_eq_nil_iff]
    exact fun x _ => Bool.false_ne_true
/-- A line of which nothing came in time. -/
theorem linePixels_late (fill : List Byte) (l : List (Byte × Bool)) (n : Nat) : linePixels fill l n 0 = ((List.replicate n fill).flatten, n) := by
  have hpx : ∀ x ∈ List.range n, (if 0 ≤ x || ((l.drop (3 * x)).take 3).any (fun b => b.2) then none
      else some (((l.drop (3 * x)).take 3).map (fun b => b.1))) = none := fun x _ => if_pos (by simp)
  unfold linePixels
  dsimp only
  rw [List.map_congr_left hpx, List.map_const', List.length_range]
  refine Prod.ext ?_ ?_
  · show List.flatMap _ _ = _
    rw [List.flatMap_replicate]
    rfl
  · show (List.filter _ (List.replicate n none)).length = n
    rw [List.filter_replicate_of_pos rfl, List.length_replicate]

section
variable {s : State} {n f k : Nat}
/-- The line that is due, of a plane or of FILL. -/
theorem exec_lineStart (hat : s.disp.frameAt = some f) (hact : s.disp.active = some k) (hv : s.dispVideo = true) (hy : s.disp.line < s.setVact k)
    (hdue : f + s.toActivePs k + s.linesPs k s.disp.line ≤ s.nowPs) (hf : s.frozen = false) (hh : s.isHalted Blk.disp = false)
    (hne : s.disp.source ≠ 2) :
    (s.disp.scan = .fill → exec (.lineStart n) s = done s { s with
      disp.line := s.disp.line + 1, disp.out := (List.replicate (s.setHact k) (s.fillPixel k)).flatten }) ∧
    (∀ a stride l px m, s.disp.scan = .plane a stride →
      s.fetchBytes Config.mDisp (s.disp.owner % 32) (a + s.disp.line * stride) (3 * s.setHact k) = (some l, s) →
      linePixels (s.fillPixel k) l (s.setHact k) n = (px, m) → exec (.lineStart n) s = done s (
        if m ≠ 0 ∧ !s.disp.underflowed then
          { ({ s with disp.line := s.disp.line + 1, disp.out := px } : State).bumpInfo Blk.disp 3 0x170
              (at_ s.disp.line 16 16 ||| at_ m 0 16) with disp.underflowed := true }
        else { s with disp.line := s.disp.line + 1, disp.out := px })) := by
  have hgo : ¬((!s.dispVideo || decide (s.setVact k ≤ s.disp.line) || decide (s.nowPs < f + s.toActivePs k + s.linesPs k s.disp.line) ||
      s.frozen || s.isHalted Blk.disp) = true) := by
    simp [hv, hf, hh]
    omega
  have hexec : exec (.lineStart n) s = execLineStart n s := rfl
  unfold execLineStart at hexec
  rw [hat, hact] at hexec
  dsimp only at hexec
  rw [if_neg hgo, if_neg (fun h => hne h.2)] at hexec
  refine ⟨fun hscan => ?_, fun a stride l px m hscan hfetch hpx => ?_⟩
  · rw [hexec]
    split
    · rfl
    · next h => cases hscan.symm.trans h
  · rw [hexec]
    split
    · next h => cases hscan.symm.trans h
    · next h =>
      obtain ⟨rfl, rfl⟩ := ScanSrc.plane.inj (hscan.symm.trans h)
      rw [hfetch]
      dsimp only
      rw [hpx]
end
theorem lineStart_fill : ∀ (n f k : Nat) (s : State), s.disp.frameAt = some f → s.disp.active = some k → s.dispVideo = true → s.disp.line < s.setVact k →
    f + s.toActivePs k + s.linesPs k s.disp.line ≤ s.nowPs → s.frozen = false → s.isHalted Blk.disp = false → s.disp.scan = .fill →
    s.disp.source ≠ 2 → Yields (.lineStart n) s (fun t => t.disp = { s.disp with
        line := s.disp.line + 1, out := (List.replicate (s.setHact k) (s.fillPixel k)).flatten } ∧ Frame [.disp] s t) := by
  intro n f k s hat hact hv hy hdue hf hh hscan hne
  exact disp_yields ((exec_lineStart hat hact hv hy hdue hf hh hne).1 hscan) fun t hd hfr => ⟨hd, hfr⟩
theorem lineStart_plane : ∀ (f k a stride : Nat) (l : List (Byte × Bool)) (s : State), s.disp.frameAt = some f → s.disp.active = some k → s.dispVideo = true →
    s.disp.line < s.setVact k → f + s.toActivePs k + s.linesPs k s.disp.line ≤ s.nowPs → s.frozen = false → s.isHalted Blk.disp = false →
    s.disp.scan = .plane a stride → s.disp.source ≠ 2 →
    s.fetchBytes Config.mDisp (s.disp.owner % 32) (a + s.disp.line * stride) (3 * s.setHact k) = (some l, s) →
    l.length = 3 * s.setHact k → (∀ x ∈ l, x.2 = false) → Yields (.lineStart (s.setHact k)) s (fun t => t.disp = { s.disp with
        line := s.disp.line + 1, out := l.map (fun x => x.1) } ∧ Frame [.disp] s t) := by
  intro f k a stride l s hat hact hv hy hdue hf hh hscan hne hfetch hl hc
  have hexec := (exec_lineStart (n := s.setHact k) hat hact hv hy hdue hf hh hne).2 a stride l _ _ hscan hfetch (linePixels_clean hl hc)
  exact disp_yields (hexec.trans (congrArg (done s) (if_neg (by simp)))) fun t hd hfr => ⟨hd, hfr⟩
theorem lineStart_late : ∀ (f k a stride : Nat) (l : List (Byte × Bool)) (s : State), s.disp.frameAt = some f → s.disp.active = some k → s.dispVideo = true →
    s.disp.line < s.setVact k → f + s.toActivePs k + s.linesPs k s.disp.line ≤ s.nowPs → s.frozen = false → s.isHalted Blk.disp = false →
    s.disp.scan = .plane a stride → s.disp.source ≠ 2 → 0 < s.setHact k → s.disp.underflowed = false →
    s.fetchBytes Config.mDisp (s.disp.owner % 32) (a + s.disp.line * stride) (3 * s.setHact k) = (some l, s) →
    Yields (.lineStart 0) s (fun t => t.disp = { s.disp with
        line := s.disp.line + 1, out := (List.replicate (s.setHact k) (s.fillPixel k)).flatten, underflowed := true } ∧
      t.evc Blk.disp 3 = s.evc Blk.disp 3 + 1 ∧
      (s.pend Blk.disp 3 = false → t.reg Blk.disp 0x170 = (at_ s.disp.line 16 16 ||| at_ (s.setHact k) 0 16)) ∧ Frame [.disp, .regs 21] s t) := by
  intro f k a stride l s hat hact hv hy hdue hf hh hscan hne hpos hunder hfetch
  have hexec := (exec_lineStart (n := 0) hat hact hv hy hdue hf hh hne).2 a stride l _ _ hscan hfetch (linePixels_late _ _ _)
  rw [if_pos ⟨by omega, by rw [hunder]; rfl⟩] at hexec
  obtain ⟨u, hu⟩ : ∃ u, u = ({ s with
    disp.line := s.disp.line + 1, disp.out := (List.replicate (s.setHact k) (s.fillPixel k)).flatten } : State) := ⟨_, rfl⟩
  rw [← hu] at hexec
  have hou : Only [.disp] s u := by rw [hu]; exact only_setDisp s _
  have hob := only_bumpInfo u Blk.disp (j := 3) (off := 0x170) (by decide) (by decide) (at_ s.disp.line 16 16 ||| at_ (s.setHact k) 0 16)
  refine yields_done hexec ⟨?_, ?_, fun hp => ?_, ?_⟩
  · rw [finish_disp]
    show ({ (State.bumpInfo u _ _ _ _).disp with underflowed := true } : Disp) = _
    rw [hob .disp (by decide), hu]
  · rw [finish_evc _ _ (by decide) (by decide)]
    exact (State.evc_bumpInfo_self u _ _ _ _).trans (by rw [hou.evc (b := Blk.disp) (by simp) (by decide)])
  · rw [finish_reg _ _ (by decide) not_tripBlk_disp]
    exact State.reg_bumpInfo_self _ _ (by rw [hu]; exact hp)
  · exact (((only_setDisp _ _).mono (by simp)).after ((hob.mono (by decide)).after (hou.mono (by simp)))).frame_finish
theorem dispFlipWrite_yields : ∀ (v : Word) (s : State), Yields (.dispFlipWrite v) s (fun t => t.reg Blk.disp 0x16C = (v &&& 0xFFFFFFC0) ∧ t.disp = s.disp ∧
    Frame [.regs 21] s t) := by
  intro v s
  refine yields_done (s' := s.flipWrite v) rfl ⟨?_, finish_disp _ _, ((only_setReg s Blk.disp (by decide) _).mono (by decide)).frame_finish⟩
  rw [finish_reg _ _ (by decide) not_tripBlk_disp]
  exact State.reg_setReg_self _ _ _ _

/-- Settles O52: one case of DISP_TIMING, of the panel's sequences, of a frame's start and of a line for each clause. -/
theorem displayFrames : Obligations.DisplayFrames := by
  unfold Obligations.DisplayFrames
  exact ⟨⟨dispTiming_store, dispTiming_commit, dispTiming_on, dispTiming_off, panelOnStep_yields, panelOffStep_yields⟩,
    frameStart_yields, frameStart_relock, relockComplete_locked, relockComplete_waits, lineStart_fill, lineStart_plane, lineStart_late,
    dispFlipWrite_yields⟩

end Sys2Proof.Machine
end
section
/-! Frame synthesis: mould images, the unit's configuration and its assist flask (R806 to R822). -/
namespace Sys2Proof.Machine
open Sys2Proof

/-! ## Rules of the unit -/

section
variable {i : Instr} {s : State} {x : Fsu} {m : Nat} {r : Resp} {P : State → Prop}
/-- A change of the unit's own state. -/
theorem fsu_yields (h : exec i s = done s { s with fsu := x }) (hp : ∀ t, t.fsu = x → Frame [.fsu] s t → P t) : Yields i s P :=
  yields_done h (hp _ (finish_fsu _ _) (only_setFsu s x).frame_finish)
/-- The same with an answer. -/
theorem fsuReply_yields (h : exec i s = done s (({ s with fsu := x } : State).reply m r))
    (hp : ∀ t, t.fsu = x → t.answers m r → Frame [.fmn, .fsu] s t → P t) : Yields i s P :=
  yields_done h (hp _ (finish_fsu _ _) (finish_answers _ _ _ _) (((only_reply _ m r).mono (by simp)).after
    ((only_setFsu s x).mono (by simp))).frame_finish)
/-- A command refused. -/
theorem fsuRefuse_yields {code detail : Nat} (h : exec i s = done s (s.refuse m code detail)) :
    Yields i s (fun t => t.refuses m code detail ∧ t.fsu = s.fsu ∧ Frame [.fmn] s t) :=
  yields_done h ⟨⟨_, finish_answers _ _ _ _, rfl, rfl⟩, finish_fsu _ _, (only_reply s m _).frame_finish⟩
/-- A step that does nothing leaves the unit. -/
theorem fsuSame_yields (h : exec i s = done s s) : Yields i s (fun t => t.fsu = s.fsu ∧ Frame [] s t) :=
  yields_done h ⟨finish_fsu _ _, (Only.refl [] s).frame_finish⟩
end
theorem State.fsuPush_off {s : State} (h : s.qEn 92 = false) (body : List Byte) : s.fsuPush body = s.bump Blk.fsu 9 := if_pos (by rw [h]; rfl)
theorem only_cover {s u : State} {a len kind id orm owm attr : Nat} (h : s.cover a len kind id orm owm attr = some u) : Only [.regs Blk.mem] s u := by
  unfold State.cover at h
  split at h
  · cases h
  · next e he =>
    rw [← Option.some.inj h]
    exact only_setEntry s (State.freeEntry_lt he) _ _ _ _ _ _ _ _
theorem not_tripBlk_fsu : ¬tripBlk Blk.fsu := by unfold tripBlk Blk.fsu; omega

/-! ## Mould images -/

theorem only_foldl_snd {α : Type} {l : List StatePart} {f : α × State → Nat → α × State} (h : ∀ a c, Only l a.2 (f a c).2) (cs : List Nat) :
    ∀ a : α × State, Only l a.2 (cs.foldl f a).2 := by
  induction cs with
  | nil => exact fun a => Only.refl l a.2
  | cons c cs ih => exact fun a => (ih _).after (h a c)
/-! A definition is opened as a function and the accesses are variables in the proofs: checking them evaluates no access. -/

theorem mouldCopy_def : State.mouldCopy = fun s c b img => match s.demandWrite Config.mFsu (bankAddr c b) img with
    | (_, u) => match u.demandRead Config.mFsu (bankAddr c b) img.length with
      | (d, p, v) => (!p && crc32c (d.drop 64) == bytesAt d 0x38 4, v) := rfl
theorem only_mouldCopy (s : State) (c b : Nat) (img : List Byte) : Only memParts s (s.mouldCopy c b img).2 := by
  have hw := only_demandWrite
  have hr := only_demandRead
  rw [mouldCopy_def]
  obtain ⟨write, hwrite⟩ : ∃ f, f = State.demandWrite := ⟨_, rfl⟩
  obtain ⟨read, hread⟩ : ∃ f, f = State.demandRead := ⟨_, rfl⟩
  rw [← hwrite] at hw ⊢
  rw [← hread] at hr ⊢
  exact (hr _ _ _ _).after (hw s _ _ img)
section
variable (s : State) (m b : Nat) (wide : Bool)
/-- The image's header, the state behind its read, and the image. -/
def State.loadHead : List Byte := (s.demandRead Config.mForeman (s.rq m 0x10 8) 64).1
def State.loadImage : List Byte :=
  ((s.demandRead Config.mForeman (s.rq m 0x10 8) 64).2.2.demandRead Config.mForeman (s.rq m 0x10 8) (min 524288 (bytesAt (s.loadHead m) 8 4))).1
/-- The bank as the load leaves it. -/
def State.loadedBank (v : State) : State :=
  { v.setBank b 1 wide with
    fsu.load := none
    fsu.ready := some b
    fsu.headA := if b = 0 then s.loadHead m else v.fsu.headA
    fsu.headB := if b = 1 then s.loadHead m else v.fsu.headB }
end
/-- Behind its copies a load ends with its bank VALID, or INVALID. -/
theorem mouldFinish_opened : ∃ F, State.mouldFinish = F ∧ ∀ s m b wide, ∃ v, Only memParts s v ∧ (F s m b wide = v.loadFails m b wide rStateConflict 5 ∨
    F s m b wide = (s.loadedBank m b wide v).replyDone m
      (leBytes 8 (bytesAt (s.loadHead m) 0x10 8) ++ leBytes 4 (Config.mouldCycles (s.loadImage m)))) := by
  have hr := only_demandRead
  have hc := only_mouldCopy
  delta State.mouldFinish
  refine ⟨_, rfl, fun s m b wide => ?_⟩
  unfold State.loadImage State.loadedBank State.loadHead
  obtain ⟨read, hread⟩ : ∃ f, f = State.demandRead := ⟨_, rfl⟩
  obtain ⟨copy, hcopy⟩ : ∃ f, f = State.mouldCopy := ⟨_, rfl⟩
  rw [← hread] at hr ⊢
  rw [← hcopy] at hc ⊢
  dsimp only
  generalize hf : List.foldl _ _ _ = p
  have hp : Only memParts s p.2 := by
    rw [← hf]
    refine (only_foldl_snd (l := memParts) (fun a c => ?_) _ _).after ((hr _ _ _ _).after (hr s _ _ _))
    exact hc a.2 c b _
  refine ⟨p.2, hp, ?_⟩
  split
  · exact .inl rfl
  · exact .inr rfl
theorem State.mouldFinish_cases (s : State) (m b : Nat) (wide : Bool) : ∃ v, Only memParts s v ∧
    (s.mouldFinish m b wide = v.loadFails m b wide rStateConflict 5 ∨ s.mouldFinish m b wide = (s.loadedBank m b wide v).replyDone m
      (leBytes 8 (bytesAt (s.loadHead m) 0x10 8) ++ leBytes 4 (Config.mouldCycles (s.loadImage m)))) := by
  obtain ⟨F, hF, h⟩ := mouldFinish_opened
  rw [hF]
  exact h s m b wide
theorem mouldLoad_yields : ∀ (m : MbId) (b : Nat) (wide : Bool) (s : State), s.fsu.load = some (m.val, b, wide) → b < 2 → s.frozen = false → Yields (.mouldLoad m) s (fun t =>
      t.fsu.load = none ∧ t.fsu.active = s.fsu.active ∧ t.fsu.st = s.fsu.st ∧
      let h := (s.demandRead Config.mForeman (s.rq m.val 0x10 8) 64).1
      let u := (s.demandRead Config.mForeman (s.rq m.val 0x10 8) 64).2.2
      let img := (u.demandRead Config.mForeman (s.rq m.val 0x10 8) (min 524288 (bytesAt h 8 4))).1
      ((t.doneWith m.val (leBytes 8 (bytesAt h 0x10 8) ++ leBytes 4 (Config.mouldCycles img)) ∧ t.fsu.ready = some b ∧
          (if b = 0 then t.fsu.bankA else t.fsu.bankB) = 1 ∧ t.fsu.head b = h) ∨
        (t.refuses m.val rStateConflict 5 ∧ (if b = 0 then t.fsu.bankA else t.fsu.bankB) = 0 ∧ t.fsu.ready ≠ some b))) := by
  intro m b wide s hl hb hf
  have hexec : exec (.mouldLoad m) s = done s (s.mouldFinish m.val b wide) := by
    show execMouldLoad m s = _
    unfold execMouldLoad
    rw [hl]
    exact congrArg (done s) (if_pos ⟨rfl, by rw [hf]; rfl⟩)
  obtain ⟨v, hv, hfin⟩ := s.mouldFinish_cases m.val b wide
  have hfsu : v.fsu = s.fsu := hv .fsu (by simp)
  rcases hfin with h | h
  · rw [h] at hexec
    refine yields_done hexec ?_
    have ht := finish_fsu s (v.loadFails m.val b wide rStateConflict 5)
    rw [ht]
    have hx : (v.loadFails m.val b wide rStateConflict 5).fsu = { s.fsu with
        bankA := if b = 0 || wide then 0 else s.fsu.bankA, bankB := if b = 1 || wide then 0 else s.fsu.bankB
        ready := s.fsu.ready.filter (fun r => r != b && !wide), load := none } := by
      show ({ v.fsu with
        bankA := if b = 0 || wide then 0 else v.fsu.bankA, bankB := if b = 1 || wide then 0 else v.fsu.bankB
        ready := v.fsu.ready.filter (fun r => r != b && !wide), load := none } : Fsu) = _
      rw [hfsu]
    rw [hx]
    refine ⟨rfl, rfl, rfl, .inr ⟨⟨_, finish_answers _ _ _ _, rfl, rfl⟩, ?_, ?_⟩⟩
    · by_cases h0 : b = 0
      · simp [h0]
      · have h1 : b = 1 := by omega
        simp [h1]
    · intro hr
      have := Option.filter_eq_some_iff.1 hr
      simp at this
  · rw [h] at hexec
    refine yields_done hexec ?_
    have ht := finish_fsu s ((s.loadedBank m.val b wide v).replyDone m.val
      (leBytes 8 (bytesAt (s.loadHead m.val) 0x10 8) ++ leBytes 4 (Config.mouldCycles (s.loadImage m.val))))
    rw [ht]
    refine ⟨rfl, (congrArg Fsu.active hfsu :), (congrArg Fsu.st hfsu :), .inl ⟨finish_answers _ _ _ _, rfl, ?_, ?_⟩⟩
    · show (if b = 0 then (if b = 0 || wide then 1 else v.fsu.bankA) else (if b = 1 || wide then 1 else v.fsu.bankB)) = 1
      by_cases h0 : b = 0
      · simp [h0]
      · have h1 : b = 1 := by omega
        simp [h1]
    · show (if b = 0 then (if b = 0 then s.loadHead m.val else v.fsu.headA) else (if b = 1 then s.loadHead m.val else v.fsu.headB)) = _
      by_cases h0 : b = 0
      · rw [if_pos h0, if_pos h0]
        rfl
      · rw [if_neg h0, if_pos (by omega)]
        rfl
theorem mouldLoad_other : ∀ (m k : MbId) (b : Nat) (wide : Bool) (s : State), s.fsu.load = some (k.val, b, wide) → k ≠ m → Yields (.mouldLoad m) s (fun t =>
      t.fsu = s.fsu ∧ Frame [] s t) := by
  intro m k b wide s hl hne
  refine fsuSame_yields ?_
  show execMouldLoad m s = _
  unfold execMouldLoad
  rw [hl]
  exact congrArg (done s) (if_neg fun h => hne (Fin.ext h.1))

/-! ## Configuration -/

theorem State.fsuConfigure_covers {s u : State} {m : Nat} (hst : s.fsu.st = 0) (hpwr : 2 ≤ s.aon.pwr) (hact : s.fsu.active = none)
    (hsrc : s.rq m 0x15 1 = 1) (hcov : s.cover (s.rq m 0x20 4) (s.rq m 0x1F 1 * s.rq m 0x24 4) 2 0 0x5800 0x0800 0 = some u) : s.fsuConfigure m =
      ({ ((List.range 10).foldl (fun s k => s.setReg Blk.fsu (0x200 + 4 * k) (BitVec.ofNat 32 (s.rq m (0x10 + 4 * k) 4))) u).queueEnable 92
        (s.rq m 0x11 1) with fsu.st := 1 } : State).replyDone m := by
  refine (if_neg (by omega)).trans ((if_neg (by omega)).trans ((if_neg ?_).trans ((if_neg fun h => absurd (hsrc.symm.trans h.1) (by decide)).trans ?_)))
  · unfold State.activeHead
    rw [hact]
    exact Bool.false_ne_true
  · rw [if_neg (show ¬s.fsu.st = 1 by omega)]
    dsimp only
    rw [hcov]
theorem fsuConfig_configure : ∀ (m : MbId) (u : State) (s : State), s.rq m.val 0x10 1 = 0 → s.asks m.val 0x0602 0x26 ((0x10, 1, true) :: s.fsuFields m.val) →
    s.fsu.st = 0 → 2 ≤ s.aon.pwr → s.fsu.active = none → s.rq m.val 0x15 1 = 1 →
    s.cover (s.rq m.val 0x20 4) (s.rq m.val 0x1F 1 * s.rq m.val 0x24 4) 2 0 0x5800 0x0800 0 = some u → Yields (.fsuConfig m) s (fun t =>
      t.doneWith m.val [] ∧ t.fsu = { s.fsu with st := 1 } ∧ t.qEn 92 = true ∧
      (∀ k, k < 10 → t.reg Blk.fsu (0x200 + 4 * k) = BitVec.ofNat 32 (s.rq m.val (0x10 + 4 * k) 4)) ∧
      Frame [.fmn, .fsu, .queues, .regs Blk.fsu, .regs Blk.que, .regs Blk.mem] s t) := by
  intro m u s h0 hask hst hpwr hact hsrc hcov
  have hou := only_cover hcov
  obtain ⟨hput, -⟩ := foldl_setReg_eq (v := fun w k => BitVec.ofNat 32 (State.rq w m.val (0x10 + 4 * k) 4)) (fun _ _ _ _ _ => rfl) u Blk.fsu 0x200 10
  have hmb : ∀ o n, u.rq m.val o n = s.rq m.val o n := fun o n => congrArg (fun x : Mailbox => bytesAt x.copy o n) (hou.mb (by simp) m.val)
  obtain ⟨w, hw⟩ : ∃ w, w = u.putWords Blk.fsu 0x200 10 (fun k => BitVec.ofNat 32 (s.rq m.val (0x10 + 4 * k) 4)) := ⟨_, rfl⟩
  have hputw : (List.range 10).foldl (fun s k => s.setReg Blk.fsu (0x200 + 4 * k) (BitVec.ofNat 32 (s.rq m.val (0x10 + 4 * k) 4))) u = w := by
    rw [hput, hw]
    simp only [hmb]
  have how : Only [.regs Blk.fsu] u w := by rw [hw]; exact only_putWords u _ _ _ (by omega)
  obtain ⟨v, hv⟩ : ∃ v, v = w.queueEnable 92 (s.rq m.val 0x11 1) := ⟨_, rfl⟩
  have hov : Only [.queues, .regs Blk.que] w v := by rw [hv]; exact only_queueEnable w (by omega) _
  have hexec : exec (.fsuConfig m) s = done s (({ v with fsu.st := 1 } : State).replyDone m.val) := by
    show execFsuConfig m s = _
    unfold execFsuConfig
    dsimp only
    have hlt : decide (s.rq m.val 0x10 1 < 4) = true := decide_eq_true (h0.trans_lt (by decide))
    rw [hlt, h0]
    refine congrArg (done s) ((State.request_asks _ hask).trans ?_)
    refine (State.fsuConfigure_covers hst hpwr hact hsrc hcov).trans ?_
    rw [hputw, hv]
  have hvfsu : v.fsu = s.fsu := (hov .fsu (by simp)).trans ((how .fsu (by simp)).trans (hou .fsu (by simp)))
  refine yields_done hexec ⟨finish_answers _ _ _ _, ?_, ?_, fun k hk => ?_, ?_⟩
  · rw [finish_fsu]
    show ({ v.fsu with st := 1 } : Fsu) = _
    rw [hvfsu]
  · have hen : v.qEn 92 = true := by rw [hv]; exact w.qEn_queueEnable 92 _
    exact (State.qEn_congr (by omega) fun o ho => (finish_reg _ _ ho not_tripBlk_que).trans rfl).trans hen
  · rw [finish_reg _ _ (by omega) not_tripBlk_fsu]
    show v.reg Blk.fsu (0x200 + 4 * k) = _
    rw [hov.reg (b := Blk.fsu) (by decide) (by omega), hw, State.reg_putWords _ _ _ _ (by omega) hk]
  · exact (((only_reply _ _ _).mono (by simp)).after (((only_setFsu v _).mono (by simp)).after ((hov.mono (by simp)).after
      ((how.mono (by simp)).after (hou.mono (by simp)))))).frame_finish
theorem fsuConfig_actions : ∀ (m : MbId) (a : Nat) (s : State), s.rq m.val 0x10 1 = a → s.asks m.val 0x0602 1 [(0x10, 1, decide (a < 4))] →
    (a = 1 → s.fsu.st = 1 → 2 ≤ s.aon.pwr → s.fsu.active = none → Yields (.fsuConfig m) s (fun t => t.doneWith m.val [] ∧
      t.fsu.st = 2 ∧ t.fsu.k = 0 ∧ t.fsu.n = none ∧ t.fsu.later = [] ∧ t.fsu.build = none ∧ t.fsu.lastOut = none ∧ Frame [.fmn, .fsu] s t)) ∧
    (a = 1 → s.fsu.st = 1 → s.aon.pwr < 2 → Yields (.fsuConfig m) s (fun t => t.refuses m.val rStateConflict 2 ∧ t.fsu = s.fsu ∧
      Frame [.fmn] s t)) ∧
    (a = 2 → s.fsu.st = 2 → s.fsu.stopping = false → s.fsu.build.isSome = true → Yields (.fsuConfig m) s (fun t =>
      t.fsu = { s.fsu with stopping := true, stopMb := some m.val } ∧ (t.mb m.val).waiting = true ∧ Frame [.fmn, .fsu] s t)) ∧
    (a = 2 → s.fsu.st = 2 → s.fsu.stopping = false → s.fsu.build = none → s.qEn 92 = false → Yields (.fsuConfig m) s (fun t =>
      t.doneWith m.val [] ∧ t.fsu.st = 1 ∧ t.fsu.n = none ∧ t.fsu.later = [] ∧ t.fsu.stopping = false ∧
      t.evc Blk.fsu 9 = s.evc Blk.fsu 9 + 1 ∧ Frame [.fmn, .fsu, .regs Blk.fsu] s t)) ∧
    (a = 3 → s.fsu.st = 2 → Yields (.fsuConfig m) s (fun t => t.refuses m.val rStateConflict 1 ∧ t.fsu = s.fsu ∧ Frame [.fmn] s t)) ∧
    (a = 3 → s.fsu.st = 0 → Yields (.fsuConfig m) s (fun t => t.refuses m.val rAlreadyDone 0 ∧ t.fsu = s.fsu ∧ Frame [.fmn] s t)) := by
  intro m a s ha hask
  subst ha
  by_cases h0 : s.rq m.val 0x10 1 = 0
  · rw [h0]
    exact ⟨fun h => by omega, fun h => by omega, fun h => by omega, fun h => by omega, fun h => by omega, fun h => by omega⟩
  have hexec : exec (.fsuConfig m) s = execFsuConfig m s := rfl
  unfold execFsuConfig at hexec
  dsimp only at hexec
  rw [if_neg h0, if_neg h0, State.request_asks _ hask] at hexec
  refine ⟨fun h hst hpwr hact => ?_, fun h hst hpwr => ?_, fun h hst hstop hb => ?_, fun h hst hstop hb hq => ?_, fun h hst => ?_, fun h hst => ?_⟩
  all_goals rw [h] at hexec
  · refine fsuReply_yields (hexec.trans (congrArg (done s) ((if_neg (by omega)).trans ((if_neg (by omega)).trans ((if_neg (by omega)).trans
      (if_neg ?_)))))) fun t hf ha hfr => ⟨ha, by rw [hf], by rw [hf], by rw [hf], by rw [hf], by rw [hf], by rw [hf], hfr⟩
    unfold State.activeHead
    rw [hact]
    exact Bool.false_ne_true
  · exact fsuRefuse_yields (hexec.trans (congrArg (done s) ((if_neg (by omega)).trans ((if_neg (by omega)).trans (if_pos hpwr)))))
  · have hrun := hexec.trans (congrArg (done s) ((if_neg (by omega)).trans ((if_neg (by omega)).trans ((if_neg (by rw [hstop]; decide)).trans (if_pos hb)))))
    refine yields_done hrun ⟨finish_fsu _ _, ?_, ?_⟩
    · rw [finish_mb]
      exact congrArg Mailbox.waiting (Tab.get_set_self mbReset s.fmn.mbs m.val _)
    · exact (((only_setMb _ _ _).mono (by simp)).after ((only_setFsu s _).mono (by simp))).frame_finish
  · have hrun := hexec.trans (congrArg (done s) ((if_neg (by omega)).trans ((if_neg (by omega)).trans ((if_neg (by rw [hstop]; decide)).trans
      (if_neg (by rw [hb]; decide))))))
    obtain ⟨u, hu⟩ : ∃ u, u = ({ s with fsu.stopping := true, fsu.stopMb := some m.val } : State) := ⟨_, rfl⟩
    have hstopped : u.fsuStopped = { (u.bump Blk.fsu 9).replyDone m.val with
        fsu.st := 1, fsu.n := none, fsu.later := [], fsu.j := 0, fsu.build := none, fsu.stopping := false, fsu.stopMb := none } := by
      have hqu : u.qEn 92 = false := by rw [hu]; exact hq
      have hmbu : u.fsu.stopMb = some m.val := by rw [hu]
      unfold State.fsuStopped
      dsimp only
      rw [State.fsuPush_off hqu, if_neg (fun h => h rfl), hmbu]
    rw [← hu, hstopped] at hrun
    have hou : Only [.fsu] s u := by rw [hu]; exact only_setFsu s _
    refine yields_done hrun ⟨?_, ?_, ?_, ?_, ?_, ?_, ?_⟩
    · exact finish_answers s { u.bump Blk.fsu 9 with
        fsu.st := 1, fsu.n := none, fsu.later := [], fsu.j := 0, fsu.build := none, fsu.stopping := false, fsu.stopMb := none } m.val _
    · rw [finish_fsu]
    · rw [finish_fsu]
    · rw [finish_fsu]
    · rw [finish_fsu]
    · rw [finish_evc _ _ (by decide) (by decide)]
      exact (State.evc_bump_self u _ _).trans (by rw [hou.evc (b := Blk.fsu) (by simp) (by decide)])
    · exact (((only_setFsu _ _).mono (by simp)).after (((only_reply _ _ _).mono (by simp)).after
        (((only_bump u Blk.fsu (j := 9) (by decide)).mono (by simp)).after (hou.mono (by simp))))).frame_finish
  · exact fsuRefuse_yields (hexec.trans (congrArg (done s) ((if_neg (by omega)).trans (if_pos hst))))
  · exact fsuRefuse_yields (hexec.trans (congrArg (done s) (if_pos hst)))

/-! ## The assist flask -/

theorem State.nextTable_unstaged {s : State} {f : Nat} (h : (s.flask f).staged = none) : s.nextTable f = (s.slices f, (s.flask f).slack) := by
  unfold State.nextTable
  rw [h]
theorem fsuAssist_lend : ∀ (m : MbId) (f : Nat) (u : State) (s : State), s.rq m.val 0x10 1 = f → s.rq m.val 0x11 1 = 0 → (
      let q := fun o n => s.rq m.val o n
      s.asks m.val 0x0603 0x1C [(0x10, 1, decide (f < 8)), (0x11, 1, true), (0x14, 4, decide (50 ≤ q 0x14 4 ∧ q 0x14 4 ≤ 16777215)),
        (0x18, 4, decide (10 ≤ q 0x18 4 ∧ q 0x18 4 ≤ 16777215)), (0x20, 8, q 0x20 8 % 4096 == 0 && ingotRange (q 0x20 8) (q 0x28 4)),
        (0x28, 4, q 0x28 4 != 0 && q 0x28 4 % 4096 == 0)]) →
    (s.flask f).built = true → s.fsu.lent = none → s.assistImage = true → (s.flask f).staged = none → (s.slices f).length < 16 →
    (s.flask f).n ≠ 0 → s.aon.pwr = 3 → s.cover (s.rq m.val 0x20 8) (s.rq m.val 0x28 4) 2 0 0x0801 0x0801 0 = some u →
    Yields (.fsuAssist m) s (fun t => t.doneWith m.val [] ∧ t.fsu = { s.fsu with
        lent := some f, lentBudget := s.rq m.val 0x18 4, assistBase := s.rq m.val 0x20 8, assistSize := s.rq m.val 0x28 4 } ∧
      (t.flask f).staged = some (s.slices f ++ [(32, s.rq m.val 0x14 4)], (s.flask f).slack) ∧
      (∀ g, g ≠ f → t.flask g = s.flask g) ∧ Frame [.fmn, .fsu, .sch, .regs Blk.mem] s t) := by
  intro m f u s hf h0 hask hbuilt hlent himg hstg hlen hn hpwr hcov
  have hou := only_cover hcov
  have hflask : ∀ g, u.flask g = s.flask g := fun g => congrArg (fun x : Sch => Tab.get flaskReset x.flasks g) (hou .sch (by simp))
  obtain ⟨v, hv⟩ : ∃ v, v = ({ u with
      fsu.lent := some f, fsu.lentBudget := s.rq m.val 0x18 4, fsu.assistBase := s.rq m.val 0x20 8, fsu.assistSize := s.rq m.val 0x28 4 } : State) :=
    ⟨_, rfl⟩
  have hov : Only [.fsu] u v := by rw [hv]; exact only_setFsu u _
  have hexec : exec (.fsuAssist m) s = done s ((v.stageTable f (s.slices f ++ [(32, s.rq m.val 0x14 4)]) (s.flask f).slack).replyDone m.val) := by
    show execFsuAssist m s = _
    unfold execFsuAssist
    dsimp only
    beta_reduce
    have hlt : decide (s.rq m.val 0x11 1 < 2) = true := decide_eq_true (h0.trans_lt (by decide))
    have hlend : (s.rq m.val 0x11 1 == 0) = true := beq_iff_eq.2 h0
    rw [hlt, hlend, hf]
    refine congrArg (done s) ((State.request_asks _ hask).trans ?_)
    rw [if_pos rfl, hbuilt, hlent, himg, State.nextTable_unstaged hstg, if_neg (by decide), if_neg (fun h => by cases h), if_neg (by decide),
      if_neg (by decide)]
    dsimp only
    rw [if_neg (by omega), hcov, hv]
  have hstage : v.stageTable f (s.slices f ++ [(32, s.rq m.val 0x14 4)]) (s.flask f).slack =
      v.setFlask f { s.flask f with staged := some (s.slices f ++ [(32, s.rq m.val 0x14 4)], (s.flask f).slack) } := by
    have hfv : v.flask f = s.flask f := (congrArg (fun x : Sch => Tab.get flaskReset x.flasks f) (hov .sch (by simp))).trans (hflask f)
    have hp : v.aon.pwr = 3 := by rw [hov.aon (by simp), hou.aon (by simp), hpwr]
    unfold State.stageTable
    rw [hfv, hp, if_neg (by simp [hn])]
  rw [hstage] at hexec
  refine yields_done hexec ⟨finish_answers _ _ _ _, ?_, ?_, fun g hg => ?_, ?_⟩
  · rw [finish_fsu]
    show v.fsu = _
    rw [hv]
    show ({ u.fsu with lent := some f, lentBudget := s.rq m.val 0x18 4, assistBase := s.rq m.val 0x20 8, assistSize := s.rq m.val 0x28 4 } : Fsu) = _
    rw [hou .fsu (by simp)]
  · rw [finish_flask]
    exact congrArg Flask.staged (State.flask_setFlask_self v f _)
  · rw [finish_flask]
    refine (State.flask_setFlask v f g _).trans ((if_neg hg).trans ?_)
    exact (congrArg (fun x : Sch => Tab.get flaskReset x.flasks g) (hov .sch (by simp))).trans (hflask g)
  · exact (((only_reply _ _ _).mono (by simp)).after (((only_setSch v _).mono (by simp)).after ((hov.mono (by simp)).after (hou.mono (by simp))))).frame_finish
theorem fsuAssist_withdrawn : ∀ (m : MbId) (s : State), s.rq m.val 0x11 1 = 1 → s.asks m.val 0x0603 2 [(0x10, 1, decide (s.rq m.val 0x10 1 < 8)), (0x11, 1, true),
      (0x14, 4, true), (0x18, 4, true), (0x20, 8, true), (0x28, 4, true)] → s.fsu.lent = none →
    Yields (.fsuAssist m) s (fun t => t.refuses m.val rAlreadyDone 0 ∧ t.fsu = s.fsu ∧ Frame [.fmn] s t) := by
  intro m s h1 hask hlent
  refine fsuRefuse_yields ?_
  show execFsuAssist m s = _
  unfold execFsuAssist
  dsimp only
  beta_reduce
  have hlt : decide (s.rq m.val 0x11 1 < 2) = true := decide_eq_true (h1.trans_lt (by decide))
  have hlend : (s.rq m.val 0x11 1 == 0) = false := by rw [h1]; rfl
  rw [hlt, hlend]
  refine congrArg (done s) ((State.request_asks _ hask).trans ?_)
  rw [if_neg Bool.false_ne_true, hlent]

/-! ## Builds -/

theorem only_addPair (s : State) (b : Blk) {o : Nat} (ho : o + 4 < 0x10000) (k : Nat) : Only [.regs b] s (s.addPair b o k) := only_setPair s b ho _
/-- The state in which a build's frames are taken. -/
def State.atBuild (s : State) (t0 : Nat) : State := { s.switchBank with fsu.t0 := t0 }
theorem only_atBuild (s : State) (t0 : Nat) : Only [.fsu] s (s.atBuild t0) := by
  unfold State.atBuild State.switchBank
  cases s.fsu.ready with
  | none => exact only_setFsu s _
  | some b => exact only_setFsu s _
/-- The bank marked ready becomes active, and the rest of what a build reads stays. -/
theorem State.fsu_atBuild (s : State) (t0 : Nat) : (s.atBuild t0).fsu.build = s.fsu.build ∧ (s.atBuild t0).fsu.n = s.fsu.n ∧
    (s.atBuild t0).fsu.later = s.fsu.later ∧ (s.atBuild t0).fsu.j = s.fsu.j ∧ (s.atBuild t0).fsu.k = s.fsu.k ∧ (s.atBuild t0).fsu.t0 = t0 ∧
    (s.atBuild t0).fsu.ready = none ∧ (∀ b, s.fsu.ready = some b → (s.atBuild t0).fsu.active = some b) ∧
    (s.fsu.ready = none → (s.atBuild t0).fsu.active = s.fsu.active) := by
  unfold State.atBuild State.switchBank
  cases h : s.fsu.ready with
  | none => exact ⟨rfl, rfl, rfl, rfl, rfl, rfl, h, fun b hb => (by cases hb), fun _ => rfl⟩
  | some b => exact ⟨rfl, rfl, rfl, rfl, rfl, rfl, rfl, fun c hc => hc, fun hn => (by cases hn)⟩
theorem State.takeFrames_empty {s : State} (h15 : s.fsuCfg 0x15 1 = 0) (h0 : (s.queue (s.fsuCfg 0x16 1)).occ = 0) : s.takeFrames = ([], s) := by
  unfold State.takeFrames
  rw [h15, h0]
  exact if_neg (by decide)
theorem Only.fsuCfg {l : List StatePart} {s t : State} (h : Only l s t) (hl : StatePart.regs Blk.fsu ∉ l) {o : Nat} (ho : o < 0x1000) (n : Nat) :
    t.fsuCfg o n = s.fsuCfg o n := by
  unfold State.fsuCfg
  rw [h.reg (b := Blk.fsu) hl (by omega)]
/-- Counts an event of the unit where it has taken place. -/
def State.fsuEvent (s : State) (on : Bool) (src : Nat) : State := if on then s.bump Blk.fsu src else s
theorem only_fsuEvent (s : State) (on : Bool) {j : Nat} (hj : j < 32) : Only [.regs Blk.fsu] s (s.fsuEvent on j) :=
  Only.ite (fun _ => only_bump s Blk.fsu hj) (fun _ => Only.refl _ s)
theorem State.evc_fsuEvent_of_ne (s : State) (on : Bool) {j j' : Nat} (h : evKey Blk.fsu j' ≠ evKey Blk.fsu j) :
    (s.fsuEvent on j).evc Blk.fsu j' = s.evc Blk.fsu j' := by
  unfold State.fsuEvent
  split
  · exact State.evc_bump_of_ne s h
  · rfl
section
variable {s : State} {t0 tl : Nat} {set : Option Nat} {x : SrcFrame}
theorem State.startOutput_none (htake : (s.atBuild t0).takeFrames = ([], s.atBuild t0)) (hn : s.fsu.n = none) (hl : s.fsu.later = []) :
    s.startOutput t0 tl set = { s.atBuild t0 with fsu.later := [] } := by
  obtain ⟨_, hn', hl', _⟩ := s.fsu_atBuild t0
  unfold State.startOutput
  rw [show ({ s.switchBank with fsu.t0 := t0 } : State) = s.atBuild t0 from rfl]
  dsimp only
  rw [htake]
  dsimp only
  rw [List.drop_nil, List.take_nil]
  dsimp only [State.stageAll]
  rw [hn'.trans hn, hl'.trans hl]
  cases s.fsuCfg 0x12 1 == 1 with
  | false => rfl
  | true => rfl
/-- With no frame taken and the phase at its last value the build holds frame n. -/
theorem State.startOutput_held (htake : (s.atBuild t0).takeFrames = ([], s.atBuild t0)) (hn : s.fsu.n = some x) (h12 : s.fsuCfg 0x12 1 = 0)
    (hj : s.fsu.j = s.fsuCfg 0x13 1) : ∃ (n : Option SrcFrame) (l : List SrcFrame) (b : Build) (stale off late : Bool),
      s.startOutput t0 tl set = (((({ s.atBuild t0 with fsu.n := n, fsu.later := l, fsu.j := s.fsuCfg 0x13 1, fsu.build := some b } :
        State).fsuEvent true 4).fsuEvent stale 5).fsuEvent off 6).fsuEvent late 7 ∧
      b.k = s.fsu.k ∧ b.j = s.fsu.j ∧ b.held = true ∧ b.n.rseq = x.rseq ∧ b.t0 = t0 ∧ b.n1 = none ∧ b.rel = none := by
  obtain ⟨_, hn', hl', hj', hk', _⟩ := s.fsu_atBuild t0
  have hch : chooseFrames false (s.fsuCfg 0x13 1) (some x) (s.fsuCfg 0x13 1) s.fsu.later [] = some (x, [], s.fsuCfg 0x13 1, true, []) := by
    show (if _ then _ else _) = _
    exact if_neg (Nat.lt_irrefl _)
  unfold State.startOutput
  rw [show ({ s.switchBank with fsu.t0 := t0 } : State) = s.atBuild t0 from rfl]
  dsimp only
  rw [htake]
  dsimp only
  rw [List.drop_nil, List.take_nil]
  dsimp only [State.stageAll]
  rw [h12, hn'.trans hn, hl', hj'.trans hj, show ((0 : Nat) == 1) = false from rfl, List.nil_append, hch]
  dsimp only
  exact ⟨_, _, _, _, _, _, rfl, hk', hj.symm, rfl, (apply_ite SrcFrame.rseq _ _ _).trans (ite_self _), rfl, rfl, rfl⟩
end
section
variable {s : State} {b : Build}
theorem State.building_some (h : s.building = some b) : s.fsu.st = 2 ∧ s.fsu.build = some b := by
  unfold State.building at h
  split at h
  · cases h
  · next hc => exact ⟨Classical.byContradiction fun h2 => hc (Or.inl h2), h⟩
end
theorem buildStart_yields : ∀ (t0 tl : Nat) (set : Option Nat) (s : State), s.fsu.st = 2 → s.fsu.stopping = false → s.fsu.build = none → s.frozen = false →
    s.isHalted Blk.fsu = false → 2 ≤ s.aon.pwr → s.nextT0 = some (t0, tl, set) →
    (s.clk.now + s.fsuCfg 0x2E 2 * tbUs < t0 → Yields .buildStart s (fun t => t.fsu = s.fsu ∧ Frame [] s t)) ∧
    (t0 ≤ s.clk.now + s.fsuCfg 0x2E 2 * tbUs → s.fsuCfg 0x15 1 = 0 → (s.queue (s.fsuCfg 0x16 1)).occ = 0 → s.fsu.n = none →
      s.fsu.later = [] → Yields .buildStart s (fun t => t.fsu.build = none ∧ t.fsu.n = none ∧ t.fsu.t0 = t0 ∧ t.fsu.ready = none ∧
        (∀ b, s.fsu.ready = some b → t.fsu.active = some b) ∧ (s.fsu.ready = none → t.fsu.active = s.fsu.active) ∧ Frame [.fsu] s t)) ∧
    (∀ x, t0 ≤ s.clk.now + s.fsuCfg 0x2E 2 * tbUs → s.fsuCfg 0x15 1 = 0 → (s.queue (s.fsuCfg 0x16 1)).occ = 0 → s.fsu.n = some x →
      s.fsuCfg 0x12 1 = 0 → s.fsu.j = s.fsuCfg 0x13 1 → Yields .buildStart s (fun t =>
        (∃ b, t.fsu.build = some b ∧ b.k = s.fsu.k ∧ b.j = s.fsu.j ∧ b.held = true ∧ b.n.rseq = x.rseq ∧ b.t0 = t0 ∧ b.n1 = none ∧
          b.rel = none) ∧ t.evc Blk.fsu 4 = s.evc Blk.fsu 4 + 1 ∧ Frame [.fsu, .regs Blk.fsu] s t)) := by
  intro t0 tl set s hst hstop hb hfr hh hpwr hnext
  have hexec : exec .buildStart s = done s (if s.clk.now + s.fsuCfg 0x2E 2 * tbUs < t0 then s else s.startOutput t0 tl set) := by
    show execBuildStart s = _
    unfold execBuildStart
    rw [if_neg (by rw [hst, hstop, hb, hfr, hh]; simp only [ne_eq, not_true_eq_false, Bool.false_eq_true, Option.isSome_none, false_or]; omega), hnext]
  have hbuild := only_atBuild s t0
  have htake : s.fsuCfg 0x15 1 = 0 → (s.queue (s.fsuCfg 0x16 1)).occ = 0 → (s.atBuild t0).takeFrames = ([], s.atBuild t0) := by
    intro h15 h0
    refine State.takeFrames_empty ((hbuild.fsuCfg (by decide) (by decide) 1).trans h15) ?_
    rw [hbuild.fsuCfg (by decide) (by decide) 1]
    exact (congrArg (fun x => (Tab.get queueReset0 x _).occ) (hbuild .queues (by simp))).trans h0
  obtain ⟨_, hn', hl', hj', hk', ht', hr', hact, hkeep⟩ := s.fsu_atBuild t0
  refine ⟨fun hlt => fsuSame_yields (hexec.trans (congrArg (done s) (if_pos hlt))), fun hle h15 h0 hn hl => ?_, fun x hle h15 h0 hn h12 hj => ?_⟩
  · rw [if_neg (by omega), State.startOutput_none (htake h15 h0) hn hl] at hexec
    refine yields_done hexec ⟨?_, ?_, ?_, ?_, ?_, ?_, ((only_setFsu _ _).after hbuild).frame_finish⟩
    all_goals rw [finish_fsu]
    · exact (s.fsu_atBuild t0).1.trans hb
    · exact hn'.trans hn
    · exact ht'
    · exact hr'
    · exact hact
    · exact hkeep
  · obtain ⟨n, l, b, stale, off, late, hs, hrec⟩ := State.startOutput_held (tl := tl) (set := set) (htake h15 h0) hn h12 hj
    rw [if_neg (by omega), hs] at hexec
    obtain ⟨v, hv⟩ : ∃ v, v = ({ s.atBuild t0 with fsu.n := n, fsu.later := l, fsu.j := s.fsuCfg 0x13 1, fsu.build := some b } : State) := ⟨_, rfl⟩
    rw [← hv] at hexec
    have hov : Only [.fsu] s v := by rw [hv]; exact (only_setFsu _ _).after hbuild
    have hev := (only_fsuEvent (((v.fsuEvent true 4).fsuEvent stale 5).fsuEvent off 6) late (j := 7) (by decide)).after
      ((only_fsuEvent ((v.fsuEvent true 4).fsuEvent stale 5) off (j := 6) (by decide)).after
      ((only_fsuEvent (v.fsuEvent true 4) stale (j := 5) (by decide)).after (only_fsuEvent v true (j := 4) (by decide))))
    refine yields_done hexec ⟨⟨b, ?_, hrec⟩, ?_, ((hev.mono (by simp)).after (hov.mono (by simp))).frame_finish⟩
    · rw [finish_fsu, hev .fsu (by decide), hv]
    · rw [finish_evc _ _ (by decide) (by decide), State.evc_fsuEvent_of_ne _ _ (by decide), State.evc_fsuEvent_of_ne _ _ (by decide),
        State.evc_fsuEvent_of_ne _ _ (by decide)]
      exact (State.evc_bump_self v _ _).trans (by rw [hov.evc (b := Blk.fsu) (by simp) (by decide)])
theorem tileDecision_fallback : ∀ (stall : Nat) (b : Build) (s : State), s.building = some b → b.cores = [] → b.next < b.warped → b.tiles ≤ b.warped →
    s.fsu.active = none → Yields (.tileDecision stall) s (fun t =>
      t.fsu = { s.fsu with build := some { b with next := b.next + 1, mouldOff := true, pred := b.pred + 1 } } ∧
      Frame [.fsu, .regs Blk.fsu] s t) := by
  intro stall b s hb hc hn hw hact
  obtain ⟨_, hbuild⟩ := State.building_some hb
  have hidle : lowest 8 (fun c => (Tab.get noTile b.cores c).isNone) = some 0 := by rw [hc]; rfl
  have hexec : exec (.tileDecision stall) s = done s ((s.addPair Blk.fsu 0x148 1).fallback { b with next := b.next + 1, mouldOff := true } false) := by
    show execTileDecision stall s = _
    unfold execTileDecision
    rw [hb]
    dsimp only
    unfold State.warpNext
    dsimp only
    rw [if_pos (by rw [decide_eq_true hw, Bool.true_or])]
    unfold State.decideNext
    rw [hbuild]
    dsimp only
    rw [hidle]
    dsimp only
    rw [if_neg (by omega), hact]
  have hop := only_addPair s Blk.fsu (o := 0x148) (by decide) 1
  have ho := only_addPair ((s.addPair Blk.fsu 0x148 1).setBuild
    { b with next := b.next + 1, mouldOff := true, pred := b.pred + b2n (!false), late := b.late + b2n false }) Blk.fsu (o := 0x150) (by decide) 1
  refine yields_done hexec ⟨?_, ((ho.mono (by simp)).after (((only_setFsu _ _).mono (by simp)).after (hop.mono (by simp)))).frame_finish⟩
  rw [finish_fsu]
  refine (ho .fsu (by decide)).trans ?_
  show ({ (s.addPair Blk.fsu 0x148 1).fsu with build := _ } : Fsu) = _
  rw [hop .fsu (by decide)]
  rfl
theorem tileComplete_late : ∀ (c : Fin 8) (b : Build) (x : CoreTile) (k : Nat) (a : Array Int) (u : State) (s : State), s.building = some b →
    Tab.get noTile b.cores c.val = some x → s.fsu.active = some k → s.runMould c.val k = (some a, u) → u.fsu = s.fsu →
    s.deadline b (x.tile / s.tilesAcross) < (s.nowPs : Int) → Yields (.tileComplete c) s (fun t =>
      (∃ y, t.fsu.build = some y ∧ y.late = b.late + 1 ∧ y.pred = b.pred ∧ Tab.get noTile y.cores c.val = none ∧ y.next = b.next) ∧
      t.mem = u.mem) := by
  intro c b x k a u s hb hx hact hrun hu hlate
  have hexec : exec (.tileComplete c) s = done s (u.fallback { b with cores := Tab.set noTile b.cores c.val none } true) := by
    show execTileComplete c s = _
    unfold execTileComplete
    rw [hb]
    dsimp only
    rw [hx, hact]
    dsimp only
    rw [hrun]
    dsimp only
    exact congrArg (done s) (if_pos hlate)
  have ho := only_addPair (u.setBuild { b with cores := Tab.set noTile b.cores c.val none, pred := b.pred + b2n (!true), late := b.late + b2n true })
    Blk.fsu (o := 0x150) (by decide) 1
  have hfsu : (u.fallback { b with cores := Tab.set noTile b.cores c.val none } true).fsu.build =
      some { b with cores := Tab.set noTile b.cores c.val none, pred := b.pred + b2n (!true), late := b.late + b2n true } :=
    congrArg Fsu.build (ho .fsu (by decide))
  refine yields_done hexec ⟨⟨_, (congrArg Fsu.build (finish_fsu _ _)).trans hfsu, rfl, rfl, ?_, rfl⟩, (finish_mem _ _).trans (ho .mem (by decide))⟩
  exact (Tab.get_set_self noTile b.cores c.val none)
theorem tileComplete_idle : ∀ (c : Fin 8) (b : Build) (s : State), s.building = some b → Tab.get noTile b.cores c.val = none → Yields (.tileComplete c) s (fun t =>
      t.fsu = s.fsu ∧ Frame [] s t) := by
  intro c b s hb hx
  refine fsuSame_yields ?_
  show execTileComplete c s = _
  unfold execTileComplete
  rw [hb]
  dsimp only
  rw [hx]
theorem frameReport_yields : ∀ (b : Build) (s : State), s.building = some b → b.tiles ≤ b.next → b.cores = [] → b.noTiles = false → s.fsu.stopping = false →
    s.qEn 92 = false → Yields .frameReport s (fun t => t.fsu = { s.fsu with
        build := none, k := (b.k + 1) % 2 ^ 32, lastOut := some (b.k, b.t0, s.fsuBuf b.k) } ∧
      t.evc Blk.fsu 2 = s.evc Blk.fsu 2 + 1 ∧ t.evc Blk.fsu 9 = s.evc Blk.fsu 9 + 1 ∧
      (t.evc Blk.fsu 3 = if b.pred + b.late = 0 then s.evc Blk.fsu 3 else s.evc Blk.fsu 3 + 1) ∧ Frame [.fsu, .regs Blk.fsu] s t) := by
  intro b s hb hn hc hnt hstop hq
  obtain ⟨hst, _⟩ := State.building_some hb
  obtain ⟨u, hu⟩ : ∃ u, u = (s.bump Blk.fsu 2).setReg Blk.fsu 0x158 (at_ (b.pred + b.late) 16 16 ||| at_ b.tiles 0 16) := ⟨_, rfl⟩
  have hou : Only [.regs Blk.fsu] s u := by
    rw [hu]
    exact (only_setReg _ _ (by decide) _).after (only_bump s Blk.fsu (j := 2) (by decide))
  have hout := only_fsuEvent u (decide (b.pred + b.late ≠ 0)) (j := 3) (by decide)
  obtain ⟨v, hv⟩ : ∃ v, v = ({ u.fsuEvent (decide (b.pred + b.late ≠ 0)) 3 with
    fsu.build := none, fsu.k := (b.k + 1) % 2 ^ 32, fsu.lastOut := some (b.k, b.t0, s.fsuBuf b.k) } : State) := ⟨_, rfl⟩
  have hvf : v.fsu = { s.fsu with build := none, k := (b.k + 1) % 2 ^ 32, lastOut := some (b.k, b.t0, s.fsuBuf b.k) } := by
    rw [hv]
    show ({ (u.fsuEvent _ 3).fsu with build := none, k := (b.k + 1) % 2 ^ 32, lastOut := some (b.k, b.t0, s.fsuBuf b.k) } : Fsu) = _
    rw [hout .fsu (by decide), hou .fsu (by decide)]
  have hov : Only [.fsu, .regs Blk.fsu] s v := by
    rw [hv]
    exact ((only_setFsu _ _).mono (by simp)).after ((hout.mono (by simp)).after (hou.mono (by simp)))
  have hve : ∀ j, v.evc Blk.fsu j = (u.fsuEvent (decide (b.pred + b.late ≠ 0)) 3).evc Blk.fsu j := fun j => by rw [hv]; rfl
  have hqv : v.qEn 92 = false := (State.qEn_of_only hov (by decide) (by decide)).trans hq
  have hrep : s.reportBuild b = v.bump Blk.fsu 9 := by
    have hfell : (if b.pred + b.late = 0 then u else u.bump Blk.fsu 3) = u.fsuEvent (decide (b.pred + b.late ≠ 0)) 3 := by
      unfold State.fsuEvent
      by_cases h : b.pred + b.late = 0
      · rw [if_pos h, if_neg (by simp [h])]
      · rw [if_neg h, if_pos (decide_eq_true h)]
    unfold State.reportBuild
    dsimp only
    rw [← hu, hfell, hnt, if_neg Bool.false_ne_true, ← hv, hqv, State.fsuPush_off hqv, Bool.false_and]
    have hf9 : (v.bump Blk.fsu 9).fsu = v.fsu := only_bump v Blk.fsu (j := 9) (by decide) .fsu (by decide)
    rw [if_neg (by rw [hf9, hvf]; exact not_not_intro hst), if_neg Bool.false_ne_true, if_neg (by rw [hf9, hvf]; exact ne_true_of_eq_false hstop)]
  have hexec : exec .frameReport s = done s (v.bump Blk.fsu 9) := by
    show execFrameReport s = _
    unfold execFrameReport
    rw [hb]
    refine congrArg (done s) ((if_neg ?_).trans hrep)
    rw [hc]
    simp [hn]
  have hb9 := only_bump v Blk.fsu (j := 9) (by decide)
  refine yields_done hexec ⟨?_, ?_, ?_, ?_, ((hb9.mono (by simp)).after hov).frame_finish⟩
  · rw [finish_fsu, hb9 .fsu (by decide), hvf]
  · rw [finish_evc _ _ (by decide) (by decide), State.evc_bump_of_ne _ (by decide), hve, State.evc_fsuEvent_of_ne _ _ (by decide), hu, State.evc_setReg]
    exact State.evc_bump_self s _ _
  · rw [finish_evc _ _ (by decide) (by decide)]
    refine (State.evc_bump_self v _ _).trans ?_
    rw [hve, State.evc_fsuEvent_of_ne _ _ (by decide), hu, State.evc_setReg, State.evc_bump_of_ne _ (by decide)]
  · rw [finish_evc _ _ (by decide) (by decide), State.evc_bump_of_ne _ (by decide), hve]
    have hu3 : u.evc Blk.fsu 3 = s.evc Blk.fsu 3 := by rw [hu, State.evc_setReg, State.evc_bump_of_ne _ (by decide)]
    unfold State.fsuEvent
    by_cases h : b.pred + b.late = 0
    · rw [if_pos h, if_neg (by simp [h]), hu3]
    · rw [if_neg h, if_pos (decide_eq_true h), State.evc_bump_self, hu3]
theorem frameReport_pending : ∀ (b : Build) (s : State), s.building = some b → (b.next < b.tiles ∨ b.cores ≠ []) → Yields .frameReport s (fun t =>
      t.fsu = s.fsu ∧ Frame [] s t) := by
  intro b s hb hpend
  refine fsuSame_yields ?_
  show execFrameReport s = _
  unfold execFrameReport
  rw [hb]
  refine congrArg (done s) (if_pos ?_)
  rw [Bool.or_eq_true, decide_eq_true_iff, bne_iff_ne]
  exact hpend
theorem chooseFrames_phase : ∀ (interp : Bool) (mm j k : Nat) (n : Option SrcFrame) (x : SrcFrame) (later taken l gone : List SrcFrame) (held : Bool), j ≤ mm →
    (interp = true → later ≠ []) → chooseFrames interp mm n j later taken = some (x, l, k, held, gone) → k ≤ mm ∧ (held = true → k = mm ∧ j = mm ∧ n = some x ∧ gone = []) := by
  intro interp mm j k n x later taken l gone held hj hl h
  unfold chooseFrames at h
  split at h
  · split at h
    · cases h
      exact ⟨Nat.zero_le _, fun h => by cases h⟩
    · split at h
      · cases h
      · split at h
        · cases h
          exact ⟨by omega, fun h => by cases h⟩
        · cases h
          exact ⟨Nat.le_refl _, fun _ => ⟨rfl, by omega, rfl, rfl⟩⟩
  · next hi =>
    have hne : later ++ taken ≠ [] := by
      have := hl (by simpa using hi)
      simp [this]
    dsimp only at h
    split at h
    · split at h
      · cases h
        exact ⟨by omega, fun h => by cases h⟩
      · cases h
        exact ⟨Nat.zero_le _, fun h => by cases h⟩
    · cases h
      exact ⟨Nat.zero_le _, fun h => by cases h⟩
    · split at h
      · cases h
        exact ⟨by omega, fun h => by cases h⟩
      · next hc =>
        cases h
        exact ⟨Nat.le_refl _, fun _ => ⟨rfl, Nat.le_antisymm hj (Nat.le_of_not_lt fun hlt => hc ⟨hlt, hne⟩), rfl, rfl⟩⟩
    · cases h
theorem scaled_nearest : ∀ (mm j : Nat) (v : Int), (scaled mm (j : Int) v) * (2 * (mm + 1)) ≤ 2 * j * v + (mm + 1) ∧
    2 * j * v + (mm + 1) < (scaled mm (j : Int) v + 1) * (2 * (mm + 1)) := by
  intro mm j v
  have hs : scaled mm (j : Int) v = (2 * (j : Int) * v + ((mm : Int) + 1)) / (2 * ((mm : Int) + 1)) := Int.fdiv_eq_ediv_of_nonneg _ (by omega)
  have h1 := Int.mul_ediv_add_emod (2 * (j : Int) * v + ((mm : Int) + 1)) (2 * ((mm : Int) + 1))
  have h2 := Int.emod_nonneg (2 * (j : Int) * v + ((mm : Int) + 1)) (b := 2 * ((mm : Int) + 1)) (by omega)
  have h3 := Int.emod_lt_of_pos (2 * (j : Int) * v + ((mm : Int) + 1)) (b := 2 * ((mm : Int) + 1)) (by omega)
  rw [hs]
  generalize 2 * (j : Int) * v + ((mm : Int) + 1) = x at *
  generalize 2 * ((mm : Int) + 1) = d at *
  rw [Int.add_mul, Int.one_mul, Int.mul_comm]
  omega

/-- Settles O55: each command and each stage of a build is one branch of its definition. -/
theorem frameSynthesis : Obligations.FrameSynthesis := by
  unfold Obligations.FrameSynthesis
  exact ⟨⟨mouldLoad_yields, mouldLoad_other, fsuConfig_configure, fsuConfig_actions, fsuAssist_lend, fsuAssist_withdrawn⟩, buildStart_yields,
    tileDecision_fallback, tileComplete_late, tileComplete_idle, frameReport_yields, frameReport_pending, chooseFrames_phase, scaled_nearest⟩

end Sys2Proof.Machine
end
section
/-! Frame graphs: load, start and stop (R444, R464 to R467). -/
namespace Sys2Proof.Machine
open Sys2Proof

/-! ## Rules of the graphs -/

theorem not_tripBlk_pat : ¬tripBlk Blk.pat := by unfold tripBlk Blk.pat; omega

section
variable {i : Instr} {s : State} {m g : Nat} {x : Graph}
/-- A command that changes one graph and answers DONE. -/
theorem graphDone_yields (h : exec i s = done s ((s.setGraph g x).replyDone m)) :
    Yields i s (fun t => t.doneWith m [] ∧ t.graph g = x ∧ (∀ k, k ≠ g → t.graph k = s.graph k) ∧ Frame [.fmn, .pat] s t) := by
  refine yields_done h ⟨finish_answers _ _ _ _, ?_, fun k hk => ?_, ?_⟩
  · rw [finish_graph]
    exact State.graph_setGraph_self s g x
  · rw [finish_graph]
    exact (State.graph_setGraph s g k x).trans (if_neg hk)
  · exact (((only_reply _ _ _).mono (by simp)).after ((only_setPat s _).mono (by simp))).frame_finish
end
theorem only_dropTokens (s : State) (g : Nat) : Only [.eng] s (s.dropTokens g) :=
  Only.foldl (fun t _ _ => Only.foldlAfter (fun u _ _ => Only.ite (fun _ => only_setEng u _) fun _ => Only.refl _ u) (only_setEng t _)) s
/-- A graph that stops as with MODE 1. -/
def Graph.stopped (x : Graph) : Graph :=
  { x with st := .stopped, pending := none, inst := none, events := [], arrA := none, arrB := none, stopping := none }
section
variable {s : State} {g m detail : Nat}
theorem State.graph_dropTokens (s : State) (g h : Nat) : (s.dropTokens g).graph h = s.graph h :=
  congrArg (Tab.get graphReset · h) (only_dropTokens s g .pat (by simp))
theorem State.graph_reply (s : State) (m : Nat) (r : Resp) (g : Nat) : (s.reply m r).graph g = s.graph g :=
  congrArg (Tab.get graphReset · g) (only_reply s m r .pat (by simp))
theorem State.graphStop_alone (h : (s.graph g).stopping = none) :
    s.graphStop g detail = (s.dropTokens g).setGraph g (s.graph g).stopped := by
  unfold State.graphStop Graph.stopped
  dsimp only
  rw [s.graph_dropTokens, h]
theorem State.graphStop_awaited (h : (s.graph g).stopping = some (m, false)) :
    s.graphStop g detail = ((s.dropTokens g).setGraph g (s.graph g).stopped).reply m { code := rDone, detail := detail, progress := 100 } := by
  unfold State.graphStop Graph.stopped
  dsimp only
  rw [s.graph_dropTokens, h]
  exact congrArg (State.reply · m _) (if_neg Bool.false_ne_true)
theorem only_stopped (s : State) (g : Nat) : Only [.pat, .eng] s ((s.dropTokens g).setGraph g (s.graph g).stopped) :=
  ((only_setPat _ _).mono (by simp)).after ((only_dropTokens s g).mono (by simp))
/-- A graph stopped at once, with the answer of its command. -/
theorem graphStopped_yields {i : Instr} {r : Resp} (h : exec i s = done s (((s.dropTokens g).setGraph g (s.graph g).stopped).reply m r)) :
    Yields i s (fun t => t.answers m r ∧ t.graph g = (s.graph g).stopped ∧ (∀ j, j < 32 → t.evc Blk.pat j = s.evc Blk.pat j) ∧
      t.queues = s.queues ∧ Frame [.fmn, .pat, .eng] s t) := by
  have ho := ((only_reply ((s.dropTokens g).setGraph g (s.graph g).stopped) m r).mono (l' := [.fmn, .pat, .eng]) (by simp)).after
    ((only_stopped s g).mono (by simp))
  have he : ∀ u, ∀ j < 32, (finish s u).evc Blk.pat j = u.evc Blk.pat j := fun u j hj => finish_evc s u hj fun h => not_tripBlk_pat (.inl h.1)
  refine yields_done h ⟨finish_answers _ _ _ _, ?_, fun j hj => ?_, (finish_queues _ _).trans (ho .queues (by simp)), ho.frame_finish⟩
  · rw [finish_graph, State.graph_reply, State.graph_setGraph_self]
  · rw [he _ j hj]
    exact ho.evc (b := Blk.pat) (by decide) hj
end

/-! ## Load -/

theorem State.reg_putWords_of_ge (s : State) (b a : Nat) {n o : Nat} (v : Nat → Word) (h : o < 0x10000) (ho : a + 4 * n ≤ o) :
    (s.putWords b a n v).reg b o = s.reg b o := by
  induction n with
  | zero => rfl
  | succ n ih =>
    rw [State.putWords_succ, State.reg_setReg_ne, ih (by omega)]
    rw [Ne, regKey_inj (by omega) (by omega)]
    omega

theorem graphLoad_yields : ∀ (m : MbId) (g owner n src : Nat) (d : List Byte) (s : State), s.rq m.val 0x10 1 = g → s.rq m.val 0x11 1 = owner → s.rq m.val 0x12 1 = n →
    s.rq m.val 0x18 8 = src → s.asks m.val 0x0521 0x10
      [(0x10, 1, g < 16), (0x11, 1, owner == 0xFF || s.ctxOpen owner), (0x12, 1, 1 ≤ n && n ≤ 64), (0x13, 1, s.rq m.val 0x13 1 < 2),
       (0x14, 1, s.rq m.val 0x14 1 < 48), (0x15, 1, s.rq m.val 0x15 1 == 0xFF || (s.rq m.val 0x15 1 < 48 && s.rq m.val 0x15 1 != s.rq m.val 0x14 1)),
       (0x16, 2, 1 ≤ s.rq m.val 0x16 2), (0x18, 8, src % 16 == 0 && ingotRange src (16 * n))] →
    (s.graph g).st = .unloaded → s.readMem Config.mForeman .secure 0 src (16 * n) = (d, .ok, s) →
    (∀ i, i < n → s.nodeReason g owner n i (fun k => bytesAt d (16 * i + k) 1) = none) → Yields (.graphLoad m) s (fun t =>
      t.doneWith m.val [] ∧ (t.graph g).st = .stopped ∧
      (∀ w, w < 4 * n → t.reg Blk.pat (0x4000 + 0x400 * g + 4 * w) = BitVec.ofNat 32 (bytesAt d (4 * w) 4)) ∧
      t.qEn (76 + g) = true ∧ (t.queue (76 + g)).occ = 0 ∧ (∀ k, k ≠ g → t.graph k = s.graph k) ∧
      Frame [.fmn, .pat, .queues, .regs 6, .regs 19] s t) := by
  intro m g owner n src d s hg hown hn hsrc hask hst hread hok
  have hg16 : g < 16 := of_decide_eq_true (State.asks_field hask (a := 0x10) (n := 1) rfl (by decide) (by decide))
  have hn64 : n ≤ 64 := by
    have h := State.asks_field hask (a := 0x12) (n := 1) (b := decide (1 ≤ n) && decide (n ≤ 64)) rfl (by decide) (by decide)
    exact of_decide_eq_true (Bool.and_eq_true_iff.1 h).2
  obtain ⟨u, hu⟩ : ∃ u, u = s.putWords Blk.pat (0x4000 + 0x400 * g) (4 * n) (fun w => BitVec.ofNat 32 (bytesAt d (4 * w) 4)) := ⟨_, rfl⟩
  have hou : Only [.regs Blk.pat] s u := by rw [hu]; exact only_putWords s _ _ _ (by omega)
  obtain ⟨hput, -⟩ := foldl_setReg_eq (v := fun w k => BitVec.ofNat 32 (State.rq w m.val (0x10 + 4 * k) 4)) (fun _ _ _ _ _ => rfl) u Blk.pat
    (graphBase g + 0x18) 4
  obtain ⟨v, hv⟩ : ∃ v, v = u.putWords Blk.pat (graphBase g + 0x18) 4 (fun k => BitVec.ofNat 32 (u.rq m.val (0x10 + 4 * k) 4)) := ⟨_, rfl⟩
  have hbase : graphBase g + 0x18 + 4 * 4 ≤ 0x4000 := by unfold graphBase; omega
  have hov : Only [.regs Blk.pat] u v := by rw [hv]; exact only_putWords u _ _ _ (by omega)
  obtain ⟨w, hw⟩ : ∃ w, w = v.queueEnable (76 + g) owner := ⟨_, rfl⟩
  have how : Only [.queues, .regs Blk.que] v w := by rw [hw]; exact only_queueEnable v (by omega) owner
  have hwg : ∀ k, w.graph k = s.graph k := fun k => congrArg (Tab.get graphReset · k)
    ((how .pat (by simp)).trans ((hov .pat (by simp)).trans (hou .pat (by simp))))
  have hfind : (List.range n).find? (fun i => (s.nodeReason g owner n i (fun k => bytesAt d (16 * i + k) 1)).isSome) = none :=
    List.find?_eq_none.2 fun i hi => by rw [hok i (List.mem_range.1 hi)]; exact Bool.false_ne_true
  have hexec : exec (.graphLoad m) s = done s ((w.setGraph g { s.graph g with st := .stopped }).replyDone m.val) := by
    show execGraphLoad m s = _
    unfold execGraphLoad
    dsimp only
    subst hg hown hn hsrc
    refine congrArg (done s) ((State.request_asks _ hask).trans ?_)
    rw [hst, hread]
    dsimp only
    rw [hfind]
    refine (if_neg (by decide)).trans ((if_neg (by decide)).trans ?_)
    dsimp only
    have hprog : (List.range (4 * s.rq m.val 0x12 1)).foldl (fun x w =>
        x.setReg Blk.pat (0x4000 + 0x400 * s.rq m.val 0x10 1 + 4 * w) (BitVec.ofNat 32 (bytesAt d (4 * w) 4))) s = u := hu.symm
    rw [hprog, hput, ← hv, ← hw, hwg]
  refine yields_done hexec ⟨finish_answers _ _ _ _, ?_, fun i hi => ?_, ?_, ?_, fun k hk => ?_, ?_⟩
  · rw [finish_graph]
    exact congrArg Graph.st (State.graph_setGraph_self w g _)
  · rw [finish_reg _ _ (by omega) not_tripBlk_pat]
    show w.reg Blk.pat (0x4000 + 0x400 * g + 4 * i) = _
    rw [how.reg (b := Blk.pat) (by decide) (by omega), hv, State.reg_putWords_of_ge _ _ _ _ (by omega) (by omega), hu,
      State.reg_putWords _ _ _ _ (by omega) hi]
  · have hen : w.qEn (76 + g) = true := by rw [hw]; exact v.qEn_queueEnable _ _
    exact (State.qEn_congr (by omega) fun o ho => (finish_reg _ _ ho not_tripBlk_que).trans rfl).trans hen
  · rw [finish_queue]
    show (w.queue (76 + g)).occ = 0
    rw [hw]
    exact congrArg Queue.occ (State.queue_setQueue_self _ _ _)
  · rw [finish_graph]
    exact (State.graph_setGraph w g k _).trans ((if_neg hk).trans (hwg k))
  · exact (((only_reply _ _ _).mono (by simp)).after (((only_setPat w _).mono (by simp)).after ((how.mono (by decide)).after
      ((hov.mono (by decide)).after (hou.mono (by decide)))))).frame_finish

/-! ## Start and stop -/

theorem graphStart_yields : ∀ (m : MbId) (g : Nat) (s : State), s.rq m.val 0x10 1 = g → s.asks m.val 0x0522 2 [(0x10, 1, g < 16), (0x11, 1, s.rq m.val 0x11 1 < 2)] →
    2 ≤ s.aon.pwr → ((s.graph g).st = .stopped ∨ ((s.graph g).st = .faulted ∧ s.rq m.val 0x11 1 = 1)) → Yields (.graphStart m) s (fun t =>
      t.doneWith m.val [] ∧ t.graph g = { s.graph g with
        st := .idle, first := true, events := [], arrA := none, arrB := none, pending := none } ∧
      (∀ k, k ≠ g → t.graph k = s.graph k) ∧ Frame [.fmn, .pat] s t) := by
  intro m g s hg hask hpwr hst
  have hexec : exec (.graphStart m) s = done s ((s.setGraph g { s.graph g with
      st := .idle, first := true, events := [], arrA := none, arrB := none, pending := none }).replyDone m.val) := by
    show execGraphStart m s = _
    unfold execGraphStart
    dsimp only
    rw [hg]
    refine congrArg (done s) ((State.request_asks _ hask).trans ?_)
    rcases hst with h | ⟨h, h1⟩
    · rw [h]
      exact (if_neg (by decide)).trans ((if_neg (by simp)).trans (if_neg (by omega)))
    · rw [h, h1]
      exact (if_neg (by decide)).trans ((if_neg (by simp)).trans (if_neg (by omega)))
  exact graphDone_yields hexec
section
variable {m : MbId} {g : Nat} {s : State}
theorem exec_graphStop (hg : s.rq m.val 0x10 1 = g)
    (hask : s.asks m.val 0x0523 3 [(0x10, 1, g < 16), (0x11, 1, s.rq m.val 0x11 1 < 2), (0x12, 1, s.rq m.val 0x12 1 < 2)]) :
    exec (.graphStop m) s = done s (
      let x := s.graph g
      let finish := fun (u : State) => (if s.rq m.val 0x12 1 == 1 then u.graphUnload g else u).replyDone m.val
      match x.st with
      | .unloaded => s.refuse m.val rAlreadyDone 0
      | .stopped => if s.rq m.val 0x12 1 == 1 then finish s else s.refuse m.val rAlreadyDone 0
      | .faulted => if s.rq m.val 0x12 1 == 1 then finish s else s.refuse m.val rAlreadyDone 0
      | .idle => finish (s.graphStop g)
      | .running =>
        if s.rq m.val 0x11 1 == 1 then
          if ((s.graphStop g).graph g).st = .unloaded then (s.graphStop g).replyDone m.val else finish (s.graphStop g)
        else if x.stopping.isSome then s.refuse m.val rBusy 0
        else
          (s.setGraph g { x with
            stopping := some (m.val, s.rq m.val 0x12 1 == 1), stopAt := s.clk.now, pending := none, events := [], arrA := none, arrB := none }).await
            m.val) := by
  show execGraphStop m s = _
  unfold execGraphStop
  dsimp only
  rw [hg]
  exact congrArg (done s) (State.request_asks _ hask)
end
theorem graphStop_now : ∀ (m : MbId) (g : Nat) (s : State), s.rq m.val 0x10 1 = g → s.asks m.val 0x0523 3 [(0x10, 1, g < 16), (0x11, 1, s.rq m.val 0x11 1 < 2), (0x12, 1, s.rq m.val 0x12 1 < 2)] →
    ((s.graph g).st = .idle ∨ ((s.graph g).st = .running ∧ s.rq m.val 0x11 1 = 1)) → (s.graph g).stopping = none → s.rq m.val 0x12 1 = 0 →
    Yields (.graphStop m) s (fun t => t.doneWith m.val [] ∧ (t.graph g).st = .stopped ∧ (t.graph g).inst = none ∧ (t.graph g).pending = none ∧
      (t.graph g).events = [] ∧ t.evc Blk.pat 2 = s.evc Blk.pat 2 ∧ t.queues = s.queues ∧ Frame [.fmn, .pat, .eng] s t) := by
  intro m g s hg hask hst hstop h12
  have hexec : exec (.graphStop m) s = done s (((s.dropTokens g).setGraph g (s.graph g).stopped).replyDone m.val) := by
    rw [exec_graphStop hg hask, State.graphStop_alone hstop, h12]
    dsimp only
    rcases hst with h | ⟨h, h1⟩
    · rw [h]
      rfl
    · rw [h, h1]
      exact congrArg (done s) ((if_pos rfl).trans ((if_neg (by rw [State.graph_setGraph_self]; exact fun h => by cases h)).trans (congrArg (State.replyDone · m.val) (if_neg (by decide)))))
  obtain ⟨t, ht, hd, hx, he, hq, hf⟩ := graphStopped_yields hexec
  exact ⟨t, ht, hd, by rw [hx]; rfl, by rw [hx]; rfl, by rw [hx]; rfl, by rw [hx]; rfl, he 2 (by decide), hq, hf⟩
theorem graphStop_waits : ∀ (m : MbId) (g : Nat) (s : State), s.rq m.val 0x10 1 = g → s.asks m.val 0x0523 3 [(0x10, 1, g < 16), (0x11, 1, s.rq m.val 0x11 1 < 2), (0x12, 1, s.rq m.val 0x12 1 < 2)] →
    (s.graph g).st = .running → (s.graph g).stopping = none → s.rq m.val 0x11 1 = 0 → Yields (.graphStop m) s (fun t =>
      (t.mb m.val).waiting = true ∧ (t.graph g).st = .running ∧ (t.graph g).inst = (s.graph g).inst ∧ (t.graph g).pending = none ∧
      (t.graph g).stopping = some (m.val, s.rq m.val 0x12 1 == 1) ∧ (t.graph g).stopAt = s.clk.now ∧ Frame [.fmn, .pat] s t) := by
  intro m g s hg hask hst hstop h11
  have hexec : exec (.graphStop m) s = done s ((s.setGraph g { s.graph g with
      stopping := some (m.val, s.rq m.val 0x12 1 == 1), stopAt := s.clk.now, pending := none, events := [], arrA := none, arrB := none }).await
      m.val) := by
    rw [exec_graphStop hg hask]
    dsimp only
    rw [hst, h11]
    exact congrArg (done s) ((if_neg (by decide)).trans (if_neg (by rw [hstop]; decide)))
  have hgr : ∀ u : State, (finish s (u.await m.val)).graph g = u.graph g := fun u => finish_graph s _ g
  refine yields_done hexec ⟨?_, ?_, ?_, ?_, ?_, ?_, ?_⟩
  · rw [finish_mb]
    exact congrArg Mailbox.waiting (State.mb_setMb_self _ _ _)
  · rw [hgr, State.graph_setGraph_self]
    exact hst
  · rw [hgr, State.graph_setGraph_self]
  · rw [hgr, State.graph_setGraph_self]
  · rw [hgr, State.graph_setGraph_self]
  · rw [hgr, State.graph_setGraph_self]
  · exact (((only_setMb _ _ _).mono (by simp)).after ((only_setPat s _).mono (by simp))).frame_finish
theorem graphStop_timeout : ∀ (g : GraphId) (k : Nat) (s : State), (s.graph g.val).stopping = some (k, false) → (s.graph g.val).stopAt + 900000 ≤ s.clk.now →
    Yields (.graphStopTimeout g) s (fun t => t.answers k { code := rDone, detail := 1, progress := 100 } ∧ (t.graph g.val).st = .stopped ∧
      (t.graph g.val).inst = none ∧ (t.graph g.val).stopping = none ∧ Frame [.fmn, .pat, .eng] s t) := by
  intro g k s hstop hat
  have hexec : exec (.graphStopTimeout g) s = done s (((s.dropTokens g.val).setGraph g.val (s.graph g.val).stopped).reply k
      { code := rDone, detail := 1, progress := 100 }) := by
    show execGraphStopTimeout g s = _
    unfold execGraphStopTimeout
    dsimp only
    have h9 : 9 * tbMs = 900000 := by decide
    rw [hstop, h9, State.graphStop_awaited hstop]
    exact congrArg (done s) (if_pos ⟨rfl, hat⟩)
  obtain ⟨t, ht, hd, hx, he, hq, hf⟩ := graphStopped_yields hexec
  exact ⟨t, ht, hd, by rw [hx]; rfl, by rw [hx]; rfl, by rw [hx]; rfl, hf⟩

/-- Settles O48: each command of a graph is one branch of its definition. -/
theorem graphCommands : Obligations.GraphCommands := by
  unfold Obligations.GraphCommands
  exact ⟨graphLoad_yields, graphStart_yields, graphStop_now, graphStop_waits, graphStop_timeout⟩

end Sys2Proof.Machine
end
section
/-! Sprue links: training, faults of a port and flits (R721 to R747). -/
namespace Sys2Proof.Machine
open Sys2Proof

/-! ## What sending on a port leaves -/

/-- A port without what it sends, holds back and has in flight. -/
def Port.link (x : Port) : Port :=
  { x with txSeq := 0, held := [], txWait := [], spent := [], owed := [], ackAt := 0, sealTx := 0, sent := [], inflight := [], lostDue := false }
/-- A port without what it has in flight. -/
def Port.parked (x : Port) : Port := { x with inflight := [], lostDue := false }
/-- A change that only sends on port p. -/
structure Sends (p : Nat) (s t : State) : Prop where
  only : Only [.spr, .regs (Blk.spr0 + p)] s t
  other : ∀ q, q ≠ p → t.port q = s.port q
  link : (t.port p).link = (s.port p).link
  train : t.spr.train = s.spr.train
  evc : ∀ b j, t.evc b j = s.evc b j

namespace Sends
variable {p : Nat} {s t u : State}
theorem refl (p : Nat) (s : State) : Sends p s s := ⟨Only.refl _ s, fun _ _ => rfl, rfl, rfl, fun _ _ => rfl⟩
theorem after (h2 : Sends p t u) (h1 : Sends p s t) : Sends p s u :=
  ⟨h2.only.after h1.only, fun q hq => (h2.other q hq).trans (h1.other q hq), h2.link.trans h1.link, h2.train.trans h1.train,
    fun b j => (h2.evc b j).trans (h1.evc b j)⟩
theorem setPort {x : Port} (h : x.link = (s.port p).link) : Sends p s (s.setPort p x) :=
  ⟨(only_setSpr s _).mono (by simp), fun q hq => (s.port_setPort p q x).trans (if_neg hq), by rw [State.port_setPort_self, h], rfl, fun _ _ => rfl⟩
theorem addPair (s : State) (p : Nat) {o : Nat} (ho : o + 4 < 0x10000) (k : Nat) : Sends p s (s.addPair (Blk.spr0 + p) o k) :=
  ⟨(only_setPair s _ ho _).mono (by simp), fun _ _ => rfl, rfl, rfl, fun b j => State.evc_setPair s _ _ _ b j⟩
theorem same (h : Sends p s t) : (t.port p).st = (s.port p).st ∧ (t.port p).reason = (s.port p).reason ∧ (t.port p).rxSeq = (s.port p).rxSeq ∧
    (t.port p).inbox = (s.port p).inbox ∧ (t.port p).goodAt = (s.port p).goodAt ∧ (t.port p).sealedRx = (s.port p).sealedRx :=
  have hl := h.link
  ⟨(congrArg Port.st hl :), (congrArg Port.reason hl :), (congrArg Port.rxSeq hl :), (congrArg Port.inbox hl :), (congrArg Port.goodAt hl :),
    (congrArg Port.sealedRx hl :)⟩
end Sends
section
variable (s : State) (p : Nat)
theorem sends_sendFlit (typ : Nat) (payload : List Byte) (msg : Option Msg) : Sends p s (s.sendFlit p typ payload msg) := by
  unfold State.sendFlit
  dsimp only
  split
  · exact Sends.setPort rfl
  · exact Sends.setPort rfl
theorem sends_pumpMsgs (l : List Msg) : ∀ (s : State) (blocked : List Nat), Sends p s (s.pumpMsgs p l blocked) := by
  induction l with
  | nil => exact fun s _ => Sends.refl p s
  | cons m l ih =>
    intro s blocked
    unfold State.pumpMsgs
    dsimp only
    split
    · exact (ih _ _).after ((Sends.addPair _ p (by decide) 1).after ((sends_sendFlit _ p 1 _ _).after (Sends.setPort rfl)))
    · exact (ih _ _).after (Sends.setPort rfl)
theorem sends_pump : Sends p s (s.pump p) := (sends_pumpMsgs p _ _ _).after (Sends.setPort rfl)
theorem sends_sendMsg (m : Msg) : Sends p s (s.sendMsg p m) := (sends_pump _ p).after (Sends.setPort rfl)
/-- A NAK is sent once and held by nobody. -/
theorem State.sendFlit_nak : ∃ x : Port, s.sendFlit p 2 [] none = s.setPort p x ∧ x.link = (s.port p).link ∧
    x.sent.length = (s.port p).sent.length + 1 ∧ x.held = (s.port p).held := by
  unfold State.sendFlit
  dsimp only
  exact ⟨_, if_neg (by decide), rfl, List.length_append, rfl⟩
end

/-! ## A port that goes down -/

/-- What the loss of chips can change. -/
def lossParts : List StatePart := [.inp, .queues, .mem, .regs 26] ++ tripParts
/-- The same with the link's own record of the loss. -/
def chipLossParts : List StatePart := .spr :: lossParts
/-- What a port's fall can change. -/
def downParts : List StatePart := [.spr, .fmn, .regs 10, .regs 11] ++ lossParts
theorem State.routeBy_lt {s : State} {d p : Nat} {low : Bool} (h : s.routeBy d low = some p) : p < 2 := by
  have hone : ∀ {a : Nat}, a < 2 → (if s.portUp a then some a else none) = some p → p < 2 := fun ha h => by
    split at h
    · exact Option.some.inj h ▸ ha
    · cases h
  have htwo : ∀ {a b : Nat}, a < 2 → b < 2 → (if s.portUp a then some a else if s.portUp b then some b else none) = some p → p < 2 :=
    fun ha hb h => by
      split at h
      · exact Option.some.inj h ▸ ha
      · exact hone hb h
  unfold State.routeBy at h
  dsimp only at h
  split at h
  · cases h
  · split at h
    · split at h
      · exact htwo (by decide) (by decide) h
      · exact htwo (by decide) (by decide) h
    · split at h
      · exact htwo (by decide) (by decide) h
      · exact htwo (by decide) (by decide) h
    · split at h
      · exact hone (by decide) h
      · split at h
        · exact htwo (by decide) (by decide) h
        · exact hone (by decide) h
    · cases h
theorem only_q72 (s : State) (k a sg c f u : Nat) (l : List Byte) : Only [.queues, .mem, .regs 26] s (s.q72 k a sg c f u l) :=
  Only.ite (fun _ => (only_devicePush s 72 _).mono (by simp)) fun _ => (only_bump s Blk.inp (j := 8) (by decide)).mono (by decide)
theorem only_nodeLost (s : State) (a : Nat) : Only lossParts s (s.nodeLost a) := by
  unfold State.nodeLost
  have h := ((only_q72 ((s.setNode a { s.node a with st := 4, lostAt := s.clk.now }).bump Blk.inp 3) 1 a (s.node a).seg (s.node a).host 0
    (s.node a).uid []).mono (l' := lossParts) (by decide)).after (((only_bump _ Blk.inp (j := 3) (by decide)).mono (by decide)).after
      ((only_setNode s a _).mono (by decide)))
  exact Only.iteAfter h (fun _ => ((only_evalTrip _ _ _).mono (by decide)).after ((only_setQch _ _).mono (by decide))) fun _ => Only.refl _ _
theorem only_inpChipLost (s : State) (d : Nat) : Only lossParts s (s.inpChipLost d) := by
  unfold State.inpChipLost
  refine Only.ite (fun _ => Only.foldl (fun t a _ => Only.ite (fun _ => only_nodeLost t a) fun _ => Only.refl _ t) s) fun _ => Only.ite (fun _ => ?_)
    fun _ => Only.refl _ s
  exact ((only_setInp _ _).mono (by decide)).after ((only_bumpBy s Blk.inp (j := 4) (by decide) _).mono (by decide))
/-- The loss of chips leaves the ports and the training. -/
def Loses (s t : State) : Prop := Only chipLossParts s t ∧ t.spr.ports = s.spr.ports ∧ t.spr.train = s.spr.train
theorem Loses.refl (s : State) : Loses s s := ⟨Only.refl _ s, rfl, rfl⟩
theorem Loses.after {s t u : State} : Loses t u → Loses s t → Loses s u :=
  fun ⟨o2, p2, t2⟩ ⟨o1, p1, t1⟩ => ⟨o2.after o1, p2.trans p1, t2.trans t1⟩
theorem loses_loseChips (s : State) : Loses s s.loseChips := by
  have hstep : ∀ (t : State) (d : Nat), Loses t (({ t with spr.lost := tset t.spr.lost d true } : State).inpChipLost d) := fun t d => by
    have ho := only_inpChipLost { t with spr.lost := tset t.spr.lost d true } d
    have hspr := ho .spr (by decide)
    exact ⟨(ho.mono (by decide)).after ((only_setSpr t _).mono (by decide)), by rw [hspr], by rw [hspr]⟩
  unfold State.loseChips
  refine List.foldlRecOn (motive := Loses s) _ _ (Loses.refl s) fun t ht d _ => ?_
  split
  · exact (hstep t d).after ht
  · exact ht
/-- What the way of the unsent messages leaves, port p being down. -/
structure Moves (p : Nat) (s t : State) : Prop where
  only : Only [.spr, .regs 10, .regs 11] s t
  parked : (t.port p).parked = (s.port p).parked
  link : ∀ q, (t.port q).link = (s.port q).link
  train : t.spr.train = s.spr.train
  evc : ∀ b j, t.evc b j = s.evc b j

namespace Moves
variable {p q : Nat} {s t u : State}
theorem refl (p : Nat) (s : State) : Moves p s s := ⟨Only.refl _ s, rfl, fun _ => rfl, rfl, fun _ _ => rfl⟩
theorem after (h2 : Moves p t u) (h1 : Moves p s t) : Moves p s u :=
  ⟨h2.only.after h1.only, h2.parked.trans h1.parked, fun q => (h2.link q).trans (h1.link q), h2.train.trans h1.train,
    fun b j => (h2.evc b j).trans (h1.evc b j)⟩
/-- What goes out on the other port. -/
theorem of_sends (h : Sends q s t) (hq : q < 2) (hne : q ≠ p) : Moves p s t := by
  have hparts : [.spr, .regs (Blk.spr0 + q)] ⊆ [StatePart.spr, .regs 10, .regs 11] := by
    rcases (by omega : q = 0 ∨ q = 1) with rfl | rfl
    · decide
    · decide
  refine ⟨h.only.mono hparts, by rw [h.other p (Ne.symm hne)], fun r => ?_, h.train, h.evc⟩
  by_cases hr : r = q
  · rw [hr, h.link]
  · rw [h.other r hr]
/-- A change of what a port has in flight. -/
theorem setPort {x : Port} (h : x.parked = (s.port q).parked) : Moves p s (s.setPort q x) := by
  have hl : x.link = (s.port q).link := (congrArg Port.link h :)
  refine ⟨(only_setSpr s _).mono (by simp), ?_, fun r => ?_, rfl, fun _ _ => rfl⟩
  · rw [State.port_setPort]
    split
    · next hp => rw [hp, h]
    · rfl
  · rw [State.port_setPort]
    split
    · next hr => rw [hr, hl]
    · rfl
end Moves
/-- What a port's fall leaves. -/
structure Falls (p reason : Nat) (s t : State) : Prop where
  only : Only downParts s t
  st : (t.port p).st = .down
  reason : (t.port p).reason = reason
  held : (t.port p).held = []
  inbox : (t.port p).inbox = (s.port p).inbox
  link : ∀ q, q ≠ p → (t.port q).link = (s.port q).link
  train : t.spr.train = s.spr.train
  evc : ∀ j, j < 32 → j ≠ 5 → t.evc (Blk.spr0 + p) j = s.evc (Blk.spr0 + p) j
/-- A message that had not been sent goes over the new route, or is lost with its access. -/
def State.reroute (s : State) (p : Nat) (go : List InFlight) (m : Msg) : State :=
  match s.routeBy m.dst (m.op = opMailbox || m.op = opQueue || !m.addr.testBit 12) with
  | some q =>
    if q = p then s
    else match go.find? (fun i => i.tag == m.tag && (m.op == opRead || m.op == opWrite)) with
    | some i => (s.setPort q { s.port q with inflight := (s.port q).inflight ++ [i] }).sendMsg q m
    | none => s.sendMsg q m
  | none => s.setPort p { s.port p with inflight := (s.port p).inflight ++ (go.filter (fun i => i.tag == m.tag)), lostDue := true }
theorem moves_reroute (s : State) (p : Nat) (go : List InFlight) (m : Msg) : Moves p s (s.reroute p go m) := by
  unfold State.reroute
  split
  · next q hq =>
    have hlt := State.routeBy_lt hq
    split
    · exact Moves.refl p s
    · next hne =>
      split
      · exact (Moves.of_sends (sends_sendMsg _ q m) hlt hne).after (Moves.setPort rfl)
      · exact Moves.of_sends (sends_sendMsg _ q m) hlt hne
  · exact Moves.setPort rfl
theorem State.portDown_eq (s : State) (p reason : Nat) : ∃ (x y : Port) (go : List InFlight) (unsent : List Msg),
    s.portDown p reason = unsent.foldl (fun u m => u.reroute p go m) (match (s.port p).sealMb with
      | some (m, _) => (((s.setPort (1 - p) y).setPort p x).bump (Blk.spr0 + p) 5).loseChips.refuse m rStateConflict 1
      | none => (((s.setPort (1 - p) y).setPort p x).bump (Blk.spr0 + p) 5).loseChips) ∧
    x.st = .down ∧ x.reason = reason ∧ x.held = [] ∧ x.inbox = (s.port p).inbox ∧ y.link = (s.port (1 - p)).link :=
  ⟨_, _, _, _, rfl, rfl, rfl, rfl, rfl, rfl⟩
theorem falls_portDown (s : State) {p : Nat} (hp : p < 2) (reason : Nat) : Falls p reason s (s.portDown p reason) := by
  obtain ⟨x, y, go, unsent, hdown, hst, hreason, hheld, hinbox, hy⟩ := s.portDown_eq p reason
  have hother : ∀ q, (((s.setPort (1 - p) y).setPort p x).port q).link = if q = p then x.link else (s.port q).link := fun q => by
    rw [State.port_setPort]
    split
    · rfl
    · rw [State.port_setPort]
      split
      · next h => rw [h, hy]
      · rfl
  have hpp : ((s.setPort (1 - p) y).setPort p x).port p = x := State.port_setPort_self _ p x
  have h0 : Only [.spr] s ((s.setPort (1 - p) y).setPort p x) := (only_setSpr _ _).after (only_setSpr s _)
  have ht0 : ((s.setPort (1 - p) y).setPort p x).spr.train = s.spr.train := rfl
  have he0 : ∀ b j, ((s.setPort (1 - p) y).setPort p x).evc b j = s.evc b j := fun _ _ => rfl
  generalize (s.setPort (1 - p) y).setPort p x = a at *
  have hb := only_bump a (Blk.spr0 + p) (j := 5) (by decide)
  obtain ⟨hlo, hlp, hlt⟩ := loses_loseChips (a.bump (Blk.spr0 + p) 5)
  obtain ⟨v, hv⟩ : ∃ v, v = (match (s.port p).sealMb with
    | some (m, _) => (a.bump (Blk.spr0 + p) 5).loseChips.refuse m rStateConflict 1
    | none => (a.bump (Blk.spr0 + p) 5).loseChips) := ⟨_, rfl⟩
  have hov : Only [.fmn] (a.bump (Blk.spr0 + p) 5).loseChips v := by
    rw [hv]
    split
    · exact only_reply _ _ _
    · exact Only.refl _ _
  rw [hdown, ← hv]
  have hm : Moves p v (unsent.foldl (fun u m => u.reroute p go m) v) :=
    List.foldlRecOn (motive := Moves p v) _ _ (Moves.refl p v) fun t ht m _ => (moves_reroute t p go m).after ht
  have hsv : v.spr.ports = a.spr.ports := by rw [hov .spr (by simp), hlp, hb .spr (by simp)]
  have htv : v.spr.train = a.spr.train := by rw [hov .spr (by simp), hlt, hb .spr (by simp)]
  have hpv : ∀ q, v.port q = a.port q := fun q => congrArg (Tab.get portReset · q) hsv
  have hb10 : StatePart.regs (Blk.spr0 + p) ∈ downParts ∧ StatePart.regs (Blk.spr0 + p) ∉ chipLossParts := by
    rcases (by omega : p = 0 ∨ p = 1) with rfl | rfl
    · decide
    · decide
  have hpk := (hm.parked.trans (by rw [hpv, hpp]) : _ = x.parked)
  refine ⟨?_, (congrArg Port.st hpk :).trans hst, (congrArg Port.reason hpk :).trans hreason, (congrArg Port.held hpk :).trans hheld,
    (congrArg Port.inbox hpk :).trans hinbox, fun q hq => ?_, hm.train.trans (htv.trans ht0), fun j hj h5 => ?_⟩
  · exact (hm.only.mono (by decide)).after ((hov.mono (by decide)).after ((hlo.mono (by decide)).after ((hb.mono (by simp [hb10.1])).after
      (h0.mono (by decide)))))
  · rw [hm.link, hpv, hother, if_neg hq]
  · rw [hm.evc, hov.evc (by simp) hj, hlo.evc hb10.2 hj, State.evc_bump_of_ne a (by unfold evKey; omega), he0]

theorem not_trip_spr {p : Nat} (hp : p < 2) : ¬tripBlk (Blk.spr0 + p) := by unfold tripBlk Blk.spr0; omega
theorem finish_evc_spr (s u : State) {p j : Nat} (hp : p < 2) (hj : j < 32) : (finish s u).evc (Blk.spr0 + p) j = u.evc (Blk.spr0 + p) j :=
  finish_evc s u hj fun h => not_trip_spr hp (.inl h.1)

/-! ## Training -/

/-- A port that a training names begins it. -/
def State.detects (s : State) (named : Bool) (p : Nat) : State :=
  let x := s.port p
  if named && (x.st == .off || x.st == .down) then s.setPort p { x with st := .detect, reason := 0 } else s
section
variable (s : State) (named : Bool) (p : Nat)
theorem only_detects : Only [.spr] s (s.detects named p) := Only.ite (fun _ => only_setSpr s _) fun _ => Only.refl _ s
theorem State.spr_detects : (s.detects named p).spr.train = s.spr.train ∧ (s.detects named p).spr.n = s.spr.n ∧
    (s.detects named p).spr.trainAt = s.spr.trainAt := by
  unfold State.detects
  dsimp only
  split
  · exact ⟨rfl, rfl, rfl⟩
  · exact ⟨rfl, rfl, rfl⟩
variable {s named p}
theorem State.port_detects_ne {q : Nat} (h : q ≠ p) : (s.detects named p).port q = s.port q := by
  unfold State.detects
  dsimp only
  split
  · exact (s.port_setPort p q _).trans (if_neg h)
  · rfl
theorem State.port_detects (hn : named = true) (h : (s.port p).st = .off ∨ (s.port p).st = .down) : ((s.detects named p).port p).st = .detect := by
  unfold State.detects
  dsimp only
  rw [hn, if_pos (by simpa using h), State.port_setPort_self]
theorem State.detects_unnamed : s.detects false p = s := by
  unfold State.detects
  exact if_neg Bool.false_ne_true
end
theorem sprueTrain_begins : ∀ (m : MbId) (s : State), s.asks m.val 0x0901 2 [(0x10, 1, s.rq m.val 0x10 1 < 3), (0x11, 1, 2 ≤ s.rq m.val 0x11 1 && s.rq m.val 0x11 1 ≤ 4)] →
    s.bus.chipId = 0 → 2 ≤ s.aon.pwr → s.spr.train = none →
    (∀ p, p < 2 → (s.rq m.val 0x10 1 = 2 ∨ s.rq m.val 0x10 1 = p) → (s.port p).st = .off ∨ (s.port p).st = .down) →
    Yields (.sprueTrain m) s (fun t => (t.mb m.val).waiting = true ∧ t.spr.train = some (m.val, s.rq m.val 0x10 1) ∧
      t.spr.n = s.rq m.val 0x11 1 ∧ t.spr.trainAt = s.clk.now ∧
      (∀ p, p < 2 → (s.rq m.val 0x10 1 = 2 ∨ s.rq m.val 0x10 1 = p) → (t.port p).st = .detect) ∧
      (∀ p, p < 2 → s.rq m.val 0x10 1 ≠ 2 → s.rq m.val 0x10 1 ≠ p → t.port p = s.port p) ∧ Frame [.fmn, .spr] s t) := by
  intro m s hask hchip hpwr htr hports
  have hq : s.rq m.val 0x10 1 < 3 := of_decide_eq_true (State.asks_field hask (a := 0x10) (n := 1) rfl (by decide) (by decide))
  obtain ⟨port, hport⟩ : ∃ port, port = s.rq m.val 0x10 1 := ⟨_, rfl⟩
  obtain ⟨v, hv⟩ : ∃ v, v = ({ s.await m.val with spr.n := s.rq m.val 0x11 1, spr.train := some (m.val, port), spr.trainAt := s.clk.now } : State) :=
    ⟨_, rfl⟩
  have hov : Only [.fmn, .spr] s v := by
    rw [hv]
    exact ((only_setSpr _ _).mono (by simp)).after ((only_setMb s _ _).mono (by simp))
  have hpv : ∀ p, v.port p = s.port p := fun p => by rw [hv]; rfl
  have hexec : exec (.sprueTrain m) s = done s ((v.detects (port == 2 || port == 0) 0).detects (port == 2 || port == 1) 1) := by
    show execSprueTrain m s = _
    unfold execSprueTrain
    dsimp only
    have hall : (List.range 2).all (fun p => !(s.rq m.val 0x10 1 == 2 || s.rq m.val 0x10 1 == p) || s.portUp p) = false := by
      have hdown : ∀ p, p < 2 → (s.rq m.val 0x10 1 = 2 ∨ s.rq m.val 0x10 1 = p) → (!(s.rq m.val 0x10 1 == 2 || s.rq m.val 0x10 1 == p) || s.portUp p) = false := by
        intro p hp hn
        have hup : s.portUp p = false := by
          unfold State.portUp
          rcases hports p hp hn with h | h
          · rw [h]; rfl
          · rw [h]; rfl
        rw [hup, Bool.or_false, Bool.not_eq_false', Bool.or_eq_true, beq_iff_eq, beq_iff_eq]
        exact hn
      rcases (by omega : s.rq m.val 0x10 1 = 0 ∨ s.rq m.val 0x10 1 = 1 ∨ s.rq m.val 0x10 1 = 2) with h | h | h
      · exact List.all_eq_false.2 ⟨0, by decide, by rw [hdown 0 (by decide) (.inr h)]; decide⟩
      · exact List.all_eq_false.2 ⟨1, by decide, by rw [hdown 1 (by decide) (.inr h)]; decide⟩
      · exact List.all_eq_false.2 ⟨0, by decide, by rw [hdown 0 (by decide) (.inl h)]; decide⟩
    refine congrArg (done s) ((if_neg (by rw [hchip]; simp)).trans ((State.request_asks _ hask).trans ((if_neg (by omega)).trans
      ((if_neg (by rw [htr]; decide)).trans ?_))))
    rw [hall]
    refine (if_neg (by simp)).trans ((if_neg Bool.false_ne_true).trans ?_)
    rw [hv, hport]
    rfl
  obtain ⟨a, ha⟩ : ∃ a, a = v.detects (port == 2 || port == 0) 0 := ⟨_, rfl⟩
  obtain ⟨u, hu⟩ : ∃ u, u = a.detects (port == 2 || port == 1) 1 := ⟨_, rfl⟩
  have hoa : Only [.spr] v a := by rw [ha]; exact only_detects _ _ _
  have hou : Only [.spr] a u := by rw [hu]; exact only_detects _ _ _
  obtain ⟨ha1, ha2, ha3⟩ : a.spr.train = v.spr.train ∧ a.spr.n = v.spr.n ∧ a.spr.trainAt = v.spr.trainAt := by
    rw [ha]; exact State.spr_detects _ _ _
  obtain ⟨hu1, hu2, hu3⟩ : u.spr.train = a.spr.train ∧ u.spr.n = a.spr.n ∧ u.spr.trainAt = a.spr.trainAt := by
    rw [hu]; exact State.spr_detects _ _ _
  have hp0 : u.port 0 = a.port 0 := by rw [hu]; exact State.port_detects_ne (by decide)
  have hp1 : a.port 1 = v.port 1 := by rw [ha]; exact State.port_detects_ne (by decide)
  rw [← ha, ← hu] at hexec
  rw [← hport] at hports hq ⊢
  refine yields_done hexec ⟨?_, ?_, ?_, ?_, fun p hp hn => ?_, fun p hp h2 hn => ?_, ((hou.mono (by simp)).after ((hoa.mono (by simp)).after hov)).frame_finish⟩
  · rw [finish_mb]
    have hf : u.mb m.val = v.mb m.val := (hou.mb (by simp) m.val).trans (hoa.mb (by simp) m.val)
    rw [hf, hv]
    exact congrArg Mailbox.waiting (State.mb_setMb_self s m.val _)
  · rw [finish_spr, hu1, ha1, hv]
  · rw [finish_spr, hu2, ha2, hv]
  · rw [finish_spr, hu3, ha3, hv]
  · rw [finish_port]
    rcases (by omega : p = 0 ∨ p = 1) with rfl | rfl
    · rw [hp0, ha]
      exact State.port_detects (by simpa using hn) (by rw [hpv]; exact hports 0 hp hn)
    · rw [hu]
      exact State.port_detects (by simpa using hn) (by rw [hp1, hpv]; exact hports 1 hp hn)
  · rw [finish_port]
    rcases (by omega : p = 0 ∨ p = 1) with rfl | rfl
    · rw [hp0, ha, show (port == 2 || port == 0) = false by simp [h2, hn], State.detects_unnamed, hpv]
    · rw [hu, show (port == 2 || port == 1) = false by simp [h2, hn], State.detects_unnamed, hp1, hpv]
theorem sprueTrain_refused : ∀ (m : MbId) (s : State), s.accepts m.val 0x0901 true [] → s.bus.chipId ≠ 0 → Yields (.sprueTrain m) s (fun t =>
      t.refuses m.val rNotPermitted 0 ∧ t.spr = s.spr ∧ Frame [.fmn] s t) := by
  intro m s hacc hchip
  have hexec : exec (.sprueTrain m) s = done s (s.refuse m.val rNotPermitted 0) := by
    obtain ⟨-, hready, -, hop, -⟩ := id hacc
    refine congrArg (done s) ((if_pos ?_).trans (State.command_accepts _ hacc))
    rw [hop, hready]
    simp [hchip]
  exact yields_done hexec ⟨⟨_, finish_answers _ _ _ _, rfl, rfl⟩, (finish_spr _ _).trans (only_reply s m.val _ .spr (by simp)), (only_reply s _ _).frame_finish⟩
theorem sprueTrain_timeout : ∀ (m port : Nat) (s : State), s.spr.train = some (m, port) → s.spr.trainAt + 200000000 ≤ s.clk.now → s.allReachable = false →
    Yields .sprueTrainTimeout s (fun t => t.refuses m rTimeout 0 ∧ t.spr = { s.spr with train := none } ∧ Frame [.fmn, .spr] s t) := by
  intro m port s htr hat hreach
  have hexec : exec .sprueTrainTimeout s = done s (({ s with spr.train := none } : State).refuse m rTimeout 0) := by
    show execSprueTrainTimeout s = _
    unfold execSprueTrainTimeout
    have h2 : 2000 * tbMs = 200000000 := by decide
    rw [h2, hreach, decide_eq_true hat]
    refine congrArg (done s) ((if_pos rfl).trans ?_)
    unfold State.trainEnd
    rw [htr]
  have ho := only_reply ({ s with spr.train := none } : State) m { code := rTimeout, detail := 0 }
  refine yields_done hexec ⟨⟨_, finish_answers _ _ _ _, rfl, rfl⟩, ?_, ((ho.mono (by simp)).after ((only_setSpr s _).mono (by simp))).frame_finish⟩
  rw [finish_spr]
  exact ho .spr (by simp)
section
variable {i : Instr} {s : State} {p : Nat} {x : Port} {P : State → Prop}
/-- A change of one port. -/
theorem port_yields (h : exec i s = done s (s.setPort p x)) (hp : ∀ t, t.port p = x → Frame [.spr] s t → P t) : Yields i s P :=
  yields_done h (hp _ ((finish_port _ _ p).trans (State.port_setPort_self s p x)) (only_setSpr s _).frame_finish)
end
theorem sprueTrainStage_detect : ∀ (p : PortId) (l : BitVec 8) (peer : Fin 4) (n : Fin 5) (pp : PortId) (r : Word) (s : State),
    (s.port p.val).st = .detect → 2 ≤ ((List.range 8).filter (fun i => l.toNat.testBit i)).length →
    Yields (.sprueTrainStage p l peer n pp r) s (fun t => (t.port p.val).st = .align ∧ Frame [.spr] s t) := by
  intro p l peer n pp r s hst hl
  have hexec : exec (.sprueTrainStage p l peer n pp r) s = done s (s.setPort p.val { s.port p.val with st := .align }) := by
    show execSprueTrainStage p l peer n pp r s = _
    unfold execSprueTrainStage
    dsimp only
    rw [hst]
    exact congrArg (done s) (if_pos hl)
  exact port_yields hexec fun t ht hf => ⟨by rw [ht], hf⟩
theorem State.findChips_leaves (s : State) : Only [.spr] s s.findChips ∧ s.findChips.spr.ports = s.spr.ports ∧ s.findChips.spr.train = s.spr.train ∧
    s.findChips.spr.n = s.spr.n := by
  unfold State.findChips
  refine List.foldlRecOn (motive := fun t : State => Only [.spr] s t ∧ t.spr.ports = s.spr.ports ∧ t.spr.train = s.spr.train ∧ t.spr.n = s.spr.n) _ _
    ⟨Only.refl _ s, rfl, rfl, rfl⟩ fun t ht d _ => ?_
  split
  · obtain ⟨ho, h1, h2, h3⟩ := ht
    exact ⟨(only_setSpr t _).after ho, h1, h2, h3⟩
  · exact ht
/-- A port that has not narrowed starts afresh. -/
theorem State.portUpNow_fresh {s : State} {p : Nat} (hnar : (s.port p).narrowing = false) (g : Nat × Nat) (peer n : Nat) :
    Only [.spr] s (s.portUpNow p g peer n) ∧ (s.portUpNow p g peer n).spr.train = s.spr.train ∧
    (s.spr.n = 0 → (s.portUpNow p g peer n).spr.n = n) ∧ (s.portUpNow p g peer n).port p = {
      st := .up, width := g.1, lane0 := g.2, lanesBad := (s.port p).lanesBad, peer := peer, listening := (s.port p).listening
      inflight := (s.port p).inflight, lostDue := (s.port p).lostDue, goodAt := s.clk.now, ackAt := s.clk.now, sent := (s.port p).sent } := by
  obtain ⟨y, hy⟩ : ∃ y : Port, y = {
      st := .up, width := g.1, lane0 := g.2, lanesBad := (s.port p).lanesBad, peer := peer, listening := (s.port p).listening
      inflight := (s.port p).inflight, lostDue := (s.port p).lostDue, goodAt := s.clk.now, ackAt := s.clk.now, sent := (s.port p).sent } := ⟨_, rfl⟩
  obtain ⟨a, ha⟩ : ∃ a, a = ({ s.setPort p y with spr.n := if s.spr.n = 0 then n else s.spr.n } : State) := ⟨_, rfl⟩
  obtain ⟨b, hb⟩ : ∃ b, b = if (a.spr.train.isSome || a.bus.chipId != 0) = true then a.findChips else a := ⟨_, rfl⟩
  obtain ⟨c, hc⟩ : ∃ c, c = if p = b.timePort then ({ b with spr.thetaValid := false } : State) else b := ⟨_, rfl⟩
  have hup : s.portUpNow p g peer n = if c.bus.chipId ≠ 0 ∧ 3 ≤ c.spr.n ∧ (c.port (1 - p)).st = .off
      then c.setPort (1 - p) { c.port (1 - p) with st := .detect } else c := by
    rw [hc, hb, ha, hy]
    exact if_neg (by rw [hnar]; exact Bool.false_ne_true)
  rw [← hy, hup]
  have hfa : Only [.spr] s a ∧ a.spr.train = s.spr.train ∧ (s.spr.n = 0 → a.spr.n = n) ∧ a.port p = y := by
    rw [ha]
    exact ⟨(only_setSpr _ _).after (only_setSpr s _), rfl, fun h => if_pos h, State.port_setPort_self s p y⟩
  have hfb : Only [.spr] s b ∧ b.spr.train = s.spr.train ∧ (s.spr.n = 0 → b.spr.n = n) ∧ b.port p = y := by
    obtain ⟨ho, ht, hn, hp⟩ := hfa
    rw [hb]
    split
    · obtain ⟨hof, hpf, htf, hnf⟩ := a.findChips_leaves
      exact ⟨hof.after ho, htf.trans ht, fun h => hnf.trans (hn h), (congrArg (Tab.get portReset · p) hpf).trans hp⟩
    · exact ⟨ho, ht, hn, hp⟩
  have hfc : Only [.spr] s c ∧ c.spr.train = s.spr.train ∧ (s.spr.n = 0 → c.spr.n = n) ∧ c.port p = y := by
    obtain ⟨ho, ht, hn, hp⟩ := hfb
    rw [hc]
    split
    · exact ⟨(only_setSpr b _).after ho, ht, hn, hp⟩
    · exact ⟨ho, ht, hn, hp⟩
  obtain ⟨ho, ht, hn, hp⟩ := hfc
  split
  · refine ⟨(only_setSpr c _).after ho, ht, hn, ((c.port_setPort _ p _).trans (if_neg (by omega))).trans hp⟩
  · exact ⟨ho, ht, hn, hp⟩
theorem sprueTrainStage_up : ∀ (p : PortId) (l : BitVec 8) (peer : Fin 4) (n : Fin 5) (pp : PortId) (r : Word) (g : Nat × Nat) (s : State),
    (s.port p.val).st = .param → (s.port p.val).narrowing = false → laneGroup l 8 = some g →
    s.paramMismatch p.val peer.val n.val pp.val r.toNat = 0 → s.spr.train = none →
    Yields (.sprueTrainStage p l peer n pp r) s (fun t => (t.port p.val).st = .up ∧ (t.port p.val).width = g.1 ∧
      (t.port p.val).lane0 = g.2 ∧ (t.port p.val).peer = peer.val ∧ (t.port p.val).held = [] ∧ (t.port p.val).sealedTx = false ∧
      (t.port p.val).sealedRx = false ∧ (s.spr.n = 0 → t.spr.n = n.val) ∧ Frame [.spr] s t) := by
  intro p l peer n pp r g s hst hnar hg hmis htr
  obtain ⟨a, ha⟩ : ∃ a, a = s.setPort p.val { s.port p.val with st := .param, narrowing := false, lanesBad := 0 } := ⟨_, rfl⟩
  have hap : (a.port p.val).narrowing = false := by rw [ha, State.port_setPort_self]
  have hoa : Only [.spr] s a := by rw [ha]; exact only_setSpr s _
  have hta : a.spr.train = s.spr.train ∧ a.spr.n = s.spr.n := by rw [ha]; exact ⟨rfl, rfl⟩
  obtain ⟨ho, ht, hn, hp⟩ := State.portUpNow_fresh (s := a) (p := p.val) hap g peer.val n.val
  have hexec : exec (.sprueTrainStage p l peer n pp r) s = done s (a.portUpNow p.val g peer.val n.val) := by
    show execSprueTrainStage p l peer n pp r s = _
    unfold execSprueTrainStage
    dsimp only
    rw [hst]
    dsimp only
    rw [hnar, if_neg Bool.false_ne_true, hg]
    dsimp only
    rw [if_neg Bool.false_ne_true]
    refine congrArg (done s) ((if_neg (not_not_intro hmis)).trans ?_)
    rw [if_neg Bool.false_ne_true, ← ha, ht, hta.1, htr]
  generalize a.portUpNow p.val g peer.val n.val = t at *
  refine yields_done hexec ⟨?_, ?_, ?_, ?_, ?_, ?_, ?_, fun h => ?_, (ho.after hoa).frame_finish⟩
  · rw [finish_port, hp]
  · rw [finish_port, hp]
  · rw [finish_port, hp]
  · rw [finish_port, hp]
  · rw [finish_port, hp]
  · rw [finish_port, hp]
  · rw [finish_port, hp]
  · rw [finish_spr, hn (hta.2.trans h)]
theorem sprueTrainStage_down : ∀ (p : PortId) (l : BitVec 8) (peer : Fin 4) (n : Fin 5) (pp : PortId) (r : Word) (g : Nat × Nat) (m port : Nat) (s : State),
    (s.port p.val).st = .param → (s.port p.val).narrowing = false → laneGroup l 8 = some g →
    s.paramMismatch p.val peer.val n.val pp.val r.toNat ≠ 0 → s.spr.train = some (m, port) →
    Yields (.sprueTrainStage p l peer n pp r) s (fun t => (t.port p.val).st = .down ∧ t.spr.train = none ∧
      t.refuses m rStateConflict (s.paramMismatch p.val peer.val n.val pp.val r.toNat) ∧ t.aon = s.aon ∧ t.clk = s.clk) := by
  intro p l peer n pp r g m port s hst hnar hg hmis htr
  have hfall := falls_portDown s p.isLt 0
  have hexec : exec (.sprueTrainStage p l peer n pp r) s = done s (({ s.portDown p.val 0 with spr.train := none } : State).refuse m rStateConflict
      (s.paramMismatch p.val peer.val n.val pp.val r.toNat)) := by
    show execSprueTrainStage p l peer n pp r s = _
    unfold execSprueTrainStage
    dsimp only
    rw [hst]
    dsimp only
    rw [hnar, if_neg Bool.false_ne_true, hg]
    dsimp only
    rw [if_neg Bool.false_ne_true]
    refine congrArg (done s) ((if_pos hmis).trans ?_)
    unfold State.trainEnd
    rw [hfall.train, htr]
  generalize s.portDown p.val 0 = v at *
  have ho := (only_reply ({ v with spr.train := none } : State) m { code := rStateConflict, detail := s.paramMismatch p.val peer.val n.val pp.val r.toNat })
  have hspr := ho .spr (by simp)
  refine yields_done hexec ⟨?_, ?_, ⟨_, finish_answers _ _ _ _, rfl, rfl⟩, ?_, ?_⟩
  · rw [finish_port]
    exact (congrArg (fun x : Spr => (Tab.get portReset x.ports p.val).st) hspr).trans hfall.st
  · rw [finish_spr]
    exact congrArg Spr.train hspr
  · rw [finish_aon]
    exact (ho.aon (by simp)).trans (hfall.only.aon (by decide))
  · rw [finish_clk]
    exact (ho.clk (by simp)).trans (hfall.only.clk (by decide))

/-! ## Faults of a port -/

theorem laneFailure_narrows : ∀ (p : PortId) (lane : Fin 8) (g : Nat × Nat) (s : State), (s.port p.val).st = .up → (s.port p.val).lane0 ≤ lane.val →
    lane.val < (s.port p.val).lane0 + (s.port p.val).width →
    laneGroup (~~~((s.port p.val).lanesBad ||| BitVec.ofNat 8 (2 ^ lane.val))) ((s.port p.val).width - 1) = some g →
    Yields (.laneFailure p lane) s (fun t => t.port p.val = { s.port p.val with
        st := .align, narrowing := true, lanesBad := (s.port p.val).lanesBad ||| BitVec.ofNat 8 (2 ^ lane.val) } ∧
      t.evc (Blk.spr0 + p.val) 4 = s.evc (Blk.spr0 + p.val) 4 + 1 ∧ Frame [.spr, .regs (Blk.spr0 + p.val)] s t) := by
  intro p lane g s hst hlo hhi hg
  obtain ⟨u, hu⟩ : ∃ u, u = s.setPort p.val { s.port p.val with
    lanesBad := (s.port p.val).lanesBad ||| BitVec.ofNat 8 (2 ^ lane.val), st := .align, narrowing := true } := ⟨_, rfl⟩
  have hou : Only [.spr] s u := by rw [hu]; exact only_setSpr s _
  have hexec : exec (.laneFailure p lane) s = done s ({ u.bump (Blk.spr0 + p.val) 4 with spr.tsyncT1 := none } : State) := by
    show execLaneFailure p lane s = _
    unfold execLaneFailure
    dsimp only
    rw [if_pos ⟨hst, hlo, hhi⟩, hg, hu]
  refine yields_done hexec ⟨?_, ?_, (((only_setSpr _ _).mono (by simp)).after (((only_bump u _ (j := 4) (by decide)).mono (by simp)).after
    (hou.mono (by simp)))).frame_finish⟩
  · rw [finish_port]
    show u.port p.val = _
    rw [hu, State.port_setPort_self]
  · rw [finish_evc_spr _ _ p.isLt (by decide)]
    exact (State.evc_bump_self u _ 4).trans (by rw [hu]; rfl)
/-- A step that takes the port down. -/
theorem portDown_yields {i : Instr} {s u : State} {p : Nat} (hp : p < 2) {reason : Nat} (h : exec i s = done s (u.portDown p reason))
    (ha : u.aon = s.aon) (hc : u.clk = s.clk) : Yields i s (fun t => (t.port p).st = .down ∧ (t.port p).reason = reason ∧ (t.port p).held = [] ∧
      (t.port p).inbox = (u.port p).inbox ∧ (∀ j, j < 32 → j ≠ 5 → t.evc (Blk.spr0 + p) j = u.evc (Blk.spr0 + p) j) ∧ t.aon = s.aon ∧ t.clk = s.clk) := by
  have hf := falls_portDown u hp reason
  refine yields_done h ⟨?_, ?_, ?_, ?_, fun j hj h5 => ?_, ?_, ?_⟩
  · exact (congrArg Port.st (finish_port _ _ p)).trans hf.st
  · exact (congrArg Port.reason (finish_port _ _ p)).trans hf.reason
  · exact (congrArg Port.held (finish_port _ _ p)).trans hf.held
  · exact (congrArg Port.inbox (finish_port _ _ p)).trans hf.inbox
  · rw [finish_evc_spr _ _ hp hj, hf.evc j hj h5]
  · rw [finish_aon, hf.only.aon (by decide), ha]
  · rw [finish_clk, hf.only.clk (by decide), hc]
theorem laneFailure_down : ∀ (p : PortId) (lane : Fin 8) (s : State), (s.port p.val).st = .up → (s.port p.val).lane0 ≤ lane.val →
    lane.val < (s.port p.val).lane0 + (s.port p.val).width →
    laneGroup (~~~((s.port p.val).lanesBad ||| BitVec.ofNat 8 (2 ^ lane.val))) ((s.port p.val).width - 1) = none →
    Yields (.laneFailure p lane) s (fun t => (t.port p.val).st = .down ∧ (t.port p.val).reason = 3 ∧ t.aon = s.aon ∧ t.clk = s.clk) := by
  intro p lane s hst hlo hhi hg
  have hexec : exec (.laneFailure p lane) s = done s ((s.setPort p.val { s.port p.val with
      lanesBad := (s.port p.val).lanesBad ||| BitVec.ofNat 8 (2 ^ lane.val) }).portDown p.val 3) := by
    show execLaneFailure p lane s = _
    unfold execLaneFailure
    dsimp only
    rw [if_pos ⟨hst, hlo, hhi⟩, hg]
  obtain ⟨t, ht, h1, h2, -, -, -, h3, h4⟩ := portDown_yields p.isLt hexec rfl rfl
  exact ⟨t, ht, h1, h2, h3, h4⟩
section
variable {p : PortId} {s : State}
theorem exec_replayTimer (hst : (s.port p.val).st = .up) (hh : (s.port p.val).held ≠ []) (hat : (s.port p.val).ackAt + 200 ≤ s.clk.now) :
    exec (.replayTimer p) s = done s (s.replay p.val) := by
  have h2 : 2 * tbUs = 200 := by decide
  exact congrArg (done s) (if_pos ⟨hst, hh, by rw [h2]; exact hat⟩)
/-- The count of a replay. -/
def State.replays (s : State) (p : Nat) : State :=
  { (s.setPort p { s.port p with resends := (s.port p).resends + 1 }).bump (Blk.spr0 + p) 3 with spr.tsyncT1 := none }
theorem State.replay_eq {p : Nat} (hh : (s.port p).held ≠ []) :
    s.replay p = if 4 ≤ (s.port p).resends + 1 then (s.replays p).portDown p 2 else (s.replays p).resend p := if_neg hh
end
theorem replayTimer_resends : ∀ (p : PortId) (s : State), (s.port p.val).st = .up → (s.port p.val).held ≠ [] → (s.port p.val).ackAt + 200 ≤ s.clk.now →
    (s.port p.val).resends < 3 → Yields (.replayTimer p) s (fun t =>
      (t.port p.val).sent = (s.port p.val).sent ++ (s.port p.val).held.map (fun f => f.bytes) ∧
      (t.port p.val).held = (s.port p.val).held ∧ (t.port p.val).resends = (s.port p.val).resends + 1 ∧ (t.port p.val).st = .up ∧
      t.evc (Blk.spr0 + p.val) 3 = s.evc (Blk.spr0 + p.val) 3 + 1 ∧ t.port (1 - p.val) = s.port (1 - p.val) ∧
      Frame [.spr, .regs (Blk.spr0 + p.val)] s t) := by
  intro p s hst hh hat hre
  have hexec := exec_replayTimer hst hh hat
  rw [State.replay_eq hh, if_neg (by omega)] at hexec
  have hpr : (s.replays p.val).port p.val = { s.port p.val with resends := (s.port p.val).resends + 1 } := State.port_setPort_self s _ _
  have hpo : (s.replays p.val).port (1 - p.val) = s.port (1 - p.val) := (s.port_setPort p.val _ _).trans (if_neg (by omega))
  have her : (s.replays p.val).evc (Blk.spr0 + p.val) 3 = s.evc (Blk.spr0 + p.val) 3 + 1 := State.evc_bump_self (s.setPort p.val _) _ 3
  have hor : Only [.spr, .regs (Blk.spr0 + p.val)] s (s.replays p.val) := ((only_setSpr _ _).mono (by simp)).after
    (((only_bump _ _ (j := 3) (by decide)).mono (by simp)).after ((only_setSpr s _).mono (by simp)))
  generalize s.replays p.val = u at *
  have hport : (u.resend p.val).port p.val = { u.port p.val with
      sent := (u.port p.val).sent ++ (u.port p.val).held.map (fun f => f.bytes), ackAt := u.clk.now } := State.port_setPort_self u _ _
  rw [hpr] at hport
  refine yields_done hexec ⟨?_, ?_, ?_, ?_, ?_, ?_, (((only_setSpr u _).mono (by simp)).after hor).frame_finish⟩
  · rw [finish_port, hport]
  · rw [finish_port, hport]
  · rw [finish_port, hport]
  · rw [finish_port, hport]
    exact hst
  · rw [finish_evc_spr _ _ p.isLt (by decide)]
    exact her
  · rw [finish_port]
    exact ((u.port_setPort p.val _ _).trans (if_neg (by omega))).trans hpo
theorem replayTimer_down : ∀ (p : PortId) (s : State), (s.port p.val).st = .up → (s.port p.val).held ≠ [] → (s.port p.val).ackAt + 200 ≤ s.clk.now →
    3 ≤ (s.port p.val).resends → Yields (.replayTimer p) s (fun t => (t.port p.val).st = .down ∧ (t.port p.val).reason = 2 ∧
      (t.port p.val).held = [] ∧ t.aon = s.aon ∧ t.clk = s.clk) := by
  intro p s hst hh hat hre
  have hexec := exec_replayTimer hst hh hat
  rw [State.replay_eq hh, if_pos (by omega)] at hexec
  obtain ⟨t, ht, h1, h2, h3, -, -, h4, h5⟩ := portDown_yields p.isLt hexec rfl rfl
  exact ⟨t, ht, h1, h2, h3, h4, h5⟩
/-- What a silent port leaves of the other one. -/
structure Silent (p : Nat) (s t : State) : Prop where
  only : Only downParts s t
  link : ∀ q, q ≠ p → (t.port q).link = (s.port q).link
theorem silent_portSilent (s : State) {p : Nat} (hp : p < 2) : Silent p s (s.portSilent p) := by
  have hf := falls_portDown s hp 1
  unfold State.portSilent
  dsimp only
  split
  · exact ⟨hf.only, hf.link⟩
  · exact ⟨Only.refl _ s, fun _ _ => rfl⟩
theorem linkTimeout_down : ∀ (p : PortId) (s : State), (s.port p.val).st = .up → (s.port p.val).goodAt + 1000 ≤ s.clk.now →
    Yields .linkTimeout s (fun t => (t.port p.val).st = .down ∧ (t.port p.val).reason = 1 ∧ t.aon = s.aon ∧ t.clk = s.clk) := by
  intro p s hst hgood
  have h10 : 10 * tbUs = 1000 := by decide
  have hdue : ∀ u : State, (u.port p.val).st = .up → (u.port p.val).goodAt = (s.port p.val).goodAt → u.clk = s.clk →
      u.portSilent p.val = u.portDown p.val 1 := fun u h1 h2 h3 => if_pos ⟨h1, by rw [h10, h2, h3]; exact hgood⟩
  have hexec : exec .linkTimeout s = done s ((s.portSilent 0).portSilent 1) := rfl
  obtain ⟨i, hi⟩ := p
  rcases (by omega : i = 0 ∨ i = 1) with rfl | rfl
  · have hfall := falls_portDown s (p := 0) (by decide) 1
    rw [hdue s hst rfl rfl] at hexec
    have hsil := silent_portSilent (s.portDown 0 1) (p := 1) (by decide)
    have hl := hsil.link 0 (by decide)
    refine yields_done hexec ⟨?_, ?_, ?_, ?_⟩
    · rw [finish_port]
      exact (congrArg Port.st hl :).trans hfall.st
    · rw [finish_port]
      exact (congrArg Port.reason hl :).trans hfall.reason
    · rw [finish_aon, hsil.only.aon (by decide), hfall.only.aon (by decide)]
    · rw [finish_clk, hsil.only.clk (by decide), hfall.only.clk (by decide)]
  · have hsil := silent_portSilent s (p := 0) (by decide)
    have hl := hsil.link 1 (by decide)
    rw [hdue (s.portSilent 0) ((congrArg Port.st hl :).trans hst) (congrArg Port.goodAt hl :) (hsil.only.clk (by decide))] at hexec
    obtain ⟨t, ht, h1, h2, -, -, -, h3, h4⟩ := portDown_yields (p := 1) (by decide) hexec (hsil.only.aon (by decide)) (hsil.only.clk (by decide))
    exact ⟨t, ht, h1, h2, h3, h4⟩
/-- A write of no flask that is lost counts as an error and an event. -/
theorem State.lostEnd_write (s : State) (p : Nat) {i : InFlight} (hf : i.flask = none) (hw : i.write = true) :
    s.lostEnd p i = (s.fabErr 0 i.master i.cls 0 i.write i.addr).bump (Blk.spr0 + p) 7 := by
  unfold State.lostEnd
  rw [hf]
  exact if_pos hw
theorem lostEnd_foldl {p : Nat} (l : List InFlight) (hl : ∀ i ∈ l, i.flask = none ∧ i.write = true) : ∀ s : State,
    Only [.regs 0, .regs (Blk.spr0 + p)] s (l.foldl (fun s i => s.lostEnd p i) s) ∧
    (l.foldl (fun s i => s.lostEnd p i) s).evc (Blk.spr0 + p) 7 = s.evc (Blk.spr0 + p) 7 + BitVec.ofNat 16 l.length := by
  induction l with
  | nil => exact fun s => ⟨Only.refl _ s, (BitVec.add_zero _).symm⟩
  | cons i l ih =>
    intro s
    obtain ⟨hf, hw⟩ := hl i (List.mem_cons_self ..)
    obtain ⟨ho, he⟩ := ih (fun j hj => hl j (List.mem_cons_of_mem _ hj)) (s.lostEnd p i)
    have hfab := only_fabErr s 0 i.master i.cls 0 i.write i.addr
    rw [List.foldl_cons]
    refine ⟨ho.after ?_, he.trans ?_⟩
    · rw [State.lostEnd_write s p hf hw]
      exact ((only_bump _ _ (j := 7) (by decide)).mono (by simp)).after (hfab.mono (by simp))
    · rw [State.lostEnd_write s p hf hw, State.evc_bump_self, hfab.evc (by simp [Blk.spr0]) (by decide), List.length_cons, BitVec.ofNat_add,
        BitVec.add_assoc, BitVec.add_comm (BitVec.ofNat 16 l.length)]
      rfl
theorem lostAccessEnd_yields : ∀ s : State, (s.port 0).lostDue = true → (s.port 1).lostDue = true → (∀ p, ∀ i ∈ (s.port p).inflight, i.flask = none ∧ i.write = true) →
    Yields .lostAccessEnd s (fun t => (t.port 0).inflight = [] ∧ (t.port 1).inflight = [] ∧ (t.port 0).lostDue = false ∧
      t.evc Blk.spr0 7 = s.evc Blk.spr0 7 + BitVec.ofNat 16 (s.port 0).inflight.length ∧ t.mem = s.mem ∧
      Frame [.spr, .bus, .regs 0, .regs 10, .regs 11] s t) := by
  intro s h0 h1 hin
  have hall : ∀ (u : State) (l : List InFlight), l.filter (fun i => true || u.chipLost i.dst) = l := fun u l =>
    List.filter_eq_self.2 fun i _ => Bool.true_or _
  have hnone : ∀ (u : State) (l : List InFlight), l.filter (fun i => !(true || u.chipLost i.dst)) = [] := fun u l =>
    List.filter_eq_nil_iff.2 fun i _ => by simp
  obtain ⟨a, ha⟩ : ∃ a, a = s.setPort 0 { s.port 0 with inflight := [], lostDue := false } := ⟨_, rfl⟩
  obtain ⟨b, hb⟩ : ∃ b, b = (s.port 0).inflight.foldl (fun s i => s.lostEnd 0 i) a := ⟨_, rfl⟩
  obtain ⟨c, hc⟩ : ∃ c, c = b.setPort 1 { s.port 1 with inflight := [], lostDue := false } := ⟨_, rfl⟩
  have hoa : Only [.spr] s a := by rw [ha]; exact only_setSpr s _
  obtain ⟨hob, heb⟩ := lostEnd_foldl (p := 0) (s.port 0).inflight (hin 0) a
  rw [← hb] at hob heb
  have hb1 : b.port 1 = s.port 1 := (congrArg (fun x : Spr => Tab.get portReset x.ports 1) (hob .spr (by decide))).trans
    (by rw [ha]; exact (s.port_setPort 0 1 _).trans (if_neg (by decide)))
  have hoc : Only [.spr] b c := by rw [hc]; exact only_setSpr b _
  obtain ⟨hod, -⟩ := lostEnd_foldl (p := 1) (s.port 1).inflight (hin 1) c
  have hexec : exec .lostAccessEnd s = done s ((s.port 1).inflight.foldl (fun s i => s.lostEnd 1 i) c) := by
    show execLostAccessEnd s = _
    unfold execLostAccessEnd
    rw [show List.range 2 = [0, 1] from rfl, List.foldl_cons, List.foldl_cons, List.foldl_nil]
    dsimp only
    rw [h0, hall, hnone, ← ha, ← hb, hb1, h1, hall, hnone, ← hc]
  generalize (s.port 1).inflight.foldl (fun s i => s.lostEnd 1 i) c = d at *
  have hspr : d.spr = c.spr := hod .spr (by decide)
  have hd0 : d.port 0 = { s.port 0 with inflight := [], lostDue := false } := by
    refine (congrArg (fun x : Spr => Tab.get portReset x.ports 0) hspr).trans ?_
    rw [hc]
    refine ((b.port_setPort 1 0 _).trans (if_neg (by decide))).trans ?_
    refine (congrArg (fun x : Spr => Tab.get portReset x.ports 0) (hob .spr (by decide))).trans ?_
    rw [ha]
    exact State.port_setPort_self s 0 _
  have hd1 : d.port 1 = { s.port 1 with inflight := [], lostDue := false } := by
    refine (congrArg (fun x : Spr => Tab.get portReset x.ports 1) hspr).trans ?_
    rw [hc]
    exact State.port_setPort_self b 1 _
  have hsd : Only [.spr, .regs 0, .regs 10, .regs 11] s d := (hod.mono (by decide)).after ((hoc.mono (by decide)).after ((hob.mono (by decide)).after
    (hoa.mono (by decide))))
  refine yields_done hexec ⟨?_, ?_, ?_, ?_, ?_, (hsd.mono (by decide)).frame_finish⟩
  · rw [finish_port, hd0]
  · rw [finish_port, hd1]
  · rw [finish_port, hd0]
  · refine (finish_evc_spr s d (p := 0) (j := 7) (by decide) (by decide)).trans ?_
    rw [hod.evc (b := Blk.spr0 + 0) (by decide) (by decide), hoc.evc (b := Blk.spr0 + 0) (by decide) (by decide), heb,
      hoa.evc (b := Blk.spr0 + 0) (by decide) (by decide)]
  · rw [finish_mem]
    exact hsd .mem (by decide)

/-! ## Flits -/

theorem flitReceived_badCrc : ∀ (p : PortId) (b : List Byte) (s : State), (s.port p.val).st = .up → b.length = 256 → bytesAt b 0xFC 4 ≠ crc32c (b.take 0xFC) →
    Yields (.flitReceived p b) s (fun t => t.evc (Blk.spr0 + p.val) 2 = s.evc (Blk.spr0 + p.val) 2 + 1 ∧
      (t.port p.val).sent.length = (s.port p.val).sent.length + 1 ∧ (t.port p.val).rxSeq = (s.port p.val).rxSeq ∧
      (t.port p.val).inbox = (s.port p.val).inbox ∧ (t.port p.val).held = (s.port p.val).held ∧
      Frame [.spr, .regs (Blk.spr0 + p.val)] s t) := by
  intro p b s hst hlen hcrc
  obtain ⟨x, hx, hl, hsent, hheld⟩ := (s.bump (Blk.spr0 + p.val) 2).sendFlit_nak p.val
  have hexec : exec (.flitReceived p b) s = done s ((s.bump (Blk.spr0 + p.val) 2).setPort p.val x) := by
    rw [← hx]
    exact congrArg (done s) ((if_neg (by rw [hst, hlen]; decide)).trans (if_pos hcrc))
  have hport : ((s.bump (Blk.spr0 + p.val) 2).setPort p.val x).port p.val = x := State.port_setPort_self _ _ _
  refine yields_done hexec ⟨?_, ?_, ?_, ?_, ?_, (((only_setSpr _ _).mono (by simp)).after ((only_bump s _ (j := 2) (by decide)).mono (by simp))).frame_finish⟩
  · rw [finish_evc_spr _ _ p.isLt (by decide)]
    exact State.evc_bump_self s _ 2
  · rw [finish_port, hport]
    exact hsent
  · rw [finish_port, hport]
    exact (congrArg Port.rxSeq hl :)
  · rw [finish_port, hport]
    exact (congrArg Port.inbox hl :)
  · rw [finish_port, hport]
    exact hheld
/-- The ACK of a good flit leaves what has been received. -/
theorem State.takeAck_leaves (s : State) (p : Nat) (b : List Byte) : Only [.spr, .regs (Blk.spr0 + p)] s (s.takeAck p b) ∧
    (∀ q, q ≠ p → (s.takeAck p b).port q = s.port q) ∧ ((s.takeAck p b).port p).goodAt = s.clk.now ∧
    ((s.takeAck p b).port p).rxSeq = (s.port p).rxSeq ∧ ((s.takeAck p b).port p).inbox = (s.port p).inbox ∧
    ((s.takeAck p b).port p).st = (s.port p).st := by
  obtain ⟨x, hx, h1, h2, h3, h4⟩ : ∃ x : Port, s.takeAck p b = (s.setPort p x).pump p ∧ x.goodAt = s.clk.now ∧ x.rxSeq = (s.port p).rxSeq ∧
      x.inbox = (s.port p).inbox ∧ x.st = (s.port p).st := ⟨_, rfl, rfl, rfl, rfl, rfl⟩
  have hs := sends_pump (s.setPort p x) p
  have hsame := hs.same
  rw [State.port_setPort_self] at hsame
  obtain ⟨hst, -, hrx, hin, hgood, -⟩ := hsame
  rw [hx]
  exact ⟨hs.only.after ((only_setSpr s _).mono (by simp)), fun q hq => (hs.other q hq).trans ((s.port_setPort p q x).trans (if_neg hq)),
    hgood.trans h1, hrx.trans h2, hin.trans h3, hst.trans h4⟩
theorem flitReceived_message : ∀ (p : PortId) (b : List Byte) (s : State), (s.port p.val).st = .up → b.length = 256 → bytesAt b 0xFC 4 = crc32c (b.take 0xFC) →
    bytesAt b 0 1 = 1 → bytesAt b 2 1 = (s.port p.val).rxSeq → (s.port p.val).sealedRx = false → Yields (.flitReceived p b) s (fun t =>
      (t.port p.val).inbox = (s.port p.val).inbox ++ parseMsgs 15 ((b.drop 8).take 240) ∧
      (t.port p.val).rxSeq = ((s.port p.val).rxSeq + 1) % 256 ∧ (t.port p.val).goodAt = s.clk.now ∧ (t.port p.val).st = .up ∧
      t.port (1 - p.val) = s.port (1 - p.val) ∧ Frame [.spr, .regs (Blk.spr0 + p.val)] s t) := by
  intro p b s hst hlen hcrc htyp hseq hseal
  obtain ⟨hov, hother, hgood, hrx, hin, hup⟩ := s.takeAck_leaves p.val b
  have hopen : s.openFlit p.val b = some ((b.drop 8).take 240) := if_pos (by rw [hseal]; rfl)
  obtain ⟨v, hv⟩ : ∃ v, v = s.takeAck p.val b := ⟨_, rfl⟩
  rw [← hv] at hov hother hgood hrx hin hup
  obtain ⟨x, hx, h1, h2, h3, h4⟩ : ∃ x : Port, v.takeFlit p.val 1 ((b.drop 8).take 240) = ((v.setPort p.val { v.port p.val with
      rxSeq := ((v.port p.val).rxSeq + 1) % 256, sealRx := if (v.port p.val).sealedRx then (v.port p.val).sealRx + 1 else (v.port p.val).sealRx }).setPort
        p.val x).addPair (Blk.spr0 + p.val) 0x150 1 ∧ x.inbox = (v.port p.val).inbox ++ parseMsgs 15 ((b.drop 8).take 240) ∧
      x.rxSeq = ((v.port p.val).rxSeq + 1) % 256 ∧ x.goodAt = (v.port p.val).goodAt ∧ x.st = (v.port p.val).st := by
    unfold State.takeFlit
    dsimp only
    rw [State.port_setPort_self]
    exact ⟨_, rfl, rfl, rfl, rfl, rfl⟩
  have hexec : exec (.flitReceived p b) s = done s (((v.setPort p.val { v.port p.val with
      rxSeq := ((v.port p.val).rxSeq + 1) % 256, sealRx := if (v.port p.val).sealedRx then (v.port p.val).sealRx + 1 else (v.port p.val).sealRx }).setPort
        p.val x).addPair (Blk.spr0 + p.val) 0x150 1) := by
    rw [← hx]
    show execFlitReceived p b s = _
    unfold execFlitReceived
    dsimp only
    rw [if_neg (by rw [hst, hlen]; decide), if_neg (not_not_intro hcrc), if_pos (.inl htyp), if_neg (not_not_intro hseq), hopen, htyp, ← hv]
  obtain ⟨w, hw⟩ : ∃ w, w = v.setPort p.val { v.port p.val with
    rxSeq := ((v.port p.val).rxSeq + 1) % 256, sealRx := if (v.port p.val).sealedRx then (v.port p.val).sealRx + 1 else (v.port p.val).sealRx } := ⟨_, rfl⟩
  have how : Only [.spr] v w := by rw [hw]; exact only_setSpr v _
  have hwo : w.port (1 - p.val) = v.port (1 - p.val) := by rw [hw]; exact (v.port_setPort p.val _ _).trans (if_neg (by omega))
  rw [← hw] at hexec
  have hport : ((w.setPort p.val x).addPair (Blk.spr0 + p.val) 0x150 1).port p.val = x := State.port_setPort_self w _ _
  have hport' : ((w.setPort p.val x).addPair (Blk.spr0 + p.val) 0x150 1).port (1 - p.val) = w.port (1 - p.val) :=
    (w.port_setPort p.val _ _).trans (if_neg (by omega))
  have ho := ((Sends.addPair (w.setPort p.val x) p.val (o := 0x150) (by decide) 1).only.after ((only_setSpr w _).mono (by simp))).after
    ((how.mono (by simp)).after hov)
  refine yields_done hexec ⟨?_, ?_, ?_, ?_, ?_, ho.frame_finish⟩
  · rw [finish_port, hport, h1, hin]
  · rw [finish_port, hport, h2, hrx]
  · rw [finish_port, hport, h3, hgood]
  · rw [finish_port, hport, h4, hup]
    exact hst
  · rw [finish_port, hport', hwo, hother _ (by omega)]
theorem flitReceived_outOfSequence : ∀ (p : PortId) (b : List Byte) (s : State), (s.port p.val).st = .up → b.length = 256 → bytesAt b 0xFC 4 = crc32c (b.take 0xFC) →
    (bytesAt b 0 1 = 1 ∨ bytesAt b 0 1 = 3 ∨ bytesAt b 0 1 = 4) → bytesAt b 2 1 ≠ (s.port p.val).rxSeq → Yields (.flitReceived p b) s (fun t =>
      (t.port p.val).inbox = (s.port p.val).inbox ∧ (t.port p.val).rxSeq = (s.port p.val).rxSeq ∧
      (t.port p.val).sent.length = (s.port p.val).sent.length + 1 ∧ Frame [.spr] s t) := by
  intro p b s hst hlen hcrc htyp hseq
  obtain ⟨u, hu⟩ : ∃ u, u = s.setPort p.val { s.port p.val with goodAt := s.clk.now } := ⟨_, rfl⟩
  have hup : u.port p.val = { s.port p.val with goodAt := s.clk.now } := by rw [hu, State.port_setPort_self]
  obtain ⟨x, hx, hl, hsent, -⟩ := u.sendFlit_nak p.val
  have hexec : exec (.flitReceived p b) s = done s (u.setPort p.val x) := by
    rw [← hx, hu]
    exact congrArg (done s) ((if_neg (by rw [hst, hlen]; decide)).trans ((if_neg (not_not_intro hcrc)).trans ((if_pos htyp).trans (if_pos hseq))))
  have hport : (u.setPort p.val x).port p.val = x := State.port_setPort_self _ _ _
  rw [hup] at hl hsent
  refine yields_done hexec ⟨?_, ?_, ?_, ((only_setSpr u _).after (by rw [hu]; exact only_setSpr s _)).frame_finish⟩
  · rw [finish_port, hport]
    exact (congrArg Port.inbox hl :)
  · rw [finish_port, hport]
    exact (congrArg Port.rxSeq hl :)
  · rw [finish_port, hport]
    exact hsent
theorem flitReceived_badTag : ∀ (p : PortId) (b : List Byte) (s : State), (s.port p.val).st = .up → b.length = 256 → bytesAt b 0xFC 4 = crc32c (b.take 0xFC) →
    (bytesAt b 0 1 = 1 ∨ bytesAt b 0 1 = 3 ∨ bytesAt b 0 1 = 4) → bytesAt b 2 1 = (s.port p.val).rxSeq → s.openFlit p.val b = none →
    Yields (.flitReceived p b) s (fun t => (t.port p.val).st = .down ∧ (t.port p.val).reason = 4 ∧
      (t.port p.val).inbox = (s.port p.val).inbox ∧ t.evc (Blk.spr0 + p.val) 6 = s.evc (Blk.spr0 + p.val) 6 + 1 ∧ t.aon = s.aon ∧ t.clk = s.clk) := by
  intro p b s hst hlen hcrc htyp hseq hopen
  have hexec : exec (.flitReceived p b) s = done s ((s.bump (Blk.spr0 + p.val) 6).portDown p.val 4) := by
    show execFlitReceived p b s = _
    unfold execFlitReceived
    dsimp only
    rw [if_neg (by rw [hst, hlen]; decide), if_neg (not_not_intro hcrc), if_pos htyp, if_neg (not_not_intro hseq), hopen]
  obtain ⟨t, ht, h1, h2, -, h3, h4, h5, h6⟩ := portDown_yields p.isLt hexec rfl rfl
  exact ⟨t, ht, h1, h2, h3, (h4 6 (by decide) (by decide)).trans (State.evc_bump_self s _ 6), h5, h6⟩
theorem crcBit_lt {c : Nat} (h : c < 2 ^ 32) : crcBit c < 2 ^ 32 := by
  unfold crcBit
  split
  · exact Nat.xor_lt_two_pow (by omega) (by decide)
  · omega
theorem crcByte_lt {c : Nat} (h : c < 2 ^ 32) (b : Byte) : crcByte c b < 2 ^ 32 :=
  crcBit_lt (crcBit_lt (crcBit_lt (crcBit_lt (crcBit_lt (crcBit_lt (crcBit_lt (crcBit_lt
    (Nat.xor_lt_two_pow h (b.isLt.trans (by decide))))))))))
theorem crc32c_lt (l : List Byte) : crc32c l < 2 ^ 32 :=
  Nat.xor_lt_two_pow (List.foldlRecOn (motive := (· < 2 ^ 32)) l crcByte (by decide) fun _ hc b _ => crcByte_lt hc b) (by decide)
theorem flitBytes_crc : ∀ x f w o : BitVec 8, ∀ l : List Byte, (flitBytes [x, f, w, o, 0, 0, 0, 0] l).length = 256 ∧
    bytesAt (flitBytes [x, f, w, o, 0, 0, 0, 0] l) 0xFC 4 = crc32c ((flitBytes [x, f, w, o, 0, 0, 0, 0] l).take 0xFC) := by
  intro x f w o l
  have hlen : (([x, f, w, o, 0, 0, 0, 0] ++ l ++ List.replicate 240 0).take 248 ++ List.replicate 4 0).length = 252 := by
    rw [List.length_append, List.length_take, List.length_append, List.length_append, List.length_replicate, List.length_replicate]
    show min 248 (8 + l.length + 240) + 4 = 252
    omega
  unfold flitBytes
  dsimp only
  generalize ([x, f, w, o, 0, 0, 0, 0] ++ l ++ List.replicate 240 0).take 248 ++ List.replicate 4 (0 : Byte) = d at *
  refine ⟨by rw [List.length_append, hlen, leBytes_length], ?_⟩
  have htake : (d ++ leBytes 4 (crc32c d)).take 0xFC = d := by rw [← hlen, List.take_left]
  have hdrop : (d ++ leBytes 4 (crc32c d)).drop 0xFC = leBytes 4 (crc32c d) := by rw [← hlen, List.drop_left]
  rw [htake]
  unfold bytesAt
  rw [hdrop, List.take_of_length_le (by rw [leBytes_length]), leNat_leBytes]
  exact Nat.mod_eq_of_lt (crc32c_lt d)

/-- Settles O43: training, the faults of a port and each flit are one branch of their definitions; sending leaves what a port has received. -/
theorem sprueLinks : Obligations.SprueLinks := by
  unfold Obligations.SprueLinks
  exact ⟨⟨sprueTrain_begins, sprueTrain_refused, sprueTrain_timeout, sprueTrainStage_detect, sprueTrainStage_up, sprueTrainStage_down⟩,
    ⟨laneFailure_narrows, laneFailure_down, replayTimer_resends, replayTimer_down, linkTimeout_down, lostAccessEnd_yields⟩,
    flitReceived_badCrc, flitReceived_message, flitReceived_outOfSequence, flitReceived_badTag, flitBytes_crc⟩

end Sys2Proof.Machine
end
section
/-! Jobs: admission, start, commit, kill, abort and teardown (R490 to R558). -/
namespace Sys2Proof.Machine
open Sys2Proof

/-! ## What keeps the contexts' states and the idle flasks -/

/-- A change that keeps every context's state, starts no job, and counts no scheduler event but those of `e`. -/
structure Kept (e : List Nat) (s t : State) : Prop where
  st : ∀ c, (t.ctx c).st = (s.ctx c).st
  status : ∀ c, (t.ctx c).lastStatus = (s.ctx c).lastStatus
  idle : ∀ f, (s.flask f).running = none → (t.flask f).running = none
  evc : ∀ j, j < 32 → j ∉ e → t.evc Blk.sch j = s.evc Blk.sch j

namespace Kept
variable {e e' : List Nat} {s t u : State}
theorem refl (s : State) : Kept e s s := ⟨fun _ => rfl, fun _ => rfl, fun _ h => h, fun _ _ _ => rfl⟩
theorem after (h2 : Kept e t u) (h1 : Kept e s t) : Kept e s u :=
  ⟨fun c => (h2.st c).trans (h1.st c), fun c => (h2.status c).trans (h1.status c), fun f h => h2.idle f (h1.idle f h),
    fun j hj he => (h2.evc j hj he).trans (h1.evc j hj he)⟩
theorem mono (h : Kept e s t) (he : e ⊆ e') : Kept e' s t := ⟨h.st, h.status, h.idle, fun j hj hn => h.evc j hj fun hm => hn (he hm)⟩
theorem of_only {l : List StatePart} (h : Only l s t) (hs : .sch ∉ l) (hr : .regs Blk.sch ∉ l) : Kept e s t :=
  have hsch := h .sch hs
  ⟨fun c => congrArg (fun x : Sch => (Tab.get ctxReset x.ctxs c).st) hsch, fun c => congrArg (fun x : Sch => (Tab.get ctxReset x.ctxs c).lastStatus) hsch,
    fun f hf => (congrArg (fun x : Sch => (Tab.get flaskReset x.flasks f).running) hsch).trans hf, fun _ hj _ => h.evc hr hj⟩
theorem of_own (h : Only ownParts s t) : Kept e s t := of_only h (by decide) (by decide)
theorem setCtx {c : Nat} {x : Ctx} (h1 : x.st = (s.ctx c).st) (h2 : x.lastStatus = (s.ctx c).lastStatus) : Kept e s (s.setCtx c x) := by
  refine ⟨fun k => ?_, fun k => ?_, fun f h => h, fun _ _ _ => rfl⟩
  · rw [State.ctx_setCtx]
    split
    · next h => rw [h, h1]
    · rfl
  · rw [State.ctx_setCtx]
    split
    · next h => rw [h, h2]
    · rfl
theorem setFlask {f : Nat} {x : Flask} (h : (s.flask f).running = none → x.running = none) : Kept e s (s.setFlask f x) := by
  refine ⟨fun k => rfl, fun k => rfl, fun g hg => ?_, fun _ _ _ => rfl⟩
  rw [State.flask_setFlask]
  split
  · next hgf => exact h (hgf ▸ hg)
  · exact hg
theorem setReg (s : State) (o : Nat) (v : Word) : Kept e s (s.setReg Blk.sch o v) := ⟨fun _ => rfl, fun _ => rfl, fun _ h => h, fun _ _ _ => rfl⟩
theorem bump (s : State) {j : Nat} (hj : j < 32) : Kept [j] s (s.bump Blk.sch j) := by
  have h := only_bump s Blk.sch hj
  have hsch := h .sch (by simp)
  refine ⟨fun c => congrArg (fun x : Sch => (Tab.get ctxReset x.ctxs c).st) hsch, fun c => congrArg (fun x : Sch => (Tab.get ctxReset x.ctxs c).lastStatus) hsch,
    fun f hf => (congrArg (fun x : Sch => (Tab.get flaskReset x.flasks f).running) hsch).trans hf, fun i hi hn => State.evc_bump_of_ne s ?_⟩
  rw [List.mem_singleton] at hn
  unfold evKey
  omega
theorem foldl {α : Type} {f : State → α → State} {xs : List α} (h : ∀ s, ∀ x ∈ xs, Kept e s (f s x)) (s : State) : Kept e s (xs.foldl f s) :=
  List.foldlRecOn (motive := Kept e s) _ _ (refl s) fun t ht x hx => (h t x hx).after ht
theorem ite {c : Prop} [Decidable c] (ht : c → Kept e s t) (hu : ¬c → Kept e s u) : Kept e s (if c then t else u) := by
  split
  · next h => exact ht h
  · next h => exact hu h
end Kept
section
variable {e : List Nat} (s : State)
theorem kept_devicePush (q : Nat) (body : List Byte) : Kept e s (s.devicePush q body) := .of_own (own_devicePush s q body)
theorem kept_placeNow (c : Nat) (ep : Option Nat) (body : List Byte) : Kept e s (s.placeNow c ep body) :=
  (kept_devicePush _ _ _).after (Kept.setCtx rfl rfl)
theorem kept_placeJob (c ep : Nat) (body : List Byte) : Kept e s (s.placeJob c ep body) :=
  Kept.ite (fun _ => Kept.setCtx rfl rfl) fun _ => kept_placeNow s c _ body
theorem kept_remember (c id : Nat) : Kept e s (s.remember c id) := Kept.setCtx rfl rfl
theorem kept_completeStaged (j : Job) (status code framing : Nat) : Kept e s (s.completeStaged j status code framing) :=
  (kept_placeJob _ _ _ _).after (kept_remember s _ _)
theorem kept_reply (m : Nat) (r : Resp) : Kept e s (s.reply m r) := .of_own (own_reply s m r)
theorem kept_zeroParts (c n : Nat) : Kept e s (s.zeroParts c n) := Kept.foldl (fun t p _ => .of_own (own_zeroRange t p.1 p.2)) s
theorem kept_zeroDeferred (f : Nat) : Kept e s (s.zeroDeferred f) := by
  refine Kept.foldl (fun t c _ => Kept.ite (fun _ => Kept.refl t) fun _ => ?_) s
  have h := Kept.foldl (e := e) (xs := (t.ctx c).zeroLeft.filter (fun n => (t.crucibles f).contains n)) (fun u n _ => kept_zeroParts u c n) t
  refine Kept.after (Kept.setCtx ?_ ?_) h
  · exact (h.st c).symm
  · exact (h.status c).symm
theorem kept_dropRemote (f : Nat) : Kept e s (s.dropRemote f) := Kept.foldl (fun t _ _ => .of_only (only_setSpr t _) (by simp) (by simp)) s
theorem kept_freeEncoders (f : Nat) : Kept e s (s.freeEncoders f) := .of_only (only_setFlx s _) (by simp) (by simp)
theorem kept_stopEvents (f : Nat) : Kept e s (s.stopEvents f) := by
  refine Kept.foldl (fun t n hn => ?_) s
  have := State.crucibles_lt hn
  exact .of_own (own_bump t (by unfold Blk.cru0; omega) (by omega))
theorem kept_withdrawLend : Kept e s s.withdrawLend := by
  unfold State.withdrawLend
  split
  · exact Kept.refl s
  · exact Kept.setFlask id
theorem kept_fsuGone (c : Nat) : Kept e s (s.fsuGone c) :=
  Kept.ite (fun _ => (kept_withdrawLend _).after (.of_own (own_fsuClear s))) fun _ => Kept.refl s
theorem kept_ownedGone (c : Nat) : Kept e s (s.ownedGone c) :=
  (Kept.of_own (own_fbcGone _ c)).after ((Kept.of_own (own_dispGone _ c)).after ((kept_fsuGone _ c).after ((Kept.of_own (own_patGone _ c)).after
    ((Kept.of_own (own_engGone _ c)).after (.of_own (own_ingGone s c))))))
theorem kept_logRecord (cls code blk ctx arg st : Nat) : Kept e s (s.logRecord cls code blk ctx arg st) :=
  .of_only (only_logRecord s cls code blk ctx arg st) (by simp) (by simp)
end

/-! ## The commit point -/

section
variable {s : State} {f : Nat} {r : Running}
/-- The commit of a running job up to its record: the flask is free and the commit counts. -/
def State.freeFlask (s : State) (f : Nat) : State :=
  let s1 := (s.setFlask f { s.flask f with running := none }).dropRemote f
  ((s1.freeEncoders f).setReg Blk.sch (0x1014 + 0x100 * f)
    (BitVec.ofNat 32 ((fld (s1.reg Blk.sch (0x1014 + 0x100 * f)) 0 16 + 1) % 65536))).bump Blk.sch 2
theorem State.commitJob_running (h : (s.flask f).running = some r) (status code tensor op : Nat) :
    s.commitJob f status code tensor op = ((r.aborts.foldl (fun s m => if status = stAborted then s.replyDone m else s.refuse m rAlreadyDone 0)
      (if r.job.ctx < 32 then ((s.freeFlask f).remember r.job.ctx r.job.jobId).placeJob r.job.ctx r.job.epoch (s.runRecord r status code tensor op)
       else (s.freeFlask f).assistEnd r.job.jobId (status = stOk))).zeroDeferred f) := by
  unfold State.commitJob
  rw [h]
  rfl
theorem State.freeFlask_leaves (s : State) (f : Nat) : Kept [2] s (s.freeFlask f) ∧ ((s.freeFlask f).flask f).running = none ∧
    (s.freeFlask f).evc Blk.sch 2 = s.evc Blk.sch 2 + 1 := by
  unfold State.freeFlask
  dsimp only
  obtain ⟨a, ha⟩ : ∃ a, a = s.setFlask f { s.flask f with running := none } := ⟨_, rfl⟩
  have hka : Kept [] s a := by rw [ha]; exact Kept.setFlask fun _ => rfl
  have haf : (a.flask f).running = none := by rw [ha, State.flask_setFlask_self]
  rw [← ha]
  have hkb : Kept [] a (((a.dropRemote f).freeEncoders f).setReg Blk.sch (0x1014 + 0x100 * f)
      (BitVec.ofNat 32 ((fld ((a.dropRemote f).reg Blk.sch (0x1014 + 0x100 * f)) 0 16 + 1) % 65536))) :=
    (Kept.setReg _ _ _).after ((kept_freeEncoders _ f).after (kept_dropRemote a f))
  generalize ((a.dropRemote f).freeEncoders f).setReg Blk.sch (0x1014 + 0x100 * f)
      (BitVec.ofNat 32 ((fld ((a.dropRemote f).reg Blk.sch (0x1014 + 0x100 * f)) 0 16 + 1) % 65536)) = b at *
  have hkc := Kept.bump b (j := 2) (by decide)
  refine ⟨hkc.after ((hkb.after hka).mono (by simp)), hkc.idle f (hkb.idle f haf), ?_⟩
  rw [State.evc_bump_self, hkb.evc 2 (by decide) (by simp), hka.evc 2 (by decide) (by simp)]
/-- What the rest of a commit keeps. -/
theorem kept_commitRest (u : State) (j : Job) (l : List Nat) (status : Nat) (body : List Byte) (f : Nat) :
    Kept [] u ((l.foldl (fun s m => if status = stAborted then s.replyDone m else s.refuse m rAlreadyDone 0)
      (if j.ctx < 32 then (u.remember j.ctx j.jobId).placeJob j.ctx j.epoch body else u.assistEnd j.jobId (status = stOk))).zeroDeferred f) := by
  refine (kept_zeroDeferred _ f).after ((Kept.foldl (fun t m _ => Kept.ite (fun _ => kept_reply t m _) fun _ => kept_reply t m _) _).after
    (Kept.ite (fun _ => ?_) fun _ => ?_))
  · exact (kept_placeJob _ _ _ _).after (kept_remember u _ _)
  · exact .of_only (only_setFsu u _) (by simp) (by simp)
theorem State.commitJob_leaves (h : (s.flask f).running = some r) (status code tensor op : Nat) :
    Kept [2] s (s.commitJob f status code tensor op) ∧ ((s.commitJob f status code tensor op).flask f).running = none ∧
    (s.commitJob f status code tensor op).evc Blk.sch 2 = s.evc Blk.sch 2 + 1 := by
  obtain ⟨hk, hf, he⟩ := s.freeFlask_leaves f
  have hr := kept_commitRest (s.freeFlask f) r.job r.aborts status (s.runRecord r status code tensor op) f
  rw [State.commitJob_running h]
  exact ⟨(hr.mono (by simp)).after hk, hr.idle f hf, (hr.evc 2 (by decide) (by simp)).trans he⟩
theorem kept_commitJob (s : State) (f status code tensor op : Nat) : Kept [2] s (s.commitJob f status code tensor op) ∧
    ((s.commitJob f status code tensor op).flask f).running = none := by
  cases h : (s.flask f).running with
  | none =>
    have hs : s.commitJob f status code tensor op = s := by
      unfold State.commitJob
      rw [h]
    rw [hs]
    exact ⟨Kept.refl s, h⟩
  | some r =>
    obtain ⟨h1, h2, -⟩ := State.commitJob_leaves h status code tensor op
    exact ⟨h1, h2⟩
theorem kept_lendSettle (s : State) : Kept [] s s.lendSettle := by
  unfold State.lendSettle
  split
  · exact Kept.refl s
  · next f hf =>
    dsimp only
    refine Kept.ite (fun _ => Kept.refl s) fun _ => ?_
    have h1 : Kept [] s ((s.setFlask f { s.flask f with assist := none }).release s.fsu.assistBase s.fsu.assistSize 0x0801 0x0801) :=
      (Kept.of_own (own_release _ _ _ _ _)).after (Kept.setFlask id)
    generalize (s.setFlask f { s.flask f with assist := none }).release s.fsu.assistBase s.fsu.assistSize 0x0801 0x0801 = u at *
    have hend : ∀ v : State, Kept [] v { v with
        fsu.lent := none, fsu.lentBudget := 0, fsu.assistBase := 0, fsu.assistSize := 0, sch.withdrawMb := none } := fun v =>
      ⟨fun _ => rfl, fun _ => rfl, fun _ h => h, fun _ _ _ => rfl⟩
    refine Kept.after ?_ h1
    split
    · exact (hend _).after (kept_reply u _ _)
    · exact hend u
end

/-! ## Teardown -/

/-- Flasks whose jobs are ended in turn. -/
theorem commits_foldl {F : State → Nat → State} (h : ∀ t f, Kept [2] t (F t f) ∧ ((F t f).flask f).running = none) (l : List Nat) : ∀ s : State,
    Kept [2] s (l.foldl F s) ∧ ∀ f ∈ l, ((l.foldl F s).flask f).running = none := by
  induction l with
  | nil => exact fun s => ⟨Kept.refl s, fun f hf => absurd hf (List.not_mem_nil)⟩
  | cons g l ih =>
    intro s
    obtain ⟨hk, hl⟩ := ih (F s g)
    refine ⟨hk.after (h s g).1, fun f hf => ?_⟩
    rcases List.mem_cons.1 hf with rfl | hf
    · exact hk.idle f (h s f).2
    · exact hl f hf

/-- A teardown leaves its context in TEARDOWN with the status and ends every job of it. -/
theorem State.teardownOn_leaves {s : State} {c : Nat} (h : (s.ctx c).st = .opened) (status : Nat) (on : Option (Nat × Nat × Nat × Nat)) :
    ((s.teardownOn c status on).ctx c).st = .teardown ∧ ((s.teardownOn c status on).ctx c).lastStatus = status ∧
    (∀ f ∈ s.ctxFlasks c, ((s.teardownOn c status on).flask f).running = none) ∧
    (∀ j, j < 32 → j ≠ 2 → (s.teardownOn c status on).evc Blk.sch j = s.evc Blk.sch j) ∧
    ∀ k, k ≠ c → ((s.teardownOn c status on).ctx k).st = (s.ctx k).st := by
  unfold State.teardownOn
  extract_lets x fl first s1 s2 s3 x3 s4 s5 busy s6 x6
  rw [if_neg (not_not_intro h)]
  have hst : (s1.ctx c).st = .teardown ∧ (s1.ctx c).lastStatus = status := by
    rw [State.ctx_setCtx_self]
    exact ⟨rfl, rfl⟩
  have hlog : Kept [2] s1 s2 := kept_logRecord s1 2 status Blk.sch c 0 _
  obtain ⟨hjobs, hidle⟩ : Kept [2] s2 s3 ∧ ∀ f ∈ fl, (s3.flask f).running = none := commits_foldl (fun t f =>
    ⟨(kept_commitJob (t.stopEvents f) f _ _ _ _).1.after (kept_stopEvents t f), (kept_commitJob (t.stopEvents f) f _ _ _ _).2⟩) fl s2
  have hstaged : Kept [] s3 s4 := (Kept.foldl (fun t j _ => kept_completeStaged t j _ _ _) _).after (Kept.setCtx rfl rfl)
  have hown : Kept [] s4 s5 := kept_ownedGone s4 c
  have hzero : Kept [] s5 s6 := Kept.foldl (fun t n _ => Kept.ite (fun _ => Kept.refl t) fun _ => kept_zeroParts t c n) s5
  have hlast : Kept [] s6 (s6.setCtx c { x6 with zeroLeft := busy }) := Kept.setCtx rfl rfl
  have hrest := hlast.after (hzero.after (hown.after hstaged))
  have hall := (hrest.mono (List.nil_subset [2])).after (hjobs.after hlog)
  exact ⟨(hall.st c).trans hst.1, (hall.status c).trans hst.2, fun f hf => hrest.idle f (hidle f hf), fun j hj h2 => hall.evc j hj (by simpa using h2),
    fun k hk => (hall.st k).trans (congrArg Ctx.st ((State.ctx_setCtx s c k _).trans (if_neg hk)))⟩

/-! ## Records -/

theorem take_patch (l : List Byte) {o n k : Nat} (v : Nat) (h : k ≤ o) (hl : k ≤ l.length) : (patch l o n v).take k = l.take k := by
  unfold patch
  rw [List.append_assoc, List.take_append_of_le_length (by rw [List.length_take]; omega), List.take_take, Nat.min_eq_left h]
theorem patch_length (l : List Byte) {o n : Nat} (v : Nat) (h : o + n ≤ l.length) : (patch l o n v).length = l.length := by
  unfold patch
  rw [List.length_append, List.length_append, List.length_take, List.length_drop, leBytes_length]
  omega
/-- A record begins with its KIND, its STATUS, its FLAGS and its JOB_ID. -/
theorem recordBytes_split (kind status flags jobId c flask detail tbStart tbCommit tag opsDone clip elem recast drift stall : Nat) :
    ∃ l, recordBytes kind status flags jobId c flask detail tbStart tbCommit tag opsDone clip elem recast drift stall =
      BitVec.ofNat 8 kind :: BitVec.ofNat 8 status :: (leBytes 2 flags ++ (leBytes 4 jobId ++ l)) ∧ l.length = 56 := by
  refine ⟨leBytes 1 c ++ leBytes 1 flask ++ leBytes 2 0 ++ leBytes 4 detail ++ leBytes 8 tbStart ++ leBytes 8 tbCommit ++ leBytes 8 tag ++
    leBytes 4 opsDone ++ leBytes 4 clip ++ leBytes 8 elem ++ leBytes 2 recast ++ leBytes 2 drift ++ leBytes 4 stall, ?_, ?_⟩
  · unfold recordBytes
    simp only [List.append_assoc]
    rfl
  · simp only [List.length_append, leBytes_length]
section
variable {kind status flags jobId c flask detail tbStart tbCommit tag opsDone clip elem recast drift stall : Nat}
theorem recordBytes_length : (recordBytes kind status flags jobId c flask detail tbStart tbCommit tag opsDone clip elem recast drift stall).length = 64 := by
  obtain ⟨l, hl, hlen⟩ := recordBytes_split kind status flags jobId c flask detail tbStart tbCommit tag opsDone clip elem recast drift stall
  rw [hl, List.length_cons, List.length_cons, List.length_append, List.length_append, leBytes_length, leBytes_length, hlen]
theorem recordBytes_take : (recordBytes kind status flags jobId c flask detail tbStart tbCommit tag opsDone clip elem recast drift stall).take 2 =
    [BitVec.ofNat 8 kind, BitVec.ofNat 8 status] := by
  obtain ⟨l, hl, -⟩ := recordBytes_split kind status flags jobId c flask detail tbStart tbCommit tag opsDone clip elem recast drift stall
  rw [hl]
  rfl
theorem recordBytes_job : bytesAt (recordBytes kind status flags jobId c flask detail tbStart tbCommit tag opsDone clip elem recast drift stall) 4 4 =
    jobId % 2 ^ 32 := by
  obtain ⟨l, hl, -⟩ := recordBytes_split kind status flags jobId c flask detail tbStart tbCommit tag opsDone clip elem recast drift stall
  rw [hl]
  unfold bytesAt
  rw [show (BitVec.ofNat 8 kind :: BitVec.ofNat 8 status :: (leBytes 2 flags ++ (leBytes 4 jobId ++ l))).drop 4 = leBytes 4 jobId ++ l from rfl,
    List.take_left' (leBytes_length 4 jobId), leNat_leBytes]
  rfl
theorem recordBytes_kind : bytesAt (recordBytes kind status flags jobId c flask detail tbStart tbCommit tag opsDone clip elem recast drift stall) 0 1 =
    kind % 256 := by
  obtain ⟨l, hl, -⟩ := recordBytes_split kind status flags jobId c flask detail tbStart tbCommit tag opsDone clip elem recast drift stall
  rw [hl]
  show (BitVec.ofNat 8 kind).toNat + 256 * 0 = kind % 256
  exact BitVec.toNat_ofNat kind 8
end
section
variable {s : State} {c : Nat} {ep : Option Nat} {body : List Byte}
/-- The queue of a context's records can take one. -/
def State.recordsOpen (s : State) (c : Nat) : Prop := s.qEn (qComp c) = true ∧ (s.queue (qComp c)).dropping = false
theorem State.placeNow_ctx (s : State) (c : Nat) (ep : Option Nat) (body : List Byte) (k : Nat) : (s.placeNow c ep body).ctx k =
    if k = c then { s.ctx c with seq := ((s.ctx c).seq + 1) % 65536, lastJob := if bytesAt body 0 1 == 0 then some (bytesAt body 4 4) else (s.ctx c).lastJob }
    else s.ctx k := by
  refine (congrArg (fun x : Sch => Tab.get ctxReset x.ctxs k) ((only_devicePush _ _ _) .sch (by simp))).trans ?_
  exact State.ctx_setCtx s c k _
/-- A record placed at its instant stands at TAIL of its queue. -/
theorem State.placeNow_occ (h : s.recordsOpen c) : ((s.placeNow c ep body).queue (qComp c)).occ = (s.queue (qComp c)).occ + 1 := by
  obtain ⟨b, x, hb⟩ : ∃ (b : List Byte) (x : Ctx), s.placeNow c ep body = (s.setCtx c x).devicePush (qComp c) b := ⟨_, _, rfl⟩
  rw [hb]
  exact (State.devicePush_leaves (s := s.setCtx c x) h.1 h.2).1
theorem State.placeNow_bytes (h : s.recordsOpen c) (hl : 64 ≤ body.length) :
    (s.placeNow c ep body).mbytes (s.qSlot (qComp c) (s.queue (qComp c)).tail) 2 = body.take 2 := by
  obtain ⟨hen, hdrop⟩ := h
  obtain ⟨b, x, hb, hbl, hbt⟩ : ∃ (b : List Byte) (x : Ctx), s.placeNow c ep body = (s.setCtx c x).devicePush (qComp c) b ∧ 2 ≤ b.length ∧
      b.take 2 = body.take 2 := by
    refine ⟨_, _, rfl, ?_, ?_⟩
    · rw [patch_length _ _ (by rw [patch_length _ _ (by omega)]; omega), patch_length _ _ (by omega)]
      omega
    · rw [take_patch _ _ (by omega) (by rw [patch_length _ _ (by omega)]; omega), take_patch _ _ (by omega) (by omega)]
  obtain ⟨-, hmem⟩ := State.devicePush_leaves (s := s.setCtx c x) (q := qComp c) (body := b) hen hdrop
  rw [hb]
  refine (congrArg (fun m : Mem => Tab.slice zeroByte m.bytes (s.qSlot (qComp c) (s.queue (qComp c)).tail) 2) hmem).trans ?_
  rw [← hbt]
  exact State.mbytes_store (s.setCtx c x) hbl
end

/-- Reads of queue q that only its state and its registers decide. -/
theorem State.queueReads {s t : State} {q : Nat} (hlt : q < 128) (hq : t.queue q = s.queue q)
    (hr : ∀ o, o < 0x10000 → t.reg Blk.que o = s.reg Blk.que o) : t.qEn q = s.qEn q ∧ t.credits q = s.credits q ∧ ∀ i, t.qSlot q i = s.qSlot q i := by
  have hdepth : t.qDepth q = s.qDepth q := by
    unfold State.qDepth State.qcfg
    rw [hr _ (by omega)]
  have hring : t.qRing q = s.qRing q := by
    unfold State.qRing
    rw [hr _ (by omega)]
  refine ⟨State.qEn_congr hlt hr, ?_, fun i => ?_⟩
  · unfold State.credits
    rw [hq, hdepth]
  · unfold State.qSlot
    rw [hdepth, hring]
theorem State.queue_setQueue_of_ne (s : State) {q k : Nat} (x : Queue) (h : k ≠ q) : (s.setQueue q x).queue k = s.queue k :=
  (s.queue_setQueue q k x).trans (if_neg h)
theorem State.queue_qNotify_ne (s : State) {q k : Nat} (h : k ≠ q) : (s.qNotify q).queue k = s.queue k := by
  unfold State.qNotify
  dsimp only
  split
  · exact s.queue_setQueue_of_ne _ h
  · rfl
theorem State.queue_devicePush_ne (s : State) {q k : Nat} (body : List Byte) (h : k ≠ q) : (s.devicePush q body).queue k = s.queue k := by
  unfold State.devicePush State.deviceEntries State.enqueue State.enqueue
  dsimp only
  split
  · rw [State.queue_qNotify_ne _ h]
    split
    · exact s.queue_setQueue_of_ne _ h
    · exact State.queue_setQueue_of_ne _ _ h
  · rfl
theorem State.zeroDeferred_none {s : State} (h : ∀ c, c < 32 → (s.ctx c).zeroLeft = []) (f : Nat) : s.zeroDeferred f = s := by
  unfold State.zeroDeferred
  refine List.foldlRecOn (motive := (· = s)) _ _ rfl fun t ht c hc => ?_
  rw [ht]
  dsimp only
  rw [h c (List.mem_range.1 hc)]
  exact if_pos rfl
theorem State.lendSettle_none {s : State} (h : s.fsu.lent = none) : s.lendSettle = s := by
  unfold State.lendSettle
  rw [h]
theorem State.placeJob_now {s : State} {c ep : Nat} {body : List Byte} (h : s.epochDue c = false) (hc : s.credits (qComp c) ≠ 0) :
    s.placeJob c ep body = s.placeNow c (some ep) body := if_neg (by rw [h]; simp [hc])

/-! ## Admission, start and commit -/

section
variable {i : Instr} {s : State} {f : Nat} {x : Flask} {P : State → Prop}
/-- A change of one flask. -/
theorem flask_yields (h : exec i s = done s (s.setFlask f x))
    (hp : ∀ t, t.flask f = x → (∀ g, g ≠ f → t.flask g = s.flask g) → Frame [.sch] s t → P t) : Yields i s P :=
  yields_done h (hp _ ((finish_flask _ _ f).trans (State.flask_setFlask_self s f x))
    (fun g hg => (finish_flask _ _ g).trans ((s.flask_setFlask f g x).trans (if_neg hg))) (only_setSch s _).frame_finish)
end
theorem jobAdmit_yields : ∀ (f : FlaskId) (j : Job) (s : State), s.frozen = false → s.aon.pwr = 3 → (s.flask f.val).built = true → (s.flask f.val).n ≠ 0 →
    (s.flask f.val).running = none → s.flaskHalted f.val = false → s.offered f.val = some j → s.fits f.val j = true →
    j.ctx < 32 → s.admits j.ctx = true → j.barrier = false → Yields (.jobAdmit f) s (fun t =>
      (t.flask f.val).running = some { job := j } ∧ (t.ctx j.ctx).staged = (s.ctx j.ctx).staged.erase j ∧
      (∀ g, g ≠ f.val → t.flask g = s.flask g) ∧ (∀ c, c ≠ j.ctx → t.ctx c = s.ctx c) ∧ Frame [.sch] s t) := by
  intro f j s hfr hpwr hbuilt hn hrun hhalt hoff hfits hc hadm hbar
  have hexec : exec (.jobAdmit f) s = done s ((s.setCtx j.ctx { s.ctx j.ctx with staged := (s.ctx j.ctx).staged.erase j }).setFlask f.val
      { s.flask f.val with running := some { job := j } }) := by
    show execJobAdmit f s = _
    unfold execJobAdmit
    dsimp only
    rw [if_neg (by rw [hfr, hpwr, hbuilt, hrun, hhalt]; simp [hn]), hoff]
    dsimp only
    rw [if_neg (by rw [hfits]; decide), if_pos hc, if_pos (by rw [hadm, hbar]; rfl)]
  refine yields_done hexec ⟨?_, ?_, fun g hg => ?_, fun c hne => ?_, ((only_setSch _ _).after (only_setSch s _)).frame_finish⟩
  · rw [finish_flask, State.flask_setFlask_self]
  · rw [finish_ctx]
    exact congrArg Ctx.staged (State.ctx_setCtx_self s j.ctx _)
  · rw [finish_flask, State.flask_setFlask, if_neg hg]
    rfl
  · rw [finish_ctx]
    exact (s.ctx_setCtx j.ctx c _).trans (if_neg hne)
theorem jobStart_yields : ∀ (f : FlaskId) (r : Running) (s : State), (s.flask f.val).running = some r → r.started = false → s.frozen = false →
    Yields (.jobStart f) s (fun t => (t.flask f.val).running = some { r with started := true, tbStart := s.clk.now } ∧
      (∀ g, g ≠ f.val → t.flask g = s.flask g) ∧ Frame [.sch] s t) := by
  intro f r s hrun hst hfr
  have hexec : exec (.jobStart f) s = done s (s.setFlask f.val { s.flask f.val with
      running := some { r with started := true, tbStart := s.clk.now } }) := by
    show execJobStart f s = _
    unfold execJobStart
    dsimp only
    rw [hrun]
    dsimp only
    rw [if_neg (by rw [hst, hfr]; decide)]
  exact flask_yields hexec fun t ht hg hf => ⟨by rw [ht], hg, hf⟩
theorem State.freeFlask_sch (s : State) {f : Nat} (hlt : f < 8) : (s.freeFlask f).sch = (s.setFlask f { s.flask f with running := none }).sch ∧
    Only [.sch, .spr, .flx, .regs Blk.sch] s (s.freeFlask f) := by
  unfold State.freeFlask
  dsimp only
  obtain ⟨a, ha⟩ : ∃ a, a = s.setFlask f { s.flask f with running := none } := ⟨_, rfl⟩
  have hoa : Only [.sch] s a := by rw [ha]; exact only_setSch s _
  rw [← ha]
  have hdrop : Only [.spr] a (a.dropRemote f) := Only.foldl (fun t _ _ => only_setSpr t _) a
  have hall : Only [.spr, .flx, .regs Blk.sch] a ((((a.dropRemote f).freeEncoders f).setReg Blk.sch (0x1014 + 0x100 * f)
      (BitVec.ofNat 32 ((fld ((a.dropRemote f).reg Blk.sch (0x1014 + 0x100 * f)) 0 16 + 1) % 65536))).bump Blk.sch 2) :=
    ((only_bump _ Blk.sch (j := 2) (by decide)).mono (by simp)).after (((only_setReg _ Blk.sch (by omega) _).mono (by simp)).after
      (((only_setFlx _ _).mono (by simp)).after (hdrop.mono (by simp))))
  exact ⟨hall .sch (by simp), (hall.mono (by simp)).after (hoa.mono (by simp))⟩
theorem jobCommit_yields : ∀ (f : FlaskId) (r : Running) (s : State), (s.flask f.val).running = some r → r.job.ctx < 32 → s.frozen = false →
    s.finished r = true → r.ended = none → r.aborts = [] → s.epochDue r.job.ctx = false → s.credits (qComp r.job.ctx) ≠ 0 →
    s.qEn (qComp r.job.ctx) = true → (s.queue (qComp r.job.ctx)).dropping = false → (∀ c, c < 32 → (s.ctx c).zeroLeft = []) →
    s.fsu.lent = none → Yields (.jobCommit f) s (fun t => (t.flask f.val).running = none ∧ t.evc Blk.sch 2 = s.evc Blk.sch 2 + 1 ∧
      (t.queue (qComp r.job.ctx)).occ = (s.queue (qComp r.job.ctx)).occ + 1 ∧ (t.ctx r.job.ctx).lastJob = some (r.job.jobId % 2 ^ 32) ∧
      (t.ctx r.job.ctx).st = (s.ctx r.job.ctx).st ∧
      t.mbytes (s.qSlot (qComp r.job.ctx) (s.queue (qComp r.job.ctx)).tail) 2 = [0, 0]) := by
  intro f r s hrun hc hfr hfin hend hab hep hcr hen hdrop hzero hlent
  obtain ⟨hsch, hou⟩ := s.freeFlask_sch f.isLt
  obtain ⟨huk, hidle, he2⟩ := s.freeFlask_leaves f.val
  have hcq : qComp r.job.ctx < 128 := by unfold qComp; omega
  obtain ⟨u, hu⟩ : ∃ u, u = s.freeFlask f.val := ⟨_, rfl⟩
  obtain ⟨v, hv⟩ : ∃ v, v = u.remember r.job.ctx r.job.jobId := ⟨_, rfl⟩
  rw [← hu] at hsch hou huk hidle he2
  have hov : Only [.sch] u v := by rw [hv]; exact only_setSch u _
  have hsv : Only [.sch, .spr, .flx, .regs Blk.sch] s v := (hov.mono (by simp)).after hou
  have hqv : v.queue (qComp r.job.ctx) = s.queue (qComp r.job.ctx) := congrArg (Tab.get queueReset0 · (qComp r.job.ctx)) (hsv .queues (by decide))
  obtain ⟨hev, hcv, hsl⟩ := State.queueReads hcq hqv fun _ ho => hsv.reg (b := Blk.que) (by decide) ho
  have hctxs : u.sch.ctxs = s.sch.ctxs := (congrArg Sch.ctxs hsch :)
  have huc : ∀ k, u.ctx k = s.ctx k := fun k => congrArg (Tab.get ctxReset · k) hctxs
  have hvc : ∀ k, v.ctx k = if k = r.job.ctx then { s.ctx r.job.ctx with committed := (r.job.jobId :: (s.ctx r.job.ctx).committed).take 64 } else s.ctx k :=
    fun k => by
      rw [hv, ← huc k, ← huc r.job.ctx]
      exact State.ctx_setCtx u _ k _
  have hepv : v.epochDue r.job.ctx = false := by
    have hd : v.sch.resetDue = s.sch.resetDue := by rw [hv]; exact (congrArg Sch.resetDue hsch :)
    unfold State.epochDue
    rw [hd]
    exact hep
  obtain ⟨w, hw⟩ : ∃ w, w = v.placeNow r.job.ctx (some r.job.epoch) (s.runRecord r stOk 0 0 0) := ⟨_, rfl⟩
  have hwc := v.placeNow_ctx r.job.ctx (some r.job.epoch) (s.runRecord r stOk 0 0 0)
  rw [← hw] at hwc
  have hlen : 64 ≤ (s.runRecord r stOk 0 0 0).length := by unfold State.runRecord; rw [recordBytes_length]
  have hopen : v.recordsOpen r.job.ctx := ⟨hev.trans hen, by rw [hqv]; exact hdrop⟩
  have hocc := State.placeNow_occ (ep := some r.job.epoch) (body := s.runRecord r stOk 0 0 0) hopen
  have hbytes := State.placeNow_bytes (ep := some r.job.epoch) hopen hlen
  rw [← hw] at hocc hbytes
  have hwz : ∀ c, c < 32 → (w.ctx c).zeroLeft = [] := fun c hlt => by
    rw [hwc, hvc, hvc, if_pos rfl]
    split
    · exact hzero _ hc
    · exact hzero c hlt
  have hwk : Kept [] u w := by
    rw [hw]
    exact (kept_placeNow _ _ _ _).after (by rw [hv]; exact kept_remember u _ _)
  have hfsu : w.fsu.lent = none := by
    have hp : Only [.sch, .queues, .mem] v w := by
      rw [hw]
      exact ((only_devicePush _ _ _).mono (by simp)).after ((only_setSch v _).mono (by simp))
    rw [hp .fsu (by simp), hsv .fsu (by simp)]
    exact hlent
  have hexec : exec (.jobCommit f) s = done s w := by
    show execJobCommit f s = _
    unfold execJobCommit
    rw [hrun]
    dsimp only
    rw [if_neg (by rw [hfr, hfin]; decide), hend]
    dsimp only
    rw [State.commitJob_running hrun, hab, List.foldl_nil, if_pos hc, ← hu, ← hv, State.placeJob_now hepv (by rw [hcv]; exact hcr), ← hw,
      State.zeroDeferred_none hwz, State.lendSettle_none hfsu]
  refine yields_done hexec ⟨?_, ?_, ?_, ?_, ?_, ?_⟩
  · rw [finish_flask]
    exact hwk.idle _ hidle
  · rw [finish_evc _ _ (by decide) (by decide), hwk.evc 2 (by decide) (by simp), he2]
  · rw [finish_queue, hocc, hqv]
  · rw [finish_ctx, hwc, if_pos rfl]
    unfold State.runRecord
    rw [recordBytes_kind, recordBytes_job]
    rfl
  · rw [finish_ctx, hwk.st, huk.st]
  · rw [finish_mbytes, ← hsl, ← hqv, hbytes]
    unfold State.runRecord
    exact recordBytes_take
theorem jobStage_yields : ∀ (c : CtxId) (s : State), s.frozen = false → (s.ctx c.val).st = .opened → (s.ctx c.val).closing = none →
    (s.ctx c.val).flushLeft = 0 → (s.ctx c.val).staged.length < 16 → s.recordCredit c.val = true → s.headRun (2 * c.val) ≠ 0 →
    s.qEn (qComp c.val) = true → s.epochDue c.val = false → (s.queue (qComp c.val)).dropping = false →
    Yields (.jobStage c) s (fun t => (t.queue (2 * c.val)).occ = (s.queue (2 * c.val)).occ - s.headRun (2 * c.val) ∧
      (t.queue (qComp c.val)).occ = (s.queue (qComp c.val)).occ + 1 ∧
      t.mbytes (s.qSlot (qComp c.val) (s.queue (qComp c.val)).tail) 2 = [0, BitVec.ofNat 8 stDescriptor]) := by
  intro c s hfr hst hclo hfl hstg hrec hhead hen hep hdrop
  have hcq : qComp c.val < 128 := by unfold qComp; have := c.isLt; omega
  have hne : qComp c.val ≠ 2 * c.val := by unfold qComp; omega
  obtain ⟨j, hj⟩ : ∃ j : Job, j = { ctx := c.val, flask := 0xFF, jobId := 0xFFFFFFFF, epoch := (s.queue (qComp c.val)).epoch } := ⟨_, rfl⟩
  obtain ⟨u, hu⟩ : ∃ u, u = s.takeEntries c.val (s.headRun (2 * c.val)) := ⟨_, rfl⟩
  obtain ⟨v, hv⟩ : ∃ v, v = u.remember c.val j.jobId := ⟨_, rfl⟩
  have hsv : Only [.queues, .sch] s v := by
    rw [hv, hu]
    exact ((only_setSch _ _).mono (by simp)).after (((only_setSch _ _).mono (by simp)).after ((only_setQueue s _ _).mono (by simp)))
  have hqv : v.queue (qComp c.val) = s.queue (qComp c.val) := by
    rw [hv, hu]
    exact s.queue_setQueue_of_ne _ hne
  have hq2 : (v.queue (2 * c.val)).occ = (s.queue (2 * c.val)).occ - s.headRun (2 * c.val) := by
    rw [hv, hu]
    exact congrArg Queue.occ (State.queue_setQueue_self s (2 * c.val) _)
  obtain ⟨hev, hcv, hsl⟩ := State.queueReads hcq hqv fun _ ho => hsv.reg (b := Blk.que) (by decide) ho
  have hcr : s.reserved c.val + 2 ≤ s.credits (qComp c.val) := of_decide_eq_true hrec
  have hepv : v.epochDue c.val = false := by
    have hd : v.sch.resetDue = s.sch.resetDue := by rw [hv, hu]; rfl
    unfold State.epochDue
    rw [hd]
    exact hep
  have hopen : v.recordsOpen c.val := ⟨hev.trans hen, by rw [hqv]; exact hdrop⟩
  have hlen : 64 ≤ (u.stagedRecord j stDescriptor 8 8).length := by unfold State.stagedRecord; rw [recordBytes_length]
  have hocc := State.placeNow_occ (ep := some j.epoch) (body := u.stagedRecord j stDescriptor 8 8) hopen
  have hbytes := State.placeNow_bytes (ep := some j.epoch) hopen hlen
  have hkeep : (v.placeNow c.val (some j.epoch) (u.stagedRecord j stDescriptor 8 8)).queue (2 * c.val) = v.queue (2 * c.val) :=
    State.queue_devicePush_ne _ _ (Ne.symm hne)
  have hexec : exec (.jobStage c) s = done s (v.placeNow c.val (some j.epoch) (u.stagedRecord j stDescriptor 8 8)) := by
    show execJobStage c s = _
    unfold execJobStage
    dsimp only
    rw [hfr, if_neg Bool.false_ne_true, hst]
    dsimp only
    rw [hclo, if_neg (by decide), hfl, if_neg (by decide), if_pos hstg]
    unfold State.drain
    dsimp only
    rw [if_neg (by rw [hrec]; decide), if_pos hhead, if_neg Bool.false_ne_true, ← hu, ← hj]
    unfold State.completeStaged
    have hjc : j.ctx = c.val := by rw [hj]
    rw [hjc, ← hv, State.placeJob_now hepv (by rw [hcv]; omega)]
  refine yields_done hexec ⟨?_, ?_, ?_⟩
  · rw [finish_queue, hkeep, hq2]
  · rw [finish_queue, hocc, hqv]
  · rw [finish_mbytes, ← hsl, ← hqv, hbytes]
    unfold State.stagedRecord
    exact recordBytes_take

/-! ## Kills, aborts and teardown -/

theorem abortJob_yields : ∀ (m : MbId) (f : Nat) (r : Running) (s : State), s.accepts m.val 0x0306 (4 ≤ s.rqLen m.val && s.rqLen m.val ≤ 240)
      ([(0x0C, decide (s.rq m.val 0x0C 1 < 32))] ++ s.fieldChecks m.val [(0x10, 4, true)]) →
    s.ctxFlasks (s.rq m.val 0x0C 1) = [f] → (s.flask f).running = some r → r.job.jobId = s.rq m.val 0x10 4 →
    Yields (.abortJob m) s (fun t => (t.mb m.val).waiting = true ∧ (t.mb m.val).out = none ∧
      (t.flask f).running = some { r with abort := true, aborts := r.aborts ++ [m.val] } ∧ Frame [.fmn, .sch] s t) := by
  intro m f r s hacc hfl hrun hid
  have hexec : exec (.abortJob m) s = done s ((s.setFlask f { s.flask f with running := some { r with abort := true, aborts := r.aborts ++ [m.val] } }).await
      m.val) := by
    refine congrArg (done s) ((State.command_accepts _ hacc).trans ?_)
    dsimp only
    rw [hfl, List.filter_cons, hrun]
    dsimp only
    rw [if_pos (beq_iff_eq.2 hid)]
    dsimp only [List.filter_nil, List.foldl_cons, List.foldl_nil]
    rw [hrun]
    rfl
  obtain ⟨-, -, hout, -⟩ := hacc
  refine yields_done hexec ⟨?_, ?_, ?_, (((only_setMb _ _ _).mono (by simp)).after ((only_setSch s _).mono (by simp))).frame_finish⟩
  · rw [finish_mb]
    exact congrArg Mailbox.waiting (State.mb_setMb_self _ _ _)
  · rw [finish_mb]
    exact (congrArg Mailbox.out (State.mb_setMb_self _ _ _)).trans hout
  · rw [finish_flask]
    exact congrArg Flask.running (State.flask_setFlask_self s f _)
theorem own_stopEvents (s : State) (f : Nat) : Only ownParts s (s.stopEvents f) := by
  refine Only.foldl (fun t n hn => ?_) s
  have := State.crucibles_lt hn
  exact own_bump t (by unfold Blk.cru0; omega) (by omega)
theorem tear_lendSettle (s : State) : Only tearParts s s.lendSettle := by
  unfold State.lendSettle
  split
  · exact Only.refl _ s
  · next f hf =>
    dsimp only
    refine Only.ite (fun _ => Only.refl _ s) fun _ => ?_
    have h1 := (tear_own _ (own_release (s.setFlask f { s.flask f with assist := none }) s.fsu.assistBase s.fsu.assistSize 0x0801 0x0801)).after
      (tear_setFlask s f { s.flask f with assist := none })
    generalize (s.setFlask f { s.flask f with assist := none }).release s.fsu.assistBase s.fsu.assistSize 0x0801 0x0801 = u at *
    have hend : ∀ v : State, Only tearParts v { v with
        fsu.lent := none, fsu.lentBudget := 0, fsu.assistBase := 0, fsu.assistSize := 0, sch.withdrawMb := none } := fun v => by
      have h : Only [.sch, .fsu] v { v with
        fsu.lent := none, fsu.lentBudget := 0, fsu.assistBase := 0, fsu.assistSize := 0, sch.withdrawMb := none } :=
        (Only.mono (l' := [.sch, .fsu]) (only_setSch
          ({ v with fsu.lent := none, fsu.lentBudget := 0, fsu.assistBase := 0, fsu.assistSize := 0 } : State) _) (by simp)).after
          ((only_setFsu v { v.fsu with lent := none, lentBudget := 0, assistBase := 0, assistSize := 0 }).mono (by simp))
      exact h.mono (by decide)
    refine Only.after ?_ h1
    split
    · exact (hend _).after (tear_reply u _ _)
    · exact hend u
theorem abortStop_yields : ∀ (f : FlaskId) (r : Running) (s : State), (s.flask f.val).running = some r → r.abort = true → s.frozen = false →
    Yields (.abortStop f) s (fun t => (t.flask f.val).running = none ∧ t.evc Blk.sch 4 = s.evc Blk.sch 4 + 1 ∧
      t.evc Blk.sch 2 = s.evc Blk.sch 2 + 1 ∧ t.aon = s.aon ∧ t.clk = s.clk) := by
  intro f r s hrun hab hfr
  have hb := Kept.bump s (j := 4) (by decide)
  have hbo := only_bump s Blk.sch (j := 4) (by decide)
  have hrb : ((s.bump Blk.sch 4).flask f.val).running = some r := (congrArg (fun x : Sch => (Tab.get flaskReset x.flasks f.val).running) (hbo .sch (by simp))).trans hrun
  have h4 := State.evc_bump_self s Blk.sch 4
  have hexec : exec (.abortStop f) s = done s (((((s.bump Blk.sch 4).stopEvents f.val).commitJob f.val stAborted 0 0xFFF r.opsDone).lendSettle)) := by
    show execAbortStop f s = _
    unfold execAbortStop
    rw [hrun]
    dsimp only
    rw [if_pos (by rw [hab, hfr]; rfl)]
  generalize s.bump Blk.sch 4 = b at *
  have hs := kept_stopEvents (e := [2]) b f.val
  have hso : Only ownParts b (b.stopEvents f.val) := own_stopEvents b f.val
  have hrs : ((b.stopEvents f.val).flask f.val).running = some r :=
    (congrArg (fun x : Sch => (Tab.get flaskReset x.flasks f.val).running) (hso .sch (by decide))).trans hrb
  obtain ⟨hk, hidle, h2⟩ := State.commitJob_leaves hrs stAborted 0 0xFFF r.opsDone
  have htc := tear_commitJob (b.stopEvents f.val) f.isLt stAborted 0 0xFFF r.opsDone
  generalize (b.stopEvents f.val).commitJob f.val stAborted 0 0xFFF r.opsDone = w at *
  have hl := kept_lendSettle w
  have htl := tear_lendSettle w
  refine yields_done hexec ⟨?_, ?_, ?_, ?_, ?_⟩
  · rw [finish_flask]
    exact hl.idle _ hidle
  · rw [finish_evc _ _ (by decide) (by decide), hl.evc 4 (by decide) (by simp), hk.evc 4 (by decide) (by simp), hs.evc 4 (by decide) (by simp), h4]
  · rw [finish_evc _ _ (by decide) (by decide), hl.evc 2 (by decide) (by simp), h2, hso.evc (b := Blk.sch) (by decide) (by decide), hb.evc 2 (by decide) (by simp)]
  · rw [finish_aon, htl.aon (by decide), htc.aon (by decide), hso.aon (by decide), hbo.aon (by simp)]
  · rw [finish_clk, htl.clk (by decide), htc.clk (by decide), hso.clk (by decide), hbo.clk (by simp)]
theorem budgetKill_yields : ∀ (f : FlaskId) (r : Running) (s : State), (s.flask f.val).running = some r → r.started = true → s.frozen = false →
    s.finished r = false → r.tbStart + r.job.budget * tbUs ≤ s.clk.now → r.job.ctx < 32 → (s.ctx r.job.ctx).st = .opened →
    Yields (.budgetKill f) s (fun t => (t.flask f.val).running = none ∧ t.evc Blk.sch 3 = s.evc Blk.sch 3 + 1 ∧
      (t.ctx r.job.ctx).st = .teardown ∧ (t.ctx r.job.ctx).lastStatus = stBudget ∧ t.aon = s.aon ∧ t.clk = s.clk) := by
  intro f r s hrun hst hfr hfin hbud hc hopen
  have hb := Kept.bump s (j := 3) (by decide)
  have hbo := only_bump s Blk.sch (j := 3) (by decide)
  have hsch : (s.bump Blk.sch 3).sch = s.sch := hbo .sch (by simp)
  have hrb : ((s.bump Blk.sch 3).flask f.val).running = some r := (congrArg (fun x : Sch => (Tab.get flaskReset x.flasks f.val).running) hsch).trans hrun
  have h3 := State.evc_bump_self s Blk.sch 3
  have hexec : exec (.budgetKill f) s = done s (((s.bump Blk.sch 3).teardownOn r.job.ctx stBudget (some (f.val, 0, 0xFFF, r.opsDone))).lendSettle) := by
    show execBudgetKill f s = _
    unfold execBudgetKill
    rw [hrun]
    dsimp only
    rw [if_neg (by rw [hfr, hst, hfin]; simpa using hbud)]
    unfold State.jobFault
    rw [hrb]
    dsimp only
    rw [if_pos hc]
  generalize s.bump Blk.sch 3 = b at *
  have hmem : f.val ∈ b.ctxFlasks r.job.ctx := by
    refine List.mem_filter.2 ⟨List.mem_range.2 f.isLt, ?_⟩
    rw [hrb]
    exact beq_self_eq_true _
  obtain ⟨hst', hstatus, hidle, he, -⟩ := State.teardownOn_leaves (s := b) ((hb.st _).trans hopen) stBudget (some (f.val, 0, 0xFFF, r.opsDone))
  have htt := tear_teardownOn b r.job.ctx stBudget (some (f.val, 0, 0xFFF, r.opsDone))
  generalize b.teardownOn r.job.ctx stBudget (some (f.val, 0, 0xFFF, r.opsDone)) = w at *
  have hl := kept_lendSettle w
  have htl := tear_lendSettle w
  refine yields_done hexec ⟨?_, ?_, ?_, ?_, ?_, ?_⟩
  · rw [finish_flask]
    exact hl.idle _ (hidle _ hmem)
  · rw [finish_evc _ _ (by decide) (by decide), hl.evc 3 (by decide) (by simp), he 3 (by decide) (by decide), h3]
  · rw [finish_ctx, hl.st, hst']
  · rw [finish_ctx, hl.status, hstatus]
  · rw [finish_aon, htl.aon (by decide), htt.aon (by decide), hbo.aon (by simp)]
  · rw [finish_clk, htl.clk (by decide), htt.clk (by decide), hbo.clk (by simp)]
/-- A notice placed at its instant. -/
theorem State.placeNotice_leaves (s : State) (c : Nat) (body : List Byte) : (∀ k, (s.placeNotice c body).ctx k = if k = c then
      { s.ctx c with
        noticeLost := false, seq := ((s.ctx c).seq + 1) % 65536
        lastJob := ((s.placeNotice c body).ctx c).lastJob } else s.ctx k) ∧
    (s.recordsOpen c → ((s.placeNotice c body).queue (qComp c)).occ = (s.queue (qComp c)).occ + 1) ∧
    Only [.sch, .queues, .mem] s (s.placeNotice c body) := by
  obtain ⟨b, u, hb, hu⟩ : ∃ (b : List Byte) (u : State), s.placeNotice c body = u.placeNow c none b ∧
      u = s.setCtx c { s.ctx c with noticeLost := false } := ⟨_, _, rfl, rfl⟩
  have huc : u.ctx c = { s.ctx c with noticeLost := false } := by rw [hu, State.ctx_setCtx_self]
  rw [hb]
  refine ⟨fun k => ?_, fun h => ?_, ?_⟩
  · rw [State.placeNow_ctx, State.placeNow_ctx, if_pos rfl, huc]
    split
    · rfl
    · next hne =>
      rw [hu]
      exact (s.ctx_setCtx c k _).trans (if_neg hne)
  · have hopen : u.recordsOpen c := by rw [hu]; exact h
    rw [State.placeNow_occ hopen, hu]
    rfl
  · exact ((only_devicePush _ _ _).mono (by simp)).after (((only_setSch _ _).mono (by simp)).after ((by rw [hu]; exact only_setSch s _ : Only [.sch] s u).mono (by simp)))
theorem kept_placeNotice (s : State) (c : Nat) (body : List Byte) : Kept [] s (s.placeNotice c body) := by
  obtain ⟨b, hb⟩ : ∃ b : List Byte, s.placeNotice c body = (s.setCtx c { s.ctx c with noticeLost := false }).placeNow c none b := ⟨_, rfl⟩
  rw [hb]
  exact (kept_placeNow _ _ _ _).after (Kept.setCtx rfl rfl)
theorem State.notice_leaves (s : State) (c : Nat) (body : List Byte) : Kept [] s (s.notice c body) ∧
    Only [.sch, .queues, .mem] s (s.notice c body) ∧ ∀ k, k ≠ c → (s.notice c body).ctx k = s.ctx k := by
  have hset : ∀ x : Ctx, x.st = (s.ctx c).st → x.lastStatus = (s.ctx c).lastStatus → Kept [] s (s.setCtx c x) ∧
      Only [.sch, .queues, .mem] s (s.setCtx c x) ∧ ∀ k, k ≠ c → (s.setCtx c x).ctx k = s.ctx k := fun x h1 h2 =>
    ⟨Kept.setCtx h1 h2, (only_setSch s _).mono (by simp), fun k hk => (s.ctx_setCtx c k x).trans (if_neg hk)⟩
  unfold State.notice
  dsimp only
  split
  · obtain ⟨hctx, -, ho⟩ := s.placeNotice_leaves c body
    exact ⟨kept_placeNotice s c body, ho, fun k hk => (hctx k).trans (if_neg hk)⟩
  · split
    · exact hset _ rfl rfl
    · exact hset _ rfl rfl
theorem teardownComplete_yields : ∀ (c : CtxId) (s : State), (s.ctx c.val).st = .teardown → (s.ctx c.val).zeroLeft = [] → s.frozen = false →
    Yields (.teardownComplete c) s (fun t => (t.ctx c.val).st = .faulted ∧ t.evc Blk.sch 5 = s.evc Blk.sch 5 + 1 ∧
      (∀ k, k ≠ c.val → t.ctx k = s.ctx k) ∧ Frame [.sch, .regs 7, .queues, .mem] s t) := by
  intro c s hst hz hfr
  obtain ⟨a, ha⟩ : ∃ a, a = s.setCtx c.val { s.ctx c.val with st := .faulted } := ⟨_, rfl⟩
  obtain ⟨b, hb⟩ : ∃ b, b = a.bumpInfo Blk.sch 5 0x130 (s.teardownInfo c.val) := ⟨_, rfl⟩
  have hoa : Only [.sch] s a := by rw [ha]; exact only_setSch s _
  have hob : Only [.regs Blk.sch] a b := by rw [hb]; exact only_bumpInfo a Blk.sch (by decide) (by decide) _
  have hbc : ∀ k, b.ctx k = a.ctx k := fun k => congrArg (fun x : Sch => Tab.get ctxReset x.ctxs k) (hob .sch (by simp))
  obtain ⟨body, hexec⟩ : ∃ body, exec (.teardownComplete c) s = done s (b.notice c.val body) := by
    refine ⟨recordBytes 2 (s.ctx c.val).lastStatus 0 0 c.val 0xFF (recDetail 0 0xFFF 0) b.tbNow 0 0 0 0 0 0 0 0, ?_⟩
    rw [hb, ha]
    exact congrArg (done s) (if_pos ⟨hst, hz, by rw [hfr]; rfl⟩)
  obtain ⟨hk, ho, hother⟩ := b.notice_leaves c.val body
  refine yields_done hexec ⟨?_, ?_, fun k hne => ?_, ((ho.mono (by decide)).after ((hob.mono (by decide)).after (hoa.mono (by decide)))).frame_finish⟩
  · rw [finish_ctx, hk.st, hbc, ha, State.ctx_setCtx_self]
  · rw [finish_evc _ _ (by decide) (by decide), hk.evc 5 (by decide) (by simp), hb, State.evc_bumpInfo_self, hoa.evc (b := Blk.sch) (by simp) (by decide)]
  · rw [finish_ctx, hother k hne, hbc, ha]
    exact (s.ctx_setCtx c.val k _).trans (if_neg hne)
theorem noticePlace_yields : ∀ (c : CtxId) (b : List Byte) (l : List (List Byte)) (s : State), s.frozen = false → s.epochDue c.val = false →
    (s.ctx c.val).heldRecs = [] → (s.ctx c.val).notices = b :: l → s.noticeCredit c.val = true → s.qEn (qComp c.val) = true →
    (s.queue (qComp c.val)).dropping = false → Yields (.noticePlace c) s (fun t => (t.ctx c.val).notices = l ∧
      (t.queue (qComp c.val)).occ = (s.queue (qComp c.val)).occ + 1 ∧ (t.ctx c.val).seq = ((s.ctx c.val).seq + 1) % 65536 ∧
      Frame [.sch, .queues, .mem] s t) := by
  intro c b l s hfr hep hheld hnot hcred hen hdrop
  obtain ⟨u, hu⟩ : ∃ u, u = s.setCtx c.val { s.ctx c.val with heldRecs := [], notices := l } := ⟨_, rfl⟩
  have hou : Only [.sch] s u := by rw [hu]; exact only_setSch s _
  have hexec : exec (.noticePlace c) s = done s (u.placeNotice c.val b) := by
    show execNoticePlace c s = _
    unfold execNoticePlace
    dsimp only
    rw [if_neg (by rw [hfr, hep]; decide), hheld]
    dsimp only
    rw [hnot]
    dsimp only
    rw [if_pos hcred, hu]
  have hopen : u.recordsOpen c.val := by rw [hu]; exact ⟨hen, hdrop⟩
  obtain ⟨hctx, hocc, ho⟩ := u.placeNotice_leaves c.val b
  have huc : u.ctx c.val = { s.ctx c.val with heldRecs := [], notices := l } := by rw [hu, State.ctx_setCtx_self]
  refine yields_done hexec ⟨?_, ?_, ?_, ((ho.mono (by simp)).after (hou.mono (by simp))).frame_finish⟩
  · rw [finish_ctx, hctx, if_pos rfl, huc]
  · rw [finish_queue, hocc hopen, hu]
    rfl
  · rw [finish_ctx, hctx, if_pos rfl, huc]
theorem sliceEntryEnd_yields : ∀ (f : FlaskId) (s : State), s.aon.pwr = 3 → (s.flask f.val).built = true → (s.flask f.val).n ≠ 0 →
    (s.flask f.val).entryEnd ≤ s.clk.now → (s.flask f.val).staged = none → Yields (.sliceEntryEnd f) s (fun t =>
      (t.flask f.val).entry = ((s.flask f.val).entry + 1) % (s.flask f.val).n ∧
      (t.flask f.val).entryFrom = (s.flask f.val).entryEnd ∧ (t.flask f.val).running = (s.flask f.val).running ∧
      (∀ g, g ≠ f.val → t.flask g = s.flask g) ∧ Frame [.sch] s t) := by
  intro f s hpwr hbuilt hn hend hstg
  have hexec : exec (.sliceEntryEnd f) s = done s (s.beginEntry f.val (((s.flask f.val).entry + 1) % (s.flask f.val).n) (s.flask f.val).entryEnd) := by
    show execSliceEntryEnd f s = _
    unfold execSliceEntryEnd
    dsimp only
    rw [if_neg (by rw [hpwr, hbuilt, decide_eq_true hend]; simp [hn]), hstg]
    dsimp only
    rw [if_pos (decide_eq_true hend)]
  exact flask_yields hexec fun t ht hg hf => ⟨by rw [ht], by rw [ht], by rw [ht], hg, hf⟩

/-- Settles O30: each command is one branch of its definition; what a commit or a teardown adds keeps the contexts and starts no job. -/
theorem jobs : Obligations.Jobs := by
  unfold Obligations.Jobs
  exact ⟨⟨jobAdmit_yields, jobStart_yields, jobCommit_yields, jobStage_yields⟩, abortJob_yields, abortStop_yields, budgetKill_yields,
    teardownComplete_yields, noticePlace_yields, sliceEntryEnd_yields⟩

end Sys2Proof.Machine
end
section
/-! Contexts, windows, flasks, slices and regulators (R284, R285, R485, R487, R507 to R514). -/
namespace Sys2Proof.Machine
open Sys2Proof

/-! ## Rules of the scheduler's state -/

theorem not_tripBlk_sch : ¬tripBlk Blk.sch := by simp [tripBlk, Blk.sch]
theorem State.ctx_reply (s : State) (m : Nat) (r : Resp) (c : Nat) : (s.reply m r).ctx c = s.ctx c := rfl
theorem Only.ctx {l : List StatePart} {s t : State} (h : Only l s t) (hp : .sch ∉ l) (c : Nat) : t.ctx c = s.ctx c :=
  congrArg (fun x : Sch => Tab.get ctxReset x.ctxs c) (h .sch hp)
theorem Only.winAttr {l : List StatePart} {s t : State} (h : Only l s t) (hp : .regs Blk.sch ∉ l) {c w : Nat} (hc : c < 32) (hw : w < 8) :
    t.winAttr c w = s.winAttr c w := h.reg hp (by unfold winBase; omega)
/-- What an accepted request says of one check beside those of its header. -/
theorem State.accepts_check {s : State} {m opcode : Nat} {lenOk : Bool} {checks : List (Nat × Bool)} (h : s.accepts m opcode lenOk checks)
    {e : Nat × Bool} (he : e ∈ checks) : e.2 = true := by
  obtain ⟨-, -, -, -, -, hb, -, -⟩ := h
  exact badField_none hb (List.mem_append_right _ he)
theorem State.accepts_len {s : State} {m opcode : Nat} {lenOk : Bool} {checks : List (Nat × Bool)} (h : s.accepts m opcode lenOk checks) :
    lenOk = true := by
  obtain ⟨-, -, -, -, -, hb, -, -⟩ := h
  exact badField_none hb (e := (0x08, lenOk)) (by simp [State.headerChecks])
/-- The check of a field stands at its first byte. -/
theorem State.fieldChecks_mem {s : State} {m a n : Nat} {b : Bool} {l : List (Nat × Nat × Bool)}
    (hf : l.find? (fun e => e.1 ≤ a && a < e.1 + e.2.1) = some (a, n, b)) (ha : 0x10 ≤ a) (hl : a < 0x10 + s.rqLen m) :
    (a, b) ∈ s.fieldChecks m l := by
  refine List.mem_map.2 ⟨a - 0x10, List.mem_range.2 (by omega), ?_⟩
  dsimp only
  rw [show 0x10 + (a - 0x10) = a by omega, hf]
  simp

/-! ## Opening and reopening -/

theorem ctxOpen_yields : ∀ (m : MbId) (u : State) (s : State), (
      let q := fun o n => s.rq m.val o n
      s.asks m.val 0x0201 0x10
        [(0x10, 1, q 0x10 1 < 32 || q 0x10 1 == 0xFF), (0x11, 1, q 0x11 1 < 2),
         (0x12, 1, q 0x12 1 == 0 || (q 0x11 1 == 1 && 4 ≤ q 0x12 1 && q 0x12 1 ≤ 7)), (0x14, 1, 4 ≤ q 0x14 1 && q 0x14 1 ≤ 12),
         (0x15, 1, 4 ≤ q 0x15 1 && q 0x15 1 ≤ 12),
         (0x18, 8, q 0x18 8 % 4096 == 0 &&
           ingotRange (q 0x18 8 + 4096 * cdiv (64 * 2 ^ q 0x14 1 + 1024) 4096) (64 * 2 ^ q 0x15 1))]) →
    s.rq m.val 0x10 1 < 32 → s.rq m.val 0x11 1 = 0 → s.rq m.val 0x12 1 = 0 → (s.ctx (s.rq m.val 0x10 1)).st = .closed →
    s.coverAreas 0 (s.rq m.val 0x10 1) (queueAreas (s.rq m.val 0x18 8) (s.rq m.val 0x14 1) true [.pf0, .jobs] [.device] ++
      queueAreas (s.rq m.val 0x18 8 + 4096 * cdiv (64 * 2 ^ s.rq m.val 0x14 1 + 1024) 4096) (s.rq m.val 0x15 1) false [] [.pf0]) = some u →
    Yields (.ctxOpen m) s (fun t => t.doneWith m.val (leBytes 1 (s.rq m.val 0x10 1)) ∧ (t.ctx (s.rq m.val 0x10 1)).st = .opened ∧
      (t.ctx (s.rq m.val 0x10 1)).lastStatus = (s.ctx (s.rq m.val 0x10 1)).lastStatus ∧ (t.ctx (s.rq m.val 0x10 1)).staged = [] ∧
      t.qEn (2 * s.rq m.val 0x10 1) = true ∧ t.qEn (2 * s.rq m.val 0x10 1 + 1) = true ∧
      t.qDepth (2 * s.rq m.val 0x10 1) = 2 ^ s.rq m.val 0x14 1 ∧ t.qDepth (2 * s.rq m.val 0x10 1 + 1) = 2 ^ s.rq m.val 0x15 1 ∧
      (∀ c, c ≠ s.rq m.val 0x10 1 → t.ctx c = s.ctx c) ∧ t.mem = s.mem ∧ t.aon = s.aon) := by
  intro m u s hask hc h11 h12 hst hcov
  have hc' : s.rq m.val 0x10 1 < 32 := hc
  have h14 : 4 ≤ s.rq m.val 0x14 1 ∧ s.rq m.val 0x14 1 ≤ 12 := by
    have h := State.asks_field (a := 0x14) (n := 1) hask rfl (by decide) (by decide)
    simpa using h
  have h15 : 4 ≤ s.rq m.val 0x15 1 ∧ s.rq m.val 0x15 1 ≤ 12 := by
    have h := State.asks_field (a := 0x15) (n := 1) hask rfl (by decide) (by decide)
    simpa using h
  generalize hring : s.rq m.val 0x18 8 + 4096 * cdiv (64 * 2 ^ s.rq m.val 0x14 1 + 1024) 4096 = ring at hcov
  have hexec : ∃ v b, exec (.ctxOpen m) s = done s ((({ (u.queueOn (2 * s.rq m.val 0x10 1) (s.rq m.val 0x18 8) (s.rq m.val 0x14 1) (some (s.rq m.val 0x10 1)) 0
      false).queueOn (qComp (s.rq m.val 0x10 1)) ring (s.rq m.val 0x15 1) (some (s.rq m.val 0x10 1)) v false with
        bus.pf1Ctx := b } : State).setCtx (s.rq m.val 0x10 1)
          { st := .opened, lastStatus := (u.ctx (s.rq m.val 0x10 1)).lastStatus, queueBase := s.rq m.val 0x18 8 }).replyDone
            m.val (leBytes 1 (s.rq m.val 0x10 1))) := by
    refine ⟨33 + Config.cqVector (s.rq m.val 0x10 1) % 31, tset u.bus.pf1Ctx (s.rq m.val 0x10 1) false,
      congrArg (done s) ((State.request_asks _ hask).trans ?_)⟩
    dsimp only
    rw [if_neg (show ¬s.rq m.val 0x10 1 = 0xFF by omega)]
    refine (if_neg (by simpa using hst)).trans ((if_neg (by simp [h12])).trans ?_)
    simp only [h11, h12, if_true, show ((0 : Nat) == 1) = false from rfl, Bool.false_eq_true, if_false, hring, hcov]
    rfl
  obtain ⟨v, b, hexec⟩ := hexec
  have hoc := only_coverAreas hcov
  have h1 := only_queueOn (s := u) (q := 2 * s.rq m.val 0x10 1) (by omega) (s.rq m.val 0x18 8) (s.rq m.val 0x14 1) (some (s.rq m.val 0x10 1)) 0 false
  have r1 := State.queueOn_ready (s := u) (q := 2 * s.rq m.val 0x10 1) (by omega) (s.rq m.val 0x18 8) h14 (some (s.rq m.val 0x10 1)) 0 false
  generalize u.queueOn (2 * s.rq m.val 0x10 1) (s.rq m.val 0x18 8) (s.rq m.val 0x14 1) (some (s.rq m.val 0x10 1)) 0 false = w at *
  have h2 := only_queueOn (s := w) (q := qComp (s.rq m.val 0x10 1)) (by unfold qComp; omega) ring (s.rq m.val 0x15 1) (some (s.rq m.val 0x10 1)) v false
  have r2 := State.queueOn_ready (s := w) (q := qComp (s.rq m.val 0x10 1)) (by unfold qComp; omega) ring h15 (some (s.rq m.val 0x10 1)) v false
  have r3 := State.queueOn_ready_ne r1 (q := qComp (s.rq m.val 0x10 1)) (by unfold qComp; omega) (by omega) (by unfold qComp; omega) ring
    (s.rq m.val 0x15 1) (some (s.rq m.val 0x10 1)) v false
  generalize w.queueOn (qComp (s.rq m.val 0x10 1)) ring (s.rq m.val 0x15 1) (some (s.rq m.val 0x10 1)) v false = x at *
  have hx : Only [.regs 8, .queues, .regs 6] s x := (h2.mono (by simp)).after ((h1.mono (by simp)).after (hoc.mono (by simp)))
  generalize hq : ({ st := .opened, lastStatus := (u.ctx (s.rq m.val 0x10 1)).lastStatus, queueBase := s.rq m.val 0x18 8 } : Ctx) = cx at *
  have hy : Only [.bus, .sch, .fmn] x ((({ x with bus.pf1Ctx := b } : State).setCtx (s.rq m.val 0x10 1) cx).replyDone m.val (leBytes 1 (s.rq m.val 0x10 1))) :=
    ((only_reply _ _ _).mono (by simp)).after (((only_setSch _ _).mono (by simp)).after ((only_setBus x _).mono (by simp)))
  have hctx : ∀ c, ((({ x with bus.pf1Ctx := b } : State).setCtx (s.rq m.val 0x10 1) cx).replyDone m.val (leBytes 1 (s.rq m.val 0x10 1))).ctx c =
      if c = s.rq m.val 0x10 1 then cx else x.ctx c := fun c => State.ctx_setCtx _ _ _ _
  have hd := finish_answers s (({ x with bus.pf1Ctx := b } : State).setCtx (s.rq m.val 0x10 1) cx) m.val
    { code := rDone, payload := leBytes 1 (s.rq m.val 0x10 1), progress := 100 }
  have hcomp : qComp (s.rq m.val 0x10 1) = 2 * s.rq m.val 0x10 1 + 1 := rfl
  rw [hcomp] at r2
  have key : ∀ q d, q < 128 → x.queueReady q d → (finish s ((({ x with bus.pf1Ctx := b } : State).setCtx (s.rq m.val 0x10 1) cx).replyDone m.val
      (leBytes 1 (s.rq m.val 0x10 1)))).qcfg q = x.qcfg q := fun q d hq _ =>
    (finish_reg _ _ (by omega) not_tripBlk_que).trans (hy.reg (by simp) (by omega))
  have e1 := key _ _ (by omega) r3
  have e2 := key _ _ (by omega) r2
  obtain ⟨en1, dp1, -⟩ := r3
  obtain ⟨en2, dp2, -⟩ := r2
  refine yields_done hexec ⟨hd, ?_, ?_, ?_, ?_, ?_, ?_, ?_, fun c hne => ?_, ?_, ?_⟩
  · rw [finish_ctx, hctx, if_pos rfl, ← hq]
  · rw [finish_ctx, hctx, if_pos rfl, ← hq]
    exact (congrArg Ctx.lastStatus (hoc.ctx (by simp) (s.rq m.val 0x10 1)) :)
  · rw [finish_ctx, hctx, if_pos rfl, ← hq]
  · unfold State.qEn
    rw [e1]
    exact en1
  · unfold State.qEn
    rw [e2]
    exact en2
  · unfold State.qDepth
    rw [e1]
    exact dp1
  · unfold State.qDepth
    rw [e2]
    exact dp2
  · rw [finish_ctx, hctx, if_neg hne]
    exact hx.ctx (by simp) c
  · rw [finish_mem, hy.mem (by simp), hx.mem (by simp)]
  · rw [finish_aon, hy.aon (by simp), hx.aon (by simp)]

theorem ctxReopen_yields : ∀ (m : MbId) (s : State), s.asks m.val 0x0203 1 [(0x10, 1, s.rq m.val 0x10 1 < 32)] →
    (s.ctx (s.rq m.val 0x10 1)).st = .faulted → (s.ctx (s.rq m.val 0x10 1)).closing = none →
    Yields (.ctxReopen m) s (fun t => t.doneWith m.val [] ∧ t.ctx (s.rq m.val 0x10 1) = { s.ctx (s.rq m.val 0x10 1) with
        st := .opened, flushLeft := (s.queue (2 * s.rq m.val 0x10 1)).occ } ∧
      (∀ c, c ≠ s.rq m.val 0x10 1 → t.ctx c = s.ctx c) ∧ Frame [.fmn, .sch] s t) := by
  intro m s hask hst hcl
  have hexec : exec (.ctxReopen m) s = done s ((s.setCtx (s.rq m.val 0x10 1) { s.ctx (s.rq m.val 0x10 1) with
      st := .opened, flushLeft := (s.queue (2 * s.rq m.val 0x10 1)).occ }).replyDone m.val) :=
    congrArg (done s) ((State.request_asks _ hask).trans (if_pos ⟨hst, hcl⟩))
  refine yields_done hexec ⟨finish_answers _ _ _ _, ?_, fun c hc => ?_, ?_⟩
  · rw [finish_ctx]
    exact State.ctx_setCtx_self s _ _
  · rw [finish_ctx]
    exact (State.ctx_setCtx s _ _ _).trans (if_neg hc)
  · exact (((only_reply _ _ _).mono (by simp)).after ((only_setSch s _).mono (by simp))).frame_finish

/-! ## Closing -/

/-- No entry of the region table is PROTECTED. -/
def State.unprotected (s : State) : Prop := ∀ e, e < 32 → s.entProtected e = false
/-- Region entries cleared and queues disabled, none of the entries PROTECTED before or after: no memory is zeroed. -/
structure Lets (s t : State) : Prop where
  only : Only [.queues, .regs 6, .regs 8] s t
  unprotected : t.unprotected
theorem Lets.after {s t u : State} (h2 : t.unprotected → Lets t u) (h1 : Lets s t) : Lets s u :=
  ⟨(h2 h1.unprotected).only.after h1.only, (h2 h1.unprotected).unprotected⟩
theorem Lets.foldl {α : Type} {f : State → α → State} {l : List α} (h : ∀ u, ∀ x ∈ l, u.unprotected → Lets u (f u x)) {s : State} (hs : s.unprotected) :
    Lets s (l.foldl f s) := by
  induction l generalizing s with
  | nil => exact ⟨Only.refl _ s, hs⟩
  | cons x t ih =>
    have hx := h s x (List.mem_cons_self ..) hs
    exact Lets.after (fun hu => ih (fun u y hy => h u y (List.mem_cons_of_mem _ hy)) hu) hx
theorem State.unprotected_congr {s t : State} (hs : s.unprotected) (h : ∀ o, o < 0x10000 → t.reg Blk.mem o = s.reg Blk.mem o ∨ t.reg Blk.mem o = 0) :
    t.unprotected := by
  intro e he
  unfold State.entProtected State.entAttr
  rcases h (0x2010 + 0x20 * e) (by omega) with h' | h'
  · rw [h']
    exact hs e he
  · rw [h', fld_zero]
    rfl
theorem lets_clearEntry {s : State} (hs : s.unprotected) {e : Nat} (he : e < 32) : Lets s (s.clearEntry e) := by
  have h0 : s.clearEntry e = (List.range 5).foldl (fun s i => s.setReg Blk.mem (0x2000 + 0x20 * e + 4 * i) 0) s := by
    unfold State.clearEntry
    rw [hs e he]
    rfl
  rw [h0]
  refine Lets.foldl (fun u i hi hu => ?_) hs
  have hlt : 0x2000 + 0x20 * e + 4 * i < 0x10000 := by have := List.mem_range.1 hi; omega
  refine ⟨(only_setReg u Blk.mem hlt 0).mono (by simp), State.unprotected_congr hu fun o ho => ?_⟩
  rw [State.reg_setReg]
  split
  · exact .inr rfl
  · exact .inl rfl
theorem lets_clearWhere {s : State} (hs : s.unprotected) (p : State → Nat → Bool) :
    Lets s ((List.range 32).foldl (fun s e => if p s e then s.clearEntry e else s) s) := by
  refine Lets.foldl (fun u e he hu => ?_) hs
  split
  · exact lets_clearEntry hu (List.mem_range.1 he)
  · exact ⟨Only.refl _ u, hu⟩
theorem lets_queueOff {s : State} (hs : s.unprotected) {q : Nat} (hq : q < 256) : Lets s (s.queueOff q) :=
  ⟨(only_queueOff s hq).mono (by simp), State.unprotected_congr hs fun _ ho => .inl ((only_queueOff s hq).reg (by simp) ho)⟩
theorem lets_dropQueue {s : State} (hs : s.unprotected) {q : Nat} (hq : q < 256) : Lets s (s.dropQueue q) := by
  unfold State.dropQueue State.uncoverQueue
  refine Lets.after (fun hu => lets_queueOff hu hq) ?_
  split
  · exact Lets.after (fun hu => lets_clearWhere hu _) (lets_clearWhere hs _)
  · exact lets_clearWhere hs _
theorem State.queueOff_qEn (s : State) (q : Nat) : (s.queueOff q).qEn q = false := by
  unfold State.qEn State.qcfg State.queueOff
  rw [State.reg_setReg_self, fld_zero]
  rfl
theorem State.queueOff_qEn_ne (s : State) {p q : Nat} (hp : p < 128) (hq : q < 128) (h : p ≠ q) : (s.queueOff q).qEn p = s.qEn p := by
  unfold State.qEn State.qcfg State.queueOff
  rw [State.reg_setReg_ne _ _ (by rw [Ne, regKey_inj (by omega) (by omega)]; omega)]
  rfl
theorem State.clearWindows_leaves (s : State) {c : Nat} (hc : c < 32) : Only [.regs Blk.sch] s (s.clearWindows c) ∧
    ∀ w, w < 8 → (s.clearWindows c).winValid c w = false := by
  have hone : ∀ (u : State) (w : Nat), w < 8 → Only [.regs Blk.sch] u ((List.range 4).foldl (fun s i => s.setReg Blk.sch (winBase c w + 4 * i) 0) u) :=
    fun u w hw => Only.foldl (fun v i hi => only_setReg v _ (by have := List.mem_range.1 hi; unfold winBase; omega) 0) u
  refine ⟨Only.foldl (fun u w hw => hone u w (List.mem_range.1 hw)) s, ?_⟩
  have key : ∀ n, n ≤ 8 → ∀ w, w < n → ((List.range n).foldl (fun s w => (List.range 4).foldl (fun s i => s.setReg Blk.sch (winBase c w + 4 * i) 0) s) s).winAttr
      c w = 0 := by
    intro n
    induction n with
    | zero => exact fun _ w hw => absurd hw (Nat.not_lt_zero w)
    | succ n ih =>
      intro hn w hw
      rw [List.range_succ (n := n), List.foldl_append]
      generalize hv : (List.range n).foldl (fun s w => (List.range 4).foldl (fun s i => s.setReg Blk.sch (winBase c w + 4 * i) 0) s) s = v at ih ⊢
      show ((List.range 4).foldl (fun s i => s.setReg Blk.sch (winBase c n + 4 * i) 0) v).winAttr c w = 0
      by_cases hwn : w = n
      · subst hwn
        exact State.reg_setReg_self _ _ _ _
      · have hne : ∀ i, i < 4 → regKey Blk.sch (winBase c w + 12) ≠ regKey Blk.sch (winBase c n + 4 * i) := fun i hi => by
          unfold winBase
          rw [Ne, regKey_inj (by omega) (by omega)]
          omega
        refine Eq.trans ?_ (ih (by omega) w (by omega))
        exact (State.reg_setReg_ne _ _ (hne 3 (by decide))).trans ((State.reg_setReg_ne _ _ (hne 2 (by decide))).trans
          ((State.reg_setReg_ne _ _ (hne 1 (by decide))).trans (State.reg_setReg_ne v _ (hne 0 (by decide)))))
  intro w hw
  unfold State.winValid
  rw [show (s.clearWindows c).winAttr c w = 0 from key 8 (Nat.le_refl _) w hw, fld_zero]
  rfl
/-- The end of a close of which no entry is PROTECTED. -/
theorem State.finishClose_leaves {s : State} (hs : s.unprotected) {c : Nat} (hc : c < 32) (m : Nat) : ∃ u : State, s.finishClose c m = u.replyDone m ∧
    Only [.sch, .bus, .fmn, .queues, .regs 6, .regs 7, .regs 8] s u ∧ (∀ k, u.ctx k = if k = c then { lastStatus := (s.ctx c).lastStatus } else s.ctx k) ∧
    u.qEn (2 * c) = false ∧ u.qEn (2 * c + 1) = false ∧ ∀ w, w < 8 → u.winValid c w = false := by
  obtain ⟨hw, hwin⟩ := s.clearWindows_leaves hc
  have hs1 : (s.clearWindows c).unprotected := State.unprotected_congr hs fun _ ho => .inl (hw.reg (by decide) ho)
  unfold State.finishClose
  dsimp only
  have hgiven : ∀ q ∈ s.givenQueues c, q < 256 := fun q hq => by
    have := (List.mem_filter.1 hq).1
    obtain ⟨i, hi, rfl⟩ := List.mem_map.1 this
    have := List.mem_range.1 hi
    omega
  have l1 : Lets (s.clearWindows c) ((s.givenQueues c).foldl (fun s q => s.dropQueue q) (s.clearWindows c)) :=
    Lets.foldl (fun u q hq hu => lets_dropQueue hu (hgiven q hq)) hs1
  generalize s.clearWindows c = a at *
  generalize (s.givenQueues c).foldl (fun s q => s.dropQueue q) a = b at *
  have l2 := lets_clearWhere l1.unprotected fun s e => s.entValid e && s.entKind e == 0 && s.entId e == c
  generalize (List.range 32).foldl (fun s e => if (s.entValid e && s.entKind e == 0 && s.entId e == c) = true then s.clearEntry e else s) b = d at *
  have l3 := lets_queueOff l2.unprotected (q := 2 * c) (by omega)
  have l4 := lets_queueOff l3.unprotected (q := qComp c) (by unfold qComp; omega)
  have q1 : ((d.queueOff (2 * c)).queueOff (qComp c)).qEn (2 * c) = false :=
    (State.queueOff_qEn_ne _ (by omega) (by unfold qComp; omega) (by unfold qComp; omega)).trans (State.queueOff_qEn d _)
  have q2 : ((d.queueOff (2 * c)).queueOff (qComp c)).qEn (2 * c + 1) = false := State.queueOff_qEn _ _
  generalize (d.queueOff (2 * c)).queueOff (qComp c) = e at *
  have h5 : Only [.fmn] e ((List.range 4).foldl (fun s i =>
      if (s.mb (4 + i)).bound = some c then s.setMb (4 + i) { s.mb (4 + i) with bound := none } else s) e) :=
    Only.foldl (fun u i _ => Only.ite (fun _ => only_setMb u _ _) fun _ => Only.refl _ u) e
  generalize (List.range 4).foldl (fun s i =>
      if (s.mb (4 + i)).bound = some c then s.setMb (4 + i) { s.mb (4 + i) with bound := none } else s) e = f at *
  have hae : Only [.queues, .regs 6, .regs 8] a e := (((l4.only).after l3.only).after l2.only).after l1.only
  have hsf : Only [.fmn, .queues, .regs 6, .regs 7, .regs 8] s f :=
    (h5.mono (by simp)).after ((hae.mono (by simp)).after (hw.mono (by decide)))
  have hb := only_setBus f { f.bus with pf1Ctx := tset f.bus.pf1Ctx c false }
  refine ⟨_, rfl, ?_, fun k => ?_, ?_, ?_, fun w hw8 => ?_⟩
  · exact ((only_setSch _ _).mono (by simp)).after (((only_setSch _ _).mono (by simp)).after ((hb.mono (by simp)).after (hsf.mono (by simp))))
  · refine (State.ctx_setCtx _ _ _ _).trans ?_
    have hk : ∀ k, f.ctx k = s.ctx k := hsf.ctx (by simp)
    exact congrArg₂ (fun (x : Ctx) y => if k = c then ({ lastStatus := x.lastStatus } : Ctx) else y) (hk c) (hk k)
  · exact (State.qEn_of_only h5 (by simp) (by omega)).trans q1
  · exact (State.qEn_of_only h5 (by simp) (by omega)).trans q2
  · refine Eq.trans ?_ (hwin w hw8)
    unfold State.winValid
    exact congrArg (fun x => fld x 31 1 == 1) ((h5.winAttr (by simp) hc hw8).trans (hae.winAttr (by simp [Blk.sch]) hc hw8))
/-- A close with nothing left in the queue and no record held ends at once. -/
theorem State.closeStep_empty {s : State} {c m : Nat} (hcl : (s.ctx c).closing = some m) (hheld : (s.ctx c).heldRecs = [])
    (hq : (s.queue (2 * c)).flags = []) (n : Nat) : s.closeStep c (n + 1) = s.finishClose c m := by
  have hrun : s.headRun (2 * c) = 0 := by
    unfold State.headRun
    rw [hq]
    rfl
  have hpk : s.headPacket (2 * c) = 0 := by
    unfold State.headPacket
    rw [hq]
    exact if_neg (by simp)
  unfold State.closeStep
  rw [hcl]
  exact (if_pos ⟨hrun, hpk⟩).trans (if_pos hheld)
theorem ctxClose_yields : ∀ (m : MbId) (s : State), s.asks m.val 0x0202 1 [(0x10, 1, s.rq m.val 0x10 1 < 32)] →
    (s.ctx (s.rq m.val 0x10 1)).st = .opened → (s.ctx (s.rq m.val 0x10 1)).closing = none → s.ctxFlasks (s.rq m.val 0x10 1) = [] →
    (s.ctx (s.rq m.val 0x10 1)).staged = [] → (s.ctx (s.rq m.val 0x10 1)).heldRecs = [] →
    (s.queue (2 * s.rq m.val 0x10 1)).flags = [] → (∀ e, e < 32 → s.entProtected e = false) →
    Yields (.ctxClose m) s (fun t => t.doneWith m.val [] ∧ (t.ctx (s.rq m.val 0x10 1)).st = .closed ∧
      t.qEn (2 * s.rq m.val 0x10 1) = false ∧ t.qEn (2 * s.rq m.val 0x10 1 + 1) = false ∧
      (∀ w, w < 8 → t.winValid (s.rq m.val 0x10 1) w = false) ∧ (∀ c, c ≠ s.rq m.val 0x10 1 → t.ctx c = s.ctx c) ∧
      t.mem = s.mem ∧ t.aon = s.aon) := by
  intro m s hask hst hcl hfl hstg hheld hflags hprot
  have hc : s.rq m.val 0x10 1 < 32 := of_decide_eq_true (State.asks_field (a := 0x10) (n := 1) hask rfl (Nat.le_refl _) (by decide))
  generalize hx : ({ s.ctx (s.rq m.val 0x10 1) with staged := [], closing := some m.val } : Ctx) = x
  have hexec : exec (.ctxClose m) s = done s (((s.setCtx (s.rq m.val 0x10 1) x).await m.val).finishClose (s.rq m.val 0x10 1) m.val) := by
    refine congrArg (done s) ((State.request_asks _ hask).trans ((if_neg (by rw [hst]; decide)).trans ((if_neg (by rw [hcl]; decide)).trans
      ((if_neg (by rw [hfl, hst]; decide)).trans ?_))))
    show State.closeStep (State.await ((s.ctx (s.rq m.val 0x10 1)).staged.foldl (fun s j => s.completeStaged j stFlushed 0 0)
      (s.setCtx (s.rq m.val 0x10 1) { s.ctx (s.rq m.val 0x10 1) with staged := [], closing := some m.val })) m.val) (s.rq m.val 0x10 1) (_ + 1) = _
    rw [hx, hstg, List.foldl_nil]
    have hcx : ((s.setCtx (s.rq m.val 0x10 1) x).await m.val).ctx (s.rq m.val 0x10 1) = x := State.ctx_setCtx_self s _ x
    have hcx1 : x.closing = some m.val := by rw [← hx]
    have hcx2 : x.heldRecs = [] := by rw [← hx]; exact hheld
    exact State.closeStep_empty (s := (s.setCtx (s.rq m.val 0x10 1) x).await m.val) (by rw [hcx]; exact hcx1) (by rw [hcx]; exact hcx2) hflags _
  have ho : Only [.fmn, .sch] s ((s.setCtx (s.rq m.val 0x10 1) x).await m.val) :=
    ((only_setMb _ _ _).mono (by simp)).after ((only_setSch s _).mono (by simp))
  have hctx : ∀ k, ((s.setCtx (s.rq m.val 0x10 1) x).await m.val).ctx k = if k = s.rq m.val 0x10 1 then x else s.ctx k :=
    fun k => State.ctx_setCtx _ _ _ _
  generalize (s.setCtx (s.rq m.val 0x10 1) x).await m.val = v at *
  obtain ⟨u, hu, hou, hk, q1, q2, hw⟩ := State.finishClose_leaves (s := v) (State.unprotected_congr hprot fun _ h => .inl (ho.reg (by simp) h)) hc m.val
  have hreg : ∀ b o, o < 0x10000 → ¬tripBlk b → (finish s (u.replyDone m.val)).reg b o = u.reg b o := fun b o h hb =>
    finish_reg _ _ h hb
  refine yields_done (hexec.trans (congrArg (done s) hu)) ⟨finish_answers _ _ _ _, ?_, ?_, ?_, fun w h8 => ?_, fun k hne => ?_, ?_, ?_⟩
  · rw [finish_ctx, State.replyDone, State.ctx_reply, hk, if_pos rfl]
  · exact (State.qEn_congr (by omega) fun o h => hreg _ o h not_tripBlk_que).trans q1
  · exact (State.qEn_congr (by omega) fun o h => hreg _ o h not_tripBlk_que).trans q2
  · refine Eq.trans ?_ (hw w h8)
    unfold State.winValid State.winAttr
    rw [hreg _ _ (by unfold winBase; omega) not_tripBlk_sch]
  · rw [finish_ctx, State.replyDone, State.ctx_reply, hk, if_neg hne, hctx, if_neg hne]
  · rw [finish_mem]
    exact (hou.mem (by simp)).trans (ho.mem (by simp))
  · rw [finish_aon]
    exact (hou.aon (by simp)).trans (ho.aon (by simp))

/-! ## Windows -/

theorem ctxWindow_set_yields : ∀ (m : MbId) (s : State), (
      let q := fun o n => s.rq m.val o n
      s.accepts m.val 0x0301 (0x14 ≤ s.rqLen m.val && s.rqLen m.val ≤ 240)
        ([(0x0C, decide (q 0x0C 1 < 32))] ++ s.fieldChecks m.val
          [(0x10, 1, q 0x10 1 < 8), (0x11, 1, q 0x11 1 < 2), (0x12, 1, q 0x12 1 < 4 && (!(q 0x11 1 == 0) || q 0x12 1 != 0)),
           (0x18, 8, !(q 0x11 1 == 0) || (q 0x18 8 % 4096 == 0 && s.windowRange (q 0x18 8) (q 0x20 4 * 4096))),
           (0x20, 4, !(q 0x11 1 == 0) || (1 ≤ q 0x20 4 && q 0x20 4 ≤ 65536))])) →
    s.rq m.val 0x11 1 = 0 → (s.ctx (s.rq m.val 0x0C 1)).st = .opened →
    s.windowClash (s.rq m.val 0x0C 1) (s.rq m.val 0x18 8) (s.rq m.val 0x20 4 * 4096) (bit (s.rq m.val 0x12 1) 1) = false →
    s.ctxFlasks (s.rq m.val 0x0C 1) = [] → Yields (.ctxWindow m) s (fun t => t.doneWith m.val [] ∧
      t.winValid (s.rq m.val 0x0C 1) (s.rq m.val 0x10 1) = true ∧ t.winLo (s.rq m.val 0x0C 1) (s.rq m.val 0x10 1) = s.rq m.val 0x18 8 ∧
      t.winLen (s.rq m.val 0x0C 1) (s.rq m.val 0x10 1) = s.rq m.val 0x20 4 * 4096 ∧
      t.winWrite (s.rq m.val 0x0C 1) (s.rq m.val 0x10 1) = bit (s.rq m.val 0x12 1) 1 ∧
      t.winRead (s.rq m.val 0x0C 1) (s.rq m.val 0x10 1) = bit (s.rq m.val 0x12 1) 0 ∧ Frame [.fmn, .regs 7] s t) := by
  intro m s hacc h11 hst hclash hfl
  have hlen : 0x14 ≤ s.rqLen m.val := of_decide_eq_true (Bool.and_eq_true_iff.1 (State.accepts_len hacc)).1
  have hc : s.rq m.val 0x0C 1 < 32 := of_decide_eq_true (State.accepts_check hacc (List.mem_append_left _ (List.mem_singleton_self _)))
  have hf : ∀ {a n b}, _ → 0x10 ≤ a → a < 0x10 + 0x14 → b = true := fun {a n b} hfind ha hl =>
    State.accepts_check hacc (e := (a, b)) (List.mem_append_right _ (State.fieldChecks_mem (n := n) hfind ha (by omega)))
  have hw : s.rq m.val 0x10 1 < 8 := of_decide_eq_true (hf (a := 0x10) (n := 1) rfl (by decide) (by decide))
  have hb : s.rq m.val 0x18 8 < 2 ^ 40 := by
    have h : (!(s.rq m.val 0x11 1 == 0) || (s.rq m.val 0x18 8 % 4096 == 0 && s.windowRange (s.rq m.val 0x18 8) (s.rq m.val 0x20 4 * 4096))) = true :=
      hf (a := 0x18) (n := 8) rfl (by decide) (by decide)
    rw [h11] at h
    have h2 := (Bool.and_eq_true_iff.1 h).2
    exact of_decide_eq_true (Bool.and_eq_true_iff.1 h2).1
  have hp : s.rq m.val 0x20 4 ≤ 65536 := by
    have h : (!(s.rq m.val 0x11 1 == 0) || (1 ≤ s.rq m.val 0x20 4 && s.rq m.val 0x20 4 ≤ 65536)) = true :=
      hf (a := 0x20) (n := 4) rfl (by decide) (by decide)
    rw [h11] at h
    simp at h
    exact h.2
  have hexec : exec (.ctxWindow m) s = done s ((((s.setPair Blk.sch (winBase (s.rq m.val 0x0C 1) (s.rq m.val 0x10 1)) (s.rq m.val 0x18 8)).setReg Blk.sch
      (winBase (s.rq m.val 0x0C 1) (s.rq m.val 0x10 1) + 8) (BitVec.ofNat 32 (s.rq m.val 0x20 4))).setReg Blk.sch
      (winBase (s.rq m.val 0x0C 1) (s.rq m.val 0x10 1) + 12)
      (bitAt true 31 ||| at_ (s.rq m.val 0x12 1 / 2) 1 1 ||| at_ (s.rq m.val 0x12 1) 0 1)).replyDone m.val) := by
    refine congrArg (done s) ((State.command_accepts _ hacc).trans ((if_neg (by rw [hst]; decide)).trans
      ((if_neg (by rw [hclash, Bool.and_false]; decide)).trans ((if_neg (by rw [hfl]; decide)).trans (if_pos (show (s.rq m.val 0x11 1 == 0) = true by rw [h11]; rfl))))))
  generalize ho : winBase (s.rq m.val 0x0C 1) (s.rq m.val 0x10 1) = o at hexec
  have hlt : o < 0x10000 - 16 := by rw [← ho]; unfold winBase; omega
  generalize hv : ((s.setPair Blk.sch o (s.rq m.val 0x18 8)).setReg Blk.sch (o + 8) (BitVec.ofNat 32 (s.rq m.val 0x20 4))).setReg Blk.sch
      (o + 12) (bitAt true 31 ||| at_ (s.rq m.val 0x12 1 / 2) 1 1 ||| at_ (s.rq m.val 0x12 1) 0 1) = v at hexec
  have hne : ∀ i j, i < 16 → j < 16 → i ≠ j → regKey Blk.sch (o + i) ≠ regKey Blk.sch (o + j) := fun i j hi hj h => by
    rw [Ne, regKey_inj (by omega) (by omega)]
    omega
  have r3 : v.reg Blk.sch (o + 12) = bitAt true 31 ||| at_ (s.rq m.val 0x12 1 / 2) 1 1 ||| at_ (s.rq m.val 0x12 1) 0 1 := by
    rw [← hv, State.reg_setReg_self]
  have r2 : v.reg Blk.sch (o + 8) = BitVec.ofNat 32 (s.rq m.val 0x20 4) := by
    rw [← hv, State.reg_setReg_ne _ _ (hne 8 12 (by decide) (by decide) (by decide)), State.reg_setReg_self]
  have r1 : v.reg Blk.sch (o + 4) = BitVec.ofNat 32 (s.rq m.val 0x18 8 / 2 ^ 32) := by
    rw [← hv, State.reg_setReg_ne _ _ (hne 4 12 (by decide) (by decide) (by decide)), State.reg_setReg_ne _ _ (hne 4 8 (by decide) (by decide) (by decide))]
    exact State.reg_setReg_self _ _ _ _
  have r0 : v.reg Blk.sch o = BitVec.ofNat 32 (s.rq m.val 0x18 8) := by
    rw [← hv]
    exact (State.reg_setReg_ne _ _ (hne 0 12 (by decide) (by decide) (by decide))).trans ((State.reg_setReg_ne _ _ (hne 0 8 (by decide) (by decide)
      (by decide))).trans ((State.reg_setReg_ne _ _ (hne 0 4 (by decide) (by decide) (by decide))).trans (State.reg_setReg_self _ _ _ _)))
  have hfin : ∀ i, i < 16 → (finish s (v.replyDone m.val)).reg Blk.sch (o + i) = v.reg Blk.sch (o + i) := fun i hi =>
    finish_reg _ _ (by omega) not_tripBlk_sch
  have hattr : (finish s (v.replyDone m.val)).winAttr (s.rq m.val 0x0C 1) (s.rq m.val 0x10 1) =
      bitAt true 31 ||| at_ (s.rq m.val 0x12 1 / 2) 1 1 ||| at_ (s.rq m.val 0x12 1) 0 1 := by
    unfold State.winAttr
    rw [ho, hfin 12 (by decide), r3]
  have hvalid : (finish s (v.replyDone m.val)).winValid (s.rq m.val 0x0C 1) (s.rq m.val 0x10 1) = true := by
    unfold State.winValid
    rw [hattr, bitAt_eq_at, fld_or, fld_or, fld_at_self _ (by decide), fld_at_of_disjoint _ (by decide) (by decide),
      fld_at_of_disjoint _ (by decide) (by decide)]
    rfl
  refine yields_done hexec ⟨finish_answers _ _ _ _, hvalid, ?_, ?_, ?_, ?_, ?_⟩
  · unfold State.winLo
    rw [ho, show (finish s (v.replyDone m.val)).reg Blk.sch o = v.reg Blk.sch o from hfin 0 (by decide), hfin 4 (by decide), r0, r1,
      fld_ofNat _ (by decide), BitVec.toNat_ofNat]
    omega
  · unfold State.winLen
    rw [ho, hfin 8 (by decide), r2, fld_ofNat _ (by decide)]
    omega
  · unfold State.winWrite
    rw [hvalid, hattr, bitAt_eq_at, fld_or, fld_or, fld_at_self _ (by decide), fld_at_of_disjoint _ (by decide) (by decide),
      fld_at_of_disjoint _ (by decide) (by decide)]
    simp [bit, Nat.testBit_eq_decide_div_mod_eq]
    rfl
  · unfold State.winRead
    rw [hvalid, hattr, bitAt_eq_at, fld_or, fld_or, fld_at_self _ (by decide), fld_at_of_disjoint _ (by decide) (by decide),
      fld_at_of_disjoint _ (by decide) (by decide)]
    simp [bit, Nat.testBit_eq_decide_div_mod_eq]
    rfl
  · have hsv : Only [.regs Blk.sch] s v := by
      rw [← hv]
      exact (only_setReg _ _ (by omega) _).after ((only_setReg _ _ (by omega) _).after (only_setPair s _ (by omega) _))
    exact (((only_reply _ _ _).mono (by simp)).after (hsv.mono (by simp [Blk.sch]))).frame_finish
theorem ctxWindow_clear_yields : ∀ (m : MbId) (s : State), (
      let q := fun o n => s.rq m.val o n
      s.accepts m.val 0x0301 (0x14 ≤ s.rqLen m.val && s.rqLen m.val ≤ 240)
        ([(0x0C, decide (q 0x0C 1 < 32))] ++ s.fieldChecks m.val
          [(0x10, 1, q 0x10 1 < 8), (0x11, 1, q 0x11 1 < 2), (0x12, 1, q 0x12 1 < 4 && (!(q 0x11 1 == 0) || q 0x12 1 != 0)),
           (0x18, 8, !(q 0x11 1 == 0) || (q 0x18 8 % 4096 == 0 && s.windowRange (q 0x18 8) (q 0x20 4 * 4096))),
           (0x20, 4, !(q 0x11 1 == 0) || (1 ≤ q 0x20 4 && q 0x20 4 ≤ 65536))])) →
    s.rq m.val 0x11 1 = 1 → (s.ctx (s.rq m.val 0x0C 1)).st = .opened → s.ctxFlasks (s.rq m.val 0x0C 1) = [] →
    Yields (.ctxWindow m) s (fun t => t.doneWith m.val [] ∧
      t.winValid (s.rq m.val 0x0C 1) (s.rq m.val 0x10 1) = false ∧ Frame [.fmn, .regs 7] s t) := by
  intro m s hacc h11 hst hfl
  have hlen : 0x14 ≤ s.rqLen m.val := of_decide_eq_true (Bool.and_eq_true_iff.1 (State.accepts_len hacc)).1
  have hc : s.rq m.val 0x0C 1 < 32 := of_decide_eq_true (State.accepts_check hacc (List.mem_append_left _ (List.mem_singleton_self _)))
  have hw : s.rq m.val 0x10 1 < 8 := of_decide_eq_true (State.accepts_check hacc (List.mem_append_right _
    (State.fieldChecks_mem (a := 0x10) (n := 1) rfl (Nat.le_refl _) (by omega))))
  have hexec : exec (.ctxWindow m) s = done s (((List.range 4).foldl (fun v i => v.setReg Blk.sch
      (winBase (s.rq m.val 0x0C 1) (s.rq m.val 0x10 1) + 4 * i) 0) s).replyDone m.val) :=
    congrArg (done s) ((State.command_accepts _ hacc).trans ((if_neg (by rw [hst]; decide)).trans
      ((if_neg (show ¬(s.rq m.val 0x11 1 == 0 && _) = true by rw [h11]; exact Bool.false_ne_true)).trans ((if_neg (by rw [hfl]; decide)).trans
        (if_neg (show ¬(s.rq m.val 0x11 1 == 0) = true by rw [h11]; decide))))))
  generalize ho : winBase (s.rq m.val 0x0C 1) (s.rq m.val 0x10 1) = o at hexec
  have hlt : o + 12 < 0x10000 := by rw [← ho]; unfold winBase; omega
  have hsv : Only [.regs Blk.sch] s ((List.range 4).foldl (fun s i => s.setReg Blk.sch (o + 4 * i) 0) s) :=
    Only.foldl (fun u i hi => only_setReg u _ (by have := List.mem_range.1 hi; omega) 0) s
  have h12 : ((List.range 4).foldl (fun s i => s.setReg Blk.sch (o + 4 * i) 0) s).reg Blk.sch (o + 12) = 0 := State.reg_setReg_self _ _ _ _
  generalize (List.range 4).foldl (fun s i => s.setReg Blk.sch (o + 4 * i) 0) s = v at *
  refine yields_done hexec ⟨finish_answers _ _ _ _, ?_, ?_⟩
  · unfold State.winValid State.winAttr
    rw [ho, finish_reg _ _ hlt not_tripBlk_sch]
    exact congrArg (fun w => fld w 31 1 == 1) h12
  · exact (((only_reply _ _ _).mono (by simp)).after (hsv.mono (by simp [Blk.sch]))).frame_finish

/-! ## Flasks -/

/-- Words of a slice table, or the buckets of a regulator, set to zero. -/
theorem only_clearTable (s : State) {f : Nat} (hf : f < 8) :
    Only [.regs Blk.sch] s ((List.range 16).foldl (fun s e => s.setReg Blk.sch (0x1040 + 0x100 * f + 4 * e) 0) s) :=
  Only.foldl (fun u e he => only_setReg u _ (by have := List.mem_range.1 he; omega) 0) s
theorem State.flask_clearTable (s : State) (f : Nat) (l : List Nat) (g : Nat) :
    (l.foldl (fun s e => s.setReg Blk.sch (0x1040 + 0x100 * f + 4 * e) 0) s).flask g = s.flask g := by
  induction l generalizing s with
  | nil => rfl
  | cons e t ih => exact (ih _).trans rfl
theorem State.regulatorOff_leaves (s : State) {r : Nat} (hr : r < 10) : Only [.sch, .regs Blk.sch] s (s.regulatorOff r) ∧
    ∀ g, (s.regulatorOff r).flask g = s.flask g :=
  ⟨Only.foldl (fun u k hk => ((only_setSch _ _).mono (by simp)).after (((only_setReg _ _ (by have := List.mem_range.1 hk; omega) 0).mono (by simp)).after
    ((only_setReg u _ (by have := List.mem_range.1 hk; omega) 0).mono (by simp)))) s, fun _ => rfl⟩
/-- A flask that takes a record with no job and no table, its regulator off. -/
theorem flask_fresh_yields {i : Instr} {s : State} {m f : Nat} {x : Flask} (hf : f < 8) (h : exec i s = done s
      (((((List.range 16).foldl (fun s e => s.setReg Blk.sch (0x1040 + 0x100 * f + 4 * e) 0) s).setFlask f x).regulatorOff f).replyDone m)) :
    Yields i s (fun t => t.doneWith m [] ∧ (∀ g, t.flask g = if g = f then x else s.flask g) ∧ Frame [.fmn, .sch, .regs 7] s t) := by
  have h1 := only_clearTable s hf
  have hg := State.flask_clearTable s f (List.range 16)
  generalize (List.range 16).foldl (fun s e => s.setReg Blk.sch (0x1040 + 0x100 * f + 4 * e) 0) s = u at *
  obtain ⟨h2, hg2⟩ := (u.setFlask f x).regulatorOff_leaves (r := f) (by omega)
  refine yields_done h ⟨finish_answers _ _ _ _, fun g => ?_, ?_⟩
  · rw [finish_flask]
    refine (hg2 g).trans ((State.flask_setFlask u f g x).trans ?_)
    rw [hg]
  · exact (((only_reply _ _ _).mono (by simp)).after ((h2.mono (by simp [Blk.sch])).after (((only_setSch u _).mono (by simp)).after
      (h1.mono (by simp [Blk.sch]))))).frame_finish
theorem State.flaskOf_none {s : State} {n : Nat} (h : s.flaskOf n = none) {f : Nat} (hf : f < 8) : ((s.flask f).built && (s.flask f).mask.testBit n) = false := by
  unfold State.flaskOf lowest at h
  exact Bool.eq_false_iff.2 (List.find?_eq_none.1 h f (List.mem_range.2 hf))
/-- The flask of a crucible where exactly one flask holds it. -/
theorem State.flaskOf_eq {s : State} {n f : Nat} (hf : f < 8) (h : ((s.flask f).built && (s.flask f).mask.testBit n) = true)
    (hn : ∀ g, g < 8 → g ≠ f → ((s.flask g).built && (s.flask g).mask.testBit n) = false) : s.flaskOf n = some f := by
  unfold State.flaskOf lowest
  rw [List.find?_range_eq_some]
  exact ⟨h, List.mem_range.2 hf, fun g hg => by rw [hn g (by omega) (by omega)]; rfl⟩

theorem flaskBuild_yields : ∀ (m : MbId) (s : State), s.asks m.val 0x0302 0x10 [(0x10, 1, s.rq m.val 0x10 1 < 8),
      (0x18, 8, s.rq m.val 0x18 8 != 0 && s.rq m.val 0x18 8 < 2 ^ 48)] → (s.flask (s.rq m.val 0x10 1)).built = false →
    (∀ n, n < 48 → bit (s.rq m.val 0x18 8) n = true → s.flaskOf n = none) → Yields (.flaskBuild m) s (fun t =>
      t.doneWith m.val [] ∧ t.flask (s.rq m.val 0x10 1) = { built := true, mask := s.rq m.val 0x18 8 } ∧
      (∀ n, n < 48 → bit (s.rq m.val 0x18 8) n = true → t.flaskOf n = some (s.rq m.val 0x10 1)) ∧
      (∀ f, f ≠ s.rq m.val 0x10 1 → t.flask f = s.flask f) ∧ Frame [.fmn, .sch, .regs 7] s t) := by
  intro m s hask hb hfree
  have hf : s.rq m.val 0x10 1 < 8 := of_decide_eq_true (State.asks_field (a := 0x10) (n := 1) hask rfl (Nat.le_refl _) (by decide))
  have hno : ¬((List.range 48).any fun n => bit (s.rq m.val 0x18 8) n && (s.flaskOf n).isSome) = true := by
    rw [List.any_eq_true]
    rintro ⟨n, hn, h⟩
    obtain ⟨h1, h2⟩ := Bool.and_eq_true_iff.1 h
    rw [hfree n (List.mem_range.1 hn) h1] at h2
    cases h2
  have hexec : exec (.flaskBuild m) s = done s ((((State.setFlask ((List.range 16).foldl (fun v e => v.setReg Blk.sch
      (0x1040 + 0x100 * s.rq m.val 0x10 1 + 4 * e) 0) s) (s.rq m.val 0x10 1) { built := true, mask := s.rq m.val 0x18 8 }).regulatorOff (s.rq m.val 0x10 1)).replyDone m.val)) :=
    congrArg (done s) ((State.request_asks _ hask).trans ((if_neg (by rw [hb]; decide)).trans (if_neg hno)))
  obtain ⟨t, ht, hd, hg, hfr⟩ := flask_fresh_yields hf (i := .flaskBuild m) hexec
  refine ⟨t, ht, hd, (hg _).trans (if_pos rfl), fun n hn hbit => State.flaskOf_eq hf ?_ fun g hg8 hne => ?_, fun g hne => (hg g).trans (if_neg hne), hfr⟩
  · rw [hg, if_pos rfl]
    exact hbit
  · rw [hg, if_neg hne]
    exact State.flaskOf_none (hfree n hn hbit) hg8
theorem flaskSlices_yields : ∀ (m : MbId) (s : State), s.asks m.val 0x0303 3 [(0x10, 1, decide (s.rq m.val 0x10 1 < 8)),
      (0x11, 1, decide (s.rq m.val 0x11 1 ≤ 16)), (0x12, 1, decide (s.rq m.val 0x12 1 < 2))] → s.rq m.val 0x11 1 = 0 →
    (s.flask (s.rq m.val 0x10 1)).built = true → (s.flask (s.rq m.val 0x10 1)).n ≠ 0 → s.aon.pwr = 3 →
    Yields (.flaskSlices m) s (fun t => t.doneWith m.val [] ∧
      (t.flask (s.rq m.val 0x10 1)).staged = some ((s.lentEntries (s.rq m.val 0x10 1)).take 16, s.rq m.val 0x12 1) ∧
      (t.flask (s.rq m.val 0x10 1)).n = (s.flask (s.rq m.val 0x10 1)).n ∧ Frame [.fmn, .sch] s t) := by
  intro m s hask h11 hb hn hp
  have hexec : exec (.flaskSlices m) s = done s ((s.setFlask (s.rq m.val 0x10 1) { s.flask (s.rq m.val 0x10 1) with
      staged := some ((s.lentEntries (s.rq m.val 0x10 1)).take 16, s.rq m.val 0x12 1) }).replyDone m.val) := by
    show execFlaskSlices m s = _
    unfold execFlaskSlices
    dsimp only
    rw [if_pos h11, show min (s.rq m.val 0x11 1) 16 = 0 by rw [h11]; rfl]
    refine congrArg (done s) ((State.request_asks _ hask).trans ((if_neg (by rw [hb]; decide)).trans ?_))
    unfold State.stageTable
    rw [if_neg (by rw [hp]; simpa using hn)]
    rfl
  generalize hx : ({ s.flask (s.rq m.val 0x10 1) with
      staged := some ((s.lentEntries (s.rq m.val 0x10 1)).take 16, s.rq m.val 0x12 1) } : Flask) = x at hexec
  have hfx : (finish s ((s.setFlask (s.rq m.val 0x10 1) x).replyDone m.val)).flask (s.rq m.val 0x10 1) = x :=
    (finish_flask _ _ _).trans (State.flask_setFlask_self s _ x)
  refine yields_done hexec ⟨finish_answers _ _ _ _, ?_, ?_, (((only_reply _ _ _).mono (by simp)).after ((only_setSch s _).mono (by simp))).frame_finish⟩
  · rw [hfx, ← hx]
  · rw [hfx, ← hx]
theorem flaskDissolve_yields : ∀ (m : MbId) (s : State), s.asks m.val 0x0304 1 [(0x10, 1, s.rq m.val 0x10 1 < 8)] →
    (s.flask (s.rq m.val 0x10 1)).built = true → (s.flask (s.rq m.val 0x10 1)).running = none →
    s.lentFlask (s.rq m.val 0x10 1) = false → (∀ c, c < 32 → s.headJob c (s.rq m.val 0x10 1) = none) →
    Yields (.flaskDissolve m) s (fun t => t.doneWith m.val [] ∧ t.flask (s.rq m.val 0x10 1) = {} ∧
      (∀ n, n < 48 → t.flaskOf n ≠ some (s.rq m.val 0x10 1)) ∧ Frame [.fmn, .sch, .regs 7] s t) := by
  intro m s hask hb hrun hlent hjobs
  have hf : s.rq m.val 0x10 1 < 8 := of_decide_eq_true (State.asks_field (a := 0x10) (n := 1) hask rfl (Nat.le_refl _) (by decide))
  have hno : ¬((List.range 32).any fun c => (s.headJob c (s.rq m.val 0x10 1)).isSome) = true := by
    rw [List.any_eq_true]
    rintro ⟨c, hc, h⟩
    rw [hjobs c (List.mem_range.1 hc)] at h
    cases h
  have hexec : exec (.flaskDissolve m) s = done s ((((State.setFlask ((List.range 16).foldl (fun v e => v.setReg Blk.sch
      (0x1040 + 0x100 * s.rq m.val 0x10 1 + 4 * e) 0) s) (s.rq m.val 0x10 1) {}).regulatorOff (s.rq m.val 0x10 1)).replyDone m.val)) :=
    congrArg (done s) ((State.request_asks _ hask).trans ((if_neg (by rw [hb]; decide)).trans
    ((if_neg (by rw [hrun, hlent]; decide)).trans (if_neg hno))))
  obtain ⟨t, ht, hd, hg, hfr⟩ := flask_fresh_yields hf (i := .flaskDissolve m) hexec
  refine ⟨t, ht, hd, (hg _).trans (if_pos rfl), fun n hn h => ?_, hfr⟩
  have hp := List.find?_some h
  rw [hg, if_pos rfl] at hp
  cases hp

/-! ## Regulators -/

/-- Sums of rates that are each at most 300 stay within the limits of all regulators. -/
theorem foldl_add_le {g : Nat → Nat} {b : Nat} {l : List Nat} (h : ∀ i ∈ l, g i ≤ b) (n : Nat) : l.foldl (fun n i => n + g i) n ≤ n + l.length * b := by
  induction l generalizing n with
  | nil => simp
  | cons x t ih =>
    have hx := h x (List.mem_cons_self ..)
    have := ih (fun i hi => h i (List.mem_cons_of_mem _ hi)) (n + g x)
    rw [List.foldl_cons, List.length_cons, Nat.succ_mul]
    omega
theorem regulatorSet_yields : ∀ (m : MbId) (s : State), s.asks m.val 0x0305 0x0C
      [(0x10, 1, s.rq m.val 0x10 1 < 10), (0x11, 1, s.rq m.val 0x11 1 < 3), (0x12, 1, s.rq m.val 0x12 1 < 2),
       (0x14, 4, s.rq m.val 0x14 4 ≤ 1048575), (0x18, 4, 1024 ≤ s.rq m.val 0x18 4 && s.rq m.val 0x18 4 ≤ 1048575)] →
    s.rq m.val 0x12 1 = 0 → (∀ r, r < 10 → ∀ k, k < 3 → s.bucketRate r k ≤ 300) → Yields (.regulatorSet m) s (fun t => t.doneWith m.val [] ∧
      t.bucketRate (s.rq m.val 0x10 1) (s.rq m.val 0x11 1) = 0 ∧ nget t.sch.used (4 * s.rq m.val 0x10 1 + s.rq m.val 0x11 1) = 0 ∧
      Frame [.fmn, .sch, .regs 7] s t) := by
  intro m s hask h12 hrates
  have hr : s.rq m.val 0x10 1 < 10 := of_decide_eq_true (State.asks_field (a := 0x10) (n := 1) hask rfl (by decide) (by decide))
  have hk : s.rq m.val 0x11 1 < 3 := of_decide_eq_true (State.asks_field (a := 0x11) (n := 1) hask rfl (by decide) (by decide))
  generalize hv : (s.setReg Blk.sch (0x6000 + 0x40 * s.rq m.val 0x10 1 + 0x10 * s.rq m.val 0x11 1) (at_ (s.rq m.val 0x12 1) 31 1 |||
      at_ (s.rq m.val 0x14 4) 0 20)).setReg Blk.sch (0x6000 + 0x40 * s.rq m.val 0x10 1 + 0x10 * s.rq m.val 0x11 1 + 4) (at_ (s.rq m.val 0x18 4) 0 20) = v
  have hexec : exec (.regulatorSet m) s = done s (({ v with
      sch.used := nset v.sch.used (4 * s.rq m.val 0x10 1 + s.rq m.val 0x11 1) 0
      sch.held := tset v.sch.held (4 * s.rq m.val 0x10 1 + s.rq m.val 0x11 1) false } : State).replyDone m.val) := by
    rw [← hv]
    refine congrArg (done s) ((State.request_asks _ hask).trans (if_neg ?_))
    have hrate : ∀ i j, i < 10 → j < 3 → (if i = s.rq m.val 0x10 1 ∧ j = s.rq m.val 0x11 1 then (if s.rq m.val 0x12 1 = 1 then s.rq m.val 0x14 4 else 0)
        else s.bucketRate i j) ≤ 300 := fun i j hi hj => by
      rw [h12]
      split
      · exact Nat.zero_le _
      · exact hrates i hi j hj
    have hlow := foldl_add_le (b := 600) (l := List.range 10) (g := fun i => (if i = s.rq m.val 0x10 1 ∧ 0 = s.rq m.val 0x11 1 then
        (if s.rq m.val 0x12 1 = 1 then s.rq m.val 0x14 4 else 0) else s.bucketRate i 0) + (if i = s.rq m.val 0x10 1 ∧ 1 = s.rq m.val 0x11 1 then
        (if s.rq m.val 0x12 1 = 1 then s.rq m.val 0x14 4 else 0) else s.bucketRate i 1))
      (fun i hi => Nat.add_le_add (hrate i 0 (List.mem_range.1 hi) (by decide)) (hrate i 1 (List.mem_range.1 hi) (by decide))) 0
    have hhigh := foldl_add_le (b := 300) (l := List.range 10) (g := fun i => if i = s.rq m.val 0x10 1 ∧ 2 = s.rq m.val 0x11 1 then
        (if s.rq m.val 0x12 1 = 1 then s.rq m.val 0x14 4 else 0) else s.bucketRate i 2)
      (fun i hi => hrate i 2 (List.mem_range.1 hi) (by decide)) 0
    rw [List.length_range] at hlow hhigh
    rw [Bool.or_eq_true, decide_eq_true_eq, decide_eq_true_eq]
    refine not_or.2 ⟨Nat.not_lt.2 (Nat.le_trans (m := 0 + 10 * 600) ?_ (show _ ≤ 524288 by decide)),
      Nat.not_lt.2 (Nat.le_trans (m := 0 + 10 * 300) hhigh (show _ ≤ 9927 by decide))⟩
    simpa only [Nat.add_assoc] using hlow
  have hlt : 0x6000 + 0x40 * s.rq m.val 0x10 1 + 0x10 * s.rq m.val 0x11 1 + 4 < 0x10000 := by omega
  have hsv : Only [.regs Blk.sch] s v := by
    rw [← hv]
    exact (only_setReg _ _ hlt _).after (only_setReg s _ (by omega) _)
  have hreg : v.reg Blk.sch (0x6000 + 0x40 * s.rq m.val 0x10 1 + 0x10 * s.rq m.val 0x11 1) = at_ (s.rq m.val 0x12 1) 31 1 ||| at_ (s.rq m.val 0x14 4) 0 20 := by
    rw [← hv, State.reg_setReg_ne _ _ (by rw [Ne, regKey_inj (by omega) (by omega)]; omega), State.reg_setReg_self]
  refine yields_done hexec ⟨finish_answers _ _ _ _, ?_, ?_, (((only_reply _ _ _).mono (by simp)).after (((only_setSch v _).mono (by simp)).after
    (hsv.mono (by simp [Blk.sch])))).frame_finish⟩
  · unfold State.bucketRate
    dsimp only
    rw [finish_reg _ _ (by omega) not_tripBlk_sch]
    refine if_neg (fun h => absurd (h.symm.trans (congrArg (fun w => fld w 31 1) hreg)) ?_)
    rw [fld_or, h12, fld_at_self _ (by decide), fld_at_of_disjoint _ (by decide) (by decide)]
    decide
  · rw [finish_sch]
    exact (nget_nset _ _ _ _).trans (if_pos rfl)

/-- Settles O29: each command is one branch of its definition. -/
theorem contextsAndFlasks : Obligations.ContextsAndFlasks := by
  unfold Obligations.ContextsAndFlasks
  exact ⟨⟨ctxOpen_yields, ctxClose_yields, ctxReopen_yields, ctxWindow_set_yields, ctxWindow_clear_yields⟩, flaskBuild_yields, flaskSlices_yields,
    flaskDissolve_yields, regulatorSet_yields⟩

end Sys2Proof.Machine
end
section
/-! MSI-X messages, parity mismatches, the halt of a block and its return (R49, R101 to R116, R1015). -/
namespace Sys2Proof.Machine
open Sys2Proof

/-! ## Messages -/

theorem State.intStatus_setMsix (s : State) (b : Blk) (x : Tab MsixVec) (y : Tab Nat) (d : Tab Bool) :
    State.intStatus { s with bus.msix := x, bus.msixSent := y, rf.msixDue := d } b = s.intStatus b := rfl
theorem latchRises_same {s t : State} (h : ∀ b, t.intStatus b = s.intStatus b) (hr : ∀ b o, t.reg b o = s.reg b o) :
    latchRises s t = t := by
  have key : ∀ l : List Nat, l.foldl (fun d b =>
      if (t.intStatus b &&& t.reg b 0xC) &&& ~~~(s.intStatus b &&& s.reg b 0xC) = 0 then d else tset d b true) t.rf.msixDue = t.rf.msixDue := by
    intro l
    induction l with
    | nil => rfl
    | cons b l ih =>
      rw [List.foldl_cons, if_pos (by rw [h, hr]; exact BitVec.and_not_self _)]
      exact ih
  exact congrArg (fun d => ({ t with rf.msixDue := d } : State)) (key (List.range 33))
/-- The vectors, the counts of what was sent and the messages due of a state replaced. -/
def State.msixTook (s : State) (x : Tab MsixVec) (y : Tab Nat) (d : Tab Bool) : State :=
  { s with bus.msix := x, bus.msixSent := y, rf.msixDue := d }
theorem only_msixTook (s : State) (x : Tab MsixVec) (y : Tab Nat) (d : Tab Bool) : Only [.bus] s (s.msixTook x y d) :=
  (only_setBus _ { s.bus with msix := x, msixSent := y }).after ((only_setDue s d).mono (by simp))
theorem finish_msixTook {s : State} (h : s.quenchClear) (x : Tab MsixVec) (y : Tab Nat) (d : Tab Bool) :
    finish s (s.msixTook x y d) = s.msixTook x y d :=
  (congrArg (latchRises s) (State.tripDue_quiet ((only_msixTook s x y d).quenchClear h (by simp) (by simp) (by simp)))).trans
    (latchRises_same (fun b => State.intStatus_setMsix s b x y d) fun _ _ => rfl)
theorem msixMessage_sent : ∀ (k : Fin 96) (s : State), tget s.rf.msixDue k.val = true → s.msixOpen k.val = true → s.msixLink k.val = true →
    Yields (.msixMessage k) s (fun t => (s.quenchClear → tget t.rf.msixDue k.val = false) ∧
      nget t.bus.msixSent k.val = nget s.bus.msixSent k.val + 1 ∧ (t.msixVec k.val).pbit = false ∧ Frame [.bus] s t) := by
  intro k s hdue hopen hlink
  obtain ⟨hon, -⟩ := Bool.and_eq_true_iff.1 hopen
  have hexec : exec (.msixMessage k) s = done s (s.msixTook (Tab.set msixReset s.bus.msix k.val { s.msixVec k.val with pbit := false })
      (nset s.bus.msixSent k.val (nget s.bus.msixSent k.val + 1)) (tset s.rf.msixDue k.val false)) :=
    congrArg (done s) ((if_neg (by rw [hdue, hon, Bool.true_or]; decide)).trans ((if_neg (by rw [hopen]; decide)).trans (if_neg (by rw [hlink]; decide))))
  refine yields_done hexec ⟨fun hc => ?_, ?_, ?_, (only_msixTook s _ _ _).frame_finish⟩
  · rw [finish_msixTook hc]
    exact Tab.get_set_self offTab _ _ _
  · rw [finish_bus]
    exact Tab.get_set_self zeroTab _ _ _
  · rw [finish_msixVec]
    exact (congrArg MsixVec.pbit (Tab.get_set_self msixReset s.bus.msix k.val { s.msixVec k.val with pbit := false }) :)
theorem msixMessage_pending : ∀ (k : Fin 96) (s : State), tget s.rf.msixDue k.val = true → tget s.bus.msixOn (msixFn k.val) = true →
    (s.msixVec k.val).masked = true → Yields (.msixMessage k) s (fun t => (t.msixVec k.val).pbit = true ∧
      nget t.bus.msixSent k.val = nget s.bus.msixSent k.val ∧ Frame [.bus] s t) := by
  intro k s hdue hon hmask
  have hexec : exec (.msixMessage k) s = done s (s.msixTook (Tab.set msixReset s.bus.msix k.val { s.msixVec k.val with pbit := true })
      s.bus.msixSent (tset s.rf.msixDue k.val false)) :=
    congrArg (done s) ((if_neg (by rw [hdue, hon, Bool.true_or]; decide)).trans (if_pos (by unfold State.msixOpen; rw [hmask]; simp)))
  refine yields_done hexec ⟨?_, ?_, (only_msixTook s _ _ _).frame_finish⟩
  · rw [finish_msixVec]
    exact (congrArg MsixVec.pbit (Tab.get_set_self msixReset s.bus.msix k.val { s.msixVec k.val with pbit := true }) :)
  · rw [finish_bus]
    rfl

/-! ## Parity -/

theorem Tab.ins_mem {α : Type} (k : Nat) (v : α) (t : Tab α) : (k, v) ∈ Tab.ins k v t := by
  induction t with
  | nil => exact List.mem_singleton_self _
  | cons e t ih =>
    unfold Tab.ins
    split
    · exact List.mem_cons_self ..
    · split
      · exact List.mem_cons_self ..
      · exact List.mem_cons_of_mem _ ih
theorem Tab.set_mem {α : Type} [DecidableEq α] (d : Nat → α) (t : Tab α) {k : Nat} {v : α} (h : v ≠ d k) : (k, v) ∈ Tab.set d t k v := by
  rw [Tab.set_eq, if_neg h]
  exact Tab.ins_mem k v t
theorem State.reg_bumpInfo_of_ne (s : State) {b j off b' o : Nat} {info : Word} (h : regKey b' o ≠ regKey b off) :
    (s.bumpInfo b j off info).reg b' o = s.reg b' o := by
  unfold State.bumpInfo
  split
  · rfl
  · exact State.reg_setReg_ne s info h
theorem cfgParityScan_found : ∀ (b : Fin 96) (off : BitVec 16) (i : Fin 32) (s : State) (r : RegRow) (n : Nat), regRow b.val off.toNat = some (r, n) →
    r.kind = .rw → r.wmask.toNat.testBit i.val = true → (48 ≤ b.val → off.toNat ≠ 0xC) → s.parityOf b.val off.toNat = 0 →
    s.gated b.val = false → haltGroup b.val = true → ¬(22 ≤ b.val ∧ b.val ≤ 25) →
    Yields (.cfgParityScan b off (some i) true) s (fun t => t.parityCause b.val = true ∧
      t.evc b.val 1 = s.evc b.val 1 + 1 ∧ (off.toNat ≠ 0x34 → t.reg b.val off.toNat = s.reg b.val off.toNat ^^^ BitVec.ofNat 32 (2 ^ i.val)) ∧
      Frame [.regs b.val, .halts] s t) := by
  intro b off i s r n hrow hkind hmask hoff hpar hg hh hb
  have hexec : exec (.cfgParityScan b off (some i) true) s = done s ((((s.setReg b.val off.toNat
      (s.reg b.val off.toNat ^^^ BitVec.ofNat 32 (2 ^ i.val))).setParity b.val off.toNat (4 * 2 ^ i.val + 1)).setParity b.val off.toNat
      (4 * 2 ^ i.val + 1 + 1)).bumpInfo b.val 1 0x34 (bitAt true 16 ||| at_ off.toNat 0 16)) := by
    have hpm : parityMask b.val off.toNat = r.wmask := by
      unfold parityMask
      rw [if_neg (fun h => hoff h.1 h.2), hrow]
    have hflip : s.flipReg b.val off.toNat i.val = (s.setReg b.val off.toNat
        (s.reg b.val off.toNat ^^^ BitVec.ofNat 32 (2 ^ i.val))).setParity b.val off.toNat (4 * 2 ^ i.val + 1) := by
      unfold State.flipReg
      rw [hpm, if_pos hmask, hrow]
      dsimp only
      rw [hkind, hpar]
      dsimp only
      rw [show 0 / 4 ^^^ 2 ^ i.val = 2 ^ i.val from Nat.zero_xor _, if_neg (Nat.pos_iff_ne_zero.1 (Nat.two_pow_pos _))]
      rfl
    have hgrave : graveParity b.val = none := by
      have h27 : b.val ≠ 27 := fun h => by rw [h] at hh; exact absurd hh (by decide)
      have h1 : b.val ≠ 1 := fun h => by rw [h] at hh; exact absurd hh (by decide)
      have h29 : b.val ≠ Blk.sec := fun h => by rw [h] at hh; exact absurd hh (by decide)
      unfold graveParity
      rw [if_neg h27, if_neg h1, if_neg h29]
    show done s (if (true && (b.val == 1 || !(s.flipReg b.val off.toNat i.val).gated b.val)) = true then
      (s.flipReg b.val off.toNat i.val).parityFound b.val off.toNat true else s.flipReg b.val off.toNat i.val) = _
    rw [hflip]
    generalize hu : (s.setReg b.val off.toNat (s.reg b.val off.toNat ^^^ BitVec.ofNat 32 (2 ^ i.val))).setParity b.val off.toNat (4 * 2 ^ i.val + 1) = u
    have hug : u.gated b.val = false := by rw [← hu]; exact hg
    have hup : u.parityOf b.val off.toNat = 4 * 2 ^ i.val + 1 := by rw [← hu]; exact Tab.get_set_self zeroTab _ _ _
    rw [hug, if_pos (by simp)]
    unfold State.parityFound
    rw [hup]
    dsimp only
    rw [if_pos (by omega), hgrave, if_pos hh]
  generalize hv : ((s.setReg b.val off.toNat (s.reg b.val off.toNat ^^^ BitVec.ofNat 32 (2 ^ i.val))).setParity b.val off.toNat (4 * 2 ^ i.val + 1)).setParity
      b.val off.toNat (4 * 2 ^ i.val + 1 + 1) = v at hexec
  have hlt : off.toNat < 0x10000 := off.isLt
  have hvm : (regKey b.val off.toNat, 4 * 2 ^ i.val + 1 + 1) ∈ v.rf.parityBad := by
    rw [← hv]
    exact Tab.set_mem zeroTab _ (Nat.succ_ne_zero _)
  have hvr : v.reg b.val off.toNat = s.reg b.val off.toNat ^^^ BitVec.ofNat 32 (2 ^ i.val) := by
    rw [← hv]
    exact State.reg_setReg_self s _ _ _
  have hsv : Only [.regs b.val, .halts] s v := by
    rw [← hv]
    exact ((only_setParity _ _ _ _).mono (by simp)).after (((only_setParity _ _ _ _).mono (by simp)).after ((only_setReg s _ hlt _).mono (by simp)))
  have hve : v.evc b.val 1 = s.evc b.val 1 := by
    rw [← hv]
    rfl
  have hi := only_bumpInfo v b.val (j := 1) (off := 0x34) (by decide) (by decide) (bitAt true 16 ||| at_ off.toNat 0 16)
  have hnt : ¬tripBlk b.val := fun h => h.elim (fun h => by rw [h] at hh; exact absurd hh (by decide)) hb
  refine yields_done hexec ⟨?_, ?_, fun hne => ?_, ?_⟩
  · unfold State.parityCause
    refine List.any_eq_true.2 ⟨(regKey b.val off.toNat, 4 * 2 ^ i.val + 1 + 1), ?_, ?_⟩
    · have hh := ((hi.frame_finish (s := v)) .halts (by simp) (by decide)).2.2.1
      have h2 := (hi .halts (by simp)).2.2.1
      rw [show (finish s (v.bumpInfo b.val 1 0x34 (bitAt true 16 ||| at_ off.toNat 0 16))).rf.parityBad = v.rf.parityBad from
        (congrArg (fun x : State => x.rf.parityBad) (finish_frame s _)).trans h2]
      exact hvm
    · have hk : regKey b.val off.toNat / 0x10000 = b.val := by unfold regKey; omega
      dsimp only
      rw [hk]
      simp
      omega
  · rw [finish_evc _ _ (by decide) (by omega), State.evc_bumpInfo_self, hve]
  · rw [finish_reg _ _ hlt hnt, ← hvr]
    exact State.reg_bumpInfo_of_ne v (by rw [Ne, regKey_inj hlt (by decide)]; omega)
  · exact ((hi.mono (by simp)).after hsv).frame_finish

/-! ## Halt -/

/-- The parts that a halt of a block outside Flux and the Sprue ports may change beside its mark. -/
abbrev haltParts : List StatePart := .inp :: tearParts
theorem tear_fbcHalt {s u : State} (h : Only tearParts s u) {k : Nat} (hk : k < 4) (x : Fbc) :
    Only tearParts s (if (u.fbc k).st = .off then u else (u.fbcOff k).setFbc k x) := by
  refine Only.ite (fun _ => h) fun _ => ?_
  obtain ⟨ho, -⟩ := u.fbcOff_leaves hk
  exact (tear_setFbc _ k x).after (ho.after h)
theorem only_haltEffects (s : State) {b : Blk} (hb : b ∉ [9, 10, 11]) : Only haltParts s (s.haltEffects b) := by
  have htear : ∀ {u v : State}, Only tearParts u v → Only haltParts u v := fun h => h.mono (List.subset_cons_self _ _)
  have heng : ∀ e, Only haltParts s (s.engTokensLost e) := fun e => (only_engTokensLost s e).mono (by decide)
  have hstop : ∀ x : Option (Nat × Bool), Only tearParts s (match x with | some (m, _) => s.replyDone m | none => s) := fun x =>
    match x with
    | some _ => tear_reply s _ _
    | none => Only.refl _ s
  unfold State.haltEffects
  split
  iterate 3 exact absurd (by simp) hb
  iterate 6 exact heng _
  · exact htear ((only_setDisp s _).mono (by decide))
  iterate 4 exact htear (tear_fbcHalt (hstop _) (by decide) _)
  · exact Only.refl _ s
/-- The records of halts are of one part. -/
theorem only_setHalts (s : State) (bad : Tab Nat) (halted : Tab Bool) (times : Tab (List Nat)) (left : Tab Bool) :
    Only [.halts] s { s with rf.parityBad := bad, rf.halted := halted, rf.haltTimes := times, rf.leftHalted := left } := by
  intro p hp
  cases p with
  | halts => simp at hp
  | _ => simp [StatePart.same, State.reg, State.evc, State.ackOf]
theorem only_setHaltCtxs (s : State) (x : Tab (List Nat)) : Only [.halts] s { s with rf.haltCtxs := x } := by
  intro p hp
  cases p with
  | halts => simp at hp
  | _ => simp [StatePart.same, State.reg, State.evc, State.ackOf]
theorem State.parityCause_of_map {s t : State} {b : Blk}
    (ht : t.rf.parityBad = s.rf.parityBad.map (fun e => if e.1 / 0x10000 == b && e.2 % 4 == 2 then (e.1, e.2 + 1) else e))
    (h : s.rf.parityBad.any (fun e => e.1 / 0x10000 == b && e.2 % 4 == 2) = true) : t.parityCause b = true := by
  obtain ⟨e, he, hc⟩ := List.any_eq_true.1 h
  unfold State.parityCause
  rw [ht]
  refine List.any_eq_true.2 ⟨_, List.mem_map_of_mem he, ?_⟩
  obtain ⟨hb, h2⟩ := Bool.and_eq_true_iff.1 hc
  rw [if_pos hc, hb, Bool.true_and]
  have := eq_of_beq h2
  exact decide_eq_true (by omega)
theorem State.markHalted_leaves (s : State) (b : Blk) : Only [.halts, .fmn] s (s.markHalted b) ∧ tget (s.markHalted b).rf.halted b = true ∧
    (s.markHalted b).rf.parityBad = s.rf.parityBad.map (fun e => if e.1 / 0x10000 == b && e.2 % 4 == 2 then (e.1, e.2 + 1) else e) := by
  unfold State.markHalted
  dsimp only
  generalize hbad : s.rf.parityBad.map (fun e => if e.1 / 0x10000 == b && e.2 % 4 == 2 then (e.1, e.2 + 1) else e) = bad
  generalize s.clk.now :: (Tab.get (fun _ => []) s.rf.haltTimes b).filter (fun t => decide (s.clk.now < t + 10000 * tbMs)) = times
  generalize hu : ({ s with
    rf.parityBad := bad, rf.halted := tset s.rf.halted b true
    rf.haltTimes := Tab.set (fun _ => []) s.rf.haltTimes b (times.take 3)
    rf.leftHalted := tset s.rf.leftHalted b (decide (3 ≤ times.length) || tget s.rf.leftHalted b) } : State) = u
  have h : Only [.halts] s u := by
    rw [← hu]
    exact only_setHalts s _ _ _ _
  have hh : tget u.rf.halted b = true := by
    rw [← hu]
    exact Tab.get_set_self offTab _ _ _
  have hb : u.rf.parityBad = bad := by rw [← hu]
  have hl := only_logRecord u 3 4 b 0xFF (s.reg b 0x34).toNat 0
  split
  · exact ⟨(hl.mono (by simp)).after (h.mono (by simp)), by rw [hl.halted (by simp)]; exact hh, (hl .halts (by simp)).2.2.1.trans hb⟩
  · exact ⟨h.mono (by simp), hh, hb⟩
theorem finish_parityCause (s0 s : State) (b : Blk) : (finish s0 s).parityCause b = s.parityCause b := by
  unfold State.parityCause
  rw [finish_frame]
theorem Only.parityCause {l : List StatePart} {s t : State} (h : Only l s t) (hp : .halts ∉ l) (b : Blk) : t.parityCause b = s.parityCause b := by
  unfold State.parityCause
  rw [(h .halts hp).2.2.1]
theorem State.blockHalt_eq {s : State} {b : Blk} (hh : haltGroup b = true) (hf : s.frozen = false)
    (hp : s.rf.parityBad.any (fun e => e.1 / 0x10000 == b && e.2 % 4 == 2) = true) : ∃ (before : Nat) (deps : List Nat) (x : Tab (List Nat)), s.blockHalt b =
      State.evalTrip { deps.foldl (fun s c => s.teardownFree c) ((s.markHalted b).haltEffects b) with rf.haltCtxs := x } before 0 :=
  ⟨_, _, _, if_pos (by rw [hh, hf, hp]; rfl)⟩
theorem blockHalt_yields : ∀ (b : Fin 96) (s : State), haltGroup b.val = true → s.frozen = false → b.val ∉ [9, 10, 11] →
    s.rf.parityBad.any (fun e => e.1 / 0x10000 == b.val && e.2 % 4 == 2) = true →
    Yields (.blockHalt b) s (fun t => t.isHalted b.val = true ∧ t.parityCause b.val = true ∧ t.aon = s.aon ∧ t.clk = s.clk ∧
      t.rst = s.rst) := by
  intro b s hh hf hb hp
  obtain ⟨before, deps, x, he⟩ := State.blockHalt_eq hh hf hp
  obtain ⟨h1, hhalt, hbad⟩ := s.markHalted_leaves b.val
  have hcause := State.parityCause_of_map hbad hp
  have h2 := only_haltEffects (s.markHalted b.val) hb
  have h3 : Only tearParts ((s.markHalted b.val).haltEffects b.val) (deps.foldl (fun s c => s.teardownFree c) ((s.markHalted b.val).haltEffects b.val)) :=
    Only.foldl (fun u c _ => tear_teardownFree u c) _
  generalize s.markHalted b.val = u at *
  generalize u.haltEffects b.val = v at *
  generalize deps.foldl (fun s c => s.teardownFree c) v = w at *
  have h4 := only_setHaltCtxs w x
  have k4 : tget ({ w with rf.haltCtxs := x } : State).rf.halted b.val = tget w.rf.halted b.val ∧
      ({ w with rf.haltCtxs := x } : State).parityCause b.val = w.parityCause b.val := ⟨rfl, rfl⟩
  generalize ({ w with rf.haltCtxs := x } : State) = y at *
  have h5 := only_evalTrip y before 0
  generalize y.evalTrip before 0 = z at *
  refine yields_done (congrArg (done s) he) ⟨?_, ?_, ?_, ?_, ?_⟩
  · rw [finish_isHalted]
    unfold State.isHalted
    rw [h5.halted (by decide), k4.1, h3.halted (by decide), h2.halted (by decide)]
    exact hhalt
  · rw [finish_parityCause, h5.parityCause (by decide), k4.2, h3.parityCause (by decide), h2.parityCause (by decide)]
    exact hcause
  · rw [finish_aon, h5.aon (by decide), h4.aon (by simp), h3.aon (by decide), h2.aon (by decide), h1.aon (by simp)]
  · rw [finish_clk, h5.clk (by decide), h4.clk (by simp), h3.clk (by decide), h2.clk (by decide), h1.clk (by simp)]
  · rw [finish_rst]
    exact (h5 .rst (by decide)).trans ((h4 .rst (by simp)).trans ((h3 .rst (by decide)).trans ((h2 .rst (by decide)).trans (h1 .rst (by simp)))))

/-! ## Return -/

theorem only_healRegs (s : State) (b : Blk) : Only [.regs b] s (s.healRegs b) := by
  refine Only.foldl (fun u e _ => ?_) s
  dsimp only
  split
  · split
    · split
      · exact Only.refl _ u
      · exact only_setReg u b (Nat.mod_lt _ (by decide)) _
    · exact Only.refl _ u
  · exact Only.refl _ u
/-- The reset of a crucible's block: its hearth zeroed, its frame reset. -/
theorem State.reconfigure_crucible (s : State) {b : Nat} (hb : 48 ≤ b) : s.reconfigure b = (s.zeroHearth (b - 48)).frameReset b := by
  have hq : blockQueues b = [] := by
    unfold blockQueues
    split
    all_goals first
    | omega
    | rfl
  have hs : s.blockState b = s.zeroHearth (b - 48) := by
    unfold State.blockState
    rw [hq]
    exact if_pos hb
  unfold State.reconfigure
  split
  iterate 8 omega
  unfold State.blockRestart
  have hne : ∀ n, n < 48 → b ≠ n := fun n hn h => by omega
  rw [if_neg (fun h => absurd (of_decide_eq_true (Bool.and_eq_true_iff.1 h).2) (by show ¬b ≤ 18; omega)), if_neg (hne 19 (by decide)),
    if_neg (hne 20 (by decide))]
  exact congrArg (State.frameReset · b) hs
theorem blockResume_yields : ∀ (b : Fin 96) (s : State), 48 ≤ b.val → s.isHalted b.val = true → s.leftHalted b.val = false → s.foremanRuns = true →
    (∀ c, c ∈ Tab.get (fun _ => []) s.rf.haltCtxs b.val → (s.ctx c).st ≠ .teardown) →
    Yields (.blockResume b) s (fun t => t.isHalted b.val = false ∧ t.evc Blk.rst 7 = s.evc Blk.rst 7 + 1 ∧
      t.parityCause b.val = false ∧ t.queues = s.queues ∧ t.sch = s.sch ∧
      (∀ a, (a < 0x10000000 + (b.val - 48) * 0x200000 ∨ 0x10200000 + (b.val - 48) * 0x200000 ≤ a) → t.mbyte a = s.mbyte a)) := by
  intro b s hb hhalt hleft hrun hctx
  have hexec : exec (.blockResume b) s = done s (((((s.healRegs b.val).zeroHearth (b.val - 48)).frameReset b.val).bump Blk.rst 7).logRecord 3 3 b.val 0xFF
      (s.reg b.val 0x34).toNat 0) := by
    rw [← State.reconfigure_crucible _ hb]
    refine congrArg (done s) (if_pos ?_)
    rw [hhalt, hleft, hrun]
    simpa using hctx
  have h1 := only_healRegs s b.val
  have h2 := only_zeroRange (s.healRegs b.val) (0x10000000 + (b.val - 48) * 0x200000) 0x200000
  have hmem : ∀ a, (a < 0x10000000 + (b.val - 48) * 0x200000 ∨ 0x10200000 + (b.val - 48) * 0x200000 ≤ a) →
      ((s.healRegs b.val).zeroHearth (b.val - 48)).mbyte a = (s.healRegs b.val).mbyte a := fun a ha => by
    show Tab.get zeroByte (Tab.clear (fun k => decide (0x10000000 + (b.val - 48) * 0x200000 ≤ k ∧ k < 0x10000000 + (b.val - 48) * 0x200000 + 0x200000))
      (s.healRegs b.val).mem.bytes) a = _
    rw [Tab.get_clear, if_neg (by rw [decide_eq_true_eq]; omega)]
    rfl
  have hm1 : ∀ a, (s.healRegs b.val).mbyte a = s.mbyte a := fun a => congrArg (fun x : Mem => Tab.get zeroByte x.bytes a) (h1.mem (by simp))
  have hz : (s.healRegs b.val).zeroHearth (b.val - 48) = (s.healRegs b.val).zeroRange (0x10000000 + (b.val - 48) * 0x200000) 0x200000 := rfl
  rw [hz] at hexec hmem
  generalize s.healRegs b.val = u at *
  generalize u.zeroRange (0x10000000 + (b.val - 48) * 0x200000) 0x200000 = v at *
  have h3 := only_frameReset v b.val
  have hh3 : (v.frameReset b.val).isHalted b.val = false := by
    show Tab.get offTab (Tab.clear (fun k => k == b.val) v.rf.halted) b.val = false
    rw [Tab.get_clear, if_pos (beq_self_eq_true _)]
    rfl
  have hp3 : (v.frameReset b.val).parityCause b.val = false := by
    refine List.any_eq_false.2 fun e he => ?_
    have := (List.mem_filter.1 he).2
    simp at this
    simp [this]
  generalize v.frameReset b.val = w at *
  have h4 := only_bump w Blk.rst (j := 7) (by decide)
  have he4 := State.evc_bump_self w Blk.rst 7
  generalize w.bump Blk.rst 7 = x at *
  have h5 := only_logRecord x 3 3 b.val 0xFF (s.reg b.val 0x34).toNat 0
  generalize x.logRecord 3 3 b.val 0xFF (s.reg b.val 0x34).toNat 0 = y at *
  have hr : StatePart.regs Blk.rst ≠ .regs b.val := fun h => absurd (StatePart.regs.inj h) (by show 4 ≠ b.val; omega)
  refine yields_done hexec ⟨?_, ?_, ?_, ?_, ?_, fun a ha => ?_⟩
  · rw [finish_isHalted]
    unfold State.isHalted
    rw [h5.halted (by simp), h4.halted (by simp)]
    exact hh3
  · rw [finish_evc_rst _ _ (by decide), h5.evc (by simp) (by decide), he4, h3.evc (by simp [hr]) (by decide), h2.evc (by simp) (by decide),
      h1.evc (by simp [hr]) (by decide)]
  · rw [finish_parityCause, h5.parityCause (by simp), h4.parityCause (by simp)]
    exact hp3
  · rw [finish_queues]
    exact (h5 .queues (by simp)).trans ((h4 .queues (by simp)).trans ((h3 .queues (by simp)).trans ((h2 .queues (by simp)).trans (h1 .queues (by simp)))))
  · rw [finish_sch]
    exact (h5 .sch (by simp)).trans ((h4 .sch (by simp)).trans ((h3 .sch (by simp)).trans ((h2 .sch (by simp)).trans (h1 .sch (by simp)))))
  · rw [finish_mbyte]
    have hmv : y.mem = v.mem := (h5.mem (by simp)).trans ((h4.mem (by simp)).trans (h3.mem (by simp)))
    exact (congrArg (fun x : Mem => Tab.get zeroByte x.bytes a) hmv).trans ((hmem a ha).trans (hm1 a))

/-- Settles O19: a message of a vector is sent or kept, a mismatch found is kept and counted, a halt marks its block, and a crucible's
return resets its frame and zeroes its hearth. -/
theorem messagesAndParity : Obligations.MessagesAndParity := by
  unfold Obligations.MessagesAndParity
  exact ⟨⟨msixMessage_sent, msixMessage_pending, cfgParityScan_found⟩, blockHalt_yields, blockResume_yields⟩

end Sys2Proof.Machine
end
section
/-! Field-bus transmission, reception and error confinement (R873 to R898, R917). -/
namespace Sys2Proof.Machine
open Sys2Proof

/-! ## Steps that change one controller -/

/-- The parts of one controller: its state and its frame. -/
abbrev fbcParts : List StatePart := [.fbcs, .regs 22, .regs 23, .regs 24, .regs 25]
theorem regs_mem_fbcParts {k : Nat} (h : k < 4) : StatePart.regs (fbcBlk k) ∈ fbcParts := by
  have hall : ∀ k : Fin 4, StatePart.regs (22 + k.val) ∈ fbcParts := by decide
  exact hall ⟨k, h⟩
theorem only_fbcReg {k : Nat} (hk : k < 4) {s t : State} (h : Only [.regs (fbcBlk k)] s t) : Only fbcParts s t :=
  h.mono fun p hp => by rw [List.mem_singleton.1 hp]; exact regs_mem_fbcParts hk
theorem fbcBlk_ne_qch {k : Nat} (hk : k < 4) : fbcBlk k ≠ 27 := by show 22 + k ≠ 27; omega
/-- A step that changes controllers alone, no cause being present that Quench would trip on. -/
theorem fbc_yields {i : Instr} {s u : State} {P : State → Prop} (h : exec i s = done s u) (hc : s.quenchClear) (hu : Only fbcParts s u)
    (hp : ∀ t, Only [] u t → t.qch = s.qch → Frame [] s t → P t) : Yields i s P := by
  refine yields_clear h (hu.quenchClear hc (by simp) (by simp) (by simp)) fun t ht => hp t ht ?_ ?_
  · rw [ht.qch (by simp), hu.qch (by simp)]
  · exact Only.frame_trip (l' := fbcParts) ((ht.mono (by simp)).after hu) (by simp [tripParts])
/-- A step that replaces one controller's record. -/
theorem setFbc_yields {i : Instr} {s : State} {k : Nat} {x : Fbc} {P : State → Prop} (h : exec i s = done s (s.setFbc k x)) (hc : s.quenchClear)
    (hp : ∀ t, t.fbc k = x → (∀ j, j ≠ k → t.fbc j = s.fbc j) → t.qch = s.qch → Frame [] s t → P t) : Yields i s P :=
  fbc_yields h hc ((only_setFbc s k x).mono (by simp)) fun t ht hq hf => hp t ((ht.fbc (by simp) k).trans (State.fbc_setFbc_self s k x))
    (fun j hj => (ht.fbc (by simp) j).trans (State.fbc_setFbc_ne s x hj)) hq hf
/-- The same with an event of the controller. -/
theorem setFbc_bump_yields {i : Instr} {s : State} {k j : Nat} {x : Fbc} {P : State → Prop} (hk : k < 4) (hj : j < 32)
    (h : exec i s = done s ((s.setFbc k x).bump (fbcBlk k) j)) (hc : s.quenchClear)
    (hp : ∀ t, t.fbc k = x → t.evc (fbcBlk k) j = s.evc (fbcBlk k) j + 1 → t.qch = s.qch → Frame [] s t → P t) : Yields i s P := by
  have hb := only_bump (s.setFbc k x) (fbcBlk k) hj
  refine fbc_yields h hc ((only_fbcReg hk hb).after ((only_setFbc s k x).mono (by simp))) fun t ht hq hf => hp t ?_ ?_ hq hf
  · exact (ht.fbc (by simp) k).trans ((hb.fbc (by simp) k).trans (State.fbc_setFbc_self s k x))
  · exact (ht.evc (by simp) hj).trans (State.evc_bump_self _ _ _)
theorem State.fbcSettle_same {s0 s : State} {k : Nat} (h : (s.fbc k).failed = (s0.fbc k).failed) : State.fbcSettle s0 k s = s := by
  unfold State.fbcSettle
  rw [h]
  exact if_neg (by simp)
/-- With no stop in progress the end of a frame ends none. -/
theorem State.frameOver_idle {s : State} {k : Nat} (h : (s.fbc k).stopping = none) : s.frameOver k = s := by
  unfold State.frameOver State.fbcStopEnd
  rw [h]

/-! ## Requests and aborts -/

theorem txbRequest_yields : ∀ (k : SegId) (b : BitVec 8) (s : State), s.quenchClear → Yields (.txbRequest k b) s (fun t =>
    t.fbc k.val = { s.fbc k.val with
      txReq := (s.fbc k.val).txReq ||| b, txDone := (s.fbc k.val).txDone &&& ~~~b
      txAborted := (s.fbc k.val).txAborted &&& ~~~b } ∧ (∀ j, j ≠ k.val → t.fbc j = s.fbc j) ∧ t.qch = s.qch ∧ Frame [] s t) := by
  intro k b s hc
  exact setFbc_yields (x := { s.fbc k.val with
      txReq := (s.fbc k.val).txReq ||| b, txDone := (s.fbc k.val).txDone &&& ~~~b
      txAborted := (s.fbc k.val).txAborted &&& ~~~b }) rfl hc fun t h1 h2 h3 h4 => ⟨h1, h2, h3, h4⟩
theorem and_not_and_self (x b : BitVec 8) : x &&& ~~~(x &&& b) = x &&& ~~~b := by
  ext i
  simp only [BitVec.getElem_and, BitVec.getElem_not]
  cases x[i] <;> simp
theorem txbAbort_yields : ∀ (k : SegId) (b : BitVec 8) (s : State), s.quenchClear → (s.fbc k.val).attempt = none → Yields (.txbAbort k b) s (fun t =>
    (t.fbc k.val).txReq = (s.fbc k.val).txReq &&& ~~~b ∧
    (t.fbc k.val).txAborted = (s.fbc k.val).txAborted ||| ((s.fbc k.val).txReq &&& b) ∧
    (∀ j, j ≠ k.val → t.fbc j = s.fbc j) ∧ t.qch = s.qch ∧ Frame [] s t) := by
  intro k b s hc hatt
  have hexec : exec (.txbAbort k b) s = done s (s.setFbc k.val { s.fbc k.val with
      txAbortDue := (s.fbc k.val).txAbortDue ||| ((s.fbc k.val).txReq &&& b &&& 0)
      txReq := (s.fbc k.val).txReq &&& ~~~((s.fbc k.val).txReq &&& b &&& ~~~0)
      txAborted := (s.fbc k.val).txAborted ||| ((s.fbc k.val).txReq &&& b &&& ~~~0) }) := by
    show done s (s.txbAbort k.val b) = _
    unfold State.txbAbort
    dsimp only
    rw [hatt]
  refine setFbc_yields hexec hc fun t h1 h2 h3 h4 => ⟨?_, ?_, h2, h3, h4⟩
  · rw [h1]
    dsimp only
    rw [show ~~~(0 : BitVec 8) = BitVec.allOnes 8 from rfl, BitVec.and_allOnes, and_not_and_self]
  · rw [h1]
    dsimp only
    rw [show ~~~(0 : BitVec 8) = BitVec.allOnes 8 from rfl, BitVec.and_allOnes]

/-! ## The transmit queue -/

theorem State.queue_qRemove (s : State) (q n : Nat) : ((s.qRemove q n).queue q).occ = (s.queue q).occ - n :=
  congrArg Queue.occ (Tab.get_set_self queueReset0 s.queues q { s.queue q with
    head := ((s.queue q).head + n) % s.qDepth q, occ := (s.queue q).occ - n, freed := (s.queue q).freed + n, flags := (s.queue q).flags.drop n })
theorem headEntries_one {s : State} {q : Nat} (h : (s.queue q).flags.head? = some (true, true)) : s.headEntries q = some 1 := by
  unfold State.headEntries
  match hf : (s.queue q).flags, h with
  | e :: t, h =>
    obtain rfl : e = (true, true) := Option.some.inj h
    rfl
theorem txqPop_yields : ∀ (k : SegId) (s : State), s.quenchClear → s.fbcLive k.val = true → (s.fbc k.val).configured = true → (s.fbc k.val).owned = true →
    (s.fbc k.val).failed = false → s.qEn (s.fbcTxq k.val) = true → (s.fbc k.val).fifo.length + (s.fbc k.val).abortWait.length < s.credits (65 + 2 * k.val) →
    (s.queue (s.fbcTxq k.val)).flags.head? = some (true, true) → bytesAt (s.qEntry (s.fbcTxq k.val) 0) 7 1 = 0 →
    (s.fbc k.val).fifo.length < s.fbcTxf k.val → entryOk (s.qEntry (s.fbcTxq k.val) 0) 1 (s.fbcFlag k.val 0) = true →
    Yields (.txqPop k) s (fun t =>
      let l := s.qEntry (s.fbcTxq k.val) 0
      (t.fbc k.val).fifo = (s.fbc k.val).fifo ++
        [{ frame := entryFrame l, oneShot := bit (bytesAt l 4 1) 3, tag := BitVec.ofNat 32 (bytesAt l 8 4) }] ∧
      (t.queue (s.fbcTxq k.val)).occ = (s.queue (s.fbcTxq k.val)).occ - 1 ∧ t.qch = s.qch ∧ Frame [.queues] s t) := by
  intro k s hc hlive hconf hown hfail hq hcred hflags hb7 htxf hok
  generalize hqn : s.fbcTxq k.val = q at *
  generalize hl : s.qEntry q 0 = l at *
  generalize hx : (s.fbc k.val).fifo ++ [{ frame := entryFrame l, oneShot := bit (bytesAt l 4 1) 3, tag := BitVec.ofNat 32 (bytesAt l 8 4) }] = fifo at *
  have hpop : s.txqPop k.val = (s.qRemove q 1).setFbc k.val { s.fbc k.val with fifo := fifo } := by
    unfold State.txqPop
    dsimp only
    rw [hqn]
    refine (if_neg (by rw [hlive, hconf, hown, hfail, hq]; decide)).trans ((if_neg (Nat.not_le.2 hcred)).trans ?_)
    rw [headEntries_one hflags]
    dsimp only
    rw [if_neg (show ¬2 ≤ 1 by decide), hl, List.append_nil]
    refine (if_neg (by rw [hb7]; decide)).trans ((if_neg (Nat.not_le.2 htxf)).trans ((if_pos hok).trans ?_))
    rw [hx]
    rfl
  have h1 : Only [.queues] s (s.qRemove q 1) := only_setQueue s q _
  have hocc := State.queue_qRemove s q 1
  generalize s.qRemove q 1 = u at *
  have h2 := only_setFbc u k.val { s.fbc k.val with fifo := fifo }
  have hself := State.fbc_setFbc_self u k.val { s.fbc k.val with fifo := fifo }
  have hexec : exec (.txqPop k) s = done s (u.setFbc k.val { s.fbc k.val with fifo := fifo }) := by
    show done s (State.fbcSettle s k.val (s.txqPop k.val)) = _
    rw [hpop, State.fbcSettle_same (by rw [hself])]
  generalize u.setFbc k.val { s.fbc k.val with fifo := fifo } = v at *
  have hv : Only [.queues, .fbcs] s v := (h2.mono (by simp)).after (h1.mono (by simp))
  refine yields_clear hexec (hv.quenchClear hc (by simp) (by simp) (by simp)) fun t ht => ⟨?_, ?_, ?_, ?_⟩
  · rw [ht.fbc (by simp), hself]
    exact hx.symm
  · have hqueue : t.queues = u.queues := (ht .queues (by simp)).trans (h2 .queues (by simp))
    exact (congrArg (fun x => (Tab.get queueReset0 x q).occ) hqueue).trans hocc
  · rw [ht.qch (by simp), hv.qch (by simp)]
  · exact Only.frame_trip (l' := [.queues, .fbcs]) ((ht.mono (by simp)).after hv) (by simp [tripParts])

/-! ## Arbitration -/

theorem bestOf_le {l : List (TxSource × CanFrame)} {b : TxSource × CanFrame} (h : bestOf l = some b) {e : TxSource × CanFrame} (he : e ∈ l) :
    busKey b.2.idw ≤ busKey e.2.idw := by
  induction l generalizing b with
  | nil => cases he
  | cons x t ih =>
    unfold bestOf at h
    cases ht : bestOf t with
    | none =>
      rw [ht] at h
      obtain rfl : x = b := Option.some.inj h
      rcases List.mem_cons.1 he with rfl | he
      · exact Nat.le_refl _
      · cases t with
        | nil => cases he
        | cons y t =>
          unfold bestOf at ht
          split at ht
          · cases ht
          · split at ht <;> cases ht
    | some c =>
      rw [ht] at h
      dsimp only at h
      split at h
      · next hle =>
        obtain rfl : x = b := Option.some.inj h
        rcases List.mem_cons.1 he with rfl | he
        · exact Nat.le_refl _
        · exact Nat.le_trans hle (ih ht he)
      · next hle =>
        obtain rfl : c = b := Option.some.inj h
        rcases List.mem_cons.1 he with rfl | he
        · exact Nat.le_of_not_le hle
        · exact ih ht he
theorem txArbitration_yields : ∀ (k : SegId) (src : TxSource) (x : CanFrame) (s : State), s.quenchClear → s.fbcLive k.val = true → s.fbcSends k.val = true →
    (s.fbc k.val).pex = false → (s.fbc k.val).attempt = none → (s.fbc k.val).stopping = none → bestOf (s.txOffers k.val) = some (src, x) →
    Yields (.txArbitration k false) s (fun t => (t.fbc k.val).attempt = some src ∧
      (t.fbc k.val).onBus = some { x with esi := x.fdf && (s.fbc k.val).passive } ∧
      (∀ e, e ∈ s.txOffers k.val → busKey x.idw ≤ busKey e.2.idw) ∧ t.qch = s.qch ∧ Frame [] s t) := by
  intro k src x s hc hlive hsends hpex hatt hstop hbest
  have hex : ∃ fifo, s.txArbitrate k.val false = s.setFbc k.val { s.fbc k.val with
      attempt := some src, fifo := fifo, onBus := some { x with esi := x.fdf && (s.fbc k.val).passive } } := by
    unfold State.txArbitrate
    dsimp only
    rw [hlive, hsends, hpex, hatt, hstop, if_neg (by decide), hbest]
    cases src with
    | dedicated b => exact ⟨(s.fbc k.val).fifo, rfl⟩
    | fifo => exact ⟨_, rfl⟩
  obtain ⟨fifo, hf⟩ := hex
  have hexec : exec (.txArbitration k false) s = done s (s.setFbc k.val { s.fbc k.val with
      attempt := some src, fifo := fifo, onBus := some { x with esi := x.fdf && (s.fbc k.val).passive } }) := by
    show done s (State.fbcSettle s k.val (s.txArbitrate k.val false)) = _
    rw [hf, State.fbcSettle_same (by rw [State.fbc_setFbc_self])]
  exact setFbc_yields hexec hc fun t h1 _ h3 h4 => ⟨by rw [h1], by rw [h1], fun e he => bestOf_le hbest he, h3, h4⟩

/-! ## The end of an attempt -/

/-- What a trip may change of a controller: the requests of buffer 0 and their outcomes. -/
def SendsOnly (f g : Fbc) : Prop :=
  g = { f with txReq := g.txReq, txDone := g.txDone, txAborted := g.txAborted } ∧
    ∀ b, 0 < b → b < 8 → g.txDone.toNat.testBit b = f.txDone.toNat.testBit b
theorem SendsOnly.refl (f : Fbc) : SendsOnly f f := ⟨rfl, fun _ _ _ => rfl⟩
theorem SendsOnly.trans {f g h : Fbc} (h1 : SendsOnly f g) (h2 : SendsOnly g h) : SendsOnly f h := by
  refine ⟨?_, fun b h0 h8 => (h2.2 b h0 h8).trans (h1.2 b h0 h8)⟩
  obtain ⟨e1, -⟩ := h1
  obtain ⟨e2, -⟩ := h2
  rw [e2, e1]
theorem testBit_and_FE {x : BitVec 8} {b : Nat} (h0 : 0 < b) (h8 : b < 8) : (x &&& 0xFE).toNat.testBit b = x.toNat.testBit b := by
  have hfe : ∀ b : Fin 8, 0 < b.val → (0xFE : BitVec 8).toNat.testBit b.val = true := by decide
  rw [BitVec.toNat_and, Nat.testBit_and, hfe ⟨b, h8⟩ h0, Bool.and_true]
theorem roundStep_sends (s : State) (k cmd cause tbn j : Nat) : SendsOnly (s.fbc j) ((State.roundStep cmd cause tbn s k).fbc j) := by
  unfold State.roundStep
  split
  · obtain ⟨hself, -, -, -, hne, -⟩ := State.sendSafety_writes s k cmd cause tbn
    by_cases h : j = k
    · subst h
      rw [hself]
      exact ⟨rfl, fun b h0 h8 => testBit_and_FE h0 h8⟩
    · rw [hne j h]
      exact SendsOnly.refl _
  · exact SendsOnly.refl _
theorem rounds_send (l : List Nat) (s : State) (cmd cause tbn j : Nat) : SendsOnly (s.fbc j) ((l.foldl (State.roundStep cmd cause tbn) s).fbc j) := by
  induction l generalizing s with
  | nil => exact SendsOnly.refl _
  | cons k l ih => exact (roundStep_sends s k cmd cause tbn j).trans (ih _)
theorem trip_sends (s : State) (present j : Nat) : SendsOnly (s.fbc j) ((s.trip present).fbc j) := by
  rw [State.trip_eq, State.safetyRound_eq]
  exact rounds_send (List.range 4) (s.tripHeld present) _ _ _ j
theorem evalTrip_sends (s : State) (before extra j : Nat) : SendsOnly (s.fbc j) ((s.evalTrip before extra).fbc j) := by
  unfold State.evalTrip
  dsimp only
  split
  · exact trip_sends s _ j
  · exact SendsOnly.refl _
theorem finish_sends (s0 s : State) (j : Nat) : SendsOnly (s.fbc j) ((finish s0 s).fbc j) := by
  show SendsOnly (s.fbc j) (s.tripDue.fbc j)
  unfold State.tripDue
  split
  · exact trip_sends s _ j
  · exact SendsOnly.refl _
theorem only_setMatcher (s : State) (i : Nat) (x : Matcher) : Only [.qch] s (s.setMatcher i x) := only_setQch s _
/-- The matchers before the causes are evaluated. -/
theorem only_snooped (s : State) (k : Nat) (f : CanFrame) : Only [.qch, .regs 27] s (((s.snoopOdom k f).snoopCliff k f).snoopResume k f) := by
  have hfold : ∀ (s : State) (c : State → Nat → Bool) (x : State → Nat → Matcher), Only [.qch, .regs 27] s
      ((List.range 8).foldl (fun s i => if c s i = true then s.setMatcher i (x s i) else s) s) := fun s c x =>
    Only.foldl (fun u i _ => Only.ite (fun _ => (only_setMatcher u i _).mono (by simp)) fun _ => Only.refl _ u) s
  have h3 : ∀ u : State, Only [.qch, .regs 27] u (u.snoopResume k f) := fun u =>
    Only.ite (fun _ => (only_bump u Blk.qch (by decide)).mono (by simp [Blk.qch])) fun _ => Only.refl _ u
  exact (h3 _).after ((hfold _ _ _).after (hfold s _ _))
theorem only_snoop (s : State) (k : Nat) (f : CanFrame) : Only tripParts s (s.snoop k f) :=
  (only_evalTrip _ _ _).after ((only_snooped s k f).mono (by decide))
theorem snoop_sends (s : State) (k : Nat) (f : CanFrame) (j : Nat) : SendsOnly (s.fbc j) ((s.snoop k f).fbc j) := by
  have h := evalTrip_sends (((s.snoopOdom k f).snoopCliff k f).snoopResume k f) s.causes 0 j
  rw [(only_snooped s k f).fbc (by simp)] at h
  exact h
theorem State.measureTdc_plain (s : State) (k : Nat) {f : CanFrame} (h : f.brs = false) (d : BitVec 7) : s.measureTdc k f d = s :=
  if_neg (by rw [h]; simp)
theorem txConfirm_yields : ∀ (k : SegId) (b : Fin 8) (x : CanFrame) (ago loop : Nat) (fine : Fin 40) (d : BitVec 7) (s : State), s.fbcLive k.val = true →
    (s.fbc k.val).st = .running → (s.fbc k.val).stopping = none → (s.fbc k.val).failed = false → (s.fbc k.val).attempt = some (.dedicated b.val) →
    (s.fbc k.val).onBus = some x → x.brs = false → b.val ≠ 0 → b.val ≠ 1 → b.val ≠ 6 → s.fbcMode k.val ≠ 3 → s.fbcMode k.val ≠ 4 →
    Yields (.txConfirm k ago fine loop d) s (fun t => (t.fbc k.val).attempt = none ∧ (t.fbc k.val).onBus = none ∧
      (t.fbc k.val).txDone.toNat.testBit b.val = true ∧ (t.fbc k.val).tecCnt = (s.fbc k.val).tecCnt - 1 ∧ Frame [] s t) := by
  intro k b x ago loop fine d s hlive hst hstop hfail hatt hbus hbrs h0 h1 h6 hm3 hm4
  have hk : k.val < 4 := k.isLt
  have hsn := snoop_sends s k.val x k.val
  have hso := only_snoop s k.val x
  have hconf : s.txConfirm k.val ago fine.val loop d = ((((s.snoop k.val x).setFbc k.val { (s.snoop k.val x).fbc k.val with
      tecCnt := (s.fbc k.val).tecCnt - 1 }).dedicatedEnd k.val b.val true false).frameOver k.val) := by
    unfold State.txConfirm
    dsimp only
    rw [hatt, hbus]
    dsimp only
    rw [if_neg (by rw [hlive, hst]; decide), if_neg (by rw [hbrs]; simp), if_neg (by omega), State.measureTdc_plain _ _ hbrs]
    have hsent : ∀ u : State, u.inpSent k.val b.val x (s.clk.now - ago) fine.val loop = u := fun u => by
      unfold State.inpSent
      rw [if_neg (by simp [h1]), if_neg h6]
    rw [hsent]
    exact congrArg (fun u : State => u.frameOver k.val) (if_neg fun h => h0 h.1)
  generalize s.snoop k.val x = u at *
  obtain ⟨hse, hsd⟩ := hsn
  generalize hg : u.fbc k.val = g at *
  have hdend : ∃ req ab, (u.setFbc k.val { g with tecCnt := (s.fbc k.val).tecCnt - 1 }).dedicatedEnd k.val b.val true false =
      (u.setFbc k.val { g with tecCnt := (s.fbc k.val).tecCnt - 1 }).setFbc k.val { g with
        tecCnt := (s.fbc k.val).tecCnt - 1, attempt := none, onBus := none, txAbortDue := g.txAbortDue &&& ~~~(BitVec.ofNat 8 (2 ^ b.val))
        txReq := req, txDone := g.txDone ||| BitVec.ofNat 8 (2 ^ b.val), txAborted := ab } := by
    unfold State.dedicatedEnd
    rw [State.fbc_setFbc_self]
    exact ⟨_, _, rfl⟩
  obtain ⟨req, ab, hdend⟩ := hdend
  rw [hdend] at hconf
  have hw : Only fbcParts u ((u.setFbc k.val { g with tecCnt := (s.fbc k.val).tecCnt - 1 }).setFbc k.val { g with
        tecCnt := (s.fbc k.val).tecCnt - 1, attempt := none, onBus := none, txAbortDue := g.txAbortDue &&& ~~~(BitVec.ofNat 8 (2 ^ b.val))
        txReq := req, txDone := g.txDone ||| BitVec.ofNat 8 (2 ^ b.val), txAborted := ab }) :=
    ((only_setFbc _ _ _).mono (by simp)).after ((only_setFbc u _ _).mono (by simp))
  have hwf := State.fbc_setFbc_self (u.setFbc k.val { g with tecCnt := (s.fbc k.val).tecCnt - 1 }) k.val { g with
        tecCnt := (s.fbc k.val).tecCnt - 1, attempt := none, onBus := none, txAbortDue := g.txAbortDue &&& ~~~(BitVec.ofNat 8 (2 ^ b.val))
        txReq := req, txDone := g.txDone ||| BitVec.ofNat 8 (2 ^ b.val), txAborted := ab }
  generalize (u.setFbc k.val { g with tecCnt := (s.fbc k.val).tecCnt - 1 }).setFbc k.val _ = w at *
  have hgs : g.stopping = none ∧ g.failed = (s.fbc k.val).failed := by
    rw [hse]
    exact ⟨hstop, rfl⟩
  have hexec : exec (.txConfirm k ago fine loop d) s = done s w := by
    show done s (State.fbcSettle s k.val (s.txConfirm k.val ago fine.val loop d)) = _
    rw [hconf, State.frameOver_idle (by rw [hwf]; exact hgs.1), State.fbcSettle_same (by rw [hwf]; exact hgs.2)]
  have hfin := finish_sends s w k.val
  obtain ⟨hfe, hfd⟩ := hfin
  rw [hwf] at hfe hfd
  refine yields_done hexec ⟨?_, ?_, ?_, ?_, ?_⟩
  · rw [hfe]
  · rw [hfe]
  · rw [hfd b.val (Nat.pos_of_ne_zero h0) b.isLt]
    show (g.txDone ||| BitVec.ofNat 8 (2 ^ b.val)).toNat.testBit b.val = true
    have hbit : ∀ b : Fin 8, (BitVec.ofNat 8 (2 ^ b.val)).toNat.testBit b.val = true := by decide
    rw [BitVec.toNat_or, Nat.testBit_or, hbit, Bool.or_true]
  · rw [hfe]
  · exact frame_finish (Only.frame_trip (l := []) (l' := tripParts) ((hw.mono (by decide)).after hso) (by simp))
theorem txAttemptFail_yields : ∀ (k : SegId) (b : Fin 8) (x : CanFrame) (d : BitVec 7) (s : State), s.quenchClear → s.fbcLive k.val = true →
    (s.fbc k.val).stopping = none → (s.fbc k.val).failed = false → (s.fbc k.val).attempt = some (.dedicated b.val) → (s.fbc k.val).onBus = some x →
    x.brs = false → s.fbcFlag k.val 3 = false → (s.fbc k.val).txAbortDue.toNat.testBit b.val = false →
    Yields (.txAttemptFail k d) s (fun t => (t.fbc k.val).attempt = none ∧ (t.fbc k.val).txReq = (s.fbc k.val).txReq ∧
      (t.fbc k.val).txDone = (s.fbc k.val).txDone ∧ t.qch = s.qch ∧ Frame [] s t) := by
  intro k b x d s hc hlive hstop hfail hatt hbus hbrs hflag hdue
  have hend : ∃ req, s.dedicatedEnd k.val b.val false false = s.setFbc k.val { s.fbc k.val with
      attempt := none, onBus := none, txAbortDue := req } :=
    ⟨(s.fbc k.val).txAbortDue &&& ~~~(BitVec.ofNat 8 (2 ^ b.val)), rfl⟩
  obtain ⟨req, hend⟩ := hend
  have hexec : exec (.txAttemptFail k d) s = done s (s.setFbc k.val { s.fbc k.val with attempt := none, onBus := none, txAbortDue := req }) := by
    show done s (State.fbcSettle s k.val (s.txFail k.val d)) = _
    have hf : s.txFail k.val d = (s.dedicatedEnd k.val b.val false false).frameOver k.val := by
      unfold State.txFail
      dsimp only
      rw [hatt, hbus]
      dsimp only
      rw [if_neg (by rw [hlive]; decide), State.measureTdc_plain _ _ hbrs, hflag, hdue]
      rfl
    rw [hf, hend, State.frameOver_idle (by rw [State.fbc_setFbc_self]; exact hstop), State.fbcSettle_same (by rw [State.fbc_setFbc_self])]
  exact setFbc_yields hexec hc fun t h1 _ h3 h4 => ⟨by rw [h1], by rw [h1], by rw [h1], h3, h4⟩

/-! ## Reception -/

theorem foldl_setMatcher_st (c : State → Nat → Bool) (x : State → Nat → Matcher) (l : List Nat) (s : State) :
    (l.foldl (fun s i => if c s i = true then s.setMatcher i (x s i) else s) s).qch.st = s.qch.st := by
  induction l generalizing s with
  | nil => rfl
  | cons i l ih =>
    refine (ih _).trans ?_
    dsimp only
    split <;> rfl
/-- Out of ARMED a frame that the matchers see trips nothing. -/
theorem State.snoop_quiet {s : State} (h : s.qch.st ≠ .armed) (k : Nat) (f : CanFrame) :
    Only [.qch, .regs 27] s (s.snoop k f) ∧ (s.snoop k f).qch.st ≠ .armed := by
  have hst : ((((s.snoopOdom k f).snoopCliff k f).snoopResume k f)).qch.st = s.qch.st := by
    have h3 : ∀ u : State, (u.snoopResume k f).qch.st = u.qch.st := fun u => by
      unfold State.snoopResume
      split <;> rfl
    exact (h3 _).trans ((foldl_setMatcher_st _ _ _ _).trans (foldl_setMatcher_st _ _ _ s))
  have he : s.snoop k f = (((s.snoopOdom k f).snoopCliff k f).snoopResume k f) := if_neg (by
    rw [Bool.and_eq_true]
    exact fun hh => h (hst ▸ eq_of_beq hh.1))
  rw [he]
  exact ⟨only_snooped s k f, by rw [hst]; exact h⟩
theorem State.fbcCfg_of_only {l : List StatePart} {s t : State} (h : Only l s t) {k : Nat} (hp : .regs (fbcBlk k) ∉ l) {o : Nat} (ho : o < 0x100) :
    t.fbcCfg k o = s.fbcCfg k o := by
  unfold State.fbcCfg
  rw [h.reg hp (by omega)]
theorem only_setMsgBuf_any (s : State) (k : Nat) {b : Nat} (hb : b < 128) (f : CanFrame) (ts : Nat) : Only [.regs (fbcBlk k)] s (s.setMsgBuf k b f ts) := by
  rw [State.setMsgBuf_eq]
  exact (only_putWords _ _ _ _ (by omega)).after ((only_setPair _ _ (by omega) _).after ((only_setReg _ _ (by omega) _).after
    (only_setReg s _ (by omega) _)))
theorem State.freeBuf_lt {s : State} {k lo hi b : Nat} (h : s.freeBuf k lo hi = some b) : b < hi := by
  obtain ⟨i, hi, he⟩ := List.exists_of_findSome?_eq_some h
  have := List.mem_range.1 hi
  split at he
  · obtain rfl : lo + i = b := Option.some.inj he
    omega
  · cases he
/-- The copy that takes buffer b of the pool. -/
theorem State.rxqCopy_takes {s : State} {k b : Nat} (hk : k < 4) (ho : (s.fbc k).owned = true) (hb : s.freeBuf k (16 + s.fbcTxf k) 128 = some b) (x : RxBuf) :
    Only fbcParts s (s.rxqCopy k x) ∧ (s.rxqCopy k x).fbc k = { s.fbc k with
      rx := Tab.set (fun _ => none) (s.fbc k).rx b (some x), rxOrder := (s.fbc k).rxOrder ++ [b] } := by
  have hm := only_setMsgBuf_any s k (State.freeBuf_lt hb) x.frame x.ts
  have hmf := hm.fbc (by simp) k
  have he : s.rxqCopy k x = ((s.setMsgBuf k b x.frame x.ts).setFbc k { s.fbc k with
      rx := Tab.set (fun _ => none) (s.fbc k).rx b (some x) }).setFbc k { s.fbc k with
      rx := Tab.set (fun _ => none) (s.fbc k).rx b (some x), rxOrder := (s.fbc k).rxOrder ++ [b] } := by
    unfold State.rxqCopy State.holdRx
    rw [ho, hb]
    dsimp only
    rw [if_neg (by decide), State.fbc_setFbc_self, hmf]
  rw [he]
  exact ⟨((only_setFbc _ _ _).mono (by simp)).after (((only_setFbc _ _ _).mono (by simp)).after (only_fbcReg hk hm)), State.fbc_setFbc_self _ _ _⟩
theorem State.freeBuf_congr {s t : State} {k : Nat} (h : (t.fbc k).rx = (s.fbc k).rx) (lo hi : Nat) : t.freeBuf k lo hi = s.freeBuf k lo hi := by
  unfold State.freeBuf
  rw [h]
theorem frameReceived_yields : ∀ (k : SegId) (f : CanFrame) (ago b : Nat) (fine : Fin 40) (e : Filter) (l : List Filter) (s : State), s.quenchClear → s.qch.st ≠ .armed →
    s.fbcLive k.val = true → (s.fbc k.val).st = .running → (s.fbc k.val).pex = false → s.fbcMode k.val = 0 → (f.fdf = true → s.fbcFlag k.val 0 = true) →
    (s.fbc k.val).stopping = none → (s.fbc k.val).recCnt ≤ 127 → (s.fbc k.val).filters = e :: l → e.hits f = true → e.dest = 1 →
    (s.fbc k.val).owned = true → s.freeBuf k.val (16 + s.fbcTxf k.val) 128 = some b →
    Yields (.frameReceived k f ago fine) s (fun t => (t.fbc k.val).rxOrder = (s.fbc k.val).rxOrder ++ [b] ∧
      Tab.get (fun _ => none) (t.fbc k.val).rx b = some { frame := f, filter := 0, ts := s.clk.now - ago, fine := fine.val } ∧
      (t.fbc k.val).recCnt = (s.fbc k.val).recCnt - 1 ∧ Frame [] s t) := by
  intro k f ago b fine e l s hc hna hlive hst hpex hmode hfd hstop hrec hfil hhit hdest hown hfree
  have hk : k.val < 4 := k.isLt
  have hblk : StatePart.regs (fbcBlk k.val) ≠ .regs 27 := fun h => fbcBlk_ne_qch hk (StatePart.regs.inj h)
  obtain ⟨hu, hust⟩ := State.snoop_quiet hna k.val f
  have hexec : exec (.frameReceived k f ago fine) s = done s ((((s.snoop k.val f).recGood k.val).routeFrame k.val f (s.clk.now - ago) fine.val
      false).frameOver k.val) := by
    refine congrArg (done s) (if_neg ?_)
    rw [hlive, hst, hpex, hmode]
    cases hf : f.fdf
    · rw [Bool.false_and]
      decide
    · rw [hfd hf]
      decide
  have huf : (s.snoop k.val f).fbc k.val = s.fbc k.val := hu.fbc (by simp) _
  have hcfg : ∀ o, o < 0x100 → (s.snoop k.val f).fbcCfg k.val o = s.fbcCfg k.val o := fun o ho => State.fbcCfg_of_only hu (by simp [hblk]) ho
  generalize s.snoop k.val f = u at *
  have hgood : u.recGood k.val = u.setFbc k.val { s.fbc k.val with recCnt := (s.fbc k.val).recCnt - 1 } := by
    have hum : u.fbcMode k.val = 0 := by
      unfold State.fbcMode
      rw [huf, hcfg 0x12 (by decide)]
      exact hmode
    unfold State.recGood
    rw [huf]
    exact (if_neg (by rw [hst, hum]; decide)).trans (if_pos hrec)
  rw [hgood] at hexec
  have hv := only_setFbc u k.val { s.fbc k.val with recCnt := (s.fbc k.val).recCnt - 1 }
  have hvf := State.fbc_setFbc_self u k.val { s.fbc k.val with recCnt := (s.fbc k.val).recCnt - 1 }
  have hvq : (u.setFbc k.val { s.fbc k.val with recCnt := (s.fbc k.val).recCnt - 1 }).qch.st ≠ .armed := hust
  have hvtxf : (u.setFbc k.val { s.fbc k.val with recCnt := (s.fbc k.val).recCnt - 1 }).fbcTxf k.val = s.fbcTxf k.val := hcfg 0x1E (by decide)
  generalize u.setFbc k.val { s.fbc k.val with recCnt := (s.fbc k.val).recCnt - 1 } = v at *
  generalize hy : ({ frame := f, filter := 0, ts := s.clk.now - ago, fine := fine.val } : RxBuf) = y
  have hroute : v.routeFrame k.val f (s.clk.now - ago) fine.val false = v.rxqCopy k.val y := by
    have hfind : (v.fbc k.val).filters.zipIdx.find? (fun e => e.1.hits f) = some (e, 0) := by
      rw [hvf]
      dsimp only
      rw [hfil, List.zipIdx_cons]
      exact List.find?_cons_of_pos (p := fun e : Filter × Nat => e.1.hits f) hhit
    unfold State.routeFrame
    dsimp only
    rw [hfind]
    dsimp only
    rw [hdest, if_neg (by decide), if_pos (.inl rfl), ← hy]
    rfl
  obtain ⟨hw, hwf⟩ := State.rxqCopy_takes hk (s := v) (b := b) (by rw [hvf]; exact hown)
    (by rw [hvtxf, State.freeBuf_congr (s := s) (by rw [hvf])]; exact hfree) y
  rw [hroute] at hexec
  generalize v.rxqCopy k.val y = w at *
  rw [State.frameOver_idle (by rw [hwf, hvf]; exact hstop)] at hexec
  have hwq : w.quenchClear := State.quenchClear_of_not_armed (by rw [hw.qch (by simp)]; exact hvq)
  refine yields_clear hexec hwq fun t ht => ⟨?_, ?_, ?_, ?_⟩
  · rw [ht.fbc (by simp), hwf, hvf]
  · rw [ht.fbc (by simp), hwf]
    exact Tab.get_set_self _ _ _ _
  · rw [ht.fbc (by simp), hwf, hvf]
  · exact Only.frame_trip (l := []) (l' := tripParts) ((ht.mono (by simp)).after ((hw.mono (by decide)).after ((hv.mono (by decide)).after
      (hu.mono (by decide))))) (by simp)
theorem rxqDelivery_yields : ∀ (k : SegId) (b : Nat) (r : List Nat) (x : RxBuf) (s : State), s.quenchClear → s.isHalted (fbcBlk k.val) = false → s.frozen = false →
    (s.fbc k.val).failed = false → (s.fbc k.val).owned = true → (s.fbc k.val).rxOrder = b :: r → Tab.get (fun _ => none) (s.fbc k.val).rx b = some x →
    x.frame.data.length ≤ 40 → 1 ≤ s.credits (64 + 2 * k.val) → s.qEn (64 + 2 * k.val) = true → s.ringOk (64 + 2 * k.val) 1 = true →
    (s.queue (64 + 2 * k.val)).dropping = false → Yields (.rxqDelivery k false) s (fun t =>
      (t.queue (64 + 2 * k.val)).occ = (s.queue (64 + 2 * k.val)).occ + 1 ∧ (t.fbc k.val).rxOrder = r ∧
      (t.fbc k.val).rxSeq = ((s.fbc k.val).rxSeq + 1) % 65536 ∧ Tab.get (fun _ => none) (t.fbc k.val).rx b = none ∧
      t.mbytes (s.qSlot (64 + 2 * k.val) (s.queue (64 + 2 * k.val)).tail) 4 = leBytes 4 x.frame.idw.toNat ∧
      t.evc (fbcBlk k.val) 2 = s.evc (fbcBlk k.val) 2 + 1 ∧ t.qch = s.qch ∧ Frame [.queues, .mem] s t) := by
  intro k b r x s hc hhalt hfr hfail hown hord hx hlen hcred hen hring hdrop
  have hk : k.val < 4 := k.isLt
  have hl : ∃ body, s.rxEntries k.val x = [entry64 (leBytes 4 x.frame.idw.toNat ++ body)] := by
    unfold State.rxEntries
    dsimp only
    rw [if_pos hlen]
    simp only [List.append_assoc]
    exact ⟨_, rfl⟩
  obtain ⟨body, hl⟩ := hl
  generalize hq : 64 + 2 * k.val = q at *
  generalize hent : entry64 (leBytes 4 x.frame.idw.toNat ++ body) = ent at hl
  have hpush := only_devicePush s q ent
  obtain ⟨hocc, hmem⟩ := State.devicePush_leaves (body := ent) hen hdrop
  have hdel : s.rxqDeliver k.val false = ((((s.devicePush q ent).freeRx k.val b).setFbc k.val { ((s.devicePush q ent).freeRx k.val b).fbc k.val with
      rxOrder := r, rxSeq := ((s.fbc k.val).rxSeq + 1) % 65536 }).bump (fbcBlk k.val) 2) := by
    unfold State.rxqDeliver
    dsimp only
    refine (if_neg (by rw [hhalt, hfr, hfail, hown]; decide)).trans ?_
    rw [hord]
    dsimp only
    rw [hx]
    dsimp only
    rw [if_neg (by decide), hq, hl]
    exact (if_neg (by rw [hen]; simp; omega)).trans (if_neg (by rw [show [ent].length = 1 from rfl, hring]; decide))
  have hpf : (s.devicePush q ent).fbc k.val = s.fbc k.val := hpush.fbc (by simp) _
  generalize s.devicePush q ent = u at *
  have hfree : u.freeRx k.val b = u.setFbc k.val { s.fbc k.val with rx := Tab.set (fun _ => none) (s.fbc k.val).rx b none } := by
    unfold State.freeRx
    rw [hpf]
  rw [hfree, State.fbc_setFbc_self] at hdel
  have h1 := only_setFbc u k.val { s.fbc k.val with rx := Tab.set (fun _ => none) (s.fbc k.val).rx b none }
  generalize u.setFbc k.val { s.fbc k.val with rx := Tab.set (fun _ => none) (s.fbc k.val).rx b none } = v at *
  have h2 := only_setFbc v k.val { s.fbc k.val with
    rx := Tab.set (fun _ => none) (s.fbc k.val).rx b none, rxOrder := r, rxSeq := ((s.fbc k.val).rxSeq + 1) % 65536 }
  have hwf := State.fbc_setFbc_self v k.val { s.fbc k.val with
    rx := Tab.set (fun _ => none) (s.fbc k.val).rx b none, rxOrder := r, rxSeq := ((s.fbc k.val).rxSeq + 1) % 65536 }
  generalize v.setFbc k.val { s.fbc k.val with
    rx := Tab.set (fun _ => none) (s.fbc k.val).rx b none, rxOrder := r, rxSeq := ((s.fbc k.val).rxSeq + 1) % 65536 } = w at *
  have h3 := only_bump w (fbcBlk k.val) (j := 2) (by decide)
  have hev := State.evc_bump_self w (fbcBlk k.val) 2
  have hyf := h3.fbc (by simp) k.val
  have hexec : exec (.rxqDelivery k false) s = done s (w.bump (fbcBlk k.val) 2) := by
    show done s (State.fbcSettle s k.val (s.rxqDeliver k.val false)) = _
    rw [hdel, State.fbcSettle_same (by rw [hyf, hwf])]
  generalize w.bump (fbcBlk k.val) 2 = y at *
  have hsw : Only [.queues, .mem, .fbcs] s w := (h2.mono (by simp)).after ((h1.mono (by simp)).after (hpush.mono (by simp)))
  have hsy : Only (.queues :: .mem :: fbcParts) s y :=
    ((only_fbcReg hk h3).mono (by simp)).after (hsw.mono (by simp))
  refine yields_clear hexec (hsy.quenchClear hc (by simp) (by simp) (by simp)) fun t ht => ⟨?_, ?_, ?_, ?_, ?_, ?_, ?_, ?_⟩
  · have hqs : t.queues = u.queues := (ht .queues (by simp)).trans ((h3 .queues (by simp)).trans ((h2 .queues (by simp)).trans (h1 .queues (by simp))))
    exact (congrArg (fun x => (Tab.get queueReset0 x q).occ) hqs).trans hocc
  · rw [ht.fbc (by simp), hyf, hwf]
  · rw [ht.fbc (by simp), hyf, hwf]
  · rw [ht.fbc (by simp), hyf, hwf]
    exact Tab.get_set_self _ _ _ _
  · have hms : t.mem = (s.store (s.qSlot q (s.queue q).tail) ent).mem :=
      (ht.mem (by simp)).trans ((h3.mem (by simp)).trans ((h2.mem (by simp)).trans ((h1.mem (by simp)).trans hmem)))
    have h4 : (s.store (s.qSlot q (s.queue q).tail) ent).mbytes (s.qSlot q (s.queue q).tail) 4 = ent.take 4 :=
      State.mbytes_store s (by rw [← hent, entry64_length]; decide)
    rw [show t.mbytes (s.qSlot q (s.queue q).tail) 4 = _ from congrArg (fun m : Mem => Tab.slice zeroByte m.bytes (s.qSlot q (s.queue q).tail) 4) hms]
    refine h4.trans ?_
    rw [← hent, entry64, List.take_take, List.append_assoc, List.take_append_of_le_length (by rw [leBytes_length]; decide),
      List.take_of_length_le (by rw [leBytes_length]; decide)]
  · rw [ht.evc (by simp) (by decide), hev, hsw.evc (by simp) (by decide)]
  · rw [ht.qch (by simp), hsy.qch (by simp)]
  · exact Only.frame_trip (l' := .queues :: .mem :: fbcParts) ((ht.mono (by simp)).after hsy) (by simp [tripParts])

/-! ## Error confinement -/

/-- A bus error with the counters that it leaves: the code, its event, entry to error passive, and bus-off above 255. -/
def State.busErrorOf (s : State) (k lo code tec rec : Nat) (st : FbcState) : State :=
  let s2 := ((((s.setFld (fbcBlk k) 0x168 lo 4 code).bump (fbcBlk k) 5).setFbc k { s.fbc k with tecCnt := tec, recCnt := rec }).passiveEntry k
    (s.fbc k).passive)
  if 255 < tec then (s2.setFbc k { s2.fbc k with st := st, recov := 0 }).bump (fbcBlk k) 7 else s2
theorem State.passiveEntry_leaves (s : State) (k : Nat) (was : Bool) : Only [.regs (fbcBlk k)] s (s.passiveEntry k was) ∧
    ∀ j, j < 32 → j ≠ 6 → (s.passiveEntry k was).evc (fbcBlk k) j = s.evc (fbcBlk k) j := by
  unfold State.passiveEntry
  split
  · exact ⟨only_bump s _ (by decide), fun j hj h => State.evc_bump_of_ne s (by unfold evKey; omega)⟩
  · exact ⟨Only.refl _ s, fun _ _ _ => rfl⟩
theorem State.busErrorOf_leaves (s : State) {k : Nat} (hk : k < 4) (lo code tec rec : Nat) (st : FbcState) : Only fbcParts s (s.busErrorOf k lo code tec rec st) ∧
    ((s.busErrorOf k lo code tec rec st).fbc k).st = (if 255 < tec then st else (s.fbc k).st) ∧
    ((s.busErrorOf k lo code tec rec st).fbc k).tecCnt = tec ∧ ((s.busErrorOf k lo code tec rec st).fbc k).recCnt = rec ∧
    ((s.busErrorOf k lo code tec rec st).fbc k).attempt = (s.fbc k).attempt ∧
    (s.busErrorOf k lo code tec rec st).evc (fbcBlk k) 5 = s.evc (fbcBlk k) 5 + 1 ∧
    (255 < tec → (s.busErrorOf k lo code tec rec st).evc (fbcBlk k) 7 = s.evc (fbcBlk k) 7 + 1) := by
  unfold State.busErrorOf
  dsimp only
  have h1 := only_setFld s (fbcBlk k) (o := 0x168) (by decide) lo 4 code
  have e1 : ∀ j, (s.setFld (fbcBlk k) 0x168 lo 4 code).evc (fbcBlk k) j = s.evc (fbcBlk k) j := fun j => rfl
  generalize s.setFld (fbcBlk k) 0x168 lo 4 code = a at *
  have h2 := only_bump a (fbcBlk k) (j := 5) (by decide)
  have e2 := State.evc_bump_self a (fbcBlk k) 5
  have e2' : (a.bump (fbcBlk k) 5).evc (fbcBlk k) 7 = a.evc (fbcBlk k) 7 := State.evc_bump_of_ne a (by unfold evKey; omega)
  generalize a.bump (fbcBlk k) 5 = b at *
  have h3 := only_setFbc b k { s.fbc k with tecCnt := tec, recCnt := rec }
  have f3 := State.fbc_setFbc_self b k { s.fbc k with tecCnt := tec, recCnt := rec }
  have e3 : ∀ j, (b.setFbc k { s.fbc k with tecCnt := tec, recCnt := rec }).evc (fbcBlk k) j = b.evc (fbcBlk k) j := fun _ => rfl
  generalize b.setFbc k { s.fbc k with tecCnt := tec, recCnt := rec } = c at *
  obtain ⟨h4, e4⟩ := c.passiveEntry_leaves k (s.fbc k).passive
  generalize c.passiveEntry k (s.fbc k).passive = d at *
  have f4 : d.fbc k = { s.fbc k with tecCnt := tec, recCnt := rec } := (h4.fbc (by simp) k).trans f3
  have hd : Only fbcParts s d := (only_fbcReg hk h4).after ((h3.mono (by simp)).after ((only_fbcReg hk h2).after (only_fbcReg hk h1)))
  have e5 : d.evc (fbcBlk k) 5 = s.evc (fbcBlk k) 5 + 1 := by rw [e4 5 (by decide) (by decide), e3, e2, e1]
  have e7 : d.evc (fbcBlk k) 7 = s.evc (fbcBlk k) 7 := by rw [e4 7 (by decide) (by decide), e3, e2', e1]
  by_cases ht : 255 < tec
  · rw [if_pos ht, if_pos ht]
    rw [f4]
    generalize hg : ({ s.fbc k with tecCnt := tec, recCnt := rec, st := st, recov := 0 } : Fbc) = g
    have h6 := only_bump (d.setFbc k g) (fbcBlk k) (j := 7) (by decide)
    have f6 : ((d.setFbc k g).bump (fbcBlk k) 7).fbc k = g := (h6.fbc (by simp) k).trans (State.fbc_setFbc_self d k g)
    rw [f6]
    refine ⟨(only_fbcReg hk h6).after (((only_setFbc d k g).mono (by simp)).after hd), by rw [← hg], by rw [← hg], by rw [← hg], by rw [← hg], ?_, fun _ => ?_⟩
    · exact (State.evc_bump_of_ne _ (by unfold evKey; omega)).trans e5
    · exact (State.evc_bump_self _ _ _).trans (congrArg (· + 1) e7)
  · rw [if_neg ht, if_neg ht, f4]
    exact ⟨hd, rfl, rfl, rfl, rfl, e5, fun h => absurd h ht⟩
theorem exec_busError {k : SegId} {code : Fin 7} {d : Bool} {change : Fin 4} {s : State} (hlive : s.fbcLive k.val = true) (hst : (s.fbc k.val).st = .running)
    (hpex : (s.fbc k.val).pex = false) (hcode : code ≠ 0) (hmode : s.fbcMode k.val ≠ 1) (hatt : (s.fbc k.val).attempt ≠ none) :
    exec (.busError k code d change) s = done s (s.busErrorOf k.val (if d then 4 else 0) code.val
      (if change.val = 3 then (s.fbc k.val).tecCnt + 8 else (s.fbc k.val).tecCnt)
      (min 255 ((s.fbc k.val).recCnt + (if change.val = 1 then 1 else if change.val = 2 then 8 else 0)))
      (if s.fbcFlag k.val 2 then .recovering else .busOff)) := by
  obtain ⟨-, -, -, -, ha, -⟩ := s.busErrorOf_leaves k.isLt (if d then 4 else 0) code.val
    (if change.val = 3 then (s.fbc k.val).tecCnt + 8 else (s.fbc k.val).tecCnt)
    (min 255 ((s.fbc k.val).recCnt + (if change.val = 1 then 1 else if change.val = 2 then 8 else 0)))
    (if s.fbcFlag k.val 2 then .recovering else .busOff)
  show execBusError k code d change s = _
  unfold execBusError
  dsimp only
  refine congrArg (done s) ((if_neg ?_).trans ?_)
  · rw [hlive, hst, hpex, beq_eq_false_iff_ne.2 hcode]
    decide
  · rw [show (s.fbcMode k.val == 1) = false from beq_eq_false_iff_ne.2 hmode, if_neg Bool.false_ne_true]
    refine (if_neg ?_ : _ = s.busErrorOf _ _ _ _ _ _)
    intro h
    exact hatt (ha.symm.trans (Option.isNone_iff_eq_none.1 h))
theorem busError_tec : ∀ (k : SegId) (c : Fin 7) (d : Bool) (s : State), s.quenchClear → s.fbcLive k.val = true → (s.fbc k.val).st = .running →
    (s.fbc k.val).pex = false → c ≠ 0 → s.fbcMode k.val ≠ 1 → (s.fbc k.val).attempt ≠ none → 247 < (s.fbc k.val).tecCnt →
    s.fbcFlag k.val 2 = false → Yields (.busError k c d 3) s (fun t => (t.fbc k.val).st = .busOff ∧
      (t.fbc k.val).tecCnt = (s.fbc k.val).tecCnt + 8 ∧ t.evc (fbcBlk k.val) 5 = s.evc (fbcBlk k.val) 5 + 1 ∧
      t.evc (fbcBlk k.val) 7 = s.evc (fbcBlk k.val) 7 + 1 ∧ t.qch = s.qch ∧ Frame [] s t) := by
  intro k c d s hc hlive hst hpex hcode hmode hatt htec hflag
  obtain ⟨ho, h1, h2, -, -, h5, h7⟩ := s.busErrorOf_leaves k.isLt (if d then 4 else 0) c.val ((s.fbc k.val).tecCnt + 8)
    (min 255 ((s.fbc k.val).recCnt + 0)) (if s.fbcFlag k.val 2 then .recovering else .busOff)
  refine fbc_yields (exec_busError hlive hst hpex hcode hmode hatt) hc ho fun t ht hq hf => ⟨?_, ?_, ?_, ?_, hq, hf⟩
  · rw [ht.fbc (by simp)]
    exact h1.trans ((if_pos (by omega)).trans (if_neg (by rw [hflag]; decide)))
  · rw [ht.fbc (by simp)]
    exact h2
  · exact (ht.evc (by simp) (by decide)).trans h5
  · exact (ht.evc (by simp) (by decide)).trans (h7 (by omega))
theorem busError_rec : ∀ (k : SegId) (c : Fin 7) (d : Bool) (s : State), s.quenchClear → s.fbcLive k.val = true → (s.fbc k.val).st = .running →
    (s.fbc k.val).pex = false → c ≠ 0 → s.fbcMode k.val ≠ 1 → (s.fbc k.val).attempt ≠ none →
    Yields (.busError k c d 1) s (fun t => (t.fbc k.val).st = (if 255 < (s.fbc k.val).tecCnt then (if s.fbcFlag k.val 2 then .recovering else .busOff) else .running) ∧
      (t.fbc k.val).recCnt = min 255 ((s.fbc k.val).recCnt + 1) ∧ (t.fbc k.val).tecCnt = (s.fbc k.val).tecCnt ∧ Frame [] s t) := by
  intro k c d s hc hlive hst hpex hcode hmode hatt
  obtain ⟨ho, h1, h2, h3, -⟩ := s.busErrorOf_leaves k.isLt (if d then 4 else 0) c.val (s.fbc k.val).tecCnt
    (min 255 ((s.fbc k.val).recCnt + 1)) (if s.fbcFlag k.val 2 then .recovering else .busOff)
  refine fbc_yields (exec_busError hlive hst hpex hcode hmode hatt) hc ho fun t ht hq hf => ⟨?_, ?_, ?_, hf⟩
  · rw [ht.fbc (by simp)]
    exact h1.trans (by rw [hst])
  · rw [ht.fbc (by simp)]
    exact h3
  · rw [ht.fbc (by simp)]
    exact h2
theorem recovered_yields : ∀ (k : SegId) (n : Fin 129) (s : State), s.quenchClear → s.fbcLive k.val = true → (s.fbc k.val).st = .recovering →
    Yields (.recovered k n) s (fun t => (128 ≤ (s.fbc k.val).recov + n.val → (t.fbc k.val).st = .running ∧ (t.fbc k.val).tecCnt = 0 ∧
        (t.fbc k.val).recCnt = 0 ∧ t.evc (fbcBlk k.val) 8 = s.evc (fbcBlk k.val) 8 + 1) ∧
      ((s.fbc k.val).recov + n.val < 128 → t.fbc k.val = { s.fbc k.val with recov := (s.fbc k.val).recov + n.val }) ∧ t.qch = s.qch ∧ Frame [] s t) := by
  intro k n s hc hlive hst
  by_cases hn : (s.fbc k.val).recov + n.val < 128
  · have hexec : exec (.recovered k n) s = done s (s.setFbc k.val { s.fbc k.val with recov := (s.fbc k.val).recov + n.val }) :=
      congrArg (done s) ((if_neg (by rw [hlive, hst]; decide)).trans (if_pos hn))
    exact setFbc_yields hexec hc fun t h1 _ h3 h4 => ⟨fun h => absurd hn (by omega), fun _ => h1, h3, h4⟩
  · have hexec : exec (.recovered k n) s = done s ((s.setFbc k.val { s.fbc k.val with st := .running, recov := 0, tecCnt := 0, recCnt := 0 }).bump
        (fbcBlk k.val) 8) := congrArg (done s) ((if_neg (by rw [hlive, hst]; decide)).trans (if_neg hn))
    exact setFbc_bump_yields k.isLt (by decide) hexec hc fun t h1 h2 h3 h4 =>
      ⟨fun _ => ⟨by rw [h1], by rw [h1], by rw [h1], h2⟩, fun h => absurd h hn, h3, h4⟩
theorem fbcIntegration_yields : ∀ (k : SegId) (s : State), s.quenchClear → s.fbcLive k.val = true → (s.fbc k.val).st = .integrating → Yields (.fbcIntegration k) s (fun t =>
    t.fbc k.val = { s.fbc k.val with st := .running } ∧ t.qch = s.qch ∧ Frame [] s t) := by
  intro k s hc hlive hst
  exact setFbc_yields (congrArg (done s) (if_pos (by rw [hlive, hst]; rfl))) hc fun t h1 _ h3 h4 => ⟨h1, h3, h4⟩
theorem protocolException_yields : ∀ (k : SegId) (s : State), s.quenchClear → s.fbcLive k.val = true → (s.fbc k.val).st = .running → (s.fbc k.val).pex = false →
    s.fbcFlag k.val 1 = true → Yields (.protocolException k) s (fun t => t.fbc k.val = { s.fbc k.val with pex := true } ∧
      t.evc (fbcBlk k.val) 9 = s.evc (fbcBlk k.val) 9 + 1 ∧ t.qch = s.qch ∧ Frame [] s t) := by
  intro k s hc hlive hst hpex hflag
  have hexec : exec (.protocolException k) s = done s ((s.setFbc k.val { s.fbc k.val with pex := true }).bump (fbcBlk k.val) 9) :=
    congrArg (done s) (if_neg (by rw [hlive, hst, hpex, hflag]; decide))
  exact setFbc_bump_yields k.isLt (by decide) hexec hc fun t h1 h2 h3 h4 => ⟨h1, h2, h3, h4⟩
theorem pexResume_yields : ∀ (k : SegId) (s : State), s.quenchClear → s.fbcLive k.val = true → (s.fbc k.val).pex = true → (s.fbc k.val).stopping = none →
    Yields (.pexResume k) s (fun t => t.fbc k.val = { s.fbc k.val with pex := false } ∧ t.qch = s.qch ∧ Frame [] s t) := by
  intro k s hc hlive hpex hstop
  have hexec : exec (.pexResume k) s = done s (s.setFbc k.val { s.fbc k.val with pex := false }) :=
    congrArg (done s) ((if_pos (by rw [hlive, hpex]; rfl)).trans (State.frameOver_idle (by rw [State.fbc_setFbc_self]; exact hstop)))
  exact setFbc_yields hexec hc fun t h1 _ h3 h4 => ⟨h1, h3, h4⟩
theorem restrictionChange_yields : ∀ (k : SegId) (s : State), s.quenchClear → s.fbcLive k.val = true → (s.fbc k.val).attempt = none → Yields (.restrictionChange k) s (fun t =>
    t.fbc k.val = { s.fbc k.val with restricted := s.targetFault 9 } ∧ t.qch = s.qch ∧ Frame [] s t) := by
  intro k s hc hlive hatt
  exact setFbc_yields (congrArg (done s) (if_pos (by rw [hlive, hatt]; rfl))) hc fun t h1 _ h3 h4 => ⟨h1, h3, h4⟩

/-- Settles O37: each step is one branch of its definition; a trip touches the requests of buffer 0 alone. -/
theorem busFrames : Obligations.BusFrames := by
  unfold Obligations.BusFrames
  exact ⟨⟨txbRequest_yields, txbAbort_yields, txqPop_yields, txArbitration_yields, txConfirm_yields, txAttemptFail_yields⟩,
    frameReceived_yields, rxqDelivery_yields, busError_tec, busError_rec, recovered_yields, fbcIntegration_yields, protocolException_yields,
    pexResume_yields, restrictionChange_yields⟩

end Sys2Proof.Machine
end
section
/-! Ordered doorbells, the host's accesses through the BARs, and PF1's Function Level Reset (R49 to R78, R338). -/
namespace Sys2Proof.Machine
open Sys2Proof

/-! ## Register accesses leave what the fabric holds -/

theorem Only.bus {l : List StatePart} {s t : State} (h : Only l s t) (hp : .bus ∉ l) : t.bus = s.bus := h .bus hp
theorem foldl_bus {α : Type} {f : State → α → State} (h : ∀ s x, (f s x).bus = s.bus) (l : List α) (s : State) : (l.foldl f s).bus = s.bus := by
  induction l generalizing s with
  | nil => rfl
  | cons x l ih => exact (ih _).trans (h s x)
theorem ite_bus {c : Prop} [Decidable c] {s t u : State} (ht : t.bus = s.bus) (hu : u.bus = s.bus) : (if c then t else u).bus = s.bus := by
  split
  · exact ht
  · exact hu

section
variable (s : State)
theorem State.bus_bumpInfo (b j off : Nat) (info : Word) : (s.bumpInfo b j off info).bus = s.bus := ite_bus rfl rfl
theorem State.bus_pwrRequest (req : Nat) : (s.powerRequest req).bus = s.bus := by
  unfold State.powerRequest
  split
  · exact s.bus_bumpInfo _ _ _ _
  · exact ite_bus ((only_pmicCalm _ true).bus (by simp)) rfl
theorem State.bus_calCommit : s.calCommit.bus = s.bus := by
  unfold State.calCommit
  split
  · exact s.bus_bumpInfo _ _ _ _
  · rfl
theorem State.bus_clockSwitch (d c : Nat) : (s.clockSwitch d c).bus = s.bus := by
  unfold State.clockSwitch
  split
  · exact s.bus_bumpInfo _ _ _ _
  · exact ite_bus rfl rfl
theorem State.bus_teardownFree (c : Nat) : (s.teardownFree c).bus = s.bus := (tear_teardownFree s c).bus (by decide)
theorem State.bus_domainResetWrite (d : Nat) : (s.domainResetWrite d).bus = s.bus := by
  have hdown : ∀ u : State, (u.domainTeardown d).bus = u.bus := fun u =>
    foldl_bus (fun v c => ite_bus (v.bus_teardownFree c) rfl) _ u
  refine ite_bus (ite_bus ?_ (s.bus_bumpInfo _ _ _ _)) rfl
  exact ite_bus (hdown _) rfl
theorem State.bus_blkResetWrite (b : Nat) : (s.blkResetWrite b).bus = s.bus := ite_bus ((only_blockReset s b).bus (by simp)) rfl
theorem State.bus_armQueue (q : Nat) (arm : Bool) : (s.armQueue q arm).bus = s.bus := ite_bus ((only_qNotify _ q).bus (by simp)) rfl
theorem State.bus_readMem (m : Nat) (cls : AccessClass) (ctx a len : Nat) : (s.readMem m cls ctx a len).2.2.bus = s.bus := by
  have hfree : ∀ (n : Nat) (u : State), (u.freeBytes n).2.bus = u.bus := fun n => by
    induction n with
    | zero => exact fun _ => rfl
    | succ n ih => exact fun u => (ih _).trans rfl
  unfold State.readMem
  split
  · exact (only_fabErr s _ _ _ _ _ _).bus (by simp)
  · split
    · exact hfree len s
    · have h1 := (only_demandRead s m a len).bus (by simp)
      dsimp only
      split
      · exact ((only_fabErr _ _ _ _ _ _ _).bus (by simp)).trans h1
      · exact h1
theorem State.bus_pushEffect (q : Nat) (mismatch : Bool) : (s.pushEffect q mismatch).bus = s.bus := by
  unfold State.pushEffect
  split
  · rfl
  · next p hp =>
    split
    · exact (only_queueReset s q true).bus (by simp)
    · have h1 := s.bus_readMem Config.mQue .ordinary 0 (s.qLanding q) (64 * p.count)
      generalize s.readMem Config.mQue .ordinary 0 (s.qLanding q) (64 * p.count) = r at h1
      obtain ⟨d, acc, s1⟩ := r
      dsimp only at h1 ⊢
      have h2 : ∀ n v, (s1.pushResult q n v).bus = s.bus := fun n v => h1
      cases acc with
      | ok => exact ((only_qNotify _ q).bus (by simp)).trans (((only_enqueue q _ _).bus (by simp)).trans (h2 _ _))
      | poison => exact ite_bus (((tear_teardownOn _ _ _ _).bus (by decide)).trans (h2 _ _)) (h2 _ _)
      | decode => exact h2 _ _
      | rights => exact h2 _ _
theorem State.bus_pushWrite (q m count : Nat) (first last : Bool) : (s.pushWrite q m count first last).bus = s.bus := by
  unfold State.pushWrite
  refine ite_bus rfl ?_
  have h1 := s.bus_pushEffect q false
  generalize s.pushEffect q false = u at *
  have h2 : ∀ info, ((u.bumpInfo Blk.que 2 0x108 info).pushResult q 0 true).bus = s.bus := fun info => (u.bus_bumpInfo _ _ _ info).trans h1
  exact ite_bus (ite_bus (((tear_teardownOn _ _ _ _).bus (by decide)).trans (h2 _)) (h2 _)) h1
theorem State.bus_popWrite (q count : Nat) (arm mismatch : Bool) : (s.popWrite q count arm mismatch).bus = s.bus :=
  ite_bus rfl (ite_bus ((State.bus_armQueue _ q arm).trans ((only_queueReset s q true).bus (by simp))) ((State.bus_armQueue _ q arm).trans rfl))
theorem State.bus_dropWrite (q : Nat) (arm mismatch : Bool) : (s.dropWrite q arm mismatch).bus = s.bus :=
  ite_bus rfl (ite_bus ((State.bus_armQueue _ q arm).trans ((only_queueReset s q true).bus (by simp))) ((State.bus_armQueue _ q arm).trans rfl))
theorem State.bus_qchCtl (v : Nat) : (s.qchCtl v).bus = s.bus := by
  unfold State.qchCtl
  split
  · rfl
  · exact ite_bus ((only_safetyRound _ _ _ _).bus (by simp)) rfl
  · exact (only_evalTrip s _ _).bus (by decide)
  · rfl
theorem State.bus_liveRead (b off : Nat) : (s.liveRead b off).2.bus = s.bus := by
  unfold State.liveRead
  dsimp only
  split <;> rfl
theorem State.bus_takeSnapshot (b : Nat) : (s.takeSnapshot b).bus = s.bus := by
  unfold State.takeSnapshot
  generalize snapSet b = l
  refine (?_ : (List.foldl _ s l).bus = s.bus)
  refine foldl_bus (fun u o => ?_) l s
  have h := u.bus_liveRead b o
  generalize u.liveRead b o = p at h ⊢
  obtain ⟨v, w⟩ := p
  exact h
/-- A command written to a register. -/
theorem State.bus_cmdEffect (m b off : Nat) (v : Word) : (s.cmdEffect m b off v).bus = s.bus := by
  unfold State.cmdEffect
  refine ite_bus (ite_bus (s.bus_takeSnapshot b) rfl) ?_
  split
  · split
    · exact s.bus_pwrRequest _
    · exact ite_bus rfl rfl
    · exact ite_bus s.bus_calCommit rfl
    · rfl
  · split
    · exact s.bus_clockSwitch _ _
    · exact ite_bus (s.bus_domainResetWrite _) rfl
  · exact ite_bus (ite_bus (ite_bus rfl rfl) rfl) (ite_bus (s.bus_blkResetWrite _) rfl)
  · refine ite_bus (ite_bus rfl rfl) ?_
    split
    · exact ite_bus (ite_bus rfl rfl) rfl
    · rfl
  · split
    · exact s.bus_pushWrite _ _ _ _ _
    · dsimp only
      split
      · exact s.bus_popWrite _ _ _ _
      · exact s.bus_dropWrite _ _ _
      · exact ite_bus (s.bus_armQueue _ _) rfl
      · rfl
    · rfl
  · exact ite_bus rfl rfl
  iterate 4 exact ite_bus rfl (ite_bus rfl rfl)
  · exact ite_bus (s.bus_qchCtl _) rfl
  · rfl
/-- The RW fields of a register written. -/
theorem State.bus_rwEffect (b off : Nat) (mask v : Word) : (s.rwEffect b off mask v).bus = s.bus := by
  have hagain : ∀ (u : State) (k : Blk), (u.msixAgain k).bus = u.bus := fun u k => (only_msixAgain u k).bus (by simp)
  unfold State.rwEffect
  refine ite_bus (ite_bus rfl (hagain _ _)) (ite_bus rfl ?_)
  split
  · split
    · rfl
    · refine ite_bus ((foldl_bus (fun u k => ?_) _ _).trans rfl) rfl
      exact ite_bus rfl rfl
  · split
    · rfl
    · split
      · exact ite_bus (s.bus_bumpInfo _ _ _ _) rfl
      iterate 2 exact ite_bus (s.bus_bumpInfo _ _ _ _) (ite_bus (s.bus_bumpInfo _ _ _ _) (ite_bus rfl rfl))
      iterate 3 rfl
      · rfl
  · split
    · exact ite_bus rfl rfl
    · exact ite_bus (ite_bus rfl rfl) rfl
  · exact ite_bus ((only_queueReset _ _ false).bus (by simp)) rfl
  · exact ite_bus rfl rfl
  · split
    · exact ite_bus rfl rfl
    · rfl
  · refine ite_bus rfl ?_
    split
    · exact ite_bus rfl rfl
    · rfl
  · rfl
theorem State.bus_ackEffect (b j : Nat) (v : Count16) : (s.ackEffect b j v).bus = s.bus := by
  have hagain : ∀ (u : State) (k : Blk), (u.msixAgain k).bus = u.bus := fun u k => (only_msixAgain u k).bus (by simp)
  exact (hagain _ b).trans (ite_bus (ite_bus rfl rfl) rfl)
theorem State.bus_regWrite (m b off : Nat) (v : Word) : (s.regWrite m b off v).bus = s.bus := by
  unfold State.regWrite
  split
  · rfl
  · split
    iterate 4 rfl
    · exact (State.bus_ackEffect _ b _ _).trans rfl
    · exact s.bus_cmdEffect m b off v
    · rfl
    · rfl
    · exact ite_bus (s.bus_rwEffect b off _ v) (s.bus_rwEffect b off _ v)
theorem State.bus_parityFound (b off : Nat) (byScan : Bool) : (s.parityFound b off byScan).bus = s.bus := by
  unfold State.parityFound
  dsimp only
  refine ite_bus ?_ rfl
  have h := (s.setParity b off (s.parityOf b off + 1)).bus_bumpInfo b 1 0x34 (bitAt byScan 16 ||| at_ off 0 16)
  generalize (s.setParity b off (s.parityOf b off + 1)).bumpInfo b 1 0x34 (bitAt byScan 16 ||| at_ off 0 16) = u at *
  replace h : u.bus = s.bus := h
  split
  · next c hc => exact ((State.graveFault_leaves u c b (bitAt byScan 16 ||| at_ off 0 16).toNat).2.2.bus (by simp)).trans h
  · exact ite_bus h h
theorem State.bus_regRead (m b off : Nat) : (s.regRead m b off).2.bus = s.bus := by
  unfold State.regRead
  have h := s.bus_parityFound b off false
  have hl := fun (u : State) o => u.bus_liveRead b o
  generalize s.parityFound b off false = u at *
  generalize regRow b off = row
  cases row with
  | none => rfl
  | some rj =>
    obtain ⟨r, j⟩ := rj
    dsimp only
    have h1 := (hl u off).trans h
    generalize u.liveRead b off = p at *
    obtain ⟨v, w⟩ := p
    have h2 := (hl w (off + 4)).trans h1
    dsimp only
    generalize State.liveRead w b (off + 4) = q at *
    obtain ⟨x, y⟩ := q
    generalize r.kind = kind
    cases kind with
    | lo => exact h2
    | rwlo => exact h2
    | hi => exact h
    | rwhi => exact h
    | _ => exact h1
theorem State.bus_regAccess (m : Nat) (cls : AccessClass) (a len : Nat) (w : Option Word) : (s.regAccess m cls a len w).2.bus = s.bus := by
  unfold State.regAccess
  dsimp only
  split
  · exact s.bus_bumpInfo _ _ _ _
  split
  · rfl
  split
  · exact s.bus_bumpInfo _ _ _ _
  split
  · rfl
  split
  · exact s.bus_bumpInfo _ _ _ _
  split
  · split <;> rfl
  split
  · exact s.bus_regRead _ _ _
  · exact s.bus_regWrite _ _ _ _
theorem State.bus_doorbellEffect (d : Doorbell) : (s.doorbellEffect d).bus = s.bus :=
  ite_bus (ite_bus (s.bus_bumpInfo _ _ _ _) (s.bus_cmdEffect _ _ _ _)) (s.bus_regAccess _ _ _ _ _)
end

/-! ## Ordered doorbells and the reads behind them -/

theorem State.settle_none {s : State} {f : Posted → Bool} (h : ∀ p ∈ s.bus.posted, f p = false) : s.settle f = s := by
  unfold State.settle
  rw [List.filter_eq_nil_iff.2 fun p hp => by simp [h p hp], List.filter_eq_self.2 fun p hp => by simp [h p hp]]
  rfl
theorem State.settle_posted (s : State) (f : Posted → Bool) : (s.settle f).bus = { s.bus with posted := s.bus.posted.filter (fun p => !f p) } :=
  foldl_bus (fun u p => (only_makeVisible u p).bus (by simp)) _ { s with bus := { s.bus with posted := s.bus.posted.filter (fun p => !f p) } }
/-- What waits in the fabric: posted writes and doorbells. -/
def State.waiting (s : State) : List Posted × List Doorbell := (s.bus.posted, s.bus.doorbells)
theorem State.waiting_regAnswer (s : State) (m : Nat) (r : NpRead) :
    (match s.regAccess m r.cls r.addr r.len none with
      | (v, u) => u.setReadData m (leBytes r.len v.toNat) false).waiting = s.waiting := by
  have h := s.bus_regAccess m r.cls r.addr r.len none
  generalize s.regAccess m r.cls r.addr r.len none = p at h ⊢
  obtain ⟨v, u⟩ := p
  have h' : u.bus = s.bus := h
  show (u.bus.posted, u.bus.doorbells) = _
  rw [h']
  rfl
theorem foldl_waiting {α : Type} {f : State → α → State} (h : ∀ s x, (f s x).waiting = s.waiting) (l : List α) (s : State) :
    (l.foldl f s).waiting = s.waiting := by
  induction l generalizing s with
  | nil => rfl
  | cons x l ih => exact (ih _).trans (h s x)
/-- Once a master's doorbells have taken effect, none of them and none of its earlier writes waits. -/
theorem State.doorbellsDone_waiting {s : State} {m : Nat} (h : s.awaitsAck m = false) :
    (s.doorbellsDone m).waiting = (s.bus.posted.filter (fun p => !p.master == m), s.bus.doorbells.filter (fun d => d.master != m)) := by
  unfold State.doorbellsDone
  rw [if_neg (by simp [h])]
  refine (foldl_waiting (fun u r => u.waiting_regAnswer m r) _ _).trans ?_
  refine (congrArg (fun b : Bus => (b.posted, b.doorbells)) (foldl_bus (fun u d => u.bus_doorbellEffect d) _ _)).trans ?_
  exact congrArg (fun b : Bus => (b.posted, s.bus.doorbells.filter (fun d => d.master != m))) (s.settle_posted _)
theorem orderedDoorbellEffect_done : ∀ (m : MasterId) (s : State), s.frozen = false → s.doorbellWaits m.toNat = true → s.awaitsAck m.toNat = false →
    Yields (.orderedDoorbellEffect m) s (fun t => t.doorbellWaits m.toNat = false ∧ (∀ p ∈ t.bus.posted, p.master ≠ m.toNat)) := by
  intro m s hfr hw hack
  have hexec : exec (.orderedDoorbellEffect m) s = done s (s.doorbellsDone m.toNat) := by
    refine congrArg (done s) (if_neg ?_)
    rw [hfr, show s.bus.doorbells.any (fun d => d.master == m.toNat) = true from hw]
    decide
  have h := State.doorbellsDone_waiting hack
  have hp := congrArg Prod.fst h
  have hd := congrArg Prod.snd h
  refine yields_done hexec ⟨?_, fun p hmem => ?_⟩
  · unfold State.doorbellWaits
    rw [finish_bus, show (s.doorbellsDone m.toNat).bus.doorbells = _ from hd]
    simp
  · rw [finish_bus, show (s.doorbellsDone m.toNat).bus.posted = _ from hp] at hmem
    simpa using (List.mem_filter.1 hmem).2

/-! ## The BARs -/

theorem State.completeReads_none {s : State} {m : Nat} (h : ∀ r ∈ s.bus.reads, r.master ≠ m) : s.completeReads m = s :=
  if_pos (List.filter_eq_nil_iff.2 fun r hr => by simp [h r hr])
theorem barAccess_waits : ∀ (bar : Bar) (off : BitVec 26) (n : Nat) (s : State), s.barOpen bar = true → 0 < n → off.toNat + n ≤ barSize bar →
    bar ≠ .pf0Ingots → (∀ r ∈ s.bus.reads, r.master ≠ barMaster bar) →
    Yields (.barAccess bar off (.read n)) s (fun t => t.bus = { s.bus with reads := s.bus.reads ++
        [{ master := barMaster bar, cls := masterClass (barMaster bar) .ordinary, bar := some bar, addr := off.toNat, len := n }] } ∧
      Frame [.bus] s t) := by
  intro bar off n s hopen hn hsize hbar hreads
  have hexec : exec (.barAccess bar off (.read n)) s = done s { s with bus := { s.bus with reads := s.bus.reads ++
      [{ master := barMaster bar, cls := masterClass (barMaster bar) .ordinary, bar := some bar, addr := off.toNat, len := n }] } } := by
    refine congrArg (done s) ((if_neg ?_).trans ?_)
    · simp [hopen]
      omega
    · rw [State.completeReads_none hreads]
      cases bar with
      | pf0Ingots => exact absurd rfl hbar
      | _ => rfl
  exact yields_done hexec ⟨finish_bus _ _, (only_setBus s _).frame_finish⟩

/-! ## The MSI-X tables -/

/-- A word with one byte replaced. -/
def putByte (w : Word) (j : Nat) (b : Byte) : Word := BitVec.ofNat 32 (w.toNat - w.toNat / 256 ^ j % 256 * 256 ^ j + b.toNat * 256 ^ j)
theorem putByte_toNat (w : Word) {j : Nat} (hj : j < 4) (b : Byte) :
    (putByte w j b).toNat = w.toNat - w.toNat / 256 ^ j % 256 * 256 ^ j + b.toNat * 256 ^ j := by
  have hw := w.isLt
  have hb := b.isLt
  unfold putByte
  rw [BitVec.toNat_ofNat]
  refine Nat.mod_eq_of_lt ?_
  interval_cases j <;> omega
theorem append_byte_toNat {n : Nat} (x : BitVec n) (y : Byte) : (x ++ y).toNat = x.toNat * 256 + y.toNat := by
  rw [BitVec.toNat_append, ← Nat.shiftLeft_add_eq_or_of_lt y.isLt, Nat.shiftLeft_eq]
theorem putByte_all (w : Word) (x0 x1 x2 x3 : Byte) : putByte (putByte (putByte (putByte w 0 x0) 1 x1) 2 x2) 3 x3 = x3 ++ x2 ++ x1 ++ x0 := by
  have b0 := x0.isLt
  have b1 := x1.isLt
  have b2 := x2.isLt
  have h0 : (putByte w 0 x0).toNat = w.toNat / 256 * 256 + x0.toNat := by
    rw [putByte_toNat w (by decide)]
    omega
  have h1 : (putByte (putByte w 0 x0) 1 x1).toNat = w.toNat / 65536 * 65536 + x1.toNat * 256 + x0.toNat := by
    rw [putByte_toNat _ (by decide), h0]
    omega
  have h2 : (putByte (putByte (putByte w 0 x0) 1 x1) 2 x2).toNat = w.toNat / 16777216 * 16777216 + x2.toNat * 65536 + x1.toNat * 256 + x0.toNat := by
    rw [putByte_toNat _ (by decide), h1]
    omega
  have hw := w.isLt
  refine BitVec.eq_of_toNat_eq ?_
  rw [putByte_toNat _ (by decide), h2, append_byte_toNat, append_byte_toNat, append_byte_toNat]
  omega
/-- Where a function's vectors begin, and how many they are. -/
def msixFirst (pf1 : Bool) : Nat := if pf1 then 64 else 0
theorem State.msixPut_data (s : State) (pf1 : Bool) {k j : Nat} (hk : k < 32) (hj : j < 4) (b : Byte) :
    s.msixPut pf1 (16 * k + 8 + j) b = s.setMsixVec (msixFirst pf1 + k)
      { s.msixVec (msixFirst pf1 + k) with data := putByte (s.msixVec (msixFirst pf1 + k)).data j b } := by
  have h16 : (16 * k + 8 + j) / 16 = k := by omega
  have hi : (16 * k + 8 + j) % 16 = 8 + j := by omega
  unfold State.msixPut
  dsimp only
  rw [if_pos (by split <;> omega), h16, hi, if_neg (by omega), if_pos (by omega), Nat.add_sub_cancel_left]
  rfl
theorem only_setMsixVec (s : State) (k : Nat) (x : MsixVec) : Only [.bus] s (s.setMsixVec k x) := only_setBus s _
/-- The four bytes of a vector's data written one after the other. -/
theorem State.msixPut_word (s : State) (pf1 : Bool) {k : Nat} (hk : k < 32) (x0 x1 x2 x3 : Byte) :
    ∃ t, ([(x0, 0), (x1, 1), (x2, 2), (x3, 3)] : List (Byte × Nat)).foldl (fun u b => u.msixPut pf1 (16 * k + 8 + b.2) b.1) s = t ∧
      t.msixVec (msixFirst pf1 + k) = { s.msixVec (msixFirst pf1 + k) with data := x3 ++ x2 ++ x1 ++ x0 } ∧ Only [.bus] s t := by
  refine ⟨_, rfl, ?_, Only.foldl (fun u b hb => ?_) s⟩
  · simp only [List.foldl, State.msixPut_data _ pf1 hk (show 0 < 4 by decide), State.msixPut_data _ pf1 hk (show 1 < 4 by decide),
      State.msixPut_data _ pf1 hk (show 2 < 4 by decide), State.msixPut_data _ pf1 hk (show 3 < 4 by decide), State.msixVec_setMsixVec, if_true, putByte_all]
  · have hlt : b.2 < 4 := by
      simp only [List.mem_cons, List.not_mem_nil, or_false] at hb
      rcases hb with rfl | rfl | rfl | rfl <;> simp
    rw [State.msixPut_data u pf1 hk hlt]
    exact only_setMsixVec u _ _
/-- The BAR of a function's MSI-X table. -/
def msixBar (pf1 : Bool) : Bar := if pf1 then .pf1Msix else .pf0Msix
theorem State.barWrite_table (s : State) (pf1 : Bool) (o : Nat) (d : List (Option Byte)) : s.barWrite (msixBar pf1) o d =
    (enabledRuns o d).foldl (fun u e => e.2.zipIdx.foldl (fun v b => v.msixPut pf1 (e.1 + b.2) b.1) u) s := by
  cases pf1 <;> rfl
theorem State.barWrite_msix (s : State) (pf1 : Bool) (o : Nat) (x0 x1 x2 x3 : Byte) :
    s.barWrite (msixBar pf1) o [some x0, some x1, some x2, some x3] =
      ([(x0, 0), (x1, 1), (x2, 2), (x3, 3)] : List (Byte × Nat)).foldl (fun u b => u.msixPut pf1 (o + b.2) b.1) s := by
  have hruns : enabledRuns o [some x0, some x1, some x2, some x3] = [(o, [x0, x1, x2, x3])] := by simp [enabledRuns]
  rw [State.barWrite_table, hruns]
  rfl
theorem barAccess_msixWrite : ∀ (b : Bool) (k : Fin 32) (x0 x1 x2 x3 : Byte) (s : State), s.barOpen (if b then .pf1Msix else .pf0Msix) = true →
    (∀ r ∈ s.bus.reads, r.master ≠ barMaster (if b then .pf1Msix else .pf0Msix)) →
    Yields (.barAccess (if b then .pf1Msix else .pf0Msix) (BitVec.ofNat 26 (16 * k.val + 8))
        (.write [some x0, some x1, some x2, some x3])) s (fun t =>
      t.msixVec ((if b then 64 else 0) + k.val) = { s.msixVec ((if b then 64 else 0) + k.val) with data := x3 ++ x2 ++ x1 ++ x0 } ∧
      Frame [.bus] s t) := by
  intro b k x0 x1 x2 x3 s hopen hreads
  change s.barOpen (msixBar b) = true at hopen
  change ∀ r ∈ s.bus.reads, r.master ≠ barMaster (msixBar b) at hreads
  have hoff : (BitVec.ofNat 26 (16 * k.val + 8)).toNat = 16 * k.val + 8 := by
    rw [BitVec.toNat_ofNat]
    omega
  obtain ⟨t, ht, hvec, ho⟩ := s.msixPut_word b k.isLt x0 x1 x2 x3
  have hexec : exec (.barAccess (msixBar b) (BitVec.ofNat 26 (16 * k.val + 8)) (.write [some x0, some x1, some x2, some x3])) s = done s t := by
    refine congrArg (done s) ((if_neg ?_).trans ?_)
    · rw [hoff, hopen]
      cases b <;> simp [msixBar, barSize] <;> omega
    · rw [State.completeReads_none hreads, hoff]
      refine Eq.trans ?_ ((s.barWrite_msix b _ x0 x1 x2 x3).trans ht)
      cases b <;> rfl
  exact yields_done hexec ⟨(finish_msixVec _ _ _).trans hvec, ho.frame_finish⟩
theorem State.doorbellsDone_idle {s : State} (hp : s.bus.posted = []) (hd : s.bus.doorbells = []) (hr : ∀ r ∈ s.bus.reads, r.bar ≠ none) (m : Nat) :
    s.doorbellsDone m = s := by
  unfold State.doorbellsDone State.settleMaster
  split
  · rfl
  · have hnone : ∀ r ∈ s.bus.reads, (r.master == m && r.bar == none) = false := fun r hmem => by
      rw [beq_eq_false_iff_ne.2 (hr r hmem), Bool.and_false]
    have hbehind : s.bus.reads.filter (fun r => r.master == m && r.bar == none) = [] :=
      List.filter_eq_nil_iff.2 fun r hmem => by rw [hnone r hmem]; exact Bool.false_ne_true
    have hrest : s.bus.reads.filter (fun r => !(r.master == m && r.bar == none)) = s.bus.reads :=
      List.filter_eq_self.2 fun r hmem => by rw [hnone r hmem, Bool.not_false]
    rw [State.settle_none (by simp [hp]), hd, hbehind, hrest]
    exact congrArg (fun l : List Doorbell => ({ s with bus := { s.bus with doorbells := l } } : State)) hd.symm
theorem State.completeReads_single {s : State} (hp : s.bus.posted = []) (hd : s.bus.doorbells = []) {r : NpRead} (hr : s.bus.reads = [r])
    {bar : Bar} (hbar : r.bar = some bar) :
    s.completeReads r.master = ({ s with bus := { s.bus with reads := [] } } : State).barRead bar r.addr r.len := by
  have hmine : s.bus.reads.filter (fun x => x.master == r.master) = [r] := by simp [hr]
  have hrest : s.bus.reads.filter (fun x => x.master != r.master) = [] := by simp [hr]
  unfold State.completeReads State.settleMaster
  rw [hmine, State.settle_none (by simp [hp]), State.doorbellsDone_idle hp hd (by simp [hr, hbar])]
  refine (if_neg (by simp)).trans ?_
  dsimp only
  rw [hrest, List.foldl, List.foldl, hbar]
theorem State.barRead_msix (s : State) (pf1 : Bool) (o n : Nat) : s.barRead (msixBar pf1) o n =
    s.setReadData (barMaster (msixBar pf1)) ((List.range n).map (fun i => s.msixByte pf1 (o + i))) false := by
  cases pf1 <;> rfl
theorem nonpostedReadComplete_msix : ∀ (b : Bool) (o n : Nat) (s : State), s.fabricRuns = true → s.bus.posted = [] → s.bus.doorbells = [] →
    s.bus.reads = [{ master := barMaster (if b then .pf1Msix else .pf0Msix), cls := .ordinary, bar := some (if b then .pf1Msix else .pf0Msix), addr := o, len := n }] →
    Yields (.nonpostedReadComplete b) s (fun t => t.bus.reads = [] ∧
      Tab.get (fun _ => []) t.bus.readData (if b then Config.mPf1 else Config.mPf0) =
        (List.range n).map (fun i => s.msixByte b (o + i)) ∧ Frame [.bus] s t) := by
  intro b o n s hrun hp hd hr
  have hm : (if b then Config.mPf1 else Config.mPf0) = barMaster (msixBar b) := by cases b <;> rfl
  obtain ⟨u, hu⟩ : ∃ u : State, { s with bus := { s.bus with reads := [] } } = u := ⟨_, rfl⟩
  have hexec : exec (.nonpostedReadComplete b) s =
      done s (u.setReadData (barMaster (msixBar b)) ((List.range n).map (fun i => s.msixByte b (o + i))) false) := by
    refine congrArg (done s) ((if_pos hrun).trans ?_)
    rw [hm, ← hu]
    exact (State.completeReads_single hp hd hr rfl).trans (State.barRead_msix _ b o n)
  refine yields_done hexec ⟨?_, ?_, ?_⟩
  · rw [finish_bus, ← hu]
    rfl
  · rw [finish_bus, hm]
    exact Tab.get_set_self (α := List Byte) (fun _ => []) _ _ _
  · rw [← hu]
    exact ((only_setBus _ _).after (only_setBus s _)).frame_finish

/-! ## Poisoned writes and the Function Level Reset -/

theorem only_barAddr (s : State) (bar : Bar) (o : Nat) : Only [] s (s.barAddr bar o).2 := by
  cases bar with
  | pf0Regs => exact Only.refl _ s
  | pf0Ingots => exact Only.refl _ s
  | _ => exact only_setFree s _
theorem State.evc_fabErr (s : State) (k m : Nat) (cls : AccessClass) (c : Nat) (w : Bool) (a : Nat) :
    (s.fabErr k m cls c w a).evc Blk.chip 3 = s.evc Blk.chip 3 + 1 := by
  unfold State.fabErr
  dsimp only
  split <;> exact State.evc_bump_self _ _ _
theorem poisonedInboundWrite_counts : ∀ (bar : Bar) (off : BitVec 26) (s : State), s.barOpen bar = true → off.toNat < barSize bar →
    Yields (.poisonedInboundWrite bar off) s (fun t => t.evc Blk.chip 3 = s.evc Blk.chip 3 + 1 ∧
      t.evc Blk.pcie 3 = s.evc Blk.pcie 3 + 1 ∧ tget t.bus.aerUncorr 0 = true ∧ Frame [.bus, .regs 0, .regs Blk.pcie] s t) := by
  intro bar off s hopen hoff
  have hfree := only_barAddr s bar off.toNat
  obtain ⟨p, hp⟩ : ∃ p, s.barAddr bar off.toNat = p := ⟨_, rfl⟩
  rw [hp] at hfree
  obtain ⟨u, hu⟩ : ∃ u, p.2.fabErr 4 (barMaster bar) (masterClass (barMaster bar) .ordinary) 0 true p.1 = u := ⟨_, rfl⟩
  have hfab : Only [.regs 0] s u := by
    rw [← hu]
    exact (only_fabErr _ _ _ _ _ _ _).after (hfree.mono (by simp))
  have hexec : exec (.poisonedInboundWrite bar off) s =
      done s { u.bump Blk.pcie 3 with bus := { (u.bump Blk.pcie 3).bus with aerUncorr := tset (u.bump Blk.pcie 3).bus.aerUncorr 0 true } } := by
    refine congrArg (done s) ((if_pos (by simp [hopen, hoff])).trans ?_)
    rw [hp, ← hu]
  have hb := only_bump u Blk.pcie (j := 3) (by decide)
  refine yields_done hexec ⟨?_, ?_, ?_, ?_⟩
  · rw [finish_evc _ _ (by decide) (by decide)]
    refine (hb.evc (b := Blk.chip) (j := 3) (by decide) (by decide)).trans ?_
    rw [← hu, State.evc_fabErr]
    exact congrArg (· + 1) (hfree.evc (by decide) (by decide))
  · rw [finish_evc _ _ (by decide) (by decide)]
    refine (State.evc_bump_self u Blk.pcie 3).trans ?_
    exact congrArg (· + 1) (hfab.evc (by decide) (by decide))
  · rw [finish_bus]
    exact (tget_tset _ _ _ _).trans (if_pos rfl)
  · exact (((only_setBus _ _).mono (by simp)).after ((hb.mono (by simp)).after (hfab.mono (by simp)))).frame_finish
/-- A teardown for a cause without a status takes the context out of OPEN and leaves the others. -/
theorem State.teardownFree_leaves (s : State) (c : Nat) :
    ((s.teardownFree c).ctx c).st ≠ .opened ∧ ∀ k, (s.ctx k).st ≠ .opened → ((s.teardownFree c).ctx k).st ≠ .opened := by
  unfold State.teardownFree
  split
  · next h => exact ⟨h, fun _ hk => hk⟩
  · next h =>
    have h' : ((s.takeFree 8).2.ctx c).st = .opened := not_not.1 h
    obtain ⟨hst, -, -, -, hother⟩ := State.teardownOn_leaves h' (s.takeFree 8).1 none
    have hc : (((s.takeFree 8).2.teardownOn c (s.takeFree 8).1 none).ctx c).st ≠ .opened := by
      rw [hst]
      decide
    refine ⟨hc, fun k hk => ?_⟩
    by_cases hkc : k = c
    · exact hkc ▸ hc
    · exact fun e => hk ((hother k hkc).symm.trans e)
theorem foldl_teardownFree_keeps (l : List Nat) (s : State) {c : Nat} (h : (s.ctx c).st ≠ .opened) :
    ((l.foldl (fun u k => u.teardownFree k) s).ctx c).st ≠ .opened :=
  List.foldlRecOn (motive := fun u : State => (u.ctx c).st ≠ .opened) l _ h fun u hu k _ => (u.teardownFree_leaves k).2 c hu
theorem foldl_teardownFree_closes {l : List Nat} {c : Nat} (hc : c ∈ l) (s : State) :
    ((l.foldl (fun u k => u.teardownFree k) s).ctx c).st ≠ .opened := by
  induction l generalizing s with
  | nil => cases hc
  | cons k l ih =>
    cases hc with
    | head => exact foldl_teardownFree_keeps l _ (s.teardownFree_leaves c).1
    | tail _ h => exact ih h _
theorem only_unbind (s : State) (m : Nat) : Only [.fmn] s (s.unbind m) := only_setMb s m _
theorem State.unbind_bound (s : State) (m k : Nat) : ((s.unbind m).mb k).bound = if k = m then none else (s.mb k).bound := by
  unfold State.unbind
  split
  · next h =>
    rw [h]
    exact congrArg Mailbox.bound (State.mb_setMb_self s m _)
  · next h => exact congrArg Mailbox.bound (State.mb_setMb_ne s _ h)
theorem functionLevelReset_takes : ∀ s : State, Yields .functionLevelReset s (fun t => (∀ c, tget t.bus.pf1Ctx c = false) ∧
    (∀ k, 64 ≤ k → t.msixVec k = {}) ∧ (∀ m, 4 ≤ m → m ≤ 7 → (t.mb m).bound = none) ∧
    (∀ c, c < 32 → tget s.bus.pf1Ctx c = true → (t.ctx c).st ≠ .opened) ∧
    tget t.bus.msixOn 1 = false ∧ tget t.bus.busMaster 1 = false ∧ tget t.bus.barsAssigned 1 = false ∧
    tget t.bus.msixOn 0 = tget s.bus.msixOn 0 ∧ t.aon = s.aon ∧ t.clk = s.clk ∧ t.rst = s.rst) := by
  intro s
  obtain ⟨s1, hs1⟩ : ∃ u, ((List.range 32).filter (fun c => tget s.bus.pf1Ctx c)).foldl (fun u c => u.teardownFree c) s = u := ⟨_, rfl⟩
  obtain ⟨s2, hs2⟩ : ∃ u, ([4, 5, 6, 7] : List Nat).foldl (fun u m => u.unbind m) s1 = u := ⟨_, rfl⟩
  have h1 : Only tearParts s s1 := by
    rw [← hs1]
    exact Only.foldl (fun u c _ => tear_teardownFree u c) s
  have h2 : Only [.fmn] s1 s2 := by
    rw [← hs2]
    exact Only.foldl (fun u m _ => only_unbind u m) s1
  have h12 : Only tearParts s s2 := (h2.mono (by decide)).after h1
  have hbus : s2.bus = s.bus := h12.bus (by decide)
  have hexec : exec .functionLevelReset s = done s { s2 with bus := { s2.bus with
      pf1Ctx := []
      msix := Tab.clear (fun k => decide (64 ≤ k)) s2.bus.msix
      barsAssigned := tset s2.bus.barsAssigned 1 false
      busMaster := tset s2.bus.busMaster 1 false
      msixOn := tset s2.bus.msixOn 1 false
      reads := s2.bus.reads.filter (fun r => r.master != Config.mPf1) } } := by
    rw [← hs2, ← hs1]
    rfl
  refine yields_done hexec ⟨fun c => ?_, fun k hk => ?_, fun m h4 h7 => ?_, fun c hc hctx => ?_, ?_, ?_, ?_, ?_, ?_, ?_, ?_⟩
  · rw [finish_bus]
    rfl
  · rw [finish_msixVec]
    exact (Tab.get_clear msixReset (fun k => decide (64 ≤ k)) _ k).trans (if_pos (decide_eq_true hk))
  · rw [finish_mb]
    show (s2.mb m).bound = none
    rw [← hs2]
    simp only [List.foldl, State.unbind_bound]
    grind
  · rw [finish_ctx]
    show (s2.ctx c).st ≠ .opened
    rw [show s2.ctx c = s1.ctx c from congrArg (fun x : Sch => Tab.get ctxReset x.ctxs c) (h2 .sch (by decide)), ← hs1]
    exact foldl_teardownFree_closes (List.mem_filter.2 ⟨List.mem_range.2 hc, hctx⟩) s
  iterate 3
    rw [finish_bus]
    exact (tget_tset _ _ _ _).trans (if_pos rfl)
  · rw [finish_bus]
    exact (tget_tset _ _ _ _).trans ((if_neg (by decide)).trans (by rw [hbus]))
  · rw [finish_aon]
    exact h12.aon (by decide)
  · rw [finish_clk]
    exact h12.clk (by decide)
  · rw [finish_rst]
    exact h12 .rst (by decide)

/-- Settles O22: the waiting accesses of the host take effect in order, and the reset of PF1 leaves the rest. -/
theorem hostAccesses : Obligations.HostAccesses :=
  ⟨⟨orderedDoorbellEffect_done, barAccess_waits, barAccess_msixWrite, nonpostedReadComplete_msix⟩, poisonedInboundWrite_counts, functionLevelReset_takes⟩

end Sys2Proof.Machine
end
